-- ==== Sys2Proof/Word.lean ====
section
/-! DEFINITION. The words of the Ilugoef: a register word of 32 bits (R10), a byte, and nothing else. -/
namespace Sys2Proof

/-- A register word (R10). -/
abbrev Word := BitVec 32

/-- A byte of an image, a record, a buffer or a bank word. -/
abbrev Byte := BitVec 8

end Sys2Proof
end

