-- ==== Sys2Proof/Syntax.lean ====
section
/-! DEFINITION. The commands of the Ilugoef: one constructor of `Instr` for each row of the spec's table of
operations and events, with the operands by which the sender says what the outside world contributes to it.
A command that is a write of one register carries the written word; a command that reads host memory, a link or
a die carries the bytes that arrived. -/
namespace Sys2Proof

/-- Who makes a register access (R471, R474). -/
inductive Requester where
  | host | keeper | jtag
  deriving DecidableEq, Repr

/-- The blocks with a select register (R468, R473). -/
inductive SelBlock where
  | nfc | jet | reed | dec | rsv | spt | inl
  deriving DecidableEq, Repr

/-- Where an uncorrectable Cistern read falls (R398). -/
inductive CisternRegion where
  | buffer (rill stage : Nat)
  | pool (batch : Nat)
  | catalogue
  | map
  | other
  deriving DecidableEq, Repr

/-- Who reads a Reservoir word that is uncorrectable (R305), or, for `corrected`, the data column of a single-bit error that the read of
an engine corrects. -/
inductive BankReader where
  | stage (rill stage : Nat)
  | task (t : Nat)
  | client (c : Nat)
  | corrected (column : Nat)
  deriving DecidableEq, Repr

/-- An engine that accesses a Reservoir bank beside the host window (R306, R307): a stage of a Rill, a Spout, the Sluice, the Weir,
Keeper, or a client of Basin. -/
inductive BankEngine where
  | rill (n : Nat)
  | spout (n : Nat)
  | sluice
  | weir
  | keeper
  | client (c : Nat)
  deriving DecidableEq, Repr

/-- What the cells give when a page is read (R163): the bits corrected by the hard-decision decode, by the read with each ladder entry
in order, and by the soft-decision read, none where a decode fails; and the channels whose page of the stripe cannot be read
where the unit is rebuilt. -/
structure PageRead where
  hard : Option Nat
  ladder : List (Option Nat)
  soft : Option Nat
  unreadable : List Nat
  deriving DecidableEq, Repr

/-- A die's geometry as its ONFI parameter page gives it (R147): data and spare bytes of a page, bits per cell, planes,
native pages per block, blocks. -/
structure DieGeometry where
  pageData : Nat
  spare : Nat
  bits : Nat
  planes : Nat
  pages : Nat
  blocks : Nat
  deriving DecidableEq, Repr

/-- A die as it answers READ ID and READ PARAMETER PAGE, with the blocks that its maker has marked bad (R147, R151, R182). -/
structure DieReport where
  id : List Byte
  geometry : DieGeometry
  bad : List Nat
  deriving DecidableEq, Repr

/-- What discovery finds (R142, R147, R464): the dies by array number, and the channels whose PHY fails its first training. -/
structure Discovery where
  dies : List (Nat × DieReport)
  untrained : List Nat
  deriving DecidableEq, Repr

/-- A place on flash: array die, block, page, and whether the block runs in SLC mode (R148). -/
structure FlashLoc where
  die : Nat
  block : Nat
  page : Nat
  slc : Bool
  deriving DecidableEq, Repr

/-- A page that is programmed for the host (R150, R154, R168): with the oldest unit in staging, with padding, or with the journal
records that wait. -/
inductive PageWrite where
  | unit (loc : FlashLoc)
  | pad (loc : FlashLoc)
  | journal (loc : FlashLoc)
  deriving DecidableEq, Repr

/-- A copy of a unit (R145, R160): where to, and what the cells give when its page is read. -/
structure UnitCopy where
  loc : FlashLoc
  read : PageRead
  deriving DecidableEq, Repr

/-- The RFC 2435 header of MJPEG stream data (R388): its type, its Q, the restart interval of types 64 and 65, and the quantisers that the first
packet of a frame carries for Q 128 to 255. -/
structure MjpegHead where
  type : Nat
  q : Nat
  restart : Nat
  tables : List Byte
  deriving DecidableEq, Repr

/-- An AVTP packet, or another frame, as an Inlet receives it (R388, R389): its version and sv bit, its RFC 2435 header where its
format_subtype is MJPEG, whether it is progressive, its pixel format (0 mono, 1 RGB 4:4:4, 2 YCbCr 4:2:2, other formats from 3 on), width and height
in pixels, in units of 8 pixels for MJPEG, and the part of the 5 ns cycle that had passed when it arrived. -/
structure AvtpPacket where
  avtp : Bool
  version : Nat
  sv : Bool
  mjpeg : Option MjpegHead
  progressive : Bool
  streamId : Nat
  subtype : Nat
  seqNum : Nat
  tv : Bool
  timestamp : Nat
  endOfFrame : Bool
  pixelFormat : Nat
  depth : Nat
  width : Nat
  height : Nat
  payload : List Byte
  phase : Nat
  deriving DecidableEq, Repr

/-- A Runnel frame as a Spout receives it (R352, R353): whether it is intact, that is, its CRC holds, and its TYPE, and the KIND of a TIME frame, is
none of the reserved ones. -/
structure RxFrame where
  spout : Nat
  intact : Bool
  deriving DecidableEq, Repr

/-- A microsecond of a link (R354, R374): its Spout, and the codewords that the FEC has corrected and found uncorrectable since the last one. -/
structure LinkTick where
  spout : Nat
  corrected : Nat
  uncorrectable : Nat
  deriving DecidableEq, Repr

/-- How a PTP message is carried (R383). -/
inductive PtpTransport where
  | udpIpv4 | udpIpv6 | ieee8023
  deriving DecidableEq, Repr

/-- Where a PTP message arrives (R383): its port, its domainNumber, and its transport. -/
structure PtpFrom where
  port : Nat
  domain : Nat
  transport : PtpTransport
  deriving DecidableEq, Repr

/-- A clock as a PTP Announce message describes it (IEEE 1588; R377, R383). -/
structure PtpClock where
  priority1 : Nat
  clockClass : Nat
  accuracy : Nat
  variance : Nat
  priority2 : Nat
  identity : Nat
  steps : Nat
  deriving DecidableEq, Repr

/-- What has come of a read of host memory (R190, R203): the bytes that have arrived, in order, and, once the access after them
has failed, the reason as HIF_DMA_ERR_INFO gives it. Fewer bytes than asked for, without a reason, are a read that goes on. -/
structure HostRead where
  bytes : List Byte
  fail : Option Nat
  deriving DecidableEq, Repr

/-- A step of a READ_EXTENT (R210): its next units arrive in Basin, or leave for the host's buffer as credits allow. -/
inductive ReadStep where
  | land (units : Nat)
  | send (units : Nat)
  deriving DecidableEq, Repr

/-- A completed flip count of the read-threshold loop (R164): read level, upward and downward flips. -/
structure FlipCount where
  level : Nat
  up : Nat
  down : Nat
  meanWeight : Nat
  deriving DecidableEq, Repr

/-- What a bring-back sequence finds (R182): whether the die answers, what it answers, and the windows of its calibration scan in order,
each with its age bin. -/
structure BringBack where
  answered : Bool
  report : DieReport
  windows : List (Nat × List FlipCount)
  deriving DecidableEq, Repr

/-- The commands: one constructor per row of the spec's table, in the table's order. (DESIGN CHOICE, assumption 108.) -/
inductive Instr where
  | registerWrite (rq : Requester) (bar off size value : Nat)
  | selectWrite (rq : Requester) (b : SelBlock) (value : Nat)
  | lowWordRead (rq : Requester) (bar off : Nat)
  | bar4Access (addr len : Nat) (write : Option (List Byte)) (corrected : Option Nat) (uncorr : Bool)
  | sampleRelease (rill : Nat)
  | delay (rill : Nat)
  | start (rill : Nat)
  | runFixed (rill : Nat)
  | wait (rill : Nat)
  | bind (rill : Nat)
  | loop (rill : Nat)
  | batchEnd (rill : Nat)
  | stageDone (rill stage wait extra : Nat)
  | startTick
  | markerPhaseEnd (measured : List (List Nat))
  | tagMismatch (rill crossing : Nat)
  | mirrorDrain (ok : Bool)
  | mirCtrlWrite (w : Word)
  | mirrorModeChange
  | replayStart (w : Word) (log : List Byte)
  | lockstepWindow
  | lockstepFrame (dclass windowM1 first digest cycles : Nat)
  | lockstepLost
  | loadStart (w : Word)
  | loadAbort
  | loadTransferDone (image : Option (List Byte))
  | loadStructureDone
  | loadSignatureDone
  | loadStagingDone
  | arm (w : Word)
  | disarm (w : Word)
  | weaveBoundary
  | actDrainDone
  | actSwapDone
  | actOwnershipDone
  | actConstantsDone
  | actPinningDone
  | spareMapWrite (w : Word)
  | signCtrlWrite (rq : Requester) (w : Word)
  | bankViolation (engine : BankEngine) (stage bank word : Nat)
  | jetDetection (jet unit column opIndex : Nat)
  | engineFault (inst : Nat)
  | reedFault (lane : Nat)
  | reservoirUncorr (bank : Nat) (reader : BankReader)
  | cisternUe (region : CisternRegion)
  | rillStop (rill : Nat)
  | engineSelfTestDone (rill : Option Nat) (pass : Bool)
  | realignDone (rill : Nat) (measured : List (List Nat))
  | planArm (t : Nat) (image : HostRead)
  | planTakeEffect (slot : Nat)
  | fetchIssue
  | sampleFetchDone (n : Nat)
  | sluPause (w : Word)
  | walkClr
  | probeStart (w : Word)
  | probeDone
  | nfcRetrain (channel : Nat) (w : Word)
  | zqCalibration (channel : Nat)
  | unitAdmit (t : Nat) (data : HostRead)
  | unitProgrammed (page : PageWrite)
  | pageReadDone (u : Nat) (cells : PageRead)
  | rtWindowEnd (die ageBin : Nat) (flips : List FlipCount)
  | foldUnit (u : Nat) (copy : UnitCopy)
  | relocateUnit (u : Nat) (copy : UnitCopy)
  | copyBlockClose (die block : Nat)
  | checkpointSegment
  | pwrFailNFall
  | pfSafe (powerRemains : Bool)
  | mountComplete (ms : Nat)
  | dflAckWrite (w : Word)
  | dieTimeout (die : Nat)
  | programFail (die block : Nat) (erase : Bool)
  | dieSuspend (w : Word)
  | dieBringBack (w : Word)
  | dieRetire (w : Word)
  | bringBackDone (die : Nat) (found : BringBack)
  | autoBack (die : Nat)
  | lifeEval
  | taskGo (q : Nat) (w : Word)
  | taskFetch (entry : Option (List Byte)) (list : List Byte) (reason : Nat)
  | nop (t : Nat)
  | readExtent (t : Nat) (step : ReadStep)
  | writeExtent (t : Nat)
  | deallocate (t : Nat)
  | flush (t : Nat)
  | inject (t : Nat) (payload : HostRead)
  | format (t : Nat) (descriptor : HostRead)
  | cryptErase (t : Nat)
  | logRead (t : Nat)
  | catalogueLoad (t : Nat) (entries : HostRead)
  | vocabLoad (t : Nat) (image : HostRead)
  | fwDownload (t : Nat) (chunk : HostRead)
  | fwActivate (t : Nat)
  | fwCommit (t : Nat)
  | fwRevert (t : Nat)
  | ledgerWrite (t : Nat) (data : HostRead)
  | ledgerRead (t : Nat)
  | power (t : Nat)
  | telemetry (t : Nat)
  | debugUnlock (t : Nat) (message : HostRead)
  | taskComplete (t : Nat)
  | cqCoalesceTimer (q : Nat)
  | hostStall (posted : Bool)
  | queueEnable (q : Nat) (w : Word)
  | qreset (q : Nat) (w : Word)
  | cqHeadWrite (q : Nat) (w : Word)
  | functionLevelReset
  | linkDown
  | linkRecovery
  | softReset (w : Word)
  | softDone
  | drainExpired
  | p1Entry
  | p2Entry
  | p3Entry
  | powerTaskTimeout
  | handoverGo (bank : Nat) (w : Word)
  | handoverDone (bank : Nat)
  | poolBanksWrite (pool : Nat) (w : Word)
  | cpoolWrite (w : Word)
  | minWrite (client pool : Nat) (w : Word)
  | bufferRequest (requests : List (Nat × Nat))
  | bufferFree (client pool buffer : Nat)
  | fieldBurn (w : Word)
  | burnDone
  | cacheLineFill (lane line stall : Nat) (parity : Bool)
  | pebbleGo (w : Word)
  | pebbleAbort (w : Word)
  | pebbleJobDone (lane : Nat) (source : Option (List Byte)) (verifyFail : Option Nat) (units : Nat)
  | batchEnqueue (rill : Nat)
  | frameSlot (spout : Nat)
  | shaperRefill
  | tableRead (w : Word)
  | tableWrite (w : Word)
  | roceAck (flow psn : Nat)
  | nakSequence (flow psn : Nat)
  | ackTimeout (flow : Nat)
  | rnrNak (flow : Nat)
  | nakRemoteError (flow : Nat)
  | cnp (flow : Nat)
  | cnpHoldEnd (flow : Nat)
  | runnelAck (spout : RxFrame) (lseq : Nat)
  | runnelNak (spout : RxFrame) (lseq : Nat)
  | credit (spout : RxFrame) (endpoint total : Nat)
  | laneMap (spout : RxFrame) (lanes epoch : Nat)
  | retryTimeout (spout : Nat)
  | controlFrameTick (spout : LinkTick)
  | laneFault (spout lane : Nat)
  | laneRetrained (spout lane : Nat)
  | spoutDown (spout : Nat)
  | spoutUp (spout : Nat)
  | flowRejoin (flow : Nat)
  | spoutRetrain (spout : Nat) (w : Word)
  | stallLimit (flow : Nat)
  | memberReady (flow : Nat)
  | resend (w : Word)
  | replayHoldExpire (batch : Nat)
  | crHeadWrite (w : Word)
  | arpRequest (spout address : Nat)
  | ptpAnnounce (port : PtpFrom) (clock : PtpClock)
  | ptpSync (port : PtpFrom) (seq rx origin : Nat) (twoStep : Bool)
  | ptpFollowUp (port : PtpFrom) (seq origin : Nat)
  | ptpDelayReq (port : PtpFrom) (seq rx : Nat)
  | ptpDelayResp (port : PtpFrom) (seq masterRx : Nat)
  | ptpPdelayReq (port : PtpFrom) (seq rx : Nat)
  | ptpPdelayResp (port : PtpFrom) (seq rx peerRx : Nat)
  | ptpPdelayRespFollowUp (port : PtpFrom) (seq peerTx : Nat)
  | ptpSignaling (port : PtpFrom) (logInterval : Int)
  | ptpManagement (port : PtpFrom)
  | ptpSyncInterval (port : Nat)
  | timeRequestTick (spout : Nat)
  | timeRequest (spout : RxFrame) (seq rx hops state : Nat)
  | timeResponse (spout : RxFrame) (seq t2 t3 rx hops state : Nat)
  | timeResponseTimeout (spout seq : Nat)
  | sourceLost
  | sundialSet (w : Word)
  | ppsInEdge (stamp : Nat)
  | refLost
  | estimateWrite
  | avtpPacket (inlet : Nat) (p : AvtpPacket)
  | frameAccept (inlet : Nat)
  | coreHang (core : Nat)
  | coreTakeover (core : Nat)
  | coreRestartDone (core : Nat)
  | keeperRestart (w : Word)
  | keeperIntakeOpen
  | wardenHang
  | wardenRestartDone
  | trialExpire
  | barrierReport (w : Word)
  | engineSelfTest (w : Word)
  | stillwaterStop (w : Word)
  | jtagStillwater
  | stillwaterAt
  | stillwaterArm (w : Word)
  | stillwaterScan (w : Word)
  | scanned
  | resume (w : Word)
  | coreHalt (w : Word)
  | coreResume (w : Word)
  | breakpointHit (core : Nat)
  | snapshot (w : Word)
  | traceSync
  | loopStart (w : Word)
  | loopStop (w : Word) (units errors : Nat) (locked : Bool) (columns : List (Nat × Nat))
  | loopEnd (units errors : Nat) (locked : Bool) (columns : List (Nat × Nat))
  | testModeEnter
  | voltageAdjust (slack : List (Bool × Bool))
  | vrFault
  | frequencyDecision (powerW : Nat) (tj : Int)
  | opChange
  | thermtrip
  | thermtripRelease
  | i3cWake
  | wakeTimer
  | spoutSignalDetect (spout : Nat)
  | pExit (us : Nat)
  | trstBoardN
  | deviceResetRequest (w : Word)
  | deviceResetDrainDone
  | powerOnReset
  | referenceLoss
  | powerOnResetRelease
  | perstN (low : Bool)
  | pllLock
  | cisternInitDone
  | onfiDiscoveryDone (found : Discovery)
  | functionReady
  | firmwareVerified
  | spoutTrainingStart (spout : Nat)
  | bridgeFlitError
  | dmaReadTimeout (queue : Nat) (t : Option Nat) (address : Nat)
  | rnrRetry (flow : Nat)
  | frameStale (inlet : Nat)
  | ref10InPresent
  | ref10InLost
  | inletLinkUp (inlet : Nat)
  | inletLinkDown (inlet : Nat)
  | pcieLinkUp (rate width : Nat) (flit : Bool)
  | trstBoardNRelease
  | channelTrainingDone (channel : Nat) (ok : Bool)
  | registerRead (rq : Requester) (bar off size : Nat)
  | d3hotTransition (enter : Bool)
  deriving DecidableEq, Repr

end Sys2Proof
end

