-- ==== Sys2Proof/Decode.lean ====
section
/-! DEFINITION. The commands that a word of the table spells. The table gives no row any bits: every command comes
from outside with its operands, so no word spells one. -/
namespace Sys2Proof

/-- The command that the bits of a table row spell; the table gives none (its rows have no fields). -/
def decodeTableWord (_nbits _w : Nat) : Option Instr := none

end Sys2Proof
end

