-- ==== Sys2Proof/Config.lean ====
section
/-! DEFINITION. What an implementation fixes and what the spec leaves open: opaque constants without a body, so
that no proof can see a value (assumptions 3 to 6). A value the spec leaves open is one of these applied to what it
depends on, or to the counter `State.free`; so is a standard that the spec names and the model does not write out. -/
namespace Sys2Proof.Config

/-- The value of open point `k` at free-value counter `n`, as a number. -/
opaque freeNat : Nat → Nat → Nat

/-- The nearest integer of an FP32 that is a NaN or an infinity, where R262 to R265 take one. -/
opaque rneOpen : Nat → Int

/-- The design value of the latency of a crossing at an operating point (R50): crossing, operating point. -/
opaque crossingDesign : Nat → Nat → Nat

/-- Whether more upward than downward flips at a read level call for a higher offset (R164). -/
opaque flipRaises : Bool

/-- The hashes of the Keeper stage images that a firmware image carries (R408, R412). -/
opaque stageImages : List Byte → List (List Byte)

/-- The Kryral firmware key and debug key in the warden's boot ROM (R412, R426). -/
opaque firmwareKey : List Byte
opaque debugKey : List Byte

/-- The samples of an RVF frame as packed on the wire: pixel format, depth, payload (R388). -/
opaque rvfSamples : Nat → Nat → List Byte → List Nat

/-- The pixel format, depth, width and height of an RVF frame that comes from the log or from an injection, which carry none of them:
descriptor, payload (R58, R394). -/
opaque rvfForm : List Byte → List Byte → Nat × Nat × Nat × Nat

/-- The lines of a vocabulary image that a Reed lane uses for a sample, in order (R297): image, stage configuration, input. -/
opaque lineUses : List Byte → List Byte → List Byte → List Nat

/-- What a Reservoir byte holds whose bank event `n` has left undefined (R306, R449): event, address. -/
opaque staleByte : Nat → Nat → Byte

/-- What a byte of Cistern's host-directed region holds that nothing has written since reset event `n` (R28): event, offset. -/
opaque cisternByte : Nat → Nat → Byte

/-- Whether a reserved MIR_CTRL.MODE acts as replay rather than as record, and the SDL_CTRL.ROLE as which the reserved one acts
(R68, R396). -/
opaque reservedMode : Nat → Bool
opaque reservedRole : Nat

/-- The layout of Aquifer's own records, by kind and numbers (R151, R152, R167 to R170), and where a die keeps its markers. -/
opaque recordLayout : Nat → List Nat → List Byte
opaque markerPage : Nat → Nat × Nat

/-- The feature value with which a die leaves SLC mode, by feature address (R146). -/
opaque nativeMode : Nat → Nat

/-- The layouts of the boot record, from the slots' states (R411), and of the warden area, from the boot record's copy, the Sundial's
estimate and the wrapped keys (R418). -/
opaque bootLayout : List Nat → List Byte
opaque wardenLayout : List Nat → Option Int → Option (List Byte) → List Byte

/-- The wrapped form of a key pair or secret that the warden keeps (R185): plain bytes. -/
opaque wrapKeys : List Byte → List Byte

/-- How many packets of a queue pair may wait for acknowledgement before its RoCE window is full (R357), beyond the
first. -/
opaque roceWindow : Nat

end Sys2Proof.Config
end

