-- ==== Sys2Proof/Machine/RegName.lean ====
section
/-! DEFINITION. The names of the registers of the Ilugoef, one constructor per register or register
family of the register tables of the chapters (R107, R141, R186, R219, R244, R278, R300, R324, R341, R374,
R396, R427, R448, R467, R481). -/
namespace Sys2Proof.Machine

/-- A register, or a family of registers that the spec numbers (a numbered entry is an index of its family). -/
inductive Reg where
  | MIR_CTRL | MIR_STATUS | MIR_FILL | MIR_DF_INFO
  | MIR_DF_STEP_LO | MIR_DF_STEP_HI | MIR_DF_COUNT | MIR_DEST_LO
  | MIR_DEST_HI | MIR_DEST_SIZE | MIR_RP_STEP_LO | MIR_RP_STEP_HI
  | MIR_LS_CTRL | MIR_LS_STATUS | MIR_LS_WINDOWS | MIR_LS_TIMEOUT
  | CSC_STATUS | CSC_EVENT | CSC_LOAD_CTRL | CSC_LOAD_ADDR_LO
  | CSC_LOAD_ADDR_HI | CSC_LOAD_LEN | CSC_LOAD_RESULT | CSC_LOAD_ERR_OFS
  | CSC_ACT_CTRL | CSC_ACT_STEP_LO | CSC_ACT_STEP_HI | CSC_ACT_STATUS
  | CSC_SIGN_CTRL | CSC_SPARE_MAP | CSC_SPARE_ACTIVE | CSC_JET_AVAIL_LO
  | CSC_JET_AVAIL_HI | CSC_IMG_AVAIL | CSC_ENG_AVAIL | CSC_VA_AVAIL
  | CSC_ACT_COUNT | CSC_S0_HASH | CSC_S1_HASH | SLU_STATUS
  | SLU_EVENT | SLU_CTRL | SLU_AHEAD | SLU_ARM_ERR
  | SLU_STEP_LO | SLU_STEP_HI | SLU_DEFICIT_LO | SLU_DEFICIT_HI
  | SLU_BF_DRAWS | SLU_FILLED | SLU_WALK_MAX | SLU_PROBE_CTRL
  | SLU_PROBE_IN_LO | SLU_PROBE_IN_HI | SLU_PROBE_OUT_LO | SLU_PROBE_OUT_HI
  | AQF_STATUS | AQF_EVENT | AQF_CTRL | AQF_CAP_LO
  | AQF_CAP_HI | AQF_WB | AQF_SLC | AQF_CKPT
  | AQF_RT | AQF_PLACE | AQF_LIFE | AQF_RATING
  | AQF_SPARE | AQF_SEQ_LO | AQF_SEQ_HI | AQF_DFL_HEAD
  | AQF_DFL_ACK | AQF_DIE_CMD | AQF_DIE_RESULT | AQF_CRYPT
  | AQF_MOUNT_MS | NFC_SEL | NFC_CTRL | NFC_STATUS
  | NFC_DIE_STATE_LO | NFC_DIE_STATE_HI | NFC_CORR_LO | NFC_CORR_HI
  | NFC_RETRY | NFC_SOFT | NFC_REBUILD | NFC_RT_MOVES
  | NFC_RT_CLAMP | NFC_FAIL | HIF_STATUS | HIF_EVENT
  | HIF_CTRL | HIF_STALL_LIMIT | HIF_FW_DRAIN | HIF_DMA_ERR_ADDR_LO
  | HIF_DMA_ERR_ADDR_HI | HIF_DMA_ERR_INFO | HIF_PWR_CTRL | HIF_PWR_STATUS
  | HIF_PWR_LAT | HIF_LOCKS | TASK_STATUS | TASK_REFUSED
  | TASK_Q_CTRL | TASK_Q_STATUS | TASK_SQ_BASE_LO | TASK_SQ_BASE_HI
  | TASK_CQ_BASE_LO | TASK_CQ_BASE_HI | TASK_Q_SIZE | TASK_GO
  | TASK_SQ_HEAD | TASK_CQ_HEAD | TASK_CQ_COAL | TASK_SQ_TAIL
  | DEC_SEL | DEC_STATUS | DEC_EVENT | DEC_SAMPLES
  | DEC_REJECTS | DEC_LAST_REJECT | DEC_LAST_G_LO | DEC_LAST_G_HI
  | DEC_CYCLES_LO | DEC_CYCLES_HI | DEC_PK_BATCHES | DEC_PK_FILLED
  | DEC_PK_OVERFLOW | DEC_PK_DIGEST_LO | DEC_PK_DIGEST_HI | DEC_PK_STEP_LO
  | DEC_PK_STEP_HI | JET_SEL | JET_STATUS | JET_EVENT
  | JET_CTRL | JET_SAMPLES | JET_REJECTS | JET_DETECTS
  | JET_FAULT_INFO | JET_FAULT_STEP_LO | JET_FAULT_STEP_HI | JET_MACS_LO
  | JET_MACS_HI | JET_CYCLES_LO | JET_CYCLES_HI | JET_SIEVE_KEEP
  | JET_SIEVE_DROP | JET_LAST_SCORE | REED_SEL | REED_STATUS
  | REED_EVENT | REED_SAMPLES | REED_REJECTS | REED_TOKENS_LO
  | REED_TOKENS_HI | REED_MISSES | REED_STALL_LO | REED_STALL_HI
  | REED_ESCAPES | REED_STOPS | REED_LAST_REJECT | REED_VOCAB_STATE
  | REED_VOCAB_ERR | REED_VOCAB_TAG_LO | REED_VOCAB_TAG_HI | BSN_STATUS
  | BSN_EVENT | BSN_CPOOL | BSN_NONE | BSN_VIOL_INFO
  | BSN_POOL_BANKS | BSN_POOL_THR | BSN_POOL_INUSE | BSN_POOL_TOTAL
  | BSN_CLIENT_CFG | BSN_MIN | RSV_SEL | RSV_OWNER
  | RSV_EVENT | RSV_ECC_CORR | RSV_ECC_UNCORR | RSV_ECC_COL
  | RSV_FIELD_STAGE | RSV_SPARE_COL | RSV_VIOL | RSV_FIELD_CTRL
  | RSV_FIELD_RESULT | PBL_STATUS | PBL_EVENT | PBL_JOB_CTRL
  | PBL_SRC_LO | PBL_SRC_HI | PBL_DST_LO | PBL_DST_HI
  | PBL_SRC_LEN | PBL_DST_LEN | PBL_JOB_RESULT | PBL_IN_DONE
  | PBL_OUT_DONE | PBL_BLOCKS | PBL_LOSS | PBL_FAILS
  | PBL_STATE | PBL_RESUME | SPT_SEL | SPT_CTRL
  | SPT_STATUS | SPT_EVENT | SPT_MAC_LO | SPT_MAC_HI
  | SPT_TX_FRAMES_LO | SPT_TX_FRAMES_HI | SPT_RETRY | SPT_FEC_CORR
  | SPT_FEC_UNCORR | SPT_CNP | SPT_DISCARD | SPT_STALL_LIMIT
  | SPT_REPLAY_HOLD | WEIR_STATUS | WEIR_EVENT | WEIR_CTRL
  | WEIR_POOL | WEIR_POOL_USED | WEIR_TBL_CTRL | WEIR_TBL_DATA
  | WEIR_RILL_MAP | WEIR_RESEND | WEIR_RESEND_FSN | WEIR_CR_BASE_LO
  | WEIR_CR_BASE_HI | WEIR_CR_SIZE | WEIR_CR_HEAD | WEIR_CR_TAIL
  | WEIR_DEFICIT_LO | WEIR_DEFICIT_HI | WEIR_MISSED | WEIR_RESENT
  | WEIR_TIMERS | WEIR_VTIME_SEL | WEIR_VTIME_LO | WEIR_VTIME_HI
  | WEIR_CR_LOST | SDL_STATUS | SDL_EVENT | SDL_CTRL
  | SDL_CLOCK | SDL_TIME | SDL_SET | SDL_OFFSET
  | SDL_FREQ | SDL_SERVO | SDL_PPS | SDL_UTC
  | SDL_PORT | INL_SEL | INL_CTRL | INL_STATUS
  | INL_EVENT | INL_AGE | INL_ACCEPTED | INL_RUNT
  | INL_LONG | INL_STALE | INL_GAP | INL_DROP_OTHER
  | INL_LAST_DROP | INL_SID_LO | INL_SID_HI | INL_SCFG
  | INL_SMAX | SVC_STATUS | SVC_EVENT | SVC_CTRL
  | SVC_WDT | SVC_CORE | SVC_HANGS | SVC_FW_STATUS
  | SVC_TRIAL | SVC_RILL_FAULT | SVC_RILL_STEP_LO | SVC_RILL_STEP_HI
  | SVC_REBUILDS | SVC_BARRIER_LO | SVC_BARRIER_HI | SVC_SUSPECT_CFG
  | SVC_SUSPECT_SUM | SVC_PEER_SEL | SVC_PEER_LATE | SVC_ENG_CMD
  | DBG_STW_STATUS | DBG_STW_CTRL | DBG_STW_EN | DBG_STW_SEEN
  | DBG_STW_AT_LO | DBG_STW_AT_HI | DBG_STW_AT_CYC | DBG_STW_ADDR_LO
  | DBG_STW_ADDR_HI | DBG_STW_LEN | DBG_EVENT | DBG_BRK_CTRL
  | DBG_BRK_STATUS | DBG_SNAP | DBG_TRACE_BASE_LO | DBG_TRACE_BASE_HI
  | DBG_TRACE_CTRL | DBG_TRACE_PTR | DBG_TRACE_LOST | DBG_ALIGN
  | DBG_W_CFG | DBG_W_LO | DBG_W_SCALE | DBG_W_MATCH_LO
  | DBG_W_MATCH_HI | DBG_W_DIGEST_LO | DBG_W_DIGEST_HI | DBG_W_MIN
  | DBG_W_MAX | DBG_W_MEAN | DBG_W_FINITE | DBG_W_NONFINITE
  | DBG_W_STEP_LO | DBG_W_STEP_HI | DBG_W_HIST | TST_MODE
  | TST_LOOP_CTRL | TST_LOOP_STATUS | TST_LOOP_ERRORS | TST_LOOP_UNITS_LO
  | TST_LOOP_UNITS_HI | PWR_STATUS | PWR_EVENT | PWR_OP
  | PWR_LIMIT | PWR_MEAS | PWR_VOLT | PWR_WAKE_EN
  | PWR_WAKE_CAUSE | PWR_WAKE_TIMER | PWR_RST_CTRL | PWR_RST_CAUSE
  | GLB_ID_LO | GLB_ID_HI | GLB_UID_LO | GLB_UID_HI
  | GLB_STATUS | GLB_CAUSE | GLB_INT_EN | GLB_SPT_CAUSE
  | GLB_SPT_INT_EN | GLB_VIOL_ADDR | GLB_VIOL_INFO | GLB_VIOL_COUNT
  deriving DecidableEq, Repr

/-- The blocks whose windows hold registers (R468, R470). -/
inductive Blk where
  | aqf | bsn | csc | dbg | dec | glb | hif | inl | jet | mir | nfc | pbl | pwr | reed | rsv | sdl | slu | spt | svc | task | tst | weir
  deriving DecidableEq, Repr

/-- The access codes of R12. -/
inductive Acc where
  | ro | rw | w1c | w1s | sc | wo | rwo | cnt
  deriving DecidableEq, Repr

/-- The reset domains of R461. -/
inductive Dom where
  | func | device | poweron
  deriving DecidableEq, Repr

/-- A field of a register: its register and its bit range. -/
structure Fld where
  reg : Reg
  hi : Nat
  lo : Nat
  deriving DecidableEq, Repr

/-- One field of a register's table: bits, access code, reset value. -/
structure FieldSpec where
  hi : Nat
  lo : Nat
  acc : Acc
  reset : Nat
  deriving DecidableEq, Repr

/-- Where a register lies and how often it repeats: entry (k, k2) of a family of `rep` by `rep2` entries
lies at `base + k * stride + k2 * stride2`; `perInst` registers exist once per instance of the block. -/
structure RegPlace where
  blk : Blk
  bar : Nat
  base : Nat
  stride : Nat
  rep : Nat
  stride2 : Nat
  rep2 : Nat
  perInst : Bool
  dom : Dom
  deriving DecidableEq, Repr

end Sys2Proof.Machine
end

