-- ==== Sys2Proof/Machine/Bits.lean ====
section
/-! DEFINITION. Bit fields of a register word, and numbers as little-endian bytes (R10: every register and
every record of the manual is little-endian). -/
namespace Sys2Proof.Machine

/-- The number a field of a word holds. -/
def Fld.get (f : Fld) (w : Word) : Nat :=
  (w.extractLsb' f.lo (f.hi + 1 - f.lo)).toNat

/-- Ones at the bits `lo` to `hi` of a word. -/
def maskBits (hi lo : Nat) : Word :=
  ((BitVec.allOnes (hi + 1 - lo)).setWidth 32) <<< lo

/-- A word with one field replaced by the low bits of `v`. -/
def Fld.set (f : Fld) (w : Word) (v : Nat) : Word :=
  (w &&& ~~~ (maskBits f.hi f.lo)) ||| (((BitVec.ofNat (f.hi + 1 - f.lo) v).setWidth 32) <<< f.lo)

/-- Bit `i` of a number. -/
def bitOf (n i : Nat) : Bool := n.testBit i

/-- The bits `lo` to `hi` of a number. -/
def bitsOf (n hi lo : Nat) : Nat := (n / 2 ^ lo) % 2 ^ (hi + 1 - lo)

/-- A number with one bit set. -/
def setBit (n i : Nat) : Nat := if n.testBit i then n else n + 2 ^ i

/-- A number with one bit cleared. -/
def clearBit (n i : Nat) : Nat := if n.testBit i then n - 2 ^ i else n

/-- A byte that holds the low eight bits of a number. -/
def byteOf (n : Nat) : Byte := BitVec.ofNat 8 n

/-- The first `k` bytes of a number, least significant first. -/
def leBytes : Nat → Nat → List Byte
  | 0, _ => []
  | k + 1, n => byteOf n :: leBytes k (n / 256)

/-- The number that bytes spell, least significant first. -/
def leNat : List Byte → Nat
  | [] => 0
  | b :: bs => b.toNat + 256 * leNat bs

/-- The little-endian number in `k` bytes at offset `ofs`; bytes past the end count as zero. -/
def leAt (bs : List Byte) (ofs k : Nat) : Nat := leNat ((bs.drop ofs).take k)

/-- Whether every byte of a list is zero. -/
def allZero (bs : List Byte) : Bool := bs.all (fun b => b == 0#8)

/-- A list of `n` zero bytes. -/
def zeros (n : Nat) : List Byte := List.replicate n 0#8

/-- A list cut or padded with zero bytes to exactly `n` bytes. -/
def fitBytes (n : Nat) (bs : List Byte) : List Byte := bs.take n ++ zeros (n - bs.length)

/-- The least multiple of `a` that is at least `n`. -/
def alignUp (a n : Nat) : Nat := (n + a - 1) / a * a

/-- `n / d`, rounded up. -/
def ceilDiv (n d : Nat) : Nat := (n + d - 1) / d

/-- A list with entry `i` changed by `f`; unchanged where it has no entry `i`. -/
def modAt {α : Type} (f : α → α) : Nat → List α → List α
  | _, [] => []
  | 0, x :: xs => f x :: xs
  | i + 1, x :: xs => x :: modAt f i xs

/-- A list with entry `i` replaced. -/
def putAt {α : Type} (i : Nat) (v : α) (xs : List α) : List α := modAt (fun _ => v) i xs

/-- A two's complement number of `w` bits as an integer. -/
def toSigned (w n : Nat) : Int :=
  if n % 2 ^ w < 2 ^ (w - 1) then (n % 2 ^ w : Nat) else ((n % 2 ^ w : Nat) : Int) - (2 ^ w : Nat)

/-- The low `w` bits of an integer in two's complement. -/
def ofSigned (w : Nat) (x : Int) : Nat := (x % ((2 ^ w : Nat) : Int)).toNat

/-- An integer clamped to a range. -/
def clampInt (lo hi x : Int) : Int := if x < lo then lo else if hi < x then hi else x

end Sys2Proof.Machine
end

