-- ==== Sys2Proof/Machine/Crc.lean ====
section
/-! DEFINITION. CRC-32C (Castagnoli), the checksum of records, sections, headers and spill blocks. The spec names
the polynomial by its standard name; the reflected form with all ones before and after is that standard's. -/
namespace Sys2Proof.Machine

/-- One bit of the reflected CRC-32C. -/
def crcBit (c : Word) : Word := if c.getLsbD 0 then (c >>> 1) ^^^ 0x82F63B78#32 else c >>> 1

/-- One byte of the reflected CRC-32C. (PRESUMED, assumption 40.) -/
def crcByte (c : Word) (b : Byte) : Word :=
  let c := c ^^^ b.setWidth 32
  crcBit (crcBit (crcBit (crcBit (crcBit (crcBit (crcBit (crcBit c)))))))

/-- CRC-32C of a list of bytes. (PRESUMED, assumption 40.) -/
def crc32c (bs : List Byte) : Nat := ((bs.foldl crcByte 0xFFFFFFFF#32) ^^^ 0xFFFFFFFF#32).toNat

end Sys2Proof.Machine
end

