-- ==== Sys2Proof/Machine/AquiferTypes.lean ====
section
/-! DEFINITION. Aquifer as data beside its registers (R142 to R185): the map in Cistern, staging and the open stripes' parity; on
flash the pages with their metadata, the block states, the map checkpoints with their directories and the markers; the format, the
deferred-error log, and what the loops have learned. -/
namespace Sys2Proof.Machine

/-- A map entry (R148). -/
inductive MapUnit where
  | unmapped
  | lost
  | mapped (loc : FlashLoc)
  deriving DecidableEq, Repr

/-- The 40-bit value of a map entry (R148). -/
def MapUnit.value : MapUnit → Nat
  | .unmapped => 0
  | .lost => 2 * 2 ^ 38
  | .mapped l => 2 ^ 38 + (if l.slc then 2 ^ 37 else 0) + l.die % 2 ^ 10 * 2 ^ 24 + l.block % 2 ^ 13 * 2 ^ 11 + l.page % 2 ^ 11

/-- The bytes of a map entry: little-endian, [36:34] zero (R148). -/
def MapUnit.bytes (m : MapUnit) : List Byte := leBytes 5 m.value

/-- The place that a map entry's value names. -/
def locOf (v : Nat) : FlashLoc := ⟨bitsOf v 33 24, bitsOf v 23 11, bitsOf v 10 0, bitOf v 37⟩

/-- The unit metadata of a programmed page (R152); `source` is the map entry that a COPY was copied from. -/
structure PageMeta where
  unit : Nat
  atomic : Bool
  parity : Bool
  pad : Bool
  copy : Bool
  groupCount : Nat
  seq : Nat
  group : Nat
  source : Nat
  deriving DecidableEq, Repr

/-- The 64 bytes of a page's metadata (R152). -/
def PageMeta.bytes (m : PageMeta) : List Byte :=
  let flag := fun (b : Bool) (n : Nat) => if b then n else 0
  let body := leBytes 5 (m.unit % 2 ^ 34) ++ leBytes 1 (flag m.atomic 1 + flag m.parity 2 + flag m.pad 4 + flag m.copy 8)
    ++ leBytes 2 m.groupCount ++ leBytes 8 m.seq ++ leBytes 8 m.group ++ leBytes 5 m.source ++ zeros 31
  body ++ leBytes 4 (crc32c body)

/-- What a journal record says of the map (R168): the units that a DEALLOCATE covers wholly, or a unit that is LOST. -/
inductive JournalOp where
  | clear (first count : Nat)
  | lost (unit : Nat)
  deriving DecidableEq, Repr

/-- A journal record with its SEQ, and the task that waits for it, if any (R149, R168, R204). -/
structure JournalRec where
  seq : Nat
  op : JournalOp
  task : Option Nat
  deriving DecidableEq, Repr

/-- A programmed page: a unit, a parity page or padding with its metadata and data, the data as they were before encryption
with the key pair `keys` (R152, R185); a block's summary, the metadata of its pages with the SEQ at which it closed (R151, R152);
or journal records (R168). Each carries its own metadata (R152). -/
inductive FlashPage where
  | unit (info : PageMeta) (data : List Byte) (keys : Option (List Byte))
  | summary (info : PageMeta) (metas : List PageMeta) (seq : Nat)
  | journal (info : PageMeta) (records : List JournalRec)
  deriving DecidableEq, Repr

/-- A container that Keeper writes through the cache path (R161, R339): its bytes, its first sector, the sectors of it that have entered
staging, and the place, CLASS and USER of its catalogue entry. -/
structure CacheWrite where
  bytes : List Byte
  first : Nat
  done : Nat
  index : Nat
  cls : Nat
  user : Nat
  deriving DecidableEq, Repr

/-- A unit in staging (R153, R154): its write task, none for the cache path, whether readers see it, when its task was acknowledged (as the number of the
next task then), the number of units of its atomic group, 0 where it is in none, and the page and SEQ that it has been programmed at
while its stripe or its group is not yet whole; the dies whose programs of it failed (R176, R180); whether the cache path wrote it (R161). -/
structure Staged where
  task : Option Nat
  unit : Nat
  data : List Byte
  seen : Bool
  acked : Option Nat
  group : Nat
  loc : Option (FlashLoc × Nat)
  failed : List Nat
  cache : Bool
  deriving DecidableEq, Repr

/-- Block states (R151). -/
inductive BlockState where
  | free | openHost | openJournal | openCopy | closed | checkpoint | bad | grownBad
  deriving DecidableEq, Repr

/-- A block: its state, its mode, pages programmed, its erase counts in native and SLC mode, the always-on time at which its first
page was programmed (R164), the SEQ at which it closed, and whether it is an OPEN_COPY block whose copies were abandoned (R170, R174). -/
structure BlockSt where
  state : BlockState
  slc : Bool
  used : Nat
  eraseN : Nat
  eraseS : Nat
  born : Nat
  closedAt : Nat
  gone : Bool
  deriving DecidableEq, Repr

def BlockSt.fresh : BlockSt := ⟨.free, false, 0, 0, 0, 0, 0, false⟩

/-- A segment checkpoint (R167): its segment, the CHECKPOINT blocks that hold it, and the entries of its units that are not
UNMAPPED. -/
structure SegmentSt where
  index : Nat
  blocks : List Nat
  entries : List (Nat × MapUnit)
  deriving DecidableEq, Repr

/-- A copy of the directory (R167): the CHECKPOINT block that holds it, and for each segment with an entry its checkpoint's first
block, none where the segment has no entry to hold, and its CKPT_SEQ; and the CRC that guards them (R173). -/
structure Directory where
  block : Nat
  entries : List (Nat × Option Nat × Nat)
  crc : Nat
  deriving DecidableEq, Repr

/-- What Aquifer's own pages hold beside unit pages: the spec gives the contents of a block summary, a page of journal records, the
directory, and the two markers, but no layout of them. -/
inductive OwnRecord where
  | summary | journal | directory | marker | clean
  deriving DecidableEq, Repr

/-- The bytes of one of Aquifer's own records, an open function of its numbers. (DESIGN CHOICE, assumption 117.) -/
def OwnRecord.bytes (k : OwnRecord) (l : List Nat) : List Byte :=
  Config.recordLayout (match k with | .summary => 0 | .journal => 1 | .directory => 2 | .marker => 3 | .clean => 4) l

/-- The bytes of a directory copy, and whether its CRC is that of its bytes. -/
def dirBytes (entries : List (Nat × Option Nat × Nat)) : List Byte :=
  OwnRecord.bytes .directory (entries.flatMap (fun e => [e.1, (e.2.1.map (· + 1)).getD 0, e.2.2]))
def dirCrc (entries : List (Nat × Option Nat × Nat)) : Nat := crc32c (dirBytes entries)
def Directory.valid (d : Directory) : Bool := d.crc == dirCrc d.entries

/-- What a format fixes (R146, R158, R183, R185, R202): the settings of the descriptor, the 256 bytes of the die profile, and the
exported units. -/
structure FormatSt where
  slcPct : Nat
  opPct : Nat
  crypt : Bool
  slcDiv : Nat
  dieBudget : Nat
  spareBlks : Nat
  profile : List Byte
  units : Nat
  deriving DecidableEq, Repr

/-- A deferred-error entry (R176). -/
structure Deferred where
  index : Nat
  sector : Nat
  count : Nat
  cause : Nat
  die : Nat
  time : Nat
  deriving DecidableEq, Repr

/-- Aquifer. `found` are the dies as discovery found them, and `ids` are the IDs and parameter pages recorded at format (R182); `retired` the dies retired since; `keys` the key pair in
the NFC path (R185); `parity` the exclusive-or of each stripe whose parity page is not programmed yet (R150); `journal` the records not
yet programmed; `segments` the segment checkpoints on flash by first block, `dirs` the directory copies, newest first, and `base` the
CKPT_SEQ of a segment that neither names (R167); `markers` the power-loss markers by die (R170); `clean` says that the clean marker
stands (R169); `codewords` are the codewords decoded in the present window of a die and age bin (R164); `training` the channels whose
PHY trains, each with the dies that were ONLINE; `bringing` the dies in the bring-back sequence, with whether a command asked for
it; `tried` the suspended dies whose automatic attempt is spent; `drainLost` the units that a drain could not program, by atomic group,
each group with the lowest die that failed; `failed` the dies that failed during the drain; `cached` the units that the cache path
wrote, and `cacheIn` the containers that wait to enter staging (R161, R339); `folded` how many units host intake may still admit above THROTTLE (R159); `programs` and `placed` the pages programmed
since the mount, and those among them that relocation programmed (R166). `written` is the always-on time at which each unit was last
written (R166); `busy` the time in µs that a die has worked since the mount, and the part of it that folding took (R159); `paused`
the dies with a suspended operation (R162), and `lastHost` those whose last read was for the host (R162). -/
structure AqfSt where
  geometry : Option DieGeometry
  found : List (Nat × DieReport)
  ids : List (Nat × DieReport)
  retired : List Nat
  format : Option FormatSt
  keys : Option (List Byte)
  map : List (Nat × MapUnit)
  staging : List Staged
  parity : List (Nat × List Byte)
  journal : List JournalRec
  blocks : List (Nat × BlockSt)
  flash : List (Nat × FlashPage)
  segments : List (Nat × SegmentSt)
  dirs : List Directory
  base : Nat
  markers : List (Nat × Nat)
  clean : Bool
  seq : Nat
  dflHead : Nat
  dflAck : Nat
  dflLog : List Deferred
  rt : List (Nat × Int)
  codewords : List (Nat × Nat)
  training : List (Nat × List Nat)
  bringing : List (Nat × Bool)
  tried : List Nat
  life : Nat
  keyGen : Nat
  readOnly : Bool
  drainLost : List (List Nat × Nat)
  failed : List Nat
  cached : List Nat
  cacheIn : List CacheWrite
  folded : Nat
  programs : Nat
  placed : Nat
  written : List (Nat × Nat)
  busy : List (Nat × Nat × Nat)
  paused : List Nat
  lastHost : List Nat
  deriving DecidableEq, Repr

/-- An array never formatted. -/
def AqfSt.reset : AqfSt where
  geometry := none
  found := []
  ids := []
  retired := []
  format := none
  keys := none
  map := []
  staging := []
  parity := []
  journal := []
  blocks := []
  flash := []
  segments := []
  dirs := []
  base := 0
  markers := []
  clean := false
  seq := 0
  dflHead := 0
  dflAck := 0
  dflLog := []
  rt := []
  codewords := []
  training := []
  bringing := []
  tried := []
  life := 0
  keyGen := 0
  readOnly := false
  drainLost := []
  failed := []
  cached := []
  cacheIn := []
  folded := 0
  programs := 0
  placed := 0
  written := []
  busy := []
  paused := []
  lastHost := []

/-! ### The die profile (R146, R202): byte `k` of the profile is byte 64 + k of the descriptor -/

def FormatSt.profileAt (f : FormatSt) (k n : Nat) : Nat := leAt f.profile k n
/-- The read levels: 7 or 15. -/
def FormatSt.levels (f : FormatSt) : Nat := f.profileAt 0 1
/-- The method of entering SLC mode, with its feature address and its value or prefix opcode. -/
def FormatSt.slcMethod (f : FormatSt) : Nat × Nat × Nat := (f.profileAt 2 1, f.profileAt 3 1, f.profileAt 4 1)
/-- Whether programs, and erases, can be suspended. -/
def FormatSt.suspendsProgram (f : FormatSt) : Bool := bitOf (f.profileAt 5 1) 0
def FormatSt.suspendsErase (f : FormatSt) : Bool := bitOf (f.profileAt 5 1) 1
def FormatSt.suspendOp (f : FormatSt) : Nat := f.profileAt 6 1
def FormatSt.resumeOp (f : FormatSt) : Nat := f.profileAt 7 1
/-- The feature address of a level's offset: level 0 is the SLC level. -/
def FormatSt.levelFeature (f : FormatSt) (level : Nat) : Nat := f.profileAt (8 + level) 1
/-- The entries of the retry ladder in use, each its offsets by level. -/
def FormatSt.ladder (f : FormatSt) : List (List Int) :=
  (List.range (f.profileAt 152 1)).map (fun e => (List.range 16).map (fun k => toSigned 8 (f.profileAt (24 + 16 * e + k) 1)))
/-- The offset unit in mV: the offsets themselves count in units of it (R146, R164). -/
def FormatSt.offsetMv (f : FormatSt) : Nat := f.profileAt 1 1
/-- The maxima in µs: tR, tPROG and tBERS, each for SLC and native mode. -/
def FormatSt.timeUs (f : FormatSt) (k : Nat) : Nat := f.profileAt (156 + 2 * k) 2
/-- The rated native program/erase cycles. -/
def FormatSt.peNative (f : FormatSt) : Nat := f.profileAt 168 2
/-- The time after which a die counts as having timed out: four times its maximum (R180). -/
def FormatSt.timeoutUs (f : FormatSt) (k : Nat) : Nat := 4 * f.timeUs k

end Sys2Proof.Machine
end

