-- ==== Sys2Proof/Machine/BasinTypes.lean ====
section
/-! DEFINITION. Basin and Reservoir as data beside their registers (R306 to R323). -/
namespace Sys2Proof.Machine

/-- A buffer of a pool, by pool and number. -/
abbrev Buf := Nat × Nat

/-- A buffer that a client holds (R312). -/
structure Grant where
  client : Nat
  pool : Nat
  buffer : Nat
  deriving DecidableEq, Repr

/-- A handover under way (R308): bank, new class, Spout, and whether it clears. -/
structure Handover where
  bank : Nat
  cls : Nat
  spout : Nat
  clear : Bool
  deriving DecidableEq, Repr

/-- Basin and Reservoir. `asks` are the requests that clients make again in the next cycle (R318); `waiting` the banks
whose GO waits for the ownership phase (R309); `fuses` the column entries burned so far as bank, entry and word, and
`fieldUsed` the fuse of
the field burn (R322); `stale` gives the banks whose contents a reset or P3 has left undefined (R306, R449) the number
of that event, by bank; `hostMem` is the host-directed region of Cistern by byte offset, in canonical form, and `hostGen` the number of
the reset that last left it undefined (R28, R341). -/
structure BasinSt where
  grants : List Grant
  asks : List (Nat × Nat)
  handovers : List Handover
  waiting : List Nat
  fuses : List (Nat × Nat × Nat)
  fieldUsed : Bool
  stale : List (Nat × Nat)
  hostMem : List Host.Cell
  hostGen : Nat
  deriving DecidableEq, Repr

def BasinSt.reset : BasinSt := ⟨[], [], [], [], [], false, [], [], 0⟩

end Sys2Proof.Machine
end

