-- ==== Sys2Proof/Machine/ServiceTypes.lean ====
section
/-! DEFINITION. Service, firmware life and observation as data beside their registers (R403 to R443). -/
namespace Sys2Proof.Machine

/-- A settings ledger (R415, R417): its FORMAT, GEN, and records by key. -/
structure LedgerSt where
  format : Nat
  gen : Nat
  records : List (Nat × List Byte)
  deriving DecidableEq, Repr

/-- One batch (R117, R119): its Rill, plan slot, step, slice, served device and epoch. -/
structure BatchName where
  rill : Nat
  slot : Nat
  step : Nat
  slice : Nat
  dev : Nat
  epoch : Nat
  deriving DecidableEq, Repr

/-- Keeper, the warden and firmware. `slots` are the two image slots as written pages of 4 KiB by page number; `boot` is the boot record and
`bootCopy` its copy in the warden area, each the states of slots A and B (R411, R413, R418); `copies` the bytes of the two ledger copies' regions,
up to the last that was written (R411, R415);
`dispatcher` is the core that holds the task dispatcher; `takeovers` the hung cores whose duties wait for a core, with the role each had and
the always-on tick of its expiry; `reloading` the cores
being reset; `hangs` the times of recent hangs; `expired` what waits for the warden, with its tick: the expiry of a core's watchdog as the core's number, a
restart of Keeper as 16, the expiry of a trial as 17; `restart` a whole restart
under way; `stageCore` the core to which each Keeper stage is bound (R436), as Rill, stage and core; `reports` the window of
R420, newest last; `suspects` the numbers suspect after the last report; `log` the fault log (R425); `activating` the task of an FW_ACTIVATE under way and the seconds of its trial; `trialEnd`
the always-on tick at which the trial ends; `challenge` the debug challenge that waits for its response, `failures` the
responses that failed (R426); `detects` the batches with detections counted for RETIRE_AT, by Jet (R276, R277); `saturated` the Jets whose
saturation flag is set (R253); `flashKeys` the flash key pair that the warden area holds in its wrapped form (R185, R418); `engTest` the
TYPE and number of the engine under the self-test of SVC_ENG_CMD (R424); `latch` the always-on tick, the Rill and the cause of the fault
that SVC_RILL_FAULT holds (R400). -/
structure ServiceSt where
  slots : List (List (Nat × List Byte))
  boot : List Nat
  bootCopy : List Nat
  copies : List Byte × List Byte
  dispatcher : Option Nat
  takeovers : List (Nat × Nat × Nat)
  reloading : List Nat
  hangs : List Nat
  wardenDown : Bool
  expired : List (Nat × Nat)
  stageCore : List (Nat × Nat × Nat)
  reports : List (Nat × Nat)
  lastReport : Option Nat
  suspects : List Nat
  log : List (List Byte)
  activating : Option (Nat × Nat)
  trialEnd : Nat
  challenge : Option (List Byte)
  failures : Nat
  detects : List (Nat × BatchName)
  saturated : List Nat
  flashKeys : Option (List Byte)
  engTest : Option (Nat × Nat)
  latch : Option (Nat × Nat × Nat)
  deriving DecidableEq, Repr

def ServiceSt.reset : ServiceSt where
  slots := [[], []]
  boot := [3, 0]
  bootCopy := [3, 0]
  copies := ([], [])
  dispatcher := none
  takeovers := []
  reloading := []
  hangs := []
  wardenDown := false
  expired := []
  stageCore := []
  reports := []
  lastReport := none
  suspects := []
  log := []
  activating := none
  trialEnd := 0
  challenge := none
  failures := 0
  detects := []
  saturated := []
  flashKeys := none
  engTest := none
  latch := none

/-- What the SPI NOR keeps over any reset (R411): the image slots, the boot record and its copy, the ledger copies and the flash keys. -/
def ServiceSt.onNor (v : ServiceSt) : ServiceSt :=
  { ServiceSt.reset with slots := v.slots, boot := v.boot, bootCopy := v.bootCopy, copies := v.copies, flashKeys := v.flashKeys }

/-- A watch unit (R437, R438): whether it taps the batch under way, the digests of the samples that have passed, and their
elements as FP32 bits, in order. -/
structure WatchSt where
  on : Bool
  rill : Nat
  stage : Nat
  dtype : Nat
  digests : List Nat
  elems : List Nat
  deriving DecidableEq, Repr

/-- A loop-back that runs (R445): its interface, depth and instance, whether it ends by its DURATION_MS, and the dies that
it has suspended. -/
structure LoopSt where
  iface : Nat
  depth : Nat
  inst : Nat
  timed : Bool
  dies : List Nat
  deriving DecidableEq, Repr

/-- Observation. `stopTime` is the Sundial time of the trigger that froze the data plane; `startTick` the start tick T;
`tail` the next record of the trace ring; `offsets` the measured offset of each crossing at each operating point (R50, R443); `snapshot` the last
snapshot as its tick and its entries: offset, instance, value; `loop` the loop-back that runs; `scan` the scan-out under
way, as SEEN, BANKS and DEST when it started, and `area` the Stillwater area of Cistern (R28, R433). -/
structure DebugSt where
  stopTime : Nat
  startTick : Nat
  tail : Nat
  offsets : List (List Nat)
  watch : List WatchSt
  snapshot : Option (Nat × List (Nat × Nat × Nat))
  loop : Option LoopSt
  scan : Option (Nat × Bool × Bool)
  area : List Byte
  deriving DecidableEq, Repr

def WatchSt.reset : WatchSt := ⟨false, 0, 0, 0, [], []⟩
def DebugSt.reset : DebugSt := ⟨0, 0, 0, [], List.replicate 8 WatchSt.reset, none, none, none, []⟩

end Sys2Proof.Machine
end

