-- ==== Sys2Proof/Machine/WeaveTypes.lean ====
section
/-! DEFINITION. A weave as data (R69 to R84): what the loader takes from an image. -/
namespace Sys2Proof.Machine

/-- One schedule entry (R77). -/
structure SchedEntry where
  op : Nat
  stage : Nat
  port : Nat
  bank : Nat
  latency : Nat
  operand : Nat
  deriving DecidableEq, Repr

/-- One stage of a Rill (R74, R80, R83); `cfg` is the whole STAGE_CONFIG record, its 8-byte header included. -/
structure WStage where
  stage : Nat
  type : Nat
  input : Nat
  engine : Nat
  mark : Nat
  cfg : List Byte
  deriving DecidableEq, Repr

/-- One Rill of a weave. -/
structure WRill where
  rill : Nat
  stages : List WStage
  sched : List SchedEntry
  deriving DecidableEq, Repr

/-- One CONSTANTS record (R82). -/
structure ConstRec where
  bank : Nat
  word : Nat
  data : List Byte
  deriving DecidableEq, Repr

/-- A loaded weave: `owners` holds the 1,024 BANK_OWNER words. -/
structure Weave where
  rillMask : Nat
  constBytes : Nat
  weaveId : Nat
  hash : List Byte
  signed : Bool
  keySlot : Nat
  rills : List WRill
  owners : List Nat
  consts : List ConstRec
  deriving DecidableEq, Repr

end Sys2Proof.Machine
end

