-- ==== Sys2Proof/Machine/CascadeTypes.lean ====
section
/-! DEFINITION. The weave slots, the loader and the activation as data (R86 to R101), and the Mirror (R54 to R68,
R502, R503). -/
namespace Sys2Proof.Machine

/-- The states of a weave slot (R86), in the order of their codes. -/
inductive SlotState where
  | empty | loading | valid | active | failed
  deriving DecidableEq, Repr

def SlotState.code : SlotState → Nat
  | .empty => 0
  | .loading => 1
  | .valid => 2
  | .active => 3
  | .failed => 4

/-- A weave slot. -/
structure WeaveSlot where
  state : SlotState
  weave : Option Weave
  verified : Bool
  deriving DecidableEq, Repr

/-- The loader's phases (R88). -/
inductive LoadPhase where
  | idle | transfer | structure | signature | staging
  deriving DecidableEq, Repr

/-- The loader: its phase, the slot it fills, whether the source is flash, the address and length asked for, ENFORCE as it
stood when the transfer began, the image, what the structure phase will find as error and offset, and whether the
signature verifies. -/
structure LoaderSt where
  phase : LoadPhase
  slot : Nat
  flash : Bool
  addr : Nat
  len : Nat
  enforce : Bool
  image : List Byte
  verdict : Option (Nat × Nat)
  verified : Bool
  deriving DecidableEq, Repr

def LoaderSt.reset : LoaderSt := ⟨.idle, 0, false, 0, 0, false, [], none, false⟩

/-- The phases of an activation (R97); `release` lasts until the Sluice releases the first sample of the step. -/
inductive ActPhase where
  | idle | drain | swap | ownership | constants | pinning | release | holding
  deriving DecidableEq, Repr

/-- Whether the Sluice may release: no activation stands between its boundary and its release phase, and none has failed. -/
def ActPhase.rests : ActPhase → Bool
  | .idle => true
  | .release => true
  | _ => false

/-- The activation: the armed slot and step, the phase, whether a replay armed it and by which hash, and the number of
activations that have pinned buffers, and CSC_SPARE_MAP as the swap phase sampled it. -/
structure ActSt where
  armed : Option (Nat × Nat)
  phase : ActPhase
  slot : Nat
  step : Nat
  byHash : Option (List Byte)
  gen : Nat
  spare : Nat
  deriving DecidableEq, Repr

structure CascadeSt where
  slots : List WeaveSlot
  loader : LoaderSt
  act : ActSt
  deriving DecidableEq, Repr

def CascadeSt.reset : CascadeSt where
  slots := [⟨.empty, none, false⟩, ⟨.empty, none, false⟩]
  loader := LoaderSt.reset
  act := ⟨none, .idle, 0, 0, none, 0, 0⟩

/-- The Mirror settings that take effect together (R68). -/
structure MirSetting where
  en : Bool
  replay : Bool
  batchRec : Bool
  vtRec : Bool
  deriving DecidableEq, Repr

/-- A replay in progress (R58 to R60, R503): its records from the log's start as bytes, how the log ends (at a segment
of another class, or plainly), its start step, the STEP of its last record, the batches compared as
Rill and step, and the batches of parts that stood in the Rills when it began. -/
structure Replay where
  log : List (List Byte)
  mismatch : Bool
  first : Nat
  last : Nat
  compared : List (Nat × Nat)
  before : List BatchName
  deriving DecidableEq, Repr

/-- A record in the ring, with the place it drains to: host memory or a flash extent, byte address, and the end of the
destination (R502); `done` counts its bytes that have entered flash. -/
structure RingRec where
  host : Bool
  addr : Nat
  limit : Nat
  bytes : List Byte
  done : Nat
  deriving DecidableEq, Repr

/-- A DET_FAULT record that waits for room in the ring (R54): its Rill byte, its step and its body. -/
structure HeldRec where
  rill : Nat
  step : Nat
  body : List Byte
  deriving DecidableEq, Repr

/-- The Mirror: the settings in effect, the ring with the records not yet drained (oldest first), the DET_FAULT records that wait for
room, the next SEQ, the destination sampled when the recording began (DEST, address, size in bytes) with the bytes written to it, the
replay, and when the latched determinism fault was detected, with its Rill and cause (R53). -/
structure MirrorSt where
  now : MirSetting
  ring : List RingRec
  held : List HeldRec
  seq : Nat
  destHost : Bool
  destAddr : Nat
  destSize : Nat
  written : Nat
  replay : Option Replay
  latch : Option (Nat × Nat × Nat)
  deriving DecidableEq, Repr

def MirrorSt.reset : MirrorSt := ⟨⟨false, false, true, true⟩, [], [], 0, false, 0, 0, 0, none, none⟩

/-- Lock-step (R64 to R67): batches of windows not yet closed as step, Rill, digest and cycles; the closed windows not
yet compared as first step, digest and cycle sum; peer frames that came first; whether comparison has stopped, and
whether a peer frame has come. -/
structure LockSt where
  batches : List (Nat × Nat × Nat × Nat)
  closed : List (Nat × Nat × Nat)
  peer : List (Nat × Nat × Nat)
  stopped : Bool
  seen : Bool
  deriving DecidableEq, Repr

def LockSt.reset : LockSt := ⟨[], [], [], false, false⟩

end Sys2Proof.Machine
end

