-- ==== Sys2Proof/Machine/HostTypes.lean ====
section
/-! DEFINITION. The host interface as data: tasks from their fetch to their completion entry (R196 to R207), the
queues' own positions, and the MSI-X store (R470). -/
namespace Sys2Proof.Machine

/-- A task in flight. `sg` are its scatter-list entries as address and length (R198). `landed` are the units of a READ_EXTENT that
wait in Basin for posted credits, each with its buffer, oldest first, and `short` says that a LOST unit follows them (R149, R210).
`prior` is what the slot of a VOCAB_LOAD showed when the task was judged: STATE, ERR, ENTRIES and the tag (R209, R211).
`done` is the status and the result it ends with, once it has ended and until its completion
entry is written; `silent` marks a task that a reset lets run to its end without a completion (R213). -/
structure Task where
  id : Nat
  queue : Nat
  opcode : Nat
  flags : Nat
  tag : Nat
  count : Nat
  target : Nat
  addr : Nat
  sglCount : Nat
  operands : List Byte
  sg : List (Nat × Nat)
  sqHead : Nat
  locked : Bool
  started : Bool
  progress : Nat
  landed : List (List Byte × Buf)
  short : Bool
  prior : Option (Nat × Nat × Nat × Nat)
  done : Option (Nat × Nat)
  silent : Bool
  deriving DecidableEq, Repr

/-- What a queue pair holds beside its registers: the position of its next completion entry, the entries written
and not yet released by the host, those not yet signalled, and whether a finished queue reset still waits for
TASK_CQ_HEAD to read 0 (R214). -/
structure QueueSt where
  cqPos : Nat
  unreleased : Nat
  unsignalled : Nat
  awaitZero : Bool
  deriving DecidableEq, Repr

/-- The host interface's state. `turn` lists the queues that have had their turn in the present rotation (R196); `roAllowed` is the
Enable Relaxed Ordering bit and `maxPayload` the maximum payload size, in bytes, of the Device Control register in configuration space
(R187); `msixTable` lists the words of the MSI-X
table that differ from their reset, `pba` is the pending-bit array; `drainExpired` says that the drain of a FW_ACTIVATE has expired (R215). -/
structure HostSt where
  tasks : List Task
  nextId : Nat
  turn : List Nat
  roAllowed : Bool
  maxPayload : Nat
  queues : List QueueSt
  msixTable : List (Nat × Nat)
  pba : Nat
  drainExpired : Bool
  deriving DecidableEq, Repr

/-- The Type 0 header of the function (R187): vendor, device, revision, class code, header type, and Interrupt Pin. -/
structure CfgHeader where
  vendor : Nat
  device : Nat
  revision : Nat
  classCode : Nat
  headerType : Nat
  interruptPin : Nat
  deriving DecidableEq, Repr

/-- The host interface after a function-level reset. Enable Relaxed Ordering is 1, its default in the PCIe standard, and the maximum
payload size is the greatest that the function supports: no command of the table writes configuration space.
(PRESUMED, assumption 114.) -/
def HostSt.reset : HostSt := ⟨[], 0, [], true, 512, List.replicate 8 ⟨0, 0, 0, false⟩, [], 0, false⟩

end Sys2Proof.Machine
end

