-- ==== Sys2Proof/Machine/Out.lean ====
section
/-! DEFINITION. What leaves the block, in the order in which it leaves: answers to accesses, messages and writes
to the host, frames and messages on its links, and changes of its pins. -/
namespace Sys2Proof.Machine

/-- Why a read carries no data (R471): Unsupported Request, Completer Abort, the Keeper core's bus error, and
the error bit of the JTAG access status. -/
inductive ReadError where
  | unsupported | abort | busError | jtagError
  deriving DecidableEq, Repr

/-- A Spout frame of the Weir: what it carries of a delivery (R347, R351, R352). -/
inductive FrameKind where
  /-- data of a delivery, by its index; the bytes of the batch it carries -/
  | data (index : Nat)
  /-- the delivery's record frame -/
  | record
  deriving DecidableEq, Repr

/-- The requests of RoCEv2 that the block sends (R348). -/
inductive RoceOp where
  | writeFirst | writeMiddle | writeLast | writeOnly | writeOnlyImm
  deriving DecidableEq, Repr

/-- A RoCEv2 packet (R345, R348, R349): its request; the local and the remote queue pair; its PSN; for the first or only packet of a message the
remote address, the remote key, and the message's length; the immediate value; its payload; the MAC address, the IP addresses, the UDP ports, DSCP and
ECN that it goes with, and the priority and identifier of its VLAN tag. -/
structure RocePacket where
  op : RoceOp
  localQp : Nat
  remoteQp : Nat
  psn : Nat
  target : Option (Nat × Nat × Nat)
  imm : Option Nat
  payload : List Byte
  destMac : List Byte
  srcIp : List Byte
  destIp : List Byte
  udpSource : Nat
  udpDest : Nat
  dscp : Nat
  ecn : Nat
  vlan : Option (Nat × Nat)
  deriving DecidableEq, Repr

/-- What a frame of the Weir is on its link: a Runnel frame's bytes, or a RoCEv2 packet. -/
inductive FrameBody where
  | runnel (bytes : List Byte)
  | roce (p : RocePacket)
  deriving DecidableEq, Repr

/-- The errors that the function reports through AER (R187), beside the Unsupported Requests and Completer Aborts that it answers with: of its
own requests, and of a request that no TLP may carry. -/
inductive AerError where
  | completionTimeout | poisoned | malformed
  deriving DecidableEq, Repr

/-- One thing that leaves the block. (DESIGN CHOICE, assumption 19.) -/
inductive Out where
  /-- a register or window read's data (bytes, least significant first) -/
  | reply (rq : Requester) (data : List Byte)
  /-- a read that is answered with an error (R471) -/
  | readError (rq : Requester) (e : ReadError)
  /-- an access held until the device has left a power state (R217) -/
  | held (rq : Requester)
  /-- a write discarded and reported through AER as an advisory non-fatal error (R471); the reason code -/
  | aer (reason : Nat)
  /-- an MSI-X message: its vector, and address and data from the table (R192, R470) -/
  | msix (vector addr data : Nat)
  /-- an elastic client's read of a bank is answered with an error (R305), or an engine's access to a bank that it may not reach
  (R307): the client or class, and the bank -/
  | bankError (who bank : Nat)
  /-- Basin's answer to a client's request (R316): the client and the pool it asked, and the buffer, or none for NONE -/
  | bufferAnswer (client pool : Nat) (buffer : Option Nat)
  /-- the error response to a client's request for a reserved pool, or to its free of a buffer that it does not hold (R319) -/
  | bufferError (client pool : Nat)
  /-- an error that the function reports through AER (R187) -/
  | aerReport (e : AerError)
  /-- a write of host memory (R207, R157), and whether it carries Relaxed Ordering (R187) -/
  | hostWrite (addr : Nat) (bytes : List Byte) (relaxed : Bool)
  /-- a frame of the Weir on a Spout (R356): the flow it belongs to, its delivery's FSN, what it carries -/
  | frame (spout flow fsn : Nat) (resent : Bool) (kind : FrameKind) (body : FrameBody)
  /-- a Runnel control frame (R353): its name and bytes -/
  | control (spout : Nat) (name : String) (bytes : List Byte)
  /-- a PTP message (R383): port, domainNumber, message name, sequence, time stamps -/
  | ptp (port domain : Nat) (name : String) (seq : Nat) (stamps : List Nat)
  /-- an ARP reply or IPv6 neighbour advertisement (R348) -/
  | arpReply (spout address : Nat)
  /-- the VDD_CORE setpoint, in mV, that the warden requests of the tray's regulator (R454) -/
  | vdd (mv : Nat)
  /-- a level driven on a pin -/
  | pin (name : String) (level : Bool)
  /-- a pin that is no longer driven (R386) -/
  | pinOff (name : String)
  /-- a command on a flash channel: the chip enable and the LUN it goes to, its opcode cycles, its addresses or values, and the bytes
  that go with it (R143, R144) -/
  | flash (channel enable lun : Nat) (opcode args : List Nat) (bytes : List Byte)
  /-- bytes written to the trace, scan-out or Mirror destination (R54, R433, R442) -/
  | stream (name : String) (addr : Nat) (bytes : List Byte)
  deriving DecidableEq, Repr

end Sys2Proof.Machine
end

