-- ==== Sys2Proof/Machine/Pebble.lean ====
section
/-! DEFINITION. Pebble: containers (R325, R326), residuals and codes (R327 to R329), block layouts (R330, R331),
limits (R332), checks (R333, R334), stopping and resuming (R335, R336). -/
namespace Sys2Proof.Machine

/-- The settings of a job, and its state between units: the resume record of R335. -/
structure PblState where
  blocks : Nat
  crc : Nat
  phase : Nat
  expand : Bool
  mode : Nat
  table : Bool
  elem : Nat
  strideM1 : Nat
  origLen : Nat
  loss : Nat
  lengths : List Nat
  deriving DecidableEq, Repr

/-- The lengths of the static table (R328). -/
def staticLengths : List Nat := [2, 2, 3, 3, 4, 4, 5, 5, 6, 7, 8, 9, 10, 11, 12, 13, 14, 14]

/-- Bytes per element. -/
def PblState.e (s : PblState) : Nat := if s.elem = 1 then 2 else 1
def PblState.stride (s : PblState) : Nat := s.strideM1 + 1

/-- The code lengths in use (R328, R329). -/
def PblState.codeLens (s : PblState) : List Nat := if s.table then s.lengths else staticLengths

/-- z of a coded value (R327). -/
def zigzag (r : Int) : Nat := if 0 ≤ r then (2 * r).toNat else (-2 * r - 1).toNat
def unzigzag (z : Nat) : Int := if z % 2 = 0 then (z / 2 : Nat) else -(((z + 1) / 2 : Nat) : Int)

/-- The class of z (R327). -/
def zClass (z : Nat) : Nat := if z = 0 then 0 else Nat.log2 z + 1

/-- The first code of each length up to `n`, canonical assignment (R328; RFC 1951, 3.2.2). -/
def firstCode (lens : List Nat) : Nat → Nat
  | 0 => 0
  | n + 1 => (firstCode lens n + (if n = 0 then 0 else lens.countP (· == n))) * 2

/-- The canonical codeword of a class: its length and value. -/
def codeword (lens : List Nat) (c : Nat) : Nat × Nat :=
  let l := lens.getD c 0
  (l, firstCode lens l + (lens.take c).countP (· == l))

/-- A number's low `n` bits, most significant first. -/
def bitsMsb (n v : Nat) : List Bool := (List.range n).map (fun i => v.testBit (n - 1 - i))
/-- A number's low `n` bits, least significant first. -/
def bitsLsb (n v : Nat) : List Bool := (List.range n).map (fun i => v.testBit i)

/-- The bits of one coded element (R328). -/
def elemBits (lens : List Nat) (z : Nat) : List Bool :=
  let c := zClass z
  let w := codeword lens c
  bitsMsb w.1 w.2 ++ (if 2 ≤ c then bitsLsb (c - 1) z else [])

def boolsNat : List Bool → Nat
  | [] => 0
  | b :: bs => (if b then 1 else 0) + 2 * boolsNat bs

/-- Bits packed into `n` bytes from bit 0, zero-padded. -/
def packBits (n : Nat) (bs : List Bool) : List Byte :=
  (List.range n).map (fun i => byteOf (boolsNat ((bs.drop (8 * i)).take 8)))

def unpackBits (bs : List Byte) : List Bool := bs.flatMap (fun b => bitsLsb 8 b.toNat)

/-- The elements of a block of bytes. -/
def blockElems (e : Nat) (bs : List Byte) : List Nat :=
  (List.range (256 / e)).map (fun i => leAt (bs.drop (e * i)) 0 e)

/-- The exact coded values of a block: differences from `stride` elements before, in b bits (R327). -/
def exactResiduals (b stride : Nat) (es : List Nat) : List Int :=
  es.zipIdx.map (fun x =>
    let p := if x.2 < stride then 0 else es.getD (x.2 - stride) 0
    toSigned b (x.1 + 2 ^ b - p))

/-- The class lengths of a dynamic table (R329). -/
def dynamicLengths (classes : List Nat) : List Nat :=
  let n := (List.range 18).map (fun c => classes.countP (· == c))
  let t := (n.map (· + 1)).sum
  n.map (fun k => ((List.range 16).find? (fun l => decide (t ≤ 2 ^ (l + 1) * (k + 1)))).getD 15 + 1)

/-- Blocks of 256 bytes, the last padded with zero bytes. -/
def inputBlock (bs : List Byte) (i : Nat) : List Byte := fitBytes 256 ((bs.drop (256 * i)).take 256)

/-- The dynamic table of a job over its first elements (R329). -/
def jobLengths (e stride : Nat) (input : List Byte) : List Nat :=
  let total := min (ceilDiv input.length e) 32768
  let zs := (List.range (ceilDiv (total * e) 256)).flatMap (fun i =>
    (exactResiduals (8 * e) stride (blockElems e (inputBlock input i))).map zigzag)
  dynamicLengths ((zs.take total).map zClass)

/-- An EXACT block as coded (R330). -/
def codeExact (s : PblState) (blk : List Byte) : List Byte :=
  let zs := (exactResiduals (8 * s.e) s.stride (blockElems s.e blk)).map zigzag
  let bits := zs.flatMap (elemBits s.codeLens)
  let n := ceilDiv bits.length 8
  if n < 256 then leBytes 2 n ++ packBits n bits else leBytes 2 (32768 + 256) ++ blk

/-- Quantised coding with step Q: coded values and reconstructed elements (R327). -/
def quantise (b stride q : Nat) : List Nat → List Nat → List Int × List Nat
  | [], rec => ([], rec)
  | x :: xs, rec =>
    let i := rec.length
    let p : Int := if i < stride then 0 else (rec.getD (i - stride) 0 : Nat)
    let d : Int := (x : Int) - p
    let r := if q = 0 then d else (d + 2 ^ (q - 1)) / 2 ^ q
    let y := (clampInt 0 (2 ^ b - 1) (p + r * 2 ^ q)).toNat
    let (rs, out) := quantise b stride q xs (rec ++ [y])
    (r :: rs, out)

/-- The size S of a RATIO block (R331). -/
def ratioSize (mode : Nat) : Nat := 256 / 2 ^ mode

/-- The smallest Q that fits, from `q` on; `fuel` counts the rest. -/
def findQ (s : PblState) (es : List Nat) : Nat → Nat → Option (Nat × List Bool × List Nat)
  | 0, _ => none
  | fuel + 1, q =>
    let (rs, rec) := quantise (8 * s.e) s.stride q es []
    let bits := rs.flatMap (fun r => elemBits staticLengths (zigzag r))
    if bits.length ≤ 8 * (ratioSize s.mode - 1) then some (q, bits, rec) else findQ s es fuel (q + 1)

/-- A RATIO block as coded, the elements it decodes to, and its LOSS (R331). -/
def codeRatio (s : PblState) (blk : List Byte) : List Byte × List Nat × Bool :=
  let size := ratioSize s.mode
  let es := blockElems s.e blk
  match findQ s es (8 * s.e + 1) 0 with
  | some (q, bits, rec) =>
    (byteOf (q + (if q = 0 then 0 else 128)) :: packBits (size - 1) bits, rec, q != 0)
  | none =>
    let m := 8 * (size - 1) / (8 * s.e)
    let n := 256 / s.e
    let st := (List.range m).map (fun j => es.getD (j * n / m) 0)
    (byteOf (31 + 128) :: fitBytes (size - 1) (st.flatMap (leBytes s.e)),
      (List.range n).map (fun i => st.getD (i * m / n) 0), true)

/-- A block as coded, the bytes it decodes to, and its LOSS. -/
def codeBlock (s : PblState) (blk : List Byte) : List Byte × List Byte × Bool :=
  if s.mode = 0 then (codeExact s blk, blk, false)
  else
    let (c, rec, l) := codeRatio s blk
    (c, rec.flatMap (leBytes s.e), l)

/-- Reads one class from bits: `len` and `code` so far; the class and the bits left. -/
def readClass (lens : List Nat) : Nat → Nat → Nat → List Bool → Option (Nat × List Bool)
  | 0, _, _, _ => none
  | _ + 1, _, _, [] => none
  | fuel + 1, len, code, b :: bs =>
    let code' := 2 * code + (if b then 1 else 0)
    match (List.range 18).find? (fun c => codeword lens c == (len + 1, code')) with
    | some c => some (c, bs)
    | none => readClass lens fuel (len + 1) code' bs

/-- Reads `n` coded values: their z and the bits left. -/
def readValues (lens : List Nat) : Nat → List Bool → Option (List Nat × List Bool)
  | 0, bs => some ([], bs)
  | n + 1, bs =>
    match readClass lens 16 0 0 bs with
    | none => none
    | some (c, rest) =>
      let k := if 2 ≤ c then c - 1 else 0
      if rest.length < k then none
      else
        let z := if c = 0 then 0 else 2 ^ (c - 1) + boolsNat (rest.take k)
        (readValues lens n (rest.drop k)).map (fun r => (z :: r.1, r.2))

/-- Elements from coded values: exact modulo 2^b, or quantised with Q (R327). -/
def rebuild (b stride q : Nat) (exact : Bool) : List Nat → List Nat → List Nat
  | [], rec => rec
  | z :: zs, rec =>
    let i := rec.length
    let p : Int := if i < stride then 0 else (rec.getD (i - stride) 0 : Nat)
    let r := unzigzag z
    let y := if exact then ofSigned b (p + r) else (clampInt 0 (2 ^ b - 1) (p + r * 2 ^ q)).toNat
    rebuild b stride q exact zs (rec ++ [y])

/-- Decodes the block at the start of coded bytes: its 256 bytes, the coded bytes it took, its LOSS; none where it
is malformed (R330, R331). -/
def decodeBlock (s : PblState) (bs : List Byte) : Option (List Byte × Nat × Bool) :=
  let n := 256 / s.e
  if s.mode = 0 then
    let h := leAt bs 0 2
    let len := h % 512
    let body := (bs.drop 2).take len
    if bs.length < 2 + len ∨ h / 512 % 64 ≠ 0 then none
    else if 32768 ≤ h then (if len = 256 then some (body, 258, false) else none)
    else if 256 ≤ len then none
    else
      match readValues s.codeLens n (unpackBits body) with
      | none => none
      | some (zs, rest) =>
        if 8 ≤ rest.length then none
        else some ((rebuild (8 * s.e) s.stride 0 true zs []).flatMap (leBytes s.e), 2 + len, false)
  else
    let size := ratioSize s.mode
    let h := leAt bs 0 1
    let q := h % 32
    let body := (bs.drop 1).take (size - 1)
    if bs.length < size ∨ h / 32 % 4 ≠ 0 then none
    else if q = 31 then
      let m := 8 * (size - 1) / (8 * s.e)
      if h < 128 then none
      else some (((List.range n).map (fun i => leAt (body.drop (s.e * (i * m / n))) 0 s.e)).flatMap (leBytes s.e),
        size, true)
    else if 8 * s.e < q ∨ ((q = 0) = (128 ≤ h)) then none
    else
      match readValues staticLengths n (unpackBits body) with
      | none => none
      | some (zs, _) => some ((rebuild (8 * s.e) s.stride q false zs []).flatMap (leBytes s.e), size, 128 ≤ h)

/-- Four bits each, class 0 lowest, in nine bytes (R325). -/
def packLengths (lens : List Nat) : List Byte :=
  leBytes 9 (lens.reverse.foldl (fun acc l => acc * 16 + (l - 1)) 0)

def unpackLengths (bs : List Byte) : List Nat :=
  (List.range 18).map (fun i => leAt bs 0 9 / 16 ^ i % 16 + 1)

/-- What a container's header says of a cached intermediate (R325). -/
structure PblInner where
  dtype : Nat
  dims : List Nat
  deriving DecidableEq, Repr

/-- A container header (R325). -/
def pblHeader (s : PblState) (inner : PblInner) : List Byte :=
  let b := leBytes 4 0x4C424250 ++ leBytes 2 1 ++ leBytes 1 s.mode
    ++ leBytes 1 ((if s.table then 1 else 0) + 2 * s.elem + 4 * s.strideM1) ++ leBytes 8 s.origLen
    ++ (if s.table then packLengths s.lengths else zeros 9) ++ leBytes 1 inner.dtype
    ++ leBytes 1 inner.dims.length ++ zeros 1 ++ fitBytes 16 (inner.dims.flatMap (leBytes 4)) ++ zeros 16
  b ++ leBytes 4 (crc32c b)

/-- A trailer (R326). -/
def pblTrailer (s : PblState) : List Byte := leBytes 4 ((s.crc ^^^ 0xFFFFFFFF) % 2 ^ 32) ++ leBytes 8 s.loss ++ zeros 4

/-- CRC-32C register over further bytes. -/
def crcMore (c : Nat) (bs : List Byte) : Nat := (bs.foldl crcByte (BitVec.ofNat 32 c)).toNat

/-- The settings limits of R332. -/
def pblLimitsBad (mode : Nat) (table : Bool) (elem strideM1 : Nat) : Bool :=
  mode != 0 && (table || (elem == 1 && decide (1 < strideM1)))

/-- The resume record (R335). -/
def pblRecord (s : PblState) : List Byte :=
  let b := leBytes 6 s.blocks ++ zeros 2 ++ leBytes 4 s.crc ++ leBytes 1 s.phase
    ++ leBytes 1 ((if s.expand then 1 else 0) + 2 * s.mode + (if s.table then 8 else 0) + 16 * s.elem + 32 * s.strideM1)
    ++ zeros 2 ++ leBytes 8 s.origLen ++ leBytes 8 s.loss
    ++ (if s.table then packLengths s.lengths else zeros 9) ++ zeros 19
  b ++ leBytes 4 (crc32c b)

/-- The state a resume record gives; none where its STATE_CRC fails (R336). -/
def pblStateOf (b : List Byte) : Option PblState :=
  if leAt b 60 4 ≠ crc32c (b.take 60) then none
  else
    let j := leAt b 13 1
    some ⟨leAt b 0 6, leAt b 8 4, leAt b 12 1, bitOf j 0, bitsOf j 2 1, bitOf j 3, bitsOf j 4 4, bitsOf j 6 5,
      leAt b 16 8, leAt b 24 8, unpackLengths (b.drop 32)⟩

/-- Reasons a job ends with (R341). -/
def pblDone : Nat := 0
def pblOutFull : Nat := 1
def pblVerify : Nat := 2
def pblCheck : Nat := 3
def pblFormat : Nat := 4
def pblAborted : Nat := 5
def pblSource : Nat := 6

/-- How a submission ended. -/
structure PblEnd where
  reason : Nat
  st : PblState
  inDone : Nat
  out : List Byte
  blocks : Nat
  losses : Nat
  deriving DecidableEq, Repr

/-- The bytes of block `i` that count towards ORIG_LEN. -/
def PblState.blockLen (s : PblState) : Nat := min 256 (s.origLen - 256 * s.blocks)
def PblState.lastBlock (s : PblState) : Bool := decide (s.origLen ≤ 256 * (s.blocks + 1))

/-- Compression from a state: `units` bounds the units (an abort's boundary), `vf` the block whose self-check fails,
`space` the output space left. -/
def pblCompress (inner : PblInner) (vf : Option Nat) :
    Nat → PblState → List Byte → Nat → PblEnd → PblEnd
  | 0, s, _, _, r => { r with reason := pblAborted, st := s }
  | units + 1, s, inp, space, r =>
    if s.phase = 0 then
      if space < 64 then { r with reason := pblOutFull, st := s }
      else pblCompress inner vf units { s with phase := 1 } inp (space - 64) { r with out := r.out ++ pblHeader s inner }
    else if s.phase = 1 then
      let k := s.blockLen
      if inp.length < k then { r with reason := pblFormat, st := s }
      else
        let blk := fitBytes 256 (inp.take k)
        let (c, dec, loss) := codeBlock s blk
        if space < c.length then { r with reason := pblOutFull, st := s }
        else if vf = some s.blocks then { r with reason := pblVerify, st := s }
        else
          let s' := { s with blocks := s.blocks + 1, crc := crcMore s.crc (dec.take k)
                             phase := if s.lastBlock then 2 else 1, loss := s.loss + (if loss then 1 else 0) }
          pblCompress inner vf units s' (inp.drop k) (space - c.length)
            { r with inDone := r.inDone + k, out := r.out ++ c, blocks := r.blocks + 1
                     losses := r.losses + (if loss then 1 else 0) }
    else if space < 16 then { r with reason := pblOutFull, st := s }
    else { r with reason := pblDone, st := s, out := r.out ++ pblTrailer s }

/-- Whether a container header is faulty (R325, R332, R334). -/
def pblHeaderBad (b : List Byte) : Bool :=
  decide (b.length < 64) || leAt b 0 4 != 0x4C424250 || leAt b 4 2 != 1 || decide (3 < leAt b 6 1)
  || decide (15 < leAt b 7 1) || decide (leAt b 8 8 < 1) || decide (2 ^ 40 < leAt b 8 8)
  || leAt b 60 4 != crc32c (b.take 60) || leAt b 27 1 != 0 || leAt b 44 16 != 0 || decide (4 < leAt b 26 1)
  || (!bitOf (leAt b 7 1) 0 && leAt b 16 9 != 0)
  || pblLimitsBad (leAt b 6 1) (bitOf (leAt b 7 1) 0) (bitsOf (leAt b 7 1) 1 1) (bitsOf (leAt b 7 1) 3 2)

/-- The state after a container's header. -/
def pblStateOfHeader (b : List Byte) : PblState :=
  ⟨0, 0xFFFFFFFF, 1, true, leAt b 6 1, bitOf (leAt b 7 1) 0, bitsOf (leAt b 7 1) 1 1, bitsOf (leAt b 7 1) 3 2,
    leAt b 8 8, 0, unpackLengths (b.drop 16)⟩

def pblInnerOf (b : List Byte) : PblInner :=
  ⟨leAt b 25 1, (List.range (leAt b 26 1)).map (fun i => leAt b (28 + 4 * i) 4)⟩

/-- Expansion from a state (R334, R335). (DEDUCED, assumption 99.) -/
def pblExpand : Nat → PblState → List Byte → Nat → PblEnd → PblEnd
  | 0, s, _, _, r => { r with reason := pblAborted, st := s }
  | units + 1, s, inp, space, r =>
    if s.phase = 0 then
      if pblHeaderBad inp then { r with reason := pblFormat, st := s }
      else pblExpand units (pblStateOfHeader inp) (inp.drop 64) space { r with inDone := r.inDone + 64 }
    else if s.phase = 1 then
      match decodeBlock s inp with
      | none => { r with reason := pblFormat, st := s }
      | some (dec, used, loss) =>
        let k := s.blockLen
        if space < k then { r with reason := pblOutFull, st := s }
        else
          let s' := { s with blocks := s.blocks + 1, crc := crcMore s.crc (dec.take k)
                             phase := if s.lastBlock then 2 else 1, loss := s.loss + (if loss then 1 else 0) }
          pblExpand units s' (inp.drop used) (space - k)
            { r with inDone := r.inDone + used, out := r.out ++ dec.take k, blocks := r.blocks + 1 }
    else if inp.length < 16 then { r with reason := pblFormat, st := s }
    else if inp.take 4 ≠ (pblTrailer s).take 4 then { r with reason := pblCheck, st := s, inDone := r.inDone + 16 }
    else { r with reason := pblDone, st := s, inDone := r.inDone + 16 }

/-- The state a fresh compression starts from (R329, R332). -/
def pblFresh (mode : Nat) (table : Bool) (elem strideM1 : Nat) (input : List Byte) : PblState :=
  let e := if elem = 1 then 2 else 1
  ⟨0, 0xFFFFFFFF, 0, false, mode, table, elem, strideM1, input.length, 0,
    if table then jobLengths e (strideM1 + 1) input else staticLengths⟩

/-- The state a fresh expansion starts from. -/
def pblFreshExpand : PblState := ⟨0, 0xFFFFFFFF, 0, true, 0, false, 0, 0, 0, 0, staticLengths⟩

/-- One submission: from a state over `input` into `space` bytes. The limits of R332 hold for every job, a resumed one too. -/
def pblRun (inner : PblInner) (vf : Option Nat) (units : Nat) (s : PblState) (input : List Byte) (space : Nat) : PblEnd :=
  let r0 : PblEnd := ⟨pblDone, s, 0, [], 0, 0⟩
  if pblLimitsBad s.mode s.table s.elem s.strideM1 then { r0 with reason := pblFormat }
  else if s.expand then pblExpand units s input space r0
  else if s.origLen < 1 then { r0 with reason := pblFormat }
  else pblCompress inner vf units s input space r0

/-- Units enough for a whole container. -/
def pblAllUnits (s : PblState) (input : List Byte) : Nat := ceilDiv (max s.origLen input.length * 8) 256 + 4 + input.length

/-- The coding of some bytes into a whole EXACT container, one-byte elements, static table (R339, R340); `vf` is the block whose self-check
mismatches. -/
def pblExactRun (inner : PblInner) (vf : Option Nat) (input : List Byte) : PblEnd :=
  let s := pblFresh 0 false 0 0 input
  pblRun inner vf (pblAllUnits s input) s input (2 * input.length + 1024)

/-- The host job (R341) with the settings that its GO found: memories, addresses, lengths, and the state it starts from;
none where its resume record fails. `aborted` says that an ABORT has come. -/
structure PblJob where
  srcHost : Bool
  src : Nat
  dstHost : Bool
  dst : Nat
  srcLen : Nat
  dstLen : Nat
  fresh : Option (Bool × Nat × Bool × Nat × Nat)
  resume : List Byte
  aborted : Bool
  deriving DecidableEq, Repr

/-- The state that a job starts from over its input: its DIR, MODE, TABLE, ELEM and STRIDE − 1 where it is fresh, else its
resume record (R336, R341). -/
def PblJob.start (j : PblJob) (input : List Byte) : Option PblState :=
  match j.fresh with
  | some (expand, mode, table, elem, strideM1) =>
    some (if expand then pblFreshExpand else pblFresh mode table elem strideM1 input)
  | none => pblStateOf j.resume

/-- Whose job it is (R337): a stored sample that the Sluice expands, a batch that the Weir codes, a record that Keeper codes for the
decoded-sample cache with what its header says of it, or the host's job. -/
inductive PblClient where
  | sluice
  | weir
  | keeper (inner : PblInner)
  | host
  deriving DecidableEq, Repr

/-- The place of a client in the order in which free lanes go to waiting jobs (R337). -/
def PblClient.order : PblClient → Nat
  | .sluice => 0
  | .weir => 1
  | .keeper _ => 2
  | .host => 3

/-- A job of the lanes (R337): its number in the order of submission, its client and its input, none for the host's; its lane, none while it
waits; and its Basin buffers. -/
structure PblWork where
  id : Nat
  client : PblClient
  input : List Byte
  lane : Option Nat
  bufs : List (Nat × Nat)
  deriving DecidableEq, Repr

/-- Pebble beside its registers: the host's job, the jobs that wait or run in the order of their submission, and the next number. -/
structure PebbleSt where
  host : Option PblJob
  jobs : List PblWork
  nextId : Nat
  deriving DecidableEq, Repr

def PebbleSt.reset : PebbleSt := ⟨none, [], 0⟩

/-- The waiting job that the next free lane goes to (R337): by client, then by submission. -/
def PebbleSt.next (x : PebbleSt) : Option PblWork :=
  (List.range 4).findSome? (fun o => x.jobs.find? (fun j => j.lane.isNone && j.client.order == o))

/-- The lowest lane that runs no job. -/
def PebbleSt.freeLane (x : PebbleSt) : Option Nat := (List.range 8).find? (fun n => x.jobs.all (fun j => j.lane != some n))

end Sys2Proof.Machine
end

