-- ==== Sys2Proof/Machine/PowerTypes.lean ====
section
/-! DEFINITION. Power, clocks and resets as data (R216 to R218, R451 to R464). -/
namespace Sys2Proof.Machine

/-- How far a device reset has come (R462). -/
inductive ResetPhase where
  | none | drain | held
  deriving DecidableEq, Repr

/-- What asked for a device reset (R461). -/
inductive ResetSource where
  | trst | register | thermal
  deriving DecidableEq, Repr

/-- How far a synchronous start has come (R50, R460). -/
inductive StartPhase where
  | reset | marker | up
  deriving DecidableEq, Repr

/-- An access that a power state below P0 holds until the exit (R217): what it does, as bytes at an offset, as a write of one
register entry, as a replay start with its log, or at BAR4. -/
inductive HeldKind where
  | write (bar off size value : Nat)
  | read (bar off size : Nat)
  | entry (r : Reg) (i : Nat) (w : Word)
  | replay (w : Word) (log : List Byte)
  | bar4 (addr len : Nat) (write : Option (List Byte)) (corrected : Option Nat) (uncorr : Bool)
  deriving DecidableEq, Repr

/-- A held access and who makes it. -/
structure HeldAccess where
  rq : Requester
  kind : HeldKind
  deriving DecidableEq, Repr

/-- What a step of the operating point is for (R455): its target, and whether power or temperature asked for it. -/
structure OpStep where
  target : Nat
  forPower : Bool
  forHeat : Bool
  deriving DecidableEq, Repr

/-- The power and clock state. `state` is the P-state; `p3Task` is the POWER task that asks for P3, `hold0` holds the device in P0 (R218), `warm` says that Keeper starts warm after P3 (R459); `waking` has a bit of PWR_WAKE_CAUSE set for each source that has fired; `held` are the accesses held meanwhile, in order;
`opTarget` is the step for which the idle PLL locks; `okMs` counts the milliseconds for which the conditions for a step up have
held; `slackHigh` counts, for each cluster, the 10 µs intervals for which its slack has stayed above the high mark;
`uptime` counts always-on cycles since the last device reset;
`cistern` and `onfi` follow the start of R464. -/
structure PowerSt where
  porHeld : Bool
  resetPhase : ResetPhase
  resetSource : ResetSource
  resetDeferred : Bool
  trstLow : Bool
  perstLow : Bool
  thermHeld : Bool
  startPhase : StartPhase
  cistern : Bool
  onfi : Bool
  state : Nat
  p3Task : Option Nat
  hold0 : Bool
  warm : Bool
  waking : Nat
  d3hot : Bool
  held : List HeldAccess
  opTarget : Option OpStep
  okMs : Nat
  slackHigh : List Nat
  uptime : Nat
  deriving DecidableEq, Repr

/-- Power-on reset asserted, every pin as sampled in reset. -/
def PowerSt.reset : PowerSt where
  porHeld := true
  resetPhase := .none
  resetSource := .register
  resetDeferred := false
  trstLow := false
  perstLow := false
  thermHeld := false
  startPhase := .reset
  cistern := false
  onfi := false
  state := 0
  p3Task := none
  hold0 := false
  warm := false
  waking := 0
  d3hot := false
  held := []
  opTarget := none
  okMs := 0
  slackHigh := List.replicate 8 0
  uptime := 0

end Sys2Proof.Machine
end

