-- ==== Sys2Proof/Machine/Assoc.lean ====
section
/-! DEFINITION. Sparse stores in one canonical form: a list of key and value pairs whose keys rise strictly, with
no entry equal to what an unlisted key reads as. `ord` numbers the keys. -/
namespace Sys2Proof.Machine

/-- The value listed under a key. -/
def assocGet {κ α : Type} (ord : κ → Nat) (k : κ) : List (κ × α) → Option α
  | [] => none
  | (k', v) :: l => if ord k = ord k' then some v else assocGet ord k l

/-- A store without any entry under a key. -/
def assocDel {κ α : Type} (ord : κ → Nat) (k : κ) : List (κ × α) → List (κ × α)
  | [] => []
  | (k', v) :: l => if ord k = ord k' then assocDel ord k l else (k', v) :: assocDel ord k l

/-- An entry put in front of the first greater key. -/
def assocIns {κ α : Type} (ord : κ → Nat) (k : κ) (v : α) : List (κ × α) → List (κ × α)
  | [] => [(k, v)]
  | (k', v') :: l => if ord k < ord k' then (k, v) :: (k', v') :: l else (k', v') :: assocIns ord k v l

/-- Writes a value: listing it, or removing the entry where the value is what an unlisted key reads as. -/
def assocPut {κ α : Type} [DecidableEq α] (ord : κ → Nat) (dflt : κ → α) (k : κ) (v : α)
    (l : List (κ × α)) : List (κ × α) :=
  if v = dflt k then assocDel ord k l else assocIns ord k v (assocDel ord k l)

/-- The value a key reads as. -/
def assocRead {κ α : Type} (ord : κ → Nat) (dflt : κ → α) (k : κ) (l : List (κ × α)) : α :=
  (assocGet ord k l).getD (dflt k)

/-- The canonical form. -/
def assocWf {κ α : Type} [DecidableEq α] (ord : κ → Nat) (dflt : κ → α) : List (κ × α) → Bool
  | [] => true
  | (k, v) :: l =>
    decide (v ≠ dflt k) && l.all (fun e => decide (ord k < ord e.1)) && assocWf ord dflt l

end Sys2Proof.Machine
end

