-- ==== Sys2Proof/Machine/RegMap.lean ====
section
/-! DEFINITION. The register tables: where each register lies (R468 to R470), its fields with their access
codes and reset values, and a name for each field. A reset the tables give as fuse, ledger, mount, format or
boot record is the value that assumption 1 names. -/
namespace Sys2Proof.Machine

/-- Every register name, in the order of the chapters. -/
def Reg.part : Nat → List Reg
  | 0 => [.MIR_CTRL, .MIR_STATUS, .MIR_FILL, .MIR_DF_INFO, .MIR_DF_STEP_LO, .MIR_DF_STEP_HI, .MIR_DF_COUNT, .MIR_DEST_LO, .MIR_DEST_HI, .MIR_DEST_SIZE, .MIR_RP_STEP_LO, .MIR_RP_STEP_HI, .MIR_LS_CTRL, .MIR_LS_STATUS, .MIR_LS_WINDOWS, .MIR_LS_TIMEOUT, .CSC_STATUS, .CSC_EVENT, .CSC_LOAD_CTRL, .CSC_LOAD_ADDR_LO, .CSC_LOAD_ADDR_HI, .CSC_LOAD_LEN, .CSC_LOAD_RESULT, .CSC_LOAD_ERR_OFS]
  | 1 => [.CSC_ACT_CTRL, .CSC_ACT_STEP_LO, .CSC_ACT_STEP_HI, .CSC_ACT_STATUS, .CSC_SIGN_CTRL, .CSC_SPARE_MAP, .CSC_SPARE_ACTIVE, .CSC_JET_AVAIL_LO, .CSC_JET_AVAIL_HI, .CSC_IMG_AVAIL, .CSC_ENG_AVAIL, .CSC_VA_AVAIL, .CSC_ACT_COUNT, .CSC_S0_HASH, .CSC_S1_HASH, .SLU_STATUS, .SLU_EVENT, .SLU_CTRL, .SLU_AHEAD, .SLU_ARM_ERR, .SLU_STEP_LO, .SLU_STEP_HI, .SLU_DEFICIT_LO, .SLU_DEFICIT_HI]
  | 2 => [.SLU_BF_DRAWS, .SLU_FILLED, .SLU_WALK_MAX, .SLU_PROBE_CTRL, .SLU_PROBE_IN_LO, .SLU_PROBE_IN_HI, .SLU_PROBE_OUT_LO, .SLU_PROBE_OUT_HI, .AQF_STATUS, .AQF_EVENT, .AQF_CTRL, .AQF_CAP_LO, .AQF_CAP_HI, .AQF_WB, .AQF_SLC, .AQF_CKPT, .AQF_RT, .AQF_PLACE, .AQF_LIFE, .AQF_RATING, .AQF_SPARE, .AQF_SEQ_LO, .AQF_SEQ_HI, .AQF_DFL_HEAD]
  | 3 => [.AQF_DFL_ACK, .AQF_DIE_CMD, .AQF_DIE_RESULT, .AQF_CRYPT, .AQF_MOUNT_MS, .NFC_SEL, .NFC_CTRL, .NFC_STATUS, .NFC_DIE_STATE_LO, .NFC_DIE_STATE_HI, .NFC_CORR_LO, .NFC_CORR_HI, .NFC_RETRY, .NFC_SOFT, .NFC_REBUILD, .NFC_RT_MOVES, .NFC_RT_CLAMP, .NFC_FAIL, .HIF_STATUS, .HIF_EVENT, .HIF_CTRL, .HIF_STALL_LIMIT, .HIF_FW_DRAIN, .HIF_DMA_ERR_ADDR_LO]
  | 4 => [.HIF_DMA_ERR_ADDR_HI, .HIF_DMA_ERR_INFO, .HIF_PWR_CTRL, .HIF_PWR_STATUS, .HIF_PWR_LAT, .HIF_LOCKS, .TASK_STATUS, .TASK_REFUSED, .TASK_Q_CTRL, .TASK_Q_STATUS, .TASK_SQ_BASE_LO, .TASK_SQ_BASE_HI, .TASK_CQ_BASE_LO, .TASK_CQ_BASE_HI, .TASK_Q_SIZE, .TASK_GO, .TASK_SQ_HEAD, .TASK_CQ_HEAD, .TASK_CQ_COAL, .TASK_SQ_TAIL, .DEC_SEL, .DEC_STATUS, .DEC_EVENT, .DEC_SAMPLES]
  | 5 => [.DEC_REJECTS, .DEC_LAST_REJECT, .DEC_LAST_G_LO, .DEC_LAST_G_HI, .DEC_CYCLES_LO, .DEC_CYCLES_HI, .DEC_PK_BATCHES, .DEC_PK_FILLED, .DEC_PK_OVERFLOW, .DEC_PK_DIGEST_LO, .DEC_PK_DIGEST_HI, .DEC_PK_STEP_LO, .DEC_PK_STEP_HI, .JET_SEL, .JET_STATUS, .JET_EVENT, .JET_CTRL, .JET_SAMPLES, .JET_REJECTS, .JET_DETECTS, .JET_FAULT_INFO, .JET_FAULT_STEP_LO, .JET_FAULT_STEP_HI, .JET_MACS_LO]
  | 6 => [.JET_MACS_HI, .JET_CYCLES_LO, .JET_CYCLES_HI, .JET_SIEVE_KEEP, .JET_SIEVE_DROP, .JET_LAST_SCORE, .REED_SEL, .REED_STATUS, .REED_EVENT, .REED_SAMPLES, .REED_REJECTS, .REED_TOKENS_LO, .REED_TOKENS_HI, .REED_MISSES, .REED_STALL_LO, .REED_STALL_HI, .REED_ESCAPES, .REED_STOPS, .REED_LAST_REJECT, .REED_VOCAB_STATE, .REED_VOCAB_ERR, .REED_VOCAB_TAG_LO, .REED_VOCAB_TAG_HI, .BSN_STATUS]
  | 7 => [.BSN_EVENT, .BSN_CPOOL, .BSN_NONE, .BSN_VIOL_INFO, .BSN_POOL_BANKS, .BSN_POOL_THR, .BSN_POOL_INUSE, .BSN_POOL_TOTAL, .BSN_CLIENT_CFG, .BSN_MIN, .RSV_SEL, .RSV_OWNER, .RSV_EVENT, .RSV_ECC_CORR, .RSV_ECC_UNCORR, .RSV_ECC_COL, .RSV_FIELD_STAGE, .RSV_SPARE_COL, .RSV_VIOL, .RSV_FIELD_CTRL, .RSV_FIELD_RESULT, .PBL_STATUS, .PBL_EVENT, .PBL_JOB_CTRL]
  | 8 => [.PBL_SRC_LO, .PBL_SRC_HI, .PBL_DST_LO, .PBL_DST_HI, .PBL_SRC_LEN, .PBL_DST_LEN, .PBL_JOB_RESULT, .PBL_IN_DONE, .PBL_OUT_DONE, .PBL_BLOCKS, .PBL_LOSS, .PBL_FAILS, .PBL_STATE, .PBL_RESUME, .SPT_SEL, .SPT_CTRL, .SPT_STATUS, .SPT_EVENT, .SPT_MAC_LO, .SPT_MAC_HI, .SPT_TX_FRAMES_LO, .SPT_TX_FRAMES_HI, .SPT_RETRY, .SPT_FEC_CORR]
  | 9 => [.SPT_FEC_UNCORR, .SPT_CNP, .SPT_DISCARD, .SPT_STALL_LIMIT, .SPT_REPLAY_HOLD, .WEIR_STATUS, .WEIR_EVENT, .WEIR_CTRL, .WEIR_POOL, .WEIR_POOL_USED, .WEIR_TBL_CTRL, .WEIR_TBL_DATA, .WEIR_RILL_MAP, .WEIR_RESEND, .WEIR_RESEND_FSN, .WEIR_CR_BASE_LO, .WEIR_CR_BASE_HI, .WEIR_CR_SIZE, .WEIR_CR_HEAD, .WEIR_CR_TAIL, .WEIR_DEFICIT_LO, .WEIR_DEFICIT_HI, .WEIR_MISSED, .WEIR_RESENT]
  | 10 => [.WEIR_TIMERS, .WEIR_VTIME_SEL, .WEIR_VTIME_LO, .WEIR_VTIME_HI, .WEIR_CR_LOST, .SDL_STATUS, .SDL_EVENT, .SDL_CTRL, .SDL_CLOCK, .SDL_TIME, .SDL_SET, .SDL_OFFSET, .SDL_FREQ, .SDL_SERVO, .SDL_PPS, .SDL_UTC, .SDL_PORT, .INL_SEL, .INL_CTRL, .INL_STATUS, .INL_EVENT, .INL_AGE, .INL_ACCEPTED, .INL_RUNT]
  | 11 => [.INL_LONG, .INL_STALE, .INL_GAP, .INL_DROP_OTHER, .INL_LAST_DROP, .INL_SID_LO, .INL_SID_HI, .INL_SCFG, .INL_SMAX, .SVC_STATUS, .SVC_EVENT, .SVC_CTRL, .SVC_WDT, .SVC_CORE, .SVC_HANGS, .SVC_FW_STATUS, .SVC_TRIAL, .SVC_RILL_FAULT, .SVC_RILL_STEP_LO, .SVC_RILL_STEP_HI, .SVC_REBUILDS, .SVC_BARRIER_LO, .SVC_BARRIER_HI, .SVC_SUSPECT_CFG]
  | 12 => [.SVC_SUSPECT_SUM, .SVC_PEER_SEL, .SVC_PEER_LATE, .SVC_ENG_CMD, .DBG_STW_STATUS, .DBG_STW_CTRL, .DBG_STW_EN, .DBG_STW_SEEN, .DBG_STW_AT_LO, .DBG_STW_AT_HI, .DBG_STW_AT_CYC, .DBG_STW_ADDR_LO, .DBG_STW_ADDR_HI, .DBG_STW_LEN, .DBG_EVENT, .DBG_BRK_CTRL, .DBG_BRK_STATUS, .DBG_SNAP, .DBG_TRACE_BASE_LO, .DBG_TRACE_BASE_HI, .DBG_TRACE_CTRL, .DBG_TRACE_PTR, .DBG_TRACE_LOST, .DBG_ALIGN]
  | 13 => [.DBG_W_CFG, .DBG_W_LO, .DBG_W_SCALE, .DBG_W_MATCH_LO, .DBG_W_MATCH_HI, .DBG_W_DIGEST_LO, .DBG_W_DIGEST_HI, .DBG_W_MIN, .DBG_W_MAX, .DBG_W_MEAN, .DBG_W_FINITE, .DBG_W_NONFINITE, .DBG_W_STEP_LO, .DBG_W_STEP_HI, .DBG_W_HIST, .TST_MODE, .TST_LOOP_CTRL, .TST_LOOP_STATUS, .TST_LOOP_ERRORS, .TST_LOOP_UNITS_LO, .TST_LOOP_UNITS_HI, .PWR_STATUS, .PWR_EVENT, .PWR_OP]
  | 14 => [.PWR_LIMIT, .PWR_MEAS, .PWR_VOLT, .PWR_WAKE_EN, .PWR_WAKE_CAUSE, .PWR_WAKE_TIMER, .PWR_RST_CTRL, .PWR_RST_CAUSE, .GLB_ID_LO, .GLB_ID_HI, .GLB_UID_LO, .GLB_UID_HI, .GLB_STATUS, .GLB_CAUSE, .GLB_INT_EN, .GLB_SPT_CAUSE, .GLB_SPT_INT_EN, .GLB_VIOL_ADDR, .GLB_VIOL_INFO, .GLB_VIOL_COUNT]
  | _ => []

def allRegs : List Reg := (List.range 15).flatMap Reg.part

/-- Window, offset, repetition and reset domain of each register. -/
def Reg.place : Reg → RegPlace
  | .MIR_CTRL => ⟨.mir, 0, 0x150000, 0x0, 1, 0, 1, false, .device⟩
  | .MIR_STATUS => ⟨.mir, 0, 0x150004, 0x0, 1, 0, 1, false, .device⟩
  | .MIR_FILL => ⟨.mir, 0, 0x150008, 0x0, 1, 0, 1, false, .device⟩
  | .MIR_DF_INFO => ⟨.mir, 0, 0x150010, 0x0, 1, 0, 1, false, .device⟩
  | .MIR_DF_STEP_LO => ⟨.mir, 0, 0x150014, 0x0, 1, 0, 1, false, .device⟩
  | .MIR_DF_STEP_HI => ⟨.mir, 0, 0x150018, 0x0, 1, 0, 1, false, .device⟩
  | .MIR_DF_COUNT => ⟨.mir, 0, 0x15001C, 0x0, 1, 0, 1, false, .device⟩
  | .MIR_DEST_LO => ⟨.mir, 0, 0x150020, 0x0, 1, 0, 1, false, .device⟩
  | .MIR_DEST_HI => ⟨.mir, 0, 0x150024, 0x0, 1, 0, 1, false, .device⟩
  | .MIR_DEST_SIZE => ⟨.mir, 0, 0x150028, 0x0, 1, 0, 1, false, .device⟩
  | .MIR_RP_STEP_LO => ⟨.mir, 0, 0x15002C, 0x0, 1, 0, 1, false, .device⟩
  | .MIR_RP_STEP_HI => ⟨.mir, 0, 0x150030, 0x0, 1, 0, 1, false, .device⟩
  | .MIR_LS_CTRL => ⟨.mir, 0, 0x150040, 0x0, 1, 0, 1, false, .device⟩
  | .MIR_LS_STATUS => ⟨.mir, 0, 0x150044, 0x0, 1, 0, 1, false, .device⟩
  | .MIR_LS_WINDOWS => ⟨.mir, 0, 0x150048, 0x0, 1, 0, 1, false, .device⟩
  | .MIR_LS_TIMEOUT => ⟨.mir, 0, 0x15004C, 0x0, 1, 0, 1, false, .device⟩
  | .CSC_STATUS => ⟨.csc, 0, 0x80000, 0x0, 1, 0, 1, false, .device⟩
  | .CSC_EVENT => ⟨.csc, 0, 0x80004, 0x0, 1, 0, 1, false, .device⟩
  | .CSC_LOAD_CTRL => ⟨.csc, 0, 0x80008, 0x0, 1, 0, 1, false, .device⟩
  | .CSC_LOAD_ADDR_LO => ⟨.csc, 0, 0x8000C, 0x0, 1, 0, 1, false, .device⟩
  | .CSC_LOAD_ADDR_HI => ⟨.csc, 0, 0x80010, 0x0, 1, 0, 1, false, .device⟩
  | .CSC_LOAD_LEN => ⟨.csc, 0, 0x80014, 0x0, 1, 0, 1, false, .device⟩
  | .CSC_LOAD_RESULT => ⟨.csc, 0, 0x80018, 0x0, 1, 0, 1, false, .device⟩
  | .CSC_LOAD_ERR_OFS => ⟨.csc, 0, 0x8001C, 0x0, 1, 0, 1, false, .device⟩
  | .CSC_ACT_CTRL => ⟨.csc, 0, 0x80020, 0x0, 1, 0, 1, false, .device⟩
  | .CSC_ACT_STEP_LO => ⟨.csc, 0, 0x80024, 0x0, 1, 0, 1, false, .device⟩
  | .CSC_ACT_STEP_HI => ⟨.csc, 0, 0x80028, 0x0, 1, 0, 1, false, .device⟩
  | .CSC_ACT_STATUS => ⟨.csc, 0, 0x8002C, 0x0, 1, 0, 1, false, .device⟩
  | .CSC_SIGN_CTRL => ⟨.csc, 0, 0x80030, 0x0, 1, 0, 1, false, .device⟩
  | .CSC_SPARE_MAP => ⟨.csc, 0, 0x80034, 0x0, 1, 0, 1, false, .device⟩
  | .CSC_SPARE_ACTIVE => ⟨.csc, 0, 0x80038, 0x0, 1, 0, 1, false, .device⟩
  | .CSC_JET_AVAIL_LO => ⟨.csc, 0, 0x80040, 0x0, 1, 0, 1, false, .device⟩
  | .CSC_JET_AVAIL_HI => ⟨.csc, 0, 0x80044, 0x0, 1, 0, 1, false, .device⟩
  | .CSC_IMG_AVAIL => ⟨.csc, 0, 0x80048, 0x0, 1, 0, 1, false, .device⟩
  | .CSC_ENG_AVAIL => ⟨.csc, 0, 0x8004C, 0x0, 1, 0, 1, false, .device⟩
  | .CSC_VA_AVAIL => ⟨.csc, 0, 0x80050, 0x0, 1, 0, 1, false, .device⟩
  | .CSC_ACT_COUNT => ⟨.csc, 0, 0x80054, 0x0, 1, 0, 1, false, .device⟩
  | .CSC_S0_HASH => ⟨.csc, 0, 0x80100, 0x4, 12, 0, 1, false, .device⟩
  | .CSC_S1_HASH => ⟨.csc, 0, 0x80140, 0x4, 12, 0, 1, false, .device⟩
  | .SLU_STATUS => ⟨.slu, 0, 0x140000, 0x0, 1, 0, 1, false, .device⟩
  | .SLU_EVENT => ⟨.slu, 0, 0x140004, 0x0, 1, 0, 1, false, .device⟩
  | .SLU_CTRL => ⟨.slu, 0, 0x140008, 0x0, 1, 0, 1, false, .device⟩
  | .SLU_AHEAD => ⟨.slu, 0, 0x14000C, 0x0, 1, 0, 1, false, .device⟩
  | .SLU_ARM_ERR => ⟨.slu, 0, 0x140010, 0x0, 1, 0, 1, false, .device⟩
  | .SLU_STEP_LO => ⟨.slu, 0, 0x140020, 0x8, 4, 0, 1, false, .device⟩
  | .SLU_STEP_HI => ⟨.slu, 0, 0x140024, 0x8, 4, 0, 1, false, .device⟩
  | .SLU_DEFICIT_LO => ⟨.slu, 0, 0x140040, 0x0, 1, 0, 1, false, .device⟩
  | .SLU_DEFICIT_HI => ⟨.slu, 0, 0x140044, 0x0, 1, 0, 1, false, .device⟩
  | .SLU_BF_DRAWS => ⟨.slu, 0, 0x140048, 0x0, 1, 0, 1, false, .device⟩
  | .SLU_FILLED => ⟨.slu, 0, 0x14004C, 0x0, 1, 0, 1, false, .device⟩
  | .SLU_WALK_MAX => ⟨.slu, 0, 0x140050, 0x0, 1, 0, 1, false, .device⟩
  | .SLU_PROBE_CTRL => ⟨.slu, 0, 0x140060, 0x0, 1, 0, 1, false, .device⟩
  | .SLU_PROBE_IN_LO => ⟨.slu, 0, 0x140064, 0x0, 1, 0, 1, false, .device⟩
  | .SLU_PROBE_IN_HI => ⟨.slu, 0, 0x140068, 0x0, 1, 0, 1, false, .device⟩
  | .SLU_PROBE_OUT_LO => ⟨.slu, 0, 0x14006C, 0x0, 1, 0, 1, false, .device⟩
  | .SLU_PROBE_OUT_HI => ⟨.slu, 0, 0x140070, 0x0, 1, 0, 1, false, .device⟩
  | .AQF_STATUS => ⟨.aqf, 0, 0x40000, 0x0, 1, 0, 1, false, .device⟩
  | .AQF_EVENT => ⟨.aqf, 0, 0x40004, 0x0, 1, 0, 1, false, .device⟩
  | .AQF_CTRL => ⟨.aqf, 0, 0x40008, 0x0, 1, 0, 1, false, .device⟩
  | .AQF_CAP_LO => ⟨.aqf, 0, 0x4000C, 0x0, 1, 0, 1, false, .device⟩
  | .AQF_CAP_HI => ⟨.aqf, 0, 0x40010, 0x0, 1, 0, 1, false, .device⟩
  | .AQF_WB => ⟨.aqf, 0, 0x40014, 0x0, 1, 0, 1, false, .device⟩
  | .AQF_SLC => ⟨.aqf, 0, 0x40018, 0x0, 1, 0, 1, false, .device⟩
  | .AQF_CKPT => ⟨.aqf, 0, 0x4001C, 0x0, 1, 0, 1, false, .device⟩
  | .AQF_RT => ⟨.aqf, 0, 0x40020, 0x0, 1, 0, 1, false, .device⟩
  | .AQF_PLACE => ⟨.aqf, 0, 0x40024, 0x0, 1, 0, 1, false, .device⟩
  | .AQF_LIFE => ⟨.aqf, 0, 0x40028, 0x0, 1, 0, 1, false, .device⟩
  | .AQF_RATING => ⟨.aqf, 0, 0x4002C, 0x0, 1, 0, 1, false, .device⟩
  | .AQF_SPARE => ⟨.aqf, 0, 0x40030, 0x0, 1, 0, 1, false, .device⟩
  | .AQF_SEQ_LO => ⟨.aqf, 0, 0x40034, 0x0, 1, 0, 1, false, .device⟩
  | .AQF_SEQ_HI => ⟨.aqf, 0, 0x40038, 0x0, 1, 0, 1, false, .device⟩
  | .AQF_DFL_HEAD => ⟨.aqf, 0, 0x4003C, 0x0, 1, 0, 1, false, .device⟩
  | .AQF_DFL_ACK => ⟨.aqf, 0, 0x40040, 0x0, 1, 0, 1, false, .device⟩
  | .AQF_DIE_CMD => ⟨.aqf, 0, 0x40044, 0x0, 1, 0, 1, false, .device⟩
  | .AQF_DIE_RESULT => ⟨.aqf, 0, 0x40048, 0x0, 1, 0, 1, false, .device⟩
  | .AQF_CRYPT => ⟨.aqf, 0, 0x4004C, 0x0, 1, 0, 1, false, .device⟩
  | .AQF_MOUNT_MS => ⟨.aqf, 0, 0x40050, 0x0, 1, 0, 1, false, .device⟩
  | .NFC_SEL => ⟨.nfc, 0, 0x50000, 0x0, 1, 0, 1, false, .device⟩
  | .NFC_CTRL => ⟨.nfc, 0, 0x50004, 0x0, 1, 0, 1, true, .device⟩
  | .NFC_STATUS => ⟨.nfc, 0, 0x50008, 0x0, 1, 0, 1, true, .device⟩
  | .NFC_DIE_STATE_LO => ⟨.nfc, 0, 0x5000C, 0x0, 1, 0, 1, true, .device⟩
  | .NFC_DIE_STATE_HI => ⟨.nfc, 0, 0x50010, 0x0, 1, 0, 1, true, .device⟩
  | .NFC_CORR_LO => ⟨.nfc, 0, 0x50014, 0x0, 1, 0, 1, true, .device⟩
  | .NFC_CORR_HI => ⟨.nfc, 0, 0x50018, 0x0, 1, 0, 1, true, .device⟩
  | .NFC_RETRY => ⟨.nfc, 0, 0x5001C, 0x0, 1, 0, 1, true, .device⟩
  | .NFC_SOFT => ⟨.nfc, 0, 0x50020, 0x0, 1, 0, 1, true, .device⟩
  | .NFC_REBUILD => ⟨.nfc, 0, 0x50024, 0x0, 1, 0, 1, true, .device⟩
  | .NFC_RT_MOVES => ⟨.nfc, 0, 0x50028, 0x0, 1, 0, 1, true, .device⟩
  | .NFC_RT_CLAMP => ⟨.nfc, 0, 0x5002C, 0x0, 1, 0, 1, true, .device⟩
  | .NFC_FAIL => ⟨.nfc, 0, 0x50030, 0x0, 1, 0, 1, true, .device⟩
  | .HIF_STATUS => ⟨.hif, 0, 0x10000, 0x0, 1, 0, 1, false, .func⟩
  | .HIF_EVENT => ⟨.hif, 0, 0x10004, 0x0, 1, 0, 1, false, .func⟩
  | .HIF_CTRL => ⟨.hif, 0, 0x10008, 0x0, 1, 0, 1, false, .func⟩
  | .HIF_STALL_LIMIT => ⟨.hif, 0, 0x1000C, 0x0, 1, 0, 1, false, .func⟩
  | .HIF_FW_DRAIN => ⟨.hif, 0, 0x10010, 0x0, 1, 0, 1, false, .func⟩
  | .HIF_DMA_ERR_ADDR_LO => ⟨.hif, 0, 0x10014, 0x0, 1, 0, 1, false, .func⟩
  | .HIF_DMA_ERR_ADDR_HI => ⟨.hif, 0, 0x10018, 0x0, 1, 0, 1, false, .func⟩
  | .HIF_DMA_ERR_INFO => ⟨.hif, 0, 0x1001C, 0x0, 1, 0, 1, false, .func⟩
  | .HIF_PWR_CTRL => ⟨.hif, 0, 0x10020, 0x0, 1, 0, 1, false, .func⟩
  | .HIF_PWR_STATUS => ⟨.hif, 0, 0x10024, 0x0, 1, 0, 1, false, .func⟩
  | .HIF_PWR_LAT => ⟨.hif, 0, 0x10028, 0x0, 1, 0, 1, false, .func⟩
  | .HIF_LOCKS => ⟨.hif, 0, 0x1002C, 0x0, 1, 0, 1, false, .func⟩
  | .TASK_STATUS => ⟨.task, 2, 0x0, 0x0, 1, 0, 1, false, .func⟩
  | .TASK_REFUSED => ⟨.task, 2, 0x4, 0x0, 1, 0, 1, false, .func⟩
  | .TASK_Q_CTRL => ⟨.task, 2, 0x1000, 0x1000, 8, 0, 1, false, .func⟩
  | .TASK_Q_STATUS => ⟨.task, 2, 0x1004, 0x1000, 8, 0, 1, false, .func⟩
  | .TASK_SQ_BASE_LO => ⟨.task, 2, 0x1008, 0x1000, 8, 0, 1, false, .func⟩
  | .TASK_SQ_BASE_HI => ⟨.task, 2, 0x100C, 0x1000, 8, 0, 1, false, .func⟩
  | .TASK_CQ_BASE_LO => ⟨.task, 2, 0x1010, 0x1000, 8, 0, 1, false, .func⟩
  | .TASK_CQ_BASE_HI => ⟨.task, 2, 0x1014, 0x1000, 8, 0, 1, false, .func⟩
  | .TASK_Q_SIZE => ⟨.task, 2, 0x1018, 0x1000, 8, 0, 1, false, .func⟩
  | .TASK_GO => ⟨.task, 2, 0x101C, 0x1000, 8, 0, 1, false, .func⟩
  | .TASK_SQ_HEAD => ⟨.task, 2, 0x1020, 0x1000, 8, 0, 1, false, .func⟩
  | .TASK_CQ_HEAD => ⟨.task, 2, 0x1024, 0x1000, 8, 0, 1, false, .func⟩
  | .TASK_CQ_COAL => ⟨.task, 2, 0x1028, 0x1000, 8, 0, 1, false, .func⟩
  | .TASK_SQ_TAIL => ⟨.task, 2, 0x102C, 0x1000, 8, 0, 1, false, .func⟩
  | .DEC_SEL => ⟨.dec, 0, 0xB0000, 0x0, 1, 0, 1, false, .device⟩
  | .DEC_STATUS => ⟨.dec, 0, 0xB0004, 0x0, 1, 0, 1, true, .device⟩
  | .DEC_EVENT => ⟨.dec, 0, 0xB0008, 0x0, 1, 0, 1, true, .device⟩
  | .DEC_SAMPLES => ⟨.dec, 0, 0xB000C, 0x0, 1, 0, 1, true, .device⟩
  | .DEC_REJECTS => ⟨.dec, 0, 0xB0010, 0x0, 1, 0, 1, true, .device⟩
  | .DEC_LAST_REJECT => ⟨.dec, 0, 0xB0014, 0x0, 1, 0, 1, true, .device⟩
  | .DEC_LAST_G_LO => ⟨.dec, 0, 0xB0018, 0x0, 1, 0, 1, true, .device⟩
  | .DEC_LAST_G_HI => ⟨.dec, 0, 0xB001C, 0x0, 1, 0, 1, true, .device⟩
  | .DEC_CYCLES_LO => ⟨.dec, 0, 0xB0020, 0x0, 1, 0, 1, true, .device⟩
  | .DEC_CYCLES_HI => ⟨.dec, 0, 0xB0024, 0x0, 1, 0, 1, true, .device⟩
  | .DEC_PK_BATCHES => ⟨.dec, 0, 0xB0028, 0x0, 1, 0, 1, true, .device⟩
  | .DEC_PK_FILLED => ⟨.dec, 0, 0xB002C, 0x0, 1, 0, 1, true, .device⟩
  | .DEC_PK_OVERFLOW => ⟨.dec, 0, 0xB0030, 0x0, 1, 0, 1, true, .device⟩
  | .DEC_PK_DIGEST_LO => ⟨.dec, 0, 0xB0034, 0x0, 1, 0, 1, true, .device⟩
  | .DEC_PK_DIGEST_HI => ⟨.dec, 0, 0xB0038, 0x0, 1, 0, 1, true, .device⟩
  | .DEC_PK_STEP_LO => ⟨.dec, 0, 0xB003C, 0x0, 1, 0, 1, true, .device⟩
  | .DEC_PK_STEP_HI => ⟨.dec, 0, 0xB0040, 0x0, 1, 0, 1, true, .device⟩
  | .JET_SEL => ⟨.jet, 0, 0x90000, 0x0, 1, 0, 1, false, .device⟩
  | .JET_STATUS => ⟨.jet, 0, 0x90004, 0x0, 1, 0, 1, true, .device⟩
  | .JET_EVENT => ⟨.jet, 0, 0x90008, 0x0, 1, 0, 1, true, .device⟩
  | .JET_CTRL => ⟨.jet, 0, 0x9000C, 0x0, 1, 0, 1, true, .device⟩
  | .JET_SAMPLES => ⟨.jet, 0, 0x90010, 0x0, 1, 0, 1, true, .device⟩
  | .JET_REJECTS => ⟨.jet, 0, 0x90014, 0x0, 1, 0, 1, true, .device⟩
  | .JET_DETECTS => ⟨.jet, 0, 0x90018, 0x0, 1, 0, 1, true, .device⟩
  | .JET_FAULT_INFO => ⟨.jet, 0, 0x9001C, 0x0, 1, 0, 1, true, .device⟩
  | .JET_FAULT_STEP_LO => ⟨.jet, 0, 0x90020, 0x0, 1, 0, 1, true, .device⟩
  | .JET_FAULT_STEP_HI => ⟨.jet, 0, 0x90024, 0x0, 1, 0, 1, true, .device⟩
  | .JET_MACS_LO => ⟨.jet, 0, 0x90028, 0x0, 1, 0, 1, true, .device⟩
  | .JET_MACS_HI => ⟨.jet, 0, 0x9002C, 0x0, 1, 0, 1, true, .device⟩
  | .JET_CYCLES_LO => ⟨.jet, 0, 0x90030, 0x0, 1, 0, 1, true, .device⟩
  | .JET_CYCLES_HI => ⟨.jet, 0, 0x90034, 0x0, 1, 0, 1, true, .device⟩
  | .JET_SIEVE_KEEP => ⟨.jet, 0, 0x90038, 0x0, 1, 0, 1, true, .device⟩
  | .JET_SIEVE_DROP => ⟨.jet, 0, 0x9003C, 0x0, 1, 0, 1, true, .device⟩
  | .JET_LAST_SCORE => ⟨.jet, 0, 0x90040, 0x0, 1, 0, 1, true, .device⟩
  | .REED_SEL => ⟨.reed, 0, 0xA0000, 0x0, 1, 0, 1, false, .device⟩
  | .REED_STATUS => ⟨.reed, 0, 0xA0004, 0x0, 1, 0, 1, true, .device⟩
  | .REED_EVENT => ⟨.reed, 0, 0xA0008, 0x0, 1, 0, 1, true, .device⟩
  | .REED_SAMPLES => ⟨.reed, 0, 0xA000C, 0x0, 1, 0, 1, true, .device⟩
  | .REED_REJECTS => ⟨.reed, 0, 0xA0010, 0x0, 1, 0, 1, true, .device⟩
  | .REED_TOKENS_LO => ⟨.reed, 0, 0xA0014, 0x0, 1, 0, 1, true, .device⟩
  | .REED_TOKENS_HI => ⟨.reed, 0, 0xA0018, 0x0, 1, 0, 1, true, .device⟩
  | .REED_MISSES => ⟨.reed, 0, 0xA001C, 0x0, 1, 0, 1, true, .device⟩
  | .REED_STALL_LO => ⟨.reed, 0, 0xA0020, 0x0, 1, 0, 1, true, .device⟩
  | .REED_STALL_HI => ⟨.reed, 0, 0xA0024, 0x0, 1, 0, 1, true, .device⟩
  | .REED_ESCAPES => ⟨.reed, 0, 0xA0028, 0x0, 1, 0, 1, true, .device⟩
  | .REED_STOPS => ⟨.reed, 0, 0xA002C, 0x0, 1, 0, 1, true, .device⟩
  | .REED_LAST_REJECT => ⟨.reed, 0, 0xA0030, 0x0, 1, 0, 1, true, .device⟩
  | .REED_VOCAB_STATE => ⟨.reed, 0, 0xA0040, 0x0, 1, 0, 1, true, .device⟩
  | .REED_VOCAB_ERR => ⟨.reed, 0, 0xA0044, 0x0, 1, 0, 1, true, .device⟩
  | .REED_VOCAB_TAG_LO => ⟨.reed, 0, 0xA0048, 0x0, 1, 0, 1, true, .device⟩
  | .REED_VOCAB_TAG_HI => ⟨.reed, 0, 0xA004C, 0x0, 1, 0, 1, true, .device⟩
  | .BSN_STATUS => ⟨.bsn, 0, 0xC0000, 0x0, 1, 0, 1, false, .device⟩
  | .BSN_EVENT => ⟨.bsn, 0, 0xC0004, 0x0, 1, 0, 1, false, .device⟩
  | .BSN_CPOOL => ⟨.bsn, 0, 0xC0008, 0x0, 1, 0, 1, false, .device⟩
  | .BSN_NONE => ⟨.bsn, 0, 0xC000C, 0x0, 1, 0, 1, false, .device⟩
  | .BSN_VIOL_INFO => ⟨.bsn, 0, 0xC0010, 0x0, 1, 0, 1, false, .device⟩
  | .BSN_POOL_BANKS => ⟨.bsn, 0, 0xC0040, 0x10, 8, 0, 1, false, .device⟩
  | .BSN_POOL_THR => ⟨.bsn, 0, 0xC0044, 0x10, 8, 0, 1, false, .device⟩
  | .BSN_POOL_INUSE => ⟨.bsn, 0, 0xC0048, 0x10, 8, 0, 1, false, .device⟩
  | .BSN_POOL_TOTAL => ⟨.bsn, 0, 0xC004C, 0x10, 8, 0, 1, false, .device⟩
  | .BSN_CLIENT_CFG => ⟨.bsn, 0, 0xC00C0, 0x4, 10, 0, 1, false, .device⟩
  | .BSN_MIN => ⟨.bsn, 0, 0xC0100, 0x20, 10, 4, 8, false, .device⟩
  | .RSV_SEL => ⟨.rsv, 0, 0xD0000, 0x0, 1, 0, 1, false, .device⟩
  | .RSV_OWNER => ⟨.rsv, 0, 0xD0004, 0x0, 1, 0, 1, true, .device⟩
  | .RSV_EVENT => ⟨.rsv, 0, 0xD0008, 0x0, 1, 0, 1, true, .device⟩
  | .RSV_ECC_CORR => ⟨.rsv, 0, 0xD000C, 0x0, 1, 0, 1, true, .device⟩
  | .RSV_ECC_UNCORR => ⟨.rsv, 0, 0xD0010, 0x0, 1, 0, 1, true, .device⟩
  | .RSV_ECC_COL => ⟨.rsv, 0, 0xD0014, 0x0, 1, 0, 1, true, .device⟩
  | .RSV_FIELD_STAGE => ⟨.rsv, 0, 0xD0018, 0x0, 1, 0, 1, true, .device⟩
  | .RSV_SPARE_COL => ⟨.rsv, 0, 0xD0020, 0x4, 8, 0, 1, true, .device⟩
  | .RSV_VIOL => ⟨.rsv, 0, 0xD0080, 0x0, 1, 0, 1, false, .device⟩
  | .RSV_FIELD_CTRL => ⟨.rsv, 0, 0xD0084, 0x0, 1, 0, 1, false, .device⟩
  | .RSV_FIELD_RESULT => ⟨.rsv, 0, 0xD0088, 0x0, 1, 0, 1, false, .device⟩
  | .PBL_STATUS => ⟨.pbl, 0, 0xE0000, 0x0, 1, 0, 1, false, .device⟩
  | .PBL_EVENT => ⟨.pbl, 0, 0xE0004, 0x0, 1, 0, 1, false, .device⟩
  | .PBL_JOB_CTRL => ⟨.pbl, 0, 0xE0008, 0x0, 1, 0, 1, false, .device⟩
  | .PBL_SRC_LO => ⟨.pbl, 0, 0xE000C, 0x0, 1, 0, 1, false, .device⟩
  | .PBL_SRC_HI => ⟨.pbl, 0, 0xE0010, 0x0, 1, 0, 1, false, .device⟩
  | .PBL_DST_LO => ⟨.pbl, 0, 0xE0014, 0x0, 1, 0, 1, false, .device⟩
  | .PBL_DST_HI => ⟨.pbl, 0, 0xE0018, 0x0, 1, 0, 1, false, .device⟩
  | .PBL_SRC_LEN => ⟨.pbl, 0, 0xE001C, 0x0, 1, 0, 1, false, .device⟩
  | .PBL_DST_LEN => ⟨.pbl, 0, 0xE0020, 0x0, 1, 0, 1, false, .device⟩
  | .PBL_JOB_RESULT => ⟨.pbl, 0, 0xE0024, 0x0, 1, 0, 1, false, .device⟩
  | .PBL_IN_DONE => ⟨.pbl, 0, 0xE0028, 0x0, 1, 0, 1, false, .device⟩
  | .PBL_OUT_DONE => ⟨.pbl, 0, 0xE002C, 0x0, 1, 0, 1, false, .device⟩
  | .PBL_BLOCKS => ⟨.pbl, 0, 0xE0030, 0x0, 1, 0, 1, false, .device⟩
  | .PBL_LOSS => ⟨.pbl, 0, 0xE0034, 0x0, 1, 0, 1, false, .device⟩
  | .PBL_FAILS => ⟨.pbl, 0, 0xE0038, 0x0, 1, 0, 1, false, .device⟩
  | .PBL_STATE => ⟨.pbl, 0, 0xE0040, 0x4, 16, 0, 1, false, .device⟩
  | .PBL_RESUME => ⟨.pbl, 0, 0xE0080, 0x4, 16, 0, 1, false, .device⟩
  | .SPT_SEL => ⟨.spt, 0, 0x100000, 0x0, 1, 0, 1, false, .device⟩
  | .SPT_CTRL => ⟨.spt, 0, 0x100004, 0x0, 1, 0, 1, true, .device⟩
  | .SPT_STATUS => ⟨.spt, 0, 0x100008, 0x0, 1, 0, 1, true, .device⟩
  | .SPT_EVENT => ⟨.spt, 0, 0x10000C, 0x0, 1, 0, 1, true, .device⟩
  | .SPT_MAC_LO => ⟨.spt, 0, 0x100010, 0x0, 1, 0, 1, true, .device⟩
  | .SPT_MAC_HI => ⟨.spt, 0, 0x100014, 0x0, 1, 0, 1, true, .device⟩
  | .SPT_TX_FRAMES_LO => ⟨.spt, 0, 0x100018, 0x0, 1, 0, 1, true, .device⟩
  | .SPT_TX_FRAMES_HI => ⟨.spt, 0, 0x10001C, 0x0, 1, 0, 1, true, .device⟩
  | .SPT_RETRY => ⟨.spt, 0, 0x100020, 0x0, 1, 0, 1, true, .device⟩
  | .SPT_FEC_CORR => ⟨.spt, 0, 0x100024, 0x0, 1, 0, 1, true, .device⟩
  | .SPT_FEC_UNCORR => ⟨.spt, 0, 0x100028, 0x0, 1, 0, 1, true, .device⟩
  | .SPT_CNP => ⟨.spt, 0, 0x10002C, 0x0, 1, 0, 1, true, .device⟩
  | .SPT_DISCARD => ⟨.spt, 0, 0x100030, 0x0, 1, 0, 1, true, .device⟩
  | .SPT_STALL_LIMIT => ⟨.spt, 0, 0x100080, 0x0, 1, 0, 1, false, .device⟩
  | .SPT_REPLAY_HOLD => ⟨.spt, 0, 0x100084, 0x0, 1, 0, 1, false, .device⟩
  | .WEIR_STATUS => ⟨.weir, 0, 0x110000, 0x0, 1, 0, 1, false, .device⟩
  | .WEIR_EVENT => ⟨.weir, 0, 0x110004, 0x0, 1, 0, 1, false, .device⟩
  | .WEIR_CTRL => ⟨.weir, 0, 0x110008, 0x0, 1, 0, 1, false, .device⟩
  | .WEIR_POOL => ⟨.weir, 0, 0x11000C, 0x0, 1, 0, 1, false, .device⟩
  | .WEIR_POOL_USED => ⟨.weir, 0, 0x110010, 0x0, 1, 0, 1, false, .device⟩
  | .WEIR_TBL_CTRL => ⟨.weir, 0, 0x110014, 0x0, 1, 0, 1, false, .device⟩
  | .WEIR_TBL_DATA => ⟨.weir, 0, 0x110040, 0x4, 32, 0, 1, false, .device⟩
  | .WEIR_RILL_MAP => ⟨.weir, 0, 0x1100C0, 0x4, 16, 0, 1, false, .device⟩
  | .WEIR_RESEND => ⟨.weir, 0, 0x110100, 0x0, 1, 0, 1, false, .device⟩
  | .WEIR_RESEND_FSN => ⟨.weir, 0, 0x110104, 0x0, 1, 0, 1, false, .device⟩
  | .WEIR_CR_BASE_LO => ⟨.weir, 0, 0x110108, 0x0, 1, 0, 1, false, .device⟩
  | .WEIR_CR_BASE_HI => ⟨.weir, 0, 0x11010C, 0x0, 1, 0, 1, false, .device⟩
  | .WEIR_CR_SIZE => ⟨.weir, 0, 0x110110, 0x0, 1, 0, 1, false, .device⟩
  | .WEIR_CR_HEAD => ⟨.weir, 0, 0x110114, 0x0, 1, 0, 1, false, .device⟩
  | .WEIR_CR_TAIL => ⟨.weir, 0, 0x110118, 0x0, 1, 0, 1, false, .device⟩
  | .WEIR_DEFICIT_LO => ⟨.weir, 0, 0x110120, 0x0, 1, 0, 1, false, .device⟩
  | .WEIR_DEFICIT_HI => ⟨.weir, 0, 0x110124, 0x0, 1, 0, 1, false, .device⟩
  | .WEIR_MISSED => ⟨.weir, 0, 0x110128, 0x0, 1, 0, 1, false, .device⟩
  | .WEIR_RESENT => ⟨.weir, 0, 0x11012C, 0x0, 1, 0, 1, false, .device⟩
  | .WEIR_TIMERS => ⟨.weir, 0, 0x110130, 0x0, 1, 0, 1, false, .device⟩
  | .WEIR_VTIME_SEL => ⟨.weir, 0, 0x110134, 0x0, 1, 0, 1, false, .device⟩
  | .WEIR_VTIME_LO => ⟨.weir, 0, 0x110138, 0x0, 1, 0, 1, false, .device⟩
  | .WEIR_VTIME_HI => ⟨.weir, 0, 0x11013C, 0x0, 1, 0, 1, false, .device⟩
  | .WEIR_CR_LOST => ⟨.weir, 0, 0x110140, 0x0, 1, 0, 1, false, .device⟩
  | .SDL_STATUS => ⟨.sdl, 0, 0x120000, 0x0, 1, 0, 1, false, .poweron⟩
  | .SDL_EVENT => ⟨.sdl, 0, 0x120004, 0x0, 1, 0, 1, false, .poweron⟩
  | .SDL_CTRL => ⟨.sdl, 0, 0x120008, 0x0, 1, 0, 1, false, .poweron⟩
  | .SDL_CLOCK => ⟨.sdl, 0, 0x12000C, 0x0, 1, 0, 1, false, .poweron⟩
  | .SDL_TIME => ⟨.sdl, 0, 0x120010, 0x4, 4, 0, 1, false, .poweron⟩
  | .SDL_SET => ⟨.sdl, 0, 0x120020, 0x4, 4, 0, 1, false, .poweron⟩
  | .SDL_OFFSET => ⟨.sdl, 0, 0x120030, 0x0, 1, 0, 1, false, .poweron⟩
  | .SDL_FREQ => ⟨.sdl, 0, 0x120034, 0x0, 1, 0, 1, false, .poweron⟩
  | .SDL_SERVO => ⟨.sdl, 0, 0x120038, 0x0, 1, 0, 1, false, .poweron⟩
  | .SDL_PPS => ⟨.sdl, 0, 0x12003C, 0x0, 1, 0, 1, false, .poweron⟩
  | .SDL_UTC => ⟨.sdl, 0, 0x120040, 0x0, 1, 0, 1, false, .poweron⟩
  | .SDL_PORT => ⟨.sdl, 0, 0x120100, 0x4, 26, 0, 1, false, .poweron⟩
  | .INL_SEL => ⟨.inl, 0, 0x130000, 0x0, 1, 0, 1, false, .device⟩
  | .INL_CTRL => ⟨.inl, 0, 0x130004, 0x0, 1, 0, 1, true, .device⟩
  | .INL_STATUS => ⟨.inl, 0, 0x130008, 0x0, 1, 0, 1, true, .device⟩
  | .INL_EVENT => ⟨.inl, 0, 0x13000C, 0x0, 1, 0, 1, true, .device⟩
  | .INL_AGE => ⟨.inl, 0, 0x130010, 0x0, 1, 0, 1, true, .device⟩
  | .INL_ACCEPTED => ⟨.inl, 0, 0x130014, 0x0, 1, 0, 1, true, .device⟩
  | .INL_RUNT => ⟨.inl, 0, 0x130018, 0x0, 1, 0, 1, true, .device⟩
  | .INL_LONG => ⟨.inl, 0, 0x13001C, 0x0, 1, 0, 1, true, .device⟩
  | .INL_STALE => ⟨.inl, 0, 0x130020, 0x0, 1, 0, 1, true, .device⟩
  | .INL_GAP => ⟨.inl, 0, 0x130024, 0x0, 1, 0, 1, true, .device⟩
  | .INL_DROP_OTHER => ⟨.inl, 0, 0x130028, 0x0, 1, 0, 1, true, .device⟩
  | .INL_LAST_DROP => ⟨.inl, 0, 0x13002C, 0x0, 1, 0, 1, true, .device⟩
  | .INL_SID_LO => ⟨.inl, 0, 0x130040, 0x10, 8, 0, 1, true, .device⟩
  | .INL_SID_HI => ⟨.inl, 0, 0x130044, 0x10, 8, 0, 1, true, .device⟩
  | .INL_SCFG => ⟨.inl, 0, 0x130048, 0x10, 8, 0, 1, true, .device⟩
  | .INL_SMAX => ⟨.inl, 0, 0x13004C, 0x10, 8, 0, 1, true, .device⟩
  | .SVC_STATUS => ⟨.svc, 0, 0x180000, 0x0, 1, 0, 1, false, .device⟩
  | .SVC_EVENT => ⟨.svc, 0, 0x180004, 0x0, 1, 0, 1, false, .device⟩
  | .SVC_CTRL => ⟨.svc, 0, 0x180008, 0x0, 1, 0, 1, false, .device⟩
  | .SVC_WDT => ⟨.svc, 0, 0x18000C, 0x0, 1, 0, 1, false, .device⟩
  | .SVC_CORE => ⟨.svc, 0, 0x180010, 0x0, 1, 0, 1, false, .device⟩
  | .SVC_HANGS => ⟨.svc, 0, 0x180014, 0x0, 1, 0, 1, false, .device⟩
  | .SVC_FW_STATUS => ⟨.svc, 0, 0x180018, 0x0, 1, 0, 1, false, .device⟩
  | .SVC_TRIAL => ⟨.svc, 0, 0x18001C, 0x0, 1, 0, 1, false, .device⟩
  | .SVC_RILL_FAULT => ⟨.svc, 0, 0x180020, 0x0, 1, 0, 1, false, .device⟩
  | .SVC_RILL_STEP_LO => ⟨.svc, 0, 0x180024, 0x0, 1, 0, 1, false, .device⟩
  | .SVC_RILL_STEP_HI => ⟨.svc, 0, 0x180028, 0x0, 1, 0, 1, false, .device⟩
  | .SVC_REBUILDS => ⟨.svc, 0, 0x18002C, 0x0, 1, 0, 1, false, .device⟩
  | .SVC_BARRIER_LO => ⟨.svc, 0, 0x180030, 0x0, 1, 0, 1, false, .device⟩
  | .SVC_BARRIER_HI => ⟨.svc, 0, 0x180034, 0x0, 1, 0, 1, false, .device⟩
  | .SVC_SUSPECT_CFG => ⟨.svc, 0, 0x180038, 0x0, 1, 0, 1, false, .device⟩
  | .SVC_SUSPECT_SUM => ⟨.svc, 0, 0x18003C, 0x0, 1, 0, 1, false, .device⟩
  | .SVC_PEER_SEL => ⟨.svc, 0, 0x180040, 0x0, 1, 0, 1, false, .device⟩
  | .SVC_PEER_LATE => ⟨.svc, 0, 0x180044, 0x0, 1, 0, 1, false, .device⟩
  | .SVC_ENG_CMD => ⟨.svc, 0, 0x180048, 0x0, 1, 0, 1, false, .device⟩
  | .DBG_STW_STATUS => ⟨.dbg, 0, 0x160000, 0x0, 1, 0, 1, false, .device⟩
  | .DBG_STW_CTRL => ⟨.dbg, 0, 0x160004, 0x0, 1, 0, 1, false, .device⟩
  | .DBG_STW_EN => ⟨.dbg, 0, 0x160008, 0x0, 1, 0, 1, false, .device⟩
  | .DBG_STW_SEEN => ⟨.dbg, 0, 0x16000C, 0x0, 1, 0, 1, false, .device⟩
  | .DBG_STW_AT_LO => ⟨.dbg, 0, 0x160010, 0x0, 1, 0, 1, false, .device⟩
  | .DBG_STW_AT_HI => ⟨.dbg, 0, 0x160014, 0x0, 1, 0, 1, false, .device⟩
  | .DBG_STW_AT_CYC => ⟨.dbg, 0, 0x160018, 0x0, 1, 0, 1, false, .device⟩
  | .DBG_STW_ADDR_LO => ⟨.dbg, 0, 0x16001C, 0x0, 1, 0, 1, false, .device⟩
  | .DBG_STW_ADDR_HI => ⟨.dbg, 0, 0x160020, 0x0, 1, 0, 1, false, .device⟩
  | .DBG_STW_LEN => ⟨.dbg, 0, 0x160024, 0x0, 1, 0, 1, false, .device⟩
  | .DBG_EVENT => ⟨.dbg, 0, 0x160028, 0x0, 1, 0, 1, false, .device⟩
  | .DBG_BRK_CTRL => ⟨.dbg, 0, 0x16002C, 0x0, 1, 0, 1, false, .device⟩
  | .DBG_BRK_STATUS => ⟨.dbg, 0, 0x160030, 0x0, 1, 0, 1, false, .device⟩
  | .DBG_SNAP => ⟨.dbg, 0, 0x160034, 0x0, 1, 0, 1, false, .device⟩
  | .DBG_TRACE_BASE_LO => ⟨.dbg, 0, 0x160038, 0x0, 1, 0, 1, false, .device⟩
  | .DBG_TRACE_BASE_HI => ⟨.dbg, 0, 0x16003C, 0x0, 1, 0, 1, false, .device⟩
  | .DBG_TRACE_CTRL => ⟨.dbg, 0, 0x160040, 0x0, 1, 0, 1, false, .device⟩
  | .DBG_TRACE_PTR => ⟨.dbg, 0, 0x160044, 0x0, 1, 0, 1, false, .device⟩
  | .DBG_TRACE_LOST => ⟨.dbg, 0, 0x160048, 0x0, 1, 0, 1, false, .device⟩
  | .DBG_ALIGN => ⟨.dbg, 0, 0x16004C, 0x0, 1, 0, 1, false, .device⟩
  | .DBG_W_CFG => ⟨.dbg, 0, 0x160100, 0x80, 8, 0, 1, false, .device⟩
  | .DBG_W_LO => ⟨.dbg, 0, 0x160104, 0x80, 8, 0, 1, false, .device⟩
  | .DBG_W_SCALE => ⟨.dbg, 0, 0x160108, 0x80, 8, 0, 1, false, .device⟩
  | .DBG_W_MATCH_LO => ⟨.dbg, 0, 0x16010C, 0x80, 8, 0, 1, false, .device⟩
  | .DBG_W_MATCH_HI => ⟨.dbg, 0, 0x160110, 0x80, 8, 0, 1, false, .device⟩
  | .DBG_W_DIGEST_LO => ⟨.dbg, 0, 0x160114, 0x80, 8, 0, 1, false, .device⟩
  | .DBG_W_DIGEST_HI => ⟨.dbg, 0, 0x160118, 0x80, 8, 0, 1, false, .device⟩
  | .DBG_W_MIN => ⟨.dbg, 0, 0x16011C, 0x80, 8, 0, 1, false, .device⟩
  | .DBG_W_MAX => ⟨.dbg, 0, 0x160120, 0x80, 8, 0, 1, false, .device⟩
  | .DBG_W_MEAN => ⟨.dbg, 0, 0x160124, 0x80, 8, 0, 1, false, .device⟩
  | .DBG_W_FINITE => ⟨.dbg, 0, 0x160128, 0x80, 8, 0, 1, false, .device⟩
  | .DBG_W_NONFINITE => ⟨.dbg, 0, 0x16012C, 0x80, 8, 0, 1, false, .device⟩
  | .DBG_W_STEP_LO => ⟨.dbg, 0, 0x160130, 0x80, 8, 0, 1, false, .device⟩
  | .DBG_W_STEP_HI => ⟨.dbg, 0, 0x160134, 0x80, 8, 0, 1, false, .device⟩
  | .DBG_W_HIST => ⟨.dbg, 0, 0x160140, 0x80, 8, 4, 16, false, .device⟩
  | .TST_MODE => ⟨.tst, 0, 0x200000, 0x0, 1, 0, 1, false, .device⟩
  | .TST_LOOP_CTRL => ⟨.tst, 0, 0x200004, 0x0, 1, 0, 1, false, .device⟩
  | .TST_LOOP_STATUS => ⟨.tst, 0, 0x200008, 0x0, 1, 0, 1, false, .device⟩
  | .TST_LOOP_ERRORS => ⟨.tst, 0, 0x20000C, 0x0, 1, 0, 1, false, .device⟩
  | .TST_LOOP_UNITS_LO => ⟨.tst, 0, 0x200010, 0x0, 1, 0, 1, false, .device⟩
  | .TST_LOOP_UNITS_HI => ⟨.tst, 0, 0x200014, 0x0, 1, 0, 1, false, .device⟩
  | .PWR_STATUS => ⟨.pwr, 0, 0x170000, 0x0, 1, 0, 1, false, .poweron⟩
  | .PWR_EVENT => ⟨.pwr, 0, 0x170004, 0x0, 1, 0, 1, false, .poweron⟩
  | .PWR_OP => ⟨.pwr, 0, 0x170008, 0x0, 1, 0, 1, false, .poweron⟩
  | .PWR_LIMIT => ⟨.pwr, 0, 0x17000C, 0x0, 1, 0, 1, false, .poweron⟩
  | .PWR_MEAS => ⟨.pwr, 0, 0x170010, 0x0, 1, 0, 1, false, .poweron⟩
  | .PWR_VOLT => ⟨.pwr, 0, 0x170014, 0x4, 4, 0, 1, false, .poweron⟩
  | .PWR_WAKE_EN => ⟨.pwr, 0, 0x170024, 0x0, 1, 0, 1, false, .poweron⟩
  | .PWR_WAKE_CAUSE => ⟨.pwr, 0, 0x170028, 0x0, 1, 0, 1, false, .poweron⟩
  | .PWR_WAKE_TIMER => ⟨.pwr, 0, 0x17002C, 0x0, 1, 0, 1, false, .poweron⟩
  | .PWR_RST_CTRL => ⟨.pwr, 0, 0x170030, 0x0, 1, 0, 1, false, .poweron⟩
  | .PWR_RST_CAUSE => ⟨.pwr, 0, 0x170034, 0x0, 1, 0, 1, false, .poweron⟩
  | .GLB_ID_LO => ⟨.glb, 0, 0x0, 0x0, 1, 0, 1, false, .device⟩
  | .GLB_ID_HI => ⟨.glb, 0, 0x4, 0x0, 1, 0, 1, false, .device⟩
  | .GLB_UID_LO => ⟨.glb, 0, 0x8, 0x0, 1, 0, 1, false, .device⟩
  | .GLB_UID_HI => ⟨.glb, 0, 0xC, 0x0, 1, 0, 1, false, .device⟩
  | .GLB_STATUS => ⟨.glb, 0, 0x10, 0x0, 1, 0, 1, false, .device⟩
  | .GLB_CAUSE => ⟨.glb, 0, 0x14, 0x0, 1, 0, 1, false, .device⟩
  | .GLB_INT_EN => ⟨.glb, 0, 0x18, 0x0, 1, 0, 1, false, .device⟩
  | .GLB_SPT_CAUSE => ⟨.glb, 0, 0x1C, 0x0, 1, 0, 1, false, .device⟩
  | .GLB_SPT_INT_EN => ⟨.glb, 0, 0x20, 0x0, 1, 0, 1, false, .device⟩
  | .GLB_VIOL_ADDR => ⟨.glb, 0, 0x24, 0x0, 1, 0, 1, false, .device⟩
  | .GLB_VIOL_INFO => ⟨.glb, 0, 0x28, 0x0, 1, 0, 1, false, .device⟩
  | .GLB_VIOL_COUNT => ⟨.glb, 0, 0x2C, 0x0, 1, 0, 1, false, .device⟩

/-- The fields of each register, reserved bits left out (R11). -/
def Reg.layout : Reg → List FieldSpec
  | .MIR_CTRL => [⟨8, 8, .sc, 0⟩, ⟨5, 5, .rw, 1⟩, ⟨4, 4, .rw, 1⟩, ⟨3, 3, .rw, 0⟩, ⟨2, 1, .rw, 0⟩, ⟨0, 0, .rw, 0⟩]
  | .MIR_STATUS => [⟨7, 7, .w1c, 0⟩, ⟨6, 6, .w1c, 0⟩, ⟨5, 5, .w1c, 0⟩, ⟨4, 4, .w1c, 0⟩, ⟨1, 1, .ro, 0⟩, ⟨0, 0, .ro, 0⟩]
  | .MIR_FILL => [⟨11, 0, .ro, 0⟩]
  | .MIR_DF_INFO => [⟨31, 16, .ro, 0⟩, ⟨12, 8, .ro, 0⟩, ⟨7, 0, .ro, 0⟩]
  | .MIR_DF_STEP_LO => [⟨31, 0, .ro, 0⟩]
  | .MIR_DF_STEP_HI => [⟨15, 0, .ro, 0⟩]
  | .MIR_DF_COUNT => [⟨31, 0, .cnt, 0⟩]
  | .MIR_DEST_LO => [⟨31, 0, .rw, 0⟩]
  | .MIR_DEST_HI => [⟨31, 0, .rw, 0⟩]
  | .MIR_DEST_SIZE => [⟨31, 0, .rw, 0⟩]
  | .MIR_RP_STEP_LO => [⟨31, 0, .rw, 0⟩]
  | .MIR_RP_STEP_HI => [⟨15, 0, .rw, 0⟩]
  | .MIR_LS_CTRL => [⟨27, 16, .rw, 0xf⟩, ⟨12, 8, .rw, 0⟩, ⟨3, 3, .rw, 0⟩, ⟨2, 2, .rw, 0⟩, ⟨1, 1, .rw, 0⟩, ⟨0, 0, .rw, 0⟩]
  | .MIR_LS_STATUS => [⟨2, 2, .w1c, 0⟩, ⟨1, 1, .w1c, 0⟩, ⟨0, 0, .ro, 0⟩]
  | .MIR_LS_WINDOWS => [⟨31, 0, .cnt, 0⟩]
  | .MIR_LS_TIMEOUT => [⟨15, 0, .rw, 0xa⟩]
  | .CSC_STATUS => [⟨13, 13, .ro, 0⟩, ⟨12, 10, .ro, 0⟩, ⟨9, 9, .ro, 0⟩, ⟨8, 6, .ro, 0⟩, ⟨2, 2, .ro, 0⟩, ⟨1, 1, .ro, 0⟩, ⟨0, 0, .ro, 0⟩]
  | .CSC_EVENT => [⟨6, 6, .w1c, 0⟩, ⟨5, 5, .w1c, 0⟩, ⟨4, 4, .w1c, 0⟩, ⟨3, 3, .w1c, 0⟩, ⟨2, 2, .w1c, 0⟩, ⟨1, 1, .w1c, 0⟩, ⟨0, 0, .w1c, 0⟩]
  | .CSC_LOAD_CTRL => [⟨3, 3, .sc, 0⟩, ⟨2, 2, .sc, 0⟩, ⟨0, 0, .rw, 0⟩]
  | .CSC_LOAD_ADDR_LO => [⟨31, 0, .rw, 0⟩]
  | .CSC_LOAD_ADDR_HI => [⟨31, 0, .rw, 0⟩]
  | .CSC_LOAD_LEN => [⟨31, 0, .rw, 0⟩]
  | .CSC_LOAD_RESULT => [⟨31, 16, .ro, 0⟩, ⟨15, 0, .ro, 0⟩]
  | .CSC_LOAD_ERR_OFS => [⟨31, 0, .ro, 0⟩]
  | .CSC_ACT_CTRL => [⟨3, 3, .sc, 0⟩, ⟨2, 2, .sc, 0⟩, ⟨0, 0, .rw, 0⟩]
  | .CSC_ACT_STEP_LO => [⟨31, 0, .rw, 0⟩]
  | .CSC_ACT_STEP_HI => [⟨15, 0, .rw, 0⟩]
  | .CSC_ACT_STATUS => [⟨31, 16, .ro, 0⟩, ⟨3, 3, .ro, 0⟩, ⟨2, 2, .ro, 0⟩, ⟨1, 1, .ro, 0⟩, ⟨0, 0, .ro, 0⟩]
  | .CSC_SIGN_CTRL => [⟨11, 8, .ro, 0⟩, ⟨1, 1, .rwo, 0⟩, ⟨0, 0, .rw, 0⟩]
  | .CSC_SPARE_MAP => [⟨31, 31, .rw, 0⟩, ⟨30, 30, .ro, 0⟩, ⟨29, 24, .rw, 0⟩, ⟨23, 23, .rw, 0⟩, ⟨22, 22, .ro, 0⟩, ⟨21, 16, .rw, 0⟩, ⟨15, 15, .rw, 0⟩, ⟨14, 14, .ro, 0⟩, ⟨13, 8, .rw, 0⟩, ⟨7, 7, .rw, 0⟩, ⟨6, 6, .ro, 0⟩, ⟨5, 0, .rw, 0⟩]
  | .CSC_SPARE_ACTIVE => [⟨31, 0, .ro, 0⟩]
  | .CSC_JET_AVAIL_LO => [⟨31, 0, .ro, 0xffffffff⟩]
  | .CSC_JET_AVAIL_HI => [⟨31, 0, .ro, 0xffffffff⟩]
  | .CSC_IMG_AVAIL => [⟨31, 0, .ro, 0xffffffff⟩]
  | .CSC_ENG_AVAIL => [⟨31, 16, .ro, 0xffff⟩, ⟨15, 0, .ro, 0xffff⟩]
  | .CSC_VA_AVAIL => [⟨11, 8, .ro, 0xf⟩, ⟨7, 0, .ro, 0xff⟩]
  | .CSC_ACT_COUNT => [⟨31, 0, .cnt, 0⟩]
  | .CSC_S0_HASH => [⟨31, 0, .ro, 0⟩]
  | .CSC_S1_HASH => [⟨31, 0, .ro, 0⟩]
  | .SLU_STATUS => [⟨17, 17, .ro, 0⟩, ⟨16, 16, .ro, 0⟩, ⟨15, 15, .ro, 0⟩, ⟨14, 12, .ro, 0⟩, ⟨11, 11, .ro, 0⟩, ⟨10, 8, .ro, 0⟩, ⟨7, 7, .ro, 0⟩, ⟨6, 4, .ro, 0⟩, ⟨3, 3, .ro, 0⟩, ⟨2, 0, .ro, 0⟩]
  | .SLU_EVENT => [⟨6, 6, .w1c, 0⟩, ⟨5, 5, .w1c, 0⟩, ⟨4, 4, .w1c, 0⟩, ⟨3, 3, .w1c, 0⟩, ⟨2, 2, .w1c, 0⟩, ⟨1, 1, .w1c, 0⟩, ⟨0, 0, .w1c, 0⟩]
  | .SLU_CTRL => [⟨1, 1, .sc, 0⟩, ⟨0, 0, .rw, 0⟩]
  | .SLU_AHEAD => [⟨31, 16, .rw, 0x40⟩, ⟨15, 0, .rw, 0x200⟩]
  | .SLU_ARM_ERR => [⟨9, 8, .ro, 0⟩, ⟨7, 0, .ro, 0⟩]
  | .SLU_STEP_LO => [⟨31, 0, .ro, 0⟩]
  | .SLU_STEP_HI => [⟨15, 0, .ro, 0⟩]
  | .SLU_DEFICIT_LO => [⟨31, 0, .cnt, 0⟩]
  | .SLU_DEFICIT_HI => [⟨31, 0, .cnt, 0⟩]
  | .SLU_BF_DRAWS => [⟨31, 0, .cnt, 0⟩]
  | .SLU_FILLED => [⟨31, 0, .cnt, 0⟩]
  | .SLU_WALK_MAX => [⟨31, 0, .ro, 0⟩]
  | .SLU_PROBE_CTRL => [⟨3, 3, .sc, 0⟩, ⟨1, 0, .rw, 0⟩]
  | .SLU_PROBE_IN_LO => [⟨31, 0, .rw, 0⟩]
  | .SLU_PROBE_IN_HI => [⟨11, 0, .rw, 0⟩]
  | .SLU_PROBE_OUT_LO => [⟨31, 0, .ro, 0⟩]
  | .SLU_PROBE_OUT_HI => [⟨31, 16, .ro, 0⟩, ⟨11, 0, .ro, 0⟩]
  | .AQF_STATUS => [⟨7, 7, .ro, 0⟩, ⟨6, 6, .ro, 0⟩, ⟨5, 5, .ro, 0⟩, ⟨4, 4, .ro, 0⟩, ⟨3, 3, .ro, 0⟩, ⟨2, 2, .ro, 0⟩, ⟨1, 1, .ro, 1⟩, ⟨0, 0, .ro, 0⟩]
  | .AQF_EVENT => [⟨8, 8, .w1c, 0⟩, ⟨7, 7, .w1c, 0⟩, ⟨6, 6, .w1c, 0⟩, ⟨5, 5, .w1c, 0⟩, ⟨4, 4, .w1c, 0⟩, ⟨3, 3, .w1c, 0⟩, ⟨2, 2, .w1c, 0⟩, ⟨1, 1, .w1c, 0⟩, ⟨0, 0, .w1c, 0⟩]
  | .AQF_CTRL => [⟨2, 2, .rw, 1⟩, ⟨1, 1, .rw, 1⟩, ⟨0, 0, .rw, 1⟩]
  | .AQF_CAP_LO => [⟨31, 0, .ro, 0⟩]
  | .AQF_CAP_HI => [⟨31, 0, .ro, 0⟩]
  | .AQF_WB => [⟨23, 16, .ro, 0⟩, ⟨7, 0, .rw, 0x80⟩]
  | .AQF_SLC => [⟨27, 21, .rw, 0x5a⟩, ⟨20, 14, .rw, 0x4b⟩, ⟨13, 7, .rw, 0x19⟩, ⟨6, 0, .ro, 0⟩]
  | .AQF_CKPT => [⟨10, 0, .rw, 0x100⟩]
  | .AQF_RT => [⟨31, 24, .rw, 8⟩, ⟨23, 16, .rw, 6⟩, ⟨15, 8, .rw, 8⟩, ⟨6, 0, .rw, 0x28⟩]
  | .AQF_PLACE => [⟨22, 16, .rw, 5⟩, ⟨15, 0, .rw, 0xc8⟩]
  | .AQF_LIFE => [⟨31, 24, .ro, 0⟩, ⟨23, 16, .ro, 0⟩, ⟨15, 8, .ro, 0⟩, ⟨7, 0, .ro, 0⟩]
  | .AQF_RATING => [⟨23, 16, .ro, 0⟩, ⟨15, 0, .ro, 0⟩]
  | .AQF_SPARE => [⟨23, 16, .ro, 0⟩, ⟨15, 0, .ro, 0⟩]
  | .AQF_SEQ_LO => [⟨31, 0, .ro, 0⟩]
  | .AQF_SEQ_HI => [⟨31, 0, .ro, 0⟩]
  | .AQF_DFL_HEAD => [⟨31, 0, .ro, 0⟩]
  | .AQF_DFL_ACK => [⟨31, 0, .rw, 0⟩]
  | .AQF_DIE_CMD => [⟨18, 18, .sc, 0⟩, ⟨17, 16, .rw, 0⟩, ⟨9, 0, .rw, 0⟩]
  | .AQF_DIE_RESULT => [⟨3, 3, .ro, 0⟩, ⟨2, 2, .ro, 0⟩, ⟨1, 0, .ro, 0⟩]
  | .AQF_CRYPT => [⟨31, 16, .ro, 0⟩, ⟨0, 0, .ro, 0⟩]
  | .AQF_MOUNT_MS => [⟨31, 0, .ro, 0⟩]
  | .NFC_SEL => [⟨31, 16, .ro, 0x20⟩, ⟨15, 0, .rw, 0⟩]
  | .NFC_CTRL => [⟨4, 4, .sc, 0⟩, ⟨3, 0, .rw, 8⟩]
  | .NFC_STATUS => [⟨7, 4, .ro, 0⟩, ⟨3, 3, .ro, 0⟩, ⟨1, 0, .ro, 3⟩]
  | .NFC_DIE_STATE_LO => [⟨31, 0, .ro, 0xffffffff⟩]
  | .NFC_DIE_STATE_HI => [⟨31, 0, .ro, 0xffffffff⟩]
  | .NFC_CORR_LO => [⟨31, 0, .cnt, 0⟩]
  | .NFC_CORR_HI => [⟨31, 0, .cnt, 0⟩]
  | .NFC_RETRY => [⟨31, 0, .cnt, 0⟩]
  | .NFC_SOFT => [⟨31, 0, .cnt, 0⟩]
  | .NFC_REBUILD => [⟨31, 0, .cnt, 0⟩]
  | .NFC_RT_MOVES => [⟨31, 0, .cnt, 0⟩]
  | .NFC_RT_CLAMP => [⟨31, 0, .cnt, 0⟩]
  | .NFC_FAIL => [⟨31, 24, .cnt, 0⟩, ⟨23, 12, .cnt, 0⟩, ⟨11, 0, .cnt, 0⟩]
  | .HIF_STATUS => [⟨16, 16, .ro, 0⟩, ⟨15, 15, .ro, 0⟩, ⟨14, 14, .ro, 0⟩, ⟨13, 13, .ro, 0⟩, ⟨12, 12, .ro, 0⟩, ⟨11, 8, .ro, 0⟩, ⟨7, 3, .ro, 0⟩, ⟨0, 0, .ro, 0⟩]
  | .HIF_EVENT => [⟨6, 6, .w1c, 0⟩, ⟨5, 5, .w1c, 0⟩, ⟨4, 4, .w1c, 0⟩, ⟨3, 3, .w1c, 0⟩, ⟨2, 2, .w1c, 0⟩, ⟨1, 1, .w1c, 0⟩, ⟨0, 0, .w1c, 0⟩]
  | .HIF_CTRL => [⟨1, 1, .rw, 1⟩, ⟨0, 0, .sc, 0⟩]
  | .HIF_STALL_LIMIT => [⟨13, 0, .rw, 0x32⟩]
  | .HIF_FW_DRAIN => [⟨13, 0, .rw, 0xc8⟩]
  | .HIF_DMA_ERR_ADDR_LO => [⟨31, 0, .ro, 0⟩]
  | .HIF_DMA_ERR_ADDR_HI => [⟨31, 0, .ro, 0⟩]
  | .HIF_DMA_ERR_INFO => [⟨31, 16, .ro, 0⟩, ⟨10, 8, .ro, 0⟩, ⟨7, 0, .ro, 0⟩]
  | .HIF_PWR_CTRL => [⟨29, 28, .rw, 2⟩, ⟨27, 20, .rw, 0⟩, ⟨19, 10, .rw, 0x32⟩, ⟨9, 0, .rw, 0x64⟩]
  | .HIF_PWR_STATUS => [⟨31, 16, .ro, 0⟩, ⟨1, 0, .ro, 0⟩]
  | .HIF_PWR_LAT => [⟨31, 24, .ro, 0x28⟩, ⟨23, 16, .ro, 2⟩, ⟨15, 0, .ro, 0x28⟩]
  | .HIF_LOCKS => [⟨24, 16, .ro, 0⟩, ⟨8, 0, .ro, 0⟩]
  | .TASK_STATUS => [⟨25, 16, .ro, 0⟩, ⟨4, 4, .ro, 0⟩, ⟨3, 3, .ro, 0⟩, ⟨2, 2, .ro, 0⟩, ⟨1, 1, .ro, 1⟩, ⟨0, 0, .ro, 1⟩]
  | .TASK_REFUSED => [⟨31, 0, .cnt, 0⟩]
  | .TASK_Q_CTRL => [⟨1, 1, .sc, 0⟩, ⟨0, 0, .rw, 0⟩]
  | .TASK_Q_STATUS => [⟨4, 4, .w1c, 0⟩, ⟨3, 3, .w1c, 0⟩, ⟨2, 2, .ro, 1⟩, ⟨1, 1, .ro, 0⟩, ⟨0, 0, .ro, 0⟩]
  | .TASK_SQ_BASE_LO => [⟨31, 0, .rw, 0⟩]
  | .TASK_SQ_BASE_HI => [⟨31, 0, .rw, 0⟩]
  | .TASK_CQ_BASE_LO => [⟨31, 0, .rw, 0⟩]
  | .TASK_CQ_BASE_HI => [⟨31, 0, .rw, 0⟩]
  | .TASK_Q_SIZE => [⟨19, 16, .rw, 4⟩, ⟨3, 0, .rw, 4⟩]
  | .TASK_GO => [⟨11, 0, .wo, 0⟩]
  | .TASK_SQ_HEAD => [⟨11, 0, .ro, 0⟩]
  | .TASK_CQ_HEAD => [⟨11, 0, .rw, 0⟩]
  | .TASK_CQ_COAL => [⟨31, 16, .rw, 0⟩, ⟨11, 0, .rw, 1⟩]
  | .TASK_SQ_TAIL => [⟨11, 0, .ro, 0⟩]
  | .DEC_SEL => [⟨31, 16, .ro, 0x4c⟩, ⟨15, 0, .rw, 0⟩]
  | .DEC_STATUS => [⟨12, 8, .ro, 0⟩, ⟨7, 4, .ro, 0⟩, ⟨1, 0, .ro, 0⟩]
  | .DEC_EVENT => [⟨2, 2, .w1c, 0⟩, ⟨1, 1, .w1c, 0⟩, ⟨0, 0, .w1c, 0⟩]
  | .DEC_SAMPLES => [⟨31, 0, .cnt, 0⟩]
  | .DEC_REJECTS => [⟨31, 0, .cnt, 0⟩]
  | .DEC_LAST_REJECT => [⟨15, 8, .ro, 0⟩, ⟨7, 0, .ro, 0⟩]
  | .DEC_LAST_G_LO => [⟨31, 0, .ro, 0⟩]
  | .DEC_LAST_G_HI => [⟨31, 0, .ro, 0⟩]
  | .DEC_CYCLES_LO => [⟨31, 0, .cnt, 0⟩]
  | .DEC_CYCLES_HI => [⟨31, 0, .cnt, 0⟩]
  | .DEC_PK_BATCHES => [⟨31, 0, .cnt, 0⟩]
  | .DEC_PK_FILLED => [⟨31, 0, .cnt, 0⟩]
  | .DEC_PK_OVERFLOW => [⟨31, 0, .cnt, 0⟩]
  | .DEC_PK_DIGEST_LO => [⟨31, 0, .ro, 0⟩]
  | .DEC_PK_DIGEST_HI => [⟨31, 0, .ro, 0⟩]
  | .DEC_PK_STEP_LO => [⟨31, 0, .ro, 0⟩]
  | .DEC_PK_STEP_HI => [⟨31, 0, .ro, 0⟩]
  | .JET_SEL => [⟨31, 16, .ro, 0x44⟩, ⟨15, 0, .rw, 0⟩]
  | .JET_STATUS => [⟨21, 16, .ro, 0⟩, ⟨12, 8, .ro, 0⟩, ⟨7, 4, .ro, 0⟩, ⟨3, 3, .ro, 0⟩, ⟨2, 0, .ro, 0⟩]
  | .JET_EVENT => [⟨3, 3, .w1c, 0⟩, ⟨2, 2, .w1c, 0⟩, ⟨1, 1, .w1c, 0⟩, ⟨0, 0, .w1c, 0⟩]
  | .JET_CTRL => [⟨3, 0, .rw, 2⟩]
  | .JET_SAMPLES => [⟨31, 0, .cnt, 0⟩]
  | .JET_REJECTS => [⟨31, 0, .cnt, 0⟩]
  | .JET_DETECTS => [⟨31, 0, .cnt, 0⟩]
  | .JET_FAULT_INFO => [⟨20, 16, .ro, 0⟩, ⟨11, 8, .ro, 0⟩, ⟨2, 0, .ro, 0⟩]
  | .JET_FAULT_STEP_LO => [⟨31, 0, .ro, 0⟩]
  | .JET_FAULT_STEP_HI => [⟨31, 0, .ro, 0⟩]
  | .JET_MACS_LO => [⟨31, 0, .cnt, 0⟩]
  | .JET_MACS_HI => [⟨31, 0, .cnt, 0⟩]
  | .JET_CYCLES_LO => [⟨31, 0, .cnt, 0⟩]
  | .JET_CYCLES_HI => [⟨31, 0, .cnt, 0⟩]
  | .JET_SIEVE_KEEP => [⟨31, 0, .cnt, 0⟩]
  | .JET_SIEVE_DROP => [⟨31, 0, .cnt, 0⟩]
  | .JET_LAST_SCORE => [⟨31, 0, .ro, 0⟩]
  | .REED_SEL => [⟨31, 16, .ro, 0x14⟩, ⟨15, 0, .rw, 0⟩]
  | .REED_STATUS => [⟨21, 20, .ro, 0⟩, ⟨17, 16, .ro, 0⟩, ⟨12, 8, .ro, 0⟩, ⟨7, 4, .ro, 0⟩, ⟨1, 0, .ro, 0⟩]
  | .REED_EVENT => [⟨4, 4, .w1c, 0⟩, ⟨3, 3, .w1c, 0⟩, ⟨2, 2, .w1c, 0⟩, ⟨1, 1, .w1c, 0⟩, ⟨0, 0, .w1c, 0⟩]
  | .REED_SAMPLES => [⟨31, 0, .cnt, 0⟩]
  | .REED_REJECTS => [⟨31, 0, .cnt, 0⟩]
  | .REED_TOKENS_LO => [⟨31, 0, .cnt, 0⟩]
  | .REED_TOKENS_HI => [⟨31, 0, .cnt, 0⟩]
  | .REED_MISSES => [⟨31, 0, .cnt, 0⟩]
  | .REED_STALL_LO => [⟨31, 0, .cnt, 0⟩]
  | .REED_STALL_HI => [⟨31, 0, .cnt, 0⟩]
  | .REED_ESCAPES => [⟨31, 0, .cnt, 0⟩]
  | .REED_STOPS => [⟨31, 0, .cnt, 0⟩]
  | .REED_LAST_REJECT => [⟨7, 0, .ro, 0⟩]
  | .REED_VOCAB_STATE => [⟨25, 4, .ro, 0⟩, ⟨1, 0, .ro, 0⟩]
  | .REED_VOCAB_ERR => [⟨7, 0, .ro, 0⟩]
  | .REED_VOCAB_TAG_LO => [⟨31, 0, .ro, 0⟩]
  | .REED_VOCAB_TAG_HI => [⟨31, 0, .ro, 0⟩]
  | .BSN_STATUS => [⟨31, 24, .ro, 0⟩, ⟨23, 16, .ro, 0⟩, ⟨15, 8, .ro, 0⟩, ⟨7, 0, .ro, 0⟩]
  | .BSN_EVENT => [⟨9, 9, .w1c, 0⟩, ⟨8, 8, .w1c, 0⟩, ⟨7, 0, .w1c, 0⟩]
  | .BSN_CPOOL => [⟨4, 0, .rw, 4⟩]
  | .BSN_NONE => [⟨31, 0, .cnt, 0⟩]
  | .BSN_VIOL_INFO => [⟨31, 31, .w1c, 0⟩, ⟨30, 28, .ro, 0⟩, ⟨27, 24, .ro, 0⟩, ⟨23, 21, .ro, 0⟩, ⟨20, 0, .ro, 0⟩]
  | .BSN_POOL_BANKS => [⟨26, 16, .rw, 0⟩, ⟨9, 0, .rw, 0⟩]
  | .BSN_POOL_THR => [⟨22, 16, .rw, 0x62⟩, ⟨14, 8, .rw, 0x55⟩, ⟨6, 0, .rw, 0x46⟩]
  | .BSN_POOL_INUSE => [⟨20, 0, .ro, 0⟩]
  | .BSN_POOL_TOTAL => [⟨20, 0, .ro, 0⟩]
  | .BSN_CLIENT_CFG => [⟨0, 0, .rw, 0⟩]
  | .BSN_MIN => [⟨20, 0, .rw, 0⟩]
  | .RSV_SEL => [⟨31, 16, .ro, 0x400⟩, ⟨15, 0, .rw, 0⟩]
  | .RSV_OWNER => [⟨31, 31, .sc, 0⟩, ⟨30, 30, .rw, 0⟩, ⟨29, 29, .ro, 0⟩, ⟨28, 24, .rw, 0⟩, ⟨22, 20, .rw, 0⟩, ⟨19, 15, .ro, 0⟩, ⟨14, 10, .ro, 0⟩, ⟨9, 6, .ro, 0⟩, ⟨5, 5, .ro, 0⟩, ⟨2, 0, .ro, 0⟩]
  | .RSV_EVENT => [⟨3, 3, .w1c, 0⟩, ⟨2, 2, .w1c, 0⟩, ⟨1, 1, .w1c, 0⟩, ⟨0, 0, .w1c, 0⟩]
  | .RSV_ECC_CORR => [⟨31, 0, .cnt, 0⟩]
  | .RSV_ECC_UNCORR => [⟨31, 0, .cnt, 0⟩]
  | .RSV_ECC_COL => [⟨9, 0, .ro, 0⟩]
  | .RSV_FIELD_STAGE => [⟨31, 31, .rw, 0⟩, ⟨9, 0, .rw, 0⟩]
  | .RSV_SPARE_COL => [⟨31, 31, .ro, 0⟩, ⟨30, 30, .ro, 0⟩, ⟨9, 0, .ro, 0⟩]
  | .RSV_VIOL => [⟨31, 29, .ro, 0⟩, ⟨28, 24, .ro, 0⟩, ⟨23, 23, .w1c, 0⟩, ⟨21, 12, .ro, 0⟩, ⟨11, 0, .ro, 0⟩]
  | .RSV_FIELD_CTRL => [⟨31, 16, .wo, 0⟩, ⟨2, 2, .ro, 0⟩, ⟨1, 1, .ro, 0⟩, ⟨0, 0, .sc, 0⟩]
  | .RSV_FIELD_RESULT => [⟨31, 31, .ro, 0⟩, ⟨21, 11, .ro, 0⟩, ⟨10, 0, .ro, 0⟩]
  | .PBL_STATUS => [⟨8, 8, .ro, 0⟩, ⟨7, 0, .ro, 0⟩]
  | .PBL_EVENT => [⟨4, 4, .w1c, 0⟩, ⟨3, 3, .w1c, 0⟩, ⟨2, 2, .w1c, 0⟩, ⟨1, 1, .w1c, 0⟩, ⟨0, 0, .w1c, 0⟩]
  | .PBL_JOB_CTRL => [⟨11, 11, .sc, 0⟩, ⟨10, 10, .sc, 0⟩, ⟨9, 9, .rw, 0⟩, ⟨8, 8, .rw, 0⟩, ⟨7, 7, .rw, 0⟩, ⟨6, 5, .rw, 0⟩, ⟨4, 4, .rw, 0⟩, ⟨3, 3, .rw, 0⟩, ⟨2, 1, .rw, 0⟩, ⟨0, 0, .rw, 0⟩]
  | .PBL_SRC_LO => [⟨31, 0, .rw, 0⟩]
  | .PBL_SRC_HI => [⟨31, 0, .rw, 0⟩]
  | .PBL_DST_LO => [⟨31, 0, .rw, 0⟩]
  | .PBL_DST_HI => [⟨31, 0, .rw, 0⟩]
  | .PBL_SRC_LEN => [⟨31, 0, .rw, 0⟩]
  | .PBL_DST_LEN => [⟨31, 0, .rw, 0⟩]
  | .PBL_JOB_RESULT => [⟨7, 0, .ro, 0⟩]
  | .PBL_IN_DONE => [⟨31, 0, .ro, 0⟩]
  | .PBL_OUT_DONE => [⟨31, 0, .ro, 0⟩]
  | .PBL_BLOCKS => [⟨31, 0, .cnt, 0⟩]
  | .PBL_LOSS => [⟨31, 0, .cnt, 0⟩]
  | .PBL_FAILS => [⟨31, 16, .cnt, 0⟩, ⟨15, 0, .cnt, 0⟩]
  | .PBL_STATE => [⟨31, 0, .ro, 0⟩]
  | .PBL_RESUME => [⟨31, 0, .rw, 0⟩]
  | .SPT_SEL => [⟨31, 16, .ro, 0x18⟩, ⟨15, 0, .rw, 0⟩]
  | .SPT_CTRL => [⟨11, 8, .rw, 0xf⟩, ⟨2, 2, .sc, 0⟩, ⟨1, 1, .rw, 0⟩, ⟨0, 0, .rw, 0⟩]
  | .SPT_STATUS => [⟨11, 8, .ro, 0⟩, ⟨3, 3, .ro, 0⟩, ⟨2, 2, .ro, 0⟩, ⟨1, 0, .ro, 0⟩]
  | .SPT_EVENT => [⟨6, 6, .w1c, 0⟩, ⟨5, 5, .w1c, 0⟩, ⟨4, 4, .w1c, 0⟩, ⟨3, 3, .w1c, 0⟩, ⟨2, 2, .w1c, 0⟩, ⟨1, 1, .w1c, 0⟩, ⟨0, 0, .w1c, 0⟩]
  | .SPT_MAC_LO => [⟨31, 0, .rw, 0⟩]
  | .SPT_MAC_HI => [⟨15, 0, .rw, 0⟩]
  | .SPT_TX_FRAMES_LO => [⟨31, 0, .cnt, 0⟩]
  | .SPT_TX_FRAMES_HI => [⟨31, 0, .cnt, 0⟩]
  | .SPT_RETRY => [⟨31, 0, .cnt, 0⟩]
  | .SPT_FEC_CORR => [⟨31, 0, .cnt, 0⟩]
  | .SPT_FEC_UNCORR => [⟨31, 0, .cnt, 0⟩]
  | .SPT_CNP => [⟨31, 0, .cnt, 0⟩]
  | .SPT_DISCARD => [⟨31, 0, .cnt, 0⟩]
  | .SPT_STALL_LIMIT => [⟨19, 0, .rw, 0x7d0⟩]
  | .SPT_REPLAY_HOLD => [⟨15, 0, .rw, 0x1f4⟩]
  | .WEIR_STATUS => [⟨17, 17, .ro, 0⟩, ⟨16, 16, .ro, 0⟩, ⟨8, 0, .ro, 0⟩]
  | .WEIR_EVENT => [⟨7, 7, .w1c, 0⟩, ⟨6, 6, .w1c, 0⟩, ⟨5, 5, .w1c, 0⟩, ⟨4, 4, .w1c, 0⟩, ⟨3, 3, .w1c, 0⟩, ⟨2, 2, .w1c, 0⟩, ⟨1, 1, .w1c, 0⟩, ⟨0, 0, .w1c, 0⟩]
  | .WEIR_CTRL => [⟨1, 1, .rw, 0⟩, ⟨0, 0, .rw, 0⟩]
  | .WEIR_POOL => [⟨26, 16, .rw, 0x40⟩, ⟨12, 0, .rw, 0x1000⟩]
  | .WEIR_POOL_USED => [⟨12, 0, .ro, 0⟩]
  | .WEIR_TBL_CTRL => [⟨31, 31, .sc, 0⟩, ⟨30, 30, .rw, 0⟩, ⟨24, 24, .rw, 0⟩, ⟨7, 0, .rw, 0⟩]
  | .WEIR_TBL_DATA => [⟨31, 0, .rw, 0⟩]
  | .WEIR_RILL_MAP => [⟨8, 8, .rw, 0⟩, ⟨7, 0, .rw, 0⟩]
  | .WEIR_RESEND => [⟨31, 31, .sc, 0⟩, ⟨20, 16, .rw, 0⟩, ⟨7, 0, .rw, 0⟩]
  | .WEIR_RESEND_FSN => [⟨31, 0, .rw, 0⟩]
  | .WEIR_CR_BASE_LO => [⟨31, 0, .rw, 0⟩]
  | .WEIR_CR_BASE_HI => [⟨31, 0, .rw, 0⟩]
  | .WEIR_CR_SIZE => [⟨4, 0, .rw, 8⟩]
  | .WEIR_CR_HEAD => [⟨15, 0, .rw, 0⟩]
  | .WEIR_CR_TAIL => [⟨15, 0, .ro, 0⟩]
  | .WEIR_DEFICIT_LO => [⟨31, 0, .cnt, 0⟩]
  | .WEIR_DEFICIT_HI => [⟨31, 0, .cnt, 0⟩]
  | .WEIR_MISSED => [⟨31, 0, .cnt, 0⟩]
  | .WEIR_RESENT => [⟨31, 0, .cnt, 0⟩]
  | .WEIR_TIMERS => [⟨31, 16, .rw, 0x64⟩, ⟨15, 0, .rw, 0x32⟩]
  | .WEIR_VTIME_SEL => [⟨4, 0, .rw, 0⟩]
  | .WEIR_VTIME_LO => [⟨31, 0, .ro, 0⟩]
  | .WEIR_VTIME_HI => [⟨31, 0, .ro, 0⟩]
  | .WEIR_CR_LOST => [⟨31, 0, .cnt, 0⟩]
  | .SDL_STATUS => [⟨20, 16, .ro, 0⟩, ⟨15, 12, .ro, 0xf⟩, ⟨11, 8, .ro, 0⟩, ⟨6, 6, .ro, 0⟩, ⟨5, 5, .ro, 0⟩, ⟨4, 4, .ro, 0⟩, ⟨2, 0, .ro, 0⟩]
  | .SDL_EVENT => [⟨5, 5, .w1c, 0⟩, ⟨4, 4, .w1c, 0⟩, ⟨3, 3, .w1c, 0⟩, ⟨2, 2, .w1c, 0⟩, ⟨1, 1, .w1c, 0⟩, ⟨0, 0, .w1c, 0⟩]
  | .SDL_CTRL => [⟨21, 17, .rw, 0⟩, ⟨15, 15, .sc, 0⟩, ⟨11, 11, .rw, 0⟩, ⟨10, 10, .rw, 0⟩, ⟨9, 9, .rw, 0⟩, ⟨8, 8, .rw, 0⟩, ⟨4, 4, .rw, 1⟩, ⟨1, 0, .rw, 0⟩]
  | .SDL_CLOCK => [⟨31, 24, .rw, 0xf8⟩, ⟨23, 16, .rw, 0x80⟩, ⟨15, 8, .rw, 0x80⟩, ⟨6, 0, .rw, 0⟩]
  | .SDL_TIME => [⟨31, 0, .ro, 0⟩]
  | .SDL_SET => [⟨31, 0, .rw, 0⟩]
  | .SDL_OFFSET => [⟨31, 0, .ro, 0⟩]
  | .SDL_FREQ => [⟨31, 0, .ro, 0⟩]
  | .SDL_SERVO => [⟨23, 16, .rw, 1⟩, ⟨15, 0, .rw, 0x14⟩]
  | .SDL_PPS => [⟨18, 0, .rw, 0x186a0⟩]
  | .SDL_UTC => [⟨15, 0, .rw, 0x25⟩]
  | .SDL_PORT => [⟨31, 16, .rw, 0⟩, ⟨11, 8, .rw, 0xd⟩, ⟨1, 0, .rw, 2⟩]
  | .INL_SEL => [⟨31, 16, .ro, 2⟩, ⟨15, 0, .rw, 0⟩]
  | .INL_CTRL => [⟨15, 8, .rw, 0⟩, ⟨2, 2, .rw, 0⟩, ⟨1, 1, .rw, 0⟩, ⟨0, 0, .rw, 0⟩]
  | .INL_STATUS => [⟨3, 3, .ro, 0⟩, ⟨2, 2, .ro, 0⟩, ⟨1, 1, .ro, 0⟩, ⟨0, 0, .ro, 0⟩]
  | .INL_EVENT => [⟨4, 4, .w1c, 0⟩, ⟨3, 3, .w1c, 0⟩, ⟨2, 2, .w1c, 0⟩, ⟨1, 1, .w1c, 0⟩, ⟨0, 0, .w1c, 0⟩]
  | .INL_AGE => [⟨31, 12, .rw, 0x4e20⟩, ⟨11, 0, .rw, 0x3e8⟩]
  | .INL_ACCEPTED => [⟨31, 0, .cnt, 0⟩]
  | .INL_RUNT => [⟨31, 0, .cnt, 0⟩]
  | .INL_LONG => [⟨31, 0, .cnt, 0⟩]
  | .INL_STALE => [⟨31, 0, .cnt, 0⟩]
  | .INL_GAP => [⟨31, 0, .cnt, 0⟩]
  | .INL_DROP_OTHER => [⟨31, 0, .cnt, 0⟩]
  | .INL_LAST_DROP => [⟨11, 8, .ro, 0xf⟩, ⟨7, 0, .ro, 0⟩]
  | .INL_SID_LO => [⟨31, 0, .rw, 0⟩]
  | .INL_SID_HI => [⟨31, 0, .rw, 0⟩]
  | .INL_SCFG => [⟨31, 31, .rw, 0⟩, ⟨29, 28, .rw, 0⟩, ⟨24, 0, .rw, 0⟩]
  | .INL_SMAX => [⟨24, 0, .rw, 0⟩]
  | .SVC_STATUS => [⟨15, 15, .ro, 0⟩, ⟨14, 14, .ro, 0⟩, ⟨13, 13, .ro, 0⟩, ⟨12, 12, .ro, 0⟩, ⟨7, 4, .ro, 0⟩]
  | .SVC_EVENT => [⟨13, 13, .w1c, 0⟩, ⟨12, 12, .w1c, 0⟩, ⟨11, 11, .w1c, 0⟩, ⟨10, 10, .w1c, 0⟩, ⟨9, 9, .w1c, 0⟩, ⟨8, 8, .w1c, 0⟩, ⟨7, 7, .w1c, 0⟩, ⟨6, 6, .w1c, 0⟩, ⟨5, 5, .w1c, 0⟩, ⟨4, 4, .w1c, 0⟩, ⟨3, 3, .w1c, 0⟩, ⟨2, 2, .w1c, 0⟩, ⟨1, 1, .w1c, 0⟩, ⟨0, 0, .w1c, 0⟩]
  | .SVC_CTRL => [⟨11, 8, .rw, 3⟩, ⟨0, 0, .sc, 0⟩]
  | .SVC_WDT => [⟨31, 16, .rw, 0x64⟩, ⟨15, 0, .rw, 8⟩]
  | .SVC_CORE => [⟨31, 0, .ro, 0⟩]
  | .SVC_HANGS => [⟨31, 0, .cnt, 0⟩]
  | .SVC_FW_STATUS => [⟨31, 24, .ro, 0⟩, ⟨10, 8, .ro, 0⟩, ⟨6, 4, .ro, 3⟩, ⟨0, 0, .ro, 0⟩]
  | .SVC_TRIAL => [⟨31, 16, .ro, 0⟩, ⟨15, 0, .rw, 0x258⟩]
  | .SVC_RILL_FAULT => [⟨31, 31, .w1c, 0⟩, ⟨20, 16, .ro, 0⟩, ⟨11, 8, .ro, 0⟩, ⟨7, 0, .ro, 0⟩]
  | .SVC_RILL_STEP_LO => [⟨31, 0, .ro, 0⟩]
  | .SVC_RILL_STEP_HI => [⟨31, 0, .ro, 0⟩]
  | .SVC_REBUILDS => [⟨31, 0, .cnt, 0⟩]
  | .SVC_BARRIER_LO => [⟨31, 0, .rw, 0⟩]
  | .SVC_BARRIER_HI => [⟨31, 31, .sc, 0⟩, ⟨27, 16, .rw, 0⟩, ⟨15, 0, .rw, 0⟩]
  | .SVC_SUSPECT_CFG => [⟨7, 0, .rw, 0x20⟩]
  | .SVC_SUSPECT_SUM => [⟨28, 16, .ro, 0⟩, ⟨12, 12, .ro, 1⟩, ⟨11, 0, .ro, 0⟩]
  | .SVC_PEER_SEL => [⟨11, 0, .rw, 0⟩]
  | .SVC_PEER_LATE => [⟨31, 31, .ro, 0⟩, ⟨8, 0, .ro, 0⟩]
  | .SVC_ENG_CMD => [⟨31, 31, .sc, 0⟩, ⟨30, 30, .ro, 0⟩, ⟨29, 29, .ro, 0⟩, ⟨18, 16, .rw, 0⟩, ⟨6, 0, .rw, 0⟩]
  | .DBG_STW_STATUS => [⟨15, 8, .ro, 0⟩, ⟨2, 0, .ro, 0⟩]
  | .DBG_STW_CTRL => [⟨7, 7, .sc, 0⟩, ⟨6, 6, .sc, 0⟩, ⟨5, 5, .sc, 0⟩, ⟨4, 4, .rw, 0⟩, ⟨3, 3, .rw, 1⟩, ⟨1, 1, .rw, 0⟩, ⟨0, 0, .rw, 0⟩]
  | .DBG_STW_EN => [⟨31, 0, .rw, 0⟩]
  | .DBG_STW_SEEN => [⟨31, 0, .w1c, 0⟩]
  | .DBG_STW_AT_LO => [⟨31, 0, .rw, 0⟩]
  | .DBG_STW_AT_HI => [⟨27, 24, .rw, 0⟩, ⟨15, 0, .rw, 0⟩]
  | .DBG_STW_AT_CYC => [⟨31, 0, .rw, 0⟩]
  | .DBG_STW_ADDR_LO => [⟨31, 0, .rw, 0⟩]
  | .DBG_STW_ADDR_HI => [⟨31, 0, .rw, 0⟩]
  | .DBG_STW_LEN => [⟨31, 0, .ro, 0⟩]
  | .DBG_EVENT => [⟨12, 5, .w1c, 0⟩, ⟨4, 4, .w1c, 0⟩, ⟨3, 3, .w1c, 0⟩, ⟨2, 2, .w1c, 0⟩, ⟨1, 1, .w1c, 0⟩, ⟨0, 0, .w1c, 0⟩]
  | .DBG_BRK_CTRL => [⟨31, 31, .sc, 0⟩, ⟨5, 4, .rw, 0⟩, ⟨3, 0, .rw, 0⟩]
  | .DBG_BRK_STATUS => [⟨31, 16, .ro, 0⟩, ⟨15, 0, .ro, 0⟩]
  | .DBG_SNAP => [⟨31, 31, .sc, 0⟩, ⟨30, 30, .ro, 0⟩]
  | .DBG_TRACE_BASE_LO => [⟨31, 0, .rw, 0⟩]
  | .DBG_TRACE_BASE_HI => [⟨31, 0, .rw, 0⟩]
  | .DBG_TRACE_CTRL => [⟨31, 21, .rw, 0⟩, ⟨13, 9, .rw, 0x10⟩, ⟨1, 1, .rw, 0⟩, ⟨0, 0, .rw, 0⟩]
  | .DBG_TRACE_PTR => [⟨31, 16, .ro, 0⟩, ⟨15, 0, .rw, 0⟩]
  | .DBG_TRACE_LOST => [⟨31, 0, .cnt, 0⟩]
  | .DBG_ALIGN => [⟨31, 24, .rw, 0⟩, ⟨23, 0, .ro, 0⟩]
  | .DBG_W_CFG => [⟨31, 31, .rw, 0⟩, ⟨30, 30, .rw, 0⟩, ⟨29, 29, .rw, 0⟩, ⟨23, 16, .rw, 7⟩, ⟨12, 8, .rw, 0⟩, ⟨7, 4, .rw, 0⟩]
  | .DBG_W_LO => [⟨31, 0, .rw, 0⟩]
  | .DBG_W_SCALE => [⟨31, 0, .rw, 0⟩]
  | .DBG_W_MATCH_LO => [⟨31, 0, .rw, 0⟩]
  | .DBG_W_MATCH_HI => [⟨31, 0, .rw, 0⟩]
  | .DBG_W_DIGEST_LO => [⟨31, 0, .ro, 0⟩]
  | .DBG_W_DIGEST_HI => [⟨31, 0, .ro, 0⟩]
  | .DBG_W_MIN => [⟨31, 0, .ro, 0x7fc00000⟩]
  | .DBG_W_MAX => [⟨31, 0, .ro, 0x7fc00000⟩]
  | .DBG_W_MEAN => [⟨31, 0, .ro, 0x7fc00000⟩]
  | .DBG_W_FINITE => [⟨31, 0, .ro, 0⟩]
  | .DBG_W_NONFINITE => [⟨31, 0, .ro, 0⟩]
  | .DBG_W_STEP_LO => [⟨31, 0, .ro, 0⟩]
  | .DBG_W_STEP_HI => [⟨31, 0, .ro, 0⟩]
  | .DBG_W_HIST => [⟨31, 0, .ro, 0⟩]
  | .TST_MODE => [⟨0, 0, .ro, 0⟩]
  | .TST_LOOP_CTRL => [⟨31, 31, .sc, 0⟩, ⟨30, 30, .sc, 0⟩, ⟨27, 24, .rw, 0⟩, ⟨23, 20, .rw, 0⟩, ⟨19, 8, .rw, 0x3e8⟩, ⟨7, 0, .rw, 0⟩]
  | .TST_LOOP_STATUS => [⟨3, 3, .w1c, 0⟩, ⟨2, 2, .ro, 0⟩, ⟨1, 1, .ro, 0⟩, ⟨0, 0, .ro, 0⟩]
  | .TST_LOOP_ERRORS => [⟨31, 0, .cnt, 0⟩]
  | .TST_LOOP_UNITS_LO => [⟨31, 0, .cnt, 0⟩]
  | .TST_LOOP_UNITS_HI => [⟨31, 0, .cnt, 0⟩]
  | .PWR_STATUS => [⟨9, 8, .ro, 0⟩, ⟨6, 6, .ro, 0⟩, ⟨5, 5, .ro, 0⟩, ⟨4, 4, .ro, 0⟩, ⟨3, 3, .ro, 0⟩, ⟨2, 2, .ro, 0⟩, ⟨1, 1, .ro, 0⟩, ⟨0, 0, .ro, 0⟩]
  | .PWR_EVENT => [⟨6, 6, .w1c, 0⟩, ⟨5, 5, .w1c, 0⟩, ⟨4, 4, .w1c, 0⟩, ⟨3, 3, .w1c, 0⟩, ⟨2, 2, .w1c, 0⟩, ⟨1, 1, .w1c, 0⟩, ⟨0, 0, .w1c, 0⟩]
  | .PWR_OP => [⟨10, 8, .ro, 5⟩, ⟨6, 4, .rw, 5⟩, ⟨2, 0, .rw, 0⟩]
  | .PWR_LIMIT => [⟨23, 16, .rw, 0x64⟩, ⟨9, 0, .rw, 0x1b8⟩]
  | .PWR_MEAS => [⟨25, 16, .ro, 0⟩, ⟨7, 0, .ro, 0⟩]
  | .PWR_VOLT => [⟨25, 16, .ro, 0⟩, ⟨9, 0, .ro, 0⟩]
  | .PWR_WAKE_EN => [⟨2, 2, .rw, 0⟩, ⟨1, 1, .rw, 0⟩, ⟨0, 0, .rw, 1⟩]
  | .PWR_WAKE_CAUSE => [⟨5, 5, .ro, 0⟩, ⟨4, 4, .ro, 0⟩, ⟨3, 3, .ro, 0⟩, ⟨2, 2, .ro, 0⟩, ⟨1, 1, .ro, 0⟩, ⟨0, 0, .ro, 0⟩]
  | .PWR_WAKE_TIMER => [⟨15, 0, .rw, 0⟩]
  | .PWR_RST_CTRL => [⟨31, 16, .wo, 0⟩, ⟨0, 0, .sc, 0⟩]
  | .PWR_RST_CAUSE => [⟨15, 8, .cnt, 0⟩, ⟨3, 3, .ro, 0⟩, ⟨2, 2, .ro, 0⟩, ⟨1, 1, .ro, 0⟩, ⟨0, 0, .ro, 1⟩]
  | .GLB_ID_LO => [⟨31, 16, .ro, 0x9216⟩, ⟨15, 8, .ro, 0x21⟩]
  | .GLB_ID_HI => [⟨15, 0, .ro, 0x9211⟩]
  | .GLB_UID_LO => [⟨31, 0, .ro, 0⟩]
  | .GLB_UID_HI => [⟨31, 0, .ro, 0⟩]
  | .GLB_STATUS => [⟨7, 7, .ro, 0⟩, ⟨6, 6, .ro, 0⟩, ⟨5, 5, .ro, 0⟩, ⟨4, 4, .ro, 0⟩, ⟨3, 3, .ro, 0⟩, ⟨2, 2, .ro, 0⟩, ⟨1, 1, .ro, 0⟩, ⟨0, 0, .ro, 0⟩]
  | .GLB_CAUSE => [⟨17, 0, .ro, 0⟩]
  | .GLB_INT_EN => [⟨17, 0, .rw, 0⟩]
  | .GLB_SPT_CAUSE => [⟨23, 0, .ro, 0⟩]
  | .GLB_SPT_INT_EN => [⟨23, 0, .rw, 0⟩]
  | .GLB_VIOL_ADDR => [⟨31, 0, .ro, 0⟩]
  | .GLB_VIOL_INFO => [⟨31, 31, .w1c, 0⟩, ⟨30, 29, .ro, 0⟩, ⟨28, 28, .ro, 0⟩, ⟨27, 24, .ro, 0⟩, ⟨22, 21, .ro, 0⟩, ⟨12, 0, .ro, 0⟩]
  | .GLB_VIOL_COUNT => [⟨31, 0, .cnt, 0⟩]

def MIR_CTRL.START : Fld := ⟨.MIR_CTRL, 8, 8⟩
def MIR_CTRL.BATCH_REC : Fld := ⟨.MIR_CTRL, 5, 5⟩
def MIR_CTRL.VT_REC : Fld := ⟨.MIR_CTRL, 4, 4⟩
def MIR_CTRL.DEST : Fld := ⟨.MIR_CTRL, 3, 3⟩
def MIR_CTRL.MODE : Fld := ⟨.MIR_CTRL, 2, 1⟩
def MIR_CTRL.EN : Fld := ⟨.MIR_CTRL, 0, 0⟩
def MIR_STATUS.DCLASS_MISMATCH : Fld := ⟨.MIR_STATUS, 7, 7⟩
def MIR_STATUS.LOG_FULL : Fld := ⟨.MIR_STATUS, 6, 6⟩
def MIR_STATUS.DET_FAULT : Fld := ⟨.MIR_STATUS, 5, 5⟩
def MIR_STATUS.REPLAY_DONE : Fld := ⟨.MIR_STATUS, 4, 4⟩
def MIR_STATUS.REPLAYING : Fld := ⟨.MIR_STATUS, 1, 1⟩
def MIR_STATUS.RECORDING : Fld := ⟨.MIR_STATUS, 0, 0⟩
def MIR_FILL.FILL_MIB : Fld := ⟨.MIR_FILL, 11, 0⟩
def MIR_DF_INFO.DETAIL : Fld := ⟨.MIR_DF_INFO, 31, 16⟩
def MIR_DF_INFO.RILL : Fld := ⟨.MIR_DF_INFO, 12, 8⟩
def MIR_DF_INFO.CAUSE : Fld := ⟨.MIR_DF_INFO, 7, 0⟩
def MIR_DF_STEP_LO.STEP_LO : Fld := ⟨.MIR_DF_STEP_LO, 31, 0⟩
def MIR_DF_STEP_HI.STEP_HI : Fld := ⟨.MIR_DF_STEP_HI, 15, 0⟩
def MIR_DF_COUNT.COUNT : Fld := ⟨.MIR_DF_COUNT, 31, 0⟩
def MIR_DEST_LO.ADDR : Fld := ⟨.MIR_DEST_LO, 31, 0⟩
def MIR_DEST_HI.ADDR : Fld := ⟨.MIR_DEST_HI, 31, 0⟩
def MIR_DEST_SIZE.SIZE_MIB : Fld := ⟨.MIR_DEST_SIZE, 31, 0⟩
def MIR_RP_STEP_LO.STEP_LO : Fld := ⟨.MIR_RP_STEP_LO, 31, 0⟩
def MIR_RP_STEP_HI.STEP_HI : Fld := ⟨.MIR_RP_STEP_HI, 15, 0⟩
def MIR_LS_CTRL.WINDOW_M1 : Fld := ⟨.MIR_LS_CTRL, 27, 16⟩
def MIR_LS_CTRL.SPOUT : Fld := ⟨.MIR_LS_CTRL, 12, 8⟩
def MIR_LS_CTRL.STOP : Fld := ⟨.MIR_LS_CTRL, 3, 3⟩
def MIR_LS_CTRL.CYCLES : Fld := ⟨.MIR_LS_CTRL, 2, 2⟩
def MIR_LS_CTRL.ROLE : Fld := ⟨.MIR_LS_CTRL, 1, 1⟩
def MIR_LS_CTRL.EN : Fld := ⟨.MIR_LS_CTRL, 0, 0⟩
def MIR_LS_STATUS.LOST : Fld := ⟨.MIR_LS_STATUS, 2, 2⟩
def MIR_LS_STATUS.MISMATCH : Fld := ⟨.MIR_LS_STATUS, 1, 1⟩
def MIR_LS_STATUS.PAIRED : Fld := ⟨.MIR_LS_STATUS, 0, 0⟩
def MIR_LS_WINDOWS.WINDOWS : Fld := ⟨.MIR_LS_WINDOWS, 31, 0⟩
def MIR_LS_TIMEOUT.TIMEOUT_MS : Fld := ⟨.MIR_LS_TIMEOUT, 15, 0⟩
def CSC_STATUS.S1_VERIFIED : Fld := ⟨.CSC_STATUS, 13, 13⟩
def CSC_STATUS.S1_STATE : Fld := ⟨.CSC_STATUS, 12, 10⟩
def CSC_STATUS.S0_VERIFIED : Fld := ⟨.CSC_STATUS, 9, 9⟩
def CSC_STATUS.S0_STATE : Fld := ⟨.CSC_STATUS, 8, 6⟩
def CSC_STATUS.LOADER_BUSY : Fld := ⟨.CSC_STATUS, 2, 2⟩
def CSC_STATUS.ACTIVE_SLOT : Fld := ⟨.CSC_STATUS, 1, 1⟩
def CSC_STATUS.ACTIVE : Fld := ⟨.CSC_STATUS, 0, 0⟩
def CSC_EVENT.SPARE_REJECT : Fld := ⟨.CSC_EVENT, 6, 6⟩
def CSC_EVENT.LOAD_REFUSED : Fld := ⟨.CSC_EVENT, 5, 5⟩
def CSC_EVENT.ACT_REFUSED : Fld := ⟨.CSC_EVENT, 4, 4⟩
def CSC_EVENT.ACT_FAIL : Fld := ⟨.CSC_EVENT, 3, 3⟩
def CSC_EVENT.ACT_DONE : Fld := ⟨.CSC_EVENT, 2, 2⟩
def CSC_EVENT.LOAD_FAIL : Fld := ⟨.CSC_EVENT, 1, 1⟩
def CSC_EVENT.LOAD_DONE : Fld := ⟨.CSC_EVENT, 0, 0⟩
def CSC_LOAD_CTRL.ABORT : Fld := ⟨.CSC_LOAD_CTRL, 3, 3⟩
def CSC_LOAD_CTRL.START : Fld := ⟨.CSC_LOAD_CTRL, 2, 2⟩
def CSC_LOAD_CTRL.SRC : Fld := ⟨.CSC_LOAD_CTRL, 0, 0⟩
def CSC_LOAD_ADDR_LO.ADDR : Fld := ⟨.CSC_LOAD_ADDR_LO, 31, 0⟩
def CSC_LOAD_ADDR_HI.ADDR : Fld := ⟨.CSC_LOAD_ADDR_HI, 31, 0⟩
def CSC_LOAD_LEN.LEN : Fld := ⟨.CSC_LOAD_LEN, 31, 0⟩
def CSC_LOAD_RESULT.ERR : Fld := ⟨.CSC_LOAD_RESULT, 31, 16⟩
def CSC_LOAD_RESULT.STATUS : Fld := ⟨.CSC_LOAD_RESULT, 15, 0⟩
def CSC_LOAD_ERR_OFS.OFFSET : Fld := ⟨.CSC_LOAD_ERR_OFS, 31, 0⟩
def CSC_ACT_CTRL.DISARM : Fld := ⟨.CSC_ACT_CTRL, 3, 3⟩
def CSC_ACT_CTRL.ARM : Fld := ⟨.CSC_ACT_CTRL, 2, 2⟩
def CSC_ACT_CTRL.SLOT : Fld := ⟨.CSC_ACT_CTRL, 0, 0⟩
def CSC_ACT_STEP_LO.STEP_LO : Fld := ⟨.CSC_ACT_STEP_LO, 31, 0⟩
def CSC_ACT_STEP_HI.STEP_HI : Fld := ⟨.CSC_ACT_STEP_HI, 15, 0⟩
def CSC_ACT_STATUS.ERR : Fld := ⟨.CSC_ACT_STATUS, 31, 16⟩
def CSC_ACT_STATUS.HOLDING : Fld := ⟨.CSC_ACT_STATUS, 3, 3⟩
def CSC_ACT_STATUS.ACTIVATING : Fld := ⟨.CSC_ACT_STATUS, 2, 2⟩
def CSC_ACT_STATUS.ARMED_SLOT : Fld := ⟨.CSC_ACT_STATUS, 1, 1⟩
def CSC_ACT_STATUS.ARMED : Fld := ⟨.CSC_ACT_STATUS, 0, 0⟩
def CSC_SIGN_CTRL.KEYS : Fld := ⟨.CSC_SIGN_CTRL, 11, 8⟩
def CSC_SIGN_CTRL.LOCK : Fld := ⟨.CSC_SIGN_CTRL, 1, 1⟩
def CSC_SIGN_CTRL.ENFORCE : Fld := ⟨.CSC_SIGN_CTRL, 0, 0⟩
def CSC_SPARE_MAP.SP67_VALID : Fld := ⟨.CSC_SPARE_MAP, 31, 31⟩
def CSC_SPARE_MAP.SP67_FUSED : Fld := ⟨.CSC_SPARE_MAP, 30, 30⟩
def CSC_SPARE_MAP.SP67_JET : Fld := ⟨.CSC_SPARE_MAP, 29, 24⟩
def CSC_SPARE_MAP.SP66_VALID : Fld := ⟨.CSC_SPARE_MAP, 23, 23⟩
def CSC_SPARE_MAP.SP66_FUSED : Fld := ⟨.CSC_SPARE_MAP, 22, 22⟩
def CSC_SPARE_MAP.SP66_JET : Fld := ⟨.CSC_SPARE_MAP, 21, 16⟩
def CSC_SPARE_MAP.SP65_VALID : Fld := ⟨.CSC_SPARE_MAP, 15, 15⟩
def CSC_SPARE_MAP.SP65_FUSED : Fld := ⟨.CSC_SPARE_MAP, 14, 14⟩
def CSC_SPARE_MAP.SP65_JET : Fld := ⟨.CSC_SPARE_MAP, 13, 8⟩
def CSC_SPARE_MAP.SP64_VALID : Fld := ⟨.CSC_SPARE_MAP, 7, 7⟩
def CSC_SPARE_MAP.SP64_FUSED : Fld := ⟨.CSC_SPARE_MAP, 6, 6⟩
def CSC_SPARE_MAP.SP64_JET : Fld := ⟨.CSC_SPARE_MAP, 5, 0⟩
def CSC_SPARE_ACTIVE.MAP : Fld := ⟨.CSC_SPARE_ACTIVE, 31, 0⟩
def CSC_JET_AVAIL_LO.JETS : Fld := ⟨.CSC_JET_AVAIL_LO, 31, 0⟩
def CSC_JET_AVAIL_HI.JETS : Fld := ⟨.CSC_JET_AVAIL_HI, 31, 0⟩
def CSC_IMG_AVAIL.IMG : Fld := ⟨.CSC_IMG_AVAIL, 31, 0⟩
def CSC_ENG_AVAIL.REED : Fld := ⟨.CSC_ENG_AVAIL, 31, 16⟩
def CSC_ENG_AVAIL.DCMP : Fld := ⟨.CSC_ENG_AVAIL, 15, 0⟩
def CSC_VA_AVAIL.AUDIO : Fld := ⟨.CSC_VA_AVAIL, 11, 8⟩
def CSC_VA_AVAIL.VIDEO : Fld := ⟨.CSC_VA_AVAIL, 7, 0⟩
def CSC_ACT_COUNT.COUNT : Fld := ⟨.CSC_ACT_COUNT, 31, 0⟩
def CSC_S0_HASH.HASH : Fld := ⟨.CSC_S0_HASH, 31, 0⟩
def CSC_S1_HASH.HASH : Fld := ⟨.CSC_S1_HASH, 31, 0⟩
def SLU_STATUS.HEAD_ONLY : Fld := ⟨.SLU_STATUS, 17, 17⟩
def SLU_STATUS.THROTTLED : Fld := ⟨.SLU_STATUS, 16, 16⟩
def SLU_STATUS.P3_PEND : Fld := ⟨.SLU_STATUS, 15, 15⟩
def SLU_STATUS.P3_STATE : Fld := ⟨.SLU_STATUS, 14, 12⟩
def SLU_STATUS.P2_PEND : Fld := ⟨.SLU_STATUS, 11, 11⟩
def SLU_STATUS.P2_STATE : Fld := ⟨.SLU_STATUS, 10, 8⟩
def SLU_STATUS.P1_PEND : Fld := ⟨.SLU_STATUS, 7, 7⟩
def SLU_STATUS.P1_STATE : Fld := ⟨.SLU_STATUS, 6, 4⟩
def SLU_STATUS.P0_PEND : Fld := ⟨.SLU_STATUS, 3, 3⟩
def SLU_STATUS.P0_STATE : Fld := ⟨.SLU_STATUS, 2, 0⟩
def SLU_EVENT.PROBE_DONE : Fld := ⟨.SLU_EVENT, 6, 6⟩
def SLU_EVENT.FILLED : Fld := ⟨.SLU_EVENT, 5, 5⟩
def SLU_EVENT.PLAN_FAIL : Fld := ⟨.SLU_EVENT, 4, 4⟩
def SLU_EVENT.PLAN_END : Fld := ⟨.SLU_EVENT, 3, 3⟩
def SLU_EVENT.PLAN_START : Fld := ⟨.SLU_EVENT, 2, 2⟩
def SLU_EVENT.ARM_REFUSED : Fld := ⟨.SLU_EVENT, 1, 1⟩
def SLU_EVENT.ARM_DONE : Fld := ⟨.SLU_EVENT, 0, 0⟩
def SLU_CTRL.WALK_CLR : Fld := ⟨.SLU_CTRL, 1, 1⟩
def SLU_CTRL.PAUSE : Fld := ⟨.SLU_CTRL, 0, 0⟩
def SLU_AHEAD.MIB : Fld := ⟨.SLU_AHEAD, 31, 16⟩
def SLU_AHEAD.SAMPLES : Fld := ⟨.SLU_AHEAD, 15, 0⟩
def SLU_ARM_ERR.SLOT : Fld := ⟨.SLU_ARM_ERR, 9, 8⟩
def SLU_ARM_ERR.ERR : Fld := ⟨.SLU_ARM_ERR, 7, 0⟩
def SLU_STEP_LO.STEP_LO : Fld := ⟨.SLU_STEP_LO, 31, 0⟩
def SLU_STEP_HI.STEP_HI : Fld := ⟨.SLU_STEP_HI, 15, 0⟩
def SLU_DEFICIT_LO.DEFICIT : Fld := ⟨.SLU_DEFICIT_LO, 31, 0⟩
def SLU_DEFICIT_HI.DEFICIT : Fld := ⟨.SLU_DEFICIT_HI, 31, 0⟩
def SLU_BF_DRAWS.DRAWS : Fld := ⟨.SLU_BF_DRAWS, 31, 0⟩
def SLU_FILLED.FILLED : Fld := ⟨.SLU_FILLED, 31, 0⟩
def SLU_WALK_MAX.PASSES : Fld := ⟨.SLU_WALK_MAX, 31, 0⟩
def SLU_PROBE_CTRL.START : Fld := ⟨.SLU_PROBE_CTRL, 3, 3⟩
def SLU_PROBE_CTRL.SLOT : Fld := ⟨.SLU_PROBE_CTRL, 1, 0⟩
def SLU_PROBE_IN_LO.POS : Fld := ⟨.SLU_PROBE_IN_LO, 31, 0⟩
def SLU_PROBE_IN_HI.POS : Fld := ⟨.SLU_PROBE_IN_HI, 11, 0⟩
def SLU_PROBE_OUT_LO.G_LO : Fld := ⟨.SLU_PROBE_OUT_LO, 31, 0⟩
def SLU_PROBE_OUT_HI.PASSES : Fld := ⟨.SLU_PROBE_OUT_HI, 31, 16⟩
def SLU_PROBE_OUT_HI.G_HI : Fld := ⟨.SLU_PROBE_OUT_HI, 11, 0⟩
def AQF_STATUS.CRYPT : Fld := ⟨.AQF_STATUS, 7, 7⟩
def AQF_STATUS.CLEAN_MOUNT : Fld := ⟨.AQF_STATUS, 6, 6⟩
def AQF_STATUS.DEGRADED : Fld := ⟨.AQF_STATUS, 5, 5⟩
def AQF_STATUS.READ_ONLY : Fld := ⟨.AQF_STATUS, 4, 4⟩
def AQF_STATUS.PF_SAFE : Fld := ⟨.AQF_STATUS, 3, 3⟩
def AQF_STATUS.PF : Fld := ⟨.AQF_STATUS, 2, 2⟩
def AQF_STATUS.MOUNTING : Fld := ⟨.AQF_STATUS, 1, 1⟩
def AQF_STATUS.READY : Fld := ⟨.AQF_STATUS, 0, 0⟩
def AQF_EVENT.LIFE_STEP : Fld := ⟨.AQF_EVENT, 8, 8⟩
def AQF_EVENT.DEFER_OVF : Fld := ⟨.AQF_EVENT, 7, 7⟩
def AQF_EVENT.DEFER_NEW : Fld := ⟨.AQF_EVENT, 6, 6⟩
def AQF_EVENT.DIE_BACK : Fld := ⟨.AQF_EVENT, 5, 5⟩
def AQF_EVENT.DIE_RETIRE : Fld := ⟨.AQF_EVENT, 4, 4⟩
def AQF_EVENT.DIE_SUSPEND : Fld := ⟨.AQF_EVENT, 3, 3⟩
def AQF_EVENT.PF_RECOVER : Fld := ⟨.AQF_EVENT, 2, 2⟩
def AQF_EVENT.PF_DONE : Fld := ⟨.AQF_EVENT, 1, 1⟩
def AQF_EVENT.MOUNT_DONE : Fld := ⟨.AQF_EVENT, 0, 0⟩
def AQF_CTRL.PLACE_EN : Fld := ⟨.AQF_CTRL, 2, 2⟩
def AQF_CTRL.RT_EN : Fld := ⟨.AQF_CTRL, 1, 1⟩
def AQF_CTRL.AUTO_BACK : Fld := ⟨.AQF_CTRL, 0, 0⟩
def AQF_CAP_LO.SECTORS : Fld := ⟨.AQF_CAP_LO, 31, 0⟩
def AQF_CAP_HI.SECTORS : Fld := ⟨.AQF_CAP_HI, 31, 0⟩
def AQF_WB.EFFECTIVE_MIB : Fld := ⟨.AQF_WB, 23, 16⟩
def AQF_WB.LIMIT_MIB : Fld := ⟨.AQF_WB, 7, 0⟩
def AQF_SLC.THROTTLE : Fld := ⟨.AQF_SLC, 27, 21⟩
def AQF_SLC.FOLD_HI : Fld := ⟨.AQF_SLC, 20, 14⟩
def AQF_SLC.FOLD_LO : Fld := ⟨.AQF_SLC, 13, 7⟩
def AQF_SLC.FILL : Fld := ⟨.AQF_SLC, 6, 0⟩
def AQF_CKPT.HORIZON_GIB : Fld := ⟨.AQF_CKPT, 10, 0⟩
def AQF_RT.FLOOR : Fld := ⟨.AQF_RT, 31, 24⟩
def AQF_RT.SOFT : Fld := ⟨.AQF_RT, 23, 16⟩
def AQF_RT.ASYM : Fld := ⟨.AQF_RT, 15, 8⟩
def AQF_RT.LIMIT : Fld := ⟨.AQF_RT, 6, 0⟩
def AQF_PLACE.BUDGET : Fld := ⟨.AQF_PLACE, 22, 16⟩
def AQF_PLACE.SPREAD : Fld := ⟨.AQF_PLACE, 15, 0⟩
def AQF_LIFE.DIE : Fld := ⟨.AQF_LIFE, 31, 24⟩
def AQF_LIFE.SPARE : Fld := ⟨.AQF_LIFE, 23, 16⟩
def AQF_LIFE.WEAR : Fld := ⟨.AQF_LIFE, 15, 8⟩
def AQF_LIFE.LIFE : Fld := ⟨.AQF_LIFE, 7, 0⟩
def AQF_RATING.SLC_DIV : Fld := ⟨.AQF_RATING, 23, 16⟩
def AQF_RATING.PE_NATIVE : Fld := ⟨.AQF_RATING, 15, 0⟩
def AQF_SPARE.DIE_BUDGET : Fld := ⟨.AQF_SPARE, 23, 16⟩
def AQF_SPARE.SPARE_BLKS : Fld := ⟨.AQF_SPARE, 15, 0⟩
def AQF_SEQ_LO.SEQ : Fld := ⟨.AQF_SEQ_LO, 31, 0⟩
def AQF_SEQ_HI.SEQ : Fld := ⟨.AQF_SEQ_HI, 31, 0⟩
def AQF_DFL_HEAD.HEAD : Fld := ⟨.AQF_DFL_HEAD, 31, 0⟩
def AQF_DFL_ACK.ACK : Fld := ⟨.AQF_DFL_ACK, 31, 0⟩
def AQF_DIE_CMD.GO : Fld := ⟨.AQF_DIE_CMD, 18, 18⟩
def AQF_DIE_CMD.OP : Fld := ⟨.AQF_DIE_CMD, 17, 16⟩
def AQF_DIE_CMD.DIE : Fld := ⟨.AQF_DIE_CMD, 9, 0⟩
def AQF_DIE_RESULT.FAIL : Fld := ⟨.AQF_DIE_RESULT, 3, 3⟩
def AQF_DIE_RESULT.BUSY : Fld := ⟨.AQF_DIE_RESULT, 2, 2⟩
def AQF_DIE_RESULT.STATE : Fld := ⟨.AQF_DIE_RESULT, 1, 0⟩
def AQF_CRYPT.KEY_GEN : Fld := ⟨.AQF_CRYPT, 31, 16⟩
def AQF_CRYPT.EN : Fld := ⟨.AQF_CRYPT, 0, 0⟩
def AQF_MOUNT_MS.MS : Fld := ⟨.AQF_MOUNT_MS, 31, 0⟩
def NFC_SEL.COUNT : Fld := ⟨.NFC_SEL, 31, 16⟩
def NFC_SEL.INST : Fld := ⟨.NFC_SEL, 15, 0⟩
def NFC_CTRL.RETRAIN : Fld := ⟨.NFC_CTRL, 4, 4⟩
def NFC_CTRL.RATE : Fld := ⟨.NFC_CTRL, 3, 0⟩
def NFC_STATUS.RATE_ACTIVE : Fld := ⟨.NFC_STATUS, 7, 4⟩
def NFC_STATUS.TRAINED : Fld := ⟨.NFC_STATUS, 3, 3⟩
def NFC_STATUS.CH_STATE : Fld := ⟨.NFC_STATUS, 1, 0⟩
def NFC_DIE_STATE_LO.STATES : Fld := ⟨.NFC_DIE_STATE_LO, 31, 0⟩
def NFC_DIE_STATE_HI.STATES : Fld := ⟨.NFC_DIE_STATE_HI, 31, 0⟩
def NFC_CORR_LO.BITS : Fld := ⟨.NFC_CORR_LO, 31, 0⟩
def NFC_CORR_HI.BITS : Fld := ⟨.NFC_CORR_HI, 31, 0⟩
def NFC_RETRY.COUNT : Fld := ⟨.NFC_RETRY, 31, 0⟩
def NFC_SOFT.COUNT : Fld := ⟨.NFC_SOFT, 31, 0⟩
def NFC_REBUILD.COUNT : Fld := ⟨.NFC_REBUILD, 31, 0⟩
def NFC_RT_MOVES.COUNT : Fld := ⟨.NFC_RT_MOVES, 31, 0⟩
def NFC_RT_CLAMP.COUNT : Fld := ⟨.NFC_RT_CLAMP, 31, 0⟩
def NFC_FAIL.TIMEOUT : Fld := ⟨.NFC_FAIL, 31, 24⟩
def NFC_FAIL.ERASE : Fld := ⟨.NFC_FAIL, 23, 12⟩
def NFC_FAIL.PROGRAM : Fld := ⟨.NFC_FAIL, 11, 0⟩
def HIF_STATUS.SOFT_BUSY : Fld := ⟨.HIF_STATUS, 16, 16⟩
def HIF_STATUS.SETTINGS_SAFE : Fld := ⟨.HIF_STATUS, 15, 15⟩
def HIF_STATUS.KEEPER_UP : Fld := ⟨.HIF_STATUS, 14, 14⟩
def HIF_STATUS.FUNC_READY : Fld := ⟨.HIF_STATUS, 13, 13⟩
def HIF_STATUS.FLIT : Fld := ⟨.HIF_STATUS, 12, 12⟩
def HIF_STATUS.RATE : Fld := ⟨.HIF_STATUS, 11, 8⟩
def HIF_STATUS.WIDTH : Fld := ⟨.HIF_STATUS, 7, 3⟩
def HIF_STATUS.LINK_UP : Fld := ⟨.HIF_STATUS, 0, 0⟩
def HIF_EVENT.DRAIN_EXPIRED : Fld := ⟨.HIF_EVENT, 6, 6⟩
def HIF_EVENT.SOFT_DONE : Fld := ⟨.HIF_EVENT, 5, 5⟩
def HIF_EVENT.BUSY_CLEAR : Fld := ⟨.HIF_EVENT, 4, 4⟩
def HIF_EVENT.DMA_ERR : Fld := ⟨.HIF_EVENT, 3, 3⟩
def HIF_EVENT.HOST_STALL : Fld := ⟨.HIF_EVENT, 2, 2⟩
def HIF_EVENT.LINK_RECOVERY : Fld := ⟨.HIF_EVENT, 1, 1⟩
def HIF_EVENT.P_EXIT : Fld := ⟨.HIF_EVENT, 0, 0⟩
def HIF_CTRL.RO_EN : Fld := ⟨.HIF_CTRL, 1, 1⟩
def HIF_CTRL.SOFT_RESET : Fld := ⟨.HIF_CTRL, 0, 0⟩
def HIF_STALL_LIMIT.MS : Fld := ⟨.HIF_STALL_LIMIT, 13, 0⟩
def HIF_FW_DRAIN.MS : Fld := ⟨.HIF_FW_DRAIN, 13, 0⟩
def HIF_DMA_ERR_ADDR_LO.ADDR : Fld := ⟨.HIF_DMA_ERR_ADDR_LO, 31, 0⟩
def HIF_DMA_ERR_ADDR_HI.ADDR : Fld := ⟨.HIF_DMA_ERR_ADDR_HI, 31, 0⟩
def HIF_DMA_ERR_INFO.TAG : Fld := ⟨.HIF_DMA_ERR_INFO, 31, 16⟩
def HIF_DMA_ERR_INFO.QUEUE : Fld := ⟨.HIF_DMA_ERR_INFO, 10, 8⟩
def HIF_DMA_ERR_INFO.REASON : Fld := ⟨.HIF_DMA_ERR_INFO, 7, 0⟩
def HIF_PWR_CTRL.MAX : Fld := ⟨.HIF_PWR_CTRL, 29, 28⟩
def HIF_PWR_CTRL.IDLE3_S : Fld := ⟨.HIF_PWR_CTRL, 27, 20⟩
def HIF_PWR_CTRL.IDLE2_MS : Fld := ⟨.HIF_PWR_CTRL, 19, 10⟩
def HIF_PWR_CTRL.IDLE1_US : Fld := ⟨.HIF_PWR_CTRL, 9, 0⟩
def HIF_PWR_STATUS.LAST_EXIT_US : Fld := ⟨.HIF_PWR_STATUS, 31, 16⟩
def HIF_PWR_STATUS.STATE : Fld := ⟨.HIF_PWR_STATUS, 1, 0⟩
def HIF_PWR_LAT.P3_MS : Fld := ⟨.HIF_PWR_LAT, 31, 24⟩
def HIF_PWR_LAT.P2_MS : Fld := ⟨.HIF_PWR_LAT, 23, 16⟩
def HIF_PWR_LAT.P1_US : Fld := ⟨.HIF_PWR_LAT, 15, 0⟩
def HIF_LOCKS.HIGH : Fld := ⟨.HIF_LOCKS, 24, 16⟩
def HIF_LOCKS.USED : Fld := ⟨.HIF_LOCKS, 8, 0⟩
def TASK_STATUS.INFLIGHT : Fld := ⟨.TASK_STATUS, 25, 16⟩
def TASK_STATUS.RESET : Fld := ⟨.TASK_STATUS, 4, 4⟩
def TASK_STATUS.BACKPRESSURE : Fld := ⟨.TASK_STATUS, 3, 3⟩
def TASK_STATUS.ACTIVATION : Fld := ⟨.TASK_STATUS, 2, 2⟩
def TASK_STATUS.KEEPER : Fld := ⟨.TASK_STATUS, 1, 1⟩
def TASK_STATUS.BUSY : Fld := ⟨.TASK_STATUS, 0, 0⟩
def TASK_REFUSED.COUNT : Fld := ⟨.TASK_REFUSED, 31, 0⟩
def TASK_Q_CTRL.QRESET : Fld := ⟨.TASK_Q_CTRL, 1, 1⟩
def TASK_Q_CTRL.EN : Fld := ⟨.TASK_Q_CTRL, 0, 0⟩
def TASK_Q_STATUS.GO_REFUSED : Fld := ⟨.TASK_Q_STATUS, 4, 4⟩
def TASK_Q_STATUS.FETCH_ERR : Fld := ⟨.TASK_Q_STATUS, 3, 3⟩
def TASK_Q_STATUS.PHASE : Fld := ⟨.TASK_Q_STATUS, 2, 2⟩
def TASK_Q_STATUS.QRESET_BUSY : Fld := ⟨.TASK_Q_STATUS, 1, 1⟩
def TASK_Q_STATUS.RUNNING : Fld := ⟨.TASK_Q_STATUS, 0, 0⟩
def TASK_SQ_BASE_LO.ADDR : Fld := ⟨.TASK_SQ_BASE_LO, 31, 0⟩
def TASK_SQ_BASE_HI.ADDR : Fld := ⟨.TASK_SQ_BASE_HI, 31, 0⟩
def TASK_CQ_BASE_LO.ADDR : Fld := ⟨.TASK_CQ_BASE_LO, 31, 0⟩
def TASK_CQ_BASE_HI.ADDR : Fld := ⟨.TASK_CQ_BASE_HI, 31, 0⟩
def TASK_Q_SIZE.CQ_LOG2 : Fld := ⟨.TASK_Q_SIZE, 19, 16⟩
def TASK_Q_SIZE.SQ_LOG2 : Fld := ⟨.TASK_Q_SIZE, 3, 0⟩
def TASK_GO.TAIL : Fld := ⟨.TASK_GO, 11, 0⟩
def TASK_SQ_HEAD.HEAD : Fld := ⟨.TASK_SQ_HEAD, 11, 0⟩
def TASK_CQ_HEAD.HEAD : Fld := ⟨.TASK_CQ_HEAD, 11, 0⟩
def TASK_CQ_COAL.TIME_US : Fld := ⟨.TASK_CQ_COAL, 31, 16⟩
def TASK_CQ_COAL.COUNT : Fld := ⟨.TASK_CQ_COAL, 11, 0⟩
def TASK_SQ_TAIL.TAIL : Fld := ⟨.TASK_SQ_TAIL, 11, 0⟩
def DEC_SEL.COUNT : Fld := ⟨.DEC_SEL, 31, 16⟩
def DEC_SEL.INST : Fld := ⟨.DEC_SEL, 15, 0⟩
def DEC_STATUS.STAGE : Fld := ⟨.DEC_STATUS, 12, 8⟩
def DEC_STATUS.RILL : Fld := ⟨.DEC_STATUS, 7, 4⟩
def DEC_STATUS.STATE : Fld := ⟨.DEC_STATUS, 1, 0⟩
def DEC_EVENT.FAULT : Fld := ⟨.DEC_EVENT, 2, 2⟩
def DEC_EVENT.BUDGET : Fld := ⟨.DEC_EVENT, 1, 1⟩
def DEC_EVENT.REJECT : Fld := ⟨.DEC_EVENT, 0, 0⟩
def DEC_SAMPLES.COUNT : Fld := ⟨.DEC_SAMPLES, 31, 0⟩
def DEC_REJECTS.COUNT : Fld := ⟨.DEC_REJECTS, 31, 0⟩
def DEC_LAST_REJECT.REASON : Fld := ⟨.DEC_LAST_REJECT, 15, 8⟩
def DEC_LAST_REJECT.CODEC : Fld := ⟨.DEC_LAST_REJECT, 7, 0⟩
def DEC_LAST_G_LO.G : Fld := ⟨.DEC_LAST_G_LO, 31, 0⟩
def DEC_LAST_G_HI.G : Fld := ⟨.DEC_LAST_G_HI, 31, 0⟩
def DEC_CYCLES_LO.CYCLES : Fld := ⟨.DEC_CYCLES_LO, 31, 0⟩
def DEC_CYCLES_HI.CYCLES : Fld := ⟨.DEC_CYCLES_HI, 31, 0⟩
def DEC_PK_BATCHES.COUNT : Fld := ⟨.DEC_PK_BATCHES, 31, 0⟩
def DEC_PK_FILLED.COUNT : Fld := ⟨.DEC_PK_FILLED, 31, 0⟩
def DEC_PK_OVERFLOW.COUNT : Fld := ⟨.DEC_PK_OVERFLOW, 31, 0⟩
def DEC_PK_DIGEST_LO.DIGEST : Fld := ⟨.DEC_PK_DIGEST_LO, 31, 0⟩
def DEC_PK_DIGEST_HI.DIGEST : Fld := ⟨.DEC_PK_DIGEST_HI, 31, 0⟩
def DEC_PK_STEP_LO.STEP : Fld := ⟨.DEC_PK_STEP_LO, 31, 0⟩
def DEC_PK_STEP_HI.STEP : Fld := ⟨.DEC_PK_STEP_HI, 31, 0⟩
def JET_SEL.COUNT : Fld := ⟨.JET_SEL, 31, 16⟩
def JET_SEL.INST : Fld := ⟨.JET_SEL, 15, 0⟩
def JET_STATUS.LOGICAL : Fld := ⟨.JET_STATUS, 21, 16⟩
def JET_STATUS.STAGE : Fld := ⟨.JET_STATUS, 12, 8⟩
def JET_STATUS.RILL : Fld := ⟨.JET_STATUS, 7, 4⟩
def JET_STATUS.SPARE : Fld := ⟨.JET_STATUS, 3, 3⟩
def JET_STATUS.STATE : Fld := ⟨.JET_STATUS, 2, 0⟩
def JET_EVENT.RETIRED : Fld := ⟨.JET_EVENT, 3, 3⟩
def JET_EVENT.PARITY : Fld := ⟨.JET_EVENT, 2, 2⟩
def JET_EVENT.RESIDUE : Fld := ⟨.JET_EVENT, 1, 1⟩
def JET_EVENT.REJECT : Fld := ⟨.JET_EVENT, 0, 0⟩
def JET_CTRL.RETIRE_AT : Fld := ⟨.JET_CTRL, 3, 0⟩
def JET_SAMPLES.COUNT : Fld := ⟨.JET_SAMPLES, 31, 0⟩
def JET_REJECTS.COUNT : Fld := ⟨.JET_REJECTS, 31, 0⟩
def JET_DETECTS.COUNT : Fld := ⟨.JET_DETECTS, 31, 0⟩
def JET_FAULT_INFO.COLUMN : Fld := ⟨.JET_FAULT_INFO, 20, 16⟩
def JET_FAULT_INFO.OP_INDEX : Fld := ⟨.JET_FAULT_INFO, 11, 8⟩
def JET_FAULT_INFO.UNIT : Fld := ⟨.JET_FAULT_INFO, 2, 0⟩
def JET_FAULT_STEP_LO.STEP : Fld := ⟨.JET_FAULT_STEP_LO, 31, 0⟩
def JET_FAULT_STEP_HI.STEP : Fld := ⟨.JET_FAULT_STEP_HI, 31, 0⟩
def JET_MACS_LO.MACS : Fld := ⟨.JET_MACS_LO, 31, 0⟩
def JET_MACS_HI.MACS : Fld := ⟨.JET_MACS_HI, 31, 0⟩
def JET_CYCLES_LO.CYCLES : Fld := ⟨.JET_CYCLES_LO, 31, 0⟩
def JET_CYCLES_HI.CYCLES : Fld := ⟨.JET_CYCLES_HI, 31, 0⟩
def JET_SIEVE_KEEP.COUNT : Fld := ⟨.JET_SIEVE_KEEP, 31, 0⟩
def JET_SIEVE_DROP.COUNT : Fld := ⟨.JET_SIEVE_DROP, 31, 0⟩
def JET_LAST_SCORE.SCORE : Fld := ⟨.JET_LAST_SCORE, 31, 0⟩
def REED_SEL.COUNT : Fld := ⟨.REED_SEL, 31, 16⟩
def REED_SEL.INST : Fld := ⟨.REED_SEL, 15, 0⟩
def REED_STATUS.VOCAB_SLOT : Fld := ⟨.REED_STATUS, 21, 20⟩
def REED_STATUS.MODE : Fld := ⟨.REED_STATUS, 17, 16⟩
def REED_STATUS.STAGE : Fld := ⟨.REED_STATUS, 12, 8⟩
def REED_STATUS.RILL : Fld := ⟨.REED_STATUS, 7, 4⟩
def REED_STATUS.STATE : Fld := ⟨.REED_STATUS, 1, 0⟩
def REED_EVENT.PARITY : Fld := ⟨.REED_EVENT, 4, 4⟩
def REED_EVENT.FAULT : Fld := ⟨.REED_EVENT, 3, 3⟩
def REED_EVENT.STOP : Fld := ⟨.REED_EVENT, 2, 2⟩
def REED_EVENT.ESCAPE : Fld := ⟨.REED_EVENT, 1, 1⟩
def REED_EVENT.REJECT : Fld := ⟨.REED_EVENT, 0, 0⟩
def REED_SAMPLES.COUNT : Fld := ⟨.REED_SAMPLES, 31, 0⟩
def REED_REJECTS.COUNT : Fld := ⟨.REED_REJECTS, 31, 0⟩
def REED_TOKENS_LO.TOKENS : Fld := ⟨.REED_TOKENS_LO, 31, 0⟩
def REED_TOKENS_HI.TOKENS : Fld := ⟨.REED_TOKENS_HI, 31, 0⟩
def REED_MISSES.COUNT : Fld := ⟨.REED_MISSES, 31, 0⟩
def REED_STALL_LO.CYCLES : Fld := ⟨.REED_STALL_LO, 31, 0⟩
def REED_STALL_HI.CYCLES : Fld := ⟨.REED_STALL_HI, 31, 0⟩
def REED_ESCAPES.COUNT : Fld := ⟨.REED_ESCAPES, 31, 0⟩
def REED_STOPS.COUNT : Fld := ⟨.REED_STOPS, 31, 0⟩
def REED_LAST_REJECT.REASON : Fld := ⟨.REED_LAST_REJECT, 7, 0⟩
def REED_VOCAB_STATE.ENTRIES : Fld := ⟨.REED_VOCAB_STATE, 25, 4⟩
def REED_VOCAB_STATE.STATE : Fld := ⟨.REED_VOCAB_STATE, 1, 0⟩
def REED_VOCAB_ERR.ERR : Fld := ⟨.REED_VOCAB_ERR, 7, 0⟩
def REED_VOCAB_TAG_LO.TAG : Fld := ⟨.REED_VOCAB_TAG_LO, 31, 0⟩
def REED_VOCAB_TAG_HI.TAG : Fld := ⟨.REED_VOCAB_TAG_HI, 31, 0⟩
def BSN_STATUS.RSV_ONLY : Fld := ⟨.BSN_STATUS, 31, 24⟩
def BSN_STATUS.BP : Fld := ⟨.BSN_STATUS, 23, 16⟩
def BSN_STATUS.WARN : Fld := ⟨.BSN_STATUS, 15, 8⟩
def BSN_STATUS.EXHAUSTED : Fld := ⟨.BSN_STATUS, 7, 0⟩
def BSN_EVENT.VIOL : Fld := ⟨.BSN_EVENT, 9, 9⟩
def BSN_EVENT.CONFIG_REFUSED : Fld := ⟨.BSN_EVENT, 8, 8⟩
def BSN_EVENT.WARN : Fld := ⟨.BSN_EVENT, 7, 0⟩
def BSN_CPOOL.SIZE_GIB : Fld := ⟨.BSN_CPOOL, 4, 0⟩
def BSN_NONE.COUNT : Fld := ⟨.BSN_NONE, 31, 0⟩
def BSN_VIOL_INFO.VALID : Fld := ⟨.BSN_VIOL_INFO, 31, 31⟩
def BSN_VIOL_INFO.POOL : Fld := ⟨.BSN_VIOL_INFO, 30, 28⟩
def BSN_VIOL_INFO.CLIENT : Fld := ⟨.BSN_VIOL_INFO, 27, 24⟩
def BSN_VIOL_INFO.REASON : Fld := ⟨.BSN_VIOL_INFO, 23, 21⟩
def BSN_VIOL_INFO.BUFFER : Fld := ⟨.BSN_VIOL_INFO, 20, 0⟩
def BSN_POOL_BANKS.COUNT : Fld := ⟨.BSN_POOL_BANKS, 26, 16⟩
def BSN_POOL_BANKS.FIRST : Fld := ⟨.BSN_POOL_BANKS, 9, 0⟩
def BSN_POOL_THR.RSV_ONLY : Fld := ⟨.BSN_POOL_THR, 22, 16⟩
def BSN_POOL_THR.BP : Fld := ⟨.BSN_POOL_THR, 14, 8⟩
def BSN_POOL_THR.WARN : Fld := ⟨.BSN_POOL_THR, 6, 0⟩
def BSN_POOL_INUSE.COUNT : Fld := ⟨.BSN_POOL_INUSE, 20, 0⟩
def BSN_POOL_TOTAL.COUNT : Fld := ⟨.BSN_POOL_TOTAL, 20, 0⟩
def BSN_CLIENT_CFG.SPILL : Fld := ⟨.BSN_CLIENT_CFG, 0, 0⟩
def BSN_MIN.MIN : Fld := ⟨.BSN_MIN, 20, 0⟩
def RSV_SEL.COUNT : Fld := ⟨.RSV_SEL, 31, 16⟩
def RSV_SEL.INST : Fld := ⟨.RSV_SEL, 15, 0⟩
def RSV_OWNER.GO : Fld := ⟨.RSV_OWNER, 31, 31⟩
def RSV_OWNER.CLEAR : Fld := ⟨.RSV_OWNER, 30, 30⟩
def RSV_OWNER.BUSY : Fld := ⟨.RSV_OWNER, 29, 29⟩
def RSV_OWNER.NEW_SPOUT : Fld := ⟨.RSV_OWNER, 28, 24⟩
def RSV_OWNER.NEW_CLASS : Fld := ⟨.RSV_OWNER, 22, 20⟩
def RSV_OWNER.STAGE : Fld := ⟨.RSV_OWNER, 19, 15⟩
def RSV_OWNER.SPOUT : Fld := ⟨.RSV_OWNER, 14, 10⟩
def RSV_OWNER.RILL : Fld := ⟨.RSV_OWNER, 9, 6⟩
def RSV_OWNER.PORT_FIRST : Fld := ⟨.RSV_OWNER, 5, 5⟩
def RSV_OWNER.CLASS : Fld := ⟨.RSV_OWNER, 2, 0⟩
def RSV_EVENT.UNCORR : Fld := ⟨.RSV_EVENT, 3, 3⟩
def RSV_EVENT.CORR : Fld := ⟨.RSV_EVENT, 2, 2⟩
def RSV_EVENT.HANDOVER_REFUSED : Fld := ⟨.RSV_EVENT, 1, 1⟩
def RSV_EVENT.HANDOVER_DONE : Fld := ⟨.RSV_EVENT, 0, 0⟩
def RSV_ECC_CORR.COUNT : Fld := ⟨.RSV_ECC_CORR, 31, 0⟩
def RSV_ECC_UNCORR.COUNT : Fld := ⟨.RSV_ECC_UNCORR, 31, 0⟩
def RSV_ECC_COL.COLUMN : Fld := ⟨.RSV_ECC_COL, 9, 0⟩
def RSV_FIELD_STAGE.VALID : Fld := ⟨.RSV_FIELD_STAGE, 31, 31⟩
def RSV_FIELD_STAGE.COLUMN : Fld := ⟨.RSV_FIELD_STAGE, 9, 0⟩
def RSV_SPARE_COL.VALID : Fld := ⟨.RSV_SPARE_COL, 31, 31⟩
def RSV_SPARE_COL.FIELD : Fld := ⟨.RSV_SPARE_COL, 30, 30⟩
def RSV_SPARE_COL.COLUMN : Fld := ⟨.RSV_SPARE_COL, 9, 0⟩
def RSV_VIOL.CLASS : Fld := ⟨.RSV_VIOL, 31, 29⟩
def RSV_VIOL.NUMBER : Fld := ⟨.RSV_VIOL, 28, 24⟩
def RSV_VIOL.VALID : Fld := ⟨.RSV_VIOL, 23, 23⟩
def RSV_VIOL.BANK : Fld := ⟨.RSV_VIOL, 21, 12⟩
def RSV_VIOL.WORD : Fld := ⟨.RSV_VIOL, 11, 0⟩
def RSV_FIELD_CTRL.KEY : Fld := ⟨.RSV_FIELD_CTRL, 31, 16⟩
def RSV_FIELD_CTRL.USED : Fld := ⟨.RSV_FIELD_CTRL, 2, 2⟩
def RSV_FIELD_CTRL.BUSY : Fld := ⟨.RSV_FIELD_CTRL, 1, 1⟩
def RSV_FIELD_CTRL.BURN : Fld := ⟨.RSV_FIELD_CTRL, 0, 0⟩
def RSV_FIELD_RESULT.REFUSED : Fld := ⟨.RSV_FIELD_RESULT, 31, 31⟩
def RSV_FIELD_RESULT.SKIPPED : Fld := ⟨.RSV_FIELD_RESULT, 21, 11⟩
def RSV_FIELD_RESULT.BURNED : Fld := ⟨.RSV_FIELD_RESULT, 10, 0⟩
def PBL_STATUS.HOST_BUSY : Fld := ⟨.PBL_STATUS, 8, 8⟩
def PBL_STATUS.LANES_BUSY : Fld := ⟨.PBL_STATUS, 7, 0⟩
def PBL_EVENT.GO_REFUSED : Fld := ⟨.PBL_EVENT, 4, 4⟩
def PBL_EVENT.CHECK_FAIL : Fld := ⟨.PBL_EVENT, 3, 3⟩
def PBL_EVENT.VERIFY_FAIL : Fld := ⟨.PBL_EVENT, 2, 2⟩
def PBL_EVENT.OUT_FULL : Fld := ⟨.PBL_EVENT, 1, 1⟩
def PBL_EVENT.DONE : Fld := ⟨.PBL_EVENT, 0, 0⟩
def PBL_JOB_CTRL.ABORT : Fld := ⟨.PBL_JOB_CTRL, 11, 11⟩
def PBL_JOB_CTRL.GO : Fld := ⟨.PBL_JOB_CTRL, 10, 10⟩
def PBL_JOB_CTRL.RESUME : Fld := ⟨.PBL_JOB_CTRL, 9, 9⟩
def PBL_JOB_CTRL.DST_MEM : Fld := ⟨.PBL_JOB_CTRL, 8, 8⟩
def PBL_JOB_CTRL.SRC_MEM : Fld := ⟨.PBL_JOB_CTRL, 7, 7⟩
def PBL_JOB_CTRL.STRIDE_M1 : Fld := ⟨.PBL_JOB_CTRL, 6, 5⟩
def PBL_JOB_CTRL.ELEM : Fld := ⟨.PBL_JOB_CTRL, 4, 4⟩
def PBL_JOB_CTRL.TABLE : Fld := ⟨.PBL_JOB_CTRL, 3, 3⟩
def PBL_JOB_CTRL.MODE : Fld := ⟨.PBL_JOB_CTRL, 2, 1⟩
def PBL_JOB_CTRL.DIR : Fld := ⟨.PBL_JOB_CTRL, 0, 0⟩
def PBL_SRC_LO.ADDR : Fld := ⟨.PBL_SRC_LO, 31, 0⟩
def PBL_SRC_HI.ADDR : Fld := ⟨.PBL_SRC_HI, 31, 0⟩
def PBL_DST_LO.ADDR : Fld := ⟨.PBL_DST_LO, 31, 0⟩
def PBL_DST_HI.ADDR : Fld := ⟨.PBL_DST_HI, 31, 0⟩
def PBL_SRC_LEN.BYTES : Fld := ⟨.PBL_SRC_LEN, 31, 0⟩
def PBL_DST_LEN.BYTES : Fld := ⟨.PBL_DST_LEN, 31, 0⟩
def PBL_JOB_RESULT.REASON : Fld := ⟨.PBL_JOB_RESULT, 7, 0⟩
def PBL_IN_DONE.BYTES : Fld := ⟨.PBL_IN_DONE, 31, 0⟩
def PBL_OUT_DONE.BYTES : Fld := ⟨.PBL_OUT_DONE, 31, 0⟩
def PBL_BLOCKS.COUNT : Fld := ⟨.PBL_BLOCKS, 31, 0⟩
def PBL_LOSS.COUNT : Fld := ⟨.PBL_LOSS, 31, 0⟩
def PBL_FAILS.VERIFY : Fld := ⟨.PBL_FAILS, 31, 16⟩
def PBL_FAILS.CHECK : Fld := ⟨.PBL_FAILS, 15, 0⟩
def PBL_STATE.STATE : Fld := ⟨.PBL_STATE, 31, 0⟩
def PBL_RESUME.STATE : Fld := ⟨.PBL_RESUME, 31, 0⟩
def SPT_SEL.COUNT : Fld := ⟨.SPT_SEL, 31, 16⟩
def SPT_SEL.INST : Fld := ⟨.SPT_SEL, 15, 0⟩
def SPT_CTRL.LANE_EN : Fld := ⟨.SPT_CTRL, 11, 8⟩
def SPT_CTRL.RETRAIN : Fld := ⟨.SPT_CTRL, 2, 2⟩
def SPT_CTRL.MODE : Fld := ⟨.SPT_CTRL, 1, 1⟩
def SPT_CTRL.EN : Fld := ⟨.SPT_CTRL, 0, 0⟩
def SPT_STATUS.LANES_UP : Fld := ⟨.SPT_STATUS, 11, 8⟩
def SPT_STATUS.ON_ALT : Fld := ⟨.SPT_STATUS, 3, 3⟩
def SPT_STATUS.MODE_ACTIVE : Fld := ⟨.SPT_STATUS, 2, 2⟩
def SPT_STATUS.STATE : Fld := ⟨.SPT_STATUS, 1, 0⟩
def SPT_EVENT.REMOTE_ERR : Fld := ⟨.SPT_EVENT, 6, 6⟩
def SPT_EVENT.STALL : Fld := ⟨.SPT_EVENT, 5, 5⟩
def SPT_EVENT.LANE_BACK : Fld := ⟨.SPT_EVENT, 4, 4⟩
def SPT_EVENT.LANE_DROP : Fld := ⟨.SPT_EVENT, 3, 3⟩
def SPT_EVENT.HELD : Fld := ⟨.SPT_EVENT, 2, 2⟩
def SPT_EVENT.LINK_DOWN : Fld := ⟨.SPT_EVENT, 1, 1⟩
def SPT_EVENT.LINK_UP : Fld := ⟨.SPT_EVENT, 0, 0⟩
def SPT_MAC_LO.MAC : Fld := ⟨.SPT_MAC_LO, 31, 0⟩
def SPT_MAC_HI.MAC : Fld := ⟨.SPT_MAC_HI, 15, 0⟩
def SPT_TX_FRAMES_LO.FRAMES : Fld := ⟨.SPT_TX_FRAMES_LO, 31, 0⟩
def SPT_TX_FRAMES_HI.FRAMES : Fld := ⟨.SPT_TX_FRAMES_HI, 31, 0⟩
def SPT_RETRY.COUNT : Fld := ⟨.SPT_RETRY, 31, 0⟩
def SPT_FEC_CORR.COUNT : Fld := ⟨.SPT_FEC_CORR, 31, 0⟩
def SPT_FEC_UNCORR.COUNT : Fld := ⟨.SPT_FEC_UNCORR, 31, 0⟩
def SPT_CNP.COUNT : Fld := ⟨.SPT_CNP, 31, 0⟩
def SPT_DISCARD.COUNT : Fld := ⟨.SPT_DISCARD, 31, 0⟩
def SPT_STALL_LIMIT.US : Fld := ⟨.SPT_STALL_LIMIT, 19, 0⟩
def SPT_REPLAY_HOLD.MS : Fld := ⟨.SPT_REPLAY_HOLD, 15, 0⟩
def WEIR_STATUS.CR_FULL : Fld := ⟨.WEIR_STATUS, 17, 17⟩
def WEIR_STATUS.POOL_FULL : Fld := ⟨.WEIR_STATUS, 16, 16⟩
def WEIR_STATUS.PARKED : Fld := ⟨.WEIR_STATUS, 8, 0⟩
def WEIR_EVENT.TBL_DONE : Fld := ⟨.WEIR_EVENT, 7, 7⟩
def WEIR_EVENT.TBL_REFUSED : Fld := ⟨.WEIR_EVENT, 6, 6⟩
def WEIR_EVENT.UNMAPPED : Fld := ⟨.WEIR_EVENT, 5, 5⟩
def WEIR_EVENT.RESEND_MISS : Fld := ⟨.WEIR_EVENT, 4, 4⟩
def WEIR_EVENT.CR_OVF : Fld := ⟨.WEIR_EVENT, 3, 3⟩
def WEIR_EVENT.POOL_EVICT : Fld := ⟨.WEIR_EVENT, 2, 2⟩
def WEIR_EVENT.MISSED : Fld := ⟨.WEIR_EVENT, 1, 1⟩
def WEIR_EVENT.STALL : Fld := ⟨.WEIR_EVENT, 0, 0⟩
def WEIR_CTRL.CR_ALL : Fld := ⟨.WEIR_CTRL, 1, 1⟩
def WEIR_CTRL.CR_EN : Fld := ⟨.WEIR_CTRL, 0, 0⟩
def WEIR_POOL.DEPTH : Fld := ⟨.WEIR_POOL, 26, 16⟩
def WEIR_POOL.MIB : Fld := ⟨.WEIR_POOL, 12, 0⟩
def WEIR_POOL_USED.MIB : Fld := ⟨.WEIR_POOL_USED, 12, 0⟩
def WEIR_TBL_CTRL.GO : Fld := ⟨.WEIR_TBL_CTRL, 31, 31⟩
def WEIR_TBL_CTRL.WRITE : Fld := ⟨.WEIR_TBL_CTRL, 30, 30⟩
def WEIR_TBL_CTRL.TABLE : Fld := ⟨.WEIR_TBL_CTRL, 24, 24⟩
def WEIR_TBL_CTRL.INDEX : Fld := ⟨.WEIR_TBL_CTRL, 7, 0⟩
def WEIR_TBL_DATA.DATA : Fld := ⟨.WEIR_TBL_DATA, 31, 0⟩
def WEIR_RILL_MAP.EN : Fld := ⟨.WEIR_RILL_MAP, 8, 8⟩
def WEIR_RILL_MAP.FLOW : Fld := ⟨.WEIR_RILL_MAP, 7, 0⟩
def WEIR_RESEND.GO : Fld := ⟨.WEIR_RESEND, 31, 31⟩
def WEIR_RESEND.SPOUT : Fld := ⟨.WEIR_RESEND, 20, 16⟩
def WEIR_RESEND.FLOW : Fld := ⟨.WEIR_RESEND, 7, 0⟩
def WEIR_RESEND_FSN.FSN : Fld := ⟨.WEIR_RESEND_FSN, 31, 0⟩
def WEIR_CR_BASE_LO.ADDR : Fld := ⟨.WEIR_CR_BASE_LO, 31, 0⟩
def WEIR_CR_BASE_HI.ADDR : Fld := ⟨.WEIR_CR_BASE_HI, 31, 0⟩
def WEIR_CR_SIZE.LOG2 : Fld := ⟨.WEIR_CR_SIZE, 4, 0⟩
def WEIR_CR_HEAD.HEAD : Fld := ⟨.WEIR_CR_HEAD, 15, 0⟩
def WEIR_CR_TAIL.TAIL : Fld := ⟨.WEIR_CR_TAIL, 15, 0⟩
def WEIR_DEFICIT_LO.DEFICIT : Fld := ⟨.WEIR_DEFICIT_LO, 31, 0⟩
def WEIR_DEFICIT_HI.DEFICIT : Fld := ⟨.WEIR_DEFICIT_HI, 31, 0⟩
def WEIR_MISSED.COUNT : Fld := ⟨.WEIR_MISSED, 31, 0⟩
def WEIR_RESENT.COUNT : Fld := ⟨.WEIR_RESENT, 31, 0⟩
def WEIR_TIMERS.ACK_TIMEOUT_US : Fld := ⟨.WEIR_TIMERS, 31, 16⟩
def WEIR_TIMERS.CNP_HOLD_US : Fld := ⟨.WEIR_TIMERS, 15, 0⟩
def WEIR_VTIME_SEL.SPOUT : Fld := ⟨.WEIR_VTIME_SEL, 4, 0⟩
def WEIR_VTIME_LO.V : Fld := ⟨.WEIR_VTIME_LO, 31, 0⟩
def WEIR_VTIME_HI.V : Fld := ⟨.WEIR_VTIME_HI, 31, 0⟩
def WEIR_CR_LOST.COUNT : Fld := ⟨.WEIR_CR_LOST, 31, 0⟩
def SDL_STATUS.SOURCE_PORT : Fld := ⟨.SDL_STATUS, 20, 16⟩
def SDL_STATUS.HOPS : Fld := ⟨.SDL_STATUS, 15, 12⟩
def SDL_STATUS.SOURCE_KIND : Fld := ⟨.SDL_STATUS, 11, 8⟩
def SDL_STATUS.ESTIMATE : Fld := ⟨.SDL_STATUS, 6, 6⟩
def SDL_STATUS.REF10_PRESENT : Fld := ⟨.SDL_STATUS, 5, 5⟩
def SDL_STATUS.PPS_PRESENT : Fld := ⟨.SDL_STATUS, 4, 4⟩
def SDL_STATUS.STATE : Fld := ⟨.SDL_STATUS, 2, 0⟩
def SDL_EVENT.SET_REFUSED : Fld := ⟨.SDL_EVENT, 5, 5⟩
def SDL_EVENT.REF_LOST : Fld := ⟨.SDL_EVENT, 4, 4⟩
def SDL_EVENT.SOURCE_CHANGE : Fld := ⟨.SDL_EVENT, 3, 3⟩
def SDL_EVENT.STEP : Fld := ⟨.SDL_EVENT, 2, 2⟩
def SDL_EVENT.HOLDOVER : Fld := ⟨.SDL_EVENT, 1, 1⟩
def SDL_EVENT.LOCK : Fld := ⟨.SDL_EVENT, 0, 0⟩
def SDL_CTRL.SOURCE_PORT : Fld := ⟨.SDL_CTRL, 21, 17⟩
def SDL_CTRL.SET : Fld := ⟨.SDL_CTRL, 15, 15⟩
def SDL_CTRL.REF10_OUT_EN : Fld := ⟨.SDL_CTRL, 11, 11⟩
def SDL_CTRL.PPS_OUT_EN : Fld := ⟨.SDL_CTRL, 10, 10⟩
def SDL_CTRL.REF10_IN_EN : Fld := ⟨.SDL_CTRL, 9, 9⟩
def SDL_CTRL.PPS_IN_EN : Fld := ⟨.SDL_CTRL, 8, 8⟩
def SDL_CTRL.PROFILE : Fld := ⟨.SDL_CTRL, 4, 4⟩
def SDL_CTRL.ROLE : Fld := ⟨.SDL_CTRL, 1, 0⟩
def SDL_CLOCK.CLASS : Fld := ⟨.SDL_CLOCK, 31, 24⟩
def SDL_CLOCK.PRIORITY2 : Fld := ⟨.SDL_CLOCK, 23, 16⟩
def SDL_CLOCK.PRIORITY1 : Fld := ⟨.SDL_CLOCK, 15, 8⟩
def SDL_CLOCK.DOMAIN : Fld := ⟨.SDL_CLOCK, 6, 0⟩
def SDL_TIME.TIME : Fld := ⟨.SDL_TIME, 31, 0⟩
def SDL_SET.TIME : Fld := ⟨.SDL_SET, 31, 0⟩
def SDL_OFFSET.OFFSET : Fld := ⟨.SDL_OFFSET, 31, 0⟩
def SDL_FREQ.FREQ : Fld := ⟨.SDL_FREQ, 31, 0⟩
def SDL_SERVO.STEP_US : Fld := ⟨.SDL_SERVO, 23, 16⟩
def SDL_SERVO.LOCK_NS : Fld := ⟨.SDL_SERVO, 15, 0⟩
def SDL_PPS.WIDTH_US : Fld := ⟨.SDL_PPS, 18, 0⟩
def SDL_UTC.UTC_OFFSET : Fld := ⟨.SDL_UTC, 15, 0⟩
def SDL_PORT.ASYM : Fld := ⟨.SDL_PORT, 31, 16⟩
def SDL_PORT.LOG_SYNC : Fld := ⟨.SDL_PORT, 11, 8⟩
def SDL_PORT.ROLE : Fld := ⟨.SDL_PORT, 1, 0⟩
def INL_SEL.COUNT : Fld := ⟨.INL_SEL, 31, 16⟩
def INL_SEL.INST : Fld := ⟨.INL_SEL, 15, 0⟩
def INL_CTRL.FILL : Fld := ⟨.INL_CTRL, 15, 8⟩
def INL_CTRL.TRUNC_LONG : Fld := ⟨.INL_CTRL, 2, 2⟩
def INL_CTRL.PAD_SHORT : Fld := ⟨.INL_CTRL, 1, 1⟩
def INL_CTRL.EN : Fld := ⟨.INL_CTRL, 0, 0⟩
def INL_STATUS.PLAN : Fld := ⟨.INL_STATUS, 3, 3⟩
def INL_STATUS.AS_CAPABLE : Fld := ⟨.INL_STATUS, 2, 2⟩
def INL_STATUS.TIME_LOCK : Fld := ⟨.INL_STATUS, 1, 1⟩
def INL_STATUS.LINK_UP : Fld := ⟨.INL_STATUS, 0, 0⟩
def INL_EVENT.TRUNCATED : Fld := ⟨.INL_EVENT, 4, 4⟩
def INL_EVENT.PADDED : Fld := ⟨.INL_EVENT, 3, 3⟩
def INL_EVENT.DROP : Fld := ⟨.INL_EVENT, 2, 2⟩
def INL_EVENT.LOCK_LOST : Fld := ⟨.INL_EVENT, 1, 1⟩
def INL_EVENT.LINK_DOWN : Fld := ⟨.INL_EVENT, 0, 0⟩
def INL_AGE.MAX_AGE_US : Fld := ⟨.INL_AGE, 31, 12⟩
def INL_AGE.FUTURE_NS : Fld := ⟨.INL_AGE, 11, 0⟩
def INL_ACCEPTED.COUNT : Fld := ⟨.INL_ACCEPTED, 31, 0⟩
def INL_RUNT.COUNT : Fld := ⟨.INL_RUNT, 31, 0⟩
def INL_LONG.COUNT : Fld := ⟨.INL_LONG, 31, 0⟩
def INL_STALE.COUNT : Fld := ⟨.INL_STALE, 31, 0⟩
def INL_GAP.COUNT : Fld := ⟨.INL_GAP, 31, 0⟩
def INL_DROP_OTHER.COUNT : Fld := ⟨.INL_DROP_OTHER, 31, 0⟩
def INL_LAST_DROP.STREAM : Fld := ⟨.INL_LAST_DROP, 11, 8⟩
def INL_LAST_DROP.REASON : Fld := ⟨.INL_LAST_DROP, 7, 0⟩
def INL_SID_LO.ID : Fld := ⟨.INL_SID_LO, 31, 0⟩
def INL_SID_HI.ID : Fld := ⟨.INL_SID_HI, 31, 0⟩
def INL_SCFG.VALID : Fld := ⟨.INL_SCFG, 31, 31⟩
def INL_SCFG.KIND : Fld := ⟨.INL_SCFG, 29, 28⟩
def INL_SCFG.MIN_BYTES : Fld := ⟨.INL_SCFG, 24, 0⟩
def INL_SMAX.MAX_BYTES : Fld := ⟨.INL_SMAX, 24, 0⟩
def SVC_STATUS.DEBUG_UNLOCKED : Fld := ⟨.SVC_STATUS, 15, 15⟩
def SVC_STATUS.SETTINGS_SAFE : Fld := ⟨.SVC_STATUS, 14, 14⟩
def SVC_STATUS.TRIAL : Fld := ⟨.SVC_STATUS, 13, 13⟩
def SVC_STATUS.KEEPER_RESTARTING : Fld := ⟨.SVC_STATUS, 12, 12⟩
def SVC_STATUS.STANDBY : Fld := ⟨.SVC_STATUS, 7, 4⟩
def SVC_EVENT.CISTERN_UE : Fld := ⟨.SVC_EVENT, 13, 13⟩
def SVC_EVENT.ENG_TEST_DONE : Fld := ⟨.SVC_EVENT, 12, 12⟩
def SVC_EVENT.BARRIER_ORDER : Fld := ⟨.SVC_EVENT, 11, 11⟩
def SVC_EVENT.SELF_LATE : Fld := ⟨.SVC_EVENT, 10, 10⟩
def SVC_EVENT.SUSPECT : Fld := ⟨.SVC_EVENT, 9, 9⟩
def SVC_EVENT.COMMITTED : Fld := ⟨.SVC_EVENT, 8, 8⟩
def SVC_EVENT.REVERTED : Fld := ⟨.SVC_EVENT, 7, 7⟩
def SVC_EVENT.TRIAL_EXPIRED : Fld := ⟨.SVC_EVENT, 6, 6⟩
def SVC_EVENT.STAGE_IMAGE : Fld := ⟨.SVC_EVENT, 5, 5⟩
def SVC_EVENT.RILL_DEAD : Fld := ⟨.SVC_EVENT, 4, 4⟩
def SVC_EVENT.RILL_FAULT : Fld := ⟨.SVC_EVENT, 3, 3⟩
def SVC_EVENT.WARDEN_RESTART : Fld := ⟨.SVC_EVENT, 2, 2⟩
def SVC_EVENT.KEEPER_RESTART : Fld := ⟨.SVC_EVENT, 1, 1⟩
def SVC_EVENT.CORE_HANG : Fld := ⟨.SVC_EVENT, 0, 0⟩
def SVC_CTRL.REBUILD_MAX : Fld := ⟨.SVC_CTRL, 11, 8⟩
def SVC_CTRL.KEEPER_RESTART : Fld := ⟨.SVC_CTRL, 0, 0⟩
def SVC_WDT.BG_MS : Fld := ⟨.SVC_WDT, 31, 16⟩
def SVC_WDT.DATA_US : Fld := ⟨.SVC_WDT, 15, 0⟩
def SVC_CORE.ROLES : Fld := ⟨.SVC_CORE, 31, 0⟩
def SVC_HANGS.COUNT : Fld := ⟨.SVC_HANGS, 31, 0⟩
def SVC_FW_STATUS.ERR : Fld := ⟨.SVC_FW_STATUS, 31, 24⟩
def SVC_FW_STATUS.B_STATE : Fld := ⟨.SVC_FW_STATUS, 10, 8⟩
def SVC_FW_STATUS.A_STATE : Fld := ⟨.SVC_FW_STATUS, 6, 4⟩
def SVC_FW_STATUS.RUNNING : Fld := ⟨.SVC_FW_STATUS, 0, 0⟩
def SVC_TRIAL.REMAIN_S : Fld := ⟨.SVC_TRIAL, 31, 16⟩
def SVC_TRIAL.LIMIT_S : Fld := ⟨.SVC_TRIAL, 15, 0⟩
def SVC_RILL_FAULT.VALID : Fld := ⟨.SVC_RILL_FAULT, 31, 31⟩
def SVC_RILL_FAULT.STAGE : Fld := ⟨.SVC_RILL_FAULT, 20, 16⟩
def SVC_RILL_FAULT.RILL : Fld := ⟨.SVC_RILL_FAULT, 11, 8⟩
def SVC_RILL_FAULT.CAUSE : Fld := ⟨.SVC_RILL_FAULT, 7, 0⟩
def SVC_RILL_STEP_LO.STEP : Fld := ⟨.SVC_RILL_STEP_LO, 31, 0⟩
def SVC_RILL_STEP_HI.STEP : Fld := ⟨.SVC_RILL_STEP_HI, 31, 0⟩
def SVC_REBUILDS.COUNT : Fld := ⟨.SVC_REBUILDS, 31, 0⟩
def SVC_BARRIER_LO.STEP_LO : Fld := ⟨.SVC_BARRIER_LO, 31, 0⟩
def SVC_BARRIER_HI.GO : Fld := ⟨.SVC_BARRIER_HI, 31, 31⟩
def SVC_BARRIER_HI.LAST : Fld := ⟨.SVC_BARRIER_HI, 27, 16⟩
def SVC_BARRIER_HI.STEP_HI : Fld := ⟨.SVC_BARRIER_HI, 15, 0⟩
def SVC_SUSPECT_CFG.RATIO : Fld := ⟨.SVC_SUSPECT_CFG, 7, 0⟩
def SVC_SUSPECT_SUM.COUNT : Fld := ⟨.SVC_SUSPECT_SUM, 28, 16⟩
def SVC_SUSPECT_SUM.NONE : Fld := ⟨.SVC_SUSPECT_SUM, 12, 12⟩
def SVC_SUSPECT_SUM.FIRST : Fld := ⟨.SVC_SUSPECT_SUM, 11, 0⟩
def SVC_PEER_SEL.PEER : Fld := ⟨.SVC_PEER_SEL, 11, 0⟩
def SVC_PEER_LATE.SUSPECT : Fld := ⟨.SVC_PEER_LATE, 31, 31⟩
def SVC_PEER_LATE.LATE : Fld := ⟨.SVC_PEER_LATE, 8, 0⟩
def SVC_ENG_CMD.GO : Fld := ⟨.SVC_ENG_CMD, 31, 31⟩
def SVC_ENG_CMD.BUSY : Fld := ⟨.SVC_ENG_CMD, 30, 30⟩
def SVC_ENG_CMD.PASS : Fld := ⟨.SVC_ENG_CMD, 29, 29⟩
def SVC_ENG_CMD.TYPE : Fld := ⟨.SVC_ENG_CMD, 18, 16⟩
def SVC_ENG_CMD.ENGINE : Fld := ⟨.SVC_ENG_CMD, 6, 0⟩
def DBG_STW_STATUS.TRIGGER : Fld := ⟨.DBG_STW_STATUS, 15, 8⟩
def DBG_STW_STATUS.STATE : Fld := ⟨.DBG_STW_STATUS, 2, 0⟩
def DBG_STW_CTRL.RESUME : Fld := ⟨.DBG_STW_CTRL, 7, 7⟩
def DBG_STW_CTRL.SCAN : Fld := ⟨.DBG_STW_CTRL, 6, 6⟩
def DBG_STW_CTRL.STOP : Fld := ⟨.DBG_STW_CTRL, 5, 5⟩
def DBG_STW_CTRL.BANKS : Fld := ⟨.DBG_STW_CTRL, 4, 4⟩
def DBG_STW_CTRL.AUTO_SCAN : Fld := ⟨.DBG_STW_CTRL, 3, 3⟩
def DBG_STW_CTRL.DEST : Fld := ⟨.DBG_STW_CTRL, 1, 1⟩
def DBG_STW_CTRL.ARM : Fld := ⟨.DBG_STW_CTRL, 0, 0⟩
def DBG_STW_EN.CODES : Fld := ⟨.DBG_STW_EN, 31, 0⟩
def DBG_STW_SEEN.CODES : Fld := ⟨.DBG_STW_SEEN, 31, 0⟩
def DBG_STW_AT_LO.VALUE : Fld := ⟨.DBG_STW_AT_LO, 31, 0⟩
def DBG_STW_AT_HI.VALUE : Fld := ⟨.DBG_STW_AT_HI, 31, 0⟩
def DBG_STW_AT_CYC.VALUE : Fld := ⟨.DBG_STW_AT_CYC, 31, 0⟩
def DBG_STW_ADDR_LO.ADDR : Fld := ⟨.DBG_STW_ADDR_LO, 31, 0⟩
def DBG_STW_ADDR_HI.ADDR : Fld := ⟨.DBG_STW_ADDR_HI, 31, 0⟩
def DBG_STW_LEN.BYTES : Fld := ⟨.DBG_STW_LEN, 31, 0⟩
def DBG_EVENT.WATCH : Fld := ⟨.DBG_EVENT, 12, 5⟩
def DBG_EVENT.SNAP_DONE : Fld := ⟨.DBG_EVENT, 4, 4⟩
def DBG_EVENT.TRACE_OVF : Fld := ⟨.DBG_EVENT, 3, 3⟩
def DBG_EVENT.BRK_LOCKED : Fld := ⟨.DBG_EVENT, 2, 2⟩
def DBG_EVENT.RESUMED : Fld := ⟨.DBG_EVENT, 1, 1⟩
def DBG_EVENT.SCANNED : Fld := ⟨.DBG_EVENT, 0, 0⟩
def DBG_BRK_CTRL.GO : Fld := ⟨.DBG_BRK_CTRL, 31, 31⟩
def DBG_BRK_CTRL.OP : Fld := ⟨.DBG_BRK_CTRL, 5, 4⟩
def DBG_BRK_CTRL.CORE : Fld := ⟨.DBG_BRK_CTRL, 3, 0⟩
def DBG_BRK_STATUS.BOUND : Fld := ⟨.DBG_BRK_STATUS, 31, 16⟩
def DBG_BRK_STATUS.HALTED : Fld := ⟨.DBG_BRK_STATUS, 15, 0⟩
def DBG_SNAP.GO : Fld := ⟨.DBG_SNAP, 31, 31⟩
def DBG_SNAP.BUSY : Fld := ⟨.DBG_SNAP, 30, 30⟩
def DBG_TRACE_BASE_LO.ADDR : Fld := ⟨.DBG_TRACE_BASE_LO, 31, 0⟩
def DBG_TRACE_BASE_HI.ADDR : Fld := ⟨.DBG_TRACE_BASE_HI, 31, 0⟩
def DBG_TRACE_CTRL.EVENTS : Fld := ⟨.DBG_TRACE_CTRL, 31, 21⟩
def DBG_TRACE_CTRL.LOG2 : Fld := ⟨.DBG_TRACE_CTRL, 13, 9⟩
def DBG_TRACE_CTRL.DEST : Fld := ⟨.DBG_TRACE_CTRL, 1, 1⟩
def DBG_TRACE_CTRL.EN : Fld := ⟨.DBG_TRACE_CTRL, 0, 0⟩
def DBG_TRACE_PTR.TAIL : Fld := ⟨.DBG_TRACE_PTR, 31, 16⟩
def DBG_TRACE_PTR.HEAD : Fld := ⟨.DBG_TRACE_PTR, 15, 0⟩
def DBG_TRACE_LOST.COUNT : Fld := ⟨.DBG_TRACE_LOST, 31, 0⟩
def DBG_ALIGN.UNIT : Fld := ⟨.DBG_ALIGN, 31, 24⟩
def DBG_ALIGN.OFFSET : Fld := ⟨.DBG_ALIGN, 23, 0⟩
def DBG_W_CFG.EN : Fld := ⟨.DBG_W_CFG, 31, 31⟩
def DBG_W_CFG.STOP_NF : Fld := ⟨.DBG_W_CFG, 30, 30⟩
def DBG_W_CFG.STOP_MATCH : Fld := ⟨.DBG_W_CFG, 29, 29⟩
def DBG_W_CFG.DTYPE : Fld := ⟨.DBG_W_CFG, 23, 16⟩
def DBG_W_CFG.STAGE : Fld := ⟨.DBG_W_CFG, 12, 8⟩
def DBG_W_CFG.RILL : Fld := ⟨.DBG_W_CFG, 7, 4⟩
def DBG_W_LO.VALUE : Fld := ⟨.DBG_W_LO, 31, 0⟩
def DBG_W_SCALE.VALUE : Fld := ⟨.DBG_W_SCALE, 31, 0⟩
def DBG_W_MATCH_LO.MATCH : Fld := ⟨.DBG_W_MATCH_LO, 31, 0⟩
def DBG_W_MATCH_HI.MATCH : Fld := ⟨.DBG_W_MATCH_HI, 31, 0⟩
def DBG_W_DIGEST_LO.DIGEST : Fld := ⟨.DBG_W_DIGEST_LO, 31, 0⟩
def DBG_W_DIGEST_HI.DIGEST : Fld := ⟨.DBG_W_DIGEST_HI, 31, 0⟩
def DBG_W_MIN.VALUE : Fld := ⟨.DBG_W_MIN, 31, 0⟩
def DBG_W_MAX.VALUE : Fld := ⟨.DBG_W_MAX, 31, 0⟩
def DBG_W_MEAN.VALUE : Fld := ⟨.DBG_W_MEAN, 31, 0⟩
def DBG_W_FINITE.COUNT : Fld := ⟨.DBG_W_FINITE, 31, 0⟩
def DBG_W_NONFINITE.COUNT : Fld := ⟨.DBG_W_NONFINITE, 31, 0⟩
def DBG_W_STEP_LO.STEP : Fld := ⟨.DBG_W_STEP_LO, 31, 0⟩
def DBG_W_STEP_HI.STEP : Fld := ⟨.DBG_W_STEP_HI, 31, 0⟩
def DBG_W_HIST.COUNT : Fld := ⟨.DBG_W_HIST, 31, 0⟩
def TST_MODE.EN : Fld := ⟨.TST_MODE, 0, 0⟩
def TST_LOOP_CTRL.GO : Fld := ⟨.TST_LOOP_CTRL, 31, 31⟩
def TST_LOOP_CTRL.STOP : Fld := ⟨.TST_LOOP_CTRL, 30, 30⟩
def TST_LOOP_CTRL.IFACE : Fld := ⟨.TST_LOOP_CTRL, 27, 24⟩
def TST_LOOP_CTRL.DEPTH : Fld := ⟨.TST_LOOP_CTRL, 23, 20⟩
def TST_LOOP_CTRL.DURATION_MS : Fld := ⟨.TST_LOOP_CTRL, 19, 8⟩
def TST_LOOP_CTRL.INSTANCE : Fld := ⟨.TST_LOOP_CTRL, 7, 0⟩
def TST_LOOP_STATUS.REFUSED : Fld := ⟨.TST_LOOP_STATUS, 3, 3⟩
def TST_LOOP_STATUS.PASS : Fld := ⟨.TST_LOOP_STATUS, 2, 2⟩
def TST_LOOP_STATUS.LOCK : Fld := ⟨.TST_LOOP_STATUS, 1, 1⟩
def TST_LOOP_STATUS.RUNNING : Fld := ⟨.TST_LOOP_STATUS, 0, 0⟩
def TST_LOOP_ERRORS.COUNT : Fld := ⟨.TST_LOOP_ERRORS, 31, 0⟩
def TST_LOOP_UNITS_LO.COUNT : Fld := ⟨.TST_LOOP_UNITS_LO, 31, 0⟩
def TST_LOOP_UNITS_HI.COUNT : Fld := ⟨.TST_LOOP_UNITS_HI, 31, 0⟩
def PWR_STATUS.START_TRIES : Fld := ⟨.PWR_STATUS, 9, 8⟩
def PWR_STATUS.THERMAL_LIMITED : Fld := ⟨.PWR_STATUS, 6, 6⟩
def PWR_STATUS.POWER_LIMITED : Fld := ⟨.PWR_STATUS, 5, 5⟩
def PWR_STATUS.VR_FAULT : Fld := ⟨.PWR_STATUS, 4, 4⟩
def PWR_STATUS.START_FAIL : Fld := ⟨.PWR_STATUS, 3, 3⟩
def PWR_STATUS.CASCADE_UP : Fld := ⟨.PWR_STATUS, 2, 2⟩
def PWR_STATUS.PLL_LOCK : Fld := ⟨.PWR_STATUS, 1, 1⟩
def PWR_STATUS.WARDEN_UP : Fld := ⟨.PWR_STATUS, 0, 0⟩
def PWR_EVENT.WAKE : Fld := ⟨.PWR_EVENT, 6, 6⟩
def PWR_EVENT.VMAX : Fld := ⟨.PWR_EVENT, 5, 5⟩
def PWR_EVENT.VR_FAULT : Fld := ⟨.PWR_EVENT, 4, 4⟩
def PWR_EVENT.START_FAIL : Fld := ⟨.PWR_EVENT, 3, 3⟩
def PWR_EVENT.OP_UP : Fld := ⟨.PWR_EVENT, 2, 2⟩
def PWR_EVENT.OP_DOWN : Fld := ⟨.PWR_EVENT, 1, 1⟩
def PWR_EVENT.THERMTRIP : Fld := ⟨.PWR_EVENT, 0, 0⟩
def PWR_OP.CURRENT : Fld := ⟨.PWR_OP, 10, 8⟩
def PWR_OP.MAX : Fld := ⟨.PWR_OP, 6, 4⟩
def PWR_OP.MIN : Fld := ⟨.PWR_OP, 2, 0⟩
def PWR_LIMIT.TJ_TARGET : Fld := ⟨.PWR_LIMIT, 23, 16⟩
def PWR_LIMIT.POWER_W : Fld := ⟨.PWR_LIMIT, 9, 0⟩
def PWR_MEAS.POWER_W : Fld := ⟨.PWR_MEAS, 25, 16⟩
def PWR_MEAS.TJ : Fld := ⟨.PWR_MEAS, 7, 0⟩
def PWR_VOLT.ODD_MV : Fld := ⟨.PWR_VOLT, 25, 16⟩
def PWR_VOLT.EVEN_MV : Fld := ⟨.PWR_VOLT, 9, 0⟩
def PWR_WAKE_EN.SPOUT_SD : Fld := ⟨.PWR_WAKE_EN, 2, 2⟩
def PWR_WAKE_EN.TIMER : Fld := ⟨.PWR_WAKE_EN, 1, 1⟩
def PWR_WAKE_EN.I3C : Fld := ⟨.PWR_WAKE_EN, 0, 0⟩
def PWR_WAKE_CAUSE.SPOUT_SD : Fld := ⟨.PWR_WAKE_CAUSE, 5, 5⟩
def PWR_WAKE_CAUSE.TIMER : Fld := ⟨.PWR_WAKE_CAUSE, 4, 4⟩
def PWR_WAKE_CAUSE.I3C : Fld := ⟨.PWR_WAKE_CAUSE, 3, 3⟩
def PWR_WAKE_CAUSE.POWER_TASK : Fld := ⟨.PWR_WAKE_CAUSE, 2, 2⟩
def PWR_WAKE_CAUSE.BAR : Fld := ⟨.PWR_WAKE_CAUSE, 1, 1⟩
def PWR_WAKE_CAUSE.TASK_GO : Fld := ⟨.PWR_WAKE_CAUSE, 0, 0⟩
def PWR_WAKE_TIMER.S : Fld := ⟨.PWR_WAKE_TIMER, 15, 0⟩
def PWR_RST_CTRL.KEY : Fld := ⟨.PWR_RST_CTRL, 31, 16⟩
def PWR_RST_CTRL.DEVICE : Fld := ⟨.PWR_RST_CTRL, 0, 0⟩
def PWR_RST_CAUSE.DEV_RESETS : Fld := ⟨.PWR_RST_CAUSE, 15, 8⟩
def PWR_RST_CAUSE.THERMTRIP : Fld := ⟨.PWR_RST_CAUSE, 3, 3⟩
def PWR_RST_CAUSE.REGISTER : Fld := ⟨.PWR_RST_CAUSE, 2, 2⟩
def PWR_RST_CAUSE.TRST_BOARD : Fld := ⟨.PWR_RST_CAUSE, 1, 1⟩
def PWR_RST_CAUSE.POR : Fld := ⟨.PWR_RST_CAUSE, 0, 0⟩
def GLB_ID_LO.PART : Fld := ⟨.GLB_ID_LO, 31, 16⟩
def GLB_ID_LO.STEP : Fld := ⟨.GLB_ID_LO, 15, 8⟩
def GLB_ID_HI.DCLASS : Fld := ⟨.GLB_ID_HI, 15, 0⟩
def GLB_UID_LO.UID : Fld := ⟨.GLB_UID_LO, 31, 0⟩
def GLB_UID_HI.UID : Fld := ⟨.GLB_UID_HI, 31, 0⟩
def GLB_STATUS.TEST_MODE : Fld := ⟨.GLB_STATUS, 7, 7⟩
def GLB_STATUS.DEBUG_UNLOCKED : Fld := ⟨.GLB_STATUS, 6, 6⟩
def GLB_STATUS.SETTINGS_SAFE : Fld := ⟨.GLB_STATUS, 5, 5⟩
def GLB_STATUS.AQF_READY : Fld := ⟨.GLB_STATUS, 4, 4⟩
def GLB_STATUS.WEAVE_ACTIVE : Fld := ⟨.GLB_STATUS, 3, 3⟩
def GLB_STATUS.CASCADE_UP : Fld := ⟨.GLB_STATUS, 2, 2⟩
def GLB_STATUS.KEEPER_UP : Fld := ⟨.GLB_STATUS, 1, 1⟩
def GLB_STATUS.WARDEN_UP : Fld := ⟨.GLB_STATUS, 0, 0⟩
def GLB_CAUSE.BLOCKS : Fld := ⟨.GLB_CAUSE, 17, 0⟩
def GLB_INT_EN.BLOCKS : Fld := ⟨.GLB_INT_EN, 17, 0⟩
def GLB_SPT_CAUSE.SPOUTS : Fld := ⟨.GLB_SPT_CAUSE, 23, 0⟩
def GLB_SPT_INT_EN.SPOUTS : Fld := ⟨.GLB_SPT_INT_EN, 23, 0⟩
def GLB_VIOL_ADDR.OFFSET : Fld := ⟨.GLB_VIOL_ADDR, 31, 0⟩
def GLB_VIOL_INFO.VALID : Fld := ⟨.GLB_VIOL_INFO, 31, 31⟩
def GLB_VIOL_INFO.BAR : Fld := ⟨.GLB_VIOL_INFO, 30, 29⟩
def GLB_VIOL_INFO.WRITE : Fld := ⟨.GLB_VIOL_INFO, 28, 28⟩
def GLB_VIOL_INFO.REASON : Fld := ⟨.GLB_VIOL_INFO, 27, 24⟩
def GLB_VIOL_INFO.REQUESTER : Fld := ⟨.GLB_VIOL_INFO, 22, 21⟩
def GLB_VIOL_INFO.BYTES : Fld := ⟨.GLB_VIOL_INFO, 12, 0⟩
def GLB_VIOL_COUNT.COUNT : Fld := ⟨.GLB_VIOL_COUNT, 31, 0⟩

end Sys2Proof.Machine
end

