-- ==== Sys2Proof/Machine/RegFile.lean ====
section
/-! DEFINITION. The register file as data: which word each register holds after reset, how its entries are numbered,
and what a software write makes of a word under the access codes of R12. -/
namespace Sys2Proof.Machine

/-- A register entry: the register and the number of its instance or of its place in a family. -/
abbrev RegKey := Reg × Nat

/-- The number of an entry: registers in the order of `Reg`, entries of one register in ascending order. -/
def regOrd (k : RegKey) : Nat := k.1.ctorIdx * 2 ^ 17 + k.2

/-- How many entries a register's numbers may name: 1,024 for each place in its family where it is per instance. -/
def Reg.entries (r : Reg) : Nat := r.place.rep * r.place.rep2 * (if r.place.perInst then 1024 else 1)

/-- The reset word that the fields of a layout give. (DESIGN CHOICE, assumption 1.) -/
def layoutReset (fs : List FieldSpec) : Word :=
  fs.foldl (fun w f => w ||| (BitVec.ofNat 32 f.reset <<< f.lo)) 0#32

/-- The reset word of an entry. Two registers reset to a value of their own in each entry: JET_STATUS (LOGICAL is
the Jet's own number, or SPARE) and SDL_PORT (ROLE follows the link the port stands on). -/
def Reg.resetWord (r : Reg) (i : Nat) : Word :=
  match r with
  | .JET_STATUS =>
    if i < 64 then JET_STATUS.LOGICAL.set (layoutReset r.layout) i
    else JET_STATUS.SPARE.set (layoutReset r.layout) 1
  | .SDL_PORT => if i < 24 then layoutReset r.layout else SDL_PORT.ROLE.set (layoutReset r.layout) 1
  | _ => layoutReset r.layout

/-- What an unlisted entry reads as. -/
def regDflt (k : RegKey) : Word := k.1.resetWord k.2

/-- The bits of a register whose fields have a given access code. -/
def Reg.accMask (r : Reg) (a : Acc) : Word :=
  r.layout.foldl (fun w f => if f.acc = a then w ||| maskBits f.hi f.lo else w) 0#32

/-- The bits of `new` under `m`, the other bits of `old`. -/
def blend (m old new : Word) : Word := (old &&& ~~~ m) ||| (new &&& m)

/-- An RWO field after a software write (R12): a field that has left its reset value keeps it. -/
def rwoField (f : FieldSpec) (old new acc : Word) : Word :=
  let fd : Fld := ⟨.GLB_ID_LO, f.hi, f.lo⟩
  if fd.get old = f.reset then fd.set acc (fd.get new) else acc

/-- A register word after a software write of `w` (R11, R12): RW and CNT fields take the written bits, W1C fields
clear and W1S fields set where the written bit is 1, RWO fields take the first value other than their reset value,
and RO, SC, WO and reserved bits keep what they hold. -/
def Reg.swWrite (r : Reg) (old w : Word) : Word :=
  let a := blend (r.accMask .rw ||| r.accMask .cnt) old w
  let b := a &&& ~~~ (r.accMask .w1c &&& w)
  let c := b ||| (r.accMask .w1s &&& w)
  r.layout.foldl (fun acc f => if f.acc = .rwo then rwoField f old w acc else acc) c

/-- Whether a software write gives an RWO field that has left its reset value another value than its reset
value (R12, R471 reason 4). -/
def Reg.rwoAgain (r : Reg) (old w : Word) : Bool :=
  r.layout.any (fun f => f.acc = .rwo &&
    decide ((⟨r, f.hi, f.lo⟩ : Fld).get old ≠ f.reset) && decide ((⟨r, f.hi, f.lo⟩ : Fld).get w ≠ f.reset))

/-- What a software read of a stored word shows: SC and WO fields read as zero (R12). -/
def Reg.swRead (r : Reg) (w : Word) : Word := w &&& ~~~ (r.accMask .sc ||| r.accMask .wo)

/-- The high word that a read of this low word latches, and whether the pair counts (R14, R476). -/
def Reg.widePair : Reg → Option (Reg × Bool)
  | .SLU_DEFICIT_LO => some (.SLU_DEFICIT_HI, true)
  | .NFC_CORR_LO => some (.NFC_CORR_HI, true)
  | .DEC_CYCLES_LO => some (.DEC_CYCLES_HI, true)
  | .JET_MACS_LO => some (.JET_MACS_HI, true)
  | .JET_CYCLES_LO => some (.JET_CYCLES_HI, true)
  | .REED_TOKENS_LO => some (.REED_TOKENS_HI, true)
  | .REED_STALL_LO => some (.REED_STALL_HI, true)
  | .SPT_TX_FRAMES_LO => some (.SPT_TX_FRAMES_HI, true)
  | .WEIR_DEFICIT_LO => some (.WEIR_DEFICIT_HI, true)
  | .TST_LOOP_UNITS_LO => some (.TST_LOOP_UNITS_HI, true)
  | .GLB_UID_LO => some (.GLB_UID_HI, false)
  | .DEC_PK_DIGEST_LO => some (.DEC_PK_DIGEST_HI, false)
  | .DEC_PK_STEP_LO => some (.DEC_PK_STEP_HI, false)
  | .JET_FAULT_STEP_LO => some (.JET_FAULT_STEP_HI, false)
  | .REED_VOCAB_TAG_LO => some (.REED_VOCAB_TAG_HI, false)
  | .WEIR_VTIME_LO => some (.WEIR_VTIME_HI, false)
  | .SVC_RILL_STEP_LO => some (.SVC_RILL_STEP_HI, false)
  | .AQF_SEQ_LO => some (.AQF_SEQ_HI, false)
  | _ => none

/-- The 64-bit counter pairs whose high word a write stages (R476). -/
def Reg.stagesHigh : Reg → Bool
  | .SLU_DEFICIT_HI | .NFC_CORR_HI | .DEC_CYCLES_HI | .JET_MACS_HI | .JET_CYCLES_HI | .REED_TOKENS_HI
  | .REED_STALL_HI | .SPT_TX_FRAMES_HI | .WEIR_DEFICIT_HI | .TST_LOOP_UNITS_HI => true
  | _ => false

/-- The entries that a read of this entry latches for its requester: the high word of its pair, the other time
words for SDL_TIME0 (R376), and the other result words of its watch unit for DBG_W_DIGEST_LO (R439). -/
def latchedBy (k : RegKey) : List RegKey :=
  match k.1 with
  | .SDL_TIME => if k.2 = 0 then [(.SDL_TIME, 1), (.SDL_TIME, 2), (.SDL_TIME, 3)] else []
  | .DBG_W_DIGEST_LO =>
    [(.DBG_W_DIGEST_HI, k.2), (.DBG_W_MIN, k.2), (.DBG_W_MAX, k.2), (.DBG_W_MEAN, k.2), (.DBG_W_FINITE, k.2),
      (.DBG_W_NONFINITE, k.2), (.DBG_W_STEP_LO, k.2), (.DBG_W_STEP_HI, k.2)] ++
    (List.range 16).map (fun h => (.DBG_W_HIST, k.2 * 16 + h))
  | _ => match k.1.widePair with
    | some (hi, _) => [(hi, k.2)]
    | none => []

/-- The entries that answer from a latch when their requester holds one. -/
def latches (k : RegKey) : Bool :=
  match k.1 with
  | .SDL_TIME => decide (k.2 ≠ 0)
  | .DBG_W_DIGEST_HI | .DBG_W_MIN | .DBG_W_MAX | .DBG_W_MEAN | .DBG_W_FINITE | .DBG_W_NONFINITE
  | .DBG_W_STEP_LO | .DBG_W_STEP_HI | .DBG_W_HIST => true
  | .GLB_UID_HI | .DEC_PK_DIGEST_HI | .DEC_PK_STEP_HI | .JET_FAULT_STEP_HI | .REED_VOCAB_TAG_HI | .WEIR_VTIME_HI
  | .SVC_RILL_STEP_HI | .AQF_SEQ_HI => true
  | r => r.stagesHigh

end Sys2Proof.Machine
end

