-- ==== Sys2Proof/Machine/Float.lean ====
section
/-! DEFINITION. The number formats of the Jets (R248), their conversions (R249, R250), the FP32 operations (R251)
and the dot products (R252, R253). A number is held as its bits; between operations it is exact. -/
namespace Sys2Proof.Machine

/-- An exact number, an infinity or a NaN: `fin neg m e` is ±m · 2^e. -/
inductive Num where
  | nan
  | inf (neg : Bool)
  | fin (neg : Bool) (m : Nat) (e : Int)
  deriving DecidableEq, Repr

/-- A floating format (R248): exponent and mantissa bits; `ieee` is false for E4M3, which has no infinity. -/
structure Fmt where
  ebits : Nat
  mbits : Nat
  bias : Nat
  ieee : Bool
  deriving DecidableEq, Repr

def fmtE4M3 : Fmt := ⟨4, 3, 7, false⟩
def fmtE5M2 : Fmt := ⟨5, 2, 15, true⟩
def fmtBF16 : Fmt := ⟨8, 7, 127, true⟩
def fmtFP16 : Fmt := ⟨5, 10, 15, true⟩
def fmtFP32 : Fmt := ⟨8, 23, 127, true⟩

def Fmt.width (f : Fmt) : Nat := 1 + f.ebits + f.mbits

/-- The bits of the largest finite magnitude (R248). -/
def Fmt.maxFinite (f : Fmt) : Nat :=
  if f.ieee then (2 ^ f.ebits - 1) * 2 ^ f.mbits - 1 else 2 ^ (f.ebits + f.mbits) - 2

/-- The canonical quiet NaN (R249). -/
def Fmt.nan (f : Fmt) : Nat :=
  if f.ieee then (2 ^ f.ebits - 1) * 2 ^ f.mbits + 2 ^ (f.mbits - 1) else 2 ^ (f.ebits + f.mbits) - 1

def Fmt.signBit (f : Fmt) (neg : Bool) : Nat := if neg then 2 ^ (f.ebits + f.mbits) else 0

def Fmt.inf (f : Fmt) (neg : Bool) : Nat := f.signBit neg + (2 ^ f.ebits - 1) * 2 ^ f.mbits

/-- The number that bits of a format stand for (R248). -/
def Fmt.decode (f : Fmt) (bits : Nat) : Num :=
  let neg := bitOf bits (f.ebits + f.mbits)
  let ex := bits / 2 ^ f.mbits % 2 ^ f.ebits
  let mant := bits % 2 ^ f.mbits
  if f.ieee && ex == 2 ^ f.ebits - 1 then (if mant = 0 then .inf neg else .nan)
  else if !f.ieee && ex == 2 ^ f.ebits - 1 && mant == 2 ^ f.mbits - 1 then .nan
  else if ex = 0 then .fin neg mant (1 - f.bias - f.mbits : Int)
  else .fin neg (2 ^ f.mbits + mant) ((ex : Int) - f.bias - f.mbits)

/-- Halves a number `sh` times and rounds to nearest even; `sticky` says that a part below the number is not zero. -/
def shiftRne (m sh : Nat) (sticky : Bool) : Nat :=
  if sh = 0 then m
  else
    let q := m / 2 ^ sh
    let r := m % 2 ^ sh
    let half := 2 ^ (sh - 1)
    if half < r || (r == half && (sticky || q % 2 == 1)) then q + 1 else q

/-- The magnitude bits of m · 2^e rounded to nearest even, without regard to overflow. -/
def Fmt.roundMag (f : Fmt) (m : Nat) (e : Int) (sticky : Bool) : Nat :=
  if m = 0 then 0
  else
    let emin : Int := 1 - f.bias
    let top : Int := (Nat.log2 m : Int) + e
    let q : Int := (if top < emin then emin else top) - f.mbits
    let mant := if e ≤ q then shiftRne m (q - e).toNat sticky else m * 2 ^ (e - q).toNat
    ((q + f.mbits + f.bias - 1).toNat) * 2 ^ f.mbits + mant

/-- Rounds an exact number to a format (R250): what overflow and infinity become depends on SAT. -/
def Fmt.encodeSticky (f : Fmt) (sat : Bool) (x : Num) (sticky : Bool) : Nat :=
  let top := fun neg =>
    if sat then f.signBit neg + f.maxFinite else if f.ieee then f.inf neg else f.nan
  match x with
  | .nan => f.nan
  | .inf neg => top neg
  | .fin neg m e =>
    let b := f.roundMag m e sticky
    if f.maxFinite < b then top neg else f.signBit neg + b

def Fmt.encode (f : Fmt) (sat : Bool) (x : Num) : Nat := f.encodeSticky sat x false

/-- An FP32 by its bits. -/
abbrev F32 := Nat

def f32Num (x : F32) : Num := fmtFP32.decode x

/-- Rounds an exact number once to FP32, to infinity on overflow (R252). -/
def roundFp32 (x : Num) : F32 := fmtFP32.encode false x

def Num.neg : Num → Num
  | .nan => .nan
  | .inf s => .inf (!s)
  | .fin s m e => .fin (!s) m e

/-- A finite number as an integer of units 2^e0. -/
def finUnits (s : Bool) (m : Nat) (e e0 : Int) : Int :=
  let v : Int := (m * 2 ^ (e - e0).toNat : Nat)
  if s then -v else v

def Num.ofUnits (v e0 : Int) : Num := .fin (decide (v < 0)) v.natAbs e0

/-- The exact sum; an exact zero sum is +0 (R249). -/
def Num.add : Num → Num → Num
  | .nan, _ => .nan
  | _, .nan => .nan
  | .inf a, .inf b => if a = b then .inf a else .nan
  | .inf a, _ => .inf a
  | _, .inf b => .inf b
  | .fin s m e, .fin t n g =>
    let e0 := if e < g then e else g
    Num.ofUnits (finUnits s m e e0 + finUnits t n g e0) e0

/-- The exact product. -/
def Num.mul : Num → Num → Num
  | .nan, _ => .nan
  | _, .nan => .nan
  | .inf a, .inf b => .inf (a != b)
  | .inf a, .fin t n _ => if n = 0 then .nan else .inf (a != t)
  | .fin s m _, .inf b => if m = 0 then .nan else .inf (s != b)
  | .fin s m e, .fin t n g => .fin (s != t) (m * n) (e + g)

def fp32Add (a b : F32) : F32 := roundFp32 ((f32Num a).add (f32Num b))
def fp32Sub (a b : F32) : F32 := roundFp32 ((f32Num a).add (f32Num b).neg)
def fp32Mul (a b : F32) : F32 := roundFp32 ((f32Num a).mul (f32Num b))

/-- Correctly rounded quotient (R251). -/
def fp32Div (a b : F32) : F32 :=
  match f32Num a, f32Num b with
  | .nan, _ => fmtFP32.nan
  | _, .nan => fmtFP32.nan
  | .inf _, .inf _ => fmtFP32.nan
  | .inf s, .fin t _ _ => fmtFP32.inf (s != t)
  | .fin s _ _, .inf t => fmtFP32.signBit (s != t)
  | .fin s m e, .fin t n g =>
    if n = 0 then (if m = 0 then fmtFP32.nan else fmtFP32.inf (s != t))
    else
      let q : Nat := m * 2 ^ (64 : Nat) / n
      let odd : Nat := if m * 2 ^ (64 : Nat) % n = 0 then 0 else 1
      fmtFP32.encodeSticky false (.fin (s != t) (2 * q + odd) (e - g - 65)) false

/-- The integer square root found bit by bit from bit `k` down. -/
def isqrtFrom : Nat → Nat → Nat → Nat
  | 0, n, r => if (r + 1) * (r + 1) ≤ n then r + 1 else r
  | k + 1, n, r =>
    let c := r + 2 ^ (k + 1)
    isqrtFrom k n (if c * c ≤ n then c else r)

def isqrt (n : Nat) : Nat := isqrtFrom (Nat.log2 n / 2 + 1) n 0

/-- Correctly rounded square root (R251). -/
def fp32Sqrt (a : F32) : F32 :=
  match f32Num a with
  | .nan => fmtFP32.nan
  | .inf s => if s then fmtFP32.nan else fmtFP32.inf false
  | .fin s m e =>
    if m = 0 then fmtFP32.signBit s
    else if s then fmtFP32.nan
    else
      let e2 := if e % 2 = 0 then e else e - 1
      let n := (if e % 2 = 0 then m else 2 * m) * 2 ^ 64
      let r := isqrt n
      roundFp32 (.fin false (2 * r + (if r * r = n then 0 else 1)) (e2 / 2 - 33))

/-- The exact number ±m · 2^e rounded to the nearest integer, ties to even (R251). -/
def rneExact (neg : Bool) (m : Nat) (e : Int) : Int :=
  let v : Nat := if 0 ≤ e then m * 2 ^ e.toNat else shiftRne m (-e).toNat false
  if neg then -(v : Int) else v

/-- `rne_int` of an FP32 (R251); of a NaN or an infinity it is an open value. (DESIGN CHOICE, assumption 6.) -/
def rneInt (x : F32) : Int :=
  match f32Num x with
  | .fin s m e => rneExact s m e
  | _ => Config.rneOpen x

/-- The nearest integer of a rational num ÷ den, ties to even. -/
def rneRat (num : Int) (den : Nat) : Int :=
  let q := num / den
  let r := num % den
  if 2 * r < den then q else if (den : Int) < 2 * r then q + 1 else if q % 2 = 0 then q else q + 1

/-- An integer as FP32, rounded to nearest even (R250). -/
def f32OfInt (x : Int) : F32 := roundFp32 (Num.ofUnits x 0)

/-- `x < y` of FP32 numbers; false where one is a NaN. -/
def Num.lt : Num → Num → Bool
  | .nan, _ => false
  | _, .nan => false
  | .inf a, .inf b => a && !b
  | .inf a, _ => a
  | _, .inf b => !b
  | .fin s m e, .fin t n g =>
    let e0 := if e < g then e else g
    decide (finUnits s m e e0 < finUnits t n g e0)

def f32Lt (a b : F32) : Bool := (f32Num a).lt (f32Num b)
def f32IsNan (a : F32) : Bool := match f32Num a with | .nan => true | _ => false
def f32Le (a b : F32) : Bool := !f32IsNan a && !f32IsNan b && !f32Lt b a

/-- The floating format of a DTYPE (R236, R248). -/
def floatFmt : Nat → Option Fmt
  | 3 => some fmtE4M3
  | 4 => some fmtE5M2
  | 5 => some fmtBF16
  | 6 => some fmtFP16
  | 7 => some fmtFP32
  | _ => none

/-- The integer types of R236: signedness and width. -/
def intType : Nat → Option (Bool × Nat)
  | 1 => some (false, 8)
  | 2 => some (true, 8)
  | 8 => some (false, 16)
  | 9 => some (true, 16)
  | 10 => some (true, 32)
  | 11 => some (false, 32)
  | _ => none

/-- Bytes of an element of a DTYPE; 0 for a reserved code. -/
def dtypeBytes (d : Nat) : Nat :=
  match floatFmt d with
  | some f => f.width / 8
  | none => match intType d with | some (_, w) => w / 8 | none => 0

/-- The least and greatest value of an integer type. -/
def intRange (signed : Bool) (w : Nat) : Int × Int :=
  if signed then (-((2 ^ (w - 1) : Nat) : Int), ((2 ^ (w - 1) : Nat) : Int) - 1) else (0, ((2 ^ w : Nat) : Int) - 1)

/-- The exact number of an element of a DTYPE. -/
def elemNum (d bits : Nat) : Num :=
  match floatFmt d with
  | some f => f.decode bits
  | none =>
    match intType d with
    | some (true, w) => Num.ofUnits (toSigned w bits) 0
    | _ => .fin false bits 0

/-- An exact number as an element of a DTYPE (R250). -/
def numElem (d : Nat) (sat : Bool) (x : Num) : Nat :=
  match floatFmt d with
  | some f => f.encode (sat && d != 7) x
  | none =>
    match intType d with
    | none => 0
    | some (signed, w) =>
      let (lo, hi) := intRange signed w
      match x with
      | .nan => 0
      | .inf neg => ofSigned w (if neg then lo else hi)
      | .fin s m e => ofSigned w (clampInt lo hi (rneExact s m e))

/-- Conversion between DTYPEs (R250). -/
def convElem (src dst : Nat) (sat : Bool) (bits : Nat) : Nat :=
  if src = dst then (match floatFmt dst with
    | some f => if f.decode bits = .nan then f.nan else bits
    | none => bits)
  else numElem dst sat (elemNum src bits)

/-- An element as FP32 (R250). -/
def elemF32 (d bits : Nat) : F32 := convElem d 7 false bits

/-- The exact sum of products of a chunk (R252). -/
def chunkSum : List (Num × Num) → Num
  | [] => .fin false 0 0
  | (a, b) :: l => (a.mul b).add (chunkSum l)

/-- Chunks of 32. -/
def chunks32 {α : Type} : Nat → List α → List (List α)
  | 0, _ => []
  | n + 1, l => l.take 32 :: chunks32 n (l.drop 32)

/-- The floating dot product (R252). -/
def dotFloat (terms : List (Num × Num)) : F32 :=
  (chunks32 (ceilDiv terms.length 32) terms).foldl (fun acc c => fp32Add acc (roundFp32 (chunkSum c))) 0

def sat32 (x : Int) : Int := clampInt (-2147483648) 2147483647 x

/-- The integer dot product (R253). -/
def dotInt (terms : List (Int × Int)) : Int :=
  (chunks32 (ceilDiv terms.length 32) terms).foldl
    (fun acc c => sat32 (acc + (c.map (fun t => t.1 * t.2)).sum)) 0

/-- Whether a chunk of an integer dot product saturates (R253). -/
def dotSaturates (terms : List (Int × Int)) : Bool :=
  ((chunks32 (ceilDiv terms.length 32) terms).foldl
    (fun (acc : Int × Bool) c =>
      let v := acc.1 + (c.map (fun t => t.1 * t.2)).sum
      (sat32 v, acc.2 || sat32 v != v)) (0, false)).2

end Sys2Proof.Machine
end

