-- ==== Sys2Proof/Machine/Formats.lean ====
section
/-! DEFINITION. What the standards that R220 names make of a sample's bytes: the headers and lengths that they
state, their contents, and where a stream ends or breaks. -/
namespace Sys2Proof.Machine

/-- Why a stream cannot be read on (R231). -/
inductive StreamFault where
  | badSyntax
  | unsupported
  | checksum
  | truncated
  | limit
  deriving DecidableEq, Repr, Inhabited

/-- The reason code of a stream fault (R231). -/
def StreamFault.code : StreamFault → Nat
  | .badSyntax => 0x10
  | .unsupported => 0x11
  | .checksum => 0x12
  | .truncated => 0x13
  | .limit => 0x14

/-- A parse: a fault before the dimensions and lengths are known, or the stream's data and the fault, if any, at
which its reading ended (R222). -/
inductive Parse (α : Type) where
  | early (why : StreamFault)
  | found (head : α) (stop : Option StreamFault)
  deriving DecidableEq, Repr, Inhabited

/-- One component of a JPEG picture (R224): sampling factors, quantisation table, blocks per row, and the 64 quantised
coefficients of each block, table and coefficients in natural order. -/
structure JpegComp where
  h : Nat
  v : Nat
  quant : List Nat
  blocksW : Nat
  blocks : List (List Int)
  deriving DecidableEq, Repr, Inhabited

/-- A JPEG picture (R220): `sof` the number of its SOF marker, `hierarchical` a DHP marker before it, `scans` and
`entropyBytes` those read before the stream ended or broke. -/
structure JpegPic where
  width : Nat
  height : Nat
  precision : Nat
  sof : Nat
  hierarchical : Bool
  scans : Nat
  entropyBytes : Nat
  adobeRgb : Bool
  orientation : Nat
  comps : List JpegComp
  deriving DecidableEq, Repr, Inhabited

/-- A PNG picture after unfiltering (R220): samples as stored, row by row, `depth` bits each. -/
structure PngPic where
  width : Nat
  height : Nat
  depth : Nat
  colourType : Nat
  interlaced : Bool
  palette : List (Nat × Nat × Nat)
  trns : List Nat
  orientation : Nat
  samples : List Nat
  deriving DecidableEq, Repr, Inhabited

/-- One picture of a video stream (R220, R229), planes in raster order; a monochrome picture has empty chroma planes.
`bad` is the fault that its decoding meets. -/
structure VideoPic where
  width : Nat
  height : Nat
  depth : Nat
  randomAccess : Bool
  decodeOrder : Nat
  codedBytes : Nat
  y : List Nat
  u : List Nat
  v : List Nat
  bad : Option StreamFault
  deriving DecidableEq, Repr, Inhabited

/-- A video stream as its pre-scan finds it (R220, R229): its profile (1 Main and 2 Main 10 of H.265, or seq_profile),
High tier, level times ten, whether its chroma is 4:2:0 or absent, whether it uses large-scale tiles, and its pictures in
display order. -/
structure VideoStream where
  profile : Nat
  highTier : Bool
  level : Nat
  sub420 : Bool
  largeTile : Bool
  pics : List VideoPic
  deriving DecidableEq, Repr, Inhabited

/-- One frame of a FLAC stream: its first sample, its samples per channel, and the fault that its decoding meets. -/
structure AudioFrame where
  start : Nat
  count : Nat
  bad : Option StreamFault
  deriving DecidableEq, Repr, Inhabited

/-- An audio stream (R220, R230): `tag` the WAV format tag, with WAVE_FORMAT_EXTENSIBLE resolved to its subformat, `rf64`
an RF64 file; `perChannel` its samples per channel; samples interleaved by channel, for a float stream each its FP32
bits. -/
structure AudioClip where
  channels : Nat
  bits : Nat
  rate : Nat
  tag : Nat
  rf64 : Bool
  dataBytes : Nat
  perChannel : Nat
  frames : List AudioFrame
  samples : List Int
  deriving DecidableEq, Repr, Inhabited

/-- How a Keeper stage image ends on a sample of its own accord (R410). -/
inductive ImageEnd where
  | done
  | malformed
  | unhandled
  | trapped
  deriving DecidableEq, Repr, Inhabited

/-- A run of a Keeper stage image (R409, R410): its output, how it ends, and the instructions it retires. -/
structure ImageRun where
  out : List Byte
  fin : ImageEnd
  insns : Nat
  deriving DecidableEq, Repr, Inhabited

end Sys2Proof.Machine

namespace Sys2Proof.Config
open Sys2Proof.Machine

/-- What H.265 (CODEC 3) or AV1 (CODEC 4) makes of a sample's bytes (R220). -/
opaque parseVideo : Nat → List Byte → Parse VideoStream

/-- A Keeper stage image on a sample (R409): the image's hash, its arguments, its input. -/
opaque imageRun : List Byte → List Byte → List Byte → ImageRun

/-- The instructions that an image has retired when its output passes a length (R410): hash, arguments, input, length. -/
opaque imageInsns : List Byte → List Byte → List Byte → Nat → Nat

end Sys2Proof.Config
end

