-- ==== Sys2Proof/Machine/Picture.lean ====
section
/-! DEFINITION. Exact picture and audio arithmetic (R224 to R228): the inverse DCT, chroma upsampling, colour, depth,
orientation and audio conversion; and the tensors that stages pass to one another. -/
namespace Sys2Proof.Machine

/-- What a sample is between two stages: plain bytes, an image of H × W × C interleaved elements, a vector, or an array of another shape that
a container gave it (R338), which no image operation takes. -/
inductive Shape where
  | bytes
  | image
  | vector
  | array (dims : List Nat)
  deriving DecidableEq, Repr

/-- A sample's content: elements of `dtype` in row-major order, channels interleaved. -/
structure Tensor where
  shape : Shape
  h : Nat
  w : Nat
  c : Nat
  dtype : Nat
  elems : List Nat
  deriving DecidableEq, Repr

def bytesTensor (bs : List Byte) : Tensor := ⟨.bytes, 1, bs.length, 1, 1, bs.map (·.toNat)⟩

/-- A tensor as bytes, each element little-endian. -/
def Tensor.toBytes (t : Tensor) : List Byte := t.elems.flatMap (leBytes (dtypeBytes t.dtype))

def Tensor.byteLen (t : Tensor) : Nat := t.elems.length * dtypeBytes t.dtype

/-- Bytes read as elements of a DTYPE; a trailing partial element is left out. -/
def bytesElems (d : Nat) (bs : List Byte) : List Nat :=
  let k := max 1 (dtypeBytes d)
  (List.range (bs.length / k)).map (fun i => leAt (bs.drop (k * i)) 0 k)

/-- 4,096 × cos(iπ ÷ 16) rounded, for i = 0 to 8. -/
def cos16Tab : List Int := [4096, 4017, 3784, 3406, 2896, 2276, 1567, 799, 0]

/-- 4,096 × cos(iπ ÷ 16) for any i. -/
def cos16 (i : Nat) : Int :=
  let j := i % 32
  let k := if 16 < j then 32 - j else j
  if k ≤ 8 then cos16Tab.getD k 0 else -(cos16Tab.getD (16 - k) 0)

/-- The integer basis C[u][x] (R224): 8,192 ÷ √8 = 2,896 for u = 0. -/
def dctC (u x : Nat) : Int := if u = 0 then 2896 else cos16 ((2 * x + 1) * u)

/-- The row pass on one row of eight coefficients (R224). -/
def idctRow (f : List Int) : List Int :=
  (List.range 8).map (fun x => (((List.range 8).map (fun u => dctC u x * f.getD u 0)).sum + 1024) / 2048)

/-- The inverse DCT of a block of 64 coefficients in natural order, `prec` 8 or 12 (R224). -/
def idct (prec : Nat) (f : List Int) : List Nat :=
  let rows := (List.range 8).map (fun v => idctRow ((f.drop (8 * v)).take 8))
  (List.range 64).map (fun i =>
    let y := i / 8
    let x := i % 8
    let s := ((List.range 8).map (fun v => dctC v y * (rows.getD v []).getD x 0)).sum
    (clampInt 0 (2 ^ prec - 1) ((s + 16384) / 32768 + 2 ^ (prec - 1))).toNat)

/-- Sample (x, y) of a component plane from its decoded blocks. -/
def planeAt (blocks : List (List Nat)) (blocksW x y : Nat) : Nat :=
  (blocks.getD ((y / 8) * blocksW + x / 8) []).getD ((y % 8) * 8 + x % 8) 0

/-- A plane: width, height and samples in raster order. -/
structure Plane where
  w : Nat
  h : Nat
  px : List Nat
  deriving DecidableEq, Repr

def Plane.at (p : Plane) (x y : Nat) : Nat := p.px.getD (min y (p.h - 1) * p.w + min x (p.w - 1)) 0

/-- A plane made by a function of the place. -/
def planeBy (w h : Nat) (f : Nat → Nat → Nat) : Plane :=
  ⟨w, h, (List.range h).flatMap (fun y => (List.range w).map (fun x => f x y))⟩

/-- A block's coefficients, each times its entry of the quantisation table (R224). -/
def dequant (quant : List Nat) (f : List Int) : List Int := f.zipIdx.map (fun e => e.1 * (quant.getD e.2 1 : Nat))

/-- The decoded plane of a JPEG component, `w` by `h` samples. -/
def compPlane (prec : Nat) (c : JpegComp) (w h : Nat) : Plane :=
  let bl := c.blocks.map (fun f => idct prec (dequant c.quant f))
  planeBy w h (planeAt bl c.blocksW)

/-- One doubled sample along a line (R225): `s` reads the neighbours, the edge standing in for a missing one. -/
def triangle (s : Int → Nat) (j : Nat) : Nat :=
  let i : Int := (j / 2 : Nat)
  if j % 2 = 0 then (3 * s i + s (i - 1) + 2) / 4 else (3 * s i + s (i + 1) + 2) / 4

def clampIdx (n : Nat) (i : Int) : Nat := (clampInt 0 ((n : Int) - 1) i).toNat

/-- Upsamples a plane by `fx` and `fy` (1 or 2), horizontal first (R225). -/
def upsample (tri : Bool) (fx fy : Nat) (p : Plane) : Plane :=
  let hz := if fx = 2 then
      planeBy (2 * p.w) p.h (fun x y =>
        if tri then triangle (fun i => p.at (clampIdx p.w i) y) x else p.at (x / 2) y)
    else p
  if fy = 2 then
    planeBy hz.w (2 * hz.h) (fun x y =>
      if tri then triangle (fun i => hz.at x (clampIdx hz.h i)) y else hz.at x (y / 2))
  else hz

def round16 (v : Int) : Int := (v + 32768) / 65536

/-- JPEG YCbCr to RGB (R226); each bracketed term is rounded before it is added to Y. -/
def jpegRgb (prec y cb cr : Nat) : List Nat :=
  let mid : Int := 2 ^ (prec - 1)
  let b' : Int := (cb : Int) - mid
  let r' : Int := (cr : Int) - mid
  let cl := fun (v : Int) => (clampInt 0 (2 ^ prec - 1) v).toNat
  [cl (y + round16 (91881 * r')), cl (y + round16 (-22554 * b' - 46802 * r')), cl (y + round16 (116130 * b'))]

/-- Video limited-range YUV to RGB (R226). -/
def videoRgb (m601 : Bool) (d y u v : Nat) : List Nat :=
  let y2 : Int := 76309 * ((y : Int) - 16 * 2 ^ (d - 8))
  let u' : Int := (u : Int) - 2 ^ (d - 1)
  let v' : Int := (v : Int) - 2 ^ (d - 1)
  let cl := fun (x : Int) => (clampInt 0 (2 ^ d - 1) (round16 x)).toNat
  if m601 then [cl (y2 + 104597 * v'), cl (y2 - 25674 * u' - 53279 * v'), cl (y2 + 132201 * u')]
  else [cl (y2 + 117489 * v'), cl (y2 - 13976 * u' - 34925 * v'), cl (y2 + 138438 * u')]

/-- Depth rule 1 of R227: a d-bit value as UINT8, or unchanged in UINT16. -/
def depthRule (outType d v : Nat) : Nat :=
  if outType = 1 ∧ 8 < d then
    let m := 2 ^ d - 1
    (v * 255 + m / 2) / m
  else v

/-- Rule 4 of R227. -/
def greyOf (r g b : Nat) : Nat := (19595 * r + 38470 * g + 7471 * b + 32768) / 65536

/-- One pixel in an output format (R227, R233): `px` is grey, grey and alpha, RGB or RGBA. -/
def pixelOut (fmt outType : Nat) (px : List Nat) : List Nat :=
  let top := if outType = 8 then 65535 else 255
  let hasA := px.length == 2 || px.length == 4
  let a := if hasA then px.getLastD top else top
  let rgb := if px.length ≤ 2 then [px.getD 0 0, px.getD 0 0, px.getD 0 0] else px.take 3
  match fmt with
  | 0 => rgb
  | 1 => rgb.reverse
  | 2 => if px.length ≤ 2 then px.take 1 else [greyOf (px.getD 0 0) (px.getD 1 0) (px.getD 2 0)]
  | 3 => rgb ++ [a]
  | _ => px

/-- The source place of an output pixel under an EXIF orientation, for a coded picture of w × h (R227, rule 7). -/
def orientSrc (o w h x y : Nat) : Nat × Nat :=
  match o with
  | 2 => (w - 1 - x, y)
  | 3 => (w - 1 - x, h - 1 - y)
  | 4 => (x, h - 1 - y)
  | 5 => (y, x)
  | 6 => (y, h - 1 - x)
  | 7 => (w - 1 - y, h - 1 - x)
  | 8 => (w - 1 - y, x)
  | _ => (x, y)

/-- The orientation a stage applies: 2 to 8 with ORIENT set, otherwise none. -/
def orientOf (on : Bool) (o : Nat) : Nat := if on && decide (2 ≤ o) && decide (o ≤ 8) then o else 1

/-- A picture written row by row under an orientation: `px` gives the pixel of the coded picture. -/
def orientedImage (o w h c dtype : Nat) (px : Nat → Nat → List Nat) : Tensor :=
  let ow := if 5 ≤ o then h else w
  let oh := if 5 ≤ o then w else h
  ⟨.image, oh, ow, c, dtype,
    (List.range oh).flatMap (fun y => (List.range ow).flatMap (fun x =>
      let s := orientSrc o w h x y
      px s.1 s.2))⟩

/-- Planes written one after another, each under an orientation (R227, rule 7; NATIVE of R233). -/
def planesOut (o outType d : Nat) (ps : List Plane) : Tensor :=
  let es := ps.flatMap (fun p =>
    (orientedImage o p.w p.h 1 outType (fun x y => [depthRule outType d (p.at x y)])).elems)
  ⟨.vector, 1, es.length, 1, outType, es⟩

/-- Channels of an output format (R233). -/
def fmtChannels (fmt : Nat) : Nat := if fmt = 2 then 1 else if fmt = 3 then 4 else 3

/-- A JPEG picture decoded to a tensor (R224 to R227). -/
def decodeJpeg (p : JpegPic) (fmt outType : Nat) (orient tri : Bool) : Tensor :=
  let hm := (p.comps.map (·.h)).foldl max 1
  let vm := (p.comps.map (·.v)).foldl max 1
  let raw := p.comps.map (fun c =>
    compPlane p.precision c (ceilDiv (p.width * c.h) hm) (ceilDiv (p.height * c.v) vm))
  if fmt = 4 then planesOut (orientOf orient p.orientation) outType p.precision raw
  else
    let up := (p.comps.zip raw).map (fun e => upsample tri (hm / max 1 e.1.h) (vm / max 1 e.1.v) e.2)
    let at' := fun i x y => (up.getD i ⟨1, 1, [0]⟩).at x y
    orientedImage (orientOf orient p.orientation) p.width p.height (fmtChannels fmt) outType (fun x y =>
      let px :=
        if p.comps.length = 1 then [at' 0 x y]
        else if p.adobeRgb then [at' 0 x y, at' 1 x y, at' 2 x y]
        else jpegRgb p.precision (at' 0 x y) (at' 1 x y) (at' 2 x y)
      pixelOut fmt outType (px.map (depthRule outType p.precision)))

/-- Channels a PNG stores per pixel by colour type. -/
def pngChannels : Nat → Nat
  | 2 => 3
  | 4 => 2
  | 6 => 4
  | _ => 1

/-- A stored PNG pixel as grey, grey and alpha, RGB or RGBA at its own depth (R227, rules 2 and 3). -/
def pngPixel (p : PngPic) (x y : Nat) : List Nat :=
  let n := pngChannels p.colourType
  let s := (p.samples.drop ((y * p.width + x) * n)).take n
  let top := 2 ^ p.depth - 1
  if p.colourType = 3 then
    let i := s.getD 0 0
    let e := p.palette.getD i (0, 0, 0)
    if p.trns = [] then [e.1, e.2.1, e.2.2] else [e.1, e.2.1, e.2.2, p.trns.getD i 255]
  else if p.colourType = 0 then
    let g := if p.depth < 8 then s.getD 0 0 * 255 / top else s.getD 0 0
    if p.trns = [] then [g]
    else
      let a := if p.depth < 8 then 255 else top
      [g, if p.trns.getD 0 0 = s.getD 0 0 then 0 else a]
  else if p.colourType = 2 ∧ p.trns ≠ [] then s ++ [if s = p.trns then 0 else top]
  else s

/-- A PNG picture as a tensor (R227); NATIVE writes one plane for each channel of its pixels. -/
def decodePng (p : PngPic) (fmt outType : Nat) (orient : Bool) : Tensor :=
  let d := if p.depth = 16 ∧ p.colourType ≠ 3 then 16 else 8
  let o := orientOf orient p.orientation
  if fmt = 4 then
    planesOut o outType d ((List.range (pngPixel p 0 0).length).map (fun ch =>
      planeBy p.width p.height (fun x y => (pngPixel p x y).getD ch 0)))
  else
    orientedImage o p.width p.height (fmtChannels fmt) outType
      (fun x y => pixelOut fmt outType ((pngPixel p x y).map (depthRule outType d)))

/-- One video picture of w × h as pixels or as I420 planes (R226, R227, R233); chroma is replicated;
a monochrome picture is a grey source (R227, rule 5). -/
def decodeVideoPic (v : VideoPic) (fmt outType : Nat) (m601 : Bool) : List Nat :=
  if fmt = 4 then (v.y ++ v.u ++ v.v).map (depthRule outType v.depth)
  else
    let cw := ceilDiv v.width 2
    (List.range v.height).flatMap (fun y => (List.range v.width).flatMap (fun x =>
      let yy := v.y.getD (y * v.width + x) 0
      let px :=
        if v.u = [] then [yy]
        else videoRgb m601 v.depth yy (v.u.getD ((y / 2) * cw + x / 2) 0) (v.v.getD ((y / 2) * cw + x / 2) 0)
      pixelOut fmt outType (px.map (depthRule outType v.depth))))

/-- A clip of pictures, one after another, each row by row (assumption 24). -/
def clipTensor (pics : List VideoPic) (fmt outType : Nat) (m601 : Bool) : Tensor :=
  let es := pics.flatMap (fun v => decodeVideoPic v fmt outType m601)
  let w := (pics.head?.map (·.width)).getD 0
  let h := (pics.head?.map (·.height)).getD 0
  if fmt = 4 then ⟨.vector, 1, es.length, 1, outType, es⟩
  else ⟨.image, h * pics.length, w, fmtChannels fmt, outType, es⟩

/-- An integer audio sample of `b` bits in an output type (R228). -/
def audioInt (outType b : Nat) (s : Int) : Nat :=
  if outType = 9 then ofSigned 16 (if 16 ≤ b then s / 2 ^ (b - 16) else s * 2 ^ (16 - b))
  else if outType = 10 then ofSigned 32 (s * 2 ^ (32 - b))
  else roundFp32 (Num.ofUnits s (-((b : Int) - 1)))

/-- A float audio sample, by its FP32 bits, in an output type (R228). -/
def audioFloat (outType : Nat) (bits : Nat) : Nat :=
  if outType = 7 then bits
  else
    let k : Int := if outType = 9 then 15 else 31
    match f32Num bits with
    | .fin s m e => numElem outType true (.fin s m (e + k))
    | x => numElem outType true x

/-- The window of an audio clip from sample `t`, `n` samples per channel, interleaved or planar (R230, R233). -/
def decodeAudio (a : AudioClip) (fmt outType t n : Nat) : Tensor :=
  let one := fun ch i => a.samples.getD ((t + i) * a.channels + ch) 0
  let conv := fun (s : Int) => if a.tag = 3 then audioFloat outType s.toNat else audioInt outType a.bits s
  let es :=
    if fmt = 5 then (List.range a.channels).flatMap (fun ch => (List.range n).map (fun i => conv (one ch i)))
    else (List.range n).flatMap (fun i => (List.range a.channels).map (fun ch => conv (one ch i)))
  ⟨.vector, 1, es.length, 1, outType, es⟩

end Sys2Proof.Machine
end

