-- ==== Sys2Proof/Machine/Ripple.lean ====
section
/-! DEFINITION. The Ripple generator (R44, R45), its keys and draws (R46 to R48) and the batch digest (R49). -/
namespace Sys2Proof.Machine

/-- Four 32-bit words: a counter, a key or an output of Ripple. -/
structure Quad where
  w0 : Word
  w1 : Word
  w2 : Word
  w3 : Word
  deriving DecidableEq, Repr

/-- Word `i` of four, `i` modulo 4. -/
def Quad.at (q : Quad) (i : Nat) : Word :=
  match i % 4 with
  | 0 => q.w0
  | 1 => q.w1
  | 2 => q.w2
  | _ => q.w3

def Quad.xor (a b : Quad) : Quad := ⟨a.w0 ^^^ b.w0, a.w1 ^^^ b.w1, a.w2 ^^^ b.w2, a.w3 ^^^ b.w3⟩

/-- The multipliers of R45. -/
def rippleM0 : Word := 0x01000111#32
def rippleM1 : Word := 0x00101011#32

/-- The round constants RA and RB of R45. -/
def rippleConst : List (Word × Word) :=
  [(0x00000000#32, 0x00000000#32), (0x2F6B13C5#32, 0x6A19F07D#32), (0x58D4A71E#32, 0x1BE52C93#32),
   (0x71930C6B#32, 0x94A67E18#32), (0x8E2AF5D4#32, 0x3D0CB5E7#32), (0xA4C76239#32, 0xC8714A2C#32),
   (0xC35E1B86#32, 0x05D3E9B1#32), (0xD1F984E3#32, 0x7E482356#32), (0xE6043D5A#32, 0xB2F7D80B#32),
   (0xFB8DC62F#32, 0x4B9661E4#32)]

/-- Exchanges the upper and lower 16 bits (R44). -/
def rot16 (v : Word) : Word := (v <<< 16) ||| (v >>> 16)

/-- Round `r` of Ripple with its round constants (R44). -/
def rippleRound (k : Quad) (r : Nat) (c : Word × Word) (x : Quad) : Quad :=
  let a := k.at (2 * r) ^^^ c.1
  let b := k.at (2 * r + 1) ^^^ c.2
  let p := (x.w0 ^^^ a) * rippleM0
  let q := (x.w2 ^^^ b) * rippleM1
  ⟨x.w1 ^^^ rot16 q, p, x.w3 ^^^ rot16 p, q⟩

/-- The rounds from round `r` on. -/
def rippleFrom (k : Quad) : Nat → List (Word × Word) → Quad → Quad
  | _, [], x => x
  | r, c :: cs, x => rippleFrom k (r + 1) cs (rippleRound k r c x)

/-- Ripple (R44): ten rounds. -/
def ripple (c k : Quad) : Quad := rippleFrom k 0 rippleConst c

/-- A quad from four numbers, each modulo 2^32. -/
def quadOf (a b c d : Nat) : Quad := ⟨BitVec.ofNat 32 a, BitVec.ofNat 32 b, BitVec.ofNat 32 c, BitVec.ofNat 32 d⟩

/-- The key of R46 from the run seed and the epoch. -/
def rippleKey (seed epoch : Nat) : Quad :=
  let k := quadOf seed (seed / 2 ^ 32) (seed / 2 ^ 64) (seed / 2 ^ 96)
  { k with w3 := k.w3 ^^^ BitVec.ofNat 32 epoch }

/-- The augmentation draw block of R46, domain code 0x1: `g` the global sample index, `op` the operator. -/
def drawBlock (key : Quad) (g op block : Nat) : Quad :=
  ripple (quadOf g (0x10000000 + (op % 65536) * 4096 + (g / 2 ^ 32) % 4096) block 0) key

/-- Word `i` of an operator's draws: block `i / 4` after the first block, word `i % 4` (R47). -/
def drawWord (key : Quad) (g op block0 i : Nat) : Nat :=
  ((drawBlock key g op (block0 + i / 4)).at i).toNat

/-- A uniform integer in [0, n) from a word (R47). -/
def drawUniform (w n : Nat) : Nat := w * n / 2 ^ 32

/-- One block of the digest (R49): the 16 payload bytes are the key, the block number the counter. -/
def digestBlock (i : Nat) (m : List Byte) : Quad :=
  ripple (quadOf i 0x40000000 0 0) (quadOf (leAt m 0 4) (leAt m 4 4) (leAt m 8 4) (leAt m 12 4))

/-- The exclusive-or of the blocks of a payload, `n` blocks from block `i` on. -/
def digestBlocks : Nat → Nat → List Byte → Quad → Quad
  | 0, _, _, acc => acc
  | n + 1, i, bs, acc => digestBlocks n (i + 1) (bs.drop 16) (acc.xor (digestBlock i (bs.take 16)))

/-- The 64-bit Ripple digest of a payload (R49). -/
def rippleDigest (bs : List Byte) : Nat :=
  let l := bs.length
  let acc := digestBlocks (ceilDiv l 16) 0 bs ⟨0, 0, 0, 0⟩
  let w := ripple acc (quadOf l (l / 2 ^ 32) 0 0x40000000)
  w.w1.toNat * 2 ^ 32 + w.w0.toNat

/-- The worked example of the determinism chapter. -/
theorem ripple_worked_example :
    drawBlock (rippleKey 0x3B9AC5F10D2E7784A61F09C352D8E04B 3) 0x3A70C915E26 0x0104 0
      = ⟨0x1DBCCDB5#32, 0x6635A81B#32, 0xC6E1C9DB#32, 0x567BB544#32⟩ := by decide

end Sys2Proof.Machine
end

