-- ==== Sys2Proof/Machine/Pack.lean ====
section
/-! DEFINITION. The packer (R234 to R243): its configuration, the three layouts, the side-band table, the header and
the digest of a batch. -/
namespace Sys2Proof.Machine

/-- The packer's STAGE_CONFIG record (R243), read from the record with its 8-byte header. -/
structure PackCfg where
  layout : Nat
  dtype : Nat
  slotMode : Nat
  policy : Nat
  dimA : Nat
  dimB : Nat
  dimC : Nat
  bos : Nat
  eos : Nat
  pad : Nat
  fill : Nat
  outBufs : Nat
  outBytes : Nat
  deriving DecidableEq, Repr

def packCfgOf (b : List Byte) : PackCfg where
  layout := leAt b 8 1
  dtype := leAt b 9 1
  slotMode := leAt b 10 1
  policy := leAt b 11 1
  dimA := leAt b 12 4
  dimB := leAt b 16 4
  dimC := leAt b 20 4
  bos := leAt b 24 4
  eos := leAt b 28 4
  pad := leAt b 32 4
  fill := leAt b 36 4
  outBufs := leAt b 40 1
  outBytes := leAt b 44 4

/-- 0xFFFF_FFFF, no token (R243). -/
def noToken : Nat := 0xFFFFFFFF

/-- Whether a packer body breaks the ranges of R243. -/
def packCfgBad (b : List Byte) : Bool :=
  let c := packCfgOf b
  let image := c.layout == 1 || c.layout == 2
  b.length != 56 || decide (c.layout < 1) || decide (4 < c.layout)
  || (image && (dtypeBytes c.dtype == 0 || decide (1 < c.slotMode) || c.policy != 0
        || decide (c.dimA < 1) || decide (16384 < c.dimA) || decide (c.dimB < 1) || decide (16384 < c.dimB)
        || decide (c.dimC < 1) || decide (4 < c.dimC)))
  || (c.layout == 3 && (!(c.dtype == 8 || c.dtype == 11) || c.slotMode != 0 || decide (1 < c.policy)
        || decide (c.dimA < 1) || decide (65536 < c.dimA) || decide (c.dimB < 64) || decide (65536 < c.dimB)
        || c.dimB % 32 != 0 || c.dimC != 0))
  || (c.layout == 4 && (c.dtype != 0 || c.slotMode != 0 || c.policy != 0 || c.dimA != 0 || c.dimB != 0
        || c.dimC != 0))
  || decide (c.outBufs < 2) || decide (16 < c.outBufs) || leAt b 41 3 != 0
  || decide (c.outBytes < 65536) || c.outBytes % 65536 != 0 || leAt b 48 8 != 0

/-- What a packer holds of one position of its part. -/
structure PackPos where
  offset : Nat
  g : Nat
  attempt : Nat
  reason : Nat
  filled : Bool
  cls : Nat
  user : Nat
  oriented : Bool
  codedW : Nat
  codedH : Nat
  content : Option Tensor
  deriving DecidableEq, Repr

/-- The identity of a part, for the batch header (R234). -/
structure PartId where
  step : Nat
  rill : Nat
  slot : Nat
  slice : Nat
  device : Nat
  epoch : Nat
  firstPos : Nat
  sliceSize : Nat
  weaveTag : List Byte
  deriving DecidableEq, Repr

/-- What a layout makes of one position: side-band flags, SOURCE, PLACE and PLACED. -/
structure Placed where
  flags : Nat
  source : Nat
  place : Nat
  placed : Nat
  deriving DecidableEq, Repr

/-- Elements of an image sample of a packer (R237). -/
def PackCfg.slotElems (c : PackCfg) : Nat := c.dimA * c.dimB * c.dimC
def PackCfg.slotBytes (c : PackCfg) : Nat := c.slotElems * dtypeBytes c.dtype
def PackCfg.isImage (c : PackCfg) : Bool := c.layout == 1 || c.layout == 2

/-- Whether an image packer takes a sample (R237): an image of its dimensions and DTYPE, or plain bytes that hold exactly
its elements. The other layouts take every sample. -/
def PackCfg.takes (c : PackCfg) (t : Tensor) : Bool :=
  !c.isImage
  || (t.shape == .image && t.h == c.dimA && t.w == c.dimB && t.c == c.dimC && t.dtype == c.dtype)
  || (t.shape == .bytes && t.byteLen == c.slotBytes)

/-- The cycles of placing an arrived sample or a filled slot (R241); only image samples take any. -/
def PackCfg.placeCycles (c : PackCfg) : Nat := if c.isImage then ceilDiv c.slotBytes 64 else 0

/-- An image's elements with the channels split into planes (R237, NCHW). -/
def planesOf (c : Nat) (es : List Nat) : List Nat :=
  let px := es.length / max 1 c
  (List.range c).flatMap (fun ch => (List.range px).map (fun i => es.getD (i * c + ch) 0))

def orientFlag (p : PackPos) : Nat := if p.oriented then 2 else 0
def filledFlag (p : PackPos) : Nat := if p.filled then 1 else 0

/-- The content of one image slot. (DEDUCED, assumption 25.) -/
def imageSlot (c : PackCfg) (p : Option PackPos) : List Byte :=
  let fillEs := List.replicate c.slotElems c.fill
  let es :=
    match p with
    | some q => (match q.content with
      | some t =>
        let own := if t.shape = Shape.bytes then bytesElems c.dtype t.toBytes else t.elems
        if c.layout = 2 then planesOf c.dimC own else own
      | none => fillEs)
    | none => fillEs
  es.flatMap (leBytes (dtypeBytes c.dtype))

/-- Image layouts (R237): a slot is written when it ends within OUT_BYTES, measured from the batch start; the
payload holds the written slots (assumption 25). -/
def packImages (c : PackCfg) (sliceSize : Nat) (ps : List PackPos) : List Byte × List Placed × List Nat :=
  let slotted := c.slotMode == 1
  let n := if slotted then sliceSize else ps.length
  let fits := fun slot => decide (128 + (slot + 1) * c.slotBytes ≤ c.outBytes)
  let at' := fun slot => if slotted then ps.find? (fun p => p.offset == slot) else ps[slot]?
  let payload := ((List.range n).filter fits).flatMap (fun slot => imageSlot c (at' slot))
  let entry := fun (e : PackPos × Nat) =>
    let slot := if slotted then e.1.offset else e.2
    let src := e.1.codedW * 65536 + e.1.codedH
    if fits slot then
      ⟨filledFlag e.1 + orientFlag e.1, src, slot, if e.1.content.isSome then c.slotBytes else 0⟩
    else ⟨filledFlag e.1 + orientFlag e.1 + 8, src, slot, 0⟩
  let dims := if c.layout = 1 then [n, c.dimA, c.dimB, c.dimC] else [n, c.dimC, c.dimA, c.dimB]
  (payload, ps.zipIdx.map entry, dims)

/-- Where a token-row packer stands: row, column, segments of the row so far, and the cells placed. -/
structure RowState where
  row : Nat
  col : Nat
  seg : Nat
  cells : List (Nat × Nat × Nat)
  full : Bool
  deriving DecidableEq, Repr

def padCells (c : PackCfg) (n : Nat) : List (Nat × Nat × Nat) := List.replicate n (c.pad, 0, 0)

/-- Places the tokens of a document from the present place, row by row (R239); answers how many runs it made and the
tokens left. `fuel` bounds the rows. -/
def placeRuns (c : PackCfg) : Nat → RowState → List Nat → RowState × Nat × List Nat
  | 0, s, d => (s, 0, d)
  | fuel + 1, s, d =>
    if d = [] ∨ c.dimA ≤ s.row then (s, 0, d)
    else
      let n := min (c.dimB - s.col) d.length
      let run := ((d.take n).zipIdx).map (fun e => (e.1, s.seg + 1, e.2))
      let cells := s.cells ++ run
      let s' : RowState :=
        if s.col + n = c.dimB then ⟨s.row + 1, 0, 0, cells, s.full⟩ else ⟨s.row, s.col + n, s.seg + 1, cells, s.full⟩
      let (s'', k, rest) := placeRuns c fuel s' (d.drop n)
      (s'', k + 1, rest)

/-- The tokens of a document: BOS, its tokens, EOS (R239). -/
def docTokens (c : PackCfg) (t : Tensor) : List Nat :=
  let es := if t.shape ≠ .bytes ∧ (t.dtype = 8 ∨ t.dtype = 11) then t.elems else bytesElems c.dtype t.toBytes
  (if c.bos = noToken then [] else [c.bos]) ++ es ++ (if c.eos = noToken then [] else [c.eos])

/-- Places one position of a token-row part. -/
def placeDoc (c : PackCfg) (s : RowState) (p : PackPos) : RowState × Placed :=
  match p.content with
  | none => (s, ⟨filledFlag p, 0, 0, 0⟩)
  | some t =>
    let d := docTokens c t
    let of0 := filledFlag p + orientFlag p
    if s.full then (s, ⟨of0 + 8, d.length, 0, 0⟩)
    else
      let left := c.dimB - s.col
      let s1 : RowState :=
        if c.policy = 1 ∧ d.length ≤ c.dimB ∧ left < d.length then
          ⟨s.row + 1, 0, 0, s.cells ++ padCells c left, s.full⟩
        else s
      if c.dimA ≤ s1.row then
        if d = [] then (s1, ⟨of0, 0, 0, 0⟩) else ({ s1 with full := true }, ⟨of0 + 8, d.length, 0, 0⟩)
      else
        let (s2, k, rest) := placeRuns c (c.dimA + 1) s1 d
        let trunc := if rest = [] then 0 else 4
        let split := if 2 ≤ k then 16 else 0
        ({ s2 with full := s2.full || rest != [] },
          ⟨of0 + trunc + split, d.length, (s1.row % 65536) * 65536 + s1.col % 65536, d.length - rest.length⟩)

def placeDocs (c : PackCfg) : RowState → List PackPos → RowState × List Placed
  | s, [] => (s, [])
  | s, p :: ps =>
    let (s1, e) := placeDoc c s p
    let (s2, es) := placeDocs c s1 ps
    (s2, e :: es)

def padTo (k : Nat) (bs : List Byte) : List Byte := bs ++ zeros (alignUp k bs.length - bs.length)

/-- The token-row layout (R239). -/
def packTokens (c : PackCfg) (ps : List PackPos) : List Byte × List Placed × List Nat :=
  let (s, es) := placeDocs c ⟨0, 0, 0, [], false⟩ ps
  let cells := s.cells ++ padCells c (c.dimA * c.dimB - s.cells.length)
  let tok := padTo 64 (cells.flatMap (fun e => leBytes (dtypeBytes c.dtype) e.1))
  let seg := padTo 64 (cells.flatMap (fun e => leBytes 2 e.2.1))
  let pos := padTo 64 (cells.flatMap (fun e => leBytes 2 e.2.2))
  (tok ++ seg ++ pos, es, [c.dimA, c.dimB, 0, 0])

/-- The header of one record (R240); a sample without a shape is one dimension of bytes (assumption 26). -/
def recordHead (p : PackPos) : List Byte :=
  let dims := match p.content with
    | none => []
    | some t =>
      match t.shape with
      | .image => [t.h, t.w, t.c]
      | .array ds => ds
      | _ => [t.elems.length]
  let len := (p.content.map (·.byteLen)).getD 0
  let dt := (p.content.map (·.dtype)).getD 1
  leBytes 2 p.offset ++ leBytes 1 dt ++ leBytes 1 dims.length ++ leBytes 4 len
    ++ fitBytes 16 (dims.flatMap (leBytes 4)) ++ zeros 8

/-- The record layout (R240): the payload so far, records written, whether one passed OUT_BYTES.
(DEDUCED, assumption 26.) -/
def packRecords (c : PackCfg) : List Byte → Bool → List PackPos → List Byte × List Placed × Nat
  | acc, _, [] => (acc, [], 0)
  | acc, stop, p :: ps =>
    let body := (p.content.map (·.toBytes)).getD []
    let r := padTo 64 (recordHead p ++ body)
    let of0 := filledFlag p + orientFlag p
    if stop ∨ c.outBytes < 128 + acc.length + r.length then
      let (a, es, k) := packRecords c acc true ps
      (a, ⟨of0 + 8, 0, 0, 0⟩ :: es, k)
    else
      let (a, es, k) := packRecords c (acc ++ r) false ps
      (a, ⟨of0, 0, acc.length, body.length⟩ :: es, k + 1)

/-- Payload, side-band placements and dimensions of a part (R237, R239, R240). -/
def packPayload (c : PackCfg) (sliceSize : Nat) (ps : List PackPos) : List Byte × List Placed × List Nat :=
  if c.isImage then packImages c sliceSize ps
  else if c.layout = 3 then packTokens c ps
  else
    let (a, es, k) := packRecords c [] false ps
    (a, es, [k, 0, 0, 0])

/-- One side-band entry (R238). -/
def sidebandEntry (p : PackPos) (e : Placed) : List Byte :=
  leBytes 8 (p.g % 2 ^ 44 + (p.offset % 65536) * 2 ^ 44 + (p.attempt % 16) * 2 ^ 60)
    ++ leBytes 1 p.reason ++ leBytes 1 e.flags ++ leBytes 1 p.cls ++ leBytes 1 p.user
    ++ leBytes 4 e.source ++ leBytes 4 e.place ++ leBytes 4 e.placed ++ zeros 8

/-- A finished batch. -/
structure Batch where
  id : PartId
  samples : Nat
  filled : Nat
  rejected : Nat
  overflow : Nat
  digest : Nat
  cycles : Nat
  bytes : List Byte
  deriving DecidableEq, Repr

/-- The dimensions of an empty part: N or the record count is 0. (DEDUCED, assumption 100.) -/
def emptyDims (c : PackCfg) : List Nat :=
  if c.layout = 1 then [0, c.dimA, c.dimB, c.dimC]
  else if c.layout = 2 then [0, c.dimC, c.dimA, c.dimB]
  else if c.layout = 3 then [c.dimA, c.dimB, 0, 0] else [0, 0, 0, 0]

/-- BATCH_END: the batch of a part (R234, R235, R241). (DEDUCED, assumption 100.) -/
def closeBatch (c : PackCfg) (id : PartId) (rejected : Nat) (ps : List PackPos) : Batch :=
  let empty := ps.isEmpty
  let (payload, placed, dims) := if empty then ([], [], emptyDims c) else packPayload c id.sliceSize ps
  let spilt := placed.countP (fun e => bitOf e.flags 2 || bitOf e.flags 3)
  let filled := ps.countP (fun p => p.filled)
  let sbOfs := 128 + alignUp 64 payload.length
  let sbLen := alignUp 64 (32 * ps.length)
  let table := padTo 64 ((ps.zip placed).flatMap (fun e => sidebandEntry e.1 e.2))
  let body := padTo 64 payload ++ table
  let len := 128 + body.length
  let digest := rippleDigest body
  let flags := (if empty then 1 else 0) + (if 0 < spilt then 2 else 0)
    + (if c.isImage && c.slotMode == 1 then 4 else 0)
  let head := leBytes 4 0x48435442 ++ leBytes 2 1 ++ leBytes 1 c.layout ++ leBytes 1 c.dtype
    ++ leBytes 6 id.step ++ leBytes 1 id.rill ++ leBytes 1 id.slot ++ leBytes 2 id.slice ++ leBytes 2 id.device
    ++ leBytes 4 id.epoch ++ leBytes 8 (id.firstPos % 2 ^ 44) ++ leBytes 4 ps.length ++ leBytes 4 filled
    ++ leBytes 4 rejected ++ leBytes 4 spilt ++ dims.flatMap (leBytes 4) ++ leBytes 4 payload.length
    ++ leBytes 4 sbOfs ++ leBytes 4 sbLen ++ leBytes 4 len ++ leBytes 2 flags ++ zeros 6
    ++ fitBytes 8 id.weaveTag ++ leBytes 8 digest ++ zeros 20
  { id := id, samples := ps.length, filled := filled, rejected := rejected, overflow := spilt, digest := digest
    cycles := ceilDiv (len - 128) 16 + 64
    bytes := head ++ leBytes 4 (crc32c head) ++ body }

end Sys2Proof.Machine
end

