-- ==== Sys2Proof/Machine/Shuffle.lean ====
section
/-! DEFINITION. The shuffle and the step plans as data: the permutation (R111), catalogue entries (R108, R109),
step-plan images and their checks (R114 to R121), geometry (R116 to R119) and backfill draws (R128). -/
namespace Sys2Proof.Machine

/-- The six Feistel rounds of R111 on (L, R). -/
def feistelRound (key : Quad) (w mask r : Nat) (x : Nat × Nat) : Nat × Nat :=
  let f := (ripple (quadOf x.2 (0x20000000 + w * 256 + r) 0 0) key).w0.toNat % (mask + 1)
  (x.2, x.1 ^^^ f)

/-- One pass of six rounds over 2h bits. -/
def feistelPass (key : Quad) (w h x : Nat) : Nat :=
  let mask := 2 ^ h - 1
  let rd := feistelRound key w mask
  let (l, r) := rd 5 (rd 4 (rd 3 (rd 2 (rd 1 (rd 0 (x / 2 ^ h, x % 2 ^ h))))))
  l * 2 ^ h + r

/-- The smallest even width whose range covers N; at most 44 bits are ever needed (R111). -/
def widthFor (n : Nat) : Nat :=
  ((List.range 22).map (fun i => 2 * i + 2)).find? (fun w => decide (n ≤ 2 ^ w)) |>.getD 44

/-- The walk of R111 with at most `fuel` passes: the index and the passes made. -/
def walk (key : Quad) (w h n : Nat) : Nat → Nat → Nat → Nat × Nat
  | 0, x, passes => (x, passes)
  | fuel + 1, x, passes =>
    let y := feistelPass key w h x
    if y < n then (y, passes + 1) else walk key w h n fuel y (passes + 1)

/-- π at a position with the passes of its walk: a walk takes at most 2^w − N + 1 passes (R112). -/
def permWalk (p n : Nat) (key : Quad) : Nat × Nat :=
  let w := widthFor n
  walk key w (w / 2) n (2 ^ w - n + 1) p 0

/-- The sample index at position p (R111). -/
def perm (p n : Nat) (key : Quad) : Nat := (permWalk p n key).1

/-- A local catalogue entry (R108). -/
structure CatEntry where
  sector : Nat
  offset : Nat
  length : Nat
  codec : Nat
  cls : Nat
  user : Nat
  valid : Bool
  clean : Bool
  deriving DecidableEq, Repr

/-- The 16 bytes of a catalogue entry read as its fields; `clean` says that the reserved bits are zero. -/
def catEntryOf (bs : List Byte) : CatEntry where
  sector := leAt bs 0 6
  offset := leAt bs 6 2 % 4096
  length := leAt bs 8 4
  codec := leAt bs 12 1
  cls := leAt bs 13 1
  user := leAt bs 14 1
  valid := bitOf (leAt bs 15 1) 0
  clean := leAt bs 6 2 / 4096 == 0 && leAt bs 15 1 / 2 == 0

/-- The entry of a local index beyond the loaded entries: all zero bytes (R109). -/
def catEntryZero : CatEntry := ⟨0, 0, 0, 0, 0, 0, false, true⟩

/-- CODEC values that R108 does not reserve. -/
def codecKnown (c : Nat) : Bool := decide (c ≤ 0x0C) || (decide (0x80 ≤ c) && decide (c ≤ 0xFE))

/-- 64 MiB, the largest sample. -/
def maxSample : Nat := 2 ^ 26

/-- Whether the Sluice fetches the bytes of an entry (R109). -/
def CatEntry.fetchable (e : CatEntry) : Bool :=
  e.valid && e.clean && decide (1 ≤ e.length) && decide (e.length ≤ maxSample) && codecKnown e.codec

/-- A shard map entry (R115). -/
structure Shard where
  gFirst : Nat
  owner : Nat
  localBase : Nat
  clean : Bool
  deriving DecidableEq, Repr

def shardOf (bs : List Byte) : Shard where
  gFirst := leAt bs 0 8 % 2 ^ 44
  owner := bitsOf (leAt bs 0 8) 55 44
  localBase := leAt bs 8 4
  clean := leAt bs 0 8 / 2 ^ 56 == 0 && leAt bs 12 4 == 0

/-- A step plan (R114). -/
structure Plan where
  slot : Nat
  live : Bool
  domainSize : Nat
  emptyParts : Bool
  nextEpoch : Bool
  serve : List Nat
  seed : Nat
  epoch : Nat
  rillMask : Nat
  bfReserve : Nat
  source : Nat
  firstStep : Nat
  firstJ : Nat
  stepCount : Nat
  n : Nat
  nr : Nat
  sliceSize : Nat
  slices : Nat
  shards : List Shard
  deriving DecidableEq, Repr

/-- `n` entries of `k` bytes each from a list of bytes. -/
def chunksOf (k : Nat) : Nat → List Byte → List (List Byte)
  | 0, _ => []
  | n + 1, bs => bs.take k :: chunksOf k n (bs.drop k)

/-- The fields of a plan image, whatever they hold (R114). -/
def planOf (bs : List Byte) : Plan where
  slot := leAt bs 2 1
  live := leAt bs 3 1 == 1
  domainSize := leAt bs 4 2
  emptyParts := bitOf (leAt bs 7 1) 0
  nextEpoch := bitOf (leAt bs 7 1) 1
  serve := (List.range (min 4 (leAt bs 6 1))).map (fun i => leAt bs (8 + 2 * i) 2)
  seed := leAt bs 16 16
  epoch := leAt bs 32 4
  rillMask := leAt bs 36 2
  bfReserve := leAt bs 38 1
  source := leAt bs 39 1
  firstStep := leAt bs 40 6
  firstJ := leAt bs 48 6
  stepCount := leAt bs 56 6
  n := leAt bs 64 8
  nr := leAt bs 72 8
  sliceSize := leAt bs 80 4
  slices := leAt bs 84 2
  shards := (chunksOf 16 (min 65536 (leAt bs 88 4)) (bs.drop 128)).map shardOf

/-- Positions of a global batch (R116). -/
def Plan.b (p : Plan) : Nat := p.slices * p.sliceSize

/-- Steps of a STORED epoch (R116). -/
def Plan.epochSteps (p : Plan) : Nat := p.n / p.b

/-- The last step of a plan. -/
def Plan.lastStep (p : Plan) : Nat := p.firstStep + p.stepCount - 1

/-- Epoch step of a step (R116). -/
def Plan.j (p : Plan) (step : Nat) : Nat := p.firstJ + (step - p.firstStep)

/-- First position of a slice of a step, FIRST_POS of the batch header (R116, R234). -/
def Plan.firstPos (p : Plan) (step slice : Nat) : Nat := p.j step * p.b + slice * p.sliceSize

def Plan.key (p : Plan) : Quad := rippleKey p.seed p.epoch

/-- The shard entry that holds an index, with the first index past its range (R115). -/
def shardFind : List Shard → Nat → Nat → Option (Shard × Nat)
  | [], _, _ => none
  | [e], total, g => if e.gFirst ≤ g && decide (g < total) then some (e, total) else none
  | e :: e' :: es, total, g =>
    if e.gFirst ≤ g && decide (g < e'.gFirst) then some (e, e'.gFirst) else shardFind (e' :: es) total g

/-- The device number that owns an index (R115). -/
def Plan.ownerOf (p : Plan) (g : Nat) : Option Nat := (shardFind p.shards (p.n + p.nr) g).map (·.1.owner)

/-- The local catalogue entry of an index (R115). -/
def Plan.localOf (p : Plan) (g : Nat) : Option Nat :=
  (shardFind p.shards (p.n + p.nr) g).map (fun e => e.1.localBase + (g - e.1.gFirst))

/-- The reserve ranges of a device: first index and length of each, ascending (R128). -/
def reserveRanges (d n : Nat) : List Shard → Nat → List (Nat × Nat)
  | [], _ => []
  | e :: es, total =>
    let hi := match es with | [] => total | e' :: _ => e'.gFirst
    let lo := max e.gFirst n
    let rest := reserveRanges d n es total
    if e.owner = d ∧ lo < hi then (lo, hi - lo) :: rest else rest

/-- R_d, the reserve indices a device holds (R128). -/
def Plan.reserveCount (p : Plan) (d : Nat) : Nat :=
  ((reserveRanges d p.n p.shards (p.n + p.nr)).map (·.2)).sum

/-- The t-th index of ascending ranges. -/
def nthInRanges : List (Nat × Nat) → Nat → Option Nat
  | [], _ => none
  | (lo, k) :: rs, t => if t < k then some (lo + t) else nthInRanges rs (t - k)

/-- The backfill draw word w0 of attempt a at position p (R128). -/
def backfillWord (key : Quad) (pos a : Nat) : Nat :=
  (ripple (quadOf pos (0x30000000 + (a % 16) * 4096 + (pos / 2 ^ 32) % 4096) 0 0) key).w0.toNat

/-- The replacement of attempt a at position p for device d (R128). -/
def Plan.backfill (p : Plan) (pos a d : Nat) : Option Nat :=
  nthInRanges (reserveRanges d p.n p.shards (p.n + p.nr))
    (drawUniform (backfillWord p.key pos a) (p.reserveCount d))

/-- The Rills set in a mask, ascending. -/
def maskBitsOf (k mask : Nat) : List Nat := (List.range k).filter (fun i => bitOf mask i)

/-- The Rill of a slice: the (k mod M)-th set Rill (R119). -/
def Plan.rillOf (p : Plan) (slice : Nat) : Option Nat :=
  let rs := maskBitsOf 16 p.rillMask
  rs[slice % rs.length]?

/-- The offsets of a slice of a step that a served device owns, with their indices, ascending (R116, R117);
for a LIVE plan every offset, with the index of its position (R118). -/
def Plan.partSamples (p : Plan) (step slice d : Nat) : List (Nat × Nat) :=
  if p.live then
    (List.range p.sliceSize).map (fun o =>
      (o, p.n + ((step - p.firstStep) * p.b + slice * p.sliceSize + o)))
  else
    (List.range p.sliceSize).filterMap (fun o =>
      let g := perm (p.firstPos step slice + o) p.n p.key
      if p.ownerOf g = some d then some (o, g) else none)

/-- The served device numbers that make parts (R117, R118). -/
def Plan.partDevices (p : Plan) : List Nat := if p.live then p.serve.take 1 else p.serve

/-- Error codes of a refused arming task (R121). -/
def armFormat : Nat := 1
def armLate : Nat := 2
def armGeometry : Nat := 3
def armShardMap : Nat := 4
def armServe : Nat := 5
def armRills : Nat := 6
def armSource : Nat := 7
def armReplay : Nat := 8

/-- FORMAT (R121): version, slot, kind, reserved bits and bytes, fields that R114 gives as zero for the KIND,
and the image's length. -/
def planFormatBad (bs : List Byte) : Bool :=
  let live := leAt bs 3 1 == 1
  decide (bs.length < 128) || leAt bs 0 2 != 1 || decide (3 < leAt bs 2 1) || decide (1 < leAt bs 3 1)
  || decide (3 < leAt bs 7 1) || leAt bs 46 2 != 0 || leAt bs 54 2 != 0 || leAt bs 62 2 != 0
  || leAt bs 86 2 != 0 || leAt bs 92 36 != 0 || decide (7 < leAt bs 39 1)
  || (!live && leAt bs 39 1 != 0)
  || (live && (leAt bs 48 6 != 0 || leAt bs 72 8 != 0 || leAt bs 88 4 != 0))
  || bs.length != 128 + 16 * leAt bs 88 4
  || ((planOf bs).shards.any (fun e => !e.clean))

/-- GEOMETRY (R121, R118). -/
def planGeometryBad (bs : List Byte) : Bool :=
  let p := planOf bs
  decide (p.domainSize < 1) || decide (4096 < p.domainSize) || decide (15 < p.bfReserve)
  || decide (p.stepCount < 1) || decide (p.sliceSize < 1) || decide (65536 < p.sliceSize)
  || decide (p.slices < 1) || decide (4096 < p.slices)
  || decide (2 ^ 48 - 1 < p.lastStep)
  || (if p.live then
        decide (2 ^ 44 ≤ p.n) || decide (2 ^ 44 < p.n + p.stepCount * p.b)
      else
        decide (p.n < 1) || decide (leAt bs 88 4 < 1) || decide (65536 < leAt bs 88 4)
        || decide (p.n < p.b) || decide (2 ^ 44 < p.n) || decide (2 ^ 44 < p.n + p.nr)
        || decide (p.epochSteps < p.firstJ + p.stepCount))

/-- Whether shard entries ascend strictly from the given least G_FIRST, each range within the catalogue. -/
def shardsAscend (total domain : Nat) : Nat → List Shard → Bool
  | _, [] => true
  | least, e :: es =>
    let hi := match es with | [] => total | e' :: _ => e'.gFirst
    decide (least ≤ e.gFirst) && decide (e.gFirst < total) && decide (e.owner < domain)
    && decide (e.localBase + (hi - e.gFirst) ≤ 2 ^ 32) && shardsAscend total domain (e.gFirst + 1) es

/-- SHARD_MAP (R121). -/
def planShardBad (p : Plan) : Bool :=
  if p.live then false
  else
    (match p.shards with
     | [] => true
     | e :: _ => e.gFirst != 0 || !shardsAscend (p.n + p.nr) p.domainSize 0 p.shards)
    || p.serve.any (fun d => decide (2 ^ 32 < p.reserveCount d))

/-- Whether numbers ascend strictly. -/
def ascending : List Nat → Bool
  | [] => true
  | [_] => true
  | a :: b :: l => decide (a < b) && ascending (b :: l)

/-- SERVE (R121). -/
def planServeBad (bs : List Byte) : Bool :=
  let c := leAt bs 6 1
  let p := planOf bs
  decide (c < 1) || decide (4 < c) || p.serve.any (fun d => decide (p.domainSize ≤ d)) || !ascending p.serve
  || ((List.range 4).any (fun i => decide (c ≤ i) && leAt bs (8 + 2 * i) 2 != 0xFFFF))

/-- The implicit next-epoch successor of R124, where the plan has one without regard to pending plans. -/
def Plan.successor (p : Plan) : Option Plan :=
  if p.nextEpoch && !p.live && decide (p.firstJ + p.stepCount = p.epochSteps)
      && decide (p.epoch < 0xFFFFFFFF) && decide (p.lastStep + p.epochSteps ≤ 2 ^ 48 - 1) then
    some { p with epoch := p.epoch + 1, firstJ := 0, firstStep := p.lastStep + 1, stepCount := p.epochSteps }
  else none

end Sys2Proof.Machine
end

