-- ==== Sys2Proof/Machine/RillTypes.lean ====
section
/-! DEFINITION. The Cascade and the Sluice as data: samples with their release tags (R133), parts and rounds (R117,
R127), Rills with their sequencers and stages (R78), plan slots (R121 to R125) and fetches (R135, R136). -/
namespace Sys2Proof.Machine

/-- A release tag (R133), with the sample's CODEC. -/
structure Tag where
  slot : Nat
  step : Nat
  slice : Nat
  offset : Nat
  dev : Nat
  g : Nat
  attempt : Nat
  cls : Nat
  user : Nat
  codec : Nat
  deriving DecidableEq, Repr

/-- A sample on its way through a Rill: its tag, the reason it was rejected with (0: none), its content, the bytes it
had when it was released, and what a decoder says for the side-band entry (R238). `desc` is the frame descriptor of an
Inlet frame (R392) and `pixel` its pixel format, depth, width and height (R388); `bufs` are the Basin buffers that hold it, by pool and buffer number; `relCycle` is the
non-hold cycle at which the stage received it. -/
structure Item where
  tag : Tag
  reason : Nat
  content : Tensor
  inLen : Nat
  oriented : Bool
  codedW : Nat
  codedH : Nat
  desc : List Byte
  pixel : Option (Nat × Nat × Nat × Nat)
  bufs : List (Nat × Nat)
  relCycle : Nat
  deriving DecidableEq, Repr

/-- A stage that runs: its sample, its start cycle, the count that RUN_FIXED gives it, and the cycles it has waited for
cache lines (R296). -/
structure StageRun where
  item : Item
  start : Nat
  fixed : Option Nat
  stall : Nat
  deriving DecidableEq, Repr

/-- A stage of a Rill: inputs that wait, the sample it works on, the cycle at which it last ended. -/
structure StageSt where
  stage : Nat
  input : List Item
  run : Option StageRun
  endCycle : Nat
  deriving DecidableEq, Repr

/-- A binding of a stage's Reservoir port (R78, R79). -/
structure Binding where
  stage : Nat
  port : Nat
  bank : Nat
  word : Nat
  latency : Nat
  deriving DecidableEq, Repr

/-- A part (R117) as a Rill and the Sluice hold it: its identity, the plan that gives it, its own samples, the round
it stands in and the samples of that round not yet released, as offset and global index; `next` are the replacements drawn for the
round after it (R127, R130); `final` says that no round follows. -/
structure Part where
  slot : Nat
  step : Nat
  slice : Nat
  dev : Nat
  live : Bool
  epoch : Nat
  firstPos : Nat
  sliceSize : Nat
  reserve : Nat
  samples : List (Nat × Nat)
  round : Nat
  todo : List (Nat × Nat)
  next : List (Nat × Nat)
  final : Bool
  plan : Plan
  deriving DecidableEq, Repr

/-- The batch that a Rill makes of a part. -/
def Part.name (p : Part) (rill : Nat) : BatchName := ⟨rill, p.slot, p.step, p.slice, p.dev, p.epoch⟩

/-- How a Rill stands. -/
inductive RillMode where
  /-- it runs its schedule, or waits for its next part -/
  | running
  /-- a fault is pending; it stops at the batch boundary (R401) -/
  | stopping
  /-- stopped for recovery -/
  | stopped
  /-- stopped until an activation (R103) -/
  | dead
  deriving DecidableEq, Repr

/-- A fault pending on a Rill (R398, R401): its cause code, stage and detail. -/
structure RillFault where
  cause : Nat
  stage : Nat
  detail : Nat
  deriving DecidableEq, Repr

/-- A finished batch in its pinned output buffer, a chain of Basin buffers (R24, R320, R343), and the activation that
pinned it; the Pebble job that codes it, and the container it became, for a Pebble flow (R340). -/
structure ReadyBatch where
  batch : Batch
  buf : List (Nat × Nat)
  gen : Nat
  job : Option Nat
  coded : Option (List Byte)
  deriving DecidableEq, Repr

/-- One Rill: `faults` are the faults pending on it, the first first; `pc` and `cycle` are its sequencer's entry and non-hold cycle; `arrived` and `rejected` are the positions
placed so far and those rejected in this round, `history` every rejection of the part as offset and reason, newest
first; `timing` lists stage, offset, release cycle and stage cycles of the marked stages' samples, in order; `freeBufs` are the
pinned output buffers that are not with the Weir. -/
structure RillSt where
  mode : RillMode
  faults : List RillFault
  part : Option Part
  queue : List Part
  pc : Nat
  cycle : Nat
  holding : Bool
  stages : List StageSt
  binds : List Binding
  arrived : List PackPos
  rejected : List PackPos
  history : List (Nat × Nat)
  timing : List (Nat × Nat × Nat × Nat)
  freeBufs : List (List (Nat × Nat))
  ready : List ReadyBatch
  rebuilds : Nat
  deriving DecidableEq, Repr

def RillSt.reset : RillSt where
  mode := .running
  faults := []
  part := none
  queue := []
  pc := 0
  cycle := 0
  holding := false
  stages := []
  binds := []
  arrived := []
  rejected := []
  history := []
  timing := []
  freeBufs := []
  ready := []
  rebuilds := 0

/-- A sample accepted by a LIVE plan (R118): its index, bytes, release bytes and, for an Inlet frame, descriptor. -/
structure LiveSample where
  index : Nat
  codec : Nat
  cls : Nat
  user : Nat
  desc : List Byte
  pixel : Option (Nat × Nat × Nat × Nat)
  bytes : List Byte
  bufs : List (Nat × Nat)
  deriving DecidableEq, Repr

/-- One plan slot (R121 to R125). `plan` is the plan in effect with its image, `pending` the image of the pending
plan; `genStep` is the next step whose parts the Sluice has not yet listed; `begun` is the last step the slot has
begun to release; `accepted` counts the samples a LIVE plan has accepted. -/
structure PlanSlot where
  plan : Option (Plan × List Byte)
  pending : Option (List Byte)
  genStep : Nat
  begun : Option Nat
  accepted : Nat
  live : List LiveSample
  deriving DecidableEq, Repr

def PlanSlot.reset : PlanSlot := ⟨none, none, 0, none, 0, []⟩

/-- A fetch the Sluice has issued (R135 to R138): the part and position it is for, its catalogue entry, the sample's bytes as its units stood
at their lookup (R157), none where one is LOST, the units that it reads from flash with their pages, the flash operations that this takes
(R20), the Pebble job that expands a CODEC 0x0C sample and what its expansion came to (R338), and what has landed in Basin: `none` while it is
under way. -/
structure Fetch where
  rill : Nat
  slot : Nat
  step : Nat
  slice : Nat
  dev : Nat
  offset : Nat
  g : Nat
  attempt : Nat
  entry : CatEntry
  data : Option (List Byte)
  reads : List (Nat × FlashLoc)
  ops : Nat
  job : Option Nat
  whole : Option (Option Tensor)
  landed : Option Item
  deriving DecidableEq, Repr

/-- The Sluice: the local catalogue in Cistern (R108), the plan slots, the fetches, and the probe under way (R111). -/
structure SluiceSt where
  catalogue : List (Nat × CatEntry)
  slots : List PlanSlot
  fetches : List Fetch
  probe : Option (Nat × Nat)
  deriving DecidableEq, Repr

def SluiceSt.reset : SluiceSt := ⟨[], List.replicate 4 PlanSlot.reset, [], none⟩

end Sys2Proof.Machine
end

