-- ==== Sys2Proof/Machine/SundialTypes.lean ====
section
/-! DEFINITION. The Sundial and the Inlets as data (R375 to R393). Times are counts of 1/65,536 ns. -/
namespace Sys2Proof.Machine

/-- A Sync received on a PTP port: its sequence, receive stamp, and origin time once it is known (R383). -/
structure SyncSt where
  port : Nat
  seq : Nat
  rx : Nat
  deriving DecidableEq, Repr

/-- A delay measurement in flight on a port: sequence, own transmit stamp, and for peer delay the receive stamp of the
answer and the peer's receive stamp (R383). -/
structure DelaySt where
  port : Nat
  seq : Nat
  tx : Nat
  rx : Nat
  peerRx : Nat
  deriving DecidableEq, Repr

/-- The Sundial. `fine` is the time in units of 2^−40 of 1/65,536 ns; `good` and `bad` count consecutive offsets inside
the lock window and beyond the step threshold; `bare` says that a grandmaster was SET and no reference has appeared since (R381); `ppsOut` and
`ref10Out` are the levels of the output pins, none while they are high-impedance (R386); `hist` lists the frequency corrections of LOCKED time, newest first,
each with the ticks it held; `served` says that the Sundial has reached LOCKED or HOLDOVER. -/
structure SundialSt where
  fine : Nat
  good : Nat
  bad : Nat
  hist : List (Int × Nat)
  served : Bool
  ptp : List (Nat × PtpClock)
  partners : List (Nat × Nat × Nat)
  syncs : List SyncSt
  delays : List DelaySt
  meanDelay : List (Nat × Int)
  asCapable : List Nat
  requests : List (Nat × Nat × Nat)
  median : List (Nat × List Int)
  laneChange : List (Nat × Nat)
  seqs : List (Nat × Nat)
  intervals : List (Nat × Int)
  ppsLast : Option Nat
  stored : Option Int
  bare : Bool
  ppsOut : Option Bool
  ref10Out : Option Bool
  deriving DecidableEq, Repr

def SundialSt.reset : SundialSt where
  fine := 0
  good := 0
  bad := 0
  hist := []
  served := false
  ptp := []
  partners := []
  syncs := []
  delays := []
  meanDelay := []
  asCapable := []
  requests := []
  median := []
  laneChange := []
  seqs := []
  intervals := []
  ppsLast := none
  stored := none
  bare := false
  ppsOut := none
  ref10Out := none

/-- A frame under assembly on one stream of an Inlet (R389): its first packet, the sequence number that comes next, the
bytes kept and the bytes received, and whether it is within R388, has a gap, or is too long. -/
structure Assembly where
  stream : Nat
  first : AvtpPacket
  nextNum : Nat
  formatOk : Bool
  gap : Bool
  long : Bool
  rawLen : Nat
  payload : List Byte
  deriving DecidableEq, Repr

/-- A completed frame (R391): what was assembled, the arrival stamp, and whether it has been counted as truncated and as padded. -/
structure LiveFrame where
  assembly : Assembly
  arrival : Nat
  cut : Bool
  pad : Bool
  deriving DecidableEq, Repr

/-- One Inlet: frames under assembly, frames that wait in the order of their completion, and the sequence number that each stream's next packet
carries. -/
structure InletSt where
  assembly : List Assembly
  waiting : List LiveFrame
  seqs : List (Nat × Nat)
  deriving DecidableEq, Repr

def InletSt.reset : InletSt := ⟨[], [], []⟩

end Sys2Proof.Machine
end

