-- ==== Sys2Proof/Machine/WeirTypes.lean ====
section
/-! DEFINITION. The Weir and the Spouts as data beside their registers (R342 to R373). -/
namespace Sys2Proof.Machine

/-- What a member is owed of a batch in the pool. -/
inductive OweState where
  | owed | delivered | missed
  deriving DecidableEq, Repr

/-- One member of a batch (R368): its flow, the Spout that its record names, whether it has been offered the batch, and
whether the batch is too large for its slot (R350). -/
structure Owed where
  flow : Nat
  spout : Nat
  state : OweState
  tried : Bool
  size : Bool
  deriving DecidableEq, Repr

/-- A batch in the replay pool (R368 to R370): its number, its flow and FSN, its Rill and step, the bytes that go on the
wire and whether they are a Pebble container, its digest, its members, whether it waits for a STRICT set, whether its
outcome is settled, and what its completion record says of RESENT and POOL. -/
structure PoolBatch where
  id : Nat
  flow : Nat
  fsn : Nat
  rill : Nat
  step : Nat
  bytes : List Byte
  coded : Bool
  digest : Nat
  owed : List Owed
  strictWait : Bool
  settled : Bool
  resent : Bool
  pooled : Bool
  deriving DecidableEq, Repr

/-- A delivery of a batch to a member: the batch's number, whether it is RESENT, and the next frame to send. -/
structure Delivery where
  batch : Nat
  resent : Bool
  next : Nat
  deriving DecidableEq, Repr

/-- A frame that has been sent and not been acknowledged: its LSEQ or PSN, flow, batch, frame number, whether its
delivery is RESENT, and the frame as it left. -/
structure SentFrame where
  seq : Nat
  flow : Nat
  batch : Nat
  index : Nat
  resent : Bool
  out : Out
  deriving DecidableEq, Repr

/-- A flow as its Spout schedules it (R351, R356 to R366): finish tag, bucket in 1/256 frame, the RATE of the last
refill, whether it is parked by an RNR NAK, unreachable, in a CNP hold, or on its alternate, its next PSN, timeouts
in succession, deliveries to send, and unacknowledged packets in Ethernet mode. -/
structure FlowSt where
  finish : Nat
  tokens : Nat
  rate : Nat
  parked : Bool
  unreachable : Bool
  cnp : Bool
  onAlt : Bool
  psn : Nat
  timeouts : Nat
  queue : List Delivery
  unacked : List SentFrame
  deriving DecidableEq, Repr

def FlowSt.fresh : FlowSt := ⟨0, 0, 0, false, false, false, false, 0, 0, [], []⟩

/-- A Spout (R352 to R356, R363, R365): virtual time, next LSEQ, retry buffer, per endpoint the frames granted and used
since link up, the map epoch, and whether it has been up before. -/
structure SpoutSt where
  vtime : Nat
  lseq : Nat
  retry : List SentFrame
  credit : List (Nat × Nat × Nat)
  epoch : Nat
  wasUp : Bool
  deriving DecidableEq, Repr

def SpoutSt.fresh : SpoutSt := ⟨0, 0, [], [], 0, false⟩

/-- The Weir: the flow table and the group table as entry bytes (R345, R346), flows, ready sets of STRICT groups (R369),
Spouts, the replay pool (oldest first), the next batch number, the pool size in effect (R374), and the completion ring:
entries not released, PHASE, and records that wait (R373); and the Rills whose batch the pool has refused (R371). -/
structure WeirSt where
  flows : List (Nat × List Byte)
  groups : List (Nat × List Byte)
  tx : List (Nat × FlowSt)
  sets : List (Nat × List Nat)
  spouts : List SpoutSt
  pool : List PoolBatch
  nextId : Nat
  poolMib : Nat
  crHeld : Nat
  crPhase : Nat
  crWait : List (List Byte)
  refused : List Nat
  deriving DecidableEq, Repr

def WeirSt.reset : WeirSt where
  flows := []
  groups := []
  tx := []
  sets := []
  spouts := List.replicate 24 SpoutSt.fresh
  pool := []
  nextId := 0
  poolMib := 4096
  crHeld := 0
  crPhase := 1
  crWait := []
  refused := []

end Sys2Proof.Machine
end

