-- ==== Sys2Proof/Machine/State.lean ====
section
/-! DEFINITION. The state of the block, the reasons a step can stop, and the state after power-on reset. -/
namespace Sys2Proof.Machine

/-- The block's state: everything the spec gives it, as plain data. `free` numbers the free values. -/
structure State where
  /-- the commands that wait, first in first out -/
  pending : List Instr
  /-- every register entry that differs from its reset (R10, R12), in canonical form -/
  regs : List (RegKey × Word)
  /-- the selections of the select registers, per block and requester (R474) -/
  sel : List (Nat × Nat)
  /-- the words latched by low-word reads, per requester and entry (R476) -/
  latched : List (Nat × Option Word)
  /-- the staged high words of counter pairs, per requester and entry (R476) -/
  staged : List (Nat × Option Word)
  /-- what has left the block -/
  out : List Out
  /-- the model's own counter of free values -/
  free : Nat
  /-- the host interface -/
  host : HostSt
  /-- power, clocks and resets -/
  power : PowerSt
  /-- Reservoir, by byte address: bank × 256 KiB + byte (R188, R302), in canonical form -/
  reservoir : List Host.Cell
  /-- weave slots, loader and activation -/
  cascade : CascadeSt
  /-- the sixteen Rills -/
  rills : List RillSt
  /-- the Sluice with its plan slots and the local catalogue -/
  sluice : SluiceSt
  /-- the Mirror -/
  mirror : MirrorSt
  /-- the Weir and the Spouts -/
  weir : WeirSt
  /-- lock-step comparison -/
  lock : LockSt
  /-- the Sundial -/
  sundial : SundialSt
  /-- the two Inlets -/
  inlets : List InletSt
  /-- Basin and Reservoir beside their registers -/
  basin : BasinSt
  /-- Aquifer beside its registers -/
  aqf : AqfSt
  /-- Keeper, the warden and firmware -/
  svc : ServiceSt
  /-- Stillwater, watch units, trace, snapshots and loop-backs -/
  dbg : DebugSt
  /-- Pebble's jobs (R337, R341) -/
  pebble : PebbleSt
  /-- the vocabulary images of slots 0 to 3 (R286) -/
  vocabs : List (List Byte)
  /-- the cache partition of each Reed lane: its lines, the latest used first (R297) -/
  caches : List (List Nat)
  deriving DecidableEq, Repr

/-- Why a step stops with a fault: no command of the spec does, so there is no reason. -/
inductive Fault where
  deriving DecidableEq, Repr

/-- Why a command is refused. -/
inductive Refusal where
  /-- The command has no meaning in the model. Raised by `exec` alone. Safe. -/
  | notModelled (mnemonic : String)
  deriving DecidableEq, Repr

/-- The state after power-on reset: every register at its reset value, nothing loaded, armed, mounted or waiting.
(DESIGN CHOICE, assumption 1.) -/
def State.reset : State where
  pending := []
  regs := []
  sel := []
  latched := []
  staged := []
  out := []
  free := 0
  host := HostSt.reset
  power := PowerSt.reset
  reservoir := []
  cascade := CascadeSt.reset
  rills := List.replicate 16 RillSt.reset
  sluice := SluiceSt.reset
  mirror := MirrorSt.reset
  weir := WeirSt.reset
  lock := LockSt.reset
  sundial := SundialSt.reset
  inlets := List.replicate 2 InletSt.reset
  basin := BasinSt.reset
  aqf := AqfSt.reset
  svc := ServiceSt.reset
  dbg := DebugSt.reset
  pebble := PebbleSt.reset
  vocabs := List.replicate 4 []
  caches := List.replicate 16 []

end Sys2Proof.Machine
end

