-- ==== Sys2Proof/Machine/Ops.lean ====
section
/-! DEFINITION. The named operations over the state that every meaning is written with: register fields, counters,
events, outputs, free values, Reservoir bytes, Rills. -/
namespace Sys2Proof.Machine

/-- The stored word of a register entry. -/
def State.word (s : State) (r : Reg) (i : Nat) : Word := assocRead regOrd regDflt (r, i) s.regs

/-- The state with a register entry's stored word replaced; there is nothing to replace where the register has no entry
of that number. -/
def State.setWord (s : State) (r : Reg) (i : Nat) (w : Word) : State :=
  if i < r.entries then { s with regs := assocPut regOrd regDflt (r, i) w s.regs } else s

/-- The value of a field of entry `i`. -/
def State.geti (s : State) (f : Fld) (i : Nat) : Nat := f.get (s.word f.reg i)
/-- The value of a field of a single register. -/
def State.get (s : State) (f : Fld) : Nat := s.geti f 0
/-- Whether a one-bit field is 1. -/
def State.ison (s : State) (f : Fld) : Bool := s.get f == 1
def State.isoni (s : State) (f : Fld) (i : Nat) : Bool := s.geti f i == 1

/-- Hardware sets a field of entry `i`. -/
def State.puti (s : State) (f : Fld) (i v : Nat) : State := s.setWord f.reg i (f.set (s.word f.reg i) v)
/-- Hardware sets a field of a single register. -/
def State.put (s : State) (f : Fld) (v : Nat) : State := s.puti f 0 v
/-- Hardware sets an event bit (R12, W1C). -/
def State.ev (s : State) (f : Fld) : State := s.put f 1
def State.evi (s : State) (f : Fld) (i : Nat) : State := s.puti f i 1
def State.putb (s : State) (f : Fld) (b : Bool) : State := s.put f (if b then 1 else 0)

/-- A number in a pair of registers, low word first. -/
def State.pair (s : State) (lo hi : Reg) (i : Nat) : Nat := (s.word lo i).toNat + 2 ^ 32 * (s.word hi i).toNat
/-- Hardware sets a pair of registers. -/
def State.putPair (s : State) (lo hi : Reg) (i v : Nat) : State :=
  (s.setWord lo i (BitVec.ofNat 32 v)).setWord hi i (BitVec.ofNat 32 (v / 2 ^ 32))

/-- A counter field counts `n` more and saturates at all ones (R13). -/
def State.bumpi (s : State) (f : Fld) (i n : Nat) : State :=
  s.puti f i (min (s.geti f i + n) (2 ^ (f.hi + 1 - f.lo) - 1))
def State.bump (s : State) (f : Fld) (n : Nat) : State := s.bumpi f 0 n
/-- A 64-bit counter pair counts `n` more and saturates (R13, R14). -/
def State.bumpPair (s : State) (lo hi : Reg) (i n : Nat) : State :=
  s.putPair lo hi i (min (s.pair lo hi i + n) (2 ^ 64 - 1))

/-- Something leaves the block. (DESIGN CHOICE, assumption 19.) -/
def State.emit (s : State) (o : Out) : State := { s with out := s.out ++ [o] }

/-- Whether data writes carry Relaxed Ordering (R187). -/
def State.relaxed (s : State) : Bool := s.host.roAllowed && s.ison HIF_CTRL.RO_EN

/-- The next free value of open point `k`, below `n`, and the state that has used it. (DESIGN CHOICE, assumption 3.) -/
def State.fresh (s : State) (k n : Nat) : Nat × State :=
  (Config.freeNat k s.free % n, { s with free := s.free + 1 })

/-- What an unlisted Reservoir byte reads as: zero (assumption 2), or, in a bank that event `n` has left undefined, a free
value. -/
def memDflt (stale : List (Nat × Nat)) (a : Nat) : Byte :=
  match assocGet id (a / 262144) stale with
  | some n => Config.staleByte n a
  | none => 0#8

/-- A Reservoir byte. (DESIGN CHOICE, assumption 2.) -/
def State.rdByte (s : State) (a : Nat) : Byte := assocRead id (memDflt s.basin.stale) a s.reservoir
def State.wrByte (s : State) (a : Nat) (b : Byte) : State :=
  { s with reservoir := assocPut id (memDflt s.basin.stale) a b s.reservoir }
/-- Reservoir bytes from an address on. -/
def State.rdBytes (s : State) (a n : Nat) : List Byte := (List.range n).map (fun i => s.rdByte (a + i))
def State.wrBytes (s : State) : Nat → List Byte → State
  | _, [] => s
  | a, b :: bs => State.wrBytes (s.wrByte a b) (a + 1) bs

/-- A byte of the host-directed region of Cistern (R28): one that nothing has written is a free value. (DESIGN CHOICE, assumption 110.) -/
def State.rdRegion (s : State) (a : Nat) : Byte := assocRead id (Config.cisternByte s.basin.hostGen) a s.basin.hostMem
def State.rdRegionBytes (s : State) (a n : Nat) : List Byte := (List.range n).map (fun i => s.rdRegion (a + i))
def regionPut (gen : Nat) : List Host.Cell → Nat → List Byte → List Host.Cell
  | m, _, [] => m
  | m, a, b :: bs => regionPut gen (assocPut id (Config.cisternByte gen) a b m) (a + 1) bs
/-- The form of that region's store: offsets rising, no byte listed that an unlisted one reads as. -/
def regionWf (gen : Nat) (m : List Host.Cell) : Bool := assocWf id (Config.cisternByte gen) m
def State.wrRegion (s : State) (a : Nat) (bs : List Byte) : State :=
  { s with basin := { s.basin with hostMem := regionPut s.basin.hostGen s.basin.hostMem a bs } }

/-- The form of the Reservoir store: addresses rising, no byte listed that an unlisted one reads as. -/
def Memory.wf (stale : List (Nat × Nat)) (m : List Host.Cell) : Bool := assocWf id (memDflt stale) m

/-- The banks from a list are left undefined by a new event (R306, R449). -/
def State.loseBanks (s : State) (banks : List Nat) : State :=
  let n := s.free
  { s with
    free := n + 1
    reservoir := s.reservoir.filter (fun c => !banks.contains (c.1 / 262144))
    basin := { s.basin with
      stale := banks.foldl (fun l b => assocIns id b n (assocDel id b l)) s.basin.stale } }
/-- The form of the register store. -/
def regsWf (l : List (RegKey × Word)) : Bool := assocWf regOrd regDflt l

/-- A Rill; every number names one of the sixteen, by its low four bits. -/
def State.rill (s : State) (r : Nat) : RillSt := s.rills.getD r RillSt.reset
def State.setRill (s : State) (r : Nat) (x : RillSt) : State := { s with rills := putAt r x s.rills }
def State.modRill (s : State) (r : Nat) (f : RillSt → RillSt) : State := { s with rills := modAt f r s.rills }

/-- A plan slot. -/
def State.slot (s : State) (k : Nat) : PlanSlot := s.sluice.slots.getD k PlanSlot.reset
def State.modSlot (s : State) (k : Nat) (f : PlanSlot → PlanSlot) : State :=
  { s with sluice := { s.sluice with slots := modAt f k s.sluice.slots } }

/-- The active weave. -/
def State.weave? (s : State) : Option Weave :=
  ((s.cascade.slots.find? (fun w => w.state == .active)).bind (·.weave))

/-- A software write of a whole register: every field under its access code (R12). (DESIGN CHOICE, assumption 106.) -/
def State.swWrite (s : State) (r : Reg) (i : Nat) (w : Word) : State := s.setWord r i (r.swWrite (s.word r i) w)

/-- The DATA cores (R403). -/
def State.coreRole (s : State) (c : Nat) : Nat := bitsOf (s.get SVC_CORE.ROLES) (2 * c + 1) (2 * c)
def State.coresOf (s : State) (role : Nat) : List Nat := (List.range 16).filter (fun c => s.coreRole c == role)

/-- A written word with a field clamped to a range. -/
def Fld.clampTo (f : Fld) (lo hi : Nat) (w : Word) : Word := f.set w (max lo (min hi (f.get w)))

/-- The word that a write stores where the register's table clamps values outside a field's range. (DEDUCED, assumption 125.) -/
def Reg.clampWord (r : Reg) (w : Word) : Word :=
  match r with
  | .AQF_CKPT => AQF_CKPT.HORIZON_GIB.clampTo 16 1024 w
  | .SDL_PPS => SDL_PPS.WIDTH_US.clampTo 1 500000 w
  | .SVC_WDT => SVC_WDT.BG_MS.clampTo 1 10000 (SVC_WDT.DATA_US.clampTo 2 1000 w)
  | .PWR_LIMIT => PWR_LIMIT.TJ_TARGET.clampTo 60 105 (PWR_LIMIT.POWER_W.clampTo 100 440 w)
  | _ => w

/-- Whether a written word gives a command field as 1. -/
def Fld.cmd (f : Fld) (w : Word) : Bool := f.get w == 1

/-- Folds an operation over the numbers 0 to n − 1. -/
def State.each (s : State) (n : Nat) (f : Nat → State → State) : State :=
  (List.range n).foldl (fun s i => f i s) s

/-- Appends an entry to the fault log (R425): catalogue row, cause, instance, step; at most 4,096, newest last.
(DESIGN CHOICE, assumption 17.) -/
def State.logFault (s : State) (row cause inst step : Nat) : State :=
  let e := leBytes 8 (s.power.uptime / 200) ++ leBytes 1 row ++ leBytes 1 cause ++ leBytes 2 inst ++ leBytes 6 step ++ zeros 14
  let l := s.svc.log ++ [e]
  { s with svc := { s.svc with log := l.drop (l.length - 4096) } }

end Sys2Proof.Machine
end

