-- ==== Sys2Proof/Machine/BarOps.lean ====
section
/-! DEFINITION. How a register access meets the power states and the resets (R217, R461, R466). -/
namespace Sys2Proof.Machine

/-- A wake source fires (R217, R458): it is remembered until the exit to P0 completes; in P0 nothing happens. -/
def State.wake (s : State) (bit : Nat) : State :=
  if s.power.state = 0 then s else { s with power := { s.power with waking := setBit s.power.waking bit } }

/-- The blocks that are served in every power state (R217). -/
def Blk.served (b : Blk) : Bool :=
  match b with
  | .hif | .task | .glb | .pwr | .svc => true
  | _ => false

/-- Whether software reaches a register: its domain is not held in reset (R461, R462). (DEDUCED, assumption 12.) -/
def State.reachable (s : State) (r : Reg) : Bool :=
  !s.power.porHeld && (r.place.dom == .poweron || s.power.resetPhase != .held)

/-- An access is held, and wakes the device (R217). (DEDUCED, assumption 10.) -/
def State.holdAccess (s : State) (rq : Requester) (k : HeldKind) : State :=
  let s := s.wake 1
  ({ s with power := { s.power with held := s.power.held ++ [HeldAccess.mk rq k] } }).emit (.held rq)

/-- Whether an access to a register is held now. (DEDUCED, assumption 10.) -/
def State.holds (s : State) (r : Reg) : Bool := s.power.state != 0 && !r.place.blk.served

/-- A write of one register entry as software makes it: its effect `f`, unless the register is in reset, or the device sleeps
and holds the write. -/
def State.viaReg (s : State) (rq : Requester) (r : Reg) (i : Nat) (w : Word) (f : State → State) : State :=
  if s.reachable r = false then s
  else if s.holds r then s.holdAccess rq (.entry r i w)
  else f s

end Sys2Proof.Machine
end

