-- ==== Sys2Proof/Machine/Flags.lean ====
section
/-! DEFINITION. The event flags and the cause tree (R192, R470, R477, R478): summaries, vectors, and the MSI-X
messages they signal. -/
namespace Sys2Proof.Machine

/-- The cause bit a block's events belong to (R477); TST has none. -/
def Blk.cause : Blk → Option Nat
  | .hif | .task => some 0
  | .glb => some 1
  | .csc => some 2
  | .slu => some 3
  | .aqf | .nfc => some 4
  | .mir => some 5
  | .bsn | .rsv => some 6
  | .jet => some 7
  | .dec => some 8
  | .reed => some 9
  | .pbl => some 10
  | .weir => some 11
  | .spt => some 12
  | .inl => some 13
  | .sdl => some 14
  | .svc => some 15
  | .dbg => some 16
  | .pwr => some 17
  | .tst => none

/-- Whether a register entry holds an event bit at 1. -/
def entryEvent (e : RegKey × Word) : Bool := (e.2 &&& e.1.1.accMask .w1c) != 0#32

/-- The summary of a cause bit: the OR of every W1C field of its blocks, over all instances (R477). Every W1C field
resets to 0, so only listed entries can hold one. -/
def State.summary (s : State) (c : Nat) : Bool :=
  s.regs.any (fun e => e.1.1.place.blk.cause == some c && entryEvent e)

/-- The summary of one Spout (R477). -/
def State.spoutSummary (s : State) (k : Nat) : Bool :=
  s.regs.any (fun e => e.1.1.place.blk == .spt && e.1.1.place.perInst && e.1.2 == k && entryEvent e)

/-- GLB_CAUSE and GLB_SPT_CAUSE as they read. -/
def State.causeWord (s : State) : Nat :=
  (List.range 18).foldl (fun n c => if s.summary c then n + 2 ^ c else n) 0
def State.spoutCauseWord (s : State) : Nat :=
  (List.range 24).foldl (fun n c => if s.spoutSummary c then n + 2 ^ c else n) 0

/-- The vectors of the tree: the blocks' 8 to 19 and 44 to 48, and 20 to 43 for the Spouts (R192, R477). -/
def vectorOf (c : Nat) : Nat := if c < 12 then 8 + c else if c = 12 then 20 else 31 + c

/-- Whether a block's enabled summary is 1; the Spouts' is judged per Spout. -/
def State.enabled (s : State) (c : Nat) : Bool := bitOf (s.get GLB_INT_EN.BLOCKS) c && s.summary c
def State.spoutEnabled (s : State) (k : Nat) : Bool :=
  bitOf (s.get GLB_INT_EN.BLOCKS) 12 && bitOf (s.get GLB_SPT_INT_EN.SPOUTS) k && s.spoutSummary k

/-- A word of the MSI-X table; the vector control words reset to masked. (PRESUMED, assumption 14.) -/
def msixDflt (i : Nat) : Nat := if i % 4 = 3 then 1 else 0
def State.msixWord (s : State) (i : Nat) : Nat := assocRead id msixDflt i s.host.msixTable

/-- Signals a vector: its message where the vector is unmasked, else its pending bit (R187, R470).
(PRESUMED, assumption 14.) -/
def State.signal (s : State) (v : Nat) : State :=
  if s.msixWord (4 * v + 3) % 2 = 0 then
    s.emit (.msix v (s.msixWord (4 * v) + 2 ^ 32 * s.msixWord (4 * v + 1)) (s.msixWord (4 * v + 2)))
  else { s with host := { s.host with pba := setBit s.host.pba v } }

/-- The enabled vectors of the tree that stand at 1. (DEDUCED, assumption 18.) -/
def State.raised (s : State) : List Nat :=
  ((List.range 18).filter (fun c => c != 12 && s.enabled c)).map vectorOf
    ++ ((List.range 24).filter s.spoutEnabled).map (20 + ·)

/-- Ends a command: every vector whose enabled summary has risen is signalled (R477). (DEDUCED, assumption 18.) -/
def finish (before after : State) : State :=
  let old := before.raised
  (after.raised.filter (fun v => !old.contains v)).foldl State.signal after

end Sys2Proof.Machine
end

