-- ==== Sys2Proof/Machine/Pools.lean ====
section
/-! DEFINITION. The pools of Basin as they stand: totals, minima, occupancy, thresholds and BSN_STATUS (R310 to R315). -/
namespace Sys2Proof.Machine

/-- Buffer sizes (R310). -/
def poolSize (p : Nat) : Nat := 256 * 4 ^ (min p 7)

/-- Buffers of a pool (R310, R311): pool 7 is as large as BSN_CPOOL sets it. -/
def State.poolTotal (s : State) (p : Nat) : Nat :=
  if p = 7 then 256 * max 1 (min 16 (s.get BSN_CPOOL.SIZE_GIB))
  else if p = 6 then s.geti BSN_POOL_BANKS.COUNT 6 / 4
  else s.geti BSN_POOL_BANKS.COUNT p * (1024 / 4 ^ p)

/-- A client's reserved minimum in a pool (R313). -/
def State.poolMin (s : State) (c p : Nat) : Nat := if c = 0 then 0 else s.geti BSN_MIN.MIN (c * 8 + p)
def State.sumMin (s : State) (p : Nat) : Nat := ((List.range 10).map (fun c => s.poolMin c p)).sum

/-- Buffers of a pool that a client holds, and that are in use. -/
def State.heldBy (s : State) (c p : Nat) : Nat := s.basin.grants.countP (fun g => g.client == c && g.pool == p)
def State.poolUsed (s : State) (p : Nat) : Nat := s.basin.grants.countP (fun g => g.pool == p)

/-- The shared part of a pool, and how much of it is in use: what each client holds beyond its minimum (R313, R314). -/
def State.sharedTotal (s : State) (p : Nat) : Nat := s.poolTotal p - s.sumMin p
def State.sharedUsed (s : State) (p : Nat) : Nat :=
  ((List.range 10).map (fun c => s.heldBy c p - s.poolMin c p)).sum
def State.sharedFree (s : State) (p : Nat) : Nat := s.sharedTotal p - s.sharedUsed p

/-- A pool's occupancy (R314). -/
def State.occupancy (s : State) (p : Nat) : Nat :=
  if s.poolTotal p = 0 then 0
  else if s.sharedTotal p = 0 then 100
  else 100 * s.sharedUsed p / s.sharedTotal p

/-- Whether a pool has reached a threshold; a value above 100 acts as 100, and a pool without buffers reaches none
(R314, R324). -/
def State.reached (s : State) (f : Fld) (p : Nat) : Bool :=
  decide (0 < s.poolTotal p) && decide (min 100 (s.geti f p) ≤ s.occupancy p)

/-- EXHAUSTED: the pool has buffers but no free shared buffer (R314). -/
def State.exhausted (s : State) (p : Nat) : Bool := decide (0 < s.poolTotal p) && s.sharedFree p == 0

def poolMask (f : Nat → Bool) : Nat := (List.range 8).foldl (fun n p => if f p then n + 2 ^ p else n) 0

/-- BSN_STATUS as it reads. -/
def State.basinStatus (s : State) : Nat :=
  poolMask s.exhausted + 2 ^ 8 * poolMask (s.reached BSN_POOL_THR.WARN)
    + 2 ^ 16 * poolMask (s.reached BSN_POOL_THR.BP) + 2 ^ 24 * poolMask (s.reached BSN_POOL_THR.RSV_ONLY)

end Sys2Proof.Machine
end

