-- ==== Sys2Proof/Machine/SundialOps.lean ====
section
/-! DEFINITION. Sundial time: its forms (R375), its advance (R376), and the offset servo (R378 to R380). -/
namespace Sys2Proof.Machine

/-- One second in 1/65,536 ns. -/
def oneSecond : Nat := 65536 * 1000000000

/-- Sundial time in 1/65,536 ns. -/
def State.time (s : State) : Nat := s.sundial.fine / 2 ^ 40

/-- A cycle of the 200 MHz always-on clock. -/
def tickUnits : Nat := 327680

/-- The stamp of an event (R376, R499): the running Sundial time, with the part of the clock's cycle that had passed at the event, which the phase
interpolator gives. -/
def State.stamp (s : State) (phase : Nat) : Nat := s.time + phase % tickUnits

/-- The short form of a time (R375). -/
def timeShort (t : Nat) : List Byte :=
  leBytes 2 (t % 65536) ++ leBytes 4 (t / 65536 % 1000000000) ++ leBytes 6 (t / oneSecond)

/-- The full form of the time now (R375, R499). -/
def State.timeFull (s : State) : List Byte :=
  timeShort s.time ++ leBytes 2 (s.get SDL_UTC.UTC_OFFSET) ++ leBytes 1 (s.get SDL_STATUS.STATE) ++ leBytes 1 0

/-- The time that a short form spells. -/
def timeOf (bs : List Byte) : Nat := leAt bs 0 2 + 65536 * leAt bs 2 4 + oneSecond * leAt bs 6 6

/-- SDL_FREQ as a signed number, in units of 2^−40. -/
def State.freq (s : State) : Int := toSigned 32 (s.get SDL_FREQ.FREQ)
def State.setFreq (s : State) (f : Int) : State := s.put SDL_FREQ.FREQ (ofSigned 32 f)

/-- The limit of the frequency correction, 500 ppm (R379), in units of 2^−40. -/
def freqLimit : Int := 549755813

/-- The segments of a history that make up its newest `n` ticks. -/
def newest : Nat → List (Int × Nat) → List (Int × Nat)
  | _, [] => []
  | n, (f, k) :: l => if n ≤ k then [(f, n)] else (f, k) :: newest (n - k) l

/-- 64 s of ticks of the always-on clock. -/
def holdTicks : Nat := 64 * 200000000

/-- The mean frequency correction of the last 64 s of LOCKED time (R379). -/
def SundialSt.meanFreq (d : SundialSt) : Option Int :=
  let l := newest holdTicks d.hist
  let n := (l.map (·.2)).sum
  if n = 0 then none else some ((l.map (fun e => e.1 * (e.2 : Int))).sum / (n : Int))

/-- States of R378. -/
def sdlFreeRun : Nat := 0
def sdlAcquire : Nat := 1
def sdlLocked : Nat := 2
def sdlHoldover : Nat := 3

/-- The role that SDL_CTRL.ROLE gives: the reserved code acts as one of the others (R377, R396). (DESIGN CHOICE, assumption 11.) -/
def State.sdlRole (s : State) : Nat :=
  let r := s.get SDL_CTRL.ROLE
  if r = 3 then Config.reservedRole % 3 else r

def State.serves (s : State) : Bool := s.get SDL_STATUS.STATE == 2 || s.get SDL_STATUS.STATE == 3

/-- INL_STATUS.TIME_LOCK of both Inlets follows the Sundial and the port (R391); its fall is an event. -/
def State.showTimeLock (s : State) : State :=
  s.each 2 (fun i s =>
    let was := s.isoni INL_STATUS.TIME_LOCK i
    let now := s.serves && s.isoni INL_STATUS.AS_CAPABLE i
    let s := s.puti INL_STATUS.TIME_LOCK i (if now then 1 else 0)
    if was && !now then s.evi INL_EVENT.LOCK_LOST i else s)

/-- The Sundial enters a state (R378), with the events of LOCKED and HOLDOVER; HOLDOVER keeps the mean correction of LOCKED time, or the stored estimate
where there is none yet (R379). HOPS are those of R384.
(DEDUCED, assumption 77.) -/
def State.enterSdl (s : State) (st : Nat) : State :=
  let was := s.get SDL_STATUS.STATE
  if was = st then s
  else
    let s := s.put SDL_STATUS.STATE st
    let s := if st = 2 then s.ev SDL_EVENT.LOCK else if st = 3 then s.ev SDL_EVENT.HOLDOVER else s
    let s := if st = 3 then s.setFreq ((s.sundial.meanFreq.or s.sundial.stored).getD s.freq) else s
    let s := { s with sundial := { s.sundial with
      good := 0, bad := 0, served := s.sundial.served || st == 2 || st == 3 } }
    s.showTimeLock

/-- A stamp moved by a step of time. -/
def moved (d : Int) (t : Nat) : Nat := ((t : Int) + d).toNat

/-- Time moves by a signed count of 1/65,536 ns; kept stamps move with it, and measurements under way are given up. -/
def State.stepTime (s : State) (d : Int) : State :=
  { s with sundial := { s.sundial with
    fine := ((s.sundial.fine : Int) + d * (2 ^ 40 : Nat)).toNat
    ppsLast := s.sundial.ppsLast.map (moved d)
    laneChange := s.sundial.laneChange.map (fun e => (e.1, moved d e.2))
    requests := [], syncs := [], delays := [] } }

/-- The magnitude of an offset. -/
def absOf (x : Int) : Nat := x.natAbs

/-- One offset measurement of the source, local less source (R378 to R380). The loop's next frequency correction is
not stated by the spec: it is a free value within ±500 ppm. -/
def State.measured (s : State) (offset : Int) : State :=
  let s := s.put SDL_OFFSET.OFFSET (ofSigned 32 (clampInt (-(2 ^ 31)) (2 ^ 31 - 1) offset))
  let stepUnits := 65536 * 1000 * max 1 (s.get SDL_SERVO.STEP_US)
  let lockUnits := 65536 * max 1 (s.get SDL_SERVO.LOCK_NS)
  let big := decide (stepUnits < absOf offset)
  let st := s.get SDL_STATUS.STATE
  let s := if st = 0 ∨ st = 3 then s.enterSdl 1 else s
  let s := { s with sundial := { s.sundial with
    good := if absOf offset ≤ lockUnits then s.sundial.good + 1 else 0
    bad := if big then s.sundial.bad + 1 else 0 } }
  let (f, s) := s.fresh 0 (2 * freqLimit.toNat + 1)
  let s := s.setFreq ((f : Int) - freqLimit)
  let st := s.get SDL_STATUS.STATE
  if st = 1 then
    if big then (s.stepTime (-offset)).ev SDL_EVENT.STEP
    else if 16 ≤ s.sundial.good then s.enterSdl 2 else s
  else if 4 ≤ s.sundial.bad then s.enterSdl 1
  else s

/-- One cycle of the always-on clock (R376): time advances by 5 ns, corrected by SDL_FREQ; LOCKED time is kept in the
history of R379. -/
def State.tickTime (s : State) : State :=
  let add : Int := 327680 * ((2 ^ 40 : Nat) + s.freq)
  let f := s.freq
  let hist :=
    if s.get SDL_STATUS.STATE = 2 then
      match s.sundial.hist with
      | (g, k) :: l => if g = f then (g, k + 1) :: l else (f, 1) :: (g, k) :: l
      | [] => [(f, 1)]
    else s.sundial.hist
  { s with sundial := { s.sundial with fine := ((s.sundial.fine : Int) + add).toNat, hist := hist } }

end Sys2Proof.Machine
end

