-- ==== Sys2Proof/Machine/Operands.lean ====
section
/-! DEFINITION. The operand forms of a register access (R468 to R476): which entries an offset names, how an access is
judged, and how a violation is reported. -/
namespace Sys2Proof.Machine

/-- The place in its family at which a register lies at an offset. -/
def RegPlace.at? (p : RegPlace) (off : Nat) : Option Nat :=
  if off < p.base then none
  else
    let d := off - p.base
    let k := if p.stride = 0 then 0 else d / p.stride
    let rest := if p.stride = 0 then d else d % p.stride
    let k2 := if p.stride2 = 0 then 0 else rest / p.stride2
    let rest2 := if p.stride2 = 0 then rest else rest % p.stride2
    if k < p.rep ∧ k2 < p.rep2 ∧ rest2 = 0 then some (k * p.rep2 + k2) else none

/-- The register at a word offset of BAR0 or BAR2, and its place in its family (R469). -/
def regAt (bar off : Nat) : Option (Reg × Nat) :=
  allRegs.findSome? (fun r =>
    if r.place.bar = bar then (r.place.at? off).map (fun k => (r, k)) else none)

/-- Whether an offset of BAR2 lies in the MSI-X table or in the pending-bit array (R470). -/
def msixAt (bar off : Nat) : Bool :=
  bar == 2 && ((decide (0xC000 ≤ off) && decide (off < 0xC400)) || (decide (0xD000 ≤ off) && decide (off < 0xD008)))

/-- Requesters and select registers by number. (DEDUCED, assumption 13.) -/
def reqCode : Requester → Nat
  | .host => 0
  | .keeper => 1
  | .jtag => 2

def selReg : SelBlock → Reg
  | .nfc => .NFC_SEL
  | .jet => .JET_SEL
  | .reed => .REED_SEL
  | .dec => .DEC_SEL
  | .rsv => .RSV_SEL
  | .spt => .SPT_SEL
  | .inl => .INL_SEL

/-- The select block of a register block (R468). -/
def Blk.sel? : Blk → Option SelBlock
  | .nfc => some .nfc
  | .jet => some .jet
  | .reed => some .reed
  | .dec => some .dec
  | .rsv => some .rsv
  | .spt => some .spt
  | .inl => some .inl
  | _ => none

def Reg.isSelect (r : Reg) : Option SelBlock :=
  match r.place.blk.sel? with
  | some b => if selReg b = r then some b else none
  | none => none

/-- The instances of a block (R468). -/
def selCount : SelBlock → Nat
  | .nfc => 32
  | .jet => 68
  | .reed => 20
  | .dec => 76
  | .rsv => 1024
  | .spt => 24
  | .inl => 2

def selKey (b : SelBlock) (rq : Requester) : Nat := b.ctorIdx * 3 + reqCode rq
/-- A requester's selection (R474); 0 after reset. -/
def State.selOf (s : State) (b : SelBlock) (rq : Requester) : Nat := assocRead id (fun _ => 0) (selKey b rq) s.sel
def State.setSel (s : State) (b : SelBlock) (rq : Requester) (inst : Nat) : State :=
  { s with sel := assocPut id (fun _ => 0) (selKey b rq) inst s.sel }

/-- The entry number of a register's instance and place in its family. -/
def entryOf (r : Reg) (k inst : Nat) : Nat := if r.place.perInst then k * 1024 + inst else k

/-- Whether an instance has a register of its block at all: the packer registers belong to instances 60 to 75 of DEC,
the vocabulary registers to instances 16 to 19 of REED, the lane registers to 0 to 15. Of the Basin registers, pool 7 has
no bank range, client 0 no minima, and clients 0 and 3 no SPILL. -/
def hasEntry (r : Reg) (k inst : Nat) : Bool :=
  match r with
  | .DEC_PK_BATCHES | .DEC_PK_FILLED | .DEC_PK_OVERFLOW | .DEC_PK_DIGEST_LO | .DEC_PK_DIGEST_HI | .DEC_PK_STEP_LO
  | .DEC_PK_STEP_HI => decide (60 ≤ inst)
  | .REED_VOCAB_STATE | .REED_VOCAB_ERR | .REED_VOCAB_TAG_LO | .REED_VOCAB_TAG_HI => decide (16 ≤ inst)
  | .REED_STATUS | .REED_EVENT | .REED_SAMPLES | .REED_REJECTS | .REED_TOKENS_LO | .REED_TOKENS_HI | .REED_MISSES
  | .REED_STALL_LO | .REED_STALL_HI | .REED_ESCAPES | .REED_STOPS | .REED_LAST_REJECT => decide (inst < 16)
  | .BSN_POOL_BANKS => k != 7
  | .BSN_MIN => decide (8 ≤ k)
  | .BSN_CLIENT_CFG => k != 0 && k != 3
  | _ => true

/-- The instances that an access of a requester to a register reaches (R474, R475). -/
def State.targets (s : State) (rq : Requester) (r : Reg) : List Nat :=
  if r.place.perInst then
    match r.place.blk.sel? with
    | some b => let i := s.selOf b rq; if i = 0xFFFF then List.range (selCount b) else [i]
    | none => [0]
  else [0]

/-- The latch key of a requester and an entry. (DESIGN CHOICE, assumption 107.) -/
def latchKey (rq : Requester) (k : RegKey) : Nat := reqCode rq * 2 ^ 32 + regOrd k

def State.latchOf (s : State) (rq : Requester) (k : RegKey) : Option Word :=
  assocRead id (fun _ => none) (latchKey rq k) s.latched
def State.setLatch (s : State) (rq : Requester) (k : RegKey) (w : Word) : State :=
  { s with latched := assocPut id (fun _ => none) (latchKey rq k) (some w) s.latched }
def State.stagedOf (s : State) (rq : Requester) (k : RegKey) : Option Word :=
  assocRead id (fun _ => none) (latchKey rq k) s.staged
def State.setStaged (s : State) (rq : Requester) (k : RegKey) (w : Option Word) : State :=
  { s with staged := assocPut id (fun _ => none) (latchKey rq k) w s.staged }

/-- The words an access touches. -/
def wordsOf (off size : Nat) : List Nat :=
  (List.range ((off + size + 3) / 4 - off / 4)).map (fun i => 4 * (off / 4 + i))

/-- Whether an access is one aligned 32-bit word, or an aligned 64-bit access to the MSI-X structures (R470, R471). -/
def widthOk (bar off size : Nat) : Bool :=
  (size == 4 && off % 4 == 0) || (msixAt bar off && size == 8 && off % 8 == 0)

/-- The judgement of a BAR0 or BAR2 access (R471): 0 where nothing is violated, else the lowest reason. -/
def State.judge (s : State) (rq : Requester) (bar off size : Nat) (write : Option Word) : Nat :=
  if (wordsOf off size).any (fun o => (regAt bar o).isNone && !msixAt bar o) then 1
  else if !widthOk bar off size then 2
  else
    match regAt bar off with
    | none => 0
    | some (r, k) =>
      match write with
      | none =>
        if r.place.perInst && (r.place.blk.sel?.map (fun b => s.selOf b rq)) == some 0xFFFF then 3 else 0
      | some w =>
        if (s.targets rq r).any (fun inst => r.rwoAgain (s.word r (entryOf r k inst)) w) then 4
        else
          match r.isSelect with
          | some b =>
            let inst := (⟨r, 15, 0⟩ : Fld).get w
            if inst < selCount b ∨ inst = 0xFFFF then 0 else 5
          | none => 0

/-- Latches or counts a violation (R472). -/
def State.violation (s : State) (rq : Requester) (bar off size : Nat) (write : Bool) (reason : Nat) : State :=
  if s.get GLB_VIOL_INFO.VALID = 0 then
    let s := s.setWord .GLB_VIOL_ADDR 0 (BitVec.ofNat 32 off)
    let s := s.setWord .GLB_VIOL_INFO 0 0#32
    let s := (s.put GLB_VIOL_INFO.VALID 1).put GLB_VIOL_INFO.BAR (bar / 2)
    let s := (s.putb GLB_VIOL_INFO.WRITE write).put GLB_VIOL_INFO.REASON reason
    (s.put GLB_VIOL_INFO.REQUESTER (reqCode rq)).put GLB_VIOL_INFO.BYTES size
  else s.bump GLB_VIOL_COUNT.COUNT 1

/-- The answer to a violating access (R471). -/
def violationAnswer (rq : Requester) (write : Bool) (reason : Nat) : Option Out :=
  match rq, write with
  | .host, true => some (.aer reason)
  | .host, false => some (.readError .host (if reason = 1 then .unsupported else .abort))
  | .keeper, true => none
  | .keeper, false => some (.readError .keeper .busError)
  | .jtag, true => none
  | .jtag, false => some (.readError .jtag .jtagError)

/-- A violating access: it changes nothing but the violation registers, and is answered (R471, R472). -/
def State.refuseAccess (s : State) (rq : Requester) (bar off size : Nat) (write : Bool) (reason : Nat) : State :=
  let s := s.violation rq bar off size write reason
  match violationAnswer rq write reason with
  | some o => s.emit o
  | none => s

end Sys2Proof.Machine
end

