-- ==== Sys2Proof/Machine/HostOps.lean ====
section
/-! DEFINITION. Operations of the host interface: BUSY and its causes (R194, R195), the queues, the
task entry and its checks (R197 to R203), the order of tasks (R204, R205), and how a task ends. -/
namespace Sys2Proof.Machine

/-- Sets or clears a cause of BUSY (R195); a fall of BUSY is reported (R194). -/
def State.setBusy (s : State) (f : Fld) (b : Bool) : State :=
  let was := s.ison TASK_STATUS.BUSY
  let s := s.putb f b
  let now := s.ison TASK_STATUS.KEEPER || s.ison TASK_STATUS.ACTIVATION || s.ison TASK_STATUS.BACKPRESSURE
    || s.ison TASK_STATUS.RESET
  let s := s.putb TASK_STATUS.BUSY now
  if was && !now then s.ev HIF_EVENT.BUSY_CLEAR else s

/-- A queue's own positions. -/
def State.queue (s : State) (q : Nat) : QueueSt := s.host.queues.getD q ⟨0, 0, 0, false⟩
def State.modQueue (s : State) (q : Nat) (f : QueueSt → QueueSt) : State :=
  { s with host := { s.host with queues := modAt f q s.host.queues } }

/-- Ring sizes: a log outside 4 to 12 acts as the nearer limit (R219). -/
def ringSize (log : Nat) : Nat := 2 ^ (max 4 (min 12 log))
def State.sqSize (s : State) (q : Nat) : Nat := ringSize (s.geti TASK_Q_SIZE.SQ_LOG2 q)
def State.cqSize (s : State) (q : Nat) : Nat := ringSize (s.geti TASK_Q_SIZE.CQ_LOG2 q)
def State.sqBase (s : State) (q : Nat) : Nat := s.pair .TASK_SQ_BASE_LO .TASK_SQ_BASE_HI q
def State.cqBase (s : State) (q : Nat) : Nat := s.pair .TASK_CQ_BASE_LO .TASK_CQ_BASE_HI q

/-- The function's Type 0 header (R187): its revision is that of the device. -/
def State.cfgHeader (s : State) : CfgHeader := ⟨0x1D9F, 0x9216, s.get GLB_ID_LO.STEP, 0x120000, 0, 0⟩

/-- The report that AER makes of a failed read (R187). -/
def State.reportRead (s : State) (reason : Nat) : State :=
  if reason = 3 then s.emit (.aerReport .completionTimeout)
  else if reason = 4 then s.emit (.aerReport .poisoned) else s

/-- A failed access to host memory: reported, and the first since DMA_ERR was cleared is latched (R187, R196, R203, R219). -/
def State.dmaError (s : State) (addr q tag reason : Nat) : State :=
  let s := s.reportRead reason
  if s.ison HIF_EVENT.DMA_ERR then s
  else
    let s := s.putPair .HIF_DMA_ERR_ADDR_LO .HIF_DMA_ERR_ADDR_HI 0 addr
    let s := (s.put HIF_DMA_ERR_INFO.TAG tag).put HIF_DMA_ERR_INFO.QUEUE q
    (s.put HIF_DMA_ERR_INFO.REASON reason).ev HIF_EVENT.DMA_ERR

/-- The tasks, and one of them. -/
def State.task? (s : State) (t : Nat) : Option Task := s.host.tasks.find? (fun x => x.id == t)
def State.modTask (s : State) (t : Nat) (f : Task → Task) : State :=
  { s with host := { s.host with tasks := s.host.tasks.map (fun x => if x.id = t then f x else x) } }
def State.setTasks (s : State) (l : List Task) : State := { s with host := { s.host with tasks := l } }

/-- The tasks in flight: those that owe a completion entry (R196). -/
def State.inFlight (s : State) : List Task := s.host.tasks.filter (fun t => !t.silent)

/-- TASK_STATUS.INFLIGHT and HIF_LOCKS show what the tasks hold (R205, R219). -/
def State.showTasks (s : State) : State :=
  let used := s.host.tasks.countP (fun t => t.locked)
  let s := s.put TASK_STATUS.INFLIGHT s.inFlight.length
  let s := s.put HIF_LOCKS.USED used
  s.put HIF_LOCKS.HIGH (max used (s.get HIF_LOCKS.HIGH))

/-- The task flags (R197). -/
def Task.ordered (t : Task) : Bool := bitOf t.flags 0
def Task.atomic (t : Task) : Bool := bitOf t.flags 1
def Task.fua (t : Task) : Bool := bitOf t.flags 2
def Task.fence (t : Task) : Bool := bitOf t.flags 3
def Task.sgl (t : Task) : Bool := bitOf t.flags 4

/-- Extent tasks, which claim a range-lock entry (R205). -/
def Task.isExtent (t : Task) : Bool := t.opcode == 1 || t.opcode == 2 || t.opcode == 3

/-- The flags an opcode allows (R199); none for a reserved opcode. -/
def opFlags : Nat → Option Nat
  | 0x00 => some 0x09
  | 0x01 => some 0x19
  | 0x02 => some 0x1F
  | 0x03 => some 0x0D
  | 0x04 => some 0x09
  | 0x05 => some 0x19
  | 0x10 => some 0x08
  | 0x11 => some 0x08
  | 0x12 => some 0x09
  | 0x13 => some 0x19
  | 0x14 => some 0x19
  | 0x15 => some 0x09
  | 0x20 => some 0x09
  | 0x21 => some 0x00
  | 0x22 => some 0x08
  | 0x23 => some 0x08
  | 0x24 => some 0x09
  | 0x25 => some 0x09
  | 0x28 => some 0x00
  | 0x29 => some 0x00
  | 0x2A => some 0x08
  | _ => none

/-- The service tasks (R199). -/
def isService (op : Nat) : Bool := [0x00, 0x04, 0x12, 0x20, 0x21, 0x22, 0x23, 0x25, 0x28, 0x29, 0x2A].contains op

/-- The tasks whose ADDR is unused and must be zero (R197, R199). -/
def noBuffer (t : Task) : Bool :=
  [0x00, 0x03, 0x04, 0x11, 0x21, 0x22, 0x23, 0x28].contains t.opcode || (t.opcode == 0x2A && t.target == 2)

/-- Whether COUNT and TARGET lie in the ranges of R199, R200 and R425. -/
def rangesOk (t : Task) : Bool :=
  let c := t.count
  let g := t.target
  match t.opcode with
  | 0x00 | 0x04 | 0x11 | 0x21 | 0x22 | 0x23 => c == 0 && g == 0
  | 0x01 | 0x02 => decide (1 ≤ c) && decide (c ≤ 65536) && decide (g < 2 ^ 48)
  | 0x03 => decide (1 ≤ c) && decide (g < 2 ^ 48)
  | 0x05 => decide (1 ≤ c) && decide (c ≤ 2 ^ 26) && g == 0
  | 0x10 => c == 320 && g == 0
  | 0x12 => decide (1 ≤ c) && decide (c ≤ 4096)
  | 0x13 => decide (1 ≤ c) && decide (g + c ≤ 2 ^ 32)
  | 0x14 => decide (1 ≤ c) && decide (g < 4)
  | 0x15 => decide (1 ≤ c) && g == 0
  | 0x20 => c % 4096 == 0 && decide (4096 ≤ c) && decide (c ≤ 2 ^ 20) && g % 4096 == 0 && decide (g + c ≤ 2 ^ 25)
  | 0x24 => decide (c ≤ 4096)
  | 0x25 => true
  | 0x28 => c == 0 && (g == 0 || g == 3)
  | 0x29 => decide (g < 3)
  | 0x2A => (g == 0 && c == 64) || (g == 1 && c == 96) || (g == 2 && c == 0)
  | _ => false

/-- Whether the operand bytes are those of R200 for INJECT, and zero for every other opcode (R197). -/
def operandsZero (t : Task) : Bool :=
  if t.opcode = 0x05 then decide (leAt t.operands 0 1 < 4) && allZero (t.operands.drop 4) else allZero t.operands

/-- Check 1 of R203. (DEDUCED, assumption 53.) -/
def entryOk (bs : List Byte) (t : Task) : Bool :=
  match opFlags t.opcode with
  | none => false
  | some m =>
    (t.flags ||| m) == m && leAt bs 28 4 == 0 && rangesOk t && operandsZero t
    && (if t.sgl then decide (1 ≤ t.sglCount) && decide (t.sglCount ≤ 4096) && t.addr % 16 == 0
        else t.sglCount == 0 && t.addr % 4 == 0)
    && (!noBuffer t || t.addr == 0)

/-- Whether a queue holds a task that has not been fetched. -/
def State.queued (s : State) (q : Nat) : Bool :=
  s.isoni TASK_Q_STATUS.RUNNING q && s.geti TASK_SQ_HEAD.HEAD q != s.geti TASK_SQ_TAIL.TAIL q

/-- The sectors Aquifer exports (R186). -/
def State.capSectors (s : State) : Nat := s.pair .AQF_CAP_LO .AQF_CAP_HI 0

/-- The checks of R203, in their order: the status of the first that fails; once the power-loss sequence runs, extent
tasks complete with NOT_READY (R170, R171). (DEDUCED, assumption 53.) -/
def State.checkTask (s : State) (bs : List Byte) (t : Task) : Option Nat :=
  if !entryOk bs t then some 0x0020
  else if s.ison SVC_STATUS.SETTINGS_SAFE ∧ isService t.opcode = false then some 0x0070
  else if (t.isExtent ∨ t.opcode = 0x04 ∨ t.opcode = 0x13) ∧ s.get AQF_STATUS.READY = 0 then some 0x0010
  else if t.isExtent ∧ s.ison AQF_STATUS.PF then some 0x0010
  else if t.isExtent ∧ s.capSectors < t.target + t.count then some 0x0021
  else if t.atomic ∧ 64 < t.count then some 0x0031
  else if (t.opcode = 2 ∨ t.opcode = 3) ∧ s.ison AQF_STATUS.READ_ONLY then some 0x0030
  else none

/-- The task that an entry describes (R197), fetched by queue `q` with the head then at `head`. -/
def taskOf (bs : List Byte) (id q head : Nat) : Task where
  id := id
  queue := q
  opcode := leAt bs 0 1
  flags := leAt bs 1 1
  tag := leAt bs 2 2
  count := leAt bs 4 4
  target := leAt bs 8 8
  addr := leAt bs 16 8
  sglCount := leAt bs 24 4
  operands := (bs.drop 32).take 32
  sg := []
  sqHead := head
  locked := false
  started := false
  progress := 0
  landed := []
  short := false
  prior := none
  done := none
  silent := false

/-- Whether two extent tasks overlap with an exclusive entry on either side (R205). (DEDUCED, assumption 50.) -/
def locksClash (a b : Task) : Bool :=
  a.locked && b.locked && (a.opcode != 1 || b.opcode != 1)
  && decide (a.target < b.target + b.count) && decide (b.target < a.target + a.count)

/-- Whether every earlier task that a task must follow has completed (R204): for ORDERED the earlier ORDERED tasks of
its queue, for FENCE all earlier ones of its queue, and every earlier FENCE task of its queue. Tasks stand in the order
of their fetch. (DEDUCED, assumption 51.) -/
def State.inTurn (s : State) (t : Task) : Bool :=
  (s.inFlight.filter (fun x => decide (x.id < t.id) && x.queue == t.queue)).all
    (fun x => !(t.fence || x.fence || (t.ordered && x.ordered)))

/-- The tasks that run in Keeper firmware, and those that run in the warden (R199). -/
def keeperTask (op : Nat) : Bool := [0x10, 0x11, 0x12, 0x14, 0x20, 0x24, 0x25, 0x29].contains op
def wardenTask (op : Nat) : Bool := [0x21, 0x22, 0x23, 0x2A].contains op

/-- Whether what runs a task is there (R32, R209, R407). -/
def State.runnerUp (s : State) (op : Nat) : Bool :=
  (!keeperTask op || s.ison HIF_STATUS.KEEPER_UP) && (!wardenTask op || !s.svc.wardenDown)

/-- Whether a task may start (R204, R205, R209, R215). -/
def State.mayStart (s : State) (t : Task) : Bool :=
  t.done.isNone && !t.started && s.inTurn t && s.runnerUp t.opcode
  && (s.host.tasks.filter (fun x => decide (x.id < t.id))).all (fun x => !locksClash x t)

/-- A task ends with a status and a result; its completion entry is still to be written (R206).
(DEDUCED, assumption 51.) -/
def State.endTask (s : State) (t status result : Nat) : State :=
  s.modTask t (fun x => { x with started := true, done := some (status, result) })

/-- An atomic write that ends before all of it entered staging writes nothing (R156, R203, R211, R213): its units leave
staging. -/
def State.dropPartial (s : State) : State :=
  { s with aqf := { s.aqf with staging := s.aqf.staging.filter (fun u =>
      u.seen || (s.host.tasks.any (fun t => some t.id == u.task && t.done.isNone))) } }

/-- Whether a task runs, or may start, and what runs it is there (R204, R205, R209). -/
def State.mayRun (s : State) (t : Task) : Bool :=
  t.done.isNone && s.runnerUp t.opcode && (t.started || s.mayStart t)

/-- Runs `f` on a task of the given opcode that runs or may start; a task that is not there, is another, or must wait,
changes nothing (assumption 8). -/
def State.runTask (s : State) (t opcode : Nat) (f : Task → State → State) : State :=
  match s.task? t with
  | some x => if x.opcode = opcode ∧ s.mayRun x then f x (s.modTask t (fun y => { y with started := true })) else s
  | none => s

/-- The bus address of byte `n` of a buffer that a scatter list describes (R198). -/
def sgAddr : List (Nat × Nat) → Nat → Nat
  | [], n => n
  | [(a, _)], n => a + n
  | (a, k) :: rest, n => if n < k then a + n else sgAddr rest (n - k)

/-- The bus address of byte `n` of a task's buffer (R197, R198). -/
def Task.addrAt (t : Task) (n : Nat) : Nat := if t.sgl then sgAddr t.sg n else t.addr + n

/-- What a task that ends on a failed access has done (R203): the sectors written, or the entries loaded. -/
def Task.failedResult (t : Task) : Nat := if (t.opcode = 2 ∧ t.atomic = false) ∨ t.opcode = 0x13 then t.progress else 0

/-- Ends a task whose read of byte `n` of its source failed (R203). (DEDUCED, assumption 54.) -/
def State.sourceFailed (s : State) (t : Task) (n reason result : Nat) : State :=
  (s.dmaError (t.addrAt n) t.queue t.tag reason).endTask t.id 0x0030 result

/-- Takes what a task has read of its source: all of it goes to `f`; after a failed access the task ends, and while less has
arrived it goes on (R203). (DEDUCED, assumption 54.) -/
def State.onSource (s : State) (t : Task) (r : HostRead) (f : List Byte → State → State) : State :=
  match r.fail with
  | some reason => s.sourceFailed t r.bytes.length reason 0
  | none => if r.bytes.length = t.count then f r.bytes s else s

/-- The registers of a vocabulary slot. -/
def vocabInst (slot : Nat) : Nat := 16 + slot

/-- A vocabulary slot takes a state, an error code, and a tag and number of entries. -/
def State.showVocab (s : State) (slot state err entries tag : Nat) : State :=
  let i := vocabInst slot
  let s := (s.puti REED_VOCAB_STATE.STATE i state).puti REED_VOCAB_STATE.ENTRIES i entries
  (s.puti REED_VOCAB_ERR.ERR i err).putPair .REED_VOCAB_TAG_LO .REED_VOCAB_TAG_HI i tag

def State.setVocab (s : State) (slot : Nat) (img : List Byte) : State := { s with vocabs := putAt slot img s.vocabs }

/-- What a vocabulary slot shows: STATE, ERR, ENTRIES and the tag. -/
def State.slotShows (s : State) (slot : Nat) : Nat × Nat × Nat × Nat :=
  let i := vocabInst slot
  (s.geti REED_VOCAB_STATE.STATE i, s.geti REED_VOCAB_ERR.ERR i, s.geti REED_VOCAB_STATE.ENTRIES i,
    s.pair .REED_VOCAB_TAG_LO .REED_VOCAB_TAG_HI i)

/-- The source of a VOCAB_LOAD that had begun has failed (R203): its slot is FAILED (R286). What ERR reads then is not stated: a
free value. (DESIGN CHOICE, assumption 83.) -/
def State.vocabFailed (s : State) (t : Task) : State :=
  if t.opcode = 0x14 ∧ t.prior.isSome then
    let (err, s) := s.fresh 13 256
    (s.setVocab t.target []).showVocab t.target 3 err 0 0
  else s

/-- A VOCAB_LOAD that had begun ends without effect (R211, R215): its slot is as it was. -/
def State.vocabUndone (s : State) (t : Task) : State :=
  match t.prior with
  | some (st, err, entries, tag) => if t.opcode = 0x14 then s.showVocab t.target st err entries tag else s
  | none => s

/-- Bytes a task moves to or from host memory (R198, R199). -/
def Task.bytes (t : Task) : Nat :=
  if t.opcode = 1 ∨ t.opcode = 2 then 4096 * t.count else if t.opcode = 0x13 then 16 * t.count else t.count

/-- The entries of a scatter list. -/
def sgOf : Nat → List Byte → List (Nat × Nat × Nat)
  | 0, _ => []
  | n + 1, bs => (leAt bs 0 8, leAt bs 8 4, leAt bs 12 4) :: sgOf n (bs.drop 16)

/-- Whether a scatter list breaks R198. -/
def sgBad (t : Task) (list : List Byte) : Bool :=
  let es := sgOf t.sglCount list
  list.length != 16 * t.sglCount || es.any (fun e => e.2.1 == 0 || e.2.1 % 4 != 0 || e.2.2 != 0)
  || (es.map (·.2.1)).sum != t.bytes

/-- A data write of host memory (R187). -/
def State.dataWrite (s : State) (addr : Nat) (bs : List Byte) : State := s.emit (.hostWrite addr bs s.relaxed)

/-- Writes bytes that start `ofs` bytes into a task's buffer: in order through its scatter list. -/
def deliverSg (s : State) : List (Nat × Nat) → Nat → List Byte → State
  | [], _, _ => s
  | (a, n) :: rest, ofs, bs =>
    if bs = [] then s
    else if n ≤ ofs then deliverSg s rest (ofs - n) bs
    else deliverSg (s.dataWrite (a + ofs) (bs.take (n - ofs))) rest 0 (bs.drop (n - ofs))

/-- Delivers bytes to a task's buffer, `ofs` bytes into it: at ADDR, or through the scatter list (R197, R198).
(DEDUCED, assumption 54.) -/
def State.deliver (s : State) (t : Task) (ofs : Nat) (bs : List Byte) : State :=
  if bs = [] then s
  else if t.sgl then deliverSg s t.sg ofs bs
  else s.dataWrite (t.addr + ofs) bs

end Sys2Proof.Machine
end

