-- ==== Sys2Proof/Machine/BasinOps.lean ====
section
/-! DEFINITION. Basin's operations: what a change of the pools shows (R137, R315), grants and frees (R313 to R319),
bank owners and violations (R305 to R307). -/
namespace Sys2Proof.Machine

/-- What a change of the pools shows (R137, R315): WARN on each rise, back-pressure to the host from pool 3, and the
Sluice's two status bits. -/
def showBasin (before s : State) : State :=
  let rise := poolMask (fun p => s.reached BSN_POOL_THR.WARN p && !before.reached BSN_POOL_THR.WARN p)
  let s := s.put BSN_EVENT.WARN (s.get BSN_EVENT.WARN ||| rise)
  let s := s.putb SLU_STATUS.THROTTLED ((List.range 8).any (s.reached BSN_POOL_THR.BP))
  let s := s.putb SLU_STATUS.HEAD_ONLY ((List.range 8).any (s.reached BSN_POOL_THR.RSV_ONLY))
  s.setBusy TASK_STATUS.BACKPRESSURE (s.reached BSN_POOL_THR.BP 3)

/-- The numbers of a pool's buffers that nobody holds. -/
def State.freeNumbers (s : State) (p : Nat) : List Nat :=
  (List.range (s.poolTotal p)).filter (fun b => !s.basin.grants.any (fun g => g.pool == p && g.buffer == b))

/-- Gives a client one buffer of a pool. Which free buffer it is the spec does not state: a free value. -/
def State.grant (s : State) (c p : Nat) : State × Nat :=
  let l := s.freeNumbers p
  let (k, s) := s.fresh 2 (max 1 l.length)
  let b := l.getD k 0
  ({ s with basin := { s.basin with grants := s.basin.grants ++ [⟨c, p, b⟩] } }, b)

/-- Whether a request of a client for a buffer of a pool is granted, judged alone (R313, R315, R316): from its reserve
below its minimum, else from the shared part unless the pool serves reserves only. -/
def State.mayGrant (s : State) (c p : Nat) : Bool :=
  decide (s.poolUsed p < s.poolTotal p)
  && (decide (s.heldBy c p < s.poolMin c p)
      || (decide (0 < s.sharedFree p) && (c == 0 || !s.reached BSN_POOL_THR.RSV_ONLY p)))

/-- One request of a client (R316, R317): a buffer, or NONE, which is counted. -/
def State.ask (s : State) (c p : Nat) : State × Option Buf :=
  if s.mayGrant c p then
    let (t, b) := s.grant c p
    (t, some (p, b))
  else (s.bump BSN_NONE.COUNT 1, none)

/-- The pool that a client asks after NONE (R318): the next larger one under SPILL, up to pool 7. The Sluice and PIN always ask the same pool. -/
def State.nextPool (s : State) (c p : Nat) : Nat :=
  if s.isoni BSN_CLIENT_CFG.SPILL c ∧ c ≠ 0 ∧ c ≠ 3 then min 7 (p + 1) else p

/-- A buffer for a client that begins with pool `p` and asks on as its SPILL allows (R318); `n` more pools may be asked. -/
def State.takeBuf (s : State) (c p : Nat) : Nat → State × Option Buf
  | 0 => s.ask c p
  | n + 1 =>
    match s.ask c p with
    | (t, some b) => (t, some b)
    | (t, none) => if s.nextPool c p = p then (t, none) else t.takeBuf c (s.nextPool c p) n

/-- Frees buffers of a client (R317). -/
def State.freeBufs (s : State) (c : Nat) (l : List Buf) : State :=
  { s with basin := { s.basin with
    grants := s.basin.grants.filter (fun g => !(g.client == c && l.contains (g.pool, g.buffer))) } }

/-- Takes `n` buffers for a client that begins with pool `p`, all or none: what it got of a chain goes back where one is answered NONE.
(DESIGN CHOICE, assumption 123.) -/
def State.takeBufs (s : State) (c p : Nat) : Nat → State × Option (List Buf)
  | 0 => (s, some [])
  | n + 1 =>
    match s.takeBuf c p 7 with
    | (t, none) => (t, none)
    | (t, some b) =>
      match t.takeBufs c p n with
      | (u, some l) => (u, some (b :: l))
      | (u, none) => (u.freeBufs c [b], none)

/-- The client whose buffers hold the units of READ_EXTENT tasks, and the pool it begins with (R312). -/
def hostRead : Nat := 5
/-- The client whose buffers hold the units of WRITE_EXTENT tasks before they enter staging (R312). -/
def hostWrite : Nat := 6
/-- The client whose buffers hold the blocks of Pebble's jobs (R312, R337). -/
def pebbleClient : Nat := 7
/-- The client whose buffers hold the units that Aquifer folds, relocates or rebuilds (R312). -/
def aquiferClient : Nat := 8
def unitPool : Nat := 3

/-- Does what needs one unit's buffer of a client, which is given back at once after it (R312, R317); without a buffer nothing is done. -/
def State.withUnit (s : State) (c : Nat) (f : State → State) : State :=
  match s.takeBuf c unitPool 7 with
  | (t, none) => t
  | (t, some b) =>
    let u := f (showBasin s t)
    showBasin u (u.freeBufs c [b])

/-- The units of READ_EXTENT tasks that leave Basin unsent give their buffers back (R210, R213). -/
def State.dropLanded (s : State) (l : List Task) : State :=
  showBasin s (s.freeBufs hostRead (l.flatMap (fun t => t.landed.map (·.2))))

/-- Latches a Basin violation (R319). -/
def State.basinViolation (s : State) (c p b reason : Nat) : State :=
  if s.ison BSN_VIOL_INFO.VALID then s
  else
    let s := ((s.put BSN_VIOL_INFO.POOL p).put BSN_VIOL_INFO.CLIENT c).put BSN_VIOL_INFO.REASON reason
    ((s.put BSN_VIOL_INFO.BUFFER b).put BSN_VIOL_INFO.VALID 1).ev BSN_EVENT.VIOL

/-- The pool and the number of buffers for a sample of `n` bytes: the smallest pool that fits, or a chain of pool 7
(R110). -/
def placeFor (n : Nat) : Nat × Nat :=
  match (List.range 8).find? (fun p => decide (n ≤ poolSize p)) with
  | some p => (p, 1)
  | none => (7, ceilDiv n (poolSize 7))

/-- The banks of a Reservoir pool's range (R311). -/
def State.poolBanks (s : State) (p : Nat) : List Nat :=
  if p = 7 then [] else (List.range (s.geti BSN_POOL_BANKS.COUNT p)).map (s.geti BSN_POOL_BANKS.FIRST p + ·)

/-- Owner classes (R306). -/
def clsKeeper : Nat := 0
def clsRill : Nat := 1
def clsSluice : Nat := 2
def clsSpout : Nat := 3
def clsHost : Nat := 4
def State.ownerClass (s : State) (bank : Nat) : Nat := s.geti RSV_OWNER.CLASS bank

/-- An engine's access to a bank it may not reach (R307): the first is latched. -/
def State.bankViolation (s : State) (cls number bank w : Nat) : State :=
  if s.ison RSV_VIOL.VALID then s
  else
    let s := ((s.put RSV_VIOL.CLASS cls).put RSV_VIOL.NUMBER number).put RSV_VIOL.BANK bank
    (s.put RSV_VIOL.WORD w).put RSV_VIOL.VALID 1

/-- The Basin buffer that a word of a SLUICE bank lies in (R310, R311): the pool whose range has the bank, and the buffer's number
there. -/
def State.bufferAt (s : State) (bank w : Nat) : Option Buf :=
  ((List.range 7).find? (fun p => (s.poolBanks p).contains bank)).map (fun p =>
    (p, ((bank - s.geti BSN_POOL_BANKS.FIRST p) * 262144 + w * 64) / poolSize p))

/-- The buffers that an engine may reach in SLUICE banks (R307): those granted to it, those that the Sluice has released to it with a
sample, and those pinned to it; the Weir holds the packer buffers that a packer has handed to it. -/
def State.reachableBufs (s : State) (e : BankEngine) : List Buf :=
  match e with
  | .rill n =>
    let x := s.rill n
    x.stages.flatMap (fun g => g.input.flatMap (·.bufs) ++ (g.run.map (·.item.bufs)).getD []) ++ x.freeBufs.flatMap id
  | .weir => s.rills.flatMap (fun x => x.ready.flatMap (·.buf))
  | .client c => (s.basin.grants.filter (fun g => g.client == c)).map (fun g => (g.pool, g.buffer))
  | .keeper => (s.basin.grants.filter (fun g => g.client == 9)).map (fun g => (g.pool, g.buffer))
  | .spout _ => []
  | .sluice => []

/-- Whether an engine may access a word of a bank (R307, R308): the bank's owner, or an engine that reaches the buffer in a SLUICE bank;
during a handover the bank refuses every access. -/
def State.mayReach (s : State) (e : BankEngine) (stage bank w : Nat) : Bool :=
  let cls := s.ownerClass bank
  !s.isoni RSV_OWNER.BUSY bank
  && (match e with
      | .rill n => cls == clsRill && s.geti RSV_OWNER.RILL bank == n && s.geti RSV_OWNER.STAGE bank == stage
      | .spout n => cls == clsSpout && s.geti RSV_OWNER.SPOUT bank == n
      | .sluice => cls == clsSluice
      | .keeper => cls == clsKeeper
      | .weir => false
      | .client _ => false
    || (cls == clsSluice && (s.bufferAt bank w).any (fun b => (s.reachableBufs e).contains b)))

/-- The class and the number that RSV_VIOL gives an engine (R306, R307): R306 has no class for the Weir nor for the clients of Basin: a
free value. -/
def State.engineClass (s : State) (e : BankEngine) : Nat × Nat × State :=
  match e with
  | .rill n => (clsRill, n, s)
  | .spout n => (clsSpout, n, s)
  | .sluice => (clsSluice, 0, s)
  | .keeper => (clsKeeper, 0, s)
  | .weir => let (c, s) := s.fresh 27 8; (c, 0, s)
  | .client _ => let (c, s) := s.fresh 27 8; (c, 0, s)

/-- Corrected and uncorrectable reads of a bank (R305). -/
def State.eccCorrected (s : State) (bank column : Nat) : State :=
  (((s.bumpi RSV_ECC_CORR.COUNT bank 1).puti RSV_ECC_COL.COLUMN bank column).evi RSV_EVENT.CORR bank).logFault 7 0 bank 0
def State.eccUncorr (s : State) (bank : Nat) : State :=
  (s.bumpi RSV_ECC_UNCORR.COUNT bank 1).evi RSV_EVENT.UNCORR bank

end Sys2Proof.Machine
end

