-- ==== Sys2Proof/Machine/Ecdsa.lean ====
section
/-! DEFINITION. ECDSA over P-384 (R84, R412, R426), as FIPS 186 gives it. (PRESUMED, assumption 113.) -/
namespace Sys2Proof.Machine

/-- The field prime, the order of the base point, the curve's b, and the base point of P-384. -/
def p384 : Nat := 2 ^ 384 - 2 ^ 128 - 2 ^ 96 + 2 ^ 32 - 1
def p384Order : Nat :=
  0xFFFFFFFFFFFFFFFFFFFFFFFFFFFFFFFFFFFFFFFFFFFFFFFFC7634D81F4372DDF581A0DB248B0A77AECEC196ACCC52973
def p384B : Nat :=
  0xB3312FA7E23EE7E4988E056BE3F82D19181D9C6EFE8141120314088F5013875AC656398D8A2ED19D2A85C8EDD3EC2AEF
def p384Base : Nat × Nat :=
  (0xAA87CA22BE8B05378EB1C71EF320AD746E1D3B628BA79B9859F741E082542A385502F25DBF55296C3A545E3872760AB7,
   0x3617DE4A96262C6F5D9E98BF9292DC29F8F41DBD289A147CE9DA3113B5F0B8C00A60B1CE1D7E819D7A431D7C90EA0E5F)

/-- `b` times `a` to the power of the low `k` bits of `e`, modulo `m`. -/
def powMod (m : Nat) : Nat → Nat → Nat → Nat → Nat
  | 0, _, _, b => b
  | k + 1, a, e, b => powMod m k (a * a % m) (e / 2) (if e % 2 = 1 then b * a % m else b)

/-- The inverse modulo a prime of at most 384 bits. -/
def invMod (m a : Nat) : Nat := powMod m 384 (a % m) (m - 2) 1

/-- Whether a point lies on the curve y² = x³ − 3x + b. -/
def onCurve (q : Nat × Nat) : Bool :=
  decide (q.1 < p384) && decide (q.2 < p384) && q.2 * q.2 % p384 == (q.1 * q.1 * q.1 + (p384 - 3) * q.1 + p384B) % p384

/-- The sum of two points; none is the point at infinity. -/
def addPoint : Option (Nat × Nat) → Option (Nat × Nat) → Option (Nat × Nat)
  | none, b => b
  | a, none => a
  | some (x1, y1), some (x2, y2) =>
    if x1 = x2 ∧ (y1 + y2) % p384 = 0 then none
    else
      let l :=
        if x1 = x2 then (3 * x1 * x1 + (p384 - 3)) * invMod p384 (2 * y1)
        else (y2 + p384 - y1) * invMod p384 (x2 + p384 - x1)
      let l := l % p384
      let x := (l * l + 2 * p384 - x1 - x2) % p384
      some (x, (l * (x1 + p384 - x) + p384 - y1) % p384)

/-- `acc` plus the low `k` bits of `n` times a point. -/
def timesPoint : Nat → Nat → Option (Nat × Nat) → Option (Nat × Nat) → Option (Nat × Nat)
  | 0, _, _, acc => acc
  | k + 1, n, q, acc => timesPoint k (n / 2) (addPoint q q) (if n % 2 = 1 then addPoint acc q else acc)

/-- Big-endian bytes as a number. -/
def beNat (l : List Byte) : Nat := leNat l.reverse

/-- Whether r ‖ s is a signature of a digest of 384 bits under the public key X ‖ Y; all are big-endian. -/
def ecdsaOk (key digest sig : List Byte) : Bool :=
  let q := (beNat (key.take 48), beNat ((key.drop 48).take 48))
  let r := beNat (sig.take 48)
  let s := beNat ((sig.drop 48).take 48)
  if key.length ≠ 96 ∨ sig.length ≠ 96 ∨ !onCurve q ∨ r = 0 ∨ s = 0 ∨ p384Order ≤ r ∨ p384Order ≤ s then false
  else
    let w := invMod p384Order s
    let u := timesPoint 384 (beNat digest * w % p384Order) (some p384Base) none
    match addPoint u (timesPoint 384 (r * w % p384Order) (some q) none) with
    | some (x, _) => x % p384Order == r
    | none => false

end Sys2Proof.Machine
end

