-- ==== Sys2Proof/Machine/Sha384.lean ====
section
/-! DEFINITION. SHA-384, which the spec names for the weave hash, the vocabulary tag and firmware images (R73, R287, R413), as
FIPS 180-4 describes it. (PRESUMED, assumption 113.) -/
namespace Sys2Proof.Machine

/-! ### The constants, as fractional parts of roots of primes -/

/-- Whether no number from 2 to `d` divides `n`. -/
def noDivisor (n : Nat) : Nat → Bool
  | 0 | 1 => true
  | d + 2 => n % (d + 2) != 0 && noDivisor n (d + 1)

/-- The first eighty primes: those below 410. -/
def hashPrimes : List Nat := ((List.range 410).drop 2).filter (fun n => noDivisor n (min (n - 1) 20))

/-- The greatest number of at most `b` more bits above `r` whose power `e` does not exceed `n`. -/
def rootBits (e n : Nat) : Nat → Nat → Nat
  | 0, r => r
  | b + 1, r => rootBits e n b (if (r + 2 ^ b) ^ e ≤ n then r + 2 ^ b else r)

/-- The first 64 bits of the fractional part of the root `e` of a prime below 512. -/
def rootFraction (e p : Nat) : BitVec 64 := BitVec.ofNat 64 (rootBits e (p * 2 ^ (64 * e)) 70 0)

/-- The constants of the eighty rounds, from the cube roots of the first eighty primes. -/
def roundConstants : List (BitVec 64) := hashPrimes.map (rootFraction 3)

/-! ### The working variables -/

/-- The eight working variables of the hash. -/
structure HashVars where
  a : BitVec 64
  b : BitVec 64
  c : BitVec 64
  d : BitVec 64
  e : BitVec 64
  f : BitVec 64
  g : BitVec 64
  h : BitVec 64
  deriving DecidableEq, Repr

/-- Working variables from words in order. -/
def HashVars.of (l : List (BitVec 64)) : HashVars :=
  let at' := fun i => l.getD i 0
  ⟨at' 0, at' 1, at' 2, at' 3, at' 4, at' 5, at' 6, at' 7⟩

def HashVars.words (v : HashVars) : List (BitVec 64) := [v.a, v.b, v.c, v.d, v.e, v.f, v.g, v.h]

/-- The initial hash value of SHA-384, from the square roots of the ninth to the sixteenth prime. -/
def sha384Start : HashVars := HashVars.of ((hashPrimes.drop 8).map (rootFraction 2))

/-- The exclusive-or of a word's rotations to the right by given counts. -/
def rotations (x : BitVec 64) (by' : List Nat) : BitVec 64 := (by'.map x.rotateRight).foldr (· ^^^ ·) 0

/-- One round, with the sum of its constant and its message word. -/
def HashVars.round (v : HashVars) (kw : BitVec 64) : HashVars :=
  let choice := v.g ^^^ (v.e &&& (v.f ^^^ v.g))
  let majority := (v.a &&& v.b) ||| (v.c &&& (v.a ||| v.b))
  let front := v.h + kw + rotations v.e [14, 18, 41] + choice
  { a := front + rotations v.a [28, 34, 39] + majority, b := v.a, c := v.b, d := v.c
    e := v.d + front, f := v.e, g := v.f, h := v.g }

/-- The message word that follows sixteen consecutive ones. -/
def nextWord (w : List (BitVec 64)) : BitVec 64 :=
  let near := w.getD 1 0
  let far := w.getD 14 0
  (rotations far [19, 61] ^^^ far >>> 6) + w.getD 9 0 + (rotations near [1, 8] ^^^ near >>> 7) + w.getD 0 0

/-- The rounds with given constants, on a window of the sixteen message words that come next. -/
def hashRounds : List (BitVec 64) → List (BitVec 64) → HashVars → HashVars
  | [], _, v => v
  | k :: ks, w, v => hashRounds ks (w.tail ++ [nextWord w]) (v.round (k + w.headD 0))

/-! ### The message -/

/-- Sixteen big-endian words of a block of 128 bytes. -/
def blockWords (b : List Byte) : List (BitVec 64) :=
  (List.range 16).map (fun i => BitVec.ofNat 64 (leNat ((b.drop (8 * i)).take 8).reverse))

/-- The hash value after one more block. -/
def HashVars.absorb (v : HashVars) (block : List Byte) : HashVars :=
  HashVars.of (List.zipWith (· + ·) v.words (hashRounds roundConstants (blockWords block) v).words)

/-- A message as it is hashed: with a one bit, zeros up to 16 bytes short of a whole block, and its length in bits, big-endian. -/
def hashMessage (m : List Byte) : List Byte :=
  m ++ 0x80#8 :: zeros (alignUp 128 (m.length + 17) - (m.length + 17)) ++ (leBytes 16 (8 * m.length)).reverse

/-- SHA-384 of a list of bytes: the first six words of the hash value, big-endian. -/
def sha384 (m : List Byte) : List Byte :=
  let p := hashMessage m
  let v := (List.range (p.length / 128)).foldl (fun v i => v.absorb ((p.drop (128 * i)).take 128)) sha384Start
  (v.words.take 6).flatMap (fun w => (leBytes 8 w.toNat).reverse)

end Sys2Proof.Machine
end

