-- ==== Sys2Proof/Machine/LedgerOps.lean ====
section
/-! DEFINITION. The SPI NOR (R411): its boot record and image slots (R412, R413), the settings ledger (R415 to R417), and the warden area
(R418). -/
namespace Sys2Proof.Machine

def State.modSvc (s : State) (f : ServiceSt → ServiceSt) : State := { s with svc := f s.svc }

/-- The field that shows an image slot's state, and the states of R413. -/
def fwField (k : Nat) : Fld := if k = 0 then SVC_FW_STATUS.A_STATE else SVC_FW_STATUS.B_STATE
def State.fwState (s : State) (k : Nat) : Nat := s.get (fwField k)
def fwPartial : Nat := 1
def fwTrial : Nat := 2
def fwCommitted : Nat := 3
def fwFallback : Nat := 4
def fwBad : Nat := 5

/-- An image slot takes a state (R413): the boot record, its copy in the warden area (R411, R418) and SVC_FW_STATUS have it. -/
def State.setImage (s : State) (k st : Nat) : State :=
  (s.put (fwField k) st).modSvc (fun v => { v with boot := putAt k st v.boot, bootCopy := putAt k st v.bootCopy })

/-- A page of an image slot; one that nothing has written reads as erased flash (assumption 32). -/
def State.fwPage (s : State) (k p : Nat) : List Byte :=
  (((s.svc.slots.getD k []).find? (fun e => e.1 == p)).map (·.2)).getD (List.replicate 4096 0xFF#8)

/-- The first `n` bytes of an image slot. -/
def State.fwBytes (s : State) (k n : Nat) : List Byte :=
  ((List.range (ceilDiv n 4096)).flatMap (s.fwPage k)).take n

/-- The image in a slot (R412). (DEDUCED, assumption 33.) -/
def State.fwImage (s : State) (k : Nat) : List Byte := s.fwBytes k (leAt (s.fwPage k 0) 8 4 % (2 ^ 25 + 1))

/-- A slot takes the pages of a chunk, from a page on. -/
def fwWrite (l : List (Nat × List Byte)) (p : Nat) (chunk : List Byte) : List (Nat × List Byte) :=
  (List.range (chunk.length / 4096)).foldl (fun l i =>
    assocIns id (p + i) ((chunk.drop (4096 * i)).take 4096) (assocDel id (p + i) l)) l

/-- The reason for which the image in a slot is not accepted, 0 where it is (R412, R413). -/
def State.fwErr (s : State) (k : Nat) : Nat :=
  let h := s.fwPage k 0
  let len := leAt h 8 4
  if leAt h 0 4 ≠ 0x5045454B ∨ leAt h 4 2 ≠ 1 then 1
  else if len < 4096 ∨ 2 ^ 25 < len then 2
  else if ecdsaOk Config.firmwareKey (sha384 (h.take 128)) ((h.drop 128).take 96) = false then 3
  else if sha384 ((s.fwBytes k len).drop 4096) ≠ (h.drop 32).take 48 then 4
  else 0

/-- The ledger formats that a slot's image reads (R412); the factory image, of which no page is listed, reads FORMAT 1 alone
(assumption 33). -/
def State.ledgerRange (s : State) (k : Nat) : Nat × Nat :=
  if (s.svc.slots.getD k []).isEmpty then (1, 1)
  else let h := s.fwPage k 0; (leAt h 20 2, leAt h 22 2)

/-! ### The ledger copies (R415) -/

def ledgerMagic : Nat := 0x5247444C

/-- A record: KEY, the data length, and the data, zero-padded to a multiple of 8. -/
def ledgerRecord (e : Nat × List Byte) : List Byte :=
  leBytes 4 e.1 ++ leBytes 2 e.2.length ++ zeros 2 ++ e.2 ++ zeros (alignUp 8 e.2.length - e.2.length)

/-- Header bytes 0 to 59: MAGIC, FORMAT, GEN and LEN. -/
def ledgerHead (format gen len : Nat) : List Byte :=
  leBytes 4 ledgerMagic ++ leBytes 2 format ++ zeros 2 ++ leBytes 8 gen ++ leBytes 4 len ++ zeros 40

/-- The bytes of a ledger copy: its header, with a CRC-32C over the rest of it and every record byte, and its records. -/
def ledgerImage (l : LedgerSt) : List Byte :=
  let body := l.records.flatMap ledgerRecord
  let head := ledgerHead l.format l.gen (64 + body.length)
  head ++ leBytes 4 (crc32c (head ++ body)) ++ body

/-- The records that bytes hold, one after the other; `n` bounds their number. -/
def ledgerRecords : Nat → List Byte → List (Nat × List Byte)
  | 0, _ => []
  | n + 1, b =>
    if b.length < 8 then []
    else (leAt b 0 4, (b.drop 8).take (leAt b 4 2)) :: ledgerRecords n (b.drop (8 + alignUp 8 (leAt b 4 2)))

/-- The ledger that a copy's region holds, if it is one with a correct CRC. -/
def readLedger (b : List Byte) : Option LedgerSt :=
  let len := leAt b 16 4
  if leAt b 0 4 = ledgerMagic ∧ 64 ≤ len ∧ len ≤ b.length ∧ leAt b 60 4 = crc32c (b.take 60 ++ (b.take len).drop 64) then
    some ⟨leAt b 4 2, leAt b 8 8, ledgerRecords len ((b.take len).drop 64)⟩
  else none

/-- The valid copy of two, and which it is: the one with a correct CRC and the higher GEN. -/
def validCopy (copies : List Byte × List Byte) : Option (Nat × LedgerSt) :=
  match readLedger copies.1, readLedger copies.2 with
  | some a, some b => if a.gen < b.gen then some (1, b) else some (0, a)
  | some a, none => some (0, a)
  | none, some b => some (1, b)
  | none, none => none

/-- The valid ledger (R415). -/
def State.ledger (s : State) : Option LedgerSt := (validCopy s.svc.copies).map (·.2)

/-- The records of the valid ledger. -/
def State.records (s : State) : List (Nat × List Byte) := (s.ledger.map (·.records)).getD []
def State.record? (s : State) (key : Nat) : Option (List Byte) := assocGet id key s.records

/-- The length of a ledger copy with given records (R415). -/
def ledgerBytes (l : List (Nat × List Byte)) : Nat := 64 + (l.map (fun e => 8 + alignUp 8 e.2.length)).sum

/-- The records with one written, or deleted where its data is empty (R417). -/
def recordsWith (l : List (Nat × List Byte)) (key : Nat) (data : List Byte) : List (Nat × List Byte) :=
  assocPut id (fun _ => []) key data l

/-- CSC_SIGN_CTRL.KEYS shows the key slots that are filled (R85): those whose record is a whole key of 96 bytes.
(DESIGN CHOICE, assumption 122.) -/
def State.showKeys (s : State) : State :=
  s.put CSC_SIGN_CTRL.KEYS ((List.range 4).foldl (fun m n =>
    if ((s.record? (0x10 + n)).map (·.length)) = some 96 then setBit m n else m) 0)

/-- A rewrite of the ledger in a FORMAT (R416): a new copy, with GEN increased by 1, over the region that does not hold the valid
copy, which stays as it is. What is read back is what was written. Where neither region holds a valid copy, copy 0 is written with GEN 1.
(DESIGN CHOICE, assumption 126.) -/
def State.rewriteLedger (s : State) (format : Nat) (l : List (Nat × List Byte)) : State :=
  let (k, gen) := match validCopy s.svc.copies with
    | some (i, v) => (1 - i, v.gen + 1)
    | none => (0, 1)
  let b := ledgerImage ⟨format, gen, l⟩
  (s.modSvc (fun v => { v with copies := if k = 0 then (b, v.copies.2) else (v.copies.1, b) })).showKeys

/-- Whether the ledger is rewritten at all: by a COMMITTED image outside settings-safe mode alone (R416).
(DEDUCED, assumption 33.) -/
def State.ledgerOpen (s : State) : Bool :=
  s.fwState (s.get SVC_FW_STATUS.RUNNING) == fwCommitted && !s.ison SVC_STATUS.SETTINGS_SAFE

/-- The ledger with one record written. -/
def State.putRecord (s : State) (key : Nat) (data : List Byte) : State :=
  if s.ledgerOpen then
    let format := (s.ledger.map (·.format)).getD (s.ledgerRange (s.get SVC_FW_STATUS.RUNNING)).2
    s.rewriteLedger format (recordsWith s.records key data)
  else s

/-! ### The regions of the SPI NOR (R411) -/

/-- The regions of the SPI NOR. -/
inductive NorRegion where
  | boot
  | image (k : Nat)
  | ledger (k : Nat)
  | warden
  deriving DecidableEq, Repr

/-- A region's offset and size. -/
def NorRegion.place : NorRegion → Nat × Nat
  | .boot => (0, 2 ^ 20)
  | .image k => (0x100000 + 0x2000000 * k, 2 ^ 25)
  | .ledger k => (0x4100000 + 0x100000 * k, 2 ^ 20)
  | .warden => (0x4300000, 2 ^ 20)

/-- What a region holds, from its first byte up to the last written: the layout of the boot record and of the warden area is not stated
(R411, R418), and the warden area holds the boot record's copy, the Sundial's frequency estimate (R379) and the wrapped flash keys (R185). -/
def State.norRegion (s : State) : NorRegion → List Byte
  | .boot => Config.bootLayout s.svc.boot
  | .image k => s.fwBytes k (2 ^ 25)
  | .ledger k => if k = 0 then s.svc.copies.1 else s.svc.copies.2
  | .warden => Config.wardenLayout s.svc.bootCopy s.sundial.stored (s.svc.flashKeys.map Config.wrapKeys)

def norRegions : List NorRegion := [.boot, .image 0, .image 1, .ledger 0, .ledger 1, .warden]

/-- A byte of the SPI NOR; one that nothing has written reads as erased flash (assumption 32). -/
def State.norByte (s : State) (a : Nat) : Byte :=
  match norRegions.find? (fun r => decide (r.place.1 ≤ a) && decide (a < r.place.1 + r.place.2)) with
  | some r => (s.norRegion r).getD (a - r.place.1) 0xFF#8
  | none => 0xFF#8

end Sys2Proof.Machine
end

