-- ==== Sys2Proof/Machine/Aes.lean ====
section
/-! DEFINITION. AES-256-XTS, the encryption at rest that R185 names: FIPS 197 and IEEE 1619, with a 4 KiB sector as the data
unit. (PRESUMED, assumption 113.) -/
namespace Sys2Proof.Machine

/-- Multiplication by x in GF(2^8), and the product of two field elements by the bits of the second. -/
def xtime (a : Nat) : Nat := if a < 128 then 2 * a else Nat.xor (2 * a - 256) 0x1B
def gmul (a b : Nat) : Nat :=
  ((List.range 8).foldl (fun (acc : Nat × Nat) i => (if bitOf b i then Nat.xor acc.1 acc.2 else acc.1, xtime acc.2)) (0, a)).1

/-- The inverse a^254 in GF(2^8): 0 has none and gives 0. -/
def ginv (a : Nat) : Nat :=
  let sq := fun x => gmul x x
  let a2 := sq a
  let a4 := sq a2
  let a8 := sq a4
  let a16 := sq a8
  let a32 := sq a16
  let a64 := sq a32
  let a128 := sq a64
  gmul a128 (gmul a64 (gmul a32 (gmul a16 (gmul a8 (gmul a4 a2)))))

/-- A byte rotated left. -/
def rotByte (a n : Nat) : Nat := a * 2 ^ n % 256 + a * 2 ^ n / 256

/-- The S-box. -/
def sboxOf (a : Nat) : Nat :=
  let b := ginv a
  Nat.xor (Nat.xor (Nat.xor b (rotByte b 1)) (Nat.xor (rotByte b 2) (rotByte b 3))) (Nat.xor (rotByte b 4) 0x63)

def xorList (a b : List Nat) : List Nat := List.zipWith Nat.xor a b

/-- The expanded key of AES-256: 60 words of four bytes. -/
def keyWords : Nat → Nat → List (List Nat) → List (List Nat)
  | 0, _, ws => ws
  | n + 1, rcon, ws =>
    let i := ws.length
    let prev := ws.getD (i - 1) []
    let t := if i % 8 = 0 then
        xorList ((prev.drop 1 ++ prev.take 1).map sboxOf) [rcon, 0, 0, 0]
      else if i % 8 = 4 then prev.map sboxOf else prev
    keyWords n (if i % 8 = 0 then xtime rcon else rcon) (ws ++ [xorList (ws.getD (i - 8) []) t])

def expandKey (key : List Nat) : List (List Nat) :=
  keyWords 52 1 ((List.range 8).map (fun i => (key.drop (4 * i)).take 4))

/-- The round key of a round. -/
def roundKey (ws : List (List Nat)) (r : Nat) : List Nat := ((ws.drop (4 * r)).take 4).flatten

/-- ShiftRows and MixColumns on a state of 16 bytes, column by column. -/
def shiftRows (st : List Nat) : List Nat := (List.range 16).map (fun i => st.getD ((i + 4 * (i % 4)) % 16) 0)
def mixColumns (st : List Nat) : List Nat :=
  (List.range 16).map (fun i =>
    let c := i / 4 * 4
    let at' := fun k => st.getD (c + (i + k) % 4) 0
    Nat.xor (Nat.xor (xtime (at' 0)) (Nat.xor (xtime (at' 1)) (at' 1))) (Nat.xor (at' 2) (at' 3)))

/-- AES-256 of one block of 16 bytes. -/
def aes256 (key block : List Nat) : List Nat :=
  let ws := expandKey key
  let st := xorList block (roundKey ws 0)
  let st := (List.range 13).foldl (fun st r => xorList (mixColumns (shiftRows (st.map sboxOf))) (roundKey ws (r + 1))) st
  xorList (shiftRows (st.map sboxOf)) (roundKey ws 14)

/-- The tweak times x in GF(2^128), little-endian. -/
def xtsDouble (t : List Nat) : List Nat :=
  let n := t.foldr (fun b acc => b + 256 * acc) 0
  let m := 2 * n
  let m := if m < 2 ^ 128 then m else Nat.xor (m - 2 ^ 128) 0x87
  (List.range 16).map (fun i => m / 256 ^ i % 256)

/-- XTS over the blocks of a data unit. -/
def xtsBlocks (key : List Nat) : Nat → List Nat → List Nat → List Nat
  | 0, _, _ => []
  | n + 1, t, bs =>
    xorList (aes256 key (xorList (bs.take 16) t)) t ++ xtsBlocks key n (xtsDouble t) (bs.drop 16)

/-- AES-256-XTS of a data unit with a key pair of 64 bytes and a tweak (R185). -/
def xtsEncrypt (keys : List Byte) (tweak : Nat) (data : List Byte) : List Byte :=
  let k := keys.map (·.toNat)
  let t := aes256 ((k.drop 32).take 32) ((List.range 16).map (fun i => tweak / 256 ^ i % 256))
  (xtsBlocks (k.take 32) (data.length / 16) t (data.map (·.toNat))).map byteOf

end Sys2Proof.Machine
end

