-- ==== Sys2Proof/Machine/AquiferOps.lean ====
section
/-! DEFINITION. Aquifer's operations: dies and the commands they are given (R143, R144, R179, R180), what units read as (R149,
R157), blocks, stripes and pages (R150 to R152), placement (R158, R166), staging (R153, R156), deferred errors (R176 to R178), map
checkpoints (R167, R168), and life used (R183). -/
namespace Sys2Proof.Machine

def State.modAqf (s : State) (f : AqfSt → AqfSt) : State := { s with aqf := f s.aqf }

/-- Bytes of a unit and of a sector (R147), and units of a map segment (R167). -/
def unitBytes : Nat := 16384
def sectorBytes : Nat := 4096
def segmentUnits : Nat := 2 ^ 22

/-! ### Dies -/

/-- The channel of a die, its place there, and its chip enable and LUN (R143). -/
def dieChannel (d : Nat) : Nat := d / 32
def dieGroup (d : Nat) : Nat := d % 32
def dieEnable (d : Nat) : Nat := d % 32 / 4
def dieLun (d : Nat) : Nat := d % 4
def dieFld (d : Nat) : Fld :=
  let n := d % 16
  ⟨if d % 32 < 16 then .NFC_DIE_STATE_LO else .NFC_DIE_STATE_HI, 2 * n + 1, 2 * n⟩

/-- Die states (R179). -/
def dieOnline : Nat := 0
def dieSuspended : Nat := 1
def dieRetired : Nat := 2
def dieAbsent : Nat := 3
def State.dieState (s : State) (d : Nat) : Nat := s.geti (dieFld d) (dieChannel d)

def allDies : List Nat := List.range 1024
def channelDies (c : Nat) : List Nat := (List.range 32).map (32 * c + ·)
def groupDies (g : Nat) : List Nat := (List.range 32).map (fun c => 32 * c + g)
def State.channelStates (s : State) (c : Nat) : List Nat := (channelDies c).map s.dieState

/-- A command to a die (R143, R144): its LUN is selected, then the command goes out. -/
def State.dieOp (s : State) (d : Nat) (op args : List Nat) (bs : List Byte) : State :=
  (s.emit (.flash (dieChannel d) (dieEnable d) (dieLun d) [0xE1] [] [])).emit
    (.flash (dieChannel d) (dieEnable d) (dieLun d) op args bs)

/-- The opcode cycles of R144. -/
def opReset : List Nat := [0xFF]
def opLunReset : List Nat := [0xFA]
def opReadId : List Nat := [0x90]
def opParameterPage : List Nat := [0xEC]
def opZqLong : List Nat := [0xF9]
def opZqShort : List Nat := [0xD9]
def opSetFeatures : List Nat := [0xEF]
def opRead : List Nat := [0x00, 0x30]
def opProgram : List Nat := [0x80, 0x10]
def opErase : List Nat := [0x60, 0xD0]
def opStatus : List Nat := [0x78]
def opUniqueId : List Nat := [0xED]
def opReadColumn : List Nat := [0x05, 0xE0]

/-- The operations of the array whose maximum time the profile gives (R146). -/
inductive ArrayOp where
  | read | program | erase
  deriving DecidableEq, Repr

/-- The time in µs that an operation of a die takes at most, 0 before a format has given a profile (R146, R202). -/
def AqfSt.opTime (a : AqfSt) (op : ArrayOp) (slc : Bool) : Nat :=
  let k := match op with | .read => 0 | .program => 2 | .erase => 4
  (a.format.map (fun f => f.timeUs (if slc then k else k + 1))).getD 0

/-- The time that a die has worked since the mount, and the part that folding took (R159). -/
def AqfSt.busyOf (a : AqfSt) (d : Nat) : Nat × Nat := assocRead id (fun _ => (0, 0)) d a.busy

/-- A die works for so many µs. -/
def AqfSt.occupy (a : AqfSt) (d us : Nat) : AqfSt :=
  let (all, part) := a.busyOf d
  { a with busy := assocPut id (fun _ => (0, 0)) d (all + us, part) a.busy }

/-- Folding has taken part of the time that a die has worked. -/
def AqfSt.foldTime (a : AqfSt) (d us : Nat) : AqfSt :=
  let (all, part) := a.busyOf d
  { a with busy := assocPut id (fun _ => (0, 0)) d (all, min all (part + us)) a.busy }

/-- A die is put into the mode of its next operation, as its profile has it (R146): by a feature, or by an opcode that goes before the
operation's own, which it answers. The value with which the feature leaves SLC mode is not stated: an open constant.
(DESIGN CHOICE, assumption 117.) -/
def State.enterMode (s : State) (d : Nat) (slc : Bool) : State × List Nat :=
  match s.aqf.format with
  | some f =>
    let (m, fa, v) := f.slcMethod
    if m = 1 then (s, if slc then [v] else [])
    else (s.dieOp d opSetFeatures [fa, if slc then v else Config.nativeMode fa] [], [])
  | none => (s, [])

/-- An operation of a die's array in a mode, polled to its end (R144, R146). -/
def State.arrayOp (s : State) (d : Nat) (slc : Bool) (kind : ArrayOp) (op args : List Nat) (bs : List Byte) : State :=
  let (s, enter) := s.enterMode d slc
  let s := (s.dieOp d (enter ++ op) args bs).dieOp d opStatus [] []
  s.modAqf (fun a => a.occupy d (a.opTime kind slc))

/-- A page is read, and a page's cells are programmed. -/
def State.readPage (s : State) (l : FlashLoc) : State := s.arrayOp l.die l.slc .read opRead [l.block, l.page] []
def State.programCells (s : State) (l : FlashLoc) (cells : List Byte) : State :=
  s.arrayOp l.die l.slc .program opProgram [l.block, l.page] cells

/-- The window of R154 in MiB. -/
def State.windowMib (s : State) : Nat :=
  let limit := max 1 (min 192 (s.get AQF_WB.LIMIT_MIB))
  min limit (6 * ((List.range 32).filter (fun c => (s.channelStates c).contains dieOnline)).length)

/-- What the dies' states show: the channels' best states (R179), DEGRADED, and the window (R154). -/
def State.showDies (s : State) : State :=
  let s := s.each 32 (fun c s => s.puti NFC_STATUS.CH_STATE c ((s.channelStates c).foldl min 3))
  let s := s.putb AQF_STATUS.DEGRADED (allDies.any (fun d => s.dieState d == 1 || s.dieState d == 2))
  s.put AQF_WB.EFFECTIVE_MIB s.windowMib

def State.setDie (s : State) (d st : Nat) : State := s.puti (dieFld d) (dieChannel d) st

/-- A die is suspended (R180, R182): only an ONLINE one; its automatic bring-back may be attempted once more.
(DEDUCED, assumption 57.) -/
def State.suspendDie (s : State) (d : Nat) : State :=
  if s.dieState d = dieOnline then
    let s := s.modAqf (fun a => { a with tried := a.tried.filter (· != d) })
    ((s.setDie d dieSuspended).ev AQF_EVENT.DIE_SUSPEND).showDies
  else s

/-- A die is retired (R180). A bring-back that the host has commanded ends without success. -/
def State.retireDie (s : State) (d : Nat) : State :=
  if s.dieState d = dieOnline ∨ s.dieState d = dieSuspended then
    let cmd := s.aqf.bringing.any (fun b => b.1 == d && b.2)
    let s := s.modAqf (fun a => { a with
      retired := d :: a.retired, tried := a.tried.filter (· != d), bringing := a.bringing.filter (fun b => b.1 != d) })
    let s := ((s.setDie d dieRetired).ev AQF_EVENT.DIE_RETIRE).showDies
    if cmd then ((s.put AQF_DIE_RESULT.BUSY 0).put AQF_DIE_RESULT.FAIL 1).put AQF_DIE_RESULT.STATE dieRetired else s
  else s

/-! ### Blocks, pages and stripes -/

/-- Blocks by die and number, pages by block and number, stripes by die group, block and page. -/
def blockKey (d b : Nat) : Nat := d * 8192 + b
def pageKey (d b p : Nat) : Nat := blockKey d b * 2048 + p
def stripeKey (g b p : Nat) : Nat := (g * 8192 + b) * 2048 + p
def stripeOf (l : FlashLoc) : Nat := stripeKey (dieGroup l.die) l.block l.page

def AqfSt.block (a : AqfSt) (d b : Nat) : BlockSt := assocRead id (fun _ => BlockSt.fresh) (blockKey d b) a.blocks
def AqfSt.setBlock (a : AqfSt) (d b : Nat) (x : BlockSt) : AqfSt :=
  { a with blocks := assocPut id (fun _ => BlockSt.fresh) (blockKey d b) x a.blocks }
def AqfSt.page? (a : AqfSt) (d b p : Nat) : Option FlashPage := assocGet id (pageKey d b p) a.flash

/-- The bytes of a unit page as its cells hold them, the metadata aside (R150, R152, R185): each sector of a unit encrypted under its number
where a key pair is in the path; parity and padding, which hold no sectors, as they are. -/
def storedBytes (m : PageMeta) (data : List Byte) (keys : Option (List Byte)) : List Byte :=
  match keys with
  | some k =>
    if m.parity || m.pad then data
    else (List.range 4).flatMap (fun i => xtsEncrypt k (4 * m.unit + i) ((data.drop (sectorBytes * i)).take sectorBytes))
  | none => data

/-- The bytes that the cells of a unit page take: its stored bytes, and the metadata in the clear (R152, R185). -/
def cellBytes (m : PageMeta) (data : List Byte) (keys : Option (List Byte)) : List Byte := storedBytes m data keys ++ m.bytes

/-- The stored bytes of the page at a place: what a stripe's parity is taken over (R150). -/
def AqfSt.pageCells (a : AqfSt) (l : FlashLoc) : List Byte :=
  match a.page? l.die l.block l.page with
  | some (.unit m d k) => storedBytes m d k
  | _ => zeros unitBytes

/-- The data of the unit page at a place. -/
def AqfSt.pageData (a : AqfSt) (l : FlashLoc) : List Byte :=
  match a.page? l.die l.block l.page with
  | some (.unit _ d _) => d
  | _ => zeros unitBytes

/-- Pages of a block in a mode (R147). -/
def AqfSt.pagesIn (a : AqfSt) (slc : Bool) : Nat :=
  match a.geometry with
  | some g => if slc then g.pages / max 1 g.bits else g.pages
  | none => 0

/-- Whether a unit's stripe still waits for its parity page (R150). -/
def AqfSt.stripeOpen (a : AqfSt) (l : FlashLoc) : Bool := a.parity.any (fun e => e.1 == stripeOf l)

/-- Whether the parity page of a page's stripe has been programmed. -/
def AqfSt.stripeClosed (a : AqfSt) (l : FlashLoc) : Bool :=
  (groupDies (dieGroup l.die)).any (fun d => match a.page? d l.block l.page with
    | some (.unit m _ _) => m.parity
    | _ => false)

/-- The blocks of a die that run in SLC mode, and the most that may (R158). -/
def State.slcBlocks (s : State) (d : Nat) : Nat :=
  s.aqf.blocks.countP (fun e => e.1 / 8192 == d && e.2.slc && e.2.state != .free && e.2.state != .bad && e.2.state != .grownBad)
def AqfSt.slcLimit (a : AqfSt) : Nat :=
  match a.format, a.geometry with
  | some f, some g => g.blocks * f.slcPct / 100
  | _, _ => 0

/-- The mean native erase count of a die group (R166). -/
def State.groupWear (s : State) (g : Nat) : Nat :=
  let dies := (groupDies g).filter (fun d => s.dieState d != dieAbsent)
  let blocks := (s.aqf.geometry.map (fun x => x.blocks)).getD 1
  ((s.aqf.blocks.filter (fun e => dies.contains (e.1 / 8192))).map (fun e => e.2.eraseN)).sum / max 1 (dies.length * blocks)

/-- The die groups with an ONLINE die, and whether a group is among the least-worn, or the most-worn, of them (R166). -/
def State.liveGroups (s : State) : List Nat :=
  (List.range 32).filter (fun g => (groupDies g).any (fun d => s.dieState d == dieOnline))
def State.leastWorn (s : State) (g : Nat) : Bool := s.liveGroups.all (fun h => decide (s.groupWear g ≤ s.groupWear h))
def State.mostWorn (s : State) (g : Nat) : Bool := s.liveGroups.all (fun h => decide (s.groupWear h ≤ s.groupWear g))

/-- Whether a block row of a group may be opened in a state and mode at a die's block (R150, R151, R158): the block is FREE, the
group's other blocks of that number are FREE, unusable, or open in the same way, at most one OPEN_HOST block stands on the die, and
SLC_PCT allows another block in SLC mode. -/
def State.mayOpen (s : State) (want : BlockState) (l : FlashLoc) : Bool :=
  let row := (groupDies (dieGroup l.die)).map (fun d => s.aqf.block d l.block)
  (s.aqf.block l.die l.block).state == .free
  && row.all (fun x => x.state == .free || x.state == .bad || x.state == .grownBad || (x.state == want && x.slc == l.slc && !x.gone))
  && (want != .openHost || !s.aqf.blocks.any (fun e => e.1 / 8192 == l.die && e.2.state == .openHost))
  && (!l.slc || decide (s.slcBlocks l.die < s.aqf.slcLimit))

/-- Whether a block is open in a state and a mode, and still takes pages. -/
def BlockSt.openAs (x : BlockSt) (want : BlockState) (slc : Bool) : Bool := x.state == want && x.slc == slc && !x.gone

/-- The dies of a group that take part in the stripes of a block row opened in a state and mode: ONLINE, with the block open so, or with a
FREE block that may be opened while the row's first stripe still waits for pages (R150, R151, R158). -/
def State.stripeDies (s : State) (want : BlockState) (slc : Bool) (g b : Nat) : List Nat :=
  let late := s.aqf.stripeClosed ⟨g, b, 0, slc⟩
  (groupDies g).filter (fun d => s.dieState d == dieOnline
    && ((s.aqf.block d b).openAs want slc || (!late && s.mayOpen want ⟨d, b, 0, slc⟩)))

/-- The die of a stripe's parity page (R150): that of channel p mod 32, or the next in rotation that takes part and has not
programmed the page. -/
def State.parityDie (s : State) (want : BlockState) (slc : Bool) (g b p : Nat) : Option Nat :=
  let l := s.stripeDies want slc g b
  ((List.range 32).map (fun i => 32 * ((p + i) % 32) + g)).find? (fun d => l.contains d && decide ((s.aqf.block d b).used ≤ p))

/-- Whether a page is the next that a program may take: an ONLINE die, not its stripe's parity page, and the next page of a block
that is open in the state asked for, or that can be opened, in a group that placement allows (R150, R151, R166). The last page of a
block holds its summary. -/
def State.canProgram (s : State) (want : BlockState) (placed : Bool) (l : FlashLoc) : Bool :=
  let x := s.aqf.block l.die l.block
  let g := dieGroup l.die
  let fresh := l.page == 0 && s.mayOpen want l
    && (placed || !s.ison AQF_CTRL.PLACE_EN || s.leastWorn g
        || (groupDies g).any (fun d => (s.aqf.block d l.block).state == want))
  s.dieState l.die == dieOnline && decide (l.page + 1 < s.aqf.pagesIn l.slc) && !s.aqf.stripeClosed l
  && (s.aqf.geometry.any (fun g => decide (l.block < g.blocks)))
  && s.parityDie want l.slc g l.block l.page != some l.die
  && ((x.openAs want l.slc && x.used == l.page) || fresh)

/-- The metadata of Aquifer's own pages, which hold no unit: the spec gives no UNIT, flag or SEQ for them. The model gives unit 0, no flag,
and the current SEQ, which such a page does not count. (DESIGN CHOICE, assumption 117.) -/
def ownMeta (seq : Nat) : PageMeta := ⟨0, false, false, false, false, 1, seq, seq, 0⟩

/-- A page of a block takes a content: its block opens or advances. -/
def AqfSt.writePage (a : AqfSt) (want : BlockState) (l : FlashLoc) (now : Nat) (x : FlashPage) : AqfSt :=
  let b := a.block l.die l.block
  let b : BlockSt := { b with
    state := want, slc := l.slc, used := l.page + 1, born := if l.page = 0 then now else b.born }
  { a.setBlock l.die l.block b with
    flash := assocPut id (fun _ => FlashPage.journal (ownMeta 0) []) (pageKey l.die l.block l.page) x a.flash, clean := false }

/-- A page takes cells and a content: the commands, and what flash then holds (R144, R146, R152). -/
def State.writeCells (s : State) (want : BlockState) (l : FlashLoc) (cells : List Byte) (x : FlashPage) : State :=
  (s.programCells l cells).modAqf (fun a => { a.writePage want l s.power.uptime x with programs := a.programs + 1 })

/-- A unit page is programmed (R152, R185); a unit of the host, not a copy of one, is written with it (R166). -/
def State.writeUnit (s : State) (want : BlockState) (l : FlashLoc) (m : PageMeta) (data : List Byte) : State :=
  let s := s.writeCells want l (cellBytes m data s.aqf.keys) (.unit m data s.aqf.keys)
  if m.copy || m.parity || m.pad then s
  else s.modAqf (fun a => { a with written := assocPut id (fun _ => 0) m.unit s.power.uptime a.written })

/-- The metadata of the pages of a block, in their order (R151, R152). -/
def AqfSt.blockMetas (a : AqfSt) (d b : Nat) : List PageMeta :=
  (List.range (a.block d b).used).filterMap (fun p => match a.page? d b p with
    | some (.unit m _ _) => some m
    | _ => none)

/-- A block closes: its last page takes its summary (R151, R152). A copy block's closing SEQ is that of the next unit program, before which
its units move, so that a checkpoint of the moment before does not cover them (R174). (DESIGN CHOICE, assumption 117.) -/
def State.closeBlock (s : State) (d b : Nat) : State :=
  let x := s.aqf.block d b
  let seq := if x.state = .openCopy then s.aqf.seq + 1 else s.aqf.seq
  let metas := s.aqf.blockMetas d b
  let m := ownMeta s.aqf.seq
  let cells := OwnRecord.bytes .summary (seq :: metas.flatMap (fun m => m.bytes.map (·.toNat))) ++ m.bytes
  (s.writeCells .closed ⟨d, b, s.aqf.pagesIn x.slc - 1, x.slc⟩ cells (.summary m metas seq)).modAqf (fun a =>
    a.setBlock d b { (a.block d b) with used := x.used, born := x.born, closedAt := seq })

/-- A host block whose pages but the last are programmed closes (R151). -/
def State.closeFull (s : State) (d b : Nat) : State :=
  let x := s.aqf.block d b
  if (x.state = .openHost ∨ x.state = .openJournal) ∧ s.aqf.pagesIn x.slc ≤ x.used + 1 then s.closeBlock d b else s

/-- The metadata of a parity page and of padding (R150, R152, R170). The spec gives them no UNIT and no SEQ: the model gives unit 0 and the
current SEQ, which they do not count. (DESIGN CHOICE, assumption 117.) -/
def parityMeta (seq : Nat) : PageMeta := ⟨0, false, true, false, false, 1, seq, seq, 0⟩
def padMeta (seq : Nat) : PageMeta := ⟨0, false, false, true, false, 1, seq, seq, 0⟩

/-- An OPEN_HOST block whose die was away catches up with its row: its pages in stripes that closed without it take padding of zeros, which
leaves their parity as it is (R150, R151). (DESIGN CHOICE, assumption 117.) -/
def State.catchUp (s : State) (d b : Nat) (slc : Bool) : State :=
  (s.each (s.aqf.pagesIn slc - 1) (fun p s =>
    let l : FlashLoc := ⟨d, b, p, slc⟩
    if (s.aqf.block d b).used = p ∧ s.aqf.stripeClosed l then s.writeUnit .openHost l (padMeta s.aqf.seq) (zeros unitBytes) else s)).closeFull d b

/-- A suspended die is ONLINE again (R182), and its OPEN_HOST block goes on. -/
def State.returnDie (s : State) (d : Nat) : State :=
  let mine := s.aqf.blocks.filter (fun e => e.1 / 8192 == d && e.2.state == .openHost)
  let s := mine.foldl (fun s e => s.catchUp d (e.1 % 8192) e.2.slc) (s.setDie d dieOnline)
  (s.ev AQF_EVENT.DIE_BACK).showDies

/-- Bitwise exclusive-or of pages. -/
def xorBytes (a b : List Byte) : List Byte := List.zipWith (fun x y => x ^^^ y) (fitBytes unitBytes a) (fitBytes unitBytes b)

/-- The parity of a stripe takes in a page (R150). -/
def AqfSt.addParity (a : AqfSt) (key : Nat) (data : List Byte) : AqfSt :=
  { a with parity := assocIns id key (xorBytes ((assocGet id key a.parity).getD []) data) (assocDel id key a.parity) }

/-- The parity page of a stripe is programmed once every other die that takes part has programmed its page; where no die is left for
it, the stripe goes without (R150). -/
def State.closeStripe (s : State) (want : BlockState) (slc : Bool) (key : Nat) (sum : List Byte) : State :=
  let p := key % 2048
  let b := key / 2048 % 8192
  let g := key / (2048 * 8192)
  let done := fun (s : State) => s.modAqf (fun a => { a with parity := assocDel id key a.parity })
  match s.parityDie want slc g b p with
  | none => done s
  | some d =>
    if (s.stripeDies want slc g b).all (fun e => e == d || decide (p < (s.aqf.block e b).used)) ∧ (s.aqf.block d b).used = p then
      (done (s.writeUnit want ⟨d, b, p, slc⟩ (parityMeta s.aqf.seq) sum)).closeFull d b
    else s

/-- The stripes of a group's block that can close do so, in the order of their pages. -/
def State.closeStripes (s : State) (want : BlockState) (l : FlashLoc) : State :=
  let row := dieGroup l.die * 8192 + l.block
  (s.aqf.parity.filter (fun e => e.1 / 2048 == row)).foldl (fun s e => s.closeStripe want l.slc e.1 e.2) s

/-- A page that belongs to a stripe is programmed, and what follows for its stripe and its block (R150 to R152): the parity takes in what
the cells hold. -/
def State.programPage (s : State) (want : BlockState) (l : FlashLoc) (m : PageMeta) (data : List Byte) : State :=
  let sum := storedBytes m data s.aqf.keys
  let s := (s.writeUnit want l m data).modAqf (fun a => a.addParity (stripeOf l) sum)
  (s.closeFull l.die l.block).closeStripes want l

/-- The padding that the open stripes of host blocks receive (R170): every die that takes part and has not programmed its page. -/
def State.padStripes (s : State) : State :=
  s.aqf.parity.foldl (fun s e =>
    let p := e.1 % 2048
    let b := e.1 / 2048 % 8192
    let g := e.1 / (2048 * 8192)
    let want := BlockState.openHost
    let slc := (groupDies g).any (fun d => (s.aqf.block d b).openAs want true)
    let pd := s.parityDie want slc g b p
    let s := (s.stripeDies want slc g b).foldl (fun s d =>
      if some d = pd ∨ (s.aqf.block d b).used ≠ p then s
      else s.programPage want ⟨d, b, p, slc⟩ (padMeta s.aqf.seq) (zeros unitBytes)) s
    s.closeStripes want ⟨g, b, p, slc⟩) s

/-! ### What units read as -/

/-- A unit's map entry, and the map with it changed. -/
def AqfSt.entry (a : AqfSt) (u : Nat) : MapUnit := assocRead id (fun _ => .unmapped) u a.map
def AqfSt.setEntry (a : AqfSt) (u : Nat) (m : MapUnit) : AqfSt :=
  { a with map := assocPut id (fun _ => MapUnit.unmapped) u m a.map }

/-- What a unit reads as (R149, R157): the newest staged data that readers see, else the page that the map names; none for a LOST
unit. How the page is read decides when its bytes come, never which they are (R165). -/
def AqfSt.unitData (a : AqfSt) (u : Nat) : Option (List Byte) :=
  match (a.staging.filter (fun x => x.unit == u && x.seen)).getLast? with
  | some x => some x.data
  | none =>
    match a.entry u with
    | .unmapped => some (zeros unitBytes)
    | .lost => none
    | .mapped l => some (a.pageData l)

/-- The bytes of sectors; none where one lies in a LOST unit. -/
def AqfSt.sectors (a : AqfSt) (first : Nat) : Nat → Option (List Byte)
  | 0 => some []
  | n + 1 =>
    match a.unitData (first / 4) with
    | none => none
    | some d => (a.sectors (first + 1) n).map (fun r => (d.drop (sectorBytes * (first % 4))).take sectorBytes ++ r)

/-- The bytes of up to `n` sectors from a first one on: up to one in a LOST unit. -/
def AqfSt.readable (a : AqfSt) (first : Nat) : Nat → List Byte
  | 0 => []
  | n + 1 =>
    match a.unitData (first / 4) with
    | none => []
    | some d => (d.drop (sectorBytes * (first % 4))).take sectorBytes ++ a.readable (first + 1) n

/-- Whether a unit is read from flash: no staged data stands for it. -/
def AqfSt.onPage (a : AqfSt) (u : Nat) : Option FlashLoc :=
  if a.staging.any (fun x => x.unit == u && x.seen) then none
  else match a.entry u with
    | .mapped l => some l
    | _ => none

/-- The other dies of a page's stripe (R150): those whose block holds the page. -/
def AqfSt.stripeOthers (a : AqfSt) (l : FlashLoc) : List Nat :=
  (groupDies (dieGroup l.die)).filter (fun d => d != l.die && (a.page? d l.block l.page).isSome)

/-- The exclusive-or of the other pages of a stripe as their cells hold them, with the parity that is not programmed yet: the stored bytes
of the page that a rebuild recovers (R150, R163). -/
def AqfSt.rebuild (a : AqfSt) (l : FlashLoc) : List Byte :=
  let rest := (a.stripeOthers l).foldl (fun x d => xorBytes x (a.pageCells { l with die := d })) (zeros unitBytes)
  match assocGet id (stripeOf l) a.parity with
  | some sum => xorBytes rest sum
  | none => rest

/-- The reads of the rest of a page's stripe (R144, R163). -/
def State.readOthers (s : State) (l : FlashLoc) : State :=
  (s.aqf.stripeOthers l).foldl (fun s d => s.readPage { l with die := d }) s

/-- The reads that a unit's page takes are issued (R144, R179): the page itself on an ONLINE die, else the rest of its stripe. -/
def State.issueRead (s : State) (u : Nat) : State :=
  match s.aqf.onPage u with
  | none => s
  | some l =>
    if s.dieState l.die = dieOnline then s.readPage l else s.readOthers l

/-- The reads of the units of a run of sectors. -/
def State.issueReads (s : State) (first count : Nat) : State :=
  s.each ((first + count + 3) / 4 - first / 4) (fun i s => s.issueRead (first / 4 + i))

/-! ### Staging -/

/-- Units in staging that are not yet programmed (R154). -/
def AqfSt.unprogrammed (a : AqfSt) : Nat := a.staging.countP (fun u => u.loc.isNone)

/-- Whether the window has room for `n` more units (R154). -/
def State.windowRoom (s : State) (n : Nat) : Bool :=
  decide ((s.aqf.unprogrammed + n) * unitBytes ≤ s.windowMib * 2 ^ 20)

/-- Whether staging holds more than half of the window (R162, R166). -/
def State.windowHalf (s : State) : Bool := decide (s.windowMib * 2 ^ 20 < 2 * s.aqf.unprogrammed * unitBytes)

/-- A unit's bytes with those from byte `k` on replaced; a LOST unit has no data to merge (R149). -/
def patchUnit (old : Option (List Byte)) (k : Nat) (new : List Byte) : List Byte :=
  let b := old.getD (zeros unitBytes)
  fitBytes unitBytes (b.take k ++ new ++ b.drop (k + new.length))

/-- A unit's bytes with the sectors from `k` on replaced (R153). -/
def mergeUnit (old : Option (List Byte)) (k : Nat) (new : List Byte) : List Byte := patchUnit old (sectorBytes * k) new

/-- A unit enters staging. -/
def AqfSt.stage (a : AqfSt) (x : Staged) : AqfSt := { a with staging := a.staging ++ [x] }

/-- Whether a staged unit is of the Mirror writer and still takes bytes: the newest of its number, and not yet programmed. -/
def Staged.takesMore (x : Staged) (u : Nat) : Bool := x.unit == u && x.task.isNone && !x.cache && x.loc.isNone

/-- Bytes of a unit from byte `k` on enter staging for the Mirror writer (R54, R153): with its bytes of that unit which wait there, where
they are the newest staged. -/
def AqfSt.stageBytes (a : AqfSt) (task u k : Nat) (bs : List Byte) : AqfSt :=
  let data := patchUnit (a.unitData u) k bs
  if a.staging.getLast?.any (fun x => x.takesMore u) then
    { a with staging := a.staging.dropLast ++ (a.staging.getLast?.map (fun x => { x with data := data })).toList }
  else a.stage ⟨none, u, data, true, some task, 0, none, [], false⟩

/-- Whether Aquifer's background policy runs (R32, R170, R175): Keeper is there, the map is, and no power failure is under way. -/
def State.background (s : State) : Bool :=
  s.ison HIF_STATUS.KEEPER_UP && s.ison AQF_STATUS.READY && s.get AQF_STATUS.PF == 0

/-- Entries enter the local catalogue from an entry on (R108, R201). -/
def State.loadEntries (s : State) (first : Nat) (es : List CatEntry) : State :=
  { s with sluice := { s.sluice with
    catalogue := es.zipIdx.foldl (fun l e => assocPut id (fun _ => catEntryZero) (first + e.2) e.1 l) s.sluice.catalogue } }

/-- A container that Keeper writes for the decoded-sample cache (R339): the host names the ranges of its sectors and of its entry, by
means that are not stated, and nothing states the entry's CLASS and USER: free values. (DESIGN CHOICE, assumption 71.) -/
def State.cacheContainer (s : State) (c : List Byte) : State :=
  let (first, s) := s.fresh 24 (max 1 (s.capSectors + 1 - ceilDiv c.length sectorBytes))
  let (index, s) := s.fresh 25 (2 ^ 32)
  let (tags, s) := s.fresh 26 65536
  s.modAqf (fun a => { a with cacheIn := a.cacheIn ++ [⟨c, first, 0, index, tags % 256, tags / 256⟩] })

/-- The next unit of a container of the cache path enters staging where the window has room, and after its last unit its catalogue
entry is written (R161, R339); a read-only array takes none (R184). -/
def State.cacheUnit (s : State) : State :=
  match s.aqf.cacheIn with
  | [] => s
  | w :: rest =>
    if s.ison AQF_STATUS.READ_ONLY then s.modAqf (fun a => { a with cacheIn := rest })
    else if s.background = false ∨ s.windowRoom 1 = false then s
    else
      let total := ceilDiv w.bytes.length sectorBytes
      let first := w.first + w.done
      let n := min (total - w.done) (4 - first % 4)
      let data := fitBytes (sectorBytes * n) (w.bytes.drop (sectorBytes * w.done))
      let last := total ≤ w.done + n
      let s := s.modAqf (fun a =>
        { a.stage ⟨none, first / 4, mergeUnit (a.unitData (first / 4)) (first % 4) data, true, some s.host.nextId, 0, none, [], true⟩ with
          cacheIn := if last then rest else { w with done := w.done + n } :: rest })
      if last then s.loadEntries w.index [⟨w.first, 0, w.bytes.length, 0x0C, w.cls, w.user, true, true⟩] else s

/-- The cache path goes on while it can. -/
def State.drainCache (s : State) : State :=
  s.each ((s.aqf.cacheIn.map (fun w => ceilDiv w.bytes.length sectorBytes + 1)).sum) (fun _ s => s.cacheUnit)

/-- Whether a staged unit, with the parity of its stripe, is programmed (R154, R155). -/
def AqfSt.safe (a : AqfSt) (x : Staged) : Bool :=
  match x.loc with
  | some (l, _) => !a.stripeOpen l
  | none => false

/-- Whether a staged unit can leave for the map: readers see it, it is safe, and so is the whole of its atomic group (R156). -/
def AqfSt.settles (a : AqfSt) (x : Staged) : Bool :=
  x.seen && a.safe x && (x.group == 0 || a.staging.all (fun y => y.task != x.task || a.safe y))

/-- Safe units leave staging for the map in their order: a unit never before an older one of the same number. -/
def AqfSt.settleGo (a : AqfSt) : List Staged → List Nat → AqfSt → AqfSt
  | [], _, m => m
  | x :: rest, blocked, m =>
    match x.loc with
    | some (l, _) =>
      if a.settles x ∧ blocked.contains x.unit = false then
        let m := m.setEntry x.unit (.mapped l)
        a.settleGo rest blocked { m with cached := (if x.cache then [x.unit] else []) ++ m.cached.filter (· != x.unit) }
      else a.settleGo rest (x.unit :: blocked) { m with staging := m.staging ++ [x] }
    | none => a.settleGo rest (x.unit :: blocked) { m with staging := m.staging ++ [x] }

def AqfSt.leaveStaging (a : AqfSt) : AqfSt := a.settleGo a.staging [] { a with staging := [] }

/-- The units that a run of `count` sectors from `first` covers. -/
def unitsOf (first count : Nat) : Nat := (first + count + 3) / 4 - first / 4

/-! ### The map and the deferred errors -/

/-- F of R159: the percentage of SLC pages that hold units not yet folded. The spec states no rounding: both divisions round
down. (DESIGN CHOICE, assumption 116.) -/
def State.slcFill (s : State) : Nat :=
  let dies := (allDies.filter (fun d => s.dieState d != dieAbsent)).length
  let pages := dies * s.aqf.slcLimit * s.aqf.pagesIn true
  if pages = 0 then 0
  else min 100 (100 * s.aqf.map.countP (fun e => match e.2 with
    | .mapped l => l.slc
    | _ => false) / pages)

/-- The limits of the fold scheduler (R159, R186): FOLD_LO acts as FOLD_HI where it is not below it. -/
def State.foldHi (s : State) : Nat := s.get AQF_SLC.FOLD_HI
def State.foldLo (s : State) : Nat := min (s.get AQF_SLC.FOLD_LO) s.foldHi

/-- What the map and the sequence number show. Intake is not held to the fold rate at or below THROTTLE (R159). -/
def State.showMap (s : State) : State :=
  let s := if s.slcFill ≤ s.get AQF_SLC.THROTTLE then s.modAqf (fun a => { a with folded := 0 }) else s
  (s.put AQF_SLC.FILL s.slcFill).putPair .AQF_SEQ_LO .AQF_SEQ_HI 0 s.aqf.seq

/-- Logs a deferred error (R176, R178): the entry that fills the log sets DEFER_OVF, and none is written after it.
(DEDUCED, assumption 60.) -/
def State.logDeferred (s : State) (sector count cause die : Nat) : State :=
  let head := s.aqf.dflHead
  let held := fun (h : Nat) => (h + 2 ^ 32 - s.get AQF_DFL_ACK.ACK) % 2 ^ 32
  if 4096 ≤ held head then s
  else
    let e : Deferred := ⟨head, sector, count, cause, die, s.power.uptime / 200⟩
    let s' := s.modAqf (fun a => { a with dflHead := head + 1, dflLog := (a.dflLog ++ [e]).drop (a.dflLog.length + 1 - 4096) })
    let s' := (s'.put AQF_DFL_HEAD.HEAD (head + 1)).ev AQF_EVENT.DEFER_NEW
    if 4096 ≤ held (head + 1) then s'.ev AQF_EVENT.DEFER_OVF else s'

/-- A record for the journal (R168): its SEQ is that of the next unit program, before which it falls.
(DESIGN CHOICE, assumption 117.) -/
def AqfSt.journalOp (a : AqfSt) (op : JournalOp) (task : Option Nat) : AqfSt :=
  { a with journal := a.journal ++ [⟨a.seq + 1, op, task⟩], clean := false }

/-- A unit is LOST (R149, R168, R176): a fetch that reads its page receives MEDIA_ERROR (R163). -/
def State.loseUnit (s : State) (u cause die : Nat) : State :=
  let hit := fun (f : Fetch) => f.landed.isNone && f.job.isNone && f.reads.any (fun r => r.1 == u && s.aqf.entry u == .mapped r.2)
  let s : State := { s with sluice := { s.sluice with
    fetches := s.sluice.fetches.map (fun f => if hit f then { f with data := none } else f) } }
  ((s.modAqf (fun a => (a.setEntry u .lost).journalOp (.lost u) none)).logDeferred (4 * u) 4 cause die).showMap

/-- The bytes of a deferred-error entry (R176). -/
def Deferred.bytes (e : Deferred) : List Byte :=
  leBytes 8 e.index ++ leBytes 6 e.sector ++ leBytes 2 e.count ++ leBytes 1 e.cause ++ zeros 1 ++ leBytes 2 e.die
    ++ zeros 4 ++ leBytes 8 e.time

/-! ### Map checkpoints -/

/-- The newer directory copy whose CRC is valid (R173). -/
def AqfSt.dir? (a : AqfSt) : Option Directory := a.dirs.find? Directory.valid

/-- The CKPT_SEQ of a segment (R167): that of the newer directory. -/
def AqfSt.ckptSeq (a : AqfSt) (k : Nat) : Nat :=
  ((a.dir?.bind (fun d => assocGet id k d.entries)).map (fun e => e.2)).getD a.base

/-- The segment checkpoint that a directory copy names for a segment. -/
def AqfSt.segmentOf (a : AqfSt) (d : Directory) (k : Nat) : Option SegmentSt :=
  ((assocGet id k d.entries).bind (fun e => e.1)).bind (fun f => assocGet id f a.segments)

/-- The entries that a segment's checkpoint on flash holds. -/
def AqfSt.ckptEntries (a : AqfSt) (k : Nat) : List (Nat × MapUnit) :=
  ((a.dir?.bind (fun d => a.segmentOf d k)).map (fun x => x.entries)).getD []

/-- The entries of a segment as the map has them. -/
def AqfSt.segmentNow (a : AqfSt) (k : Nat) : List (Nat × MapUnit) := a.map.filter (fun e => e.1 / segmentUnits == k)
def AqfSt.changed (a : AqfSt) (k : Nat) : Bool := a.segmentNow k != a.ckptEntries k

/-- The segment with the oldest CKPT_SEQ (R168). -/
def AqfSt.oldestSegment (a : AqfSt) : Nat :=
  (List.range 4096).foldl (fun best k => if a.ckptSeq k < a.ckptSeq best then k else best) 0

/-- Whether a Sluice fetch reads a die, and it has not landed (R162). -/
def State.sluiceReads (s : State) (d : Nat) : Bool :=
  s.sluice.fetches.any (fun f => f.landed.isNone && f.job.isNone && f.reads.any (fun r => r.2.die == d))

/-- The first `n` FREE blocks of an ONLINE die whose channel is not `avoid` and for which SLC_PCT leaves room (R158), from the highest number
down: a die that no Sluice read waits for comes first (R162). Where Aquifer keeps its checkpoints is not stated.
(DESIGN CHOICE, assumption 117.) -/
def State.freeBlocks (s : State) (avoid : Option Nat) (n : Nat) : List Nat :=
  let b := (s.aqf.geometry.map (fun g => g.blocks)).getD 0
  let on := fun (d : Nat) =>
    if s.dieState d ≠ dieOnline ∨ some (dieChannel d) = avoid ∨ s.aqf.slcLimit < s.slcBlocks d + n then none
    else
      let l := (((List.range b).map (fun i => b - 1 - i)).filter (fun k => (s.aqf.block d k).state == .free)).take n
      if l.length = n then some (l.map (blockKey d)) else none
  (((allDies.filter (fun d => !s.sluiceReads d)).findSome? on).or (allDies.findSome? on)).getD []

/-- CHECKPOINT blocks are taken (R151). -/
def AqfSt.takeBlocks (a : AqfSt) (l : List Nat) : AqfSt :=
  l.foldl (fun a k => a.setBlock (k / 8192) (k % 8192) { (a.block (k / 8192) (k % 8192)) with state := .checkpoint, slc := true }) a

/-- A block is erased and is FREE (R144, R151). -/
def State.eraseBlock (s : State) (d b : Nat) : State :=
  let x := s.aqf.block d b
  (s.arrayOp d x.slc .erase opErase [b] []).modAqf (fun a => { a.setBlock d b { x with
      state := .free, slc := false, used := 0, born := 0, closedAt := 0, gone := false
      eraseN := if x.slc then x.eraseN else x.eraseN + 1
      eraseS := if x.slc then x.eraseS + 1 else x.eraseS } with
    flash := a.flash.filter (fun p => p.1 / 2048 != blockKey d b) })

/-- Whether a head sample's read waits for a die (R136, R162). -/
def State.headReads (s : State) (d : Nat) : Bool :=
  s.sluice.fetches.any (fun f => f.landed.isNone && f.job.isNone && f.reads.any (fun r => r.2.die == d)
    && (s.rill f.rill).part.any (fun p => p.todo.head? == some (f.offset, f.g)))

/-- Whether an operation of a die, an erase or another, stands suspended for such a read (R162): the profile provides suspend, and no power
failure or reset drains staging. -/
def State.suspendedFor (s : State) (d : Nat) (erase : Bool) : Bool :=
  s.get AQF_STATUS.PF == 0 && s.power.resetPhase == .none
  && s.aqf.format.any (fun f => if erase then f.suspendsErase else f.suspendsProgram) && s.headReads d

/-- An operation of a die is suspended, by the profile's opcode (R146, R162). -/
def State.pauseDie (s : State) (d : Nat) : State :=
  if s.aqf.paused.contains d then s
  else (s.dieOp d [(s.aqf.format.map (fun f => f.suspendOp)).getD 0] [] []).modAqf (fun a => { a with paused := d :: a.paused })

/-- The suspended operations whose reads have ended go on (R146, R162). -/
def State.resumeDies (s : State) : State :=
  s.aqf.paused.foldl (fun s d =>
    if s.headReads d then s
    else (s.dieOp d [(s.aqf.format.map (fun f => f.resumeOp)).getD 0] [] []).modAqf (fun a => { a with paused := a.paused.filter (· != d) })) s

/-- A block is erased, or its die's erase is suspended. -/
def State.eraseOr (s : State) (d b : Nat) : State := if s.suspendedFor d true then s.pauseDie d else s.eraseBlock d b

/-- Segment checkpoints that no directory copy names any more are dropped. -/
def AqfSt.dropSegments (a : AqfSt) : AqfSt :=
  let named := a.dirs.flatMap (fun d => d.entries.filterMap (fun e => e.2.1))
  { a with segments := a.segments.filter (fun e => named.contains e.1) }

/-- CHECKPOINT blocks of ONLINE dies that hold no segment or directory any more are erased, and are FREE (R151). -/
def State.eraseCheckpoints (s : State) : State :=
  let used := s.aqf.segments.flatMap (fun e => e.2.blocks) ++ s.aqf.dirs.map (fun d => d.block)
  let l := s.aqf.blocks.filter (fun e => e.2.state == .checkpoint && !used.contains e.1 && s.dieState (e.1 / 8192) == dieOnline)
  l.foldl (fun s e => s.eraseOr (e.1 / 8192) (e.1 % 8192)) s

/-- The bytes of a page of Aquifer's own, encrypted under the array page address where a key pair is in the path (R185), with its metadata
(R152). -/
def State.ownCells (s : State) (l : FlashLoc) (bs : List Byte) : List Byte :=
  let data := fitBytes unitBytes bs
  (match s.aqf.keys with
    | some k => xtsEncrypt k (pageKey l.die l.block l.page) data
    | none => data) ++ (ownMeta s.aqf.seq).bytes

/-- The pages that `n` bytes of Aquifer's own take. -/
def ownPages (n : Nat) : Nat := ceilDiv n unitBytes

/-- Bytes of Aquifer's own are programmed into CHECKPOINT blocks, page by page (R144, R167). -/
def State.writeOwn (s : State) (blocks : List Nat) (bs : List Byte) : State :=
  let per := max 1 (s.aqf.pagesIn true - 1)
  s.each (ownPages bs.length) (fun i s =>
    let k := blocks.getD (i / per) 0
    let l : FlashLoc := ⟨k / 8192, k % 8192, i % per, true⟩
    s.programCells l (s.ownCells l ((bs.drop (unitBytes * i)).take unitBytes)))

/-- The older directory copy is rewritten with a segment's new entry, on another channel than the newer one (R167). -/
def State.writeDirectory (s : State) (k : Nat) (first : Option Nat) (seq : Nat) : State :=
  let newest := s.aqf.dir?
  let avoid := newest.map (fun d => dieChannel (d.block / 8192))
  match s.freeBlocks avoid 1 with
  | b :: _ =>
    let entries := assocIns id k (first, seq) (assocDel id k ((newest.map (fun d => d.entries)).getD []))
    let s := (s.modAqf (fun a => a.takeBlocks [b])).writeOwn [b] (dirBytes entries)
    (s.modAqf (fun a => ({ a with dirs := ⟨b, entries, dirCrc entries⟩ :: newest.toList }).dropSegments)).eraseCheckpoints
  | [] => s

/-- Blocks of a segment checkpoint of 20 MiB in SLC mode (R167). -/
def AqfSt.segmentBlocks (a : AqfSt) : Nat := ceilDiv 1280 (max 1 (a.pagesIn true - 1))

/-- The bytes of a segment: its 2^22 map entries (R148, R167). -/
def AqfSt.segmentBytes (a : AqfSt) (k : Nat) : List Byte :=
  (List.range segmentUnits).flatMap (fun i => (a.entry (k * segmentUnits + i)).bytes)

/-- Whether a segment can be copied: no unit of it that is programmed, and so carries a SEQ, waits in staging for its stripe or its group.
Its map entry would be older than the CKPT_SEQ says. (DESIGN CHOICE, assumption 117.) -/
def AqfSt.settled (a : AqfSt) (k : Nat) : Bool := !a.staging.any (fun x => x.loc.isSome && x.unit / segmentUnits == k)

/-- A segment is checkpointed at the current sequence number (R167, R168): through the shadow into CHECKPOINT blocks, or, where it is
unchanged, by a directory update alone. -/
def State.checkpoint (s : State) (k : Nat) : State :=
  if s.aqf.settled k = false then s
  else if s.aqf.changed k = false then
    let first := (s.aqf.dir?.bind (fun d => assocGet id k d.entries)).bind (fun e => e.1)
    s.writeDirectory k first s.aqf.seq
  else
    match s.freeBlocks none s.aqf.segmentBlocks with
    | [] => s
    | b :: rest =>
      let bytes := s.aqf.segmentBytes k
      let s := s.modAqf (fun a => { a.takeBlocks (b :: rest) with
        segments := assocIns id b ⟨k, b :: rest, a.segmentNow k⟩ (assocDel id b a.segments) })
      (s.writeOwn (b :: rest) bytes).writeDirectory k (some b) s.aqf.seq

/-- The horizon in unit programs (R168): HORIZON_GIB, clamped, of host writes. -/
def State.horizonUnits (s : State) : Nat := max 16 (min 1024 (s.get AQF_CKPT.HORIZON_GIB)) * 65536

/-- Whether one more unit program keeps every CKPT_SEQ within the horizon (R168); a drain of staging does not wait for checkpoints, which have
stopped (R170). -/
def State.inHorizon (s : State) : Bool :=
  decide (s.aqf.seq < s.aqf.ckptSeq s.aqf.oldestSegment + s.horizonUnits) || s.ison AQF_STATUS.PF || s.power.resetPhase != .none

/-! ### Erasing -/

/-- Whether a block holds no unit that the map or staging names. -/
def AqfSt.deadBlock (a : AqfSt) (d b : Nat) : Bool :=
  !a.map.any (fun e => match e.2 with
    | .mapped l => l.die == d && l.block == b
    | _ => false)
  && !a.staging.any (fun x => x.loc.any (fun l => l.1.die == d && l.1.block == b))

/-- Whether what a CLOSED block's pages say of the map is covered by the checkpoints of their segments (R160, R174), those of an atomic unit
by the checkpoints of its whole group. -/
def AqfSt.replayed (a : AqfSt) (d b : Nat) : Bool :=
  let x := a.block d b
  let covered := fun (m : PageMeta) => decide ((if m.copy then x.closedAt else m.seq) ≤ a.ckptSeq (m.unit / segmentUnits))
  let group := fun (m : PageMeta) => a.flash.all (fun e => match e.2 with
    | .unit n _ _ => !n.atomic || n.group != m.group || decide (n.seq ≤ a.ckptSeq (n.unit / segmentUnits))
    | _ => true)
  (a.blockMetas d b).all (fun m => m.parity || m.pad || (covered m && (!m.atomic || group m)))
  && (List.range x.used).all (fun p => match a.page? d b p with
    | some (.journal _ rs) => rs.all (fun r => match r.op with
      | .clear first count => (List.range (count / segmentUnits + 2)).all (fun i => decide (r.seq ≤ a.ckptSeq (first / segmentUnits + i)))
      | .lost u => decide (r.seq ≤ a.ckptSeq (u / segmentUnits)))
    | _ => true)

/-- Whether a copy made from a block still stands in an OPEN_COPY block, its summary not programmed (R160). -/
def AqfSt.copying (a : AqfSt) (d b : Nat) : Bool :=
  a.blocks.any (fun e => e.2.state == .openCopy && !e.2.gone
    && (a.blockMetas (e.1 / 8192) (e.1 % 8192)).any (fun m => m.copy && (locOf m.source).die == d && (locOf m.source).block == b))

/-- Whether a block can be erased: CLOSED or abandoned, dead, covered by the checkpoints, no copy of it waiting for its summary, and so is
the rest of its group's row, which its stripes protect. (DESIGN CHOICE, assumption 117.) -/
def AqfSt.erasable (a : AqfSt) (d b : Nat) : Bool :=
  (groupDies (dieGroup d)).all (fun e =>
    let x := a.block e b
    x.state == .free || x.state == .bad || x.state == .grownBad || x.state == .openJournal || x.state == .checkpoint
    || (((x.state == .closed && a.replayed e b) || (x.state == .openCopy && x.gone)) && a.deadBlock e b && !a.copying e b))

/-- Blocks that can be erased are erased, and are FREE (R151, R160). -/
def State.eraseDead (s : State) : State :=
  let l := s.aqf.blocks.filter (fun e => (e.2.state == .closed || (e.2.state == .openCopy && e.2.gone))
    && s.dieState (e.1 / 8192) == dieOnline && s.aqf.erasable (e.1 / 8192) (e.1 % 8192))
  (l.foldl (fun s e => s.eraseOr (e.1 / 8192) (e.1 % 8192)) s).eraseCheckpoints

/-! ### Life -/

/-- The terms of R183: wear, spare and dies. (DEDUCED, assumption 58.) -/
def lifeTerms (slcDiv pe spareBlks dieBudget en es d b rmax rd : Nat) : Nat × Nat × Nat :=
  (100 * (slcDiv * en + es) / (slcDiv * d * b * pe), 100 * rmax / spareBlks, 100 * rd / dieBudget)

/-- The GROWN_BAD blocks of a die (R180, R183). -/
def AqfSt.grown (a : AqfSt) (d : Nat) : Nat := a.blocks.countP (fun e => e.1 / 8192 == d && e.2.state == .grownBad)

/-- The write tasks that are under way when the array becomes read-only end with MEDIA_ERROR (R184). -/
def State.endWrites (s : State) : State :=
  (s.setTasks (s.host.tasks.map (fun t =>
    if (t.opcode = 2 ∨ t.opcode = 3) ∧ t.done = none then
      { t with started := true, done := some (0x0030, if t.opcode = 2 ∧ t.atomic = false then t.progress else 0) }
    else t))).dropPartial

/-- Life used (R183, R184). -/
def State.lifeEval (s : State) : State :=
  match s.aqf.format, s.aqf.geometry with
  | some f, some g =>
    let dies := allDies.filter (fun d => s.dieState d == 0 || s.dieState d == 1)
    let mine := s.aqf.blocks.filter (fun e => dies.contains (e.1 / 8192))
    let en := (mine.map (fun e => e.2.eraseN)).sum
    let es := (mine.map (fun e => e.2.eraseS)).sum
    let rmax := (allDies.map s.aqf.grown).foldl max 0
    let rd := (allDies.filter (fun d => s.dieState d == dieRetired)).length
    let (wear, spare, die) := lifeTerms f.slcDiv f.peNative f.spareBlks f.dieBudget en es dies.length g.blocks rmax rd
    let old := s.aqf.life
    let life := max old (min 100 (max wear (max spare die)))
    let was := s.aqf.readOnly
    let s := s.modAqf (fun a => { a with life := life, readOnly := a.readOnly || decide (100 ≤ spare) })
    let s := (s.put AQF_LIFE.DIE (min 255 die)).put AQF_LIFE.SPARE (min 255 spare)
    let s := (s.put AQF_LIFE.WEAR (min 255 wear)).put AQF_LIFE.LIFE life
    let s := s.putb AQF_STATUS.READ_ONLY s.aqf.readOnly
    let s := if s.aqf.readOnly && !was then s.endWrites else s
    if old / 10 < life / 10 then s.ev AQF_EVENT.LIFE_STEP else s
  | _, _ => s

end Sys2Proof.Machine
end

