-- ==== Sys2Proof/Machine/Replay.lean ====
section
/-! DEFINITION. What flash keeps through a power-on reset, and the mount that rebuilds the map from it (R169, R173, R174). -/
namespace Sys2Proof.Machine

/-- What one replay record does to the map (R174). -/
inductive ReplayAct where
  | put (unit : Nat) (loc : FlashLoc)
  | move (unit : Nat) (source : Nat) (loc : FlashLoc)
  | clear (first count : Nat)
  | lost (unit : Nat)
  deriving DecidableEq, Repr

/-- A replay record: its SEQ, its place among records of one SEQ, and what it does. A journal record and the closing of a copy block fall
before the unit program of their SEQ. -/
structure ReplayRec where
  seq : Nat
  order : Nat
  act : ReplayAct
  deriving DecidableEq, Repr

/-- The pages of a block in their order, with their places. -/
def AqfSt.blockPages (a : AqfSt) (d b : Nat) : List (FlashLoc × FlashPage) :=
  let x := a.block d b
  (List.range x.used).filterMap (fun p => (a.page? d b p).map (fun g => (⟨d, b, p, x.slc⟩, g)))

/-- The metadata of every unit page that replay reads: those of CLOSED and OPEN_HOST blocks (R173), and those of a GROWN_BAD block, which
holds units that were programmed before it failed. (DESIGN CHOICE, assumption 117.) -/
def AqfSt.replayMetas (a : AqfSt) : List PageMeta :=
  a.blocks.flatMap (fun e => if e.2.state = .closed ∨ e.2.state = .openHost ∨ e.2.state = .grownBad then a.blockMetas (e.1 / 8192) (e.1 % 8192) else [])

/-- Whether all units of a page's atomic group have been programmed (R174). -/
def wholeGroup (metas : List PageMeta) (m : PageMeta) : Bool :=
  !m.atomic || metas.countP (fun x => x.atomic && x.group == m.group) == m.groupCount

/-- The replay records of a page of a block (R173, R174): padding and parity are skipped, the copies of a block that is still
OPEN_COPY are ignored, and those of a CLOSED one count at its closing SEQ. -/
def pageRecords (metas : List PageMeta) (x : BlockSt) (e : FlashLoc × FlashPage) : List ReplayRec :=
  match e.2 with
  | .unit m _ _ =>
    if m.parity ∨ m.pad then []
    else if m.copy then (if x.state = .closed then [⟨x.closedAt, 0, .move m.unit m.source e.1⟩] else [])
    else if wholeGroup metas m then [⟨m.seq, 1, .put m.unit e.1⟩] else []
  | .journal _ rs => rs.map (fun r => ⟨r.seq, 0, match r.op with
      | .clear first count => .clear first count
      | .lost u => .lost u⟩)
  | .summary _ _ _ => []

/-- The records of the array, block by block. -/
def AqfSt.replayRecords (a : AqfSt) : List ReplayRec :=
  let metas := a.replayMetas
  a.blocks.flatMap (fun e => (a.blockPages (e.1 / 8192) (e.1 % 8192)).flatMap (pageRecords metas e.2))

/-- A record in its place in ascending SEQ: behind the records it is not before. -/
def insertReplay (r : ReplayRec) : List ReplayRec → List ReplayRec
  | [] => [r]
  | x :: l => if x.seq < r.seq ∨ (x.seq = r.seq ∧ x.order ≤ r.order) then x :: insertReplay r l else r :: x :: l

def sortReplay (l : List ReplayRec) : List ReplayRec := l.foldl (fun acc r => insertReplay r acc) []

/-- One record changes the map (R174): a segment only where its SEQ exceeds the segment's CKPT_SEQ, and a copy only where the map names
its SOURCE. -/
def AqfSt.replayOne (a : AqfSt) (r : ReplayRec) : AqfSt :=
  let after := fun (u : Nat) => decide (a.ckptSeq (u / segmentUnits) < r.seq)
  match r.act with
  | .put u l => if after u then a.setEntry u (.mapped l) else a
  | .move u src l => if after u ∧ (a.entry u).value = src then a.setEntry u (.mapped l) else a
  | .clear first count =>
    { a with map := a.map.filter (fun e => !(decide (first ≤ e.1) && decide (e.1 < first + count) && after e.1)) }
  | .lost u => if after u then a.setEntry u .lost else a

/-- The map of the segments as the newer valid directory copy has them (R173): in ascending unit. -/
def AqfSt.segmentMap (a : AqfSt) : List (Nat × MapUnit) :=
  match a.dir? with
  | some d =>
    let es := d.entries.flatMap (fun e => ((a.segmentOf d e.1).map (fun x => x.entries)).getD [])
    es.foldl (fun m e => assocPut id (fun _ => MapUnit.unmapped) e.1 e.2 m) []
  | none => []

/-- The highest SEQ that flash shows: of its unit pages and its markers. -/
def AqfSt.lastSeq (a : AqfSt) : Nat :=
  let pages := a.flash.map (fun e => match e.2 with
    | .unit m _ _ => m.seq
    | .summary _ _ n => n
    | .journal _ _ => 0)
  (pages ++ a.markers.map (fun m => m.2) ++ a.dirs.flatMap (fun d => d.entries.map (fun e => e.2.2))).foldl max a.base

/-- The state that a block has after a mount, rebuilt from what its pages hold (R151, R173, R174): BAD and GROWN_BAD blocks are known as such,
CHECKPOINT blocks are those that a directory names; a block with its summary is CLOSED; another is open as its pages say, an OPEN_COPY block
with its copies ignored from now on; one without pages is FREE. Pages that tell nothing, padding and parity, count as a host block's.
(DESIGN CHOICE, assumption 117.) -/
def AqfSt.foundBlock (a : AqfSt) (e : Nat × BlockSt) : BlockSt :=
  let x := e.2
  let pages := (a.blockPages (e.1 / 8192) (e.1 % 8192)).map (·.2)
  let last := a.page? (e.1 / 8192) (e.1 % 8192) (a.pagesIn x.slc - 1)
  let named := a.segments.flatMap (fun s => s.2.blocks) ++ a.dirs.map (fun d => d.block)
  if x.state = .bad ∨ x.state = .grownBad then x
  else if named.contains e.1 then { x with state := .checkpoint }
  else match last with
    | some (.summary _ _ n) => { x with state := .closed, closedAt := n }
    | _ =>
      if x.state = .checkpoint ∨ pages.isEmpty then { x with state := .free, slc := false, used := 0, closedAt := 0, gone := false }
      else if pages.any (fun p => match p with | .journal _ _ => true | _ => false) then { x with state := .openJournal }
      else if pages.any (fun p => match p with | .unit m _ _ => m.copy | _ => false) then { x with state := .openCopy, gone := true }
      else { x with state := .openHost }

/-- The block states rebuilt (R173). -/
def AqfSt.findBlocks (a : AqfSt) : AqfSt := { a with blocks := a.blocks.map (fun e => (e.1, a.foundBlock e)) }

/-- The parity of the host stripes that still wait for it, taken over the pages that are there (R150). (DESIGN CHOICE, assumption 117.) -/
def AqfSt.findParity (a : AqfSt) : AqfSt :=
  a.blocks.foldl (fun a e =>
    if e.2.state = .openHost then
      (a.blockPages (e.1 / 8192) (e.1 % 8192)).foldl (fun a p => if a.stripeClosed p.1 then a else a.addParity (stripeOf p.1) (a.pageCells p.1)) a
    else a) a

/-- The mount's phases (R173, R174): the newer valid directory copy, the segments, the records of summaries and open blocks with the blocks'
states, and their application in ascending SEQ. After a clean marker there are no records that the checkpoints lack. -/
def AqfSt.mount (a : AqfSt) : AqfSt :=
  let a := { a with map := a.segmentMap, seq := a.lastSeq }.findBlocks
  ((sortReplay a.replayRecords).foldl AqfSt.replayOne a).findParity

/-- What flash and the settings ledger hold through a reset: not the map in Cistern, nor staging, nor what the loops keep in the
controllers (R143, R164, R173). -/
def AqfSt.onFlash (a : AqfSt) : AqfSt :=
  { AqfSt.reset with
    ids := a.ids, retired := a.retired, format := a.format
    blocks := a.blocks.map (fun e => (e.1, { e.2 with born := 0 })), flash := a.flash, segments := a.segments, dirs := a.dirs
    base := a.base, markers := a.markers, clean := a.clean
    dflHead := a.dflHead, dflAck := a.dflAck, dflLog := a.dflLog
    life := a.life, keyGen := a.keyGen, readOnly := a.readOnly
    drainLost := a.drainLost, cached := a.cached }

end Sys2Proof.Machine
end

