-- ==== Sys2Proof/Machine/StopOps.lean ====
section
/-! DEFINITION. Stillwater's triggers (R428 to R432), the trace ring (R442, R443) and the faults of a Rill. -/
namespace Sys2Proof.Machine

/-- The stored tick of an event: always-on cycles since the start tick (R442). -/
def State.tick (s : State) : Nat := (s.power.uptime - s.dbg.startTick) % 2 ^ 48

/-- A stamp as SPOUT events and SYNC carry it (R442). -/
def State.traceStamp (s : State) : Nat :=
  s.time % 65536 + 2 ^ 16 * (s.time / 65536 % 1000000000) + 2 ^ 48 * (s.time / oneSecond % 65536)

def State.traceRing (s : State) : Nat := 2 ^ max 8 (min 24 (s.get DBG_TRACE_CTRL.LOG2))

/-- The first record that the host has not consumed, as a ring position. -/
def State.traceHead (s : State) : Nat :=
  let h := (s.word .DBG_TRACE_PTR 0).toNat % 65536
  if 65536 < s.traceRing then h * 256 % s.traceRing else h % s.traceRing

/-- Writes a trace record (R442), whatever the enables: dropped and counted where the ring is full. The position within
the tick is a free value. (DEDUCED, assumption 62.) -/
def State.traceRecord (s : State) (event unit arg0 arg1 arg2 : Nat) : State :=
  let n := s.traceRing
  if (s.dbg.tail + 1) % n = s.traceHead then (s.bump DBG_TRACE_LOST.COUNT 1).ev DBG_EVENT.TRACE_OVF
  else
    let (sub, s) := s.fresh 3 65536
    let bs := leBytes 6 s.tick ++ leBytes 2 sub ++ leBytes 1 event ++ leBytes 1 unit ++ zeros 2 ++ leBytes 4 arg0
      ++ leBytes 8 arg1 ++ leBytes 8 arg2
    let addr := s.pair .DBG_TRACE_BASE_LO .DBG_TRACE_BASE_HI 0 + 32 * s.dbg.tail
    let s := s.emit (if s.ison DBG_TRACE_CTRL.DEST then .stream "TRACE" addr bs else .hostWrite addr bs s.relaxed)
    let tail := (s.dbg.tail + 1) % n
    let shown := if 65536 < n then tail / 256 else tail
    ({ s with dbg := { s.dbg with tail := tail } }).put ⟨.DBG_TRACE_PTR, 31, 16⟩ shown

/-- An event is traced where EN and its enable bit are 1. -/
def State.trace (s : State) (event unit arg0 arg1 arg2 : Nat) : State :=
  if s.ison DBG_TRACE_CTRL.EN ∧ bitOf (s.get DBG_TRACE_CTRL.EVENTS) (event - 1) then
    s.traceRecord event unit arg0 arg1 arg2
  else s

/-- Whether Stillwater has frozen the data plane (R430, R432). -/
def State.frozen (s : State) : Bool :=
  s.get DBG_STW_STATUS.STATE == 2 || s.get DBG_STW_STATUS.STATE == 3 || s.get DBG_STW_STATUS.STATE == 4

/-- Whether the device domain runs: out of reset, and not in P3. -/
def State.awake (s : State) : Bool :=
  !s.power.porHeld && s.power.resetPhase != .held && decide (s.power.state < 3)

/-- Whether the drain of a device reset runs, or the reset holds (R462). -/
def State.draining (s : State) : Bool := s.power.resetPhase != .none

/-- The drain of a device reset begins (R462, R463). -/
def State.startDrain (s : State) : State :=
  { s with
    power := { s.power with resetPhase := .drain, resetDeferred := false }
    aqf := { s.aqf with failed := [] } }

/-- Whether the compute fabric stands still: frozen, or gated in a power state below P0 (R216, R430). -/
def State.halted (s : State) : Bool := s.frozen || s.power.state != 0

/-- Whether the Cascade stands still: the fabric does, or the Cascade is in reset (R50, R430). -/
def State.still (s : State) : Bool := s.halted || !s.ison PWR_STATUS.CASCADE_UP

/-- The Rill banks of the active weave (R434). -/
def State.rillBanks (s : State) : List Nat :=
  match s.weave? with
  | some w => (List.range 1024).filter (fun b => bitsOf (w.owners.getD b 0) 31 28 == 1)
  | none => []

/-- The length of a scan-out image (R433, R434). -/
def State.scanLen (s : State) : Nat :=
  let banks := if s.ison DBG_STW_CTRL.BANKS then s.rillBanks.length else 0
  alignUp 4096 (64 + 16 * (86 + banks)) + 16 * 4096 + 68 * 1024 + 65536 + 262144 + 262144 * banks

/-- Scanning starts (R432, R433). -/
def State.startScan (s : State) : State :=
  let s := (s.put DBG_STW_STATUS.STATE 3).put DBG_STW_LEN.BYTES s.scanLen
  { s with dbg := { s.dbg with
    scan := some (s.get DBG_STW_SEEN.CODES, s.ison DBG_STW_CTRL.BANKS, s.ison DBG_STW_CTRL.DEST) } }

/-- Whether a trigger is enabled (R428): LOCKSTEP by MIR_LS_CTRL.STOP alone. -/
def State.stwEnabled (s : State) (code : Nat) : Bool :=
  if code = 5 then s.ison MIR_LS_CTRL.STOP else bitOf (s.get DBG_STW_EN.CODES) code

/-- A trigger fires (R428, R429): SEEN takes it whatever the state; ARMED and enabled, it freezes the data plane, and with
AUTO_SCAN scanning starts at the freeze. -/
def State.trigger (s : State) (code : Nat) : State :=
  let s := s.put DBG_STW_SEEN.CODES (setBit (s.get DBG_STW_SEEN.CODES) code)
  if s.get DBG_STW_STATUS.STATE = 1 ∧ s.stwEnabled code then
    let s := (s.put DBG_STW_STATUS.TRIGGER code).put DBG_STW_STATUS.STATE 2
    let s := { s with dbg := { s.dbg with stopTime := s.time } }
    let s := s.trace 9 0 code 0 s.traceStamp
    if s.ison DBG_STW_CTRL.AUTO_SCAN then s.startScan else s
  else s

/-- Whether a Rill fault is the one that SVC_RILL_FAULT latches (R400): none is latched, or the one latched fell in the same cycle and has
the higher Rill, or the same Rill and the higher cause. Faults between which the always-on clock does not advance count as of one cycle.
(DESIGN CHOICE, assumption 106.) -/
def State.rillLatches (s : State) (r cause : Nat) : Bool :=
  !s.ison SVC_RILL_FAULT.VALID
  || s.svc.latch.any (fun l => l.1 == s.power.uptime && (decide (r < l.2.1) || (r == l.2.1 && decide (cause < l.2.2))))

/-- SVC_RILL_FAULT and the SVC_RILL_STEP registers take a fault (R400). -/
def State.latchRill (s : State) (r cause stage step : Nat) : State :=
  let s := ((s.put SVC_RILL_FAULT.CAUSE cause).put SVC_RILL_FAULT.RILL r).put SVC_RILL_FAULT.STAGE stage
  let s := (s.putPair .SVC_RILL_STEP_LO .SVC_RILL_STEP_HI 0 step).put SVC_RILL_FAULT.VALID 1
  { s with svc := { s.svc with latch := some (s.power.uptime, r, cause) } }

/-- A fault is added to those pending on a Rill, which stops at its boundary (R401). -/
def RillSt.addFault (x : RillSt) (f : RillFault) : RillSt :=
  { x with
    mode := if x.mode = .running then .stopping else x.mode
    faults := if x.faults.contains f then x.faults else x.faults ++ [f] }

/-- A fault of a Rill (R398 to R401, R428): latched where it is the first, logged, and pending until the boundary of the part. A Rill that
has stopped runs nothing that could fault, but an engine of it can be retired. (DEDUCED, assumption 104.) -/
def State.rillFault (s : State) (r cause stage row : Nat) : State :=
  let x := s.rill r
  if x.mode = .dead ∨ (x.mode = .stopped ∧ cause ≠ 6) then s
  else
    let step := (x.part.map (·.step)).getD 0
    let s := s.ev SVC_EVENT.RILL_FAULT
    let s := if s.rillLatches r cause then s.latchRill r cause stage step else s
    let s := if row = 0 then s else s.logFault row cause r step
    (s.modRill r (fun y => y.addFault ⟨cause, stage, 0⟩)).trigger 3

end Sys2Proof.Machine
end

