-- ==== Sys2Proof/Machine/Aquifer.lean ====
section
/-! DEFINITION. Aquifer's commands: extent tasks (R153 to R157, R199), programs, folds and relocations (R150, R159 to
R166), reads and the read-threshold loop (R163, R164), dies and channels (R179 to R182), power loss and mount (R169 to
R175), deferred errors, life, format and crypto-erase (R176 to R185, R202). -/
namespace Sys2Proof.Machine

/-- The bytes of a READ_EXTENT that have left flash: those it has sent, and those that wait in Basin. -/
def Task.fetched (t : Task) : Nat := t.progress + (t.landed.map (fun u => u.1.length)).sum

/-- Whether the reads of a fetch can end now: its sample is lost, it goes to Pebble (R338), or Basin has the buffers for it (R110). -/
def State.canLand (s : State) (f : Fetch) : Bool :=
  match f.data with
  | none => true
  | some b =>
    let (pool, n) := placeFor b.length
    f.entry.codec == 0x0C || (s.takeBufs 3 pool n).2.isSome

/-- Whether a fetch is for its Rill's head sample (R136). -/
def State.isHead (s : State) (f : Fetch) : Bool := (s.rill f.rill).part.any (fun p => p.todo.head? == some (f.offset, f.g))

/-- Whether a Sluice read of a die waits that is for a head sample, or not, and that can end (R162). -/
def State.waitsSluice (s : State) (d : Nat) (head : Bool) : Bool :=
  s.sluice.fetches.any (fun f => f.landed.isNone && f.job.isNone && f.reads.any (fun r => r.2.die == d) && s.isHead f == head && s.canLand f)

/-- The die that a host read's next unit is read from. -/
def State.nextDie (s : State) (t : Task) : Option Nat :=
  let done := t.progress + (t.landed.map (fun u => u.1.length)).sum
  if t.opcode = 1 ∧ t.started ∧ t.done = none ∧ t.short = false ∧ done < sectorBytes * t.count then
    (s.aqf.onPage ((t.target + done / sectorBytes) / 4)).map (fun l => l.die)
  else none

/-- Whether a host read of a die waits that can end (R162). -/
def State.waitsHost (s : State) (d : Nat) : Bool :=
  s.host.tasks.any (fun t => s.nextDie t == some d) && (s.takeBuf hostRead unitPool 7).2.isSome

/-- Whether a die serves a host read now (R162): no head sample's read waits for it, and it alternates with other Sluice reads. -/
def State.servesHost (s : State) (d : Nat) : Bool :=
  !s.waitsSluice d true && !(s.aqf.lastHost.contains d && s.waitsSluice d false)

/-- Whether the dies of a fetch serve it now (R162): a head sample's always; another in alternation with host reads. -/
def State.servesSluice (s : State) (f : Fetch) : Bool :=
  s.isHead f || f.reads.all (fun r => !s.waitsSluice r.2.die true && (s.aqf.lastHost.contains r.2.die || !s.waitsHost r.2.die))

/-- A die has served a host read, or dies have served a Sluice read. -/
def AqfSt.servedHost (a : AqfSt) (d : Nat) : AqfSt := { a with lastHost := d :: a.lastHost.filter (· != d) }
def AqfSt.servedSluice (a : AqfSt) (f : Fetch) : AqfSt :=
  { a with lastHost := a.lastHost.filter (fun d => !f.reads.any (fun r => r.2.die == d)) }

/-- Whether a die serves a program that drains staging now (R162): the drain of a power failure or a reset first; above class 3 while
staging holds more than half of the window; else once no read waits for the die. -/
def State.servesProgram (s : State) (d : Nat) : Bool :=
  s.ison AQF_STATUS.PF || s.power.resetPhase != .none
  || (!s.waitsSluice d true && (s.windowHalf || (!s.waitsSluice d false && !s.waitsHost d)))

/-- One unit of a READ_EXTENT arrives in a Basin buffer (R149, R157, R162, R210, R312): its sectors up to a LOST unit, which ends what
the task can read; without a buffer the unit waits. -/
def landUnit (t : Nat) (s : State) : State :=
  match s.task? t with
  | some x =>
    let first := x.target + x.fetched / sectorBytes
    let n := min (x.count - x.fetched / sectorBytes) (4 - first % 4)
    let die := (s.aqf.onPage (first / 4)).map (fun l => l.die)
    if n = 0 ∨ x.short ∨ die.any (fun d => !s.servesHost d) then s
    else
      match s.aqf.sectors first n, s.takeBuf hostRead unitPool 7 with
      | none, _ => s.modTask t (fun y => { y with short := true })
      | some b, (s', some buf) =>
        let s' := die.toList.foldl (fun s d => s.modAqf (fun a => a.servedHost d)) (s'.issueReads first n)
        showBasin s (s'.modTask t (fun y => { y with landed := y.landed ++ [(b, buf)] }))
      | _, (s', none) => s'
  | none => s

/-- The oldest unit that waits leaves for the host's buffer (R197, R210). -/
def sendUnit (t : Nat) (s : State) : State :=
  match s.task? t with
  | some x =>
    match x.landed with
    | (b, buf) :: rest =>
      let s := showBasin s (s.freeBufs hostRead [buf])
      (s.deliver x x.progress b).modTask t (fun y => { y with progress := x.progress + b.length, landed := rest })
    | [] => s
  | none => s

/-- A READ_EXTENT that has sent all it can ends (R149, R199): with MEDIA_ERROR where a LOST unit cut it short. -/
def readEnd (t : Nat) (s : State) : State :=
  match s.task? t with
  | some x =>
    if x.landed.isEmpty = false then s
    else if x.progress = sectorBytes * x.count then s.endTask t 0 x.progress
    else if x.short then s.endTask t 0x0030 x.progress
    else s
  | none => s

/-- READ_EXTENT (R149, R157, R170, R210): its next units arrive in Basin, or the units that wait there are sent.
(DEDUCED, assumption 55.) -/
def readEffect (t : Nat) (step : ReadStep) (s : State) : State :=
  s.runTask t 0x01 (fun _ s =>
    match step with
    | .land units =>
      if s.ison AQF_STATUS.PF ∨ s.get AQF_STATUS.READY = 0 then s
      else readEnd t (s.each units (fun _ s => landUnit t s))
    | .send units => readEnd t (s.each units (fun _ s => sendUnit t s)))

/-- The units of the atomic group that a task's write is, 0 where it is none (R152, R156). -/
def Task.groupUnits (t : Task) : Nat := if t.atomic then unitsOf t.target t.count else 0

/-- Whether intake is limited to the fold rate, and no folded unit is left to make room (R159): above THROTTLE each admitted unit waits
for one that has been folded above THROTTLE. -/
def State.throttled (s : State) : Bool := decide (s.get AQF_SLC.THROTTLE < s.get AQF_SLC.FILL) && s.aqf.folded == 0

/-- One unit of intake uses one of fold. -/
def AqfSt.takeFold (a : AqfSt) : AqfSt := { a with folded := a.folded - 1 }

/-- UNIT_ADMIT (R153, R154, R156, R159, R312): the next unit of a write enters staging, from a buffer of Basin, merged with what it held. Readers see an
atomic group once its last unit has entered. -/
def admitEffect (t : Nat) (r : HostRead) (s : State) : State :=
  if s.ison AQF_STATUS.PF ∨ s.windowRoom 1 = false ∨ s.throttled then s
  else s.runTask t 0x02 (fun x s =>
    let first := x.target + x.progress
    let n := min (x.count - x.progress) (4 - first % 4)
    let data := r.bytes
    if r.fail.isSome then
      (s.sourceFailed x (sectorBytes * x.progress + data.length) (r.fail.getD 0) x.failedResult).dropPartial
    else if n = 0 ∨ data.length ≠ sectorBytes * n then s
    else s.withUnit hostWrite (fun s =>
      let u := first / 4
      let last := x.progress + n = x.count
      let a := s.aqf.takeFold.stage ⟨some t, u, mergeUnit (s.aqf.unitData u) (first % 4) data, !x.atomic, none, x.groupUnits, none, [], false⟩
      let a := if last then { a with staging := a.staging.map (fun y => if y.task = some t then { y with seen := true } else y) } else a
      ({ s with aqf := a.leaveStaging }.modTask t (fun y => { y with progress := x.progress + n })).showMap))

/-- Whether every unit that a task staged is programmed with its stripe's parity, and every journal record it made is programmed (R154,
R204). -/
def State.durable (s : State) (t : Nat) : Bool :=
  s.aqf.staging.all (fun u => u.task != some t || s.aqf.safe u) && s.aqf.journal.all (fun r => r.task != some t)

/-- The units that a task staged are acknowledged (R154, R155). -/
def State.acknowledge (s : State) (t : Nat) : State :=
  let n := s.host.nextId
  s.modAqf (fun a => { a with staging := a.staging.map (fun u => if u.task = some t then { u with acked := some n } else u) })

/-- WRITE_EXTENT completes (R154): once all its units are in staging, or with FUA once all are programmed. -/
def writeEffect (t : Nat) (s : State) : State :=
  s.runTask t 0x02 (fun x s =>
    if x.progress = x.count ∧ (x.fua = false ∨ s.durable t) then (s.acknowledge t).endTask t 0 x.count else s)

/-- The zeros that a deallocation writes over the covered sectors of a partly covered unit (R149). -/
def zeroPart (t first count u : Nat) (a : AqfSt) : AqfSt :=
  let lo := max first (4 * u)
  let hi := min (first + count) (4 * u + 4)
  a.stage ⟨some t, u, mergeUnit (a.unitData u) (lo - 4 * u) (zeros (sectorBytes * (hi - lo))), true, none, 0, none, [], false⟩

/-- The units that a run of sectors covers in part: at most its first and its last. -/
def partUnits (first count : Nat) : List Nat :=
  let a := first / 4
  let b := (first + count - 1) / 4
  let isPart := fun u => decide (4 * u < first) || decide (first + count < 4 * u + 4)
  (if isPart a then [a] else []) ++ (if b ≠ a ∧ isPart b then [b] else [])

/-- Whether a unit lies wholly in a run of sectors. -/
def wholeUnit (first count u : Nat) : Bool := decide (first ≤ 4 * u) && decide (4 * u + 4 ≤ first + count)

/-- The journal record of the units that a run of sectors covers wholly (R168); none where it covers none. -/
def AqfSt.recordClear (a : AqfSt) (first count : Nat) (task : Option Nat) : AqfSt :=
  let lo := ceilDiv first 4
  let hi := (first + count) / 4
  if lo < hi then a.journalOp (.clear lo (hi - lo)) task else a

/-- DEALLOCATE (R149, R168, R204): wholly covered units become UNMAPPED, which the journal records, and the others are rewritten with
zeros in their covered sectors; with FUA it completes once the record and those units are programmed. (DEDUCED, assumption 59.) -/
def deallocEffect (t : Nat) (s : State) : State :=
  s.runTask t 0x03 (fun x s =>
    if x.progress = 0 then
      let parts := partUnits x.target x.count
      if s.ison AQF_STATUS.PF ∨ s.windowRoom parts.length = false then s
      else
        let s := s.modAqf (fun a => { (a.recordClear x.target x.count (if x.fua then some t else none)) with
          map := a.map.filter (fun e => !wholeUnit x.target x.count e.1)
          staging := a.staging.filter (fun u => !wholeUnit x.target x.count u.unit)
          cached := a.cached.filter (fun u => !wholeUnit x.target x.count u) })
        let s := parts.foldl (fun s u => s.modAqf (zeroPart t x.target x.count u)) s
        let s := ((s.acknowledge t).modTask t (fun y => { y with progress := 1 })).showMap
        if x.fua ∧ s.durable t = false then s else s.endTask t 0 0
    else if s.durable t then s.endTask t 0 0 else s)

/-- FLUSH (R155, R212): every unit acknowledged before it was fetched is programmed with its stripe's parity. -/
def flushEffect (t : Nat) (s : State) : State :=
  s.runTask t 0x04 (fun x s =>
    if s.aqf.staging.all (fun u => s.aqf.safe u || match u.acked with
        | some n => decide (x.id < n)
        | none => true) then s.endTask t 0 0
    else s)

/-! ### Programs -/

/-- The metadata of a staged unit that is programmed now (R152): an atomic group's units name the SEQ of its first. -/
def AqfSt.unitMeta (a : AqfSt) (x : Staged) : PageMeta :=
  let seq := a.seq + 1
  let first := if x.group = 0 then seq
    else ((a.staging.find? (fun y => y.task == x.task && y.loc.isSome)).bind (fun y => y.loc.map (fun l => l.2))).getD seq
  ⟨x.unit, x.group != 0, false, false, false, max 1 x.group, seq, first, 0⟩

/-- The oldest staged unit that is not yet programmed takes a place. -/
def AqfSt.place (a : AqfSt) (l : FlashLoc) : AqfSt :=
  let st := a.staging
  let mark := (st.dropWhile (fun u => u.loc.isSome)).take 1 |>.map (fun u => { u with loc := some (l, a.seq + 1) })
  { a with
    staging := st.takeWhile (fun u => u.loc.isSome) ++ mark ++ (st.dropWhile (fun u => u.loc.isSome)).drop 1
    seq := a.seq + 1 }

/-- The oldest staged unit reaches a page (R150, R154): a native page only, and then always, when the SLC region is full (R159). The die serves
its reads first, or suspends the program for a head sample's (R162). -/
def programUnit (l : FlashLoc) (s : State) : State :=
  match s.aqf.staging.find? (fun u => u.loc.isNone) with
  | some x =>
    if ¬ (s.canProgram .openHost false l ∧ (l.slc = decide (s.get AQF_SLC.FILL < 100)) ∧ s.inHorizon) then s
    else if s.suspendedFor l.die false then s.pauseDie l.die
    else if s.servesProgram l.die = false then s
    else
      let m := s.aqf.unitMeta x
      let s := (s.modAqf (fun a => a.place l)).programPage .openHost l m x.data
      (s.modAqf AqfSt.leaveStaging).showMap
  | none => s

/-- A stripe that waits for pages takes padding (R150, R170): what FUA and FLUSH wait for is then programmed; and an OPEN_COPY block takes
it up to its last page but one, so that it can close. (DESIGN CHOICE, assumption 117.) -/
def programPad (l : FlashLoc) (s : State) : State :=
  let copy := (s.aqf.block l.die l.block).state == .openCopy
  let want := if copy then BlockState.openCopy else .openHost
  if (copy ∨ s.aqf.stripeOpen l) ∧ s.canProgram want false l then
    ((s.programPage want l (padMeta s.aqf.seq) (zeros unitBytes)).modAqf AqfSt.leaveStaging).showMap
  else s

/-- Whether a journal page can be programmed at a place (R151, R158): the next page of the OPEN_JOURNAL block of the channel, or the first of
a FREE block where the channel has none and SLC_PCT leaves room. -/
def State.canJournal (s : State) (l : FlashLoc) : Bool :=
  let x := s.aqf.block l.die l.block
  let row := (groupDies (dieGroup l.die)).map (fun d => s.aqf.block d l.block)
  let fresh := l.page == 0 && x.state == .free && row.all (fun y => y.state != .openHost && y.state != .openCopy)
    && !s.aqf.blocks.any (fun e => dieChannel (e.1 / 8192) == dieChannel l.die && e.2.state == .openJournal)
    && decide (s.slcBlocks l.die < s.aqf.slcLimit)
  s.dieState l.die == dieOnline && l.slc && decide (l.page + 1 < s.aqf.pagesIn true)
  && (s.aqf.geometry.any (fun g => decide (l.block < g.blocks)))
  && ((x.state == .openJournal && x.used == l.page) || fresh)

/-- The numbers of a journal record. -/
def JournalRec.nums (r : JournalRec) : List Nat :=
  match r.op with
  | .clear first count => [r.seq, 0, first, count]
  | .lost u => [r.seq, 1, u, 1]

/-- The journal records that wait reach a page of the channel's OPEN_JOURNAL block (R152, R168). -/
def programJournal (l : FlashLoc) (s : State) : State :=
  if s.aqf.journal = [] ∨ s.canJournal l = false then s
  else if s.suspendedFor l.die false then s.pauseDie l.die
  else
    let m := ownMeta s.aqf.seq
    let cells := OwnRecord.bytes .journal (s.aqf.journal.flatMap JournalRec.nums) ++ m.bytes
    ((s.writeCells .openJournal l cells (.journal m s.aqf.journal)).modAqf (fun a => { a with journal := [] })).closeFull l.die l.block

/-- UNIT_PROGRAMMED (R150, R154, R168, R170): until the array is safe after a power failure. The cache path fills the room that this
makes (R161). -/
def programEffect (x : PageWrite) (s : State) : State :=
  if s.ison AQF_STATUS.PF_SAFE then s
  else
    match x with
    | .unit l => (programUnit l s).drainCache
    | .pad l => (programPad l s).drainCache
    | .journal l => programJournal l s

/-! ### Reads and the read-threshold loop -/

/-- An offset of the read-threshold loop, by die, level and age bin (R164). -/
def rtKey (die level bin : Nat) : Nat := (die * 16 + level) * 4 + bin
def windowKey (die bin : Nat) : Nat := die * 4 + bin
def AqfSt.rtAt (a : AqfSt) (die level bin : Nat) : Int := assocRead id (fun _ => (0 : Int)) (rtKey die level bin) a.rt
def AqfSt.setRt (a : AqfSt) (die level bin : Nat) (v : Int) : AqfSt :=
  { a with rt := assocPut id (fun _ => (0 : Int)) (rtKey die level bin) v a.rt }
def AqfSt.codewordsOf (a : AqfSt) (die bin : Nat) : Nat := assocRead id (fun _ => 0) (windowKey die bin) a.codewords
def AqfSt.setCodewords (a : AqfSt) (die bin n : Nat) : AqfSt :=
  { a with codewords := assocPut id (fun _ => 0) (windowKey die bin) n a.codewords }

/-- The read levels of the format. -/
def AqfSt.levelCount (a : AqfSt) : Nat := (a.format.map (fun f => f.levels)).getD 15

/-- The age bin of a block (R164), from the always-on time since its first page was programmed, or since the last reset where that
came later. (DESIGN CHOICE, assumption 118.) -/
def State.ageBin (s : State) (d b : Nat) : Nat :=
  let hours := (s.power.uptime - (s.aqf.block d b).born) / (200000000 * 3600)
  if hours < 1 then 0 else if hours < 24 then 1 else if hours < 720 then 2 else 3

/-- A level's offset, in the profile's units, goes to the die by SET FEATURES (R146, R164); one beyond 8 bits is held to their range.
(DESIGN CHOICE, assumption 118.) -/
def State.sendOffset (s : State) (die level : Nat) (v : Int) : State :=
  let fa := (s.aqf.format.map (fun f => f.levelFeature level)).getD 0
  s.dieOp die opSetFeatures [fa, ofSigned 8 (clampInt (-128) 127 v)] []

/-- A level's offset is set, and goes to the die (R164). -/
def State.setOffset (s : State) (die level bin : Nat) (v : Int) : State :=
  (s.modAqf (fun a => a.setRt die level bin v)).sendOffset die level v

/-- The read levels of a mode: the SLC level, or those of the native mode (R164, R202). -/
def AqfSt.levelsOf (a : AqfSt) (slc : Bool) : List Nat := if slc then [0] else (List.range a.levelCount).map (· + 1)

/-- A page is read with its mode's levels at given offsets (R163, R164). -/
def State.readWith (s : State) (l : FlashLoc) (off : Nat → Int) : State :=
  ((s.aqf.levelsOf l.slc).foldl (fun s j => s.sendOffset l.die j (off j)) s).readPage l

/-- A page was decoded: its eight codewords count in the window of its die and age bin (R163, R164). -/
def State.countCodewords (s : State) (d bin : Nat) : State := s.modAqf (fun a => a.setCodewords d bin (a.codewordsOf d bin + 8))

/-- How a unit's read ends (R163): decoded with so many bits corrected by the hard decode, by a ladder entry, or by the soft decode;
rebuilt; or lost, with the die that the loss names (R176). -/
inductive ReadEnd where
  | hard (corrected : Nat)
  | ladder (entry corrected : Nat)
  | soft (corrected : Nat)
  | rebuilt
  | lost (die : Nat)
  deriving DecidableEq, Repr

/-- The first ladder entry in use that decodes. -/
def firstLadder (n : Nat) (l : List (Option Nat)) : Option (Nat × Nat) :=
  (List.range n).findSome? (fun k => (l.getD k none).map (fun c => (k, c)))

/-- The other dies of a page's stripe that do not give their page (R163, R181): they are not ONLINE, or their channel fails. -/
def State.failing (s : State) (l : FlashLoc) (unreadable : List Nat) : List Nat :=
  (s.aqf.stripeOthers l).filter (fun d => s.dieState d != dieOnline || unreadable.contains (dieChannel d))

/-- Whether a page can be rebuilt (R150, R163, R181): its stripe has its parity, on flash or still to be programmed, and every other page of it
can be read. -/
def State.rebuilds (s : State) (l : FlashLoc) (unreadable : List Nat) : Bool :=
  (s.aqf.stripeClosed l || s.aqf.stripeOpen l) && (s.failing l unreadable).isEmpty

/-- The die that the loss of a unit names (R176): the lowest of those whose read or rebuild read failed. -/
def State.lossDie (s : State) (l : FlashLoc) (unreadable : List Nat) : Nat :=
  let own := if s.dieState l.die = dieOnline then [l.die] else []
  match own ++ s.failing l unreadable with
  | [] => l.die
  | d :: rest => rest.foldl min d

/-- The attempts of R163 in their order; a page of a die that is not ONLINE is rebuilt at once (R179). -/
def State.readEnd (s : State) (l : FlashLoc) (c : PageRead) : ReadEnd :=
  let rest := if s.rebuilds l c.unreadable then ReadEnd.rebuilt else .lost (s.lossDie l c.unreadable)
  if s.dieState l.die ≠ dieOnline then rest
  else
    match c.hard, firstLadder ((s.aqf.format.map (fun f => f.ladder.length)).getD 0) c.ladder, c.soft with
    | some n, _, _ => .hard n
    | none, some (k, n), _ => .ladder k n
    | none, none, some n => .soft n
    | none, none, none => rest

/-- The loop's offset of a level for the die and age bin of a page. -/
def State.offsetOf (s : State) (l : FlashLoc) (j : Nat) : Int := s.aqf.rtAt l.die j (s.ageBin l.die l.block)

/-- The reads by the first `n` entries of the retry ladder, each with its offsets for the page's levels (R146, R163). -/
def State.ladderReads (s : State) (l : FlashLoc) (n : Nat) : State :=
  let ladder := (s.aqf.format.map (fun f => f.ladder)).getD []
  (ladder.take n).foldl (fun s offs => s.readWith l (fun j => offs.getD j 0)) s

/-- The soft-decision read (R163, R186): the page at its levels' offsets, then two further reads at plus and minus SOFT offset units from
them. -/
def State.softReads (s : State) (l : FlashLoc) : State :=
  let k := (s.get AQF_RT.SOFT : Int)
  let at' := fun (v : Int) (s : State) => s.readWith l (fun j => s.offsetOf l j + v)
  at' (-k) (at' k (at' 0 s))

/-- A die's levels are at the loop's offsets again, after attempts of another kind. -/
def State.restoreOffsets (s : State) (l : FlashLoc) : State :=
  (s.aqf.levelsOf l.slc).foldl (fun s j => s.sendOffset l.die j (s.offsetOf l j)) s

/-- What a read that has ended counts and leaves (R163, R164, R186): `cause` is that of a unit that is LOST. -/
def State.countRead (s : State) (u : Nat) (l : FlashLoc) (e : ReadEnd) (cause : Nat) : State :=
  let c := dieChannel l.die
  let bin := s.ageBin l.die l.block
  let corr := fun (n : Nat) (s : State) => (s.bumpPair .NFC_CORR_LO .NFC_CORR_HI c n).countCodewords l.die bin
  let soft := fun (s : State) =>
    if s.dieState l.die = dieOnline then (((s.ladderReads l 8).softReads l).restoreOffsets l).bumpi NFC_SOFT.COUNT c 1 else s
  match e with
  | .hard n => corr n s
  | .ladder k n =>
    let s := (corr n (s.ladderReads l (k + 1))).bumpi NFC_RETRY.COUNT c 1
    let offs := ((s.aqf.format.map (fun f => f.ladder)).getD []).getD k []
    if s.ison AQF_CTRL.RT_EN then s.each (s.aqf.levelCount + 1) (fun j s => s.setOffset l.die j bin (offs.getD j 0)) else s.restoreOffsets l
  | .soft n => corr n (soft s)
  | .rebuilt => ((soft s).readOthers l).bumpi NFC_REBUILD.COUNT c 1
  | .lost d => ((soft s).readOthers l).loseUnit u (if s.dieState l.die = dieOnline then cause else 5) d

/-- PAGE_READ_DONE of a mapped unit (R163 to R165). -/
def pageReadEffect (u : Nat) (c : PageRead) (s : State) : State :=
  match s.aqf.entry u with
  | .mapped l => s.countRead u l (s.readEnd l c) 1
  | _ => s

/-- Whether a level steps at the end of a window (R164): its flip counts are asymmetric enough, and its mean weight is above the
floor. -/
def State.rtTriggers (s : State) (f : FlipCount) : Bool :=
  let d := if f.up < f.down then f.down - f.up else f.up - f.down
  decide (s.get AQF_RT.ASYM * (f.up + f.down) < d * 64) && decide (s.get AQF_RT.FLOOR < f.meanWeight)
  && decide (f.level ≤ s.aqf.levelCount)

/-- One level at the end of a window (R164). -/
def rtLevel (die bin : Nat) (f : FlipCount) (s : State) : State :=
  if s.rtTriggers f then
    let up := (decide (f.down < f.up)) == Config.flipRaises
    let v := s.aqf.rtAt die f.level bin + (if up then 1 else -1)
    if max 1 (s.get AQF_RT.LIMIT) < v.natAbs then s.bumpi NFC_RT_CLAMP.COUNT (dieChannel die) 1
    else (s.setOffset die f.level bin v).bumpi NFC_RT_MOVES.COUNT (dieChannel die) 1
  else s

/-- The levels of one window step (R164). -/
def State.rtWindow (s : State) (die bin : Nat) (flips : List FlipCount) : State := flips.foldl (fun s f => rtLevel die bin f s) s

/-- RT_WINDOW_END (R164): the window of a die and age bin has its 4,096 codewords, and the next begins. -/
def rtWindowEffect (die bin : Nat) (flips : List FlipCount) (s : State) : State :=
  if bin < 4 ∧ s.dieState die = dieOnline ∧ 4096 ≤ s.aqf.codewordsOf die bin then
    let s := s.modAqf (fun a => a.setCodewords die bin 0)
    if s.ison AQF_CTRL.RT_EN then s.rtWindow die bin flips else s
  else s

/-! ### Copies -/

/-- Copies a mapped unit into an OPEN_COPY block, through decode, decryption, encryption and encode (R145, R160): a unit whose page
cannot be read is LOST with the copy's cause (R176). `placed` says that relocation makes the copy. The program may be suspended for a head
sample's read (R162). -/
def copyUnit (u : Nat) (src : FlashLoc) (x : UnitCopy) (cause : Nat) (placed : Bool) (s : State) : State :=
  if s.canProgram .openCopy placed x.loc = false then s
  else if s.suspendedFor x.loc.die false then s.pauseDie x.loc.die
  else s.withUnit aquiferClient (fun s =>
    let e := s.readEnd src x.read
    let data := s.aqf.pageData src
    let s := (s.issueRead u).countRead u src e cause
    match e with
    | .lost _ => s
    | _ =>
      let seq := s.aqf.seq + 1
      let m : PageMeta := ⟨u, false, false, false, true, 1, seq, seq, (MapUnit.mapped src).value⟩
      let s := s.modAqf (fun a => { a with seq := seq, placed := if placed then a.placed + 1 else a.placed })
      (s.programPage .openCopy x.loc m data).showMap)

/-- Whether a die has no other work (R159): no unit is read from it, for the Sluice or for the host, and nothing waits in staging. -/
def State.dieIdle (s : State) (d : Nat) : Bool :=
  let reads := fun (first count : Nat) =>
    (List.range (unitsOf first count)).any (fun i => (s.aqf.onPage (first / 4 + i)).any (fun l => l.die == d))
  s.aqf.unprogrammed == 0 && !s.sluiceReads d
  && !s.host.tasks.any (fun t => t.opcode == 1 && t.started && t.done.isNone && reads t.target t.count)

/-- The share of a die's busy time that folding may take, in hundredths of a per cent (R159): from FOLD_LO on it rises linearly to 50 per cent at
FOLD_HI, rounded down. (DESIGN CHOICE, assumption 116.) -/
def State.foldShare (s : State) : Nat :=
  let fill := s.get AQF_SLC.FILL
  if fill < s.foldLo ∨ s.foldHi ≤ s.foldLo then 0 else 5000 * (fill - s.foldLo) / (s.foldHi - s.foldLo)

/-- Whether a die takes one more fold operation now (R159): at FOLD_HI and above always; else when it has no other work, or while the time
that folding has taken stays within its share. The time counts since the mount, by the profile's maxima; the share is served before classes 3
and 4 of R162, which would else leave a busy die none. (DESIGN CHOICE, assumption 116.) -/
def State.mayFold (s : State) (d us : Nat) : Bool :=
  let (all, part) := s.aqf.busyOf d
  decide (s.foldHi ≤ s.get AQF_SLC.FILL) || s.dieIdle d || decide (10000 * (part + us) ≤ s.foldShare * (all + us))

/-- FOLD_UNIT (R159 to R161): from an SLC page to a native page. Below FOLD_LO it folds on dies with no other work alone, between FOLD_LO and
FOLD_HI also within folding's share of their time, and below FOLD_HI no unit of the cache path. A fold above THROTTLE lets intake admit
one unit. -/
def foldEffect (u : Nat) (x : UnitCopy) (s : State) : State :=
  match s.aqf.entry u with
  | .mapped src =>
    let fill := s.get AQF_SLC.FILL
    let tR := s.aqf.opTime .read true
    let tP := s.aqf.opTime .program false
    if s.background ∧ src.slc ∧ x.loc.slc = false ∧ s.mayFold src.die tR ∧ s.mayFold x.loc.die tP
        ∧ (s.aqf.cached.contains u = false ∨ s.foldHi ≤ fill) then
      let t := copyUnit u src x 2 false s
      if s.aqf.seq < t.aqf.seq then
        let t := t.modAqf (fun a => (a.foldTime src.die tR).foldTime x.loc.die tP)
        if s.get AQF_SLC.THROTTLE < fill then t.modAqf (fun a => { a with folded := a.folded + 1 }) else t
      else t
    else s
  | _ => s

/-- Whether one more page of relocation stays within the placement budget (R166), counted over the pages programmed since the
mount; the field's range ends at 50. (DESIGN CHOICE, assumption 118.) -/
def State.inBudget (s : State) : Bool :=
  decide (100 * (s.aqf.placed + 1) ≤ min 50 (s.get AQF_PLACE.BUDGET) * (s.aqf.programs + 1))

/-- Whether the spread between the most-worn and the least-worn groups calls for relocation (R166). -/
def State.wornApart (s : State) : Bool :=
  let l := s.liveGroups.map s.groupWear
  decide (s.get AQF_PLACE.SPREAD < l.foldl max 0 - l.foldl min (l.headD 0))

/-- Whether a unit has not been written for 30 days of always-on time, or since the last reset where that is longer ago than the unit's
write (R166). (DESIGN CHOICE, assumption 118.) -/
def State.coldUnit (s : State) (u : Nat) : Bool :=
  decide (720 * 3600 * 200000000 ≤ s.power.uptime - assocRead id (fun _ => 0) u s.aqf.written)

/-- Whether a die serves work of class 5 now (R162): no read waits for it. -/
def State.servesLast (s : State) (d : Nat) : Bool := !s.waitsSluice d true && !s.waitsSluice d false && !s.waitsHost d

/-- RELOCATE_UNIT (R166, R181): off a SUSPENDED or RETIRED die into another group, or a cold unit, not written for 30 days,
into a most-worn group; within the budget, after every read of the die it goes to (R162), and not while staging holds more than half of the
window. -/
def relocateEffect (u : Nat) (x : UnitCopy) (s : State) : State :=
  match s.aqf.entry u with
  | .mapped src =>
    let st := s.dieState src.die
    let off := st == dieSuspended || st == dieRetired
    let cold := s.wornApart && s.coldUnit u && s.mostWorn (dieGroup x.loc.die)
    if s.background ∧ s.ison AQF_CTRL.PLACE_EN ∧ s.inBudget ∧ s.windowHalf = false ∧ dieGroup src.die ≠ dieGroup x.loc.die ∧ (off ∨ cold)
        ∧ s.servesLast x.loc.die then
      copyUnit u src x 3 true s
    else s
  | _ => s

/-- A copy whose SOURCE the map still names takes its unit (R160). -/
def AqfSt.moveCopy (a : AqfSt) (e : FlashLoc × FlashPage) : AqfSt :=
  match e.2 with
  | .unit m _ _ => if m.copy ∧ (a.entry m.unit).value = m.source then a.setEntry m.unit (.mapped e.1) else a
  | _ => a

/-- COPY_BLOCK_CLOSE (R151, R160): a full block's summary is programmed, and each copy whose SOURCE the map still names takes its unit. -/
def closeCopyEffect (d b : Nat) (s : State) : State :=
  let x := s.aqf.block d b
  if x.state = .openCopy ∧ x.gone = false ∧ s.aqf.pagesIn x.slc ≤ x.used + 1 ∧ s.background ∧ s.dieState d = dieOnline then
    let pages := s.aqf.blockPages d b
    let s := (s.closeBlock d b).modAqf (fun a => pages.foldl AqfSt.moveCopy a)
    (s.closeStripes .openCopy ⟨d, b, 0, x.slc⟩).eraseDead.showMap
  else s

/-- CHECKPOINT_SEGMENT (R167, R168): the segment with the oldest CKPT_SEQ. -/
def checkpointEffect (s : State) : State :=
  if s.background then (s.checkpoint s.aqf.oldestSegment).eraseDead.showMap else s

/-! ### Dies and channels -/

/-- The unit that a program of a die was to take, during a drain, remembers the die (R172, R176): the oldest that is not programmed. -/
def AqfSt.noteFailure (a : AqfSt) (d : Nat) : AqfSt :=
  let st := a.staging
  let rest := st.dropWhile (fun u => u.loc.isSome)
  { a with
    staging := st.takeWhile (fun u => u.loc.isSome) ++ (rest.take 1).map (fun u => { u with failed := d :: u.failed }) ++ rest.drop 1
    failed := d :: a.failed }

def State.noteFailure (s : State) (d : Nat) : State :=
  if s.ison AQF_STATUS.PF ∨ s.draining then s.modAqf (fun a => a.noteFailure d) else s

/-- DIE_TIMEOUT (R180): a die has exceeded four times the profile's maximum time (`FormatSt.timeoutUs`) twice, with a LUN RESET between; two
timeouts are counted, and it is suspended. Without a profile there is no maximum to exceed. (DEDUCED, assumption 57.) -/
def dieTimeoutEffect (d : Nat) (s : State) : State :=
  if s.dieState d = dieAbsent ∨ s.aqf.format = none then s
  else
    let s := (s.dieOp d opLunReset [] []).bumpi NFC_FAIL.TIMEOUT (dieChannel d) 2
    ((s.logFault 5 0 d 0).noteFailure d).suspendDie d

/-- A program or erase failure (R180): the block is GROWN_BAD, and a die with more of them than SPARE_BLKS is retired. A
failed program's unit stays in staging. -/
def programFailEffect (d b : Nat) (erase : Bool) (s : State) : State :=
  if s.dieState d = dieAbsent then s
  else
    let s := (s.bumpi (if erase then NFC_FAIL.ERASE else NFC_FAIL.PROGRAM) (dieChannel d) 1).logFault 5 0 d 0
    let s := if erase then s else s.noteFailure d
    let s := s.modAqf (fun a => a.setBlock d b { (a.block d b) with state := .grownBad })
    if s.get AQF_SPARE.SPARE_BLKS < s.aqf.grown d then s.retireDie d else s

/-- The bring-back sequence begins on a suspended die (R182): LUN RESET, READ ID and the parameter page, and ZQ calibration. -/
def State.bringBack (s : State) (d : Nat) (cmd : Bool) : State :=
  let s := ((s.dieOp d opLunReset [] []).dieOp d opReadId [] []).dieOp d opParameterPage [] []
  (s.dieOp d opZqLong [] []).modAqf (fun a => { a with bringing := (d, cmd) :: a.bringing.filter (fun b => b.1 != d) })

/-- The result of a die command. -/
def State.dieResult (s : State) (d : Nat) (ok : Bool) : State :=
  (s.putb AQF_DIE_RESULT.FAIL (!ok)).put AQF_DIE_RESULT.STATE (s.dieState d)

/-- A write of AQF_DIE_CMD (R180, R182, R186): GO is ignored while a command is in progress; a command that the die's
state does not allow fails. -/
def dieCmdEffect (w : Word) (s : State) : State :=
  let s := s.swWrite .AQF_DIE_CMD 0 w
  let op := AQF_DIE_CMD.OP.get w
  if AQF_DIE_CMD.GO.cmd w = false ∨ s.ison AQF_DIE_RESULT.BUSY ∨ op = 0 then s
  else
    let d := AQF_DIE_CMD.DIE.get w
    let st := s.dieState d
    if op = 1 then (s.suspendDie d).dieResult d (st == dieOnline)
    else if op = 2 then
      if st = dieSuspended then ((s.bringBack d true).put AQF_DIE_RESULT.BUSY 1).put AQF_DIE_RESULT.FAIL 0
      else s.dieResult d false
    else (s.retireDie d).dieResult d (st == dieOnline || st == dieSuspended)

/-- Whether a die that is brought back is the one recorded at format (R182). -/
def State.sameDie (s : State) (d : Nat) (r : DieReport) : Bool :=
  (assocGet id d s.aqf.ids).any (fun x => x.id == r.id && x.geometry == r.geometry)

/-- The pages of an age bin that a calibration scan reads: 64 of the die's pages in it, or all where there are fewer (R182). Which they are is not
stated. (DESIGN CHOICE, assumption 118.) -/
def State.scanPages (s : State) (d bin : Nat) : List FlashLoc :=
  ((s.aqf.blocks.filter (fun e => e.1 / 8192 == d && s.ageBin d (e.1 % 8192) == bin)).flatMap
    (fun e => (s.aqf.blockPages d (e.1 % 8192)).map (·.1))).take 64

/-- The windows of an age bin that a scan runs: up to the first that triggers no step, at most 16 (R182). -/
def State.scanWindows (s : State) (bin : Nat) (ws : List (Nat × List FlipCount)) : List (List FlipCount) :=
  let mine := ((ws.filter (fun w => w.1 == bin)).map (·.2)).take 16
  let go := mine.takeWhile (fun w => w.any s.rtTriggers)
  mine.take (go.length + 1)

/-- Whether the scan of an age bin is over (R182): the die has no page in it, or a window has triggered no step, or 16 have passed. -/
def State.scanOver (s : State) (d bin : Nat) (ws : List (Nat × List FlipCount)) : Bool :=
  let mine := s.scanWindows bin ws
  (s.scanPages d bin).isEmpty || mine.any (fun w => !w.any s.rtTriggers) || decide (16 ≤ mine.length)

/-- The calibration scan (R182): for each age bin, 64 pages are read for each window, and the loop of R164 runs on it. -/
def State.scan (s : State) (d : Nat) (ws : List (Nat × List FlipCount)) : State :=
  s.each 4 (fun bin s =>
    if (s.scanPages d bin).isEmpty then s
    else (s.scanWindows bin ws).foldl (fun s w => ((s.scanPages d bin).foldl State.readPage s).rtWindow d bin w) s)

/-- BRING_BACK_DONE (R182): the sequence ends with the die ONLINE, or SUSPENDED where the die does not answer as it was recorded; windows that
do not end the scan leave it to go on. -/
def bringDoneEffect (d : Nat) (r : BringBack) (s : State) : State :=
  match s.aqf.bringing.find? (fun b => b.1 == d) with
  | some (_, cmd) =>
    let good := r.answered && s.sameDie d r.report && s.dieState d == dieSuspended
    if good ∧ (List.range 4).all (fun bin => s.scanOver d bin r.windows) = false then s
    else
      let s := s.modAqf (fun a => { a with bringing := a.bringing.filter (fun b => b.1 != d) })
      let s := if cmd then s.put AQF_DIE_RESULT.BUSY 0 else s
      if good then
        let s := (s.scan d r.windows).returnDie d
        if cmd then s.dieResult d true else s
      else
        let s := s.put AQF_DIE_RESULT.FAIL 1
        if cmd then s.put AQF_DIE_RESULT.STATE (s.dieState d) else s
  | none => s

/-- AUTO_BACK (R32, R182): one attempt after each suspension. -/
def autoBackEffect (d : Nat) (s : State) : State :=
  if s.background ∧ s.ison AQF_CTRL.AUTO_BACK ∧ s.dieState d = dieSuspended ∧ s.aqf.tried.contains d = false
      ∧ s.aqf.training.all (fun c => !c.2.contains d) ∧ s.aqf.bringing.all (fun b => b.1 != d) then
    (s.modAqf (fun a => { a with tried := d :: a.tried })).bringBack d false
  else s

/-- A write of NFC_CTRL (R180, R186): RETRAIN suspends the channel's dies while its PHY trains. -/
def nfcCtrl (c : Nat) (w : Word) (s : State) : State :=
  let s := s.swWrite .NFC_CTRL c w
  if NFC_CTRL.RETRAIN.cmd w ∧ s.aqf.training.all (fun t => t.1 != c) then
    let mine := (channelDies c).filter (fun d => s.dieState d == dieOnline)
    let s := s.modAqf (fun a => { a with training := (c, mine) :: a.training })
    mine.foldl (fun s d => s.suspendDie d) (s.puti NFC_STATUS.TRAINED c 0)
  else s

/-- The rate code that a channel trains at (R186): 0x0 acts as 0x1. What the reserved codes 0x9 to 0xF do is not stated: they are
taken as they stand. (DESIGN CHOICE, assumption 119.) -/
def rateOf (code : Nat) : Nat := if code = 0 then 1 else code

/-- A channel runs at its rate, which goes to its dies by SET FEATURES (R142, R144). -/
def State.trained (s : State) (c : Nat) : State :=
  let rate := rateOf (s.geti NFC_CTRL.RATE c)
  let s := ((channelDies c).filter (fun d => s.dieState d != dieAbsent)).foldl (fun s d => s.dieOp d opSetFeatures [1, rate] []) s
  (s.puti NFC_STATUS.RATE_ACTIVE c rate).puti NFC_STATUS.TRAINED c 1

/-- CHANNEL_TRAINING_DONE (R142, R180, R182): the channel runs at its rate and the dies that training suspended begin their bring-back, or
every die of the channel is suspended. -/
def trainingEffect (c : Nat) (ok : Bool) (s : State) : State :=
  match s.aqf.training.find? (fun t => t.1 == c) with
  | some (_, mine) =>
    let s := s.modAqf (fun a => { a with training := a.training.filter (fun t => t.1 != c) })
    if ok then mine.foldl (fun s d =>
      if s.dieState d = dieSuspended ∧ s.aqf.bringing.all (fun b => b.1 != d) then s.bringBack d false else s) (s.trained c)
    else (channelDies c).foldl (fun s d => s.suspendDie d) (s.logFault 6 0 c 0)
  | none => s

/-- Every 128 ms a trained channel calibrates its dies (R144); nothing that the block holds changes. -/
def zqEffect (c : Nat) (s : State) : State :=
  if s.isoni NFC_STATUS.TRAINED c then
    ((channelDies c).filter (fun d => s.dieState d != dieAbsent)).foldl (fun s d => s.dieOp d opZqShort [] []) s
  else s

/-! ### Power loss and mount -/

/-- The copies under way are abandoned (R170): their blocks stay OPEN_COPY, whose units replay ignores (R174), take no further page, and their
stripes get no parity. That such a block is erased once it is dead is not stated. (DESIGN CHOICE, assumption 117.) -/
def AqfSt.dropCopies (a : AqfSt) : AqfSt :=
  let mine := a.blocks.filter (fun e => e.2.state == .openCopy)
  let rows := mine.map (fun e => dieGroup (e.1 / 8192) * 8192 + e.1 % 8192)
  let a := mine.foldl (fun a e => a.setBlock (e.1 / 8192) (e.1 % 8192) { e.2 with gone := true }) a
  { a with parity := a.parity.filter (fun e => !rows.contains (e.1 / 2048)) }

/-- PWR_FAIL_N has been low for 1 µs (R170). Work whose destinations are not in the map is abandoned. -/
def pwrFailEffect (s : State) : State :=
  if s.ison AQF_STATUS.PF ∨ s.power.porHeld then s
  else ((s.put AQF_STATUS.PF 1).logFault 17 0 0 0).modAqf (fun a => { a.dropCopies with failed := [] })

/-- The staged units that a drain did not program, by atomic group, each group with the lowest die that failed a program of its units
(R172, R176). -/
def AqfSt.undrained (a : AqfSt) : List (List Nat × Nat) :=
  let left := a.staging.filter (fun u => u.loc.isNone && u.acked.isSome)
  let groups := (left.filter (fun u => u.group != 0)).map (fun u => u.task)
  let once := groups.foldl (fun acc t => if acc.contains t then acc else acc ++ [t]) []
  let lowest := fun (us : List Staged) =>
    let f := us.flatMap (fun u => u.failed)
    if f.isEmpty then a.failed.foldl min 1023 else f.foldl min 1023
  (left.filter (fun u => u.group == 0)).map (fun u => ([u.unit], lowest [u]))
    ++ once.map (fun t => let us := a.staging.filter (fun u => u.task == t); (us.map (fun u => u.unit), lowest us))

/-- Whether every acknowledged unit in staging is programmed, or cannot be, since a die failed its program (R170, R172). -/
def AqfSt.allDrained (a : AqfSt) : Bool := a.staging.all (fun u => u.loc.isSome || u.acked.isNone || u.failed != [])

/-- The power-loss markers (R170): the last SEQ, on two dies of different channels; which they are is not stated.
(DESIGN CHOICE, assumption 117.) -/
def State.markerDies (s : State) : List Nat :=
  match allDies.find? (fun d => s.dieState d == dieOnline) with
  | some d => d :: (allDies.find? (fun e => s.dieState e == dieOnline && dieChannel e != dieChannel d)).toList
  | none => []

/-- The level of WP_N on every channel (R143, R170, R171). -/
def State.driveWp (s : State) (level : Bool) : State := s.emit (.pin "WP_N" level)

/-- The power-loss markers are written (R152, R170): the last SEQ, on a page of each die that is not stated. -/
def State.writeMarkers (s : State) : State :=
  let dies := s.markerDies
  let s := dies.foldl (fun s d =>
    let (b, p) := Config.markerPage d
    s.programCells ⟨d, b, p, true⟩ (OwnRecord.bytes .marker [s.aqf.seq] ++ (ownMeta s.aqf.seq).bytes)) s
  s.modAqf (fun a => { a with markers := dies.map (fun d => (d, a.seq)) })

/-- The end of the drain (R170): the open stripes are padded, the markers are written, and WP_N is driven low. Before the mount has
completed, flash stays as it is (R175). -/
def State.makeSafe (s : State) : State :=
  let s := if s.ison AQF_STATUS.READY then ((s.padStripes.modAqf AqfSt.leaveStaging).showMap).writeMarkers else s
  let s := ((s.put AQF_STATUS.PF_SAFE 1).ev AQF_EVENT.PF_DONE).driveWp false
  if s.power.resetDeferred then s.startDrain else s

/-- Power has remained (R171): intake reopens without a replay, and reads that were not issued complete with NOT_READY. What could not be
programmed still waits in staging. -/
def State.recover (s : State) : State :=
  let s := ((s.put AQF_STATUS.PF 0).put AQF_STATUS.PF_SAFE 0).ev AQF_EVENT.PF_RECOVER
  let s := s.setTasks (s.host.tasks.map (fun t =>
    if t.opcode = 1 ∧ t.done = none ∧ t.landed.isEmpty then { t with started := true, done := some (0x0010, t.progress) } else t))
  (s.modAqf (fun a => { a with failed := [], drainLost := [], staging := a.staging.map (fun u => { u with failed := [] }) })).driveWp true

/-- PF_SAFE (R170 to R172): once the drain has programmed what it can, the array is safe; where power remains, then or later, intake
reopens. -/
def pfSafeEffect (powerRemains : Bool) (s : State) : State :=
  if s.get AQF_STATUS.PF = 0 then s
  else if s.ison AQF_STATUS.PF_SAFE then (if powerRemains then s.recover else s)
  else if s.aqf.allDrained = false then s
  else if powerRemains then s.makeSafe.recover
  else s.makeSafe.modAqf (fun a => { a with drainLost := a.undrained })

/-- The registers that a format or a mount sets (R186). -/
def State.showFormat (s : State) : State :=
  match s.aqf.format with
  | some f =>
    let s := s.putPair .AQF_CAP_LO .AQF_CAP_HI 0 (4 * f.units)
    let s := (s.put AQF_RATING.SLC_DIV f.slcDiv).put AQF_RATING.PE_NATIVE f.peNative
    let s := (s.put AQF_SPARE.DIE_BUDGET f.dieBudget).put AQF_SPARE.SPARE_BLKS f.spareBlks
    let s := (s.putb AQF_CRYPT.EN f.crypt).put AQF_CRYPT.KEY_GEN s.aqf.keyGen
    s.putb AQF_STATUS.CRYPT f.crypt
  | none => s

/-- The losses that a drain left are logged at the mount, each atomic group as one entry (R172, R176).
(DEDUCED, assumption 60.) -/
def State.logDrain (s : State) : State :=
  let l := s.aqf.drainLost
  let s := s.modAqf (fun a => { a with drainLost := [], failed := [] })
  l.foldl (fun s e =>
    let s := e.1.foldl (fun s u => s.modAqf (fun a => (a.setEntry u .lost).journalOp (.lost u) none)) s
    s.logDeferred (4 * e.1.foldl min (e.1.headD 0)) (min 68 (4 * e.1.length)) 4 e.2) s

/-- The key pair comes into the NFC path where the format encrypts (R185). -/
def State.loadKeys (s : State) : State :=
  s.modAqf (fun a => { a with keys := if a.format.any (fun f => f.crypt) then s.svc.flashKeys else none })

/-- The reads of a mount (R144, R173): both directory copies; every segment that the newer valid one names; and where no clean marker stands,
the summary of every CLOSED block whose closing SEQ exceeds the lowest CKPT_SEQ, and the metadata alone of every page of the open blocks. -/
def State.mountReads (s : State) : State :=
  let per := max 1 (s.aqf.pagesIn true - 1)
  let own := fun (blocks : List Nat) (n : Nat) (s : State) => s.each n (fun i s =>
    let k := blocks.getD (i / per) 0
    s.readPage ⟨k / 8192, k % 8192, i % per, true⟩)
  let s := s.aqf.dirs.foldl (fun s d => own [d.block] (ownPages (dirBytes d.entries).length) s) s
  let s := s.aqf.segments.foldl (fun s e => own e.2.blocks 1280 s) s
  if s.aqf.clean then s
  else
    let a := s.aqf.findBlocks
    let low := a.ckptSeq a.oldestSegment
    a.blocks.foldl (fun s e =>
      let d := e.1 / 8192
      let b := e.1 % 8192
      let spare := fun (l : FlashLoc) (s : State) => (s.readPage l).dieOp l.die opReadColumn [unitBytes] []
      match e.2.state with
      | .closed => if low < e.2.closedAt then s.readPage ⟨d, b, a.pagesIn e.2.slc - 1, e.2.slc⟩ else s
      | .openHost | .openJournal => s.each e.2.used (fun p s => spare ⟨d, b, p, e.2.slc⟩ s)
      | _ => s) s

/-- MOUNT_COMPLETE (R173 to R175, R185): the map, SEQ and the log as the flash holds them. -/
def mountEffect (ms : Nat) (s : State) : State :=
  if s.ison AQF_STATUS.MOUNTING ∧ s.power.onfi then
    let s := ((s.put AQF_STATUS.MOUNTING 0).put AQF_STATUS.READY 1).ev AQF_EVENT.MOUNT_DONE
    let s := (s.put AQF_MOUNT_MS.MS ms).putb AQF_STATUS.CLEAN_MOUNT s.aqf.clean
    let s := (s.mountReads.modAqf AqfSt.mount).loadKeys
    let s := (s.put AQF_DFL_HEAD.HEAD s.aqf.dflHead).put AQF_DFL_ACK.ACK s.aqf.dflAck
    let s := (s.put AQF_LIFE.LIFE s.aqf.life).putb AQF_STATUS.READ_ONLY s.aqf.readOnly
    s.showFormat.logDrain.lifeEval.showDies.showMap
  else s

/-- A write of AQF_DFL_ACK (R177): a value beyond HEAD is clamped to HEAD. -/
def dflAckEffect (w : Word) (s : State) : State :=
  let head := s.get AQF_DFL_HEAD.HEAD
  let ack := s.get AQF_DFL_ACK.ACK
  let v := if (head + 2 ^ 32 - ack) % 2 ^ 32 < (w.toNat + 2 ^ 32 - ack) % 2 ^ 32 then head else w.toNat
  (s.put AQF_DFL_ACK.ACK v).modAqf (fun a => { a with dflAck := v })

/-- LIFE_EVAL, every 60 s while mounted (R32, R183). -/
def lifeEffect (s : State) : State :=
  if s.ison AQF_STATUS.READY ∧ s.ison HIF_STATUS.KEEPER_UP then s.lifeEval.showTasks else s

/-- Whether a format descriptor breaks R202. (DEDUCED, assumption 56.) -/
def formatBad (g : DieGeometry) (b : List Byte) : Bool :=
  let slc := leAt b 2 1
  let op := leAt b 3 1
  let spare := leAt b 8 2
  b.length != 320 || leAt b 0 2 != 1 || decide (slc < 2) || decide (25 < slc) || decide (op < 4) || decide (50 < op)
  || decide (1 < leAt b 4 1) || leAt b 5 1 == 0 || leAt b 6 1 == 0 || leAt b 7 1 != 0
  || spare == 0 || decide (g.blocks * op / 200 < spare) || !allZero ((b.drop 10).take 54)
  || !(leAt b 64 1 == 7 || leAt b 64 1 == 15) || leAt b 65 1 == 0 || decide (1 < leAt b 66 1)
  || decide (3 < leAt b 69 1) || decide (8 < leAt b 216 1) || !allZero ((b.drop 217).take 3) || !allZero (b.drop 234)

/-- The exported capacity in units (R158). -/
def exportedUnits (dies blocks pages slc op : Nat) : Nat :=
  dies * blocks * pages * (100 - slc) * (100 - op) * 31 / 320000

/-- The format that a descriptor asks for. -/
def formatOf (dies : Nat) (g : DieGeometry) (b : List Byte) : FormatSt where
  slcPct := leAt b 2 1
  opPct := leAt b 3 1
  crypt := bitOf (leAt b 4 1) 0
  slcDiv := leAt b 5 1
  dieBudget := leAt b 6 1
  spareBlks := leAt b 8 2
  profile := (b.drop 64).take 256
  units := exportedUnits dies g.blocks g.pages (leAt b 2 1) (leAt b 3 1)

/-- Every unit UNMAPPED, staging included, and so it stays after a reset: nothing programmed before now counts in a replay (R185,
R202). (DESIGN CHOICE, assumption 117.) -/
def AqfSt.unmapAll (a : AqfSt) : AqfSt :=
  { a.dropCopies with
    map := [], staging := [], parity := [], journal := [], segments := [], dirs := [], base := a.seq + 1, seq := a.seq + 1
    cached := [], written := [], clean := false }

/-- A new key pair of 64 bytes, from the warden's random source (R185): a free value. -/
def State.newKeys (s : State) : State :=
  let (v, s) := s.fresh 23 (2 ^ 512)
  (s.modSvc (fun x => { x with flashKeys := some (leBytes 64 v) })).loadKeys

/-- FORMAT (R158, R176, R182, R202); the die profile goes into the ledger (R146, R417). (DEDUCED, assumption 56.)
(DEDUCED, assumption 59.) -/
def formatEffect (t : Nat) (r : HostRead) (s : State) : State :=
  s.runTask t 0x10 (fun x s => s.onSource x r (fun b s =>
    match s.aqf.geometry with
    | none => s.endTask t 0x0011 0
    | some g =>
      if formatBad g b then s.endTask t 0x0020 0
      else if s.host.tasks.any (fun y => y.id != x.id)
          ∨ (List.range 4).any (fun k => s.geti ⟨.SLU_STATUS, 4 * k + 2, 4 * k⟩ 0 == 1 || s.geti ⟨.SLU_STATUS, 4 * k + 2, 4 * k⟩ 0 == 2) then
        s.endTask t 0x0011 0
      else
        let dies := (allDies.filter (fun d => s.dieState d != dieAbsent)).length
        let f := formatOf dies g b
        let s := s.modAqf (fun a => { a.unmapAll with
          format := some f, retired := [], dflHead := 0, dflAck := 0, dflLog := [], drainLost := [], readOnly := false, tried := [] })
        let s := allDies.foldl (fun s d => if s.dieState d = dieRetired then s.setDie d dieOnline else s) s
        let s := s.modAqf (fun a => { a with ids := s.aqf.found })
        let s := if f.crypt then s.newKeys else s.loadKeys
        let s := ((s.put AQF_DFL_HEAD.HEAD 0).put AQF_DFL_ACK.ACK 0).put AQF_STATUS.READ_ONLY 0
        ((s.eraseCheckpoints.showFormat.showDies.showMap).putRecord 2 f.profile).endTask t 0 (4 * f.units)))

/-- CRYPT_ERASE (R185, R215): the first command starts it, and the second ends it. (DESIGN CHOICE, assumption 115.) -/
def cryptEraseEffect (t : Nat) (s : State) : State :=
  s.runTask t 0x11 (fun x s =>
    if x.started = false then s
    else
      let s := (s.modAqf (fun a => { a.unmapAll with keyGen := (a.keyGen + 1) % 65536 })).newKeys.eraseCheckpoints
      ((s.put AQF_CRYPT.KEY_GEN s.aqf.keyGen).showMap).endTask t 0 s.aqf.keyGen)

/-- LOG_READ (R176, R199). -/
def logReadEffect (t : Nat) (s : State) : State :=
  s.runTask t 0x12 (fun x s =>
    let es := s.aqf.dflLog.filter (fun e => decide (x.target ≤ e.index) && decide (e.index < x.target + x.count))
    (s.deliver x 0 (es.flatMap Deferred.bytes)).endTask t 0 es.length)

def execReadExtent (t : Nat) (step : ReadStep) (s : State) : Host.Outcome State Fault Refusal :=
  .next (finish s (readEffect t step s).showTasks)
def execUnitAdmit (t : Nat) (data : HostRead) (s : State) : Host.Outcome State Fault Refusal :=
  .next (finish s (admitEffect t data s))
def execWriteExtent (t : Nat) (s : State) : Host.Outcome State Fault Refusal := .next (finish s (writeEffect t s))
def execDeallocate (t : Nat) (s : State) : Host.Outcome State Fault Refusal := .next (finish s (deallocEffect t s))
def execFlush (t : Nat) (s : State) : Host.Outcome State Fault Refusal := .next (finish s (flushEffect t s))
def execUnitProgrammed (x : PageWrite) (s : State) : Host.Outcome State Fault Refusal := .next (finish s (programEffect x s))
def execFoldUnit (u : Nat) (x : UnitCopy) (s : State) : Host.Outcome State Fault Refusal := .next (finish s (foldEffect u x s))
def execRelocateUnit (u : Nat) (x : UnitCopy) (s : State) : Host.Outcome State Fault Refusal :=
  .next (finish s (relocateEffect u x s))
def execCopyBlockClose (d b : Nat) (s : State) : Host.Outcome State Fault Refusal := .next (finish s (closeCopyEffect d b s))
def execCheckpointSegment (s : State) : Host.Outcome State Fault Refusal := .next (finish s (checkpointEffect s))
def execPageReadDone (u : Nat) (c : PageRead) (s : State) : Host.Outcome State Fault Refusal :=
  .next (finish s (pageReadEffect u c s))
def execRtWindowEnd (die bin : Nat) (flips : List FlipCount) (s : State) : Host.Outcome State Fault Refusal :=
  .next (finish s (rtWindowEffect die bin flips s))
def execDieTimeout (d : Nat) (s : State) : Host.Outcome State Fault Refusal := .next (finish s (dieTimeoutEffect d s))
def execProgramFail (d b : Nat) (erase : Bool) (s : State) : Host.Outcome State Fault Refusal :=
  .next (finish s (programFailEffect d b erase s))
/-- AQF_DIE_CMD written with GO and OP suspend. -/
def execDieSuspend (w : Word) (s : State) : Host.Outcome State Fault Refusal :=
  .next (finish s (s.viaReg .host .AQF_DIE_CMD 0 (AQF_DIE_CMD.OP.set (AQF_DIE_CMD.GO.set w 1) 1)
    (dieCmdEffect (AQF_DIE_CMD.OP.set (AQF_DIE_CMD.GO.set w 1) 1))))
/-- AQF_DIE_CMD written with GO and OP bring back. -/
def execDieBringBack (w : Word) (s : State) : Host.Outcome State Fault Refusal :=
  .next (finish s (s.viaReg .host .AQF_DIE_CMD 0 (AQF_DIE_CMD.OP.set (AQF_DIE_CMD.GO.set w 1) 2)
    (dieCmdEffect (AQF_DIE_CMD.OP.set (AQF_DIE_CMD.GO.set w 1) 2))))
/-- AQF_DIE_CMD written with GO and OP retire. -/
def execDieRetire (w : Word) (s : State) : Host.Outcome State Fault Refusal :=
  .next (finish s (s.viaReg .host .AQF_DIE_CMD 0 (AQF_DIE_CMD.OP.set (AQF_DIE_CMD.GO.set w 1) 3)
    (dieCmdEffect (AQF_DIE_CMD.OP.set (AQF_DIE_CMD.GO.set w 1) 3))))
def execBringBackDone (d : Nat) (r : BringBack) (s : State) : Host.Outcome State Fault Refusal :=
  .next (finish s (bringDoneEffect d r s))
def execAutoBack (d : Nat) (s : State) : Host.Outcome State Fault Refusal := .next (finish s (autoBackEffect d s))
/-- NFC_CTRL written with RETRAIN as 1. -/
def execNfcRetrain (c : Nat) (w : Word) (s : State) : Host.Outcome State Fault Refusal :=
  .next (finish s (s.viaReg .host .NFC_CTRL c (NFC_CTRL.RETRAIN.set w 1) (nfcCtrl c (NFC_CTRL.RETRAIN.set w 1))))
def execChannelTrainingDone (c : Nat) (ok : Bool) (s : State) : Host.Outcome State Fault Refusal :=
  .next (finish s (trainingEffect c ok s))
def execZqCalibration (c : Nat) (s : State) : Host.Outcome State Fault Refusal := .next (finish s (zqEffect c s))
def execPwrFailNFall (s : State) : Host.Outcome State Fault Refusal := .next (finish s (pwrFailEffect s))
def execPfSafe (powerRemains : Bool) (s : State) : Host.Outcome State Fault Refusal :=
  .next (finish s (pfSafeEffect powerRemains s))
def execMountComplete (ms : Nat) (s : State) : Host.Outcome State Fault Refusal := .next (finish s (mountEffect ms s))
def execDflAckWrite (w : Word) (s : State) : Host.Outcome State Fault Refusal :=
  .next (finish s (s.viaReg .host .AQF_DFL_ACK 0 w (dflAckEffect w)))
def execLifeEval (s : State) : Host.Outcome State Fault Refusal := .next (finish s (lifeEffect s))
def execFormat (t : Nat) (r : HostRead) (s : State) : Host.Outcome State Fault Refusal := .next (finish s (formatEffect t r s))
def execCryptErase (t : Nat) (s : State) : Host.Outcome State Fault Refusal := .next (finish s (cryptEraseEffect t s))
def execLogRead (t : Nat) (s : State) : Host.Outcome State Fault Refusal := .next (finish s (logReadEffect t s))

end Sys2Proof.Machine
end

