-- ==== Sys2Proof/Machine/PebbleOps.lean ====
section
/-! DEFINITION. Pebble's counters and events, for every client (R333, R334, R341), its lanes and its working buffers (R337). -/
namespace Sys2Proof.Machine

/-- A run of the coder is counted. -/
def State.countPebble (s : State) (e : PblEnd) : State :=
  let s := (s.bump PBL_BLOCKS.COUNT e.blocks).bump PBL_LOSS.COUNT e.losses
  if e.reason = pblCheck then (s.ev PBL_EVENT.CHECK_FAIL).bump PBL_FAILS.CHECK 1
  else if e.reason = pblVerify then (s.ev PBL_EVENT.VERIFY_FAIL).bump PBL_FAILS.VERIFY 1
  else s

def State.modPebble (s : State) (f : PebbleSt → PebbleSt) : State := { s with pebble := f s.pebble }

/-- LANES_BUSY shows the lanes that run a job (R341). -/
def State.showLanes (s : State) : State :=
  s.put PBL_STATUS.LANES_BUSY (poolMask (fun n => s.pebble.jobs.any (fun j => j.lane == some n)))

/-- The working buffers of a job (R312, R337): one for an input block, one for an output block, which a header of 258 bytes at most fills.
(DESIGN CHOICE, assumption 89.) -/
def State.jobBufs (s : State) : State × Option (List Buf) :=
  match s.takeBuf pebbleClient 0 7 with
  | (t, none) => (t, none)
  | (t, some a) =>
    match t.takeBuf pebbleClient 1 7 with
    | (u, some b) => (u, some [a, b])
    | (u, none) => (u.freeBufs pebbleClient [a], none)

/-- Free lanes go to waiting jobs, while they get their buffers (R337); `n` bounds the lanes. -/
def State.giveLanes (s : State) : Nat → State
  | 0 => s
  | n + 1 =>
    match s.pebble.freeLane, s.pebble.next with
    | some k, some j =>
      match s.jobBufs with
      | (t, some l) =>
        let one := fun (x : PblWork) => if x.id = j.id then { x with lane := some k, bufs := l } else x
        ((showBasin s t).modPebble (fun p => { p with jobs := p.jobs.map one })).giveLanes n
      | (t, none) => t
    | _, _ => s

/-- The waiting jobs of Pebble ask for lanes and buffers (R318, R337). -/
def State.runLanes (s : State) : State := if s.halted then s else (s.giveLanes 8).showLanes

/-- A client submits a job (R337). -/
def State.submitJob (s : State) (c : PblClient) (input : List Byte) : State :=
  (s.modPebble (fun p => { p with jobs := p.jobs ++ [⟨p.nextId, c, input, none, []⟩], nextId := p.nextId + 1 })).runLanes

/-- A job has ended: its lane and its buffers are free. -/
def State.endJob (s : State) (j : PblWork) : State :=
  let t := s.modPebble (fun p => { p with jobs := p.jobs.filter (fun x => x.id != j.id) })
  (showBasin t (t.freeBufs pebbleClient j.bufs)).runLanes

end Sys2Proof.Machine
end

