-- ==== Sys2Proof/Machine/Basin.lean ====
section
/-! DEFINITION. The commands of Basin and Reservoir: handovers (R308, R309), pool settings (R311, R313), requests and
frees (R316 to R319), and the field column repair (R323). -/
namespace Sys2Proof.Machine

/-- Whether a handover is refused (R309). -/
def State.handoverBad (s : State) (bank newCls : Nat) : Bool :=
  s.ownerClass bank == clsRill || newCls == clsRill || decide (4 < newCls)
  || (s.ownerClass bank == clsSluice && (List.range 7).any (fun p => (s.poolBanks p).contains bank))
  || s.isoni RSV_OWNER.BUSY bank

/-- Judges a handover with the fields the register holds: refused, or begun (R308, R309). -/
def judgeHandover (bank : Nat) (s : State) : State :=
  let cls := s.geti RSV_OWNER.NEW_CLASS bank
  if s.handoverBad bank cls then s.evi RSV_EVENT.HANDOVER_REFUSED bank
  else
    let h : Handover := ⟨bank, cls, s.geti RSV_OWNER.NEW_SPOUT bank, s.isoni RSV_OWNER.CLEAR bank⟩
    ({ s with basin := { s.basin with handovers := s.basin.handovers ++ [h] } }).puti RSV_OWNER.BUSY bank 1

/-- Whether an activation stands before the end of its ownership phase (R309). -/
def State.beforeOwnership (s : State) : Bool :=
  s.cascade.act.phase == .drain || s.cascade.act.phase == .swap || s.cascade.act.phase == .ownership

/-- A write of RSV_OWNER (R308, R309); with GO a handover is judged, at once or after the ownership phase. -/
def ownerWrite (bank : Nat) (w : Word) (s : State) : State :=
  let s := s.swWrite .RSV_OWNER bank w
  if RSV_OWNER.GO.cmd w then
    if s.beforeOwnership then { s with basin := { s.basin with waiting := s.basin.waiting ++ [bank] } }
    else judgeHandover bank s
  else s

/-- The handovers that waited for the ownership phase are judged (R309). -/
def judgeWaiting (s : State) : State :=
  let l := s.basin.waiting
  l.foldl (fun s b => judgeHandover b s) { s with basin := { s.basin with waiting := [] } }

/-- Zeroes a bank: no byte of it is listed any more (R308). -/
def State.clearBank (s : State) (bank : Nat) : State :=
  { s with
    reservoir := s.reservoir.filter (fun c => decide (c.1 / 262144 ≠ bank))
    basin := { s.basin with stale := assocDel id bank s.basin.stale } }

/-- A handover ends (R308). -/
def handoverEnd (bank : Nat) (s : State) : State :=
  match s.basin.handovers.find? (fun h => h.bank == bank) with
  | some h =>
    let s := { s with basin := { s.basin with handovers := s.basin.handovers.filter (fun x => x.bank != bank) } }
    let s := if h.clear then s.clearBank bank else s
    let s := (s.puti RSV_OWNER.CLASS bank h.cls).puti RSV_OWNER.SPOUT bank (if h.cls = clsSpout then h.spout else 0)
    ((s.puti RSV_OWNER.BUSY bank 0)).evi RSV_EVENT.HANDOVER_DONE bank
  | none => s

/-- A write of BSN_POOL_BANKS (R311): taken when the pool is idle, its new range is SLUICE and its own, and its new
total holds its minima; else ignored. Pool 7 has no range. -/
def poolBanksEffect (p : Nat) (w : Word) (s : State) : State :=
  if 7 ≤ p then s
  else
    let new := s.swWrite .BSN_POOL_BANKS p w
    let ok := s.poolUsed p == 0
      && (new.poolBanks p).all (fun b => decide (b < 1024) && s.ownerClass b == clsSluice
            && (List.range 7).all (fun q => q == p || !(s.poolBanks q).contains b))
      && (p != 6 || new.geti BSN_POOL_BANKS.COUNT 6 % 4 == 0)
      && decide (s.sumMin p ≤ new.poolTotal p)
    if ok then showBasin s new else s.ev BSN_EVENT.CONFIG_REFUSED

/-- A write of BSN_CPOOL (R311). -/
def cpoolEffect (w : Word) (s : State) : State :=
  let new := s.swWrite .BSN_CPOOL 0 w
  if s.poolUsed 7 = 0 ∧ s.sumMin 7 ≤ new.poolTotal 7 then showBasin s new else s.ev BSN_EVENT.CONFIG_REFUSED

/-- A write of BSN_MIN (R313): ignored where it raises the pool's sum of minima above its total. -/
def minEffect (c p : Nat) (w : Word) (s : State) : State :=
  if c = 0 ∨ 9 < c ∨ 7 < p then s
  else
    let new := s.swWrite .BSN_MIN (c * 8 + p) w
    if s.sumMin p < new.sumMin p ∧ s.poolTotal p < new.sumMin p then s.ev BSN_EVENT.CONFIG_REFUSED
    else showBasin s new

/-- The requests of one cycle, one for each client and pool (R316). -/
def oncePer (l : List (Nat × Nat)) : List (Nat × Nat) :=
  l.foldl (fun acc x => if acc.contains x then acc else acc ++ [x]) []

/-- Whether a client's request is a reserve grant, judged on the state at the start of the cycle. -/
def State.fromReserve (s : State) (r : Nat × Nat) : Bool := decide (s.heldBy r.1 r.2 < s.poolMin r.1 r.2)

/-- Basin answers a request (R316 to R318): with a buffer, or with NONE, after which the client asks again. The answer reaches the client in
the second fabric cycle after the request. -/
def answerRequest (start : State) (may : Bool) (r : Nat × Nat) (s : State) : State :=
  if may ∧ s.poolUsed r.2 < s.poolTotal r.2 then
    let (t, b) := s.grant r.1 r.2
    t.emit (.bufferAnswer r.1 r.2 (some b))
  else
    let t := (s.bump BSN_NONE.COUNT 1).emit (.bufferAnswer r.1 r.2 none)
    { t with basin := { t.basin with asks := t.basin.asks ++ [(r.1, start.nextPool r.1 r.2)] } }

/-- Shared grants in ascending client number while free shared buffers remain (R316); `start` is the state at the
start of the cycle. -/
def sharedGrants (start : State) : List (Nat × Nat) → State → State
  | [], s => s
  | r :: l, s =>
    let may := decide (0 < s.sharedFree r.2) && (r.1 == 0 || !start.reached BSN_POOL_THR.RSV_ONLY r.2)
    sharedGrants start l (answerRequest start may r s)

/-- A list in ascending client number. -/
def byClient (l : List (Nat × Nat)) : List (Nat × Nat) := (List.range 10).flatMap (fun c => l.filter (fun r => r.1 == c))

/-- BUFFER_REQUEST (R316 to R319): the requests of one fabric cycle with those asked again, judged against the state at
its start: violations, which receive an error response, then reserve grants, then shared grants. -/
def requestEffect (rs : List (Nat × Nat)) (s : State) : State :=
  let all := oncePer (s.basin.asks ++ rs)
  if s.halted then { s with basin := { s.basin with asks := all } }
  else
  let start := { s with basin := { s.basin with asks := [] } }
  let bad := all.filter (fun r => decide (7 < r.2))
  let good := byClient (all.filter (fun r => decide (r.2 ≤ 7)))
  let s1 := bad.foldl (fun s r => (s.basinViolation r.1 r.2 0 2).emit (.bufferError r.1 r.2)) start
  let res := good.filter start.fromReserve
  let s2 := res.foldl (fun s r => answerRequest start true r s) s1
  (showBasin start (sharedGrants start (good.filter (fun r => !start.fromReserve r)) s2)).runLanes

/-- BUFFER_FREE (R317, R319). Jobs of Pebble that wait for buffers ask again (R318). -/
def freeEffect (c p b : Nat) (s : State) : State :=
  if s.basin.grants.any (fun g => g.client == c && g.pool == p && g.buffer == b) then
    (showBasin s (s.freeBufs c [(p, b)])).runLanes
  else (s.basinViolation c p b 1).emit (.bufferError c p)

/-- RSV_FIELD_CTRL written with BURN (R323). -/
def fieldBurnEffect (w : Word) (s : State) : State :=
  if RSV_FIELD_CTRL.BURN.cmd w = false ∨ s.ison RSV_FIELD_CTRL.BUSY then s
  else if s.basin.fieldUsed ∨ RSV_FIELD_CTRL.KEY.get w ≠ 0xF05E ∨ s.ison CSC_STATUS.ACTIVE then
    s.put RSV_FIELD_RESULT.REFUSED 1
  else (s.put RSV_FIELD_RESULT.REFUSED 0).put RSV_FIELD_CTRL.BUSY 1

/-- The entry that a bank's staged column is burned into: none where the column is reserved or already replaced, or no
entry is unused (R322, R323). -/
def State.burnEntry (s : State) (bank : Nat) : Option Nat :=
  let col := s.geti RSV_FIELD_STAGE.COLUMN bank
  let mine := s.basin.fuses.filter (fun f => f.1 == bank)
  if 576 ≤ col ∨ mine.any (fun f => f.2.2 % 1024 == col) then none
  else (List.range 8).find? (fun n => !mine.any (fun f => f.2.1 == n))

/-- The field burn finishes (R323): the new entries show after the next device reset, USED at once. -/
def burnEnd (s : State) : State :=
  if s.ison RSV_FIELD_CTRL.BUSY then
    let staged := (List.range 1024).filter (fun b => s.isoni RSV_FIELD_STAGE.VALID b)
    let new := staged.filterMap (fun b =>
      (s.burnEntry b).map (fun n => (b, n, 2 ^ 31 + 2 ^ 30 + s.geti RSV_FIELD_STAGE.COLUMN b)))
    let s := { s with basin := { s.basin with fuses := s.basin.fuses ++ new, fieldUsed := true } }
    let s := (s.put RSV_FIELD_RESULT.BURNED new.length).put RSV_FIELD_RESULT.SKIPPED (staged.length - new.length)
    (s.put RSV_FIELD_CTRL.BUSY 0).put RSV_FIELD_CTRL.USED 1
  else s

/-- RSV_OWNER of a bank written with GO as 1 (R308). -/
def execHandoverGo (bank : Nat) (w : Word) (s : State) : Host.Outcome State Fault Refusal :=
  .next (finish s (s.viaReg .host .RSV_OWNER bank (RSV_OWNER.GO.set w 1) (ownerWrite bank (RSV_OWNER.GO.set w 1))))
def execHandoverDone (bank : Nat) (s : State) : Host.Outcome State Fault Refusal := .next (finish s (handoverEnd bank s))
def execPoolBanksWrite (p : Nat) (w : Word) (s : State) : Host.Outcome State Fault Refusal :=
  .next (finish s (s.viaReg .host .BSN_POOL_BANKS p w (poolBanksEffect p w)))
def execCpoolWrite (w : Word) (s : State) : Host.Outcome State Fault Refusal :=
  .next (finish s (s.viaReg .host .BSN_CPOOL 0 w (cpoolEffect w)))
def execMinWrite (c p : Nat) (w : Word) (s : State) : Host.Outcome State Fault Refusal :=
  .next (finish s (s.viaReg .host .BSN_MIN (c * 8 + p) w (minEffect c p w)))
def execBufferRequest (rs : List (Nat × Nat)) (s : State) : Host.Outcome State Fault Refusal :=
  .next (finish s (requestEffect rs s))
def execBufferFree (c p b : Nat) (s : State) : Host.Outcome State Fault Refusal := .next (finish s (freeEffect c p b s))
def execFieldBurn (w : Word) (s : State) : Host.Outcome State Fault Refusal :=
  .next (finish s (s.viaReg .host .RSV_FIELD_CTRL 0 w (fieldBurnEffect w)))
def execBurnDone (s : State) : Host.Outcome State Fault Refusal := .next (finish s (burnEnd s))

end Sys2Proof.Machine
end

