-- ==== Sys2Proof/Machine/MirrorOps.lean ====
section
/-! DEFINITION. Mirror records (R55 to R57), the ring (R54), determinism faults (R52, R53), the settings that take effect
together (R68, R502), and the reading of a log (R503). -/
namespace Sys2Proof.Machine

/-- The state of a plan slot as SLU_STATUS shows it: 0 idle, 1 running, 2 holding, 3 ended (R141). -/
def slotFld (k : Nat) : Fld := ⟨.SLU_STATUS, 4 * k + 2, 4 * k⟩
def pendFld (k : Nat) : Fld := ⟨.SLU_STATUS, 4 * k + 3, 4 * k + 3⟩
def State.slotState (s : State) (k : Nat) : Nat := s.get (slotFld k)

/-- Whether a slot runs or holds, so that the Sluice releases (R68). -/
def State.releasing (s : State) : Bool := (List.range 4).any (fun k => s.slotState k == 1 || s.slotState k == 2)

/-- Whether records are being written: EN with MODE 0b00 in effect (R68). -/
def State.recording (s : State) : Bool := s.mirror.now.en && !s.mirror.now.replay
/-- Whether Mirror is in replay mode (R58). -/
def State.inReplay (s : State) : Bool := s.mirror.now.en && s.mirror.now.replay

/-- The bytes in the ring, and its size (R28, R54). -/
def MirrorSt.fill (m : MirrorSt) : Nat := (m.ring.map (fun r => r.bytes.length)).sum
def ringBytes : Nat := 2 ^ 31

/-- The length of a record with a body of `n` bytes (R55). -/
def recLen (n : Nat) : Nat := alignUp 16 (16 + n + 8)

/-- Whether the ring takes records of `n` bytes in all: always while nothing is recorded, and never before a record that waits
(R54). -/
def State.mirFits (s : State) (n : Nat) : Bool :=
  !s.recording || (s.mirror.held.isEmpty && decide (s.mirror.fill + n ≤ ringBytes))

/-- Whether the ring has room for a record with a body of `n` bytes. -/
def State.mirRoom (s : State) (n : Nat) : Bool := s.mirFits (recLen n)

/-- An action is held because the ring is full (R54). -/
def State.mirHeld (s : State) : State := s.ev MIR_STATUS.LOG_FULL

/-- A record (R55): header, body, zero padding, SEQ and CRC. -/
def mirRecord (type rill flags step seq : Nat) (body : List Byte) : List Byte :=
  let len := recLen body.length
  let head := leBytes 1 type ++ leBytes 1 rill ++ leBytes 2 flags ++ leBytes 4 len ++ leBytes 6 step ++ zeros 2
  let bs := head ++ body ++ zeros (len - 8 - (16 + body.length)) ++ leBytes 4 seq
  bs ++ leBytes 4 (crc32c bs)

/-- Bytes enter the ring for the place that follows what the recording has written (R502). -/
def MirrorSt.append (m : MirrorSt) (bs : List Byte) : MirrorSt :=
  { m with
    ring := m.ring ++ [⟨m.destHost, m.destAddr + m.written, m.destAddr + m.destSize, bs, 0⟩]
    written := m.written + bs.length }

/-- MIR_FILL follows the ring (R68). -/
def State.showFill (s : State) : State := s.put MIR_FILL.FILL_MIB (s.mirror.fill / 2 ^ 20)

/-- Writes a record while a recording runs (R54, R57). -/
def State.record (s : State) (type rill flags step : Nat) (body : List Byte) : State :=
  if s.recording then
    ({ s with mirror :=
        { s.mirror.append (mirRecord type rill flags step s.mirror.seq body) with seq := s.mirror.seq + 1 } }).showFill
  else s

/-- Determinism fault causes (R52). -/
def dfStart : Nat := 1
def dfAlign : Nat := 2
def dfDigest : Nat := 3
def dfCycles : Nat := 4
def dfLockstep : Nat := 5
def dfLost : Nat := 6

/-- Whether a determinism fault is the one to latch (R53): none is latched, or the one latched was detected in the same cycle and has
the higher Rill, or the same Rill and the higher cause. Faults between which the always-on clock does not advance count as detected in
one cycle. (DESIGN CHOICE, assumption 106.) -/
def State.faultLatches (s : State) (cause rill : Nat) : Bool :=
  !s.ison MIR_STATUS.DET_FAULT
  || s.mirror.latch.any (fun l => l.1 == s.power.uptime && (decide (rill < l.2.1) || (rill == l.2.1 && decide (cause < l.2.2))))

/-- MIR_DF_INFO and the MIR_DF_STEP registers take a fault (R52). -/
def State.latchFault (s : State) (cause detail rill step : Nat) : State :=
  let s := ((s.put MIR_DF_INFO.CAUSE cause).put MIR_DF_INFO.RILL rill).put MIR_DF_INFO.DETAIL detail
  let s := (s.putPair .MIR_DF_STEP_LO .MIR_DF_STEP_HI 0 (step % 2 ^ 48)).ev MIR_STATUS.DET_FAULT
  { s with mirror := { s.mirror with latch := some (s.power.uptime, rill, cause) } }

/-- A DET_FAULT record: into the ring, or, where the ring has no room, among those that wait for it (R52, R54). -/
def State.recordFault (s : State) (r : HeldRec) : State :=
  if s.mirRoom r.body.length then s.record 0x08 r.rill 0 r.step r.body
  else ({ s with mirror := { s.mirror with held := s.mirror.held ++ [r] } }).mirHeld

/-- The DET_FAULT records that wait enter the ring once it has room for them all (R54). -/
def State.flushFaults (s : State) : State :=
  let l := s.mirror.held
  if s.recording ∧ s.mirror.fill + (l.map (fun r => recLen r.body.length)).sum ≤ ringBytes then
    l.foldl (fun s r => s.record 0x08 r.rill 0 r.step r.body) { s with mirror := { s.mirror with held := [] } }
  else s

/-- A determinism fault (R52, R53, R428): counted, latched where it is the first, and recorded while a recording runs. `rill` is
0x1F where none applies. (DEDUCED, assumption 44.) -/
def State.detFault (s : State) (cause detail rill step expected observed : Nat) : State :=
  let s := (s.bump MIR_DF_COUNT.COUNT 1).trigger 4
  let s := if s.faultLatches cause rill then s.latchFault cause detail rill step else s
  s.recordFault ⟨if rill = 0x1F then 0xFF else rill, step,
    leBytes 1 cause ++ zeros 1 ++ leBytes 2 detail ++ zeros 4 ++ leBytes 8 expected ++ leBytes 8 observed⟩

/-- The body of a SEGMENT record (R56). -/
def State.segmentBody (s : State) : List Byte :=
  leBytes 2 (s.get GLB_ID_HI.DCLASS) ++ leBytes 2 1 ++ leBytes 1 (s.get GLB_ID_LO.STEP)
    ++ leBytes 1 ((if s.mirror.now.batchRec then 1 else 0) + (if s.mirror.now.vtRec then 2 else 0)) ++ zeros 2
    ++ leBytes 8 (s.pair .GLB_UID_LO .GLB_UID_HI 0) ++ s.timeFull

/-- A segment begins: SEQ restarts at its SEGMENT record. The step a SEGMENT record belongs to is not stated by the
spec; it is a free value. (DEDUCED, assumption 41.) -/
def State.beginSegment (s : State) : State :=
  let (step, s) := s.fresh 1 (2 ^ 48)
  ({ s with mirror := { s.mirror with seq := 0 } }).record 0x01 0xFF 0 step s.segmentBody

/-- The destination as the registers name it: host memory, or a flash extent from a sector on (R68, R502). -/
def State.mirDest (s : State) : Bool × Nat × Nat :=
  let a := s.pair .MIR_DEST_LO .MIR_DEST_HI 0
  let size := s.get MIR_DEST_SIZE.SIZE_MIB * 2 ^ 20
  if s.ison MIR_CTRL.DEST then (true, a, size) else (false, (a % 2 ^ 48) * 4096, size)

/-- Whether a MODE is replay: 0b01, or a reserved one that acts as it. (DESIGN CHOICE, assumption 11.) -/
def replayMode (mode : Nat) : Bool := mode == 1 || (decide (2 ≤ mode) && Config.reservedMode mode)

/-- The settings that MIR_CTRL holds. -/
def State.mirAsked (s : State) : MirSetting :=
  ⟨s.ison MIR_CTRL.EN, replayMode (s.get MIR_CTRL.MODE), s.ison MIR_CTRL.BATCH_REC, s.ison MIR_CTRL.VT_REC⟩

/-- Whether nothing of a part has been released. -/
def Part.untouched (p : Part) : Bool := p.round == 0 && p.todo == p.samples

/-- A Rill gives back the parts of a slot from a step on of which nothing has been released, a part it holds among them. -/
def RillSt.giveBack (x : RillSt) (k step : Nat) : RillSt :=
  let mine := fun (p : Part) => p.slot == k && decide (step ≤ p.step)
  let x := { x with queue := x.queue.filter (fun p => !mine p) }
  if x.part.any (fun p => mine p && p.untouched) then { x with part := none, pc := 0, cycle := 0, holding := false } else x

/-- Takes back the listed parts of a slot from a step on that have not begun (R123); their fetches are dropped. -/
def State.unlist (s : State) (k step : Nat) : State :=
  let mine := fun (f : Fetch) => f.slot == k && decide (step ≤ f.step)
  let bufs := (s.sluice.fetches.filter mine).flatMap (fun f => (f.landed.map (·.bufs)).getD [])
  let s := { s with
    rills := s.rills.map (fun (r : RillSt) => r.giveBack k step)
    sluice := { s.sluice with fetches := s.sluice.fetches.filter (fun f => !mine f) } }
  let s := s.modSlot k (fun x => { x with genStep := min x.genStep step })
  showBasin s (s.freeBufs 3 bufs)

/-- A slot's state changes (R123, R141). -/
def State.setSlotState (s : State) (k st : Nat) : State := s.put (slotFld k) st

/-- A replay ends (R59, R68, R503): nothing further is armed from the log, and the plans armed from it end. Parts that
have begun run to their end. (DEDUCED, assumption 43.) -/
def State.endReplay (s : State) : State :=
  let s := ({ s with mirror := { s.mirror with replay := none } }).put MIR_STATUS.REPLAYING 0
  s.each 4 (fun k s =>
    let s := (s.modSlot k (fun x => { x with pending := none })).put (pendFld k) 0
    if s.slotState k = 1 ∨ s.slotState k = 2 then
      ((s.unlist k 0).setSlotState k 3).ev SLU_EVENT.PLAN_END
    else s)

/-- Whether every batch that a replay releases has been handed on: no Rill holds or waits for a part, and no slot has a
step of the log left (R503). (DEDUCED, assumption 43.) -/
def State.replayOver (s : State) (p : Replay) : Bool :=
  s.rills.all (fun r => r.part.isNone && r.queue.isEmpty)
  && (List.range 4).all (fun k =>
      (s.slot k).pending.isNone
      && (match (s.slot k).plan with
          | some (q, _) => s.slotState k != 1 || decide (min q.lastStep p.last < (s.slot k).genStep)
          | none => true))

/-- A replay that has come to the end of its log sets REPLAY_DONE, or DCLASS_MISMATCH where the log goes on with a segment
of another class (R503). -/
def State.checkReplay (s : State) : State :=
  match s.mirror.replay with
  | some p =>
    if s.replayOver p then s.endReplay.ev (if p.mismatch then MIR_STATUS.DCLASS_MISMATCH else MIR_STATUS.REPLAY_DONE) else s
  | none => s

/-- The ring bytes that a pending setting needs (R54, R502): the zero bytes that end a recording, and a SEGMENT record. -/
def State.changeNeed (s : State) : Nat :=
  let old := s.mirror.now
  let new := s.mirAsked
  if old = new then 0
  else
    (if old.en ∧ old.replay = false ∧ ¬(new.en ∧ new.replay = false) then 16 else 0)
      + (if new.en ∧ new.replay = false then recLen 32 else 0)

/-- Whether the ring takes what a pending setting writes, and `n` bytes of records after it (R54). -/
def State.mirTakes (s : State) (n : Nat) : Bool :=
  !(s.recording || s.changeNeed != 0) || (s.mirror.held.isEmpty && decide (s.mirror.fill + s.changeNeed + n ≤ ringBytes))

/-- A pending setting takes effect (R68, R502): a recording ends with 16 zero bytes where its destination has room, a
recording begins with its destination sampled and a SEGMENT record, a change of BATCH_REC or VT_REC begins a new
segment, and a replay that is left ends. It waits while the ring has no room for what it writes (R54). -/
def State.mirApply (s : State) : State :=
  let old := s.mirror.now
  let new := s.mirAsked
  if old = new then s
  else if s.mirTakes 0 = false then s.mirHeld
  else
    let was := old.en && !old.replay
    let now := new.en && !new.replay
    let moved := old.en != new.en || old.replay != new.replay
    let s := if s.mirror.replay.isSome ∧ ¬(new.en ∧ new.replay) then s.endReplay else s
    let s :=
      if was ∧ moved ∧ s.mirror.written + 16 ≤ s.mirror.destSize then
        ({ s with mirror := s.mirror.append (zeros 16) }).showFill
      else s
    let s := { s with mirror := { s.mirror with now := new } }
    let s := s.putb MIR_STATUS.RECORDING now
    if now ∧ moved then
      let d := s.mirDest
      ({ s with mirror := { s.mirror with destHost := d.1, destAddr := d.2.1, destSize := d.2.2, written := 0 } }).beginSegment
    else if now then s.beginSegment
    else s

/-- Whether bytes begin with a valid record of the expected SEQ (R503), and its length. -/
def recordAt (seq : Nat) (bs : List Byte) : Option Nat :=
  let type := leAt bs 0 1
  let len := leAt bs 4 4
  if type < 1 ∨ 8 < type ∨ len < 32 ∨ len % 16 ≠ 0 ∨ 0x04000040 < len ∨ bs.length < len then none
  else if leAt bs (len - 4) 4 ≠ (crc32c (bs.take (len - 4))) then none
  else if leAt bs (len - 8) 4 ≠ (if type = 1 then 0 else seq) then none
  else some len

/-- The records of a log up to its first record that is not valid (R503); `fuel` bounds their number. The flag says
that it ended at a SEGMENT record of another class. -/
def logRecords (dclass : Nat) : Nat → Nat → List Byte → List (List Byte) × Bool
  | 0, _, _ => ([], false)
  | fuel + 1, seq, bs =>
    match recordAt seq bs with
    | none => ([], false)
    | some len =>
      let r := bs.take len
      if leAt r 0 1 = 1 ∧ leAt r 16 2 ≠ dclass then ([], true)
      else
        let next := if leAt r 0 1 = 1 then 1 else seq + 1
        let (l, m) := logRecords dclass fuel next (bs.drop len)
        (r :: l, m)

/-- Fields of a record. -/
def recType (r : List Byte) : Nat := leAt r 0 1
def recRill (r : List Byte) : Nat := leAt r 1 1
def recStep (r : List Byte) : Nat := leAt r 8 6
/-- The image of a PLAN_ARM record: its length follows from SHARD_COUNT (R114). -/
def recPlan (r : List Byte) : List Byte := (r.drop 16).take (128 + 16 * leAt r (16 + 88) 4)

/-- The record flags of the segment that holds the last plan, activation, timing or batch record whose step `p` takes: such
records stand in the segment of their step (R57, R68). -/
def segmentWhere (p : Nat → Bool) : List (List Byte) → Nat → Option Nat → Option Nat
  | [], _, acc => acc
  | r :: l, cur, acc =>
    let t := recType r
    if t = 1 then segmentWhere p l (leAt r 21 1) acc
    else if (t = 2 ∨ t = 3 ∨ t = 6 ∨ t = 7) ∧ p (recStep r) then segmentWhere p l cur (some cur)
    else segmentWhere p l cur acc

/-- The record flags of a step's segment (R59): that of the step's own records, or, where it left none, that of the records of the
steps up to it, or the log's first. -/
def segmentFlags (l : List (List Byte)) (step : Nat) : Nat :=
  match segmentWhere (· == step) l 0 none with
  | some f => f
  | none => (segmentWhere (fun n => decide (n ≤ step)) l 0 none).getD ((l.head?.map (fun r => leAt r 21 1)).getD 0)

/-- The BATCH records of a Rill and step in a log. -/
def Replay.batch? (p : Replay) (rill step : Nat) : List (List Byte) :=
  p.log.filter (fun r => recType r == 7 && recRill r == rill && recStep r == step)

/-- The last PLAN_ARM image of a slot at or before a step, and the first after it (R60). -/
def Replay.planAt (p : Replay) (slot step : Nat) : Option (List Byte) :=
  ((p.log.filter (fun r => recType r == 2 && leAt r 18 1 == slot && decide (recStep r ≤ step))).getLast?).map recPlan
def Replay.planAfter (p : Replay) (slot step : Nat) : Option (List Byte) :=
  (p.log.find? (fun r => recType r == 2 && leAt r 18 1 == slot && decide (step < recStep r))).map recPlan

/-- The external inputs that a log holds for a slot's LIVE plan (R58, R61): the HOST_INJECT records of the slot and the INLET_FRAME
records of the plan's sources, of the plan's steps, between the plan's own PLAN_ARM record and the next one of its slot. The pixel
format of an RVF frame is not in the log. -/
def Replay.liveOf (r : Replay) (k : Nat) (p : Plan) (img : List Byte) : List LiveSample :=
  let arms := fun (x : List Byte) => recType x == 2 && leAt x 18 1 == k
  let own := ((r.log.dropWhile (fun x => !(arms x && recPlan x == img))).drop 1).takeWhile (fun x => !arms x)
  own.filterMap (fun x =>
    let index := leAt x 24 8 % 2 ^ 44
    if p.live = false ∨ recStep x < p.firstStep ∨ p.firstStep + p.stepCount ≤ recStep x then none
    else if recType x = 4 ∧ bitOf p.source (leAt x 16 1) then
      let desc := (x.drop 32).take 32
      some ⟨index, leAt desc 27 1, 0, 0, desc, none, (x.drop 64).take (leAt x 20 4), []⟩
    else if recType x = 5 ∧ leAt x 23 1 = k then
      some ⟨index, leAt x 20 1, leAt x 21 1, leAt x 22 1, [], none, (x.drop 32).take (leAt x 16 4), []⟩
    else none)

/-- The last WEAVE_ACT hash at or before a step, and the first activation after it (R60, R96). -/
def Replay.weaveAt (p : Replay) (step : Nat) : Option (List Byte) :=
  ((p.log.filter (fun r => recType r == 3 && decide (recStep r ≤ step))).getLast?).map (fun r => (r.drop 24).take 48)
def Replay.weaveAfter (p : Replay) (step : Nat) : Option (Nat × List Byte) :=
  (p.log.find? (fun r => recType r == 3 && decide (step < recStep r))).map (fun r => (recStep r, (r.drop 24).take 48))

/-- The slot that holds a weave with a given hash (R96). -/
def State.slotOfHash (s : State) (h : List Byte) : Option Nat :=
  (List.range 2).find? (fun k =>
    match s.cascade.slots[k]? with
    | some w => (w.state == .valid || w.state == .active) && (w.weave.map (·.hash)) == some h
    | none => false)

/-- The slot that is armed, where one is: an arm from a log is for whichever slot holds the recorded hash now (R96). -/
def State.armedSlot (s : State) : Option Nat :=
  match s.cascade.act.byHash with
  | some h => if s.cascade.act.armed.isSome then s.slotOfHash h else none
  | none => s.cascade.act.armed.map (·.1)

end Sys2Proof.Machine
end

