-- ==== Sys2Proof/Machine/WeaveImage.lean ====
section
/-! DEFINITION. The weave container: reading an image (R69 to R84) and the loader's checks on it (R76, R79, R89,
R92), each failure as an error code with the byte offset of what failed. Checks run in the order of their codes
within a phase (assumption 20). -/
namespace Sys2Proof.Machine

/-- Error codes of R92. -/
def weMagic : Nat := 0x01
def weFormat : Nat := 0x02
def weLength : Nat := 0x03
def weHeaderCrc : Nat := 0x04
def weDclass : Nat := 0x05
def weDirectory : Nat := 0x06
def weSectionCrc : Nat := 0x07
def weSectionType : Nat := 0x08
def weSectionCount : Nat := 0x09
def weRecord : Nat := 0x0A
def weEngineTwice : Nat := 0x10
def weEngineAbsent : Nat := 0x11
def wePacker : Nat := 0x12
def weStageGraph : Nat := 0x13
def weStageConfig : Nat := 0x14
def weBankOwner : Nat := 0x20
def weBankBusy : Nat := 0x21
def weSchedBank : Nat := 0x22
def weSchedLatency : Nat := 0x23
def weSchedForm : Nat := 0x24
def weConstants : Nat := 0x25
def weMarkMissing : Nat := 0x30
def weMarkReserved : Nat := 0x31
def weSigBad : Nat := 0x40
def weSigAbsent : Nat := 0x41
def wePinShort : Nat := 0x50
def weSlotState : Nat := 0x51
def weLate : Nat := 0x52
def weHashAbsent : Nat := 0x53
def weAborted : Nat := 0x54
def weSource : Nat := 0x55
def weAddress : Nat := 0x56
def weReplay : Nat := 0x57

/-- The task status that goes with a load error (R92, R479). -/
def loadStatus (err : Nat) : Nat :=
  if err = 0 then 0 else if err = weSigAbsent then 0x0061 else if err = weSource then 0x0030
  else if err = weAddress then 0x0020 else 0x0060

/-- The largest image, one weave slot (R69). -/
def maxImage : Nat := 512 * 2 ^ 20

/-- A section directory entry (R71); `at` is its byte offset. -/
structure DirEntry where
  pos : Nat
  type : Nat
  sver : Nat
  count : Nat
  ofs : Nat
  len : Nat
  crc : Nat
  rest : Nat
  deriving DecidableEq, Repr

def dirEntryAt (img : List Byte) (pos : Nat) : DirEntry :=
  let b := img.drop pos
  ⟨pos, leAt b 0 1, leAt b 1 1, leAt b 2 2, leAt b 4 4, leAt b 8 4, leAt b 12 4, leAt b 16 16⟩

def sectionCountOf (img : List Byte) : Nat := leAt img 16 2

/-- The section directory (R69). -/
def directoryOf (img : List Byte) : List DirEntry :=
  (List.range (min 7 (sectionCountOf img))).map (fun i => dirEntryAt img (64 + 32 * i))

def findSection (img : List Byte) (type : Nat) : Option DirEntry :=
  (directoryOf img).find? (fun e => e.type == type)

/-- The bytes of a section; none where the image has no such section. -/
def sectionBytes (img : List Byte) (type : Nat) : List Byte :=
  match findSection img type with
  | some e => (img.drop e.ofs).take e.len
  | none => []

def sectionOfs (img : List Byte) (type : Nat) : Nat := ((findSection img type).map (·.ofs)).getD 0
/-- Where the directory entry of a section stands. -/
def entryPos (img : List Byte) (type : Nat) : Nat := ((findSection img type).map (·.pos)).getD 0
def sectionRecords (img : List Byte) (type : Nat) : Nat := ((findSection img type).map (·.count)).getD 0

/-- The hashed range of R73. -/
def hashedBytes (img : List Byte) : List Byte :=
  match findSection img 7 with
  | some e => img.take e.ofs
  | none => img

/-- Header checks, up to DCLASS (R92). `len` is CSC_LOAD_LEN. (DEDUCED, assumption 20.) (DEDUCED, assumption 21.) -/
def headerCheck (img : List Byte) (len dclass : Nat) : Option (Nat × Nat) :=
  if leAt img 0 4 ≠ 0x56414557 then some (weMagic, 0)
  else if leAt img 4 2 ≠ 1 then some (weFormat, 4)
  else if leAt img 6 2 ≠ 64 then some (weFormat, 6)
  else if leAt img 8 4 % 64 ≠ 0 ∨ maxImage < leAt img 8 4 ∨ leAt img 8 4 ≠ len then some (weLength, 8)
  else if leAt img 60 4 ≠ crc32c (img.take 60) then some (weHeaderCrc, 60)
  else if leAt img 12 2 ≠ dclass then some (weDclass, 12)
  else none

/-- Whether sections lie in order from `least`, 64-byte aligned, a multiple of 64 long and within the image. -/
def sectionsLie (total : Nat) : Nat → List DirEntry → Option Nat
  | _, [] => none
  | least, e :: es =>
    if e.ofs % 64 ≠ 0 ∨ e.ofs < least ∨ e.len % 64 ≠ 0 ∨ total < e.ofs + e.len ∨ e.rest ≠ 0 then some e.pos
    else sectionsLie total (e.ofs + e.len) es

/-- DIRECTORY (R92). (DEDUCED, assumption 20.) -/
def directoryCheck (img : List Byte) : Option (Nat × Nat) :=
  let n := sectionCountOf img
  let total := leAt img 8 4
  if n < 5 ∨ 7 < n then some (weDirectory, 16)
  else if 1 < leAt img 14 2 then some (weDirectory, 14)
  else if leAt img 36 24 ≠ 0 then some (weDirectory, 36)
  else
    match sectionsLie total (64 + 32 * n) (directoryOf img) with
    | some p => some (weDirectory, p)
    | none =>
      match (directoryOf img).find? (fun e => e.type == 7) with
      | some e =>
        if (directoryOf img).getLast? = some e ∧ e.ofs + e.len = total then none else some (weDirectory, e.pos)
      | none => none

/-- The directory entry of the first section of a type that has stood before. -/
def repeatedSection : List DirEntry → Option Nat
  | [] => none
  | e :: es =>
    match es.find? (fun x => x.type == e.type) with
    | some x => some x.pos
    | none => repeatedSection es

/-- SECTION_CRC, SECTION_TYPE and SECTION_COUNT (R92, R72). -/
def sectionCheck (img : List Byte) : Option (Nat × Nat) :=
  let d := directoryOf img
  match d.find? (fun e => e.crc != crc32c ((img.drop e.ofs).take e.len)) with
  | some e => some (weSectionCrc, e.pos)
  | none =>
    match d.find? (fun e => e.type == 0 || decide (7 < e.type) || e.sver != 1) with
    | some e => some (weSectionType, e.pos)
    | none =>
      let have? := fun t => d.any (fun e => e.type == t)
      match repeatedSection d with
      | some p => some (weSectionCount, p)
      | none =>
        if !([1, 2, 3, 4, 6].all have?) then some (weSectionCount, 16)
        else if have? 7 != bitOf (leAt img 14 2) 0 then some (weSectionCount, 14)
        else none

/-- A TOPOLOGY record (R74). -/
structure Topo where
  pos : Nat
  rill : Nat
  stage : Nat
  type : Nat
  input : Nat
  engine : Nat
  pad : Nat
  deriving DecidableEq, Repr

def toposOf (img : List Byte) : List Topo :=
  let b := sectionBytes img 1
  let o := sectionOfs img 1
  (List.range (sectionRecords img 1)).map (fun i =>
    let r := b.drop (8 * i)
    ⟨o + 8 * i, leAt r 0 1, leAt r 1 1, leAt r 2 1, leAt r 3 1, leAt r 4 2, leAt r 6 2⟩)

/-- How many engines of a type there are (R75). -/
def engineCount : Nat → Nat
  | 1 => 32
  | 2 => 8
  | 3 => 16
  | 4 => 4
  | 5 => 64
  | 6 => 16
  | 7 => 16
  | 8 => 16
  | 9 => 2
  | _ => 0

/-- The home group of an engine (R75); none for Keeper and Inlet stages. -/
def homeGroup (type engine : Nat) : Option Nat :=
  match type with
  | 1 => some (engine / 2)
  | 2 => some (2 * engine)
  | 3 => some engine
  | 4 => some (4 * engine)
  | 5 => some (engine / 4)
  | 6 => some engine
  | 7 => some engine
  | _ => none

/-- The bank group of a bank: 64 banks each (R26). -/
def bankGroup (bank : Nat) : Nat := bank / 64

/-- The least access latency of R26, 3 cc for a stage without a home group (R79). -/
def minLatency (type engine bank : Nat) : Nat :=
  match homeGroup type engine with
  | none => 3
  | some h =>
    let g := bankGroup bank
    if g = h then 1 else if g = (h + 1) % 16 ∨ h = (g + 1) % 16 then 2 else 3

/-- The first record that does not follow its predecessor in order of Rill and then stage (R74). -/
def topoDisorder : List Topo → Option Nat
  | [] => none
  | [_] => none
  | a :: b :: l => if a.rill * 32 + a.stage < b.rill * 32 + b.stage then topoDisorder (b :: l) else some b.pos

/-- Whether a TOPOLOGY record has a field out of range or a non-zero reserved byte (R74, R75). -/
def topoBad (t : Topo) : Bool :=
  decide (15 < t.rill) || decide (31 < t.stage) || decide (engineCount t.type ≤ t.engine) || t.pad != 0
  || (t.type == 7 && t.engine != t.rill)

/-- The STAGE_CONFIG records in order: position and bytes; `fuel` bounds their number. -/
def cfgRecords : Nat → Nat → List Byte → List (Nat × List Byte)
  | 0, _, _ => []
  | n + 1, pos, bs =>
    let len := leAt bs 4 4
    (pos, bs.take len) :: cfgRecords n (pos + len) (bs.drop len)

def cfgsOf (img : List Byte) : List (Nat × List Byte) :=
  cfgRecords (sectionRecords img 3) (sectionOfs img 3) (sectionBytes img 3)

/-- The MARKS records: position, Rill, stage, mark and reserved byte (R83). -/
def marksOf (img : List Byte) : List (Nat × Nat × Nat × Nat × Nat) :=
  let b := sectionBytes img 6
  let o := sectionOfs img 6
  (List.range (sectionRecords img 6)).map (fun i =>
    let r := b.drop (4 * i)
    (o + 4 * i, leAt r 0 1, leAt r 1 1, leAt r 2 1, leAt r 3 1))

/-- One schedule entry from its 64-bit word (R77). -/
def schedEntryOf (w : Nat) : SchedEntry :=
  ⟨bitsOf w 63 60, bitsOf w 59 55, bitsOf w 54 54, bitsOf w 53 44, bitsOf w 43 32, bitsOf w 31 0⟩

/-- The schedule tables: position, Rill, whether reserved bytes are clean, the declared count, the entries. -/
def schedTables : Nat → Nat → List Byte → List (Nat × Nat × Bool × Nat × List SchedEntry)
  | 0, _, _ => []
  | n + 1, pos, bs =>
    let cnt := leAt bs 4 4
    let clean := leAt bs 1 3 == 0 && leAt bs 8 8 == 0 && decide (16 + 8 * cnt ≤ bs.length)
    let body := bs.drop 16
    (pos, leAt bs 0 1, clean, cnt,
      (List.range (min cnt 16384)).map (fun i => schedEntryOf (leAt (body.drop (8 * i)) 0 8)))
      :: schedTables n (pos + 16 + 8 * cnt) (body.drop (8 * cnt))

def tablesOf (img : List Byte) : List (Nat × Nat × Bool × Nat × List SchedEntry) :=
  schedTables (sectionRecords img 2) (sectionOfs img 2) (sectionBytes img 2)

def ownersOf (img : List Byte) : List Nat :=
  let b := sectionBytes img 4
  (List.range 1024).map (fun i => leAt (b.drop (4 * i)) 0 4)

/-- CLASS, RILL, STAGE and PORT_FIRST of a BANK_OWNER word (R81). -/
def boClass (w : Nat) : Nat := bitsOf w 31 28
def boRill (w : Nat) : Nat := bitsOf w 27 24
def boStage (w : Nat) : Nat := bitsOf w 23 19
def boPortFirst (w : Nat) : Nat := bitsOf w 18 18

def constRecords : Nat → Nat → List Byte → List (Nat × Bool × ConstRec)
  | 0, _, _ => []
  | n + 1, pos, bs =>
    let len := leAt bs 4 4
    (pos, leAt bs 8 8 == 0 && len % 64 == 0 && decide (leAt bs 2 2 < 4096) && decide (leAt bs 0 2 < 1024)
        && decide (16 + len ≤ bs.length),
      ⟨leAt bs 0 2, leAt bs 2 2, (bs.drop 16).take len⟩)
      :: constRecords n (pos + 16 + len) (bs.drop (16 + len))

def constsOf (img : List Byte) : List (Nat × Bool × ConstRec) :=
  constRecords (sectionRecords img 5) (sectionOfs img 5) (sectionBytes img 5)

/-- The bytes of a section after its last record, which must be zero (R72). -/
def tailClean (img : List Byte) (type used : Nat) : Bool := allZero ((sectionBytes img type).drop used)

def schedUsed (img : List Byte) : Nat :=
  ((tablesOf img).map (fun t => 16 + 8 * t.2.2.2.1)).sum

/-- Whether a schedule entry of a known operation has a field out of range, or sets one that its operation does not use (R78):
LOOP uses OPERAND[13:0], BIND uses OPERAND[11:0]. -/
def schedEntryBad (stages : List Nat) (e : SchedEntry) : Bool :=
  let noPort := e.port == 0 && e.bank == 0 && e.latency == 0
  let staged := stages.contains e.stage
  match e.op with
  | 0 => !(noPort && e.stage == 0 && decide (1 ≤ e.operand))
  | 1 => !(noPort && e.operand == 0 && staged)
  | 2 => !(noPort && staged)
  | 3 => !(noPort && e.operand == 0 && staged)
  | 4 => decide (4096 ≤ e.operand) || !staged
  | 5 => !(noPort && e.stage == 0 && decide (e.operand < 16384))
  | 6 => !(noPort && e.stage == 0 && e.operand == 0)
  | _ => false

/-- The first bad entry of a schedule table: its position in the image. -/
def schedTableBad (topos : List Topo) (t : Nat × Nat × Bool × Nat × List SchedEntry) : Option Nat :=
  let stages := (topos.filter (fun x => x.rill == t.2.1)).map (·.stage)
  (t.2.2.2.2.zipIdx.find? (fun e => schedEntryBad stages e.1)).map (fun e => t.1 + 16 + 8 * e.2)

/-- The first STAGE_CONFIG record that does not match its TOPOLOGY record (R80): its position. -/
def cfgMismatch (img : List Byte) : Option Nat :=
  (((cfgsOf img).zip (toposOf img)).find? (fun e =>
    let b := e.1.2
    leAt b 0 1 != e.2.rill || leAt b 1 1 != e.2.stage || leAt b 2 1 != e.2.type
    || leAt b 3 1 != 0 || leAt b 4 4 % 8 != 0 || decide (leAt b 4 4 < 8)
    || b.length != leAt b 4 4)).map (·.1.1)

/-- RECORD checks of TOPOLOGY (R74). -/
def topoCheck (img : List Byte) : Option Nat :=
  let n := 8 * sectionRecords img 1
  if (sectionBytes img 1).length < n ∨ tailClean img 1 n = false then some (entryPos img 1)
  else
    match (toposOf img).find? topoBad with
    | some t => some t.pos
    | none => topoDisorder (toposOf img)

/-- RECORD checks of SCHEDULE (R77, R78): one table for each Rill of RILL_MASK, in Rill order. -/
def schedRecordCheck (img : List Byte) : Option Nat :=
  let ts := tablesOf img
  let want := maskBitsOf 16 (leAt img 18 2)
  match (ts.zip want).find? (fun t => !t.1.2.2.1 || t.1.2.1 != t.2) with
  | some t => some t.1.1
  | none =>
    if ts.length ≠ want.length ∨ (sectionBytes img 2).length < schedUsed img
        ∨ tailClean img 2 (schedUsed img) = false then some (entryPos img 2)
    else ts.findSome? (schedTableBad (toposOf img))

/-- RECORD checks of STAGE_CONFIG (R80). -/
def cfgRecordCheck (img : List Byte) : Option Nat :=
  match cfgMismatch img with
  | some p => some p
  | none =>
    if sectionRecords img 3 ≠ sectionRecords img 1
        ∨ tailClean img 3 (((cfgsOf img).map (fun c => c.2.length)).sum) = false then some (entryPos img 3)
    else none

/-- RECORD checks of BANK_OWNER (R81). -/
def ownerRecordCheck (img : List Byte) : Option Nat :=
  if sectionRecords img 4 ≠ 1024 ∨ (sectionBytes img 4).length < 4096 ∨ tailClean img 4 4096 = false then
    some (entryPos img 4)
  else none

/-- RECORD checks of CONSTANTS (R82). -/
def constRecordCheck (img : List Byte) : Option Nat :=
  match (constsOf img).find? (fun c => !c.2.1) with
  | some c => some c.1
  | none =>
    let used := ((constsOf img).map (fun c => 16 + c.2.2.data.length)).sum
    if tailClean img 5 used then none else some (entryPos img 5)

/-- RECORD checks of MARKS (R83); a stage without its record is MARK_MISSING. -/
def markRecordCheck (img : List Byte) : Option Nat :=
  let n := sectionRecords img 6
  if sectionRecords img 1 < n ∨ (sectionBytes img 6).length < 4 * n ∨ tailClean img 6 (4 * n) = false then
    some (entryPos img 6)
  else ((marksOf img).find? (fun m => m.2.2.2.2 != 0)).map (·.1)

/-- RECORD checks of SIGNATURE (R72, R84): its one record of 128 bytes, and zeros after it. -/
def sigRecordCheck (img : List Byte) : Option Nat :=
  if bitOf (leAt img 14 2) 0 then
    let b := sectionBytes img 7
    if sectionRecords img 7 ≠ 1 ∨ b.length < 128 then some (entryPos img 7)
    else if 3 < leAt b 0 2 ∨ leAt b 2 2 ≠ 1 ∨ leAt b 4 4 ≠ 0 ∨ allZero (b.drop 104) = false then some (sectionOfs img 7)
    else none
  else none

/-- RECORD (R92): fields out of range, reserved bytes, COUNT not matching, and section tails. -/
def recordCheck (img : List Byte) : Option (Nat × Nat) :=
  ([topoCheck img, schedRecordCheck img, cfgRecordCheck img, ownerRecordCheck img, constRecordCheck img,
    markRecordCheck img, sigRecordCheck img].findSome? id).map (fun p => (weRecord, p))

/-- ENGINE_TWICE (R76, R25): engines of types 1 to 6 on two stages. -/
def engineTwice : List Topo → Option Nat
  | [] => none
  | t :: l =>
    if decide (1 ≤ t.type) && decide (t.type ≤ 6) && l.any (fun u => u.type == t.type && u.engine == t.engine)
    then some t.pos else engineTwice l

/-- ENGINE_ABSENT (R102): `avail` says whether a logical engine of types 1 to 6 is available. -/
def engineAbsent (avail : Nat → Nat → Bool) (topos : List Topo) : Option Nat :=
  (topos.find? (fun t => decide (1 ≤ t.type) && decide (t.type ≤ 6) && !avail t.type t.engine)).map (·.pos)

def toposOfRill (topos : List Topo) (r : Nat) : List Topo := topos.filter (fun t => t.rill == r)

/-- PACKER: the highest stage is the packer and no other stage is (R76); the record that breaks it. -/
def packerBad (ts : List Topo) : Option Nat :=
  match ts.reverse with
  | [] => none
  | t :: rest => ((rest.reverse.find? (fun u => u.type == 7)).map (·.pos)).or (if t.type = 7 then none else some t.pos)

/-- STAGE_GRAPH: 1 to 32 stages, stage 0 first and fed by the Sluice, every other INPUT the Sluice or an earlier stage (R74, R76); the
record that breaks it, or the header's RILL_MASK where a Rill has no stage. -/
def graphBad (ts : List Topo) : Option Nat :=
  match ts with
  | [] => some 18
  | t :: rest =>
    if t.stage ≠ 0 ∨ t.input ≠ 0xFF ∨ 32 < ts.length then some t.pos
    else (rest.find? (fun u => u.input != 0xFF && (!decide (u.input < u.stage) || !ts.any (fun v => v.stage == u.input)))).map (·.pos)

/-- Engine and stage-graph checks (R92). -/
def engineCheck (avail : Nat → Nat → Bool) (img : List Byte) : Option (Nat × Nat) :=
  let topos := toposOf img
  let rills := maskBitsOf 16 (leAt img 18 2)
  match engineTwice topos with
  | some p => some (weEngineTwice, p)
  | none =>
    match engineAbsent avail topos with
    | some p => some (weEngineAbsent, p)
    | none =>
      match rills.findSome? (fun r => packerBad (toposOfRill topos r)) with
      | some p => some (wePacker, p)
      | none =>
        match topos.find? (fun t => !rills.contains t.rill) with
        | some t => some (weStageGraph, t.pos)
        | none => (rills.findSome? (fun r => graphBad (toposOfRill topos r))).map (fun p => (weStageGraph, p))

/-- BANK_OWNER: a word that breaks R81; the owning stage is a stage of the weave. -/
def bankOwnerBad (topos : List Topo) (w : Nat) : Bool :=
  decide (1 < boClass w) || w % 2 ^ 18 != 0
  || (boClass w == 0 && w != 0)
  || (boClass w == 1 && !topos.any (fun t => t.rill == boRill w && t.stage == boStage w))

/-- SCHED_FORM, SCHED_BANK and SCHED_LATENCY of entry `i` of a Rill's table (R78, R79, R92). -/
def schedEntryErr (owners : List Nat) (topos : List Topo) (rill last i : Nat) (e : SchedEntry) : Option Nat :=
  if 7 ≤ e.op then some weSchedForm
  else if (e.op = 6) ≠ (i = last) then some weSchedForm
  else if e.op = 5 ∧ i ≤ e.operand then some weSchedForm
  else
    match (toposOfRill topos rill).find? (fun t => t.stage == e.stage) with
    | none => none
    | some t =>
      if e.op = 4 then
        let w := owners.getD e.bank 0
        if boClass w ≠ 1 ∨ boRill w ≠ rill ∨ boStage w ≠ e.stage then some weSchedBank
        else if e.latency < minLatency t.type t.engine e.bank then some weSchedLatency
        else none
      else none

/-- The first failing entry of a list of entries, with its index. -/
def firstErr (f : Nat → SchedEntry → Option Nat) : Nat → List SchedEntry → Option (Nat × Nat)
  | _, [] => none
  | i, e :: es =>
    match f i e with
    | some c => some (c, i)
    | none => firstErr f (i + 1) es

/-- The first failing schedule table. -/
def schedCheck (owners : List Nat) (topos : List Topo) :
    List (Nat × Nat × Bool × Nat × List SchedEntry) → Option (Nat × Nat)
  | [] => none
  | (pos, rill, _, cnt, es) :: ts =>
    if cnt = 0 ∨ 16384 < cnt then some (weSchedForm, pos)
    else
      match firstErr (schedEntryErr owners topos rill (cnt - 1)) 0 es with
      | some (c, i) => some (c, pos + 16 + 8 * i)
      | none => schedCheck owners topos ts

/-- The global word numbers of a constant record: bank × 4,096 + word, running on into the next bank (R82). -/
def constWords (c : ConstRec) : Nat × Nat := (c.bank * 4096 + c.word, c.data.length / 64)

/-- Whether every word of a record lies in a Rill bank of the weave. -/
def constInRill (owners : List Nat) (c : ConstRec) : Bool :=
  let (w, n) := constWords c
  n == 0 || (List.range ((w + n - 1) / 4096 - w / 4096 + 1)).all (fun i =>
    boClass (owners.getD (w / 4096 + i) 0) == 1)

/-- The first record that writes a word an earlier one writes: its position. A record without data writes none. -/
def constOverlap : List (Nat × ConstRec) → Option Nat
  | [] => none
  | c :: cs =>
    let (w, n) := constWords c.2
    match cs.find? (fun d => let (v, m) := constWords d.2; decide (0 < n) && decide (0 < m) && decide (w < v + m) && decide (v < w + n)) with
    | some d => some d.1
    | none => constOverlap cs

/-- CONSTANTS (R82, R92). -/
def constCheck (owners : List Nat) (img : List Byte) : Option (Nat × Nat) :=
  let cs := constsOf img
  let total := (cs.map (fun c => c.2.2.data.length)).sum
  match cs.find? (fun c => !constInRill owners c.2.2) with
  | some c => some (weConstants, c.1)
  | none =>
    match constOverlap (cs.map (fun c => (c.1, c.2.2))) with
    | some p => some (weConstants, p)
    | none => if total ≠ leAt img 20 4 ∨ 128 * 2 ^ 20 < leAt img 20 4 then some (weConstants, 20) else none

/-- The mark code a stage type must carry (R40); types of other kinds carry any code of R40 (R41). -/
def markNeeded : Nat → Option Nat
  | 6 => some 1
  | 8 => some 2
  | 9 => some 3
  | _ => none

/-- MARK_MISSING and MARK_RESERVED (R40, R92): a stage that needs its code and carries a reserved one has MARK_MISSING, the lower code.
(DEDUCED, assumption 20.) -/
def markCheck (img : List Byte) : Option (Nat × Nat) :=
  let pairs := (toposOf img).zip (marksOf img)
  let missing := (pairs.find? (fun e =>
      e.2.2.1 != e.1.rill || e.2.2.2.1 != e.1.stage
      || (match markNeeded e.1.type with | some m => e.2.2.2.2.1 != m | none => false))).map (·.2.1)
  let absent := ((toposOf img).drop (marksOf img).length).head?.map (·.pos)
  match missing.or absent with
  | some pos => some (weMarkMissing, pos)
  | none => (pairs.find? (fun e => decide (3 < e.2.2.2.2.1))).map (fun e => (weMarkReserved, e.2.1))

/-- The weave an image describes, once the checks have passed. `hash` is its weave hash (R73). -/
def weaveOf (hash img : List Byte) : Weave :=
  let topos := toposOf img
  let cfgs := cfgsOf img
  let marks := marksOf img
  let all := (topos.zip (cfgs.zip marks))
  { rillMask := leAt img 18 2
    constBytes := leAt img 20 4
    weaveId := leAt img 24 8
    hash := hash
    signed := bitOf (leAt img 14 2) 0
    keySlot := leAt (sectionBytes img 7) 0 2
    rills := (tablesOf img).map (fun t =>
      { rill := t.2.1
        stages := (all.filter (fun e => e.1.rill == t.2.1)).map (fun e =>
          ⟨e.1.stage, e.1.type, e.1.input, e.1.engine, e.2.2.2.2.2.1, e.2.1.2⟩)
        sched := t.2.2.2.2 })
    owners := ownersOf img
    consts := (constsOf img).map (·.2.2) }

def Weave.rill? (w : Weave) (r : Nat) : Option WRill := w.rills.find? (fun x => x.rill == r)
def WRill.stage? (r : WRill) (i : Nat) : Option WStage := r.stages.find? (fun x => x.stage == i)

/-- The packer of a Rill: its highest-numbered stage (R76). -/
def WRill.packer? (r : WRill) : Option WStage := r.stages.getLast?

/-- Whether a Rill contains a stage with a mark, and so is variable-time (R39, R41). -/
def WRill.marked (r : WRill) : Bool := r.stages.any (fun s => s.mark != 0)

end Sys2Proof.Machine
end

