-- ==== Sys2Proof/Machine/SluiceOps.lean ====
section
/-! DEFINITION. The Sluice's operations: listing a step's parts (R116 to R119), the order of release and of fetches
(R127, R131, R136), what a sample's place in the catalogue gives (R109), acceptance of LIVE samples (R118), and the end
of a plan (R123 to R125). -/
namespace Sys2Proof.Machine

/-- Whether every round of a part has been released (R125, R127). -/
def Part.allReleased (p : Part) : Bool :=
  p.todo.isEmpty && (p.final || p.live || p.reserve == 0 || p.round == p.reserve)

/-- The parts that a Rill holds and that wait for it, in their order. -/
def RillSt.parts (r : RillSt) : List Part := r.part.toList ++ r.queue

/-- The parts of a slot before a step that are not wholly released. -/
def State.unreleased (s : State) (slot before : Nat) : Bool :=
  s.rills.any (fun r => r.parts.any (fun p => p.slot == slot && decide (p.step < before) && !p.allReleased))

/-- The step before which a slot's plan in effect ends: one past its last, or its pending plan's first if that comes earlier, and in
replay no later than one past the log's last record (R123, R503). -/
def State.stepEnd (s : State) (k : Nat) : Option Nat :=
  match (s.slot k).plan with
  | none => none
  | some (p, _) =>
    let a := match (s.slot k).pending with
      | some i => min (p.lastStep + 1) (planOf i).firstStep
      | none => p.lastStep + 1
    some (match s.mirror.replay with
      | some r => min a (r.last + 1)
      | none => a)

/-- The longest walk of π over a step's positions (R113). -/
def Plan.longestWalk (p : Plan) (step : Nat) : Nat :=
  if p.live then 0
  else (List.range p.b).foldl (fun m i => max m (permWalk (p.firstPos step 0 + i) p.n p.key).2) 0

/-- One part of a step (R117). -/
def partAt (k : Nat) (p : Plan) (step slice d : Nat) : Part :=
  let own := p.partSamples step slice d
  { slot := k, step := step, slice := slice, dev := d, live := p.live, epoch := p.epoch
    firstPos := if p.live then (step - p.firstStep) * p.b + slice * p.sliceSize else p.firstPos step slice
    sliceSize := p.sliceSize
    reserve := if p.live ∨ p.reserveCount d = 0 then 0 else p.bfReserve
    samples := own, round := 0, todo := own, next := [], final := false, plan := p }

/-- Lists the parts of a slot's next step for their Rills (R117, R119); SLU_WALK_MAX keeps the longest walk.
(DESIGN CHOICE, assumption 63.) -/
def State.listStep (s : State) (k : Nat) : State :=
  match (s.slot k).plan with
  | none => s
  | some (p, _) =>
    let step := (s.slot k).genStep
    let parts := (List.range p.slices).flatMap (fun sl => p.partDevices.map (fun d => partAt k p step sl d))
    let kept := parts.filter (fun q => p.emptyParts || !q.samples.isEmpty)
    let s := kept.foldl (fun s q =>
      match p.rillOf q.slice with
      | some r => s.modRill r (fun x => { x with queue := x.queue ++ [q] })
      | none => s) s
    let s := s.put SLU_WALK_MAX.PASSES (min (2 ^ 32 - 1) (max (s.get SLU_WALK_MAX.PASSES) (p.longestWalk step)))
    s.modSlot k (fun x => { x with genStep := step + 1 })

/-- Lists one step ahead for each running slot that has a Rill without a waiting part. (DESIGN CHOICE, assumption 63.) -/
def State.listAhead (s : State) : State :=
  s.each 4 (fun k s =>
    match (s.slot k).plan, s.stepEnd k with
    | some (p, _), some n =>
      if s.slotState k = 1 ∧ (s.slot k).genStep < n
          ∧ (maskBitsOf 16 p.rillMask).any (fun r => (s.rill r).queue.isEmpty) then s.listStep k
      else s
    | _, _ => s)

/-- Whether a slot's plan has released all that it may: every step before its end. -/
def State.slotDone (s : State) (k : Nat) : Bool :=
  match s.stepEnd k with
  | some n => decide (n ≤ (s.slot k).genStep) && !s.unreleased k n
  | none => true

/-- Ends a running plan that has released its last step, where no successor follows (R123, R124). In replay every plan
comes from the log. -/
def State.endPlans (s : State) : State :=
  s.each 4 (fun k s =>
    match (s.slot k).plan with
    | some (p, _) =>
      let succ := p.successor.isSome && (s.slot k).pending.isNone && !s.inReplay
      if s.slotState k = 1 ∧ p.lastStep < (s.slot k).genStep ∧ s.slotDone k ∧ succ = false then
        (s.setSlotState k 3).ev SLU_EVENT.PLAN_END
      else s
    | none => s)

/-- A sample's catalogue entry (R109, R115). (DESIGN CHOICE, assumption 110.) -/
def State.catEntry (s : State) (p : Plan) (g : Nat) : CatEntry :=
  match p.localOf g with
  | some i => assocRead id (fun _ => catEntryZero) i s.sluice.catalogue
  | none => catEntryZero

/-- A sample of a Rill's order: its part, its offset and index, and its attempt (R131). -/
structure Wanted where
  part : Part
  offset : Nat
  g : Nat
  attempt : Nat
  deriving DecidableEq, Repr

/-- The samples of a part that are still to be released, the replacements drawn for its next round after those of this one. -/
def Part.wanted (p : Part) : List Wanted :=
  p.todo.map (fun t => ⟨p, t.1, t.2, p.round⟩) ++ p.next.map (fun t => ⟨p, t.1, t.2, p.round + 1⟩)

/-- The samples that a Rill's order still holds, in that order (R131). -/
def RillSt.order (r : RillSt) : List Wanted := r.parts.flatMap Part.wanted

/-- Whether a fetch is for a sample. -/
def Fetch.isFor (f : Fetch) (rill : Nat) (w : Wanted) : Bool :=
  f.rill == rill && f.slot == w.part.slot && f.step == w.part.step && f.slice == w.part.slice && f.dev == w.part.dev
  && f.offset == w.offset && f.g == w.g && f.attempt == w.attempt

def State.fetchOf (s : State) (rill : Nat) (w : Wanted) : Option Fetch := s.sluice.fetches.find? (fun f => f.isFor rill w)

/-- Whether a sample is one to fetch: of a STORED part, with an entry to fetch, and not yet fetched. -/
def State.toFetch (s : State) (r : Nat) (w : Wanted) : Bool :=
  !w.part.live && (s.catEntry w.part.plan w.g).fetchable && (s.fetchOf r w).isNone

/-- A Rill's next sample to fetch, and whether it is the Rill's head (R136): a replacement comes before what lies ahead, for it is
fetched in the cycle after its rejection (R130). (DEDUCED, assumption 103.) -/
def State.nextFetch (s : State) (r : Nat) : Option (Wanted × Bool) :=
  let l := (s.rill r).order.zipIdx.filter (fun e => s.toFetch r e.1)
  match l.find? (fun e => e.2 == 0) with
  | some e => some (e.1, true)
  | none => ((l.find? (fun e => decide (0 < e.1.attempt))).or l.head?).map (fun e => (e.1, false))

/-- A Rill's fetched samples that it has not been given, their number and their bytes. -/
def State.aheadCount (s : State) (r : Nat) : Nat := s.sluice.fetches.countP (fun f => f.rill == r)
def State.aheadBytes (s : State) (r : Nat) : Nat :=
  ((s.sluice.fetches.filter (fun f => f.rill == r)).map (fun f => f.entry.length)).sum

/-- Whether the limits of R135 and the thresholds of R137 let a fetch be issued; a replacement is not held to the limits (R130).
(DEDUCED, assumption 103.) A CODEC 0x0C sample counts with its stored LENGTH. (DESIGN CHOICE, assumption 122.) -/
def State.mayFetch (s : State) (r : Nat) (c : CatEntry) (head again : Bool) : Bool :=
  let maxN := max 1 (s.get SLU_AHEAD.SAMPLES)
  let maxB := max 1 (s.get SLU_AHEAD.MIB) * 2 ^ 20
  let n := s.aheadCount r
  let large := decide (maxB < c.length)
  let room := if large then head && n == 0 else decide (n + 1 ≤ maxN) && decide (s.aheadBytes r + c.length ≤ maxB)
  let pool := (placeFor c.length).1
  (room || again) && (head || !(s.reached BSN_POOL_THR.BP pool || s.reached BSN_POOL_THR.RSV_ONLY pool))

/-- The fetch that comes first (R136): a head sample, that of the lowest Rill among several, whose order the spec does not give
(DESIGN CHOICE, assumption 121); a replacement; else that of the Rill with the fewest fetched ahead, ties going to the lower Rill. -/
def State.pickFetch (s : State) : Option (Nat × Wanted) :=
  let all := (List.range 16).filterMap (fun r =>
    match s.nextFetch r with
    | some (w, head) =>
      if (s.rill r).mode != .dead && s.mayFetch r (s.catEntry w.part.plan w.g) head (decide (0 < w.attempt)) then some (r, w, head)
      else none
    | none => none)
  let least := all.foldl (fun m e => min m (s.aheadCount e.1)) (2 ^ 32)
  let pick := ((all.find? (fun e => e.2.2)).or (all.find? (fun e => decide (0 < e.2.1.attempt)))).or
    (all.find? (fun e => s.aheadCount e.1 == least))
  pick.map (fun e => (e.1, e.2.1))

/-- The release tag of a sample (R133). -/
def tagOf (p : Part) (o g cls user codec : Nat) : Tag :=
  ⟨p.slot, p.step, p.slice, o, p.dev, g, p.round, cls, user, codec⟩

/-- A sample as it is released: `reason` 0, or 1 or 2 for a void one (R109, R163). -/
def itemOf (t : Tag) (reason : Nat) (bytes desc : List Byte) (bufs : List (Nat × Nat)) : Item :=
  ⟨t, reason, bytesTensor bytes, bytes.length, false, 0, 0, desc, none, bufs, 0⟩

/-- Whether a slot's plan in effect takes a LIVE sample of a source bit (R118, R200): one of its steps before its end (R123).
A plan that its slot's pending plan will cut short takes none of a step that it will not run. (DESIGN CHOICE, assumption 122.) -/
def State.takesLive (s : State) (k bit : Nat) : Bool :=
  match (s.slot k).plan with
  | some (p, _) =>
    s.slotState k == 1 && p.live && bitOf p.source bit && decide ((s.slot k).accepted < p.stepCount * p.b)
    && (s.stepEnd k).any (fun n => decide (p.firstStep + (s.slot k).accepted / max 1 p.b < n))
  | none => false

/-- Whether a slot's pending plan will take samples of a source bit. -/
def State.awaitsLive (s : State) (k bit : Nat) : Bool :=
  match (s.slot k).pending with
  | some i => (planOf i).live && bitOf (planOf i).source bit
  | none => false

/-- The index and the step of the next sample a LIVE plan accepts (R118). -/
def State.nextLive (s : State) (k : Nat) : Nat × Nat :=
  match (s.slot k).plan with
  | some (p, _) => (p.n + (s.slot k).accepted, p.firstStep + (s.slot k).accepted / max 1 p.b)
  | none => (0, 0)

/-- The first step of the plan that is to follow in a slot, pending or implicit (R123, R124). -/
def State.nextFirst (s : State) (k : Nat) : Option Nat :=
  match (s.slot k).pending with
  | some i => some (planOf i).firstStep
  | none => if s.slotState k = 1 then ((s.slot k).plan.bind (fun e => e.1.successor)).map (·.firstStep) else none

/-- Whether a record of a step may be written (R57): no WEAVE_ACT or PLAN_ARM record of that step is still to come from the arms made
so far. (DESIGN CHOICE, assumption 121.) -/
def State.stepOpen (s : State) (step : Nat) : Bool :=
  !s.recording
  || (!s.cascade.act.armed.any (fun a => a.2 == step) && (s.cascade.act.phase.rests || s.cascade.act.step != step)
      && (List.range 4).all (fun k => s.nextFirst k != some step))

/-- Whether a record of a LIVE sample of a step stands in Mirror's log: an arm for that step would be recorded behind it. -/
def State.liveRecorded (s : State) (step : Nat) : Bool :=
  s.recording && (List.range 4).any (fun k =>
    match (s.slot k).plan with
    | some (p, _) =>
      p.live && decide (0 < (s.slot k).accepted) && decide (p.firstStep ≤ step)
      && decide (step ≤ p.firstStep + ((s.slot k).accepted - 1) / max 1 p.b)
    | none => false)

/-- A LIVE plan accepts a sample. -/
def State.acceptLive (s : State) (k : Nat) (x : LiveSample) : State :=
  s.modSlot k (fun y => { y with accepted := y.accepted + 1, live := y.live ++ [x] })

/-- Whether a step lies before an activation that has begun or failed, while its Rills still run: a part of it that has faulted runs
again (R97, R401). -/
def ActSt.draining (a : ActSt) (step : Nat) : Bool := (a.phase == .drain || a.phase == .holding) && decide (step < a.step)

/-- Whether a listed part may begin, or begin again after a fault (R401): an active weave has the Rill, and no armed boundary stands
before its step (R123, R125, R97). The part of a plan whose last step has been released runs like any other. -/
def State.mayBegin (s : State) (r : Nat) (p : Part) : Bool :=
  (s.cascade.act.phase.rests || s.cascade.act.draining p.step) && (s.weave?.any (fun w => bitOf w.rillMask r))
  && (match s.cascade.act.armed with
      | some (_, n) => decide (p.step < n)
      | none => true)

/-- The first release of an activation's step ends the activation (R90, R97). -/
def State.firstRelease (s : State) (step : Nat) : State :=
  if s.cascade.act.phase = .release ∧ s.cascade.act.step ≤ step then
    let s := { s with cascade := { s.cascade with act := { s.cascade.act with phase := .idle } } }
    ((s.put CSC_ACT_STATUS.ACTIVATING 0).ev CSC_EVENT.ACT_DONE).bump CSC_ACT_COUNT.COUNT 1
  else s

/-- A slot has begun to release a step (R97, R121, R141). SLU_STEP shows the step of the slot's latest release, whichever Rill it was to.
(DESIGN CHOICE, assumption 122.) -/
def State.begin (s : State) (k step : Nat) : State :=
  let s := s.modSlot k (fun x => { x with begun := some (max step (x.begun.getD 0)) })
  (s.putPair .SLU_STEP_LO .SLU_STEP_HI k step).firstRelease step

/-- The DTYPE of a watch unit: reserved codes act as UINT8 (R448). -/
def watchDtype (d : Nat) : Nat := if dtypeBytes d = 0 then 1 else d

/-- The watch units take their configuration for a Rill's next batch (R439). -/
def State.armWatch (s : State) (r : Nat) : State :=
  let unit := fun (e : WatchSt × Nat) =>
    if s.geti DBG_W_CFG.RILL e.2 = r then
      ⟨s.isoni DBG_W_CFG.EN e.2, r, s.geti DBG_W_CFG.STAGE e.2, watchDtype (s.geti DBG_W_CFG.DTYPE e.2), [], []⟩
    else if e.1.rill = r then { e.1 with on := false } else e.1
  { s with dbg := { s.dbg with watch := s.dbg.watch.zipIdx.map unit } }

/-- Whether a Keeper stage of a Rill is bound to a core in debug halt (R436). -/
def State.coreHalted (s : State) (r : Nat) : Bool :=
  s.svc.stageCore.any (fun e => e.1 == r && bitOf (s.get DBG_BRK_STATUS.HALTED) e.2.2)

/-- A Rill that runs, has no part and has a free output buffer (R24) takes its next part, at the first entry of its
schedule. An empty part, of which there is no sample to release, counts as released when it is taken. (DESIGN CHOICE, assumption 122.) -/
def State.takePart (s : State) (r : Nat) : State :=
  let x := s.rill r
  match x.part, x.queue with
  | none, p :: rest =>
    if x.mode = .running ∧ x.freeBufs ≠ [] ∧ s.mayBegin r p ∧ s.still = false ∧ s.coreHalted r = false then
      let s := s.setRill r { x with
        part := some p, queue := rest, pc := 0, cycle := 0, holding := false, arrived := []
        rejected := [], history := [], timing := []
        stages := x.stages.map (fun g => { g with input := [], run := none, endCycle := 0 }) }
      let s := s.armWatch r
      if p.samples.isEmpty then s.begin p.slot p.step else s
    else s
  | _, _ => s

/-- Lists ahead, lets the Rills take their parts, and ends what has ended. -/
def State.refill (s : State) : State := (s.listAhead.each 16 (fun r s => s.takePart r)).endPlans

end Sys2Proof.Machine
end

