-- ==== Sys2Proof/Machine/BitSrc.lean ====
section
/-! DEFINITION. A reader of a sample's bytes, bit by bit, that knows what it has read and what it has produced when it stops (R222, R231,
R504). -/
namespace Sys2Proof.Machine

/-- What a reader holds: the bytes not yet read, of the first of which `bit` bits are used; the bytes of which a bit has been read; the
output, newest first, its length, and the most that there may be. -/
structure Src where
  bytes : List Byte
  bit : Nat
  read : Nat
  out : List Byte
  made : Nat
  room : Nat
  deriving DecidableEq, Repr

def Src.of (bs : List Byte) (room : Nat) : Src := ⟨bs, 0, 0, [], 0, room⟩

/-- A reading: it ends with a value or with a fault, and both times with the reader as it stands. -/
abbrev Rd (α : Type) := ExceptT StreamFault (StateM Src) α

/-- A reading from a reader. -/
def Rd.from {α : Type} (m : Rd α) (s : Src) : Except StreamFault α × Src := StateT.run (ExceptT.run m) s

/-- The reading goes on where a condition holds. -/
def rdNeed (ok : Bool) (f : StreamFault) : Rd Unit := if ok then pure () else throw f

/-- The next bit, from the low end of a byte or from its high end. -/
def rdBit (high : Bool) : Rd Nat := do
  let s ← get
  match s.bytes with
  | [] => throw .truncated
  | b :: bs =>
    let t := if s.bit = 0 then { s with read := s.read + 1 } else s
    set (if s.bit = 7 then { t with bytes := bs, bit := 0 } else { t with bit := s.bit + 1 })
    pure (b.toNat / 2 ^ (if high then 7 - s.bit else s.bit) % 2)

def rdLow : Rd Nat := rdBit false
def rdHigh : Rd Nat := rdBit true

/-- The next `n` bits, of which the first is the lowest. -/
def rdBitsL : Nat → Rd Nat
  | 0 => pure 0
  | n + 1 => do
    let b ← rdLow
    let r ← rdBitsL n
    pure (b + 2 * r)

/-- The next `n` bits, of which the first is the highest, below those of `acc`. -/
def rdBitsH (acc : Nat) : Nat → Rd Nat
  | 0 => pure acc
  | n + 1 => do
    let b ← rdHigh
    rdBitsH (2 * acc + b) n

/-- The reading goes on at the next byte. -/
def rdAlign : Rd Unit := modify (fun s => if s.bit = 0 then s else { s with bytes := s.bytes.drop 1, bit := 0 })

/-- The next whole byte; the reader stands at one. -/
def rdByte : Rd Byte := do
  let s ← get
  match s.bytes with
  | [] => throw .truncated
  | b :: bs => do
    set { s with bytes := bs, read := s.read + 1 }
    pure b

/-- The next `n` bytes. -/
def rdBytes : Nat → Rd (List Byte)
  | 0 => pure []
  | n + 1 => do
    let b ← rdByte
    let l ← rdBytes n
    pure (b :: l)

/-- The next `n` bytes as a number, least or most significant byte first. -/
def rdLe (n : Nat) : Rd Nat := do pure (leNat (← rdBytes n))
def rdBe (n : Nat) : Rd Nat := do pure (leNat (← rdBytes n).reverse)

/-- The bytes up to the next zero byte, which is read too; `fuel` bounds them. -/
def rdString : Nat → Rd Unit
  | 0 => throw .truncated
  | n + 1 => do
    let b ← rdByte
    if b = 0#8 then pure () else rdString n

/-- A frame's magic number of four bytes, least significant first: one of `ms`, which the bytes read so far narrow down. -/
def rdMagic : List Nat → Nat → Rd Nat
  | ms, 0 => pure (ms.headD 0)
  | ms, n + 1 => do
    let b ← rdByte
    let ms := ms.filter (fun m => m / 256 ^ (3 - n) % 256 == b.toNat)
    rdNeed (!ms.isEmpty) .badSyntax
    rdMagic ms n

/-- One byte of output; beyond the room it is a LIMIT fault (R222, R231). -/
def rdPut (b : Byte) : Rd Unit := do
  let s ← get
  rdNeed (decide (s.made < s.room)) .limit
  set { s with out := b :: s.out, made := s.made + 1 }

def rdPutAll : List Byte → Rd Unit
  | [] => pure ()
  | b :: l => do
    rdPut b
    rdPutAll l

/-- `n` bytes of output, each a copy of the one `dist` bytes before it. -/
def rdCopy (dist : Nat) : Nat → Rd Unit
  | 0 => pure ()
  | n + 1 => do
    rdPut ((← get).out.getD (dist - 1) 0#8)
    rdCopy dist n

/-- The output since it had a length. -/
def rdSince (base : Nat) : Rd (List Byte) := do
  let s ← get
  pure (s.out.take (s.made - base)).reverse

/-- Whether all input has been read. -/
def rdEnd : Rd Bool := do pure (← get).bytes.isEmpty

/-- Every bit of the input, and one more: no loop that reads a bit a round runs longer. -/
def rdFuel : Rd Nat := do pure (8 * (← get).bytes.length + 8)

/-! ### Canonical codes (RFC 1951, 3.2.2; ISO/IEC 10918-1, Annex C) -/

/-- A code whose words rise with their length, and within a length in the order of the symbols: how many words each length has, from 1 on,
and the symbols in the order of their words. -/
structure Huff where
  counts : List Nat
  symbols : List Nat
  deriving DecidableEq, Repr, Inhabited

/-- The code of symbols from 0 on by the lengths of their words, at most 15; 0 for none. -/
def huffOf (lens : List Nat) : Huff where
  counts := (List.range 15).map (fun n => lens.countP (fun l => l == n + 1))
  symbols := (List.range 15).flatMap (fun n => (lens.zipIdx.filter (fun e => e.1 == n + 1)).map (·.2))

/-- The words that a code leaves unused at its longest length; below 0 for lengths that no code has. -/
def Huff.spare (h : Huff) : Int := h.counts.foldl (fun (n : Int) (c : Nat) => 2 * n - c) 1

/-- The next symbol: `code` are the bits read, `first` the first word of their length, `index` its symbol's place. -/
def huffStep (bit : Rd Nat) (symbols : List Nat) : List Nat → Nat → Nat → Nat → Rd Nat
  | [], _, _, _ => throw .badSyntax
  | c :: cs, code, first, index => do
    let code := code + (← bit)
    if code < first + c then pure (symbols.getD (index + (code - first)) 0)
    else huffStep bit symbols cs (2 * code) (2 * (first + c)) (index + c)

def rdSymbol (bit : Rd Nat) (h : Huff) : Rd Nat := huffStep bit h.symbols h.counts 0 0 0

end Sys2Proof.Machine
end

