-- ==== Sys2Proof/Machine/AudioFile.lean ====
section
/-! DEFINITION. RIFF WAVE and FLAC files (R220, R230), as RFC 9639 gives FLAC. (PRESUMED, assumption 127.) -/
namespace Sys2Proof.Machine

/-- A number of `n` bits as a signed one. -/
def signedOf (n v : Nat) : Int := if v < 2 ^ (n - 1) then v else (v : Int) - 2 ^ n

/-! ### WAVE -/

/-- Four bytes of a name. -/
def rdName (s : String) : Rd Unit := do
  let l ← rdBytes 4
  rdNeed (l == s.toList.map (fun c => byteOf c.toNat)) .badSyntax

/-- The format of a `fmt` chunk: of WAVE_FORMAT_EXTENSIBLE the subformat, and its own tag where its GUID is none of a tag's. -/
def wavFormat (d : List Byte) : Option AudioClip :=
  let tag := leAt d 0 2
  let guid := [0x00, 0x00, 0x00, 0x00, 0x10, 0x00, 0x80, 0x00, 0x00, 0xAA, 0x00, 0x38, 0x9B, 0x71].map byteOf
  let sub := if (d.drop 26).take 14 = guid then leAt d 24 2 else tag
  let a : AudioClip := ⟨leAt d 2 2, leAt d 14 2, leAt d 4 4, if tag = 0xFFFE then sub else tag, false, 0, 0, [], []⟩
  if d.length < 16 ∨ (tag = 0xFFFE ∧ d.length < 40) ∨ a.channels = 0 ∨ a.bits = 0 ∨ leAt d 12 2 ≠ a.channels * ceilDiv a.bits 8 then none
  else some a

/-- The samples of a data chunk: integers of 8 bits are stored with an offset of 128, wider ones signed, floats by their bits. -/
def wavSamples (a : AudioClip) (d : List Byte) : List Int :=
  let k := ceilDiv a.bits 8
  (List.range (d.length / k)).map (fun i =>
    let v := leAt d (k * i) k
    if a.tag = 3 then (v : Int) else if k = 1 then (v : Int) - 128 else signedOf (8 * k) v)

/-- The chunks up to `fmt`, and from there up to the data chunk, whose length comes with it. A chunk of odd length is padded. -/
def wavChunks (want : Nat) : Nat → Rd Nat
  | 0 => throw .truncated
  | fuel + 1 => do
    let name ← rdLe 4
    let n ← rdLe 4
    if name = want then pure n
    else do
      let _ ← rdBytes (n + n % 2)
      wavChunks want fuel

def chunkFmt : Nat := 0x20746D66
def chunkData : Nat := 0x61746164

/-- The headers of a file: the form, the format, and the length of the data. -/
def rdWavHead : Rd AudioClip := do
  let riff ← rdLe 4
  rdNeed (riff == 0x46464952 || riff == 0x34364652) .badSyntax
  let _ ← rdLe 4
  rdName "WAVE"
  let n ← wavChunks chunkFmt (← rdFuel)
  let d ← rdBytes (n + n % 2)
  match wavFormat (d.take n) with
  | none => throw .badSyntax
  | some a => do
    let n ← wavChunks chunkData (← rdFuel)
    pure { a with rf64 := riff != 0x46464952, dataBytes := n, perChannel := n / (a.channels * ceilDiv a.bits 8) }

/-- What RIFF WAVE makes of a sample's bytes (R220). -/
def parseWav (bs : List Byte) : Parse AudioClip :=
  match Rd.from rdWavHead (Src.of bs 0) with
  | (.error f, _) => .early f
  | (.ok a, s) =>
    if s.bytes.length < a.dataBytes then .found a (some .truncated)
    else .found { a with samples := wavSamples a (s.bytes.take a.dataBytes) } none

/-! ### FLAC -/

/-- CRC-8 and CRC-16 of FLAC: polynomials 0x07 and 0x8005, the highest bit first, from 0. -/
def crcHigh (bits poly : Nat) (bs : List Byte) : Nat :=
  bs.foldl (fun c b =>
    (List.range 8).foldl (fun c _ => if 2 ^ (bits - 1) ≤ c then (2 * c % 2 ^ bits) ^^^ poly else 2 * c) (c ^^^ (b.toNat * 2 ^ (bits - 8)))) 0

/-- What STREAMINFO says: the clip without its samples, whose number may be unknown, 0. -/
structure FlacInfo where
  clip : AudioClip
  total : Nat
  deriving DecidableEq, Repr

/-- The further metadata blocks, which are skipped. -/
def flacSkip : Nat → Rd Unit
  | 0 => throw .truncated
  | fuel + 1 => do
    let b := (← rdByte).toNat
    rdNeed (b % 128 != 127 && b % 128 != 0) .badSyntax
    let n ← rdBe 3
    let _ ← rdBytes n
    if 128 ≤ b then pure () else flacSkip fuel

def rdFlacHead : Rd FlacInfo := do
  rdName "fLaC"
  let b := (← rdByte).toNat
  rdNeed (b % 128 == 0) .badSyntax
  rdNeed ((← rdBe 3) == 34) .badSyntax
  let _ ← rdBytes 10
  let w ← rdBe 8
  let _ ← rdBytes 16
  if b < 128 then flacSkip (← rdFuel)
  pure ⟨⟨w / 2 ^ 41 % 8 + 1, w / 2 ^ 36 % 32 + 1, w / 2 ^ 44, 0, false, 0, w % 2 ^ 36, [], []⟩, w % 2 ^ 36⟩

/-- The zero bits before the next one. -/
def rdUnary : Nat → Rd Nat
  | 0 => throw .badSyntax
  | fuel + 1 => do
    let b ← rdHigh
    if b = 1 then pure 0 else do pure (1 + (← rdUnary fuel))

def rdSigned (n : Nat) : Rd Int := do pure (signedOf n (← rdBitsH 0 n))

/-- A list of `n` readings. -/
def rdTimes {α : Type} (m : Rd α) : Nat → Rd (List α)
  | 0 => pure []
  | n + 1 => do
    let a ← m
    let l ← rdTimes m n
    pure (a :: l)

/-- A Rice-coded residual. -/
def rdRice (k : Nat) : Rd Int := do
  let q ← rdUnary (← rdFuel)
  let v ← rdBitsH q k
  pure (if v % 2 = 0 then (v / 2 : Nat) else -((v / 2 + 1 : Nat) : Int))

/-- The partitions of a residual, `w` bits to a parameter; the first holds `skip` values fewer. -/
def flacPartitions (w len : Nat) : Nat → Nat → Rd (List Int)
  | 0, _ => pure []
  | n + 1, skip => do
    let k ← rdBitsH 0 w
    let l ← if k + 1 = 2 ^ w then (do
        let raw ← rdBitsH 0 5
        rdTimes (if raw = 0 then pure 0 else rdSigned raw) (len - skip))
      else rdTimes (rdRice k) (len - skip)
    let r ← flacPartitions w len n 0
    pure (l ++ r)

/-- A residual of a subframe of `size` samples after `order` warm-up samples. -/
def flacResidual (size order : Nat) : Rd (List Int) := do
  let method ← rdBitsH 0 2
  rdNeed (decide (method < 2)) .badSyntax
  let p ← rdBitsH 0 4
  rdNeed (size % 2 ^ p == 0 && decide (order ≤ size / 2 ^ p)) .badSyntax
  flacPartitions (4 + method) (size / 2 ^ p) (2 ^ p) order

/-- Samples from a predictor and a residual; `acc` are the samples so far, newest first, as are the coefficients' samples. -/
def flacPredict (coefs : List Int) (shift : Nat) : List Int → List Int → List Int
  | acc, [] => acc.reverse
  | acc, r :: l => flacPredict coefs shift ((((coefs.zip acc).map (fun e => e.1 * e.2)).sum / 2 ^ shift + r) :: acc) l

/-- The coefficients of the fixed predictors. -/
def flacFixed : Nat → List Int
  | 0 => []
  | 1 => [1]
  | 2 => [2, -1]
  | 3 => [3, -3, 1]
  | _ => [4, -6, 4, -1]

/-- A predicted subframe of `order` warm-up samples. -/
def flacPredicted (size bps order : Nat) (coefs : Rd (List Int × Nat)) : Rd (List Int) := do
  rdNeed (decide (order ≤ size)) .badSyntax
  let warm ← rdTimes (rdSigned bps) order
  let (c, shift) ← coefs
  pure (flacPredict c shift warm.reverse (← flacResidual size order))

/-- The coefficients of a linear predictor. -/
def flacCoefs (order : Nat) : Rd (List Int × Nat) := do
  let prec := 1 + (← rdBitsH 0 4)
  rdNeed (prec != 16) .badSyntax
  let shift ← rdSigned 5
  rdNeed (decide (0 ≤ shift)) .badSyntax
  pure (← rdTimes (rdSigned prec) order, shift.toNat)

/-- A subframe of `size` samples of `bps` bits. -/
def flacSubframe (size bps : Nat) : Rd (List Int) := do
  rdNeed ((← rdHigh) == 0) .badSyntax
  let type ← rdBitsH 0 6
  let wasted ← if (← rdHigh) = 1 then (do pure (1 + (← rdUnary (← rdFuel)))) else pure 0
  rdNeed (decide (wasted < bps)) .badSyntax
  let b := bps - wasted
  let l ←
    if type = 0 then (do pure (List.replicate size (← rdSigned b)))
    else if type = 1 then rdTimes (rdSigned b) size
    else if 8 ≤ type ∧ type ≤ 12 then flacPredicted size b (type - 8) (pure (flacFixed (type - 8), 0))
    else if 32 ≤ type then flacPredicted size b (type - 31) (flacCoefs (type - 31))
    else throw .badSyntax
  pure (l.map (· * 2 ^ wasted))

/-- The coded number of a frame, whose value nothing here uses. -/
def flacNumber : Rd Unit := do
  let b := (← rdByte).toNat
  let ones := (List.range 8).takeWhile (fun i => bitOf b (7 - i))
  rdNeed (ones.length != 1 && ones.length != 8) .badSyntax
  (List.range (ones.length - 1)).forM (fun _ => do rdNeed ((← rdByte).toNat / 64 == 2) .badSyntax)

/-- The channels of a frame, from those that it codes: left and side, side and right, or mid and side. -/
def flacChannels (assign : Nat) (l : List (List Int)) : List (List Int) :=
  let a := l.getD 0 []
  let b := l.getD 1 []
  match assign with
  | 8 => [a, (a.zip b).map (fun e => e.1 - e.2)]
  | 9 => [(a.zip b).map (fun e => e.1 + e.2), b]
  | 10 =>
    let m := fun (e : Int × Int) => 2 * e.1 + e.2 % 2
    [(a.zip b).map (fun e => (m e + e.2) / 2), (a.zip b).map (fun e => (m e - e.2) / 2)]
  | _ => l

/-- The samples of the channels, interleaved. -/
def interleave (size : Nat) (l : List (List Int)) : List Int := (List.range size).flatMap (fun i => l.map (fun c => c.getD i 0))

/-- The subframes of a frame: a side channel has a bit more. -/
def flacSubframes (assign size bps : Nat) : Rd (List (List Int)) :=
  let n := if assign < 8 then assign + 1 else 2
  let side := fun i => (assign == 8 && i == 1) || (assign == 9 && i == 0) || (assign == 10 && i == 1)
  (List.range n).mapM (fun i => flacSubframe size (if side i then bps + 1 else bps))

/-- The size of a frame by its code. -/
def flacSize (code : Nat) : Rd Nat :=
  if code = 0 then throw .badSyntax
  else if code = 1 then pure 192
  else if code < 6 then pure (144 * 2 ^ code)
  else if code < 8 then (do pure (1 + (← rdBe (code - 5))))
  else pure (2 ^ code)

/-- A frame: its samples per channel, the samples, and whether its CRC-16 is right. A frame of other channels or bits than STREAMINFO's is
not accepted. -/
def rdFlacFrame (i : FlacInfo) : Rd (Nat × List Int × Bool) := do
  let start ← get
  let sync ← rdBe 2
  rdNeed (sync / 2 == 0x7FFC) .badSyntax
  let a := (← rdByte).toNat
  let b := (← rdByte).toNat
  rdNeed (b % 2 == 0 && decide (b / 16 < 11) && b / 2 % 8 != 3 && a % 16 != 15) .badSyntax
  flacNumber
  let size ← flacSize (a / 16)
  let _ ← rdBytes ([1, 2, 2].getD (a % 16 - 12) 0 * (if a % 16 < 12 then 0 else 1))
  let head := start.bytes.take ((← get).read - start.read)
  rdNeed ((← rdByte).toNat == crcHigh 8 0x07 head) .badSyntax
  let bps := [i.clip.bits, 8, 12, 0, 16, 20, 24, 32].getD (b / 2 % 8) 0
  rdNeed (bps == i.clip.bits && (if b / 16 < 8 then b / 16 + 1 else 2) == i.clip.channels) .unsupported
  let l ← flacSubframes (b / 16) size bps
  rdAlign
  let all := start.bytes.take ((← get).read - start.read)
  let crc ← rdBe 2
  pure (size, interleave size (flacChannels (b / 16) l), crc == crcHigh 16 0x8005 all)

/-- The frames from one that begins at sample `at'` on: as many as the stream's total asks for, or to the end of the input where it has
none. What ends the reading is the stream's fault. -/
def flacFrameList (i : FlacInfo) : Nat → Nat → Src → List AudioFrame × List Int × Nat × Option StreamFault
  | 0, at', _ => ([], [], at', some .truncated)
  | fuel + 1, at', s =>
    if (i.total ≠ 0 ∧ i.total ≤ at') ∨ (i.total = 0 ∧ s.bytes = []) then ([], [], at', none)
    else
      match Rd.from (rdFlacFrame i) s with
      | (.error f, _) => ([], [], at', some f)
      | (.ok (n, l, good), s) =>
        let (fs, more, t, stop) := flacFrameList i fuel (at' + n) s
        (⟨at', n, if good then none else some .checksum⟩ :: fs, l ++ more, t, stop)

/-- What FLAC makes of a sample's bytes (R220). -/
def parseFlac (bs : List Byte) : Parse AudioClip :=
  match Rd.from rdFlacHead (Src.of bs 0) with
  | (.error f, _) => .early f
  | (.ok i, s) =>
    let (fs, l, t, stop) := flacFrameList i (bs.length + 1) 0 s
    .found { i.clip with frames := fs, samples := l, perChannel := if i.total = 0 then t else i.total } stop

/-- What FLAC (CODEC 5) or RIFF WAVE (CODEC 6) makes of a sample's bytes (R220). -/
def parseAudio (codec : Nat) (bs : List Byte) : Parse AudioClip := if codec = 5 then parseFlac bs else parseWav bs

end Sys2Proof.Machine
end

