-- ==== Sys2Proof/Machine/JpegFile.lean ====
section
/-! DEFINITION. JPEG streams with Huffman coding (R220), as ISO/IEC 10918-1 gives them: markers, tables, and the coefficients of sequential and
progressive scans. (PRESUMED, assumption 127.) -/
namespace Sys2Proof.Machine

/-- The place in natural order of each coefficient of the zigzag order. -/
def jpegZigzag : List Nat :=
  [0, 1, 8, 16, 9, 2, 3, 10, 17, 24, 32, 25, 18, 11, 4, 5, 12, 19, 26, 33, 40, 48, 41, 34, 27, 20, 13, 6, 7, 14, 21, 28]
  ++ [35, 42, 49, 56, 57, 50, 43, 36, 29, 22, 15, 23, 30, 37, 44, 51, 58, 59, 52, 45, 38, 31, 39, 46, 53, 60, 61, 54, 47, 55, 62, 63]

/-- A list of 64 in zigzag order, in natural order. -/
def natural {α : Type} (zero : α) (l : List α) : List α := (List.range 64).map (fun i => l.getD (jpegZigzag.idxOf i) zero)

/-- The number in `k` bytes at an offset, the most significant first; bytes past the end count as zero. -/
def beNum (l : List Byte) (ofs k : Nat) : Nat := leNat (fitBytes k (l.drop ofs)).reverse

/-- The first entry of a list under a number. -/
def assocFind {α : Type} (k : Nat) (l : List (Nat × α)) : Option α := (l.find? (fun e => e.1 == k)).map (·.2)

/-! ### Entropy-coded segments -/

/-- An entropy-coded segment up to its marker: its bytes without stuffing, the number of bytes it takes, and the bytes from the marker on.
Fill bytes before a marker belong to neither. -/
def segmentOf : List Byte → List Byte × Nat × List Byte
  | [] => ([], 0, [])
  | [a] => if a = 0xFF#8 then ([], 0, []) else ([a], 1, [])
  | a :: b :: l =>
    if a = 0xFF#8 then
      if b = 0#8 then
        let (u, n, r) := segmentOf l
        (a :: u, n + 2, r)
      else if b = 0xFF#8 then segmentOf (b :: l)
      else ([], 0, a :: b :: l)
    else
      let (u, n, r) := segmentOf (b :: l)
      (a :: u, n + 1, r)

/-- A value of `t` bits, whose lower half stands for the negative ones. -/
def rdExtend (t : Nat) : Rd Int := do
  let v ← rdBitsH 0 t
  pure (if t ≠ 0 ∧ v < 2 ^ (t - 1) then (v : Int) - 2 ^ t + 1 else v)

/-- One component of a scan: its place in the frame and its tables. -/
structure ScanComp where
  place : Nat
  dc : Huff
  ac : Huff
  deriving DecidableEq, Repr, Inhabited

/-- A scan: its components, its band, its bit planes, and whether the frame is progressive. -/
structure Scan where
  comps : List ScanComp
  ss : Nat
  se : Nat
  ah : Nat
  al : Nat
  progressive : Bool
  deriving DecidableEq, Repr

/-- What a scan carries from block to block: each component's last DC value, by its place in the scan, the blocks whose band ends early
(EOBRUN), and the blocks of each component of the frame, in zigzag order. -/
structure ScanSt where
  dc : List Int
  eob : Nat
  coefs : List (List (List Int))
  deriving DecidableEq, Repr

/-- The AC coefficients from `k` through `se` of a block that is coded at once, or of a first pass over bit plane `al`; the blocks whose band
ends with this one are counted from it on. -/
def acFirst (h : Huff) (se al : Nat) (runs : Bool) : Nat → Nat → List Int → Rd (List Int × Nat)
  | 0, _, _ => throw .badSyntax
  | fuel + 1, k, l => do
    if se < k then pure (l, 0)
    else do
      let rs ← rdSymbol rdHigh h
      let (r, s) := (rs / 16, rs % 16)
      if s = 0 then
        if r = 15 then do
          rdNeed (decide (k + 15 ≤ se)) .badSyntax
          acFirst h se al runs fuel (k + 16) l
        else do
          rdNeed (runs || r == 0) .badSyntax
          pure (l, 2 ^ r + (← rdBitsH 0 r) - 1)
      else do
        rdNeed (decide (k + r ≤ se)) .badSyntax
        let v ← rdExtend s
        acFirst h se al runs fuel (k + r + 1) (l.set (k + r) (v * 2 ^ al))

/-- A coefficient that is not zero takes one more bit. -/
def refineOne (al : Nat) (c : Int) : Rd Int := do
  let b ← rdHigh
  pure (if b = 0 then c else if 0 < c then c + 2 ^ al else c - 2 ^ al)

/-- A band's coefficients up to the zero after `r` zeros, which is the first of what is left. -/
def refineRun (al : Nat) : List Int → Nat → Rd (List Int × List Int)
  | [], _ => pure ([], [])
  | c :: l, r => do
    if c = 0 then
      match r with
      | 0 => pure ([], c :: l)
      | r + 1 => do
        let (a, b) ← refineRun al l r
        pure (c :: a, b)
    else do
      let c ← refineOne al c
      let (a, b) ← refineRun al l r
      pure (c :: a, b)

/-- The rest of a band without new coefficients. -/
def refineRest (al : Nat) (l : List Int) : Rd (List Int) := l.mapM (fun c => if c = 0 then pure c else refineOne al c)

/-- A further pass over a band (G.1.2.3). -/
def acRefine (h : Huff) (al : Nat) : Nat → List Int → Rd (List Int × Nat)
  | 0, _ => throw .badSyntax
  | _, [] => pure ([], 0)
  | fuel + 1, l => do
    let rs ← rdSymbol rdHigh h
    let (r, s) := (rs / 16, rs % 16)
    rdNeed (decide (s < 2)) .badSyntax
    if s = 0 ∧ r ≠ 15 then do
      let n := 2 ^ r + (← rdBitsH 0 r) - 1
      pure (← refineRest al l, n)
    else do
      let v : Int ← if s = 0 then pure 0 else do pure (if (← rdHigh) = 1 then 2 ^ al else -2 ^ al)
      let (a, b) ← refineRun al l r
      match b with
      | [] => throw .badSyntax
      | _ :: b => do
        let (c, n) ← acRefine h al fuel b
        pure (a ++ v :: c, n)

/-- The DC coefficient of a block, and the component's last DC value after it. -/
def dcBlock (sc : Scan) (c : ScanComp) (pred : Int) (l : List Int) : Rd (List Int × Int) := do
  if sc.ah = 0 then do
    let t ← rdSymbol rdHigh c.dc
    rdNeed (decide (t ≤ 15)) .badSyntax
    let v := pred + (← rdExtend t)
    pure (l.set 0 (v * 2 ^ sc.al), v)
  else do
    let b ← rdHigh
    pure (if b = 1 then l.set 0 (l.getD 0 0 + 2 ^ sc.al) else l, pred)

/-- The AC coefficients of a block's band, and EOBRUN after it. -/
def acBlock (sc : Scan) (c : ScanComp) (eob : Nat) (l : List Int) : Rd (List Int × Nat) := do
  let lo := max 1 sc.ss
  if sc.ah = 0 then
    if eob ≠ 0 then pure (l, eob - 1) else acFirst c.ac sc.se sc.al sc.progressive 65 lo l
  else do
    let band := (l.drop lo).take (sc.se + 1 - lo)
    let (m, n) ← if eob ≠ 0 then (do pure (← refineRest sc.al band, eob - 1)) else acRefine c.ac sc.al 65 band
    pure (l.take lo ++ m ++ l.drop (sc.se + 1), n)

/-- A block of the `i`-th component of a scan, number `n` of that component. -/
def scanBlock (sc : Scan) (s : ScanSt) (i n : Nat) : Rd ScanSt := do
  let c := sc.comps.getD i default
  let l := (s.coefs.getD c.place []).getD n (List.replicate 64 0)
  let (l, v) ← if sc.ss = 0 then dcBlock sc c (s.dc.getD i 0) l else pure (l, s.dc.getD i 0)
  let (l, e) ← if sc.se = 0 then pure (l, s.eob) else acBlock sc c s.eob l
  pure ⟨s.dc.set i v, e, s.coefs.set c.place ((s.coefs.getD c.place []).set n l)⟩

/-- The blocks of a restart interval, one after another; what is left of the last byte is padding. -/
def scanInterval (sc : Scan) (blocks : List (Nat × Nat)) (s : ScanSt) : Rd ScanSt := do
  let s ← blocks.foldlM (fun s e => scanBlock sc s e.1 e.2) s
  rdAlign
  rdNeed (← rdEnd) .badSyntax
  pure s

/-- A list in pieces of `n`, or whole where `n` is 0. -/
def jpegPieces {α : Type} (n : Nat) : Nat → List α → List (List α)
  | 0, _ => []
  | _, [] => []
  | fuel + 1, l => if n = 0 then [l] else l.take n :: jpegPieces n fuel (l.drop n)

/-- The restart intervals of a scan, each a list of blocks; restart marker `m` modulo 8 comes before the next. The coefficients, the bytes of entropy-coded
data read, the bytes left, and the fault at which the reading broke. -/
def scanIntervals (sc : Scan) : List (List (Nat × Nat)) → Nat → List (List (List Int)) → List Byte →
    List (List (List Int)) × Nat × List Byte × Option StreamFault
  | [], _, coefs, bs => (coefs, 0, bs, none)
  | p :: more, m, coefs, bs =>
    let (u, n, rest) := segmentOf bs
    match (Rd.from (scanInterval sc p ⟨List.replicate sc.comps.length 0, 0, coefs⟩) (Src.of u 0)).1 with
    | .error .truncated => (coefs, n, rest, some (if rest = [] then .truncated else .badSyntax))
    | .error f => (coefs, n, rest, some f)
    | .ok s =>
      match more, rest with
      | [], _ => (s.coefs, n, rest, none)
      | _, [] => (s.coefs, n, rest, some .truncated)
      | _, _ :: code :: left =>
        if code.toNat = 0xD0 + m % 8 then
          let (c, k, r, f) := scanIntervals sc more (m + 1) s.coefs left
          (c, n + k, r, f)
        else (s.coefs, n, rest, some .badSyntax)
      | _, _ => (s.coefs, n, rest, some .badSyntax)

/-! ### Frames -/

/-- What a stream has set up so far: the quantisation tables in natural order, the DC and AC codes, the restart interval, what APP markers say, the
frame with the identifiers of its components and the tables they have taken, and whether a DHP marker has come. -/
structure JpegSt where
  quants : List (Nat × List Nat)
  dcs : List (Nat × Huff)
  acs : List (Nat × Huff)
  interval : Nat
  adobe : Option Nat
  orientation : Nat
  pic : Option JpegPic
  ids : List (Nat × Nat)
  deriving DecidableEq, Repr

def JpegSt.fresh : JpegSt := ⟨[], [], [], 0, none, 1, none, []⟩

/-- Greatest sampling factors of a picture. -/
def JpegPic.hMax (p : JpegPic) : Nat := (p.comps.map (·.h)).foldl max 1
def JpegPic.vMax (p : JpegPic) : Nat := (p.comps.map (·.v)).foldl max 1

/-- MCUs across and down where the scan holds several components. -/
def JpegPic.mcusW (p : JpegPic) : Nat := ceilDiv p.width (8 * p.hMax)
def JpegPic.mcusH (p : JpegPic) : Nat := ceilDiv p.height (8 * p.vMax)

/-- The MCUs of a scan: for each its blocks, as the place of the component in the scan and the number of the block. A scan of one component
takes its blocks one by one, as many as cover its samples. -/
def JpegPic.mcus (p : JpegPic) (places : List Nat) : List (List (Nat × Nat)) :=
  match places with
  | [c] =>
    let x := p.comps.getD c default
    let w := ceilDiv (ceilDiv (p.width * x.h) p.hMax) 8
    let h := ceilDiv (ceilDiv (p.height * x.v) p.vMax) 8
    (List.range h).flatMap (fun j => (List.range w).map (fun i => [(0, j * x.blocksW + i)]))
  | _ =>
    (List.range p.mcusH).flatMap (fun my => (List.range p.mcusW).map (fun mx =>
      places.zipIdx.flatMap (fun e =>
        let x := p.comps.getD e.1 default
        (List.range x.v).flatMap (fun j => (List.range x.h).map (fun i =>
          (e.2, (my * x.v + j) * x.blocksW + mx * x.h + i))))))

/-- A frame header: SOF number `sof`. The blocks of a component fill whole MCUs, and begin as zeros. -/
def jpegFrame (sof : Nat) (hier : Bool) (d : List Byte) : Option (JpegPic × List (Nat × Nat)) :=
  let n := beNum d 5 1
  let one := fun i =>
    let b := beNum d (6 + 3 * i + 1) 1
    ((beNum d (6 + 3 * i) 1, beNum d (6 + 3 * i + 2) 1), (b / 16, b % 16))
  let cs := (List.range n).map one
  let p : JpegPic := ⟨beNum d 3 2, beNum d 1 2, beNum d 0 1, sof, hier, 0, 0, false, 1, cs.map (fun c => ⟨c.2.1, c.2.2, [], 0, []⟩)⟩
  if d.length ≠ 6 + 3 * n ∨ n = 0 ∨ p.width = 0 ∨ cs.any (fun c => c.2.1 == 0 || c.2.2 == 0) ∨ (sof = 0 ∧ p.precision ≠ 8) then none
  else some (p, cs.map (·.1))

/-- A frame whose height is known, with its blocks. -/
def JpegPic.blank (p : JpegPic) : JpegPic :=
  { p with comps := p.comps.map (fun c => { c with
      blocksW := p.mcusW * c.h, blocks := List.replicate (p.mcusW * c.h * p.mcusH * c.v) (List.replicate 64 0) }) }

/-- The tables of a DQT segment. -/
def quantTables : Nat → List Byte → Option (List (Nat × List Nat))
  | 0, _ => none
  | _, [] => some []
  | fuel + 1, b :: l =>
    let k := if b.toNat / 16 = 0 then 1 else 2
    if 1 < b.toNat / 16 ∨ 3 < b.toNat % 16 ∨ l.length < 64 * k then none
    else (quantTables fuel (l.drop (64 * k))).map (((b.toNat % 16, natural 0 ((List.range 64).map (fun i => beNum l (k * i) k)))) :: ·)

/-- The codes of a DHT segment: whether for DC, the number, the code. -/
def huffDefs : Nat → List Byte → Option (List (Bool × Nat × Huff))
  | 0, _ => none
  | _, [] => some []
  | fuel + 1, b :: l =>
    let counts := (l.take 16).map (·.toNat)
    let h : Huff := ⟨counts, ((l.drop 16).take counts.sum).map (·.toNat)⟩
    if 1 < b.toNat / 16 ∨ 3 < b.toNat % 16 ∨ l.length < 16 + counts.sum ∨ h.spare < 0 then none
    else (huffDefs fuel (l.drop (16 + counts.sum))).map ((b.toNat / 16 == 0, b.toNat % 16, h) :: ·)

/-- The Orientation that an EXIF segment gives: tag 0x0112 of its first directory. -/
def exifOrientation (d : List Byte) : Option Nat :=
  let t := d.drop 6
  let num := fun o k => if t.headD 0#8 = 0x49#8 then leAt t o k else beNum t o k
  if d.take 6 ≠ [0x45#8, 0x78#8, 0x69#8, 0x66#8, 0#8, 0#8] then none
  else
    let ifd := num 4 4
    ((List.range (num ifd 2)).find? (fun i => num (ifd + 2 + 12 * i) 2 == 0x0112)).map (fun i => num (ifd + 2 + 12 * i + 8) 2)

/-- The transform that an Adobe segment gives. -/
def adobeTransform (d : List Byte) : Option Nat :=
  if d.take 5 = [0x41#8, 0x64#8, 0x6F#8, 0x62#8, 0x65#8] ∧ 12 ≤ d.length then some (beNum d 11 1) else none

/-- A segment of tables or of an application; none where it breaks the syntax. -/
def JpegSt.segment (s : JpegSt) (code : Nat) (d : List Byte) : Option JpegSt :=
  if code = 0xDB then (quantTables (d.length + 1) d).map (fun l => { s with quants := l.reverse ++ s.quants })
  else if code = 0xC4 then
    (huffDefs (d.length + 1) d).map (fun l => { s with
      dcs := ((l.filter (·.1)).map (·.2)).reverse ++ s.dcs, acs := ((l.filter (!·.1)).map (·.2)).reverse ++ s.acs })
  else if code = 0xDD then (if d.length = 2 then some { s with interval := beNum d 0 2 } else none)
  else if code = 0xE1 then some { s with orientation := (exifOrientation d).getD s.orientation }
  else if code = 0xEE then some { s with adobe := (adobeTransform d).or s.adobe }
  else some s

/-- The scan that a scan header asks for; none where it breaks the syntax. -/
def JpegSt.scanOf (s : JpegSt) (p : JpegPic) (d : List Byte) : Option Scan :=
  let n := beNum d 0 1
  let (ss, se, a) := (beNum d (1 + 2 * n) 1, beNum d (2 + 2 * n) 1, beNum d (3 + 2 * n) 1)
  let (ah, al) := (a / 16, a % 16)
  let prog := p.sof == 2
  let comp : Nat → Option ScanComp := fun i => do
    let place ← s.ids.findIdx? (fun e => e.1 == beNum d (1 + 2 * i) 1)
    let t := beNum d (2 + 2 * i) 1
    let dc ← if ss = 0 ∧ ah = 0 then assocFind (t / 16) s.dcs else some default
    let ac ← if se = 0 then some default else assocFind (t % 16) s.acs
    pure ⟨place, dc, ac⟩
  if d.length ≠ 4 + 2 * n ∨ n = 0 ∨ 4 < n then none
  else if prog = false ∧ (ss ≠ 0 ∨ se ≠ 63 ∨ a ≠ 0) then none
  else if prog ∧ (63 < se ∨ se < ss ∨ (ss = 0 ∧ se ≠ 0) ∨ (ss ≠ 0 ∧ n ≠ 1) ∨ 13 < al ∨ (ah ≠ 0 ∧ ah ≠ al + 1)) then none
  else
    match (List.range n).mapM comp with
    | none => none
    | some cs =>
      if (cs.map (·.place)).Nodup ∧ (n = 1 ∨ (cs.map (fun c => let x := p.comps.getD c.place default; x.h * x.v)).sum ≤ 10) then
        some ⟨cs, ss, se, ah, al, prog⟩
      else none

/-- Each component of a scan takes the quantisation table that stands when its first scan begins; none where there is none. -/
def JpegSt.takeQuants (s : JpegSt) (p : JpegPic) (places : List Nat) : Option JpegPic :=
  if places.all (fun i => (p.comps.getD i default).quant != [] || (assocFind ((s.ids.getD i default).2) s.quants).isSome) then
    some { p with comps := p.comps.zipIdx.map (fun e =>
      if e.2 ∈ places ∧ e.1.quant = [] then { e.1 with quant := (assocFind ((s.ids.getD e.2 default).2) s.quants).getD [] } else e.1) }
  else none

/-- The number of lines of a DNL segment that follows a scan's data, which restart markers may divide; 0 for none. -/
def dnlLines : List Byte → Nat
  | a :: b :: l =>
    if a = 0xFF#8 ∧ b = 0xDC#8 then beNum l 2 2
    else if a = 0xFF#8 ∧ b ≠ 0#8 ∧ b ≠ 0xFF#8 ∧ ¬(0xD0 ≤ b.toNat ∧ b.toNat ≤ 0xD7) then 0
    else dnlLines (b :: l)
  | _ => 0

/-- The same from a frame header on: the segments up to the first scan header are passed. -/
def dnlAfter : Nat → List Byte → Nat
  | fuel + 1, a :: b :: l =>
    if a ≠ 0xFF#8 then 0
    else if b = 0xFF#8 then dnlAfter fuel (b :: l)
    else if b = 0xDA#8 then dnlLines (l.drop (beNum l 0 2))
    else dnlAfter fuel (l.drop (max 2 (beNum l 0 2)))
  | _, _ => 0

/-- The picture at the end of a stream, its blocks in natural order. -/
def JpegSt.whole (s : JpegSt) (p : JpegPic) : JpegPic :=
  { p with
    adobeRgb := s.adobe == some 0
    orientation := s.orientation
    comps := p.comps.map (fun c => { c with blocks := c.blocks.map (natural 0) }) }

/-- What is left of a stream: its markers, segments and scans up to EOI (Annex B). `fuel` bounds the markers. -/
def jpegMarkers : Nat → JpegSt → List Byte → Parse JpegPic
  | 0, _, _ => .early .badSyntax
  | fuel + 1, s, bs =>
    let stop := fun (f : StreamFault) => match s.pic with | some p => Parse.found p (some f) | none => Parse.early f
    match bs with
    | [] => stop .truncated
    | [a] => stop (if a = 0xFF#8 then .truncated else .badSyntax)
    | a :: b :: l =>
      let code := b.toNat
      let n := beNum l 0 2
      let d := (l.take n).drop 2
      let rest := l.drop n
      if a ≠ 0xFF#8 then stop .badSyntax
      else if code = 0xFF then jpegMarkers fuel s (b :: l)
      else if code = 0xD9 then
        match s.pic with
        | some p => if p.comps.all (·.quant != []) then .found (s.whole p) none else .found p (some .badSyntax)
        | none => .early .badSyntax
      else if code = 0x01 then jpegMarkers fuel s l
      else if code < 0xC0 ∨ (0xD0 ≤ code ∧ code ≤ 0xD8) then stop .badSyntax
      else if l.length < 2 ∨ (2 ≤ n ∧ l.length < n) then stop .truncated
      else if n < 2 then stop .badSyntax
      else if code = 0xDE then
        match jpegFrame 5 true d with
        | some (p, _) => .found p none
        | none => stop .badSyntax
      else if code = 0xCC ∨ code = 0xC8 then stop .unsupported
      else if code < 0xD0 ∧ code ≠ 0xC4 then
        match s.pic, jpegFrame (code - 0xC0) false d with
        | none, some (p, ids) =>
          if 2 < p.sof then .found p none
          else
            let p := if p.height = 0 then { p with height := dnlAfter fuel rest } else p
            if p.height = 0 then .early .badSyntax
            else if p.comps.all (fun c => decide (c.h ≤ 2) && decide (c.v ≤ 2)) then jpegMarkers fuel { s with pic := some p.blank, ids := ids } rest
            else .found p none
        | _, _ => stop .badSyntax
      else if code = 0xDA then
        match s.pic with
        | none => stop .badSyntax
        | some p =>
          match s.scanOf p d with
          | none => stop .badSyntax
          | some sc =>
            match s.takeQuants p (sc.comps.map (·.place)) with
            | none => stop .badSyntax
            | some p =>
              let units := p.mcus (sc.comps.map (·.place))
              let parts := (jpegPieces s.interval (units.length + 1) units).map List.flatten
              let (coefs, e, rest, f) := scanIntervals sc parts 0 (p.comps.map (·.blocks)) rest
              let p := { p with
                scans := p.scans + 1, entropyBytes := p.entropyBytes + e
                comps := (p.comps.zip coefs).map (fun x => { x.1 with blocks := x.2 }) }
              match f with
              | some f => .found p (some f)
              | none => jpegMarkers fuel { s with pic := some p } rest
      else
        match s.segment code d with
        | some s => jpegMarkers fuel s rest
        | none => stop .badSyntax

/-- What ISO/IEC 10918-1 makes of a sample's bytes (R220); what follows EOI is not looked at. -/
def parseJpeg (bs : List Byte) : Parse JpegPic :=
  match bs with
  | [] | [_] => .early .truncated
  | a :: b :: l => if a = 0xFF#8 ∧ b = 0xD8#8 then jpegMarkers (bs.length + 1) .fresh l else .early .badSyntax

end Sys2Proof.Machine
end

