-- ==== Sys2Proof/Machine/Deflate.lean ====
section
/-! DEFINITION. DEFLATE, zlib and gzip (R220, R504), as RFC 1951, RFC 1950 and RFC 1952 give them. (PRESUMED, assumption 127.) -/
namespace Sys2Proof.Machine

/-! ### Checksums -/

/-- Adler-32 (RFC 1950). -/
def adler32 (bs : List Byte) : Nat :=
  let (a, b) := bs.foldl (fun (e : Nat × Nat) x => let a := (e.1 + x.toNat) % 65521; (a, (e.2 + a) % 65521)) (1, 0)
  b * 65536 + a

/-- One bit, and one byte, of the reflected CRC-32 of RFC 1952 and ISO/IEC 15948. -/
def crc32Bit (c : Word) : Word := if c.getLsbD 0 then (c >>> 1) ^^^ 0xEDB88320#32 else c >>> 1
def crc32Byte (c : Word) (b : Byte) : Word := (List.range 8).foldl (fun c _ => crc32Bit c) (c ^^^ b.setWidth 32)
def crc32 (bs : List Byte) : Nat := ((bs.foldl crc32Byte 0xFFFFFFFF#32) ^^^ 0xFFFFFFFF#32).toNat

/-! ### DEFLATE -/

/-- Base and extra bits of a length symbol, counted from 257. -/
def lengthCode (s : Nat) : Nat × Nat :=
  if s < 8 then (3 + s, 0) else if s = 28 then (258, 0) else (3 + (4 + s % 4) * 2 ^ ((s - 4) / 4), (s - 4) / 4)

/-- Base and extra bits of a distance symbol. -/
def distanceCode (d : Nat) : Nat × Nat :=
  if d < 4 then (1 + d, 0) else (1 + (2 + d % 2) * 2 ^ ((d - 2) / 2), (d - 2) / 2)

/-- The symbols of a block up to its end, in a stream whose output began at `base` and reaches back at most `window` bytes. -/
def inflateSymbols (lit dist : Huff) (base window : Nat) : Nat → Rd Unit
  | 0 => throw .truncated
  | fuel + 1 => do
    let s ← rdSymbol rdLow lit
    if s < 256 then do
      rdPut (byteOf s)
      inflateSymbols lit dist base window fuel
    else if s = 256 then pure ()
    else do
      rdNeed (decide (s < 286)) .badSyntax
      let len := (lengthCode (s - 257)).1 + (← rdBitsL (lengthCode (s - 257)).2)
      let d ← rdSymbol rdLow dist
      rdNeed (decide (d < 30)) .badSyntax
      let back := (distanceCode d).1 + (← rdBitsL (distanceCode d).2)
      rdNeed (decide (back ≤ min window ((← get).made - base))) .badSyntax
      rdCopy back len
      inflateSymbols lit dist base window fuel

/-- The code lengths of a dynamic block, newest first, until there are `want`. -/
def codeLengths (h : Huff) (want : Nat) : Nat → List Nat → Rd (List Nat)
  | 0, _ => throw .badSyntax
  | fuel + 1, acc => do
    if acc.length = want then pure acc.reverse
    else do
      let s ← rdSymbol rdLow h
      if s < 16 then codeLengths h want fuel (s :: acc)
      else do
        rdNeed (!(s == 16 && acc.isEmpty)) .badSyntax
        let n ← if s = 18 then do pure (11 + (← rdBitsL 7)) else do pure (3 + (← rdBitsL (if s = 16 then 2 else 3)))
        rdNeed (decide (acc.length + n ≤ want)) .badSyntax
        codeLengths h want fuel (List.replicate n (if s = 16 then acc.headD 0 else 0) ++ acc)

/-- Whether a set of code lengths is a code: complete, or with one word of one bit at most. -/
def Huff.usable (h : Huff) : Bool := h.spare == 0 || (decide (0 < h.spare) && (h.counts.drop 1).sum == 0)

/-- The two codes of a dynamic block. -/
def dynamicCodes : Rd (Huff × Huff) := do
  let nl := 257 + (← rdBitsL 5)
  let nd := 1 + (← rdBitsL 5)
  let nc := 4 + (← rdBitsL 4)
  rdNeed (decide (nl ≤ 286)) .badSyntax
  let order := [16, 17, 18, 0, 8, 7, 9, 6, 10, 5, 11, 4, 12, 3, 13, 2, 14, 1, 15]
  let short ← (order.take nc).foldlM (fun l i => do let n ← rdBitsL 3; pure (l.set i n)) (List.replicate 19 0)
  let h := huffOf short
  rdNeed (h.spare == 0) .badSyntax
  let lens ← codeLengths h (nl + nd) (nl + nd + 1) []
  let lit := huffOf (lens.take nl)
  let dist := huffOf (lens.drop nl)
  rdNeed (lens.getD 256 0 != 0 && lit.usable && dist.usable) .badSyntax
  pure (lit, dist)

def fixedCodes : Huff × Huff :=
  (huffOf (List.replicate 144 8 ++ List.replicate 112 9 ++ List.replicate 24 7 ++ List.replicate 8 8), huffOf (List.replicate 32 5))

/-- The blocks of a stream, through the final one. -/
def inflateBlocks (base window : Nat) : Nat → Rd Unit
  | 0 => throw .truncated
  | fuel + 1 => do
    let last ← rdLow
    let type ← rdBitsL 2
    match type with
    | 0 => do
      rdAlign
      let len ← rdLe 2
      let nlen ← rdLe 2
      rdNeed (len + nlen == 65535) .badSyntax
      (List.range len).forM (fun _ => do rdPut (← rdByte))
    | 1 => inflateSymbols fixedCodes.1 fixedCodes.2 base window (← rdFuel)
    | 2 => do
      let (lit, dist) ← dynamicCodes
      inflateSymbols lit dist base window (← rdFuel)
    | _ => throw .badSyntax
    if last = 1 then rdAlign else inflateBlocks base window fuel

/-- A DEFLATE stream, through the padding of its last byte; its output. -/
def rdDeflate (window : Nat) : Rd (List Byte) := do
  let base := (← get).made
  inflateBlocks base window (← rdFuel)
  rdSince base

/-! ### zlib and gzip -/

/-- A zlib stream (RFC 1950): a preset dictionary is not accepted, and Adler-32 is checked (R220). -/
def rdZlib : Rd Unit := do
  let cmf := (← rdByte).toNat
  rdNeed (cmf % 16 == 8 && decide (cmf / 16 ≤ 7)) .badSyntax
  let flg := (← rdByte).toNat
  rdNeed ((cmf * 256 + flg) % 31 == 0) .badSyntax
  rdNeed (!bitOf flg 5) .unsupported
  let out ← rdDeflate (2 ^ (cmf / 16 + 8))
  let sum ← rdBe 4
  rdNeed (sum == adler32 out) .checksum

/-- A gzip member's header (RFC 1952); its CRC is checked where it has one (R220). -/
def gzipHeader : Rd Unit := do
  let start ← get
  rdNeed ((← rdByte) == 0x1F#8) .badSyntax
  rdNeed ((← rdByte) == 0x8B#8) .badSyntax
  rdNeed ((← rdByte) == 8#8) .badSyntax
  let flg := (← rdByte).toNat
  rdNeed (decide (flg < 32)) .badSyntax
  let _ ← rdBytes 6
  if bitOf flg 2 then do
    let n ← rdLe 2
    let _ ← rdBytes n
  if bitOf flg 3 then rdString (← rdFuel)
  if bitOf flg 4 then rdString (← rdFuel)
  if bitOf flg 1 then do
    let all := crc32 (start.bytes.take ((← get).read - start.read))
    rdNeed ((← rdLe 2) == all % 65536) .checksum

/-- gzip members to the end of the input: CRC-32 and ISIZE are checked (R220, R504). -/
def rdGzip : Nat → Rd Unit
  | 0 => throw .truncated
  | fuel + 1 => do
    gzipHeader
    let out ← rdDeflate 32768
    let crc ← rdLe 4
    let size ← rdLe 4
    rdNeed (crc == crc32 out && size == out.length % 2 ^ 32) .checksum
    if ← rdEnd then pure () else rdGzip fuel

end Sys2Proof.Machine
end

