-- ==== Sys2Proof/Machine/PngFile.lean ====
section
/-! DEFINITION. PNG files (R220), as ISO/IEC 15948 gives them: chunks, filtered scanlines and samples. (PRESUMED, assumption 127.) -/
namespace Sys2Proof.Machine

/-- Bytes of a scanline without its filter byte, in a picture that is not interlaced. -/
def PngPic.rowBytes (p : PngPic) : Nat := ceilDiv (p.width * pngChannels p.colourType * p.depth) 8

/-- Bytes of filtered scanlines of a picture that is not interlaced: each row's filter byte and its packed samples. -/
def pngScanBytes (p : PngPic) : Nat := p.height * (1 + p.rowBytes)

/-- Whether a colour type may have a bit depth. -/
def pngDepthOk (colour depth : Nat) : Bool :=
  match colour with
  | 0 => depth == 1 || depth == 2 || depth == 4 || depth == 8 || depth == 16
  | 3 => depth == 1 || depth == 2 || depth == 4 || depth == 8
  | 2 | 4 | 6 => depth == 8 || depth == 16
  | _ => false

/-- A chunk: its type as a number and its data. A critical chunk's CRC must be right. -/
def rdChunk : Rd (Nat × List Byte) := do
  let n ← rdBe 4
  let type ← rdBytes 4
  let data ← rdBytes n
  let crc ← rdBe 4
  rdNeed (bitOf ((type.headD 0#8).toNat) 5 || crc == crc32 (type ++ data)) .badSyntax
  pure (leNat type.reverse, data)

def chunkIHDR : Nat := 0x49484452
def chunkPLTE : Nat := 0x504C5445
def chunkIDAT : Nat := 0x49444154
def chunkIEND : Nat := 0x49454E44
def chunkTRNS : Nat := 0x74524E53

/-- The most significant byte first, as PNG writes its numbers. -/
def beAt (l : List Byte) (ofs k : Nat) : Nat := leNat ((l.drop ofs).take k).reverse

/-- The signature and the header: a picture without samples yet. -/
def rdPngHead : Rd PngPic := do
  (([0x89, 0x50, 0x4E, 0x47, 0x0D, 0x0A, 0x1A, 0x0A] : List Nat)).forM (fun n => do rdNeed ((← rdByte) == byteOf n) .badSyntax)
  let (type, d) ← rdChunk
  rdNeed (type == chunkIHDR && d.length == 13) .badSyntax
  let p : PngPic := ⟨beAt d 0 4, beAt d 4 4, beAt d 8 1, beAt d 9 1, beAt d 12 1 == 1, [], [], 1, []⟩
  rdNeed (decide (0 < p.width) && decide (p.width < 2 ^ 31) && decide (0 < p.height) && decide (p.height < 2 ^ 31)) .badSyntax
  rdNeed (pngDepthOk p.colourType p.depth && beAt d 10 2 == 0 && decide (beAt d 12 1 ≤ 1)) .badSyntax
  pure p

/-- The entries of PLTE. -/
def paletteOf : List Byte → List (Nat × Nat × Nat)
  | r :: g :: b :: l => (r.toNat, g.toNat, b.toNat) :: paletteOf l
  | _ => []

/-- What tRNS says, by the colour type: an alpha for each palette entry, or the one transparent grey or colour. -/
def trnsOf (p : PngPic) (d : List Byte) : Option (List Nat) :=
  match p.colourType with
  | 0 => if d.length = 2 then some [beAt d 0 2 % 2 ^ p.depth] else none
  | 2 => if d.length = 6 then some ((List.range 3).map (fun i => beAt d (2 * i) 2 % 2 ^ p.depth)) else none
  | 3 => if d.length ≤ p.palette.length ∧ d ≠ [] then some (d.map (·.toNat)) else none
  | _ => none

/-- The chunks after the header through IEND: the picture with its palette and transparency, and the data of its IDAT chunks, which stand
together; `data` is what came so far, and `done` says that another chunk has followed it. Other ancillary chunks are skipped (R220), and an
unknown critical chunk is not accepted. -/
def rdChunks : Nat → PngPic → List Byte → Bool → Rd (PngPic × List Byte)
  | 0, _, _, _ => throw .truncated
  | fuel + 1, p, data, done => do
    let (type, d) ← rdChunk
    let begun := !data.isEmpty
    if type = chunkIEND then do
      rdNeed (d.isEmpty && begun && (← rdEnd)) .badSyntax
      pure (p, data)
    else if type = chunkIDAT then do
      rdNeed (!(begun && done) && !(p.colourType == 3 && p.palette.isEmpty)) .badSyntax
      rdChunks fuel p (data ++ d) false
    else if type = chunkPLTE then do
      rdNeed (!begun && p.palette.isEmpty && p.trns.isEmpty && (p.colourType == 2 || p.colourType == 3 || p.colourType == 6)) .badSyntax
      rdNeed (d.length % 3 == 0 && !d.isEmpty && decide (d.length ≤ 768)
        && (p.colourType != 3 || decide (d.length / 3 ≤ 2 ^ p.depth))) .badSyntax
      rdChunks fuel { p with palette := paletteOf d } data true
    else if type = chunkTRNS then do
      rdNeed (!begun && p.trns.isEmpty) .badSyntax
      match trnsOf p d with
      | some l => rdChunks fuel { p with trns := l } data true
      | none => throw .badSyntax
    else if bitOf (type / 2 ^ 24) 5 then rdChunks fuel p data true
    else do
      rdNeed (type != chunkIHDR) .badSyntax
      throw .unsupported

/-- The Paeth predictor. -/
def paeth (a b c : Nat) : Nat :=
  let p : Int := (a : Int) + b - c
  let d := fun (x : Nat) => (p - x).natAbs
  if d a ≤ d b ∧ d a ≤ d c then a else if d b ≤ d c then b else c

/-- A scanline without its filter: `bpp` bytes a pixel, `prev` the scanline above. -/
def unfilter (type bpp : Nat) (prev row : List Nat) : List Nat :=
  (row.zipIdx.foldl (fun (acc : List Nat) e =>
    let a := if e.2 < bpp then 0 else acc.getD (bpp - 1) 0
    let b := prev.getD e.2 0
    let c := if e.2 < bpp then 0 else prev.getD (e.2 - bpp) 0
    let add := match type with
      | 1 => a
      | 2 => b
      | 3 => (a + b) / 2
      | 4 => paeth a b c
      | _ => 0
    (e.1 + add) % 256 :: acc) []).reverse

/-- The scanlines without their filters; none where a filter is none of the five. -/
def unfilterRows (bpp n : Nat) : Nat → List Nat → List Nat → Option (List (List Nat))
  | 0, _, _ => some []
  | _, _, [] => none
  | k + 1, prev, t :: l =>
    if 4 < t then none
    else
      let row := unfilter t bpp prev (l.take n)
      (unfilterRows bpp n k row (l.drop n)).map (row :: ·)

/-- The samples of a scanline, `n` of them. -/
def rowSamples (depth n : Nat) (row : List Nat) : List Nat :=
  (List.range n).map (fun i =>
    if depth = 16 then row.getD (2 * i) 0 * 256 + row.getD (2 * i + 1) 0
    else
      let k := 8 / depth
      row.getD (i / k) 0 / 2 ^ (depth * (k - 1 - i % k)) % 2 ^ depth)

/-- The picture with the samples of its data. Its zlib stream gives exactly the filtered scanlines, and fills its chunks. -/
def pngFill (p : PngPic) (data : List Byte) : Except StreamFault PngPic :=
  let (r, s) := Rd.from rdZlib (Src.of data (pngScanBytes p))
  match r with
  | .error .limit => .error .badSyntax
  | .error f => .error f
  | .ok _ =>
    if !s.bytes.isEmpty || s.made != pngScanBytes p then .error .badSyntax
    else
      let n := pngChannels p.colourType
      match unfilterRows (max 1 (n * p.depth / 8)) p.rowBytes p.height [] (s.out.reverse.map (·.toNat)) with
      | none => .error .badSyntax
      | some rows =>
        let samples := rows.flatMap (rowSamples p.depth (p.width * n))
        if p.colourType = 3 ∧ samples.any (fun x => decide (p.palette.length ≤ x)) then .error .badSyntax
        else .ok { p with samples := samples }

/-- What ISO/IEC 15948 makes of a sample's bytes (R220). -/
def parsePng (bs : List Byte) : Parse PngPic :=
  match Rd.from rdPngHead (Src.of bs 0) with
  | (.error f, _) => .early f
  | (.ok p, s) =>
    if p.interlaced then .found p none
    else
      match Rd.from (rdChunks (bs.length + 1) p [] false) s with
      | (.error f, _) => .found p (some f)
      | (.ok (q, data), _) =>
        match pngFill q data with
        | .ok q => .found q none
        | .error f => .found q (some f)

end Sys2Proof.Machine
end

