-- ==== Sys2Proof/Machine/XxHash.lean ====
section
/-! DEFINITION. xxHash, the checksum of Zstandard (64 bits, RFC 8878) and of LZ4 frames (32 bits), with seed 0. (PRESUMED, assumption 127.) -/
namespace Sys2Proof.Machine

/-- One width of xxHash: bits, bytes of a lane, its five primes, the four rotations of the lanes, and the two of a round. -/
structure XxForm where
  bits : Nat
  lane : Nat
  p1 : Nat
  p2 : Nat
  p3 : Nat
  p4 : Nat
  p5 : Nat
  step : Nat
  deriving DecidableEq, Repr

def xx32 : XxForm := ⟨32, 4, 2654435761, 2246822519, 3266489917, 668265263, 374761393, 13⟩
def xx64 : XxForm :=
  ⟨64, 8, 11400714785074694791, 14029467366897019727, 1609587929392839161, 9650029242287828579, 2870177450012600261, 31⟩

/-- A number cut to the width, and one rotated left in it. -/
def XxForm.cut (x : XxForm) (n : Nat) : Nat := n % 2 ^ x.bits
def XxForm.rot (x : XxForm) (n k : Nat) : Nat := x.cut (n * 2 ^ k) + n / 2 ^ (x.bits - k)

/-- A lane takes a word. -/
def XxForm.round (x : XxForm) (acc w : Nat) : Nat := x.cut (x.rot (x.cut (acc + x.cut (w * x.p2))) x.step * x.p1)

/-- The four lanes over the whole stripes of the data. -/
def XxForm.stripes (x : XxForm) (bs : List Byte) : List Nat :=
  (List.range (bs.length / (4 * x.lane))).foldl
    (fun accs i => accs.zipIdx.map (fun e => x.round e.1 (leAt bs (4 * x.lane * i + x.lane * e.2) x.lane)))
    [x.cut (x.p1 + x.p2), x.p2, 0, x.cut (2 ^ x.bits - x.p1)]

/-- The lanes become one number. -/
def XxForm.merge (x : XxForm) (accs : List Nat) : Nat :=
  let h := x.cut ((accs.zip [1, 7, 12, 18]).map (fun e => x.rot e.1 e.2)).sum
  if x.bits = 32 then h else accs.foldl (fun h a => x.cut ((h ^^^ x.round 0 a) * x.p1 + x.p4)) h

/-- One tail word of 8, 4 or 1 bytes goes in. -/
def XxForm.tail (x : XxForm) (h k w : Nat) : Nat :=
  if x.bits = 32 then
    if k = 4 then x.cut (x.rot (x.cut (h + w * x.p3)) 17 * x.p4) else x.cut (x.rot (x.cut (h + w * x.p5)) 11 * x.p1)
  else if k = 8 then x.cut (x.rot (h ^^^ x.round 0 w) 27 * x.p1 + x.p4)
  else if k = 4 then x.cut (x.rot (h ^^^ x.cut (w * x.p1)) 23 * x.p2 + x.p3)
  else x.cut (x.rot (h ^^^ x.cut (w * x.p5)) 11 * x.p1)

/-- The bytes after the last stripe, the widest words first. -/
def XxForm.tails (x : XxForm) (bs : List Byte) (h : Nat) : Nat :=
  let take := fun (k : Nat) (e : Nat × List Byte) =>
    (List.range (e.2.length / k)).foldl (fun (e : Nat × List Byte) _ => (x.tail e.1 k (leAt e.2 0 k), e.2.drop k)) e
  (take 1 (take 4 (if x.bits = 32 then (h, bs) else take 8 (h, bs)))).1

/-- The last mixing. -/
def XxForm.final (x : XxForm) (h : Nat) : Nat :=
  let (a, b, c) := if x.bits = 32 then (15, 13, 16) else (33, 29, 32)
  let h := x.cut ((h ^^^ (h / 2 ^ a)) * x.p2)
  let h := x.cut ((h ^^^ (h / 2 ^ b)) * x.p3)
  h ^^^ (h / 2 ^ c)

/-- xxHash of some bytes. -/
def XxForm.hash (x : XxForm) (bs : List Byte) : Nat :=
  let whole := 4 * x.lane
  let h := if bs.length < whole then x.p5 else x.merge (x.stripes bs)
  x.final (x.tails (bs.drop (bs.length / whole * whole)) (x.cut (h + bs.length)))

end Sys2Proof.Machine
end

