-- ==== Sys2Proof/Machine/Lz4.lean ====
section
/-! DEFINITION. The LZ4 frame format (R220, R504) and its blocks. (PRESUMED, assumption 127.) -/
namespace Sys2Proof.Machine

/-- A length of a block's token: 15 goes on in bytes, up to the first below 255. The length, and the bytes that follow; none where the
block ends in it. -/
def lz4More : List Byte → Nat → Option (Nat × List Byte)
  | [], _ => none
  | b :: l, n => if b = 255#8 then lz4More l (n + 255) else some (n + b.toNat, l)

def lz4Length (n : Nat) (l : List Byte) : Option (Nat × List Byte) := if n = 15 then lz4More l 15 else some (n, l)

/-- A value, or a break of the syntax. -/
def rdSome {α : Type} (x : Option α) : Rd α :=
  match x with
  | some a => pure a
  | none => throw .badSyntax

/-- The sequences of a compressed block, whose copies reach back to the output at `base`; a block ends after literals. -/
def lz4Sequences (base : Nat) : Nat → List Byte → Rd Unit
  | 0, _ => throw .badSyntax
  | _, [] => throw .badSyntax
  | fuel + 1, t :: l => do
    let (n, l) ← rdSome (lz4Length (t.toNat / 16) l)
    rdNeed (decide (n ≤ l.length)) .badSyntax
    rdPutAll (l.take n)
    match l.drop n with
    | [] => pure ()
    | a :: b :: l => do
      let back := a.toNat + 256 * b.toNat
      let (m, l) ← rdSome (lz4Length (t.toNat % 16) l)
      rdNeed (back != 0 && decide (back ≤ (← get).made - base)) .badSyntax
      rdCopy back (m + 4)
      lz4Sequences base fuel l
    | _ => throw .badSyntax

/-- The blocks of a frame through its end mark: the largest block, whether they are independent and have checksums, and where the frame's
output began. -/
def lz4Blocks (largest : Nat) (alone sums : Bool) (base : Nat) : Nat → Rd Unit
  | 0 => throw .truncated
  | fuel + 1 => do
    let word ← rdLe 4
    if word = 0 then pure ()
    else do
      let n := word % 2 ^ 31
      rdNeed (decide (n ≤ largest)) .badSyntax
      let data ← rdBytes n
      let from' := (← get).made
      if sums then do
        let sum ← rdLe 4
        rdNeed (sum == xx32.hash data) .checksum
      if bitOf word 31 then rdPutAll data else lz4Sequences (if alone then from' else base) (data.length + 1) data
      rdNeed (decide ((← get).made - from' ≤ largest)) .badSyntax
      lz4Blocks largest alone sums base fuel

/-- A frame after its magic number: dictionaries are not accepted, and the checksums of blocks and content are checked (R220). -/
def lz4Frame : Rd Unit := do
  let start ← get
  let flg := (← rdByte).toNat
  rdNeed (flg / 64 == 1 && !bitOf flg 1) .badSyntax
  rdNeed (!bitOf flg 0) .unsupported
  let bd := (← rdByte).toNat
  rdNeed (bd % 16 == 0 && decide (64 ≤ bd) && decide (bd < 128)) .badSyntax
  let size ← if bitOf flg 3 then (do pure (some (← rdLe 8))) else pure none
  let hc := xx32.hash (start.bytes.take ((← get).read - start.read))
  rdNeed ((← rdByte) == byteOf (hc / 256)) .badSyntax
  let base := (← get).made
  lz4Blocks (2 ^ (2 * (bd / 16) + 8)) (bitOf flg 5) (bitOf flg 4) base (← rdFuel)
  let out ← rdSince base
  rdNeed (size == none || size == some out.length) .badSyntax
  if bitOf flg 2 then do
    let sum ← rdLe 4
    rdNeed (sum == xx32.hash out) .checksum

/-- A skippable frame after its magic number, of LZ4 and of Zstandard. -/
def skipFrame : Rd Unit := do
  let n ← rdLe 4
  let _ ← rdBytes n

/-- The magic numbers of skippable frames. -/
def skipMagics : List Nat := (List.range 16).map (0x184D2A50 + ·)

/-- LZ4 frames to the end of the input; legacy frames are not accepted (R220, R504). -/
def rdLz4 : Nat → Rd Unit
  | 0 => throw .truncated
  | fuel + 1 => do
    let magic ← rdMagic (0x184D2204 :: 0x184C2102 :: skipMagics) 4
    rdNeed (magic != 0x184C2102) .unsupported
    if magic = 0x184D2204 then lz4Frame else skipFrame
    if ← rdEnd then pure () else rdLz4 fuel

end Sys2Proof.Machine
end

