-- ==== Sys2Proof/Machine/Zstd.lean ====
section
/-! DEFINITION. Zstandard (R220, R504), as RFC 8878 gives it. A compressed block is read whole before it is decoded.
(PRESUMED, assumption 127.) -/
namespace Sys2Proof.Machine

/-! ### Bit streams that are read backward -/

/-- The bits of a stream from its end, without the final set bit that marks it. -/
def backBits (l : List Byte) : Option (List Bool) :=
  if l.getLastD 0#8 = 0#8 then none
  else some (((l.reverse.flatMap (fun b => (List.range 8).map (fun i => b.getLsbD (7 - i)))).dropWhile (!·)).drop 1)

/-- A number of bits, the first the highest. -/
def bitsValue (l : List Bool) : Nat := l.foldl (fun n b => 2 * n + b.toNat) 0

/-- The next `n` bits of a stream. -/
def takeBits (n : Nat) (l : List Bool) : Option (Nat × List Bool) :=
  if l.length < n then none else some (bitsValue (l.take n), l.drop n)

/-! ### Finite state entropy codes (RFC 8878, 4.1) -/

/-- A state of an FSE code: its symbol, and what the next state is made of. -/
structure FseCell where
  sym : Nat
  bits : Nat
  base : Nat
  deriving DecidableEq, Repr, Inhabited

/-- An FSE code: its accuracy log and its states. -/
structure Fse where
  log : Nat
  cells : List FseCell
  deriving DecidableEq, Repr, Inhabited

/-- The symbol of each state of a distribution over 2 ^ `log` states; -1 stands for less than one. -/
def fseSpread (log : Nat) (dist : List Int) : List Nat :=
  let size := 2 ^ log
  let rare := (dist.zipIdx.filter (fun e => e.1 == -1)).map (·.2)
  let most := dist.zipIdx.flatMap (fun e => List.replicate e.1.toNat e.2)
  let places := ((List.range size).map (fun j => j * (size / 2 + size / 8 + 3) % size)).filter (fun p => decide (p < size - rare.length))
  let at' := places.zip most
  (List.range size).map (fun i =>
    if i < size - rare.length then ((at'.find? (fun e => e.1 == i)).map (·.2)).getD 0 else rare.getD (size - 1 - i) 0)

/-- The states of a distribution: the n-th state of a symbol goes on from the symbol's count plus n. -/
def fseOf (log : Nat) (dist : List Int) : Fse :=
  let syms := fseSpread log dist
  let cell := fun (e : Nat × Nat) =>
    let next := (dist.getD e.1 0).natAbs + (syms.take e.2).countP (fun s => s == e.1)
    let bits := log - Nat.log2 next
    ⟨e.1, bits, next * 2 ^ bits - 2 ^ log⟩
  ⟨log, syms.zipIdx.map cell⟩

/-- A code of one symbol. -/
def fseOne (s : Nat) : Fse := ⟨0, [⟨s, 0, 0⟩]⟩

def Fse.cell (t : Fse) (state : Nat) : FseCell := t.cells.getD state ⟨0, 0, 0⟩

/-- The zero counts that follow a zero count, in twos of bits. -/
def fseZeros : Nat → Rd Nat
  | 0 => throw .badSyntax
  | fuel + 1 => do
    let n ← rdBitsL 2
    if n = 3 then do pure (3 + (← fseZeros fuel)) else pure n

/-- The counts of a distribution, newest first, while some of the states are left to give; at most `top` symbols. -/
def fseCounts (top : Nat) : Nat → Nat → List Int → Rd (List Int)
  | 0, _, _ => throw .badSyntax
  | fuel + 1, left, acc => do
    if left = 0 then pure acc.reverse
    else do
      rdNeed (decide (acc.length < top)) .badSyntax
      let bits := Nat.log2 (left + 1) + 1
      let edge := 2 ^ bits - 1 - (left + 1)
      let low ← rdBitsL (bits - 1)
      let v ← if low < edge then pure low
        else do
          let v := low + 2 ^ (bits - 1) * (← rdLow)
          pure (if v < 2 ^ (bits - 1) then v else v - edge)
      if v = 1 then do
        let n ← fseZeros fuel
        fseCounts top fuel left (List.replicate n 0 ++ 0 :: acc)
      else fseCounts top fuel (left - (if v = 0 then 1 else v - 1)) (((v : Int) - 1) :: acc)

/-- A distribution as it is written, through its last byte: an accuracy log of at most `most`, and at most `top` symbols. -/
def rdFse (most top : Nat) : Rd Fse := do
  let log := 5 + (← rdBitsL 4)
  rdNeed (decide (log ≤ most)) .badSyntax
  let dist ← fseCounts top (top + 2) (2 ^ log) []
  rdAlign
  rdNeed (decide (dist.length ≤ top)) .badSyntax
  pure (fseOf log dist)

/-! ### Literals (RFC 8878, 3.1.1.3.1 and 4.2) -/

/-- A Huffman code of literals: its longest word, and for each number of so many bits the symbol and the bits of its word. -/
structure LitCode where
  log : Nat
  cells : List (Nat × Nat)
  deriving DecidableEq, Repr, Inhabited

/-- The code by the weights of its symbols but the last, whose weight makes the sum a power of two. -/
def litCodeOf (weights : List Nat) : Option LitCode :=
  let sum := (weights.map (fun w => if w = 0 then 0 else 2 ^ (w - 1))).sum
  let log := Nat.log2 sum + 1
  let rest := 2 ^ log - sum
  if sum = 0 ∨ 11 < log ∨ 2 ^ Nat.log2 rest ≠ rest then none
  else
    let all := weights ++ [Nat.log2 rest + 1]
    some ⟨log, (List.range log).flatMap (fun k =>
      (all.zipIdx.filter (fun e => e.1 == k + 1)).flatMap (fun e => List.replicate (2 ^ k) (e.2, log - k)))⟩

/-- Weights from two FSE states that take turns: where the bits no longer reach for the one, the other gives the last weight. -/
def fseWeights (t : Fse) : Nat → Nat → Nat → List Bool → List Nat
  | 0, _, _, _ => []
  | fuel + 1, a, b, l =>
    match takeBits (t.cell a).bits l with
    | none => [(t.cell a).sym, (t.cell b).sym]
    | some (v, l) => (t.cell a).sym :: fseWeights t fuel b ((t.cell a).base + v) l

/-- The description of a Huffman code: weights of four bits, or by an FSE code. -/
def rdLitCode : Rd LitCode := do
  let h := (← rdByte).toNat
  if 128 ≤ h then do
    let l ← rdBytes ((h - 126) / 2)
    rdSome (litCodeOf ((l.flatMap (fun b => [b.toNat / 16, b.toNat % 16])).take (h - 127)))
  else do
    let start ← get
    let t ← rdFse 6 12
    let used := (← get).read - start.read
    rdNeed (decide (used ≤ h)) .badSyntax
    let l ← rdSome (backBits (← rdBytes (h - used)))
    let (a, l) ← rdSome (takeBits t.log l)
    let (b, l) ← rdSome (takeBits t.log l)
    let ws := fseWeights t 256 a b l
    rdNeed (decide (ws.length ≤ 255)) .badSyntax
    rdSome (litCodeOf ws)

/-- `n` literals of a stream, which they use up exactly. -/
def litStream (c : LitCode) : Nat → List Bool → Option (List Byte)
  | 0, l => if l = [] then some [] else none
  | n + 1, l =>
    let (s, k) := c.cells.getD (bitsValue ((l ++ List.replicate c.log false).take c.log)) (0, 0)
    if l.length < k then none else (litStream c n (l.drop k)).map (byteOf s :: ·)

/-- The literals of one or four streams; the four give a quarter each, rounded up, and the last the rest. -/
def litStreams (c : LitCode) (four : Bool) (n : Nat) (l : List Byte) : Option (List Byte) :=
  if !four then (backBits l).bind (litStream c n)
  else
    let q := (n + 3) / 4
    let l' := l.drop 6
    let (s1, s2, s3) := (leAt l 0 2, leAt l 2 2, leAt l 4 2)
    if l.length < 6 ∨ l'.length < s1 + s2 + s3 ∨ n < 3 * q then none
    else do
      let a ← (backBits (l'.take s1)).bind (litStream c q)
      let b ← (backBits ((l'.drop s1).take s2)).bind (litStream c q)
      let d ← (backBits ((l'.drop (s1 + s2)).take s3)).bind (litStream c q)
      let e ← (backBits (l'.drop (s1 + s2 + s3))).bind (litStream c (n - 3 * q))
      pure (a ++ b ++ d ++ e)

/-! ### Blocks -/

/-- What a frame carries from block to block: the codes in force, of literals, literal lengths, offsets and match lengths, and the three
repeated offsets. -/
structure ZstdSt where
  lit : Option LitCode
  ll : Option Fse
  off : Option Fse
  ml : Option Fse
  reps : Nat × Nat × Nat
  deriving DecidableEq, Repr

def ZstdSt.fresh : ZstdSt := ⟨none, none, none, none, (1, 4, 8)⟩

/-- The literals section of a block. -/
def rdLiterals (z : ZstdSt) (most : Nat) : Rd (List Byte × ZstdSt) := do
  let b := (← rdByte).toNat
  let form := b / 4 % 4
  if b % 4 < 2 then do
    let n ← if form % 2 = 0 then pure (b / 8) else do pure (b / 16 + 16 * (← rdLe (if form = 1 then 1 else 2)))
    rdNeed (decide (n ≤ most)) .badSyntax
    if b % 4 = 0 then do pure (← rdBytes n, z) else do pure (List.replicate n (← rdByte), z)
  else do
    let w := if form < 2 then 10 else if form = 2 then 14 else 18
    let h := b / 16 + 16 * (← rdLe (if form < 2 then 2 else if form = 2 then 3 else 4))
    let n := h % 2 ^ w
    rdNeed (decide (n ≤ most)) .badSyntax
    let start ← get
    let c ← if b % 4 = 2 then rdLitCode else rdSome z.lit
    let used := (← get).read - start.read
    rdNeed (decide (used ≤ h / 2 ^ w % 2 ^ w)) .badSyntax
    let data ← rdBytes (h / 2 ^ w % 2 ^ w - used)
    pure (← rdSome (litStreams c (form != 0) n data), { z with lit := some c })

/-- The predefined distributions. -/
def llDefault : Fse :=
  fseOf 6 [4, 3, 2, 2, 2, 2, 2, 2, 2, 2, 2, 2, 2, 1, 1, 1, 2, 2, 2, 2, 2, 2, 2, 2, 2, 3, 2, 1, 1, 1, 1, 1, -1, -1, -1, -1]
def offDefault : Fse := fseOf 5 [1, 1, 1, 1, 1, 1, 2, 2, 2, 1, 1, 1, 1, 1, 1, 1, 1, 1, 1, 1, 1, 1, 1, 1, -1, -1, -1, -1, -1]
def mlDefault : Fse :=
  fseOf 6 ([1, 4, 3, 2, 2, 2, 2, 2, 2] ++ List.replicate 37 1 ++ List.replicate 7 (-1))

/-- The code of one kind of number by its mode: predefined, of one symbol, as written, or the last one again. -/
def rdMode (mode most top : Nat) (dflt : Fse) (last : Option Fse) : Rd Fse :=
  match mode with
  | 0 => pure dflt
  | 1 => do
    let s := (← rdByte).toNat
    rdNeed (decide (s < top)) .badSyntax
    pure (fseOne s)
  | 2 => rdFse most top
  | _ => rdSome last

/-- Base and extra bits of a literal length and of a match length. -/
def llCode (s : Nat) : Nat × Nat :=
  if s < 16 then (s, 0)
  else ([(16, 1), (18, 1), (20, 1), (22, 1), (24, 2), (28, 2), (32, 3), (40, 3), (48, 4), (64, 6)].getD (s - 16) (2 ^ (s - 19), s - 19))
def mlCode (s : Nat) : Nat × Nat :=
  if s < 32 then (s + 3, 0)
  else ([(35, 1), (37, 1), (39, 1), (41, 1), (43, 2), (47, 2), (51, 3), (59, 3), (67, 4), (83, 4), (99, 5)].getD (s - 32)
    (2 ^ (s - 36) + 3, s - 36))

/-- The distance that an offset value stands for, and the repeated offsets after it; none where it is 0. -/
def repeatOffset (v ll : Nat) (r : Nat × Nat × Nat) : Option (Nat × Nat × Nat × Nat) :=
  let i := if ll = 0 then v + 1 else v
  if 3 < v then some (v - 3, v - 3, r.1, r.2.1)
  else if i = 1 then some (r.1, r)
  else if i = 2 then some (r.2.1, r.2.1, r.1, r.2.2)
  else if i = 3 then some (r.2.2, r.2.2, r.1, r.2.1)
  else if r.1 = 1 then none
  else some (r.1 - 1, r.1 - 1, r.1, r.2.1)

/-- The states of the three codes. -/
structure SeqSt where
  ll : Nat
  off : Nat
  ml : Nat
  deriving DecidableEq, Repr

/-- The sequences of a block: literals, then a copy from at most `window` bytes back in the frame's output, which began at `base`. What is
left are literals. -/
def zstdSequences (tl to' tm : Fse) (base window : Nat) : Nat → SeqSt → List Bool → List Byte → Nat × Nat × Nat → Rd (Nat × Nat × Nat)
  | 0, _, l, lits, r => do
    rdNeed l.isEmpty .badSyntax
    rdPutAll lits
    pure r
  | n + 1, s, l, lits, r => do
    let (x, y, w) := (tl.cell s.ll, to'.cell s.off, tm.cell s.ml)
    let (v, l) ← rdSome (takeBits y.sym l)
    let (m, l) ← rdSome (takeBits (mlCode w.sym).2 l)
    let (k, l) ← rdSome (takeBits (llCode x.sym).2 l)
    let k := (llCode x.sym).1 + k
    let (back, r) ← rdSome (repeatOffset (2 ^ y.sym + v) k r)
    rdNeed (decide (k ≤ lits.length)) .badSyntax
    rdPutAll (lits.take k)
    rdNeed (decide (back ≤ min window ((← get).made - base))) .badSyntax
    rdCopy back ((mlCode w.sym).1 + m)
    if n = 0 then zstdSequences tl to' tm base window 0 s l (lits.drop k) r
    else do
      let (a, l) ← rdSome (takeBits x.bits l)
      let (b, l) ← rdSome (takeBits w.bits l)
      let (c, l) ← rdSome (takeBits y.bits l)
      zstdSequences tl to' tm base window n ⟨x.base + a, y.base + c, w.base + b⟩ l (lits.drop k) r

/-- The number of sequences of a block. -/
def rdSeqCount : Rd Nat := do
  let b := (← rdByte).toNat
  if b < 128 then pure b
  else if b < 255 then do pure ((b - 128) * 256 + (← rdByte).toNat)
  else do pure ((← rdLe 2) + 0x7F00)

/-- A compressed block, of which `rest` gives the bytes that follow what has been read. -/
def zstdBlock (z : ZstdSt) (most base window : Nat) (rest : Rd (List Byte)) : Rd ZstdSt := do
  let (lits, z) ← rdLiterals z most
  let n ← rdSeqCount
  if n = 0 then do
    rdNeed (← rest).isEmpty .badSyntax
    rdPutAll lits
    pure z
  else do
    let m := (← rdByte).toNat
    rdNeed (m % 4 == 0) .badSyntax
    let tl ← rdMode (m / 64) 9 36 llDefault z.ll
    let to' ← rdMode (m / 16 % 4) 8 32 offDefault z.off
    let tm ← rdMode (m / 4 % 4) 9 53 mlDefault z.ml
    let l ← rdSome (backBits (← rest))
    let (a, l) ← rdSome (takeBits tl.log l)
    let (b, l) ← rdSome (takeBits to'.log l)
    let (c, l) ← rdSome (takeBits tm.log l)
    let r ← zstdSequences tl to' tm base window n ⟨a, b, c⟩ l lits z.reps
    pure { z with ll := some tl, off := some to', ml := some tm, reps := r }

/-- A block's content, decoded apart from the input; the output and its fault are the reader's. -/
def inBlock (data : List Byte) (m : Rd (List Byte) → Rd ZstdSt) : Rd ZstdSt := do
  let s ← get
  let (r, t) := Rd.from (m (do rdBytes (← get).bytes.length)) { s with bytes := data, bit := 0 }
  set { s with out := t.out, made := t.made }
  match r with
  | .ok z => pure z
  | .error .limit => throw .limit
  | .error _ => throw .badSyntax

/-- The blocks of a frame through the last; none brings more than `most` bytes. -/
def zstdBlocks (most base window : Nat) : Nat → ZstdSt → Rd Unit
  | 0, _ => throw .truncated
  | fuel + 1, z => do
    let h ← rdLe 3
    let n := h / 8
    rdNeed (decide (n ≤ most) && h / 2 % 4 != 3) .badSyntax
    let from' := (← get).made
    let z ← match h / 2 % 4 with
      | 0 => do
        rdPutAll (← rdBytes n)
        pure z
      | 1 => do
        rdPutAll (List.replicate n (← rdByte))
        pure z
      | _ => do inBlock (← rdBytes n) (zstdBlock z most base window)
    rdNeed (decide ((← get).made - from' ≤ most)) .badSyntax
    if h % 2 = 1 then pure () else zstdBlocks most base window fuel z

/-- A frame after its magic number: its window is at most 8 MiB, a dictionary is not accepted, and the content checksum is checked
(R220). -/
def zstdFrame : Rd Unit := do
  let d := (← rdByte).toNat
  let single := bitOf d 5
  rdNeed (!bitOf d 3) .badSyntax
  let wd ← if single then pure 0 else do pure (← rdByte).toNat
  let dict ← rdLe ([0, 1, 2, 4].getD (d % 4) 0)
  rdNeed (dict == 0) .unsupported
  let k := if d / 64 = 0 then (if single then 1 else 0) else 2 ^ (d / 64)
  let size := (← rdLe k) + (if k = 2 then 256 else 0)
  let window := if single then size else 2 ^ (10 + wd / 8) + 2 ^ (10 + wd / 8) / 8 * (wd % 8)
  rdNeed (decide (window ≤ 2 ^ 23)) .unsupported
  let base := (← get).made
  zstdBlocks (min window (2 ^ 17)) base window (← rdFuel) .fresh
  let out ← rdSince base
  rdNeed (k == 0 || size == out.length) .badSyntax
  if bitOf d 2 then do
    let sum ← rdLe 4
    rdNeed (sum == xx64.hash out % 2 ^ 32) .checksum

/-- Zstandard frames to the end of the input; skippable frames are skipped (R220, R504). -/
def rdZstd : Nat → Rd Unit
  | 0 => throw .truncated
  | fuel + 1 => do
    let magic ← rdMagic (0xFD2FB528 :: skipMagics) 4
    if magic = 0xFD2FB528 then zstdFrame else skipFrame
    if ← rdEnd then pure () else rdZstd fuel

end Sys2Proof.Machine
end

