-- ==== Sys2Proof/Machine/Decoders.lean ====
section
/-! DEFINITION. The decoding stages (R220 to R233): their configuration, their exact cycle counts, and what they
make of a sample's stream, parsed by the standard its CODEC names: the accepted subset, the limits, the content, and
the cycles up to a fault. -/
namespace Sys2Proof.Machine

/-- The STAGE_CONFIG body of a decoding stage (R233), read from the record with its 8-byte header. -/
structure DecCfg where
  accept : Nat
  outFmt : Nat
  outType : Nat
  orient : Bool
  triangle : Bool
  m601 : Bool
  startDraw : Bool
  frames : Nat
  stride : Nat
  maxPixels : Nat
  outMax : Nat
  budget : Nat
  window : Nat
  deriving DecidableEq, Repr

def decCfgOf (b : List Byte) : DecCfg where
  accept := leAt b 8 4
  outFmt := leAt b 12 1
  outType := leAt b 13 1
  orient := bitOf (leAt b 14 1) 0
  triangle := bitOf (leAt b 14 1) 1
  m601 := bitOf (leAt b 14 1) 2
  startDraw := bitOf (leAt b 14 1) 3
  frames := leAt b 15 1
  stride := leAt b 16 1
  maxPixels := leAt b 20 4
  outMax := leAt b 24 4
  budget := leAt b 28 4
  window := leAt b 32 4

/-- The ACCEPT bits each decoding engine TYPE allows (R233): 0 image, 1 video, 2 decompressor, 3 audio. -/
def acceptMask (type : Nat) : Nat :=
  if type = 0 then 2 else if type = 1 then 2 ^ 3 + 2 ^ 4
  else if type = 2 then 2 ^ 2 + 2 ^ 7 + 2 ^ 8 + 2 ^ 9 + 2 ^ 10 + 2 ^ 11
  else 2 ^ 5 + 2 ^ 6

/-- The largest picture of R220, in pixels, and the largest side lengths. -/
def maxPicture (type : Nat) : Nat := if type = 1 then 4096 * 2304 else 2 ^ 26
def sideBad (type w h : Nat) : Bool :=
  if type = 1 then decide (4096 < w) || decide (2304 < h) else decide (16384 < w) || decide (16384 < h)

/-- Whether a decoding stage's body breaks the ranges of R233. `kind` is 0 image, 1 video, 2 decompressor,
3 audio. -/
def decCfgBad (kind : Nat) (b : List Byte) : Bool :=
  let c := decCfgOf b
  let png := bitOf c.accept 2
  let pictures := kind == 0 || kind == 1 || (kind == 2 && png)
  b.length != 40 || c.accept == 0 || (c.accept ||| acceptMask kind) != acceptMask kind
  || decide (5 < c.outFmt)
  || (kind == 1 && c.outFmt == 3) || (kind != 3 && c.outFmt == 5)
  || (kind == 2 && !png && c.outFmt != 4) || (kind == 3 && !(c.outFmt == 4 || c.outFmt == 5))
  || (pictures && !(c.outType == 1 || c.outType == 8))
  || (kind == 3 && !(c.outType == 9 || c.outType == 10 || c.outType == 7))
  || (kind == 2 && !png && c.outType != 1)
  || decide (15 < leAt b 14 1)
  || (if kind = 1 then decide (c.frames < 1) || decide (64 < c.frames) || decide (c.stride < 1) || decide (16 < c.stride)
      else c.frames != 0 || c.stride != 0)
  || leAt b 17 3 != 0
  || (if pictures then decide (c.maxPixels < 1) || decide (maxPicture kind < c.maxPixels) else c.maxPixels != 0)
  || decide (c.outMax < 1) || decide (2 ^ 26 < c.outMax)
  || (if kind = 3 then decide (c.window < 1) || decide (2 ^ 24 < c.window) else c.window != 0)
  || leAt b 36 4 != 0

/-- What a decoding stage makes of a sample: content or a reason, its cycles, the coded size and whether an
orientation was applied. (DESIGN CHOICE, assumption 108.) -/
structure DecRun where
  out : Option Tensor
  reason : Nat
  cycles : Nat
  codedW : Nat
  codedH : Nat
  oriented : Bool
  deriving DecidableEq, Repr

def decReject (reason cycles : Nat) : DecRun := ⟨none, reason, cycles, 0, 0, false⟩

/-- C where nothing of the stream's dimensions and lengths is known (R222). (DESIGN CHOICE, assumption 6.) -/
def unknownCycles (i : Nat) : Nat := ceilDiv i 4 + 64

/-- Caps a run at CC_BUDGET (R222). -/
def decBudget (c : DecCfg) (r : DecRun) : DecRun :=
  if c.budget ≠ 0 ∧ c.budget ≤ r.cycles then decReject 0x16 c.budget else r

/-- A parsed stream: an early fault spends the cycles of an unknown size; otherwise the header is judged, and what is
refused there, or an output over OUT_MAX, spends `headCycles`, the count of the header alone (R222, R231); then the fault at
which the reading broke, or the result. (DEDUCED, assumption 47.) -/
def runParse {α : Type} (c : DecCfg) (i : Nat) (p : Parse α) (judge : α → Option Nat) (headCycles : α → Nat)
    (broken : α → StreamFault → DecRun) (whole : α → DecRun) : DecRun :=
  match p with
  | .early f => decReject f.code (unknownCycles i)
  | .found h stop =>
    match judge h, stop with
    | some reason, _ => decReject reason (headCycles h)
    | none, some f => broken h f
    | none, none =>
      let r := whole h
      match r.out with
      | some t => if c.outMax < t.byteLen then decReject 0x14 (headCycles h) else r
      | none => r

/-- Whether a picture passes the largest of its format or MAX_PIXELS (R220, R231, R233). -/
def pictureLarge (kind : Nat) (c : DecCfg) (w h : Nat) : Bool :=
  sideBad kind w h || decide (c.maxPixels < w * h) || decide (maxPicture kind < w * h)

/-- A decoded picture. -/
def pictureRun (c : DecCfg) (w h cycles orientation : Nat) (t : Tensor) : DecRun :=
  ⟨some t, 0, cycles, w, h, c.orient && decide (2 ≤ orientation) && decide (orientation ≤ 8)⟩

/-! ### JPEG -/

/-- C of a JPEG picture (R220). -/
def jpegCycles (p : JpegPic) : Nat :=
  let px := p.width * p.height
  if p.sof = 2 then 2 * px + ceilDiv p.entropyBytes 2 + 256 * p.scans else max px (ceilDiv p.entropyBytes 2)

/-- Whether a JPEG picture lies in the accepted subset (R220). -/
def jpegAccepted (p : JpegPic) : Bool :=
  decide (p.sof ≤ 2) && !p.hierarchical && (p.precision == 8 || p.precision == 12)
  && (p.comps.length == 1 || p.comps.length == 3)
  && p.comps.all (fun c => (c.h == 1 || c.h == 2) && (c.v == 1 || c.v == 2))

def judgeJpeg (c : DecCfg) (p : JpegPic) : Option Nat :=
  if !jpegAccepted p then some 0x11 else if pictureLarge 0 c p.width p.height then some 0x14 else none

/-- The image decoder on a JPEG sample. -/
def runJpeg (c : DecCfg) (bs : List Byte) : DecRun :=
  runParse c bs.length (parseJpeg bs) (judgeJpeg c) (fun p => jpegCycles { p with entropyBytes := 0, scans := 0 })
    (fun p f => decReject f.code (jpegCycles p))
    (fun p => pictureRun c p.width p.height (jpegCycles p) p.orientation (decodeJpeg p c.outFmt c.outType c.orient c.triangle))

/-! ### PNG -/

/-- C of a PNG picture (R220). -/
def pngCycles (i : Nat) (p : PngPic) : Nat := max (ceilDiv (9 * pngScanBytes p) 40) (ceilDiv i 4) + 8 * p.height

def judgePng (c : DecCfg) (p : PngPic) : Option Nat :=
  if p.interlaced then some 0x11 else if pictureLarge 2 c p.width p.height then some 0x14 else none

/-- A general decompressor with its filter stage on a PNG sample. -/
def runPng (c : DecCfg) (bs : List Byte) : DecRun :=
  runParse c bs.length (parsePng bs) (judgePng c) (pngCycles bs.length)
    (fun p f => decReject f.code (pngCycles bs.length p))
    (fun p => pictureRun c p.width p.height (pngCycles bs.length p) p.orientation (decodePng p c.outFmt c.outType c.orient))

/-! ### Video -/

/-- A start drawn in 0 to n − 1 (R229, R230). -/
def drawStart (key : Quad) (g opId n : Nat) (on : Bool) : Nat :=
  if on then drawUniform (drawWord key g opId 0 0) n else 0

/-- The pictures a video stage decodes for a window that starts at `t` (R229): from the last random-access picture
at or before `t`, in decode order, through the last one the output needs. -/
def decodedPics (pics : List VideoPic) (t f k : Nat) : List VideoPic :=
  let first := ((pics.take (t + 1)).filter (·.randomAccess)).getLast?.map (·.decodeOrder)
  let need := (List.range f).filterMap (fun i => pics[t + i * k]?.map (·.decodeOrder))
  let last := need.foldl max 0
  pics.filter (fun p => decide (first.getD 0 ≤ p.decodeOrder) && decide (p.decodeOrder ≤ last))

def videoPicCycles (p : VideoPic) : Nat :=
  let s := alignUp 64 p.width * alignUp 64 p.height
  max (3 * s / 2) (4 * p.codedBytes) + 2048

/-- Whether a video stream lies in the accepted subset (R220): Main and Main 10, or Main of AV1 at 8 and 10 bits. -/
def videoAccepted (codec : Nat) (v : VideoStream) : Bool :=
  v.sub420 && decide (v.level ≤ 61) && v.pics.all (fun p => p.depth == 8 || p.depth == 10)
  && (if codec = 3 then (v.profile == 1 || v.profile == 2) && !v.highTier else v.profile == 0 && !v.largeTile)

/-- What the pre-scan refuses: the subset, a picture too large, and a clip that does not fit (R229, R231). -/
def judgeVideo (codec : Nat) (c : DecCfg) (v : VideoStream) : Option Nat :=
  if !videoAccepted codec v then some 0x11
  else if v.pics.any (fun p => pictureLarge 1 c p.width p.height) then some 0x14
  else if v.pics.length < (c.frames - 1) * c.stride + 1 then some 0x15
  else none

/-- The pictures decoded before the first that meets a fault, in decode order, and that fault. -/
def picsBefore (pics : List VideoPic) : List VideoPic × Option StreamFault :=
  let bad := (pics.filter (·.bad.isSome)).map (·.decodeOrder)
  match bad.min? with
  | none => (pics, none)
  | some n => (pics.filter (fun p => decide (p.decodeOrder < n)), (pics.find? (fun p => p.decodeOrder == n)).bind (·.bad))

/-- The clip that a video stage outputs (R229). -/
def videoClip (key : Quad) (g i : Nat) (c : DecCfg) (v : VideoStream) : DecRun :=
  let t := drawStart key g 0x0010 (v.pics.length - (c.frames - 1) * c.stride) c.startDraw
  let (done, bad) := picsBefore (decodedPics v.pics t c.frames c.stride)
  let cyc := ceilDiv i 16 + (done.map videoPicCycles).sum
  match bad with
  | some f => decReject f.code cyc
  | none =>
    let shown := (List.range c.frames).filterMap (fun k => v.pics[t + k * c.stride]?)
    let w := (shown.head?.map (·.width)).getD 0
    let h := (shown.head?.map (·.height)).getD 0
    ⟨some (clipTensor shown c.outFmt c.outType c.m601), 0, cyc, w, h, false⟩

/-- The video decoder on a sample: a fault of the pre-scan ends it after the scan. -/
def runVideo (key : Quad) (g codec : Nat) (c : DecCfg) (bs : List Byte) : DecRun :=
  let scan := ceilDiv bs.length 16
  runParse c bs.length (Config.parseVideo codec bs) (judgeVideo codec c) (fun _ => scan)
    (fun _ f => decReject f.code scan) (videoClip key g bs.length c)

/-! ### Audio -/

/-- Whether an audio stream lies in the accepted subset (R220). -/
def audioAccepted (codec : Nat) (a : AudioClip) : Bool :=
  decide (1 ≤ a.channels) && decide (a.channels ≤ 8)
  && (if codec = 5 then decide (8 ≤ a.bits) && decide (a.bits ≤ 24) && decide (a.rate ≤ 384000)
      else !a.rf64 && ((a.tag == 1 && (a.bits == 8 || a.bits == 16 || a.bits == 24 || a.bits == 32))
        || (a.tag == 3 && a.bits == 32)))

def judgeAudio (codec : Nat) (c : DecCfg) (a : AudioClip) : Option Nat :=
  if !audioAccepted codec a then some 0x11 else if a.perChannel < c.window then some 0x15 else none

/-- C of an audio stream before any sample is decoded (R220). -/
def audioHeadCycles (codec i : Nat) : Nat := if codec = 5 then ceilDiv i 16 else 64

/-- The frames of a FLAC stream that overlap a window (R230). -/
def flacFrames (t n : Nat) (fs : List AudioFrame) : List AudioFrame :=
  fs.filter (fun f => decide (f.start < t + n) && decide (t < f.start + f.count))

/-- The window that an audio stage outputs (R230): of a FLAC stream only the frames that overlap it are decoded.
(DEDUCED, assumption 48.) -/
def audioWindow (key : Quad) (g codec i : Nat) (c : DecCfg) (a : AudioClip) : DecRun :=
  let t := drawStart key g 0x0011 (a.perChannel - c.window + 1) c.startDraw
  let take := flacFrames t c.window a.frames
  let good := take.takeWhile (·.bad.isNone)
  let cyc :=
    if codec = 5 then ceilDiv i 16 + (good.map (·.count)).sum * a.channels + 32 * good.length
    else ceilDiv (min a.dataBytes (c.window * a.channels * ceilDiv a.bits 8)) 8 + 64
  match take.find? (·.bad.isSome) with
  | some f => decReject ((f.bad.map (·.code)).getD 0x10) cyc
  | none => ⟨some (decodeAudio a c.outFmt c.outType t c.window), 0, cyc, 0, 0, false⟩

/-- The audio decoder on a sample. -/
def runAudio (key : Quad) (g codec : Nat) (c : DecCfg) (bs : List Byte) : DecRun :=
  runParse c bs.length (parseAudio codec bs) (judgeAudio codec c) (fun _ => audioHeadCycles codec bs.length)
    (fun _ f => decReject f.code (audioHeadCycles codec bs.length)) (audioWindow key g codec bs.length c)

/-! ### General decompression -/

/-- C of a general decompressor: output and input bytes (R220, R222). -/
def inflateCycles (o i : Nat) : Nat := max (ceilDiv (9 * o) 40) (ceilDiv i 4)

/-- The formats of CODEC 7 to 11 (R220); `n` bounds their members and frames. -/
def rdStream (codec n : Nat) : Rd Unit :=
  match codec with
  | 7 => do
    let _ ← rdDeflate 32768
    pure ()
  | 8 => rdZlib
  | 9 => rdGzip n
  | 10 => rdZstd n
  | _ => rdLz4 n

/-- What a general decompressor finds (R220, R504): the output, the input bytes read through the end of the stream or through the byte at
which a fault is detected, and the fault. -/
structure Inflated where
  out : List Byte
  read : Nat
  stop : Option StreamFault
  deriving DecidableEq, Repr

/-- A stream of CODEC 7 to 11, with room for so much output; a byte after its end breaks its syntax (R504). -/
def inflate (codec room : Nat) (bs : List Byte) : Inflated :=
  let (r, s) := Rd.from (rdStream codec (bs.length + 1)) (Src.of bs room)
  match r with
  | .error f => ⟨s.out.reverse, s.read, some f⟩
  | .ok _ => if s.bytes = [] then ⟨s.out.reverse, s.read, none⟩ else ⟨s.out.reverse, s.read + 1, some .badSyntax⟩

/-- The general decompressor on CODEC 7 to 11 (R220, R222, R504): an output over OUT_MAX is a fault at OUT_MAX bytes. -/
def runInflate (codec : Nat) (c : DecCfg) (bs : List Byte) : DecRun :=
  let r := inflate codec c.outMax bs
  let cyc := inflateCycles r.out.length r.read
  match r.stop with
  | some f => decReject f.code cyc
  | none => ⟨some (bytesTensor r.out), 0, cyc, 0, 0, false⟩

/-- A decoding stage on the bytes of a sample of `codec` (R220 to R230). -/
def runDecoder (key : Quad) (g codec : Nat) (c : DecCfg) (bs : List Byte) : DecRun :=
  decBudget c <|
    if codec > 31 ∨ bitOf c.accept codec = false then decReject 0x03 (unknownCycles bs.length)
    else
      match codec with
      | 1 => runJpeg c bs
      | 2 => runPng c bs
      | 3 => runVideo key g 3 c bs
      | 4 => runVideo key g 4 c bs
      | 5 => runAudio key g 5 c bs
      | 6 => runAudio key g 6 c bs
      | n => runInflate n c bs

end Sys2Proof.Machine
end

