-- ==== Sys2Proof/Machine/Jet.lean ====
section
/-! DEFINITION. The Jets: stage programs (R254 to R256), the operator catalogue with its cycles (R258), resampling
(R259 to R261), random crops, warps, jitter and erasure (R262 to R265), rejections (R266) and sieve networks (R267 to
R273). -/
namespace Sys2Proof.Machine

/-- An operator record (R254). -/
structure JetOp where
  op : Nat
  outDtype : Nat
  flags : Nat
  salt : Nat
  p : List Nat
  deriving DecidableEq, Repr

def jetOpOf (b : List Byte) : JetOp :=
  ⟨leAt b 0 2, leAt b 2 1, leAt b 3 1, leAt b 4 1, (List.range 6).map (fun i => leAt b (8 + 4 * i) 4)⟩

/-- OP_COUNT, WORK_MAX and the operator records of a Jet's STAGE_CONFIG record. -/
def jetOpCount (cfg : List Byte) : Nat := leAt cfg 8 2
def jetWorkMax (cfg : List Byte) : Nat := leAt cfg 12 4
def jetOps (cfg : List Byte) : List JetOp :=
  (List.range (min 16 (jetOpCount cfg))).map (fun i => jetOpOf (cfg.drop (16 + 32 * i)))

def JetOp.par (o : JetOp) (i : Nat) : Nat := o.p.getD i 0
def JetOp.sat (o : JetOp) : Bool := bitOf o.flags 7

/-- The output DTYPE: 0x00 keeps the input type (R254). -/
def JetOp.outType (o : JetOp) (t : Tensor) : Nat := if o.outDtype = 0 then t.dtype else o.outDtype

/-- Width in [15:0] and height in [31:16] of a packed dimension parameter (R254). -/
def dimW (v : Nat) : Nat := v % 65536
def dimH (v : Nat) : Nat := v / 65536

/-- What an operator makes of a sample. -/
inductive JetRes where
  | ok (t : Tensor) (cycles : Nat)
  | reject (reason : Nat)
  deriving DecidableEq, Repr

/-- The cells of a tensor that a place and channel name. -/
def Tensor.px (t : Tensor) (x y ch : Nat) : Nat := t.elems.getD ((y * t.w + x) * t.c + ch) 0

/-- An image of a given size and type made by a function of column, row and channel. -/
def imageBy (w h c dtype : Nat) (f : Nat → Nat → Nat → Nat) : Tensor :=
  ⟨.image, h, w, c, dtype, (List.range h).flatMap (fun y =>
    (List.range w).flatMap (fun x => (List.range c).map (fun ch => f x y ch)))⟩

/-- A draw word of an operator for a sample (R256). -/
def JetOp.draw (o : JetOp) (key : Quad) (g block i : Nat) : Nat :=
  ((drawBlock key g o.op (o.salt * 65536 + block)).at i).toNat

/-- The uniform FP32 of a word in [0, 1): (w >> 8) × 2^−24 (R47). -/
def uniformF32 (w : Nat) : F32 := roundFp32 (.fin false (w / 256) (-24))

/-- A uniform FP32 in [lo, hi) (R258). -/
def uniformIn (lo hi w : Nat) : F32 := fp32Add lo (fp32Mul (uniformF32 w) (fp32Sub hi lo))

/-- Cycles of an elementwise operator (R258). -/
def elemCycles (t : Tensor) : Nat := ceilDiv t.elems.length 32

/-- A geometric operator: its image by a function of source places, converted to OUT_DTYPE. -/
def geomTensor (o : JetOp) (t : Tensor) (w h : Nat) (src : Nat → Nat → Nat × Nat) : Tensor :=
  let d := o.outType t
  imageBy w h t.c d (fun x y ch => let s := src x y; convElem t.dtype d o.sat (t.px s.1 s.2 ch))

/-- Converts FP32 values to the operator's output type. -/
def f32Out (o : JetOp) (t : Tensor) (v : F32) : Nat := convElem 7 (o.outType t) o.sat v

/-- Reads a neighbour of a source window of `ws` by `hs` at (sx, sy): clamped to the edge, or the fill value (R259). -/
def neighbour (t : Tensor) (sx sy ws hs : Nat) (fill : Option Nat) (ix iy : Int) (ch : Nat) : Nat :=
  let cx := clampInt sx ((sx : Int) + ws - 1) ix
  let cy := clampInt sy ((sy : Int) + hs - 1) iy
  match fill with
  | some f => if cx = ix ∧ cy = iy then t.px cx.toNat cy.toNat ch else f
  | none => t.px cx.toNat cy.toNat ch

/-- Integer position and fraction in 256ths of a Q16.16 coordinate (R259). -/
def posOf (u : Int) : Int := u / 65536
def fracOf (u : Int) : Nat := (u / 256 % 256).toNat

/-- Whether resampling takes the integer path (R258). -/
def intPath (d : Nat) : Bool := d == 1 || d == 8

/-- Bilinear sampling (R260); `at'` reads the element at an integer place. -/
def bilinear (d : Nat) (at' : Int → Int → Nat) (u v : Int) : Nat :=
  let ix := posOf u
  let iy := posOf v
  let fx := fracOf u
  let fy := fracOf v
  if intPath d then
    ((256 - fx) * (256 - fy) * at' ix iy + fx * (256 - fy) * at' (ix + 1) iy
      + (256 - fx) * fy * at' ix (iy + 1) + fx * fy * at' (ix + 1) (iy + 1) + 32768) / 65536
  else
    let p := fun a b => elemF32 d (at' a b)
    let wx := roundFp32 (.fin false fx (-8))
    let wy := roundFp32 (.fin false fy (-8))
    let t0 := fp32Add (p ix iy) (fp32Mul (fp32Sub (p (ix + 1) iy) (p ix iy)) wx)
    let t1 := fp32Add (p ix (iy + 1)) (fp32Mul (fp32Sub (p (ix + 1) (iy + 1)) (p ix (iy + 1))) wx)
    fp32Add t0 (fp32Mul (fp32Sub t1 t0) wy)

/-- A rational num ÷ den rounded half away from zero. -/
def roundAway (num : Int) (den : Nat) : Int :=
  if 0 ≤ num then (2 * num + den) / (2 * den : Nat) else -((2 * (-num) + den) / (2 * den : Nat))

/-- 2^11 × k(n ÷ 64) of the Keys kernel with a = −0.5, rounded half away from zero (R261). -/
def keysWeight (n : Nat) : Int :=
  let d : Int := n
  -- 2^11 · k over the common denominator 2^19
  if n ≤ 64 then roundAway (2 ^ 11 * (3 * d * d * d - 5 * d * d * 64 + 2 * 2 ^ 18)) (2 ^ 19)
  else roundAway (2 ^ 11 * (-(d * d * d) + 5 * d * d * 64 - 8 * d * 2 ^ 12 + 4 * 2 ^ 18)) (2 ^ 19)

/-- The four weights of a phase, adjusted to add up to 2,048 (R261). -/
def bicubicWeights (phi : Nat) : List Int :=
  let w := [keysWeight (64 + phi), keysWeight phi, keysWeight (64 - phi), keysWeight (128 - phi)]
  let fix := 2048 - w.sum
  if phi < 32 then w.modify 1 (· + fix) else w.modify 2 (· + fix)

/-- A weighted FP32 sum in tap order (R261). -/
def tapSum : List (Int × F32) → F32
  | [] => 0
  | (w, v) :: l =>
    l.foldl (fun acc e => fp32Add acc (fp32Mul (roundFp32 (Num.ofUnits e.1 (-11))) e.2))
      (fp32Mul (roundFp32 (Num.ofUnits w (-11))) v)

/-- Bicubic sampling (R261). -/
def bicubic (d : Nat) (at' : Int → Int → Nat) (u v : Int) : Nat :=
  let ix := posOf u
  let iy := posOf v
  let wx := bicubicWeights (fracOf u / 4)
  let wy := bicubicWeights (fracOf v / 4)
  let taps : List Nat := [0, 1, 2, 3]
  let row := fun (j : Nat) => taps.map (fun i => (wx.getD i 0, at' (ix - 1 + (i : Int)) (iy - 1 + (j : Int))))
  if intPath d then
    let h := fun j => ((row j).map (fun e => e.1 * (e.2 : Int))).sum
    let s := (taps.map (fun j => wy.getD j 0 * h j)).sum
    let top : Int := if d = 1 then 255 else 65535
    (clampInt 0 top ((s + 2097152) / 4194304)).toNat
  else
    let h := fun j => tapSum ((row j).map (fun e => (e.1, elemF32 d e.2)))
    tapSum (taps.map (fun j => (wy.getD j 0, h j)))

/-- One resampled element, converted to OUT_DTYPE. -/
def resampleElem (o : JetOp) (t : Tensor) (cubic : Bool) (at' : Int → Int → Nat) (u v : Int) : Nat :=
  let r := if cubic then bicubic t.dtype at' u v else bilinear t.dtype at' u v
  if intPath t.dtype then convElem t.dtype (o.outType t) o.sat r else f32Out o t r

/-- The scale and offset of one axis (R259). -/
def axisA (ws wo : Nat) : Int := rneRat ((65536 * ws : Nat) : Int) wo
def axisB (ws wo : Nat) : Int := rneRat ((32768 * ws : Nat) : Int) wo - 32768

/-- Resizes a source window to `wo` by `ho` (R259). -/
def resizeWindow (o : JetOp) (t : Tensor) (cubic : Bool) (sx sy ws hs wo ho : Nat) : Tensor :=
  imageBy wo ho t.c (o.outType t) (fun x y ch =>
    let u := axisA ws wo * x + axisB ws wo + 65536 * (sx : Int)
    let v := axisA hs ho * y + axisB hs ho + 65536 * (sy : Int)
    resampleElem o t cubic (fun a b => neighbour t sx sy ws hs none a b ch) u v)

def resizeCycles (cubic : Bool) (w h : Nat) : Nat := if cubic then w * h else ceilDiv (w * h) 2

/-- Whether an output size is out of range (GEOMETRY, R266). -/
def badSize (w h : Nat) : Bool := w == 0 || h == 0 || decide (16384 < w) || decide (16384 < h)

/-- One attempt of RANDOM_RESIZED_CROP: cw, ch, x0, y0 (R262). -/
def rrcAttempt (o : JetOp) (key : Quad) (g w h b : Nat) : Option (Nat × Nat × Nat × Nat) :=
  let s := uniformIn (o.par 1) (o.par 2) (o.draw key g b 0)
  let r := uniformIn (o.par 3) (o.par 4) (o.draw key g b 1)
  let a := fp32Mul (fp32Mul s (f32OfInt w)) (f32OfInt h)
  let cw := rneInt (fp32Sqrt (fp32Mul a r))
  let ch := rneInt (fp32Sqrt (fp32Div a r))
  if 1 ≤ cw ∧ cw ≤ w ∧ 1 ≤ ch ∧ ch ≤ h then
    some (cw.toNat, ch.toNat, drawUniform (o.draw key g b 2) (w - cw.toNat + 1),
      drawUniform (o.draw key g b 3) (h - ch.toNat + 1))
  else none

/-- The crop of RANDOM_RESIZED_CROP: the first attempt that fits, else the centred square (R262). -/
def rrcCrop (o : JetOp) (key : Quad) (g w h : Nat) : Nat × Nat × Nat × Nat :=
  match (List.range 10).findSome? (rrcAttempt o key g w h) with
  | some c => c
  | none => let m := min w h; (m, m, (w - m) / 2, (h - m) / 2)

/-- cos and sin of 2π ÷ 4,096 with 128 fraction bits. -/
def unitCos : Int := 0xffffec42c3773235ec9e2e75cb525f2c
def unitSin : Int := 0x6487eabb991cb611ad1d7b5620834a

def cmul (a b : Int × Int) : Int × Int :=
  ((a.1 * b.1 - a.2 * b.2) / 2 ^ 128, (a.1 * b.2 + a.2 * b.1) / 2 ^ 128)

/-- cos and sin of 2πk ÷ 4,096 with 128 fraction bits, by squaring; `fuel` bounds the bits of k. -/
def cosSinPow : Nat → Nat → Int × Int → Int × Int → Int × Int
  | 0, _, _, acc => acc
  | fuel + 1, k, base, acc =>
    cosSinPow fuel (k / 2) (cmul base base) (if k % 2 = 1 then cmul acc base else acc)

/-- CS[k] and SN[k] (R263): 2^30 × cos and sin, rounded half away from zero. -/
def csSn (k : Int) : Int × Int :=
  let c := cosSinPow 12 (k % 4096).toNat (unitCos, unitSin) (2 ^ 128, 0)
  (roundAway c.1 (2 ^ 98), roundAway c.2 (2 ^ 98))

/-- An FP32 times 2^16, to the nearest integer (R263). -/
def rneScaled16 (x : F32) : Int :=
  match f32Num x with
  | .fin s m e => rneExact s m (e + 16)
  | _ => Config.rneOpen x

/-- RANDOM_AFFINE (R263). -/
def affineTensor (o : JetOp) (key : Quad) (g : Nat) (t : Tensor) : Tensor :=
  let m := o.par 0
  let k : Int := (drawUniform (o.draw key g 0 0) (2 * m + 1) : Nat) - (m : Int)
  let s := uniformIn (o.par 1) (o.par 2) (o.draw key g 0 1)
  let tT := o.par 3
  let tx : Int := (drawUniform (o.draw key g 0 2) (2 * tT + 1) : Nat) - (tT : Int)
  let ty : Int := (drawUniform (o.draw key g 0 3) (2 * tT + 1) : Nat) - (tT : Int)
  let q := rneScaled16 (fp32Div 0x3F800000 s)
  let a := rneRat ((csSn k).1 * q) (2 ^ 30)
  let b := rneRat ((csSn k).2 * q) (2 ^ 30)
  let cx : Int := ((t.w : Int) - 1) * 32768
  let cy : Int := ((t.h : Int) - 1) * 32768
  let fill := if bitOf o.flags 1 then some (o.par 4 % 2 ^ (8 * dtypeBytes t.dtype)) else none
  imageBy t.w t.h t.c (o.outType t) (fun x y ch =>
    let dx : Int := 65536 * ((x : Int) - tx) - cx
    let dy : Int := 65536 * ((y : Int) - ty) - cy
    let u := cx + (a * dx + b * dy + 32768) / 65536
    let v := cy + (a * dy - b * dx + 32768) / 65536
    resampleElem o t (bitOf o.flags 0) (fun i j => neighbour t 0 0 t.w t.h fill i j ch) u v)

/-- The grey of a pixel (R264). -/
def jitterGrey (r g b : F32) : F32 :=
  fp32Add (fp32Add (fp32Mul 0x3E991687 r) (fp32Mul 0x3F1645A2 g)) (fp32Mul 0x3DE978D5 b)

/-- The factor of COLOUR_JITTER (R264). -/
def jitterFactor (a w : Nat) : F32 :=
  fp32Add (fp32Sub 0x3F800000 a) (fp32Mul (fp32Add a a) (uniformF32 w))

def f32Clamp (hi x : F32) : F32 := if f32Lt x 0 then 0 else if f32Lt hi x then hi else x

/-- COLOUR_JITTER (R264). -/
def jitterTensor (o : JetOp) (key : Quad) (g : Nat) (t : Tensor) : Tensor :=
  let fb := jitterFactor (o.par 0) (o.draw key g 0 0)
  let fc := jitterFactor (o.par 1) (o.draw key g 0 1)
  let fs := jitterFactor (o.par 2) (o.draw key g 0 2)
  let x1 := fun x y ch => fp32Mul (elemF32 t.dtype (t.px x y ch)) fb
  let places := (List.range t.h).flatMap (fun y => (List.range t.w).map (fun x => (x, y)))
  let sum := places.foldl (fun acc p => fp32Add acc (jitterGrey (x1 p.1 p.2 0) (x1 p.1 p.2 1) (x1 p.1 p.2 2))) 0
  let m := fp32Mul sum (fp32Div 0x3F800000 (f32OfInt ((t.w * t.h : Nat) : Int)))
  let x2 := fun x y ch => fp32Add m (fp32Mul (fp32Sub (x1 x y ch) m) fc)
  imageBy t.w t.h t.c (o.outType t) (fun x y ch =>
    if ch = 3 then convElem t.dtype (o.outType t) o.sat (t.px x y 3)
    else
      let gr := jitterGrey (x2 x y 0) (x2 x y 1) (x2 x y 2)
      f32Out o t (f32Clamp (o.par 3) (fp32Add gr (fp32Mul (fp32Sub (x2 x y ch) gr) fs))))

/-- The byte address in Reservoir of a constant address (R257). -/
def constAddr (a : Nat) : Nat := (bitsOf a 21 12 * 4096 + bitsOf a 11 0) * 64

/-- LUT (R258): one 256-entry table of OUT_DTYPE per channel, each padded to 64 bytes. A NaN entry leaves as the canonical
NaN (R249). -/
def lutTensor (rd : Nat → Nat → Nat) (o : JetOp) (t : Tensor) : Tensor :=
  let d := o.outType t
  let k := dtypeBytes d
  let tab := alignUp 64 (256 * k)
  let one := fun (e : Nat × Nat) =>
    let x := if t.dtype = 2 then (toSigned 8 e.1 + 128).toNat else e.1
    convElem d d false (rd (constAddr (o.par 0) + (e.2 % t.c) * tab + x * k) k)
  { t with dtype := d, elems := t.elems.zipIdx.map one }

/-- COLOUR_MATRIX (R258). -/
def matrixTensor (rd : Nat → Nat → Nat) (o : JetOp) (t : Tensor) : Tensor :=
  let mt := fun i => rd (constAddr (o.par 0) + 4 * i) 4
  imageBy t.w t.h t.c (o.outType t) (fun x y ch =>
    let p := fun i => elemF32 t.dtype (t.px x y i)
    if ch = 3 then convElem t.dtype (o.outType t) o.sat (t.px x y 3)
    else f32Out o t (fp32Add (fp32Add (fp32Add (fp32Mul (mt (3 * ch)) (p 0)) (fp32Mul (mt (3 * ch + 1)) (p 1)))
      (fp32Mul (mt (3 * ch + 2)) (p 2))) (mt (9 + ch))))

/-- RANDOM_ERASE (R265). -/
def eraseTensor (o : JetOp) (key : Quad) (g : Nat) (t : Tensor) : Tensor :=
  let a := uniformIn (o.par 1) (o.par 2) (o.draw key g 0 1)
  let e := (clampInt 1 (min t.w t.h : Nat)
    (rneInt (fp32Sqrt (fp32Mul (fp32Mul a (f32OfInt t.w)) (f32OfInt t.h))))).toNat
  let x0 := drawUniform (o.draw key g 0 2) (t.w - e + 1)
  let y0 := drawUniform (o.draw key g 0 3) (t.h - e + 1)
  let on := decide (o.draw key g 0 0 < o.par 0)
  let fill := o.par 3 % 2 ^ (8 * dtypeBytes t.dtype)
  imageBy t.w t.h t.c (o.outType t) (fun x y ch =>
    let inside := decide (x0 ≤ x) && decide (x < x0 + e) && decide (y0 ≤ y) && decide (y < y0 + e)
    convElem t.dtype (o.outType t) o.sat (if on && inside then fill else t.px x y ch))

/-- NORMALISE of one element (R258). -/
def normaliseElem (o : JetOp) (t : Tensor) (e : Nat × Nat) : Nat :=
  let x := elemF32 t.dtype e.1
  let ch := e.2 % t.c
  f32Out o t (if ch = 3 then x else fp32Mul (fp32Sub x (o.par ch)) (o.par (3 + ch)))

/-! ### Sieve networks -/

/-- A sieve layer record (R269). -/
structure SieveLayer where
  type : Nat
  act : Nat
  aDtype : Nat
  wDtype : Nat
  k : Nat
  stride : Nat
  pad : Nat
  cIn : Nat
  cOut : Nat
  hOut : Nat
  wOut : Nat
  weights : Nat
  scale : Nat
  table : Nat
  buckets : Nat
  deriving DecidableEq, Repr

/-- Reads a layer record at a byte address. -/
def sieveLayerAt (rd : Nat → Nat → Nat) (a : Nat) : SieveLayer where
  type := rd a 1
  act := rd (a + 1) 1
  aDtype := rd (a + 2) 1
  wDtype := rd (a + 3) 1
  k := rd (a + 4) 1
  stride := rd (a + 5) 1
  pad := rd (a + 6) 1
  cIn := rd (a + 8) 2
  cOut := rd (a + 10) 2
  hOut := rd (a + 12) 2
  wOut := rd (a + 14) 2
  weights := rd (a + 16) 4
  scale := rd (a + 20) 4
  table := rd (a + 24) 4
  buckets := rd (a + 28) 4

/-- A sieve descriptor (R267). -/
structure Sieve where
  tokens : Bool
  inH : Nat
  inW : Nat
  inC : Nat
  scoreIndex : Nat
  layers : List SieveLayer
  deriving DecidableEq, Repr

def sieveAt (rd : Nat → Nat → Nat) (a : Nat) : Sieve where
  tokens := rd (a + 3) 1 == 1
  inH := rd (a + 4) 2
  inW := rd (a + 6) 2
  inC := rd (a + 8) 1
  scoreIndex := rd (a + 10) 2
  layers := (List.range (min 64 (rd (a + 2) 1))).map (fun i => sieveLayerAt rd (a + 32 + 32 * i))

/-- An activation: height, width, channels, DTYPE and element bits, channels interleaved. -/
structure Act where
  h : Nat
  w : Nat
  c : Nat
  dtype : Nat
  e : List Nat
  deriving DecidableEq, Repr

def Act.at (a : Act) (x y ch : Nat) : Nat := a.e.getD ((y * a.w + x) * a.c + ch) 0

/-- An activation's element at a place that padding may have moved outside; none outside (R270). -/
def Act.atPad (a : Act) (x y : Int) (ch : Nat) : Option Nat :=
  if 0 ≤ x ∧ x < a.w ∧ 0 ≤ y ∧ y < a.h then some (a.at x.toNat y.toNat ch) else none

/-- Whether a layer's dot products are integer (R247, R253). -/
def SieveLayer.isInt (l : SieveLayer) : Bool := (l.aDtype == 1 || l.aDtype == 2) && l.wDtype == 2

/-- 1 for 8-bit operands and 2 for 16-bit operands (R268). -/
def SieveLayer.m (l : SieveLayer) : Nat := dtypeBytes l.aDtype

/-- Byte address of weight `i` of output channel `co`, of `terms` terms, in blocks of 32 × 32 (R272). -/
def blockWeight (l : SieveLayer) (terms co i : Nat) : Nat :=
  let wb := dtypeBytes l.wDtype
  let block := (co / 32) * ceilDiv terms 32 + i / 32
  constAddr l.weights + (block * 1024 + (co % 32) * 32 + i % 32) * wb

/-- Byte address of weight `kk` of a depthwise channel (R272). -/
def dwWeight (l : SieveLayer) (co kk : Nat) : Nat :=
  constAddr l.weights + ((co / 32) * (l.k * l.k) + kk) * 64 + (co % 32) * dtypeBytes l.wDtype

/-- Operand bits as integers (R253). -/
def intTerms (l : SieveLayer) (terms : List (Nat × Nat)) : List (Int × Int) :=
  terms.map (fun t => (if l.aDtype = 1 then ((t.1 : Nat) : Int) else toSigned 8 t.1, toSigned 8 t.2))

/-- FP32 of the dot product of operand bits (R252, R253, R270). -/
def layerDot (l : SieveLayer) (terms : List (Nat × Nat)) : F32 :=
  if l.isInt then f32OfInt (dotInt (intTerms l terms))
  else dotFloat (terms.map (fun t => (elemNum l.aDtype t.1, elemNum l.wDtype t.2)))

/-- Scale and bias (R270). -/
def layerScale (rd : Nat → Nat → Nat) (l : SieveLayer) (co : Nat) (acc : F32) : F32 :=
  let base := constAddr l.scale
  fp32Add (fp32Mul acc (rd (base + 4 * co) 4)) (rd (base + alignUp 64 (4 * l.cOut) + 4 * co) 4)

/-- ACT TABLE (R271). -/
def actTable (rd : Nat → Nat → Nat) (a : Nat) (x : F32) : F32 :=
  let t := fun i => rd (constAddr a + 4 * i) 4
  let eight := 0x41000000
  if f32IsNan x then fmtFP32.nan
  else if f32Lt x 0xC1000000 then fp32Add (t 0) (fp32Mul (fp32Add x eight) (t 1025))
  else if !f32Lt x eight then fp32Add (t 1024) (fp32Mul (fp32Sub x eight) (t 1026))
  else
    let z := fp32Mul (fp32Add x eight) 0x42800000
    let i : Int := match f32Num z with
      | .fin s m e => let v : Int := if 0 ≤ e then m * 2 ^ e.toNat else (m / 2 ^ (-e).toNat : Nat); if s then -v else v
      | _ => 0
    let g := fp32Sub z (f32OfInt i)
    fp32Add (t i.toNat) (fp32Mul (fp32Sub (t (i.toNat + 1)) (t i.toNat)) g)

/-- ACT (R270, R271). -/
def layerAct (rd : Nat → Nat → Nat) (l : SieveLayer) (y : F32) : F32 :=
  match l.act with
  | 1 => if f32IsNan y then fmtFP32.nan else if f32Le y 0 then 0 else y
  | 2 => actTable rd l.table y
  | _ => y

/-- The greater of two FP32 numbers for POOL_MAX: NaN wins, and a zero result is +0 (R270). -/
def poolMax (a b : F32) : F32 :=
  if f32IsNan a || f32IsNan b then fmtFP32.nan
  else if f32Lt a b then (if b = 0x80000000 then 0 else b) else if a = 0x80000000 then 0 else a

/-- The taps of a window in (ky, kx) order; padded taps are none. -/
def windowTaps (l : SieveLayer) (a : Act) (x y ch : Nat) : List (Option Nat) :=
  (List.range (l.k * l.k)).map (fun i =>
    a.atPad ((x * l.stride + i % l.k : Nat) - (l.pad : Int)) ((y * l.stride + i / l.k : Nat) - (l.pad : Int)) ch)

/-- The operand pairs of one output element's dot product, in the order of R270; none of a layer without one. -/
def layerTerms (rd : Nat → Nat → Nat) (l : SieveLayer) (a : Act) (x y co : Nat) : List (Nat × Nat) :=
  match l.type with
  | 1 => (List.range (l.k * l.k)).flatMap (fun kk =>
      (List.range l.cIn).map (fun ci =>
        ((a.atPad ((x * l.stride + kk % l.k : Nat) - (l.pad : Int)) ((y * l.stride + kk / l.k : Nat) - (l.pad : Int)) ci).getD 0,
          rd (blockWeight l (l.k * l.k * l.cIn) co (kk * l.cIn + ci)) (dtypeBytes l.wDtype))))
  | 2 => (windowTaps l a x y co).zipIdx.map (fun t => (t.1.getD 0, rd (dwWeight l co t.2) (dtypeBytes l.wDtype)))
  | 6 => a.e.zipIdx.map (fun t => (t.1, rd (blockWeight l l.cIn co t.2) (dtypeBytes l.wDtype)))
  | _ => []

/-- One output element of a layer in FP32, before ACT (R270). -/
def layerElem (rd : Nat → Nat → Nat) (l : SieveLayer) (a : Act) (x y co : Nat) : F32 :=
  let f := fun (o : Option Nat) => elemF32 l.aDtype (o.getD 0)
  match l.type with
  | 3 =>
    match ((windowTaps l a x y co).filterMap id).map (fun t => elemF32 l.aDtype t) with
    | [] => 0
    | t :: ts => ts.foldl poolMax (poolMax t t)
  | 4 =>
    fp32Mul ((windowTaps l a x y co).foldl (fun acc t => fp32Add acc (f t)) 0)
      (fp32Div 0x3F800000 (f32OfInt ((l.k * l.k : Nat) : Int)))
  | 5 =>
    fp32Mul ((List.range (a.h * a.w)).foldl
        (fun acc i => fp32Add acc (elemF32 l.aDtype (a.e.getD (i * a.c + co) 0))) 0)
      (fp32Div 0x3F800000 (f32OfInt ((a.h * a.w : Nat) : Int)))
  | 7 =>
    let rowB := alignUp 64 (l.cOut * dtypeBytes l.wDtype)
    let row := fun tok => elemF32 l.wDtype
      (rd (constAddr l.weights + (tok % max 1 l.buckets) * rowB + co * dtypeBytes l.wDtype) (dtypeBytes l.wDtype))
    fp32Mul (a.e.foldl (fun acc tok => fp32Add acc (row tok)) 0)
      (fp32Div 0x3F800000 (f32OfInt (a.e.length : Int)))
  | _ => layerScale rd l co (layerDot l (layerTerms rd l a x y co))

/-- A layer's FP32 output, and the type it is converted to: the next layer's, or FP32 for the last (R270). -/
def layerRun (rd : Nat → Nat → Nat) (l : SieveLayer) (a : Act) (outType : Nat) : Act :=
  ⟨l.hOut, l.wOut, l.cOut, outType, (List.range l.hOut).flatMap (fun y =>
    (List.range l.wOut).flatMap (fun x => (List.range l.cOut).map (fun co =>
      let y' := layerAct rd l (layerElem rd l a x y co)
      if outType = 7 then y' else convElem 7 outType true y')))⟩

def runLayers (rd : Nat → Nat → Nat) : List SieveLayer → Act → Act
  | [], a => a
  | [l], a => layerRun rd l a 7
  | l :: l' :: ls, a => runLayers rd (l' :: ls) (layerRun rd l a l'.aDtype)

/-- Whether a chunk of one of a layer's integer dot products saturates (R253). -/
def layerSaturates (rd : Nat → Nat → Nat) (l : SieveLayer) (a : Act) : Bool :=
  l.isInt && (List.range l.hOut).any (fun y => (List.range l.wOut).any (fun x => (List.range l.cOut).any (fun co =>
    dotSaturates (intTerms l (layerTerms rd l a x y co)))))

/-- Whether any layer of a sieve network saturates on an input (R253). -/
def layersSaturate (rd : Nat → Nat → Nat) : List SieveLayer → Act → Bool
  | [], _ => false
  | l :: ls, a => layerSaturates rd l a || layersSaturate rd ls (layerRun rd l a ((ls.head?.map (·.aDtype)).getD 7))

/-- Cycles of one layer (R268); `n` the tokens read by an EMBED. -/
def layerCycles (l : SieveLayer) (inH inW n : Nat) : Nat :=
  let ho := l.hOut * l.wOut
  match l.type with
  | 1 => l.m * ho * ceilDiv l.cOut 32 * ceilDiv (l.k * l.k * l.cIn) 32
  | 2 => ho * ceilDiv l.cOut 32 * (l.k * l.k)
  | 3 => ho * ceilDiv l.cOut 32 * (l.k * l.k)
  | 4 => ho * ceilDiv l.cOut 32 * (l.k * l.k)
  | 5 => inH * inW * ceilDiv l.cIn 32
  | 6 => l.m * ceilDiv l.cOut 32 * ceilDiv l.cIn 32
  | 7 => n * ceilDiv l.cOut 32
  | _ => 0

/-- Multiply-accumulates of one layer on the MAC array. -/
def layerMacs (l : SieveLayer) : Nat :=
  match l.type with
  | 1 => l.hOut * l.wOut * l.cOut * (l.k * l.k * l.cIn)
  | 2 => l.hOut * l.wOut * l.cOut * (l.k * l.k)
  | 6 => l.cOut * l.cIn
  | _ => 0

def layersCycles (n : Nat) : Nat → Nat → List SieveLayer → Nat
  | _, _, [] => 0
  | h, w, l :: ls => 64 + layerCycles l h w n + layersCycles n l.hOut l.wOut ls

/-- The outcome of a SIEVE operator: its score, the reason if it drops the sample, its cycles and MACs, and whether a
chunk saturated; or a rejection of its input. -/
inductive SieveRes where
  | scored (score : F32) (reason cycles macs : Nat) (saturated : Bool)
  | reject (reason : Nat)
  deriving DecidableEq, Repr

/-- The reason for which a score drops a sample; 0 where the sieve keeps it (R273). -/
def sieveVerdict (o : JetOp) (s : F32) : Nat :=
  if f32IsNan s then 0x23
  else if (if bitOf o.flags 0 then f32Lt s (o.par 1) else f32Le (o.par 1) s) then 0 else 0x20

/-- Whether a sample is a token sample: a vector of token numbers (R254, R280, R299). -/
def Tensor.isTokens (t : Tensor) : Bool := t.shape == .vector && (t.dtype == 8 || t.dtype == 11)

/-- The SIEVE operator (R267 to R273). (DEDUCED, assumption 27.) -/
def runSieve (rd : Nat → Nat → Nat) (o : JetOp) (t : Tensor) : SieveRes :=
  let d := sieveAt rd (constAddr (o.par 0))
  let aType := (d.layers.head?.map (·.aDtype)).getD 7
  let judge := fun (a : Act) (n extra : Nat) =>
    let s := (runLayers rd d.layers a).e.getD d.scoreIndex 0
    .scored (if f32IsNan s then fmtFP32.nan else s) (sieveVerdict o s)
      (layersCycles n d.inH d.inW d.layers + extra) ((d.layers.map layerMacs).sum) (layersSaturate rd d.layers a)
  if d.tokens then
    if t.isTokens = false then .reject 0x22
    else
      let es := t.elems.take d.inW
      if es = [] then .reject 0x25 else judge ⟨1, es.length, 1, 11, es⟩ es.length 0
  else if t.shape ≠ .image ∨ t.c ≠ d.inC then .reject 0x22
  else
    let same := t.h == d.inH && t.w == d.inW
    let keep : JetOp := ⟨o.op, 0, 0x80, 0, []⟩
    let r := if same then t else resizeWindow keep t false 0 0 t.w t.h d.inW d.inH
    judge ⟨d.inH, d.inW, t.c, aType, r.elems.map (convElem t.dtype aType true)⟩ 0
      (if same then 0 else ceilDiv (d.inH * d.inW) 2)

/-! ### Running a stage program -/

/-- Whether an operator accepts a vector sample (R258). -/
def vectorOk (o : JetOp) (t : Tensor) : Bool :=
  o.op == 0x0100 || o.op == 0x0101 || o.op == 0x010A || o.op == 0x0200 || t.shape == .image

/-- An operator's result, or GEOMETRY where a side of it is 0 or above 16,384 (R266). -/
def jetOut (r : Tensor) (cycles : Nat) : JetRes := if badSize r.w r.h then .reject 0x21 else .ok r cycles

/-- One operator other than SIEVE (R258, R266). `rd` reads little-endian numbers from the stage's constants. -/
def runOp (rd : Nat → Nat → Nat) (key : Quad) (g : Nat) (o : JetOp) (t : Tensor) : JetRes :=
  let w := t.w
  let h := t.h
  let ok1 := fun (r : Tensor) => jetOut r (elemCycles r)
  let cubic := bitOf o.flags 0
  if !vectorOk o t then .reject 0x22
  else
    match o.op with
    | 0x0100 => ok1 { t with dtype := o.outType t, elems := t.elems.map (convElem t.dtype (o.outType t) o.sat) }
    | 0x0101 => ok1 { t with dtype := o.outType t, elems := t.elems.zipIdx.map (normaliseElem o t) }
    | 0x0102 =>
      let (ow, oh) := (dimW (o.par 0), dimH (o.par 0))
      if badSize ow oh then .reject 0x21 else .ok (resizeWindow o t cubic 0 0 w h ow oh) (resizeCycles cubic ow oh)
    | 0x0103 =>
      let (cw, ch) := (dimW (o.par 0), dimH (o.par 0))
      if badSize cw ch ∨ w < cw ∨ h < ch then .reject 0x21
      else ok1 (geomTensor o t cw ch (fun x y => (x + (w - cw) / 2, y + (h - ch) / 2)))
    | 0x0104 =>
      let (cw, ch) := (dimW (o.par 0), dimH (o.par 0))
      if badSize cw ch ∨ w < cw ∨ h < ch then .reject 0x21
      else
        let x0 := drawUniform (o.draw key g 0 0) (w - cw + 1)
        let y0 := drawUniform (o.draw key g 0 1) (h - ch + 1)
        let flip := decide (o.draw key g 0 2 < o.par 1)
        ok1 (geomTensor o t cw ch (fun x y => (x0 + (if flip then cw - 1 - x else x), y0 + y)))
    | 0x0105 =>
      let (ow, oh) := (dimW (o.par 0), dimH (o.par 0))
      if badSize ow oh then .reject 0x21
      else
        let (cw, ch, x0, y0) := rrcCrop o key g w h
        .ok (resizeWindow o t cubic x0 y0 cw ch ow oh) (40 + resizeCycles cubic ow oh)
    | 0x0106 =>
      ok1 (geomTensor o t w h (fun x y =>
        (if bitOf o.flags 0 then w - 1 - x else x, if bitOf o.flags 1 then h - 1 - y else y)))
    | 0x0107 =>
      let k := if bitOf o.flags 0 then drawUniform (o.draw key g 0 0) 4 else o.par 0 % 4
      ok1 (match k with
        | 1 => geomTensor o t h w (fun x y => (w - 1 - y, x))
        | 2 => geomTensor o t w h (fun x y => (w - 1 - x, h - 1 - y))
        | 3 => geomTensor o t h w (fun x y => (y, h - 1 - x))
        | _ => geomTensor o t w h (fun x y => (x, y)))
    | 0x0108 => jetOut (affineTensor o key g t) (resizeCycles cubic w h)
    | 0x0109 =>
      if t.c < 3 then .reject 0x22
      else let r := jitterTensor o key g t; jetOut r (2 * elemCycles r)
    | 0x010A => if t.dtype = 1 ∨ t.dtype = 2 then ok1 (lutTensor rd o t) else .reject 0x22
    | 0x010B => if t.c < 3 then .reject 0x22 else ok1 (matrixTensor rd o t)
    | 0x010C =>
      let (l, tp) := (dimW (o.par 0), dimH (o.par 0))
      let (r, b) := (dimW (o.par 1), dimH (o.par 1))
      if badSize (w + l + r) (h + tp + b) then .reject 0x21
      else
        let fill := o.par 2 % 2 ^ (8 * dtypeBytes t.dtype)
        ok1 (imageBy (w + l + r) (h + tp + b) t.c (o.outType t) (fun x y ch =>
          convElem t.dtype (o.outType t) o.sat
            (if l ≤ x ∧ x < l + w ∧ tp ≤ y ∧ y < tp + h then t.px (x - l) (y - tp) ch else fill)))
    | 0x010D => ok1 (eraseTensor o key g t)
    | _ => .reject 0x22

/-- What a Jet stage makes of a sample: its content or a reason, its cycles, and what its counters and last score
take: sieves kept and dropped, MACs, the last score, and whether a chunk saturated (R253). -/
structure JetRun where
  out : Option Tensor
  reason : Nat
  cycles : Nat
  keeps : Nat
  drops : Nat
  macs : Nat
  score : Option F32
  saturated : Bool
  deriving DecidableEq, Repr

/-- The cycles that the rest of a program takes on a sample: of the operators up to and with its end, or up to one that
rejects its input and 16 cc (R255). A sieve takes the same whether it keeps or drops (R273), so the rest runs on. -/
def restCycles (rd : Nat → Nat → Nat) (key : Quad) (g workMax : Nat) : List JetOp → Tensor → Nat
  | [], _ => 0
  | o :: os, t =>
    if o.op = 0x0200 then
      match runSieve rd o t with
      | .scored _ _ cyc _ _ => 8 + cyc + restCycles rd key g workMax os t
      | .reject _ => 16
    else
      match runOp rd key g o t with
      | .reject _ => 16
      | .ok t' cyc => if workMax < t'.byteLen then 16 else 8 + cyc + restCycles rd key g workMax os t'

/-- Runs the operators in order (R254, R255). An operator that rejects the sample ends the program: nothing after it works
on the sample or counts. Where a sieve drops it, the stage's cycle count is the one that keeping it gives (R273).
(DEDUCED, assumption 27.) -/
def runOps (rd : Nat → Nat → Nat) (key : Quad) (g workMax : Nat) : List JetOp → Tensor → JetRun → JetRun
  | [], t, r => { r with out := some t }
  | o :: os, t, r =>
    let stop := fun (reason : Nat) => { r with out := none, reason := reason, cycles := r.cycles + 16 }
    if o.op = 0x0200 then
      match runSieve rd o t with
      | .scored s reason cyc macs sat =>
        let r1 := { r with
          cycles := r.cycles + 8 + cyc, macs := r.macs + macs, score := some s, saturated := r.saturated || sat }
        if reason = 0 then runOps rd key g workMax os t { r1 with keeps := r1.keeps + 1 }
        else { r1 with
          out := none, drops := r1.drops + 1, reason := reason, cycles := r1.cycles + restCycles rd key g workMax os t }
      | .reject c => stop c
    else
      match runOp rd key g o t with
      | .reject c => stop c
      | .ok t' cyc =>
        if workMax < t'.byteLen then stop 0x24
        else runOps rd key g workMax os t' { r with cycles := r.cycles + 8 + cyc }

/-- A Jet stage on a sample (R255): plain bytes enter as a vector of UINT8. -/
def runJet (rd : Nat → Nat → Nat) (key : Quad) (g : Nat) (cfg : List Byte) (t : Tensor) : JetRun :=
  let t0 := if t.shape = .bytes then { t with shape := .vector } else t
  if t0.shape = .image ∧ (t0.c < 1 ∨ 4 < t0.c) then ⟨none, 0x22, 16, 0, 0, 0, none, false⟩
  else runOps rd key g (jetWorkMax cfg) (jetOps cfg) t0 ⟨none, 0, 0, 0, 0, 0, none, false⟩

end Sys2Proof.Machine
end

