-- ==== Sys2Proof/Machine/JetCheck.lean ====
section
/-! DEFINITION. The loader's checks of a Jet stage's configuration and of the sieve descriptors it names (R254,
R257, R274). -/
namespace Sys2Proof.Machine

/-- A byte of the constants of a weave at a Reservoir byte address; zero where no record holds it. -/
def constByte (cs : List ConstRec) (a : Nat) : Byte :=
  match cs.find? (fun c =>
      let w := c.bank * 4096 + c.word
      decide (w * 64 ≤ a) && decide (a < w * 64 + c.data.length)) with
  | some c => c.data.getD (a - (c.bank * 4096 + c.word) * 64) 0#8
  | none => 0#8

/-- A little-endian number of `k` bytes of the constants. -/
def constRead (cs : List ConstRec) (a k : Nat) : Nat :=
  leNat ((List.range k).map (fun i => constByte cs (a + i)))

/-- Whether `k` bytes from a Reservoir byte address lie in banks that a stage owns (R257). -/
def extentOwned (owners : List Nat) (rill stage a k : Nat) : Bool :=
  (List.range ((a + k - 1) / 262144 - a / 262144 + 1)).all (fun i =>
    let w := owners.getD (a / 262144 + i) 0
    boClass w == 1 && boRill w == rill && boStage w == stage && decide (a / 262144 + i < 1024))

/-- Banks a stage owns. -/
def ownedBanks (owners : List Nat) (rill stage : Nat) : Nat :=
  owners.countP (fun w => boClass w == 1 && boRill w == rill && boStage w == stage)

/-- Flag bits an operator gives a meaning (R258), SAT aside. -/
def opFlagMask : Nat → Nat
  | 0x0102 => 1
  | 0x0105 => 1
  | 0x0106 => 3
  | 0x0107 => 1
  | 0x0108 => 3
  | 0x0200 => 1
  | _ => 0

/-- Parameters an operator uses; none for a reserved code (R258). -/
def opParams : Nat → Option Nat
  | 0x0100 => some 0
  | 0x0101 => some 6
  | 0x0102 => some 1
  | 0x0103 => some 1
  | 0x0104 => some 2
  | 0x0105 => some 5
  | 0x0106 => some 0
  | 0x0107 => some 1
  | 0x0108 => some 5
  | 0x0109 => some 4
  | 0x010A => some 1
  | 0x010B => some 1
  | 0x010C => some 3
  | 0x010D => some 4
  | 0x0200 => some 2
  | _ => none

/-- Bytes of a layer's weights (R272). -/
def layerWeightBytes (l : SieveLayer) : Nat :=
  let wb := dtypeBytes l.wDtype
  match l.type with
  | 1 => ceilDiv l.cOut 32 * ceilDiv (l.k * l.k * l.cIn) 32 * (1024 * wb)
  | 2 => ceilDiv l.cOut 32 * (l.k * l.k) * 64
  | 6 => ceilDiv l.cOut 32 * ceilDiv l.cIn 32 * (1024 * wb)
  | 7 => l.buckets * alignUp 64 (l.cOut * wb)
  | _ => 0

def layerHasScale (l : SieveLayer) : Bool := l.type == 1 || l.type == 2 || l.type == 6
def layerScaleBytes (l : SieveLayer) : Nat := if layerHasScale l then 2 * alignUp 64 (4 * l.cOut) else 0
def layerTableBytes (l : SieveLayer) : Nat := if l.act = 2 then 1027 * 4 else 0

/-- The operand combinations of R247 and R269. -/
def operandsOk (l : SieveLayer) : Bool :=
  let six := fun d => decide (1 ≤ d) && decide (d ≤ 6)
  match l.type with
  | 7 => six l.aDtype && six l.wDtype
  | 3 => six l.aDtype && l.wDtype == l.aDtype
  | 4 => six l.aDtype && l.wDtype == l.aDtype
  | 5 => six l.aDtype && l.wDtype == l.aDtype
  | _ =>
    ((l.aDtype == 1 || l.aDtype == 2) && l.wDtype == 2)
    || ((l.aDtype == 3 || l.aDtype == 4) && (l.wDtype == 3 || l.wDtype == 4))
    || (l.aDtype == 5 && l.wDtype == 5) || (l.aDtype == 6 && l.wDtype == 6)

/-- The limits of R268 for a layer fed with `h` × `w` × `c`; `first` and `tokens` for EMBED. -/
def layerLimitsOk (l : SieveLayer) (h w c : Nat) (first tokens : Bool) : Bool :=
  let range := fun lo hi v => decide (lo ≤ v) && decide (v ≤ hi)
  let outOk := l.hOut == (h + 2 * l.pad - l.k) / max 1 l.stride + 1 && l.wOut == (w + 2 * l.pad - l.k) / max 1 l.stride + 1
    && decide (l.k ≤ h + 2 * l.pad) && decide (l.k ≤ w + 2 * l.pad)
  let flat := l.k == 1 && l.stride == 1 && l.pad == 0 && l.hOut == 1 && l.wOut == 1
  let padOk := decide (2 * l.pad + 1 ≤ l.k)
  match l.type with
  | 1 => l.k % 2 == 1 && range 1 7 l.k && range 1 4 l.stride && padOk && range 1 1024 l.cIn && range 1 1024 l.cOut
      && l.cIn == c && outOk && !(first && tokens)
  | 2 => (l.k == 3 || l.k == 5 || l.k == 7) && range 1 2 l.stride && padOk && l.cIn == l.cOut && l.cIn == c
      && outOk && !(first && tokens)
  | 3 => range 2 3 l.k && range 1 3 l.stride && padOk && l.cIn == l.cOut && l.cIn == c && outOk && !(first && tokens)
  | 4 => range 2 3 l.k && range 1 3 l.stride && padOk && l.cIn == l.cOut && l.cIn == c && outOk && !(first && tokens)
  | 5 => flat && l.cIn == c && l.cOut == c && !(first && tokens)
  | 6 => flat && range 1 4096 l.cIn && range 1 4096 l.cOut && l.cIn == h * w * c && !(first && tokens)
  | 7 => flat && first && tokens && l.cIn == c && range 1 65536 l.buckets && range 1 256 l.cOut
  | _ => false

/-- The layers of a descriptor against R267 to R269, and the extents they name. -/
def layersOk (rd : Nat → Nat → Nat) (owned : Nat → Nat → Bool) (tokens : Bool) :
    Bool → Nat → Nat → Nat → Nat → List SieveLayer → Bool
  | _, _, _, _, _, [] => true
  | first, a, h, w, c, l :: ls =>
    let addrOk := fun v n => decide (v < 2 ^ 22) && owned (constAddr v) n
    layerLimitsOk l h w c first tokens && operandsOk l && decide (l.act ≤ 2) && rd (a + 7) 1 == 0
    && (if layerWeightBytes l = 0 then true else addrOk l.weights (layerWeightBytes l))
    && (if layerHasScale l then addrOk l.scale (layerScaleBytes l) else true)
    && (if l.act = 2 then addrOk l.table 4108 else l.table == 0)
    && (l.type == 7 || l.buckets == 0)
    && layersOk rd owned tokens false (a + 32) l.hOut l.wOut l.cOut ls

/-- Whether a sieve descriptor at a constant address is refused (R274). (DEDUCED, assumption 97.) -/
def sieveBad (rd : Nat → Nat → Nat) (owned : Nat → Nat → Bool) (v : Nat) : Bool :=
  let a := constAddr v
  let d := sieveAt rd a
  let n := rd (a + 2) 1
  decide (2 ^ 22 ≤ v) || !owned a 32 || rd a 2 != 1 || decide (n < 1) || decide (64 < n) || decide (1 < rd (a + 3) 1)
  || !owned a (32 + 32 * n)
  || (if d.tokens then d.inH != 1 || decide (d.inW < 1) || decide (8192 < d.inW) || d.inC != 1
      else decide (d.inH < 1) || decide (512 < d.inH) || decide (d.inW < 1) || decide (512 < d.inW)
        || decide (d.inC < 1) || decide (4 < d.inC))
  || rd (a + 9) 1 != 0 || rd (a + 16) 8 != 0 || rd (a + 24) 8 != 0
  || !layersOk rd owned d.tokens true (a + 32) d.inH d.inW d.inC d.layers
  || (match d.layers.getLast? with
      | some l => decide (l.hOut * l.wOut * l.cOut ≤ d.scoreIndex)
      | none => true)
  || rd (a + 12) 4 != (d.layers.map (fun l => layerWeightBytes l + layerScaleBytes l + layerTableBytes l)).sum
  || decide (64 * 2 ^ 20 < rd (a + 12) 4)

/-- Whether an FP32 parameter lies in [0, 1]. -/
def f32Unit (v : Nat) : Bool := f32Le 0 v && f32Le v 0x3F800000

/-- Whether an operator record breaks the ranges of R254, R257 and R258. -/
def jetOpBad (owned : Nat → Nat → Bool) (b : List Byte) : Bool :=
  let o := jetOpOf b
  match opParams o.op with
  | none => true
  | some n =>
    leAt b 5 3 != 0 || (o.outDtype != 0 && dtypeBytes o.outDtype == 0)
    || o.flags % 128 % (opFlagMask o.op + 1) != o.flags % 128
    || (List.range 6).any (fun i => decide (n ≤ i) && o.par i != 0)
    || (o.op == 0x0107 && decide (3 < o.par 0))
    || (o.op == 0x0108 && (decide (1024 < o.par 0) || decide (4096 < o.par 3)))
    || (o.op == 0x0109 && !(f32Unit (o.par 0) && f32Unit (o.par 1) && f32Unit (o.par 2)))
    || (o.op == 0x010A && (decide (2 ^ 22 ≤ o.par 0)
          || !owned (constAddr (o.par 0)) (alignUp 64 (256 * max 1 (dtypeBytes o.outDtype)))))
    || (o.op == 0x010B && (decide (2 ^ 22 ≤ o.par 0) || !owned (constAddr (o.par 0)) 48))

/-- The byte offset within a Jet's STAGE_CONFIG record of what the loader refuses (R257, R274). -/
def jetCfgBad (cs : List ConstRec) (owners : List Nat) (rill stage : Nat) (cfg : List Byte) : Option Nat :=
  let owned := extentOwned owners rill stage
  let n := jetOpCount cfg
  if n < 1 ∨ 16 < n ∨ cfg.length ≠ 16 + 32 * n ∨ leAt cfg 10 2 ≠ 0 ∨ jetWorkMax cfg % 64 ≠ 0
      ∨ ownedBanks owners rill stage * 262144 < jetWorkMax cfg then some 0
  else
    ((List.range n).find? (fun i =>
      let b := (cfg.drop (16 + 32 * i)).take 32
      jetOpBad owned b
      || (leAt b 0 2 == 0x0200 && sieveBad (constRead cs) owned (leAt b 8 4)))).map (fun i => 16 + 32 * i)

end Sys2Proof.Machine
end

