-- ==== Sys2Proof/Machine/Reed.lean ====
section
/-! DEFINITION. Reed: vocabulary images and their checks (R283 to R286), encoding (R288 to R292), detokenising and
stop strings (R293 to R295), and stage cycles (R296). -/
namespace Sys2Proof.Machine

/-- A token-table entry (R285). -/
structure VocabTok where
  ofs : Nat
  len : Nat
  kind : Nat
  rest : Nat
  deriving DecidableEq, Repr

/-- A vocabulary as its image gives it (R283 to R285). -/
structure Vocab where
  entries : Nat
  byteBase : Nat
  nodes : List Nat
  edges : List Nat
  toks : List VocabTok
  heap : List Byte
  maxLen : Nat
  spacePrefix : Bool
  digitMax : Nat
  deriving DecidableEq, Repr

def vocabTokOf (b : List Byte) : VocabTok := ⟨leAt b 0 5, leAt b 5 1, leAt b 6 1, leAt b 7 1⟩

def vocabOf (img : List Byte) : Vocab where
  entries := leAt img 12 4
  byteBase := leAt img 16 4
  nodes := (List.range (leAt img 20 4)).map (fun i => leAt (img.drop (leAt img 24 4 + 8 * i)) 0 8)
  edges := (List.range (leAt img 20 4 - 1)).map (fun i => leAt (img.drop (leAt img 28 4 + 4 * i)) 0 4)
  toks := (List.range (leAt img 12 4)).map (fun i => vocabTokOf (img.drop (leAt img 32 4 + 8 * i)))
  heap := img.drop (leAt img 36 4)
  maxLen := leAt img 40 1
  spacePrefix := bitOf (leAt img 41 1) 0
  digitMax := leAt img 42 1

/-- The fields of node and edge words (R284). -/
def nodeAccept (w : Nat) : Bool := bitOf w 63
def nodeToken (w : Nat) : Nat := bitsOf w 62 42
def nodeEdges (w : Nat) : Nat := bitsOf w 32 24
def nodeFirst (w : Nat) : Nat := bitsOf w 23 0
def edgeByte (w : Nat) : Nat := bitsOf w 31 24
def edgeChild (w : Nat) : Nat := bitsOf w 23 0

def Vocab.node (v : Vocab) (n : Nat) : Nat := v.nodes.getD n 0
def Vocab.tok (v : Vocab) (t : Nat) : VocabTok := v.toks.getD t ⟨0, 0, 3, 0⟩
def Vocab.str (v : Vocab) (t : Nat) : List Byte := (v.heap.drop (v.tok t).ofs).take (v.tok t).len

/-- The edge words of a node. -/
def Vocab.edgesOf (v : Vocab) (n : Nat) : List Nat := (v.edges.drop (nodeFirst (v.node n))).take (nodeEdges (v.node n))

/-- The child of a node on a byte (R291). -/
def Vocab.child (v : Vocab) (n : Nat) (b : Byte) : Option Nat :=
  ((v.edgesOf n).find? (fun e => edgeByte e == b.toNat)).map edgeChild

/-- What the start of a byte list is in well-formed UTF-8: a code point with its length, or a maximal ill-formed
subpart's length (R288). -/
inductive Utf8 where
  | ok (cp len : Nat)
  | bad (len : Nat)
  deriving DecidableEq, Repr

def inR (lo hi : Nat) (b : Byte) : Bool := decide (lo ≤ b.toNat) && decide (b.toNat ≤ hi)

/-- The range of the second byte after a lead byte, and how many bytes the sequence has; none for no lead byte. -/
def utf8Lead (b : Nat) : Option (Nat × Nat × Nat) :=
  if 0xC2 ≤ b ∧ b ≤ 0xDF then some (2, 0x80, 0xBF)
  else if b = 0xE0 then some (3, 0xA0, 0xBF)
  else if b = 0xED then some (3, 0x80, 0x9F)
  else if 0xE1 ≤ b ∧ b ≤ 0xEF then some (3, 0x80, 0xBF)
  else if b = 0xF0 then some (4, 0x90, 0xBF)
  else if 0xF1 ≤ b ∧ b ≤ 0xF3 then some (4, 0x80, 0xBF)
  else if b = 0xF4 then some (4, 0x80, 0x8F)
  else none

def utf8At : List Byte → Utf8
  | [] => .bad 0
  | b :: bs =>
    if b.toNat < 0x80 then .ok b.toNat 1
    else
      match utf8Lead b.toNat with
      | none => .bad 1
      | some (n, lo, hi) =>
        match bs with
        | [] => .bad 1
        | c :: cs =>
          if !inR lo hi c then .bad 1
          else if n = 2 then .ok ((b.toNat % 32) * 64 + c.toNat % 64) 2
          else
            match cs with
            | [] => .bad 2
            | d :: ds =>
              if !inR 0x80 0xBF d then .bad 2
              else if n = 3 then .ok ((b.toNat % 16) * 4096 + (c.toNat % 64) * 64 + d.toNat % 64) 3
              else
                match ds with
                | [] => .bad 3
                | e :: _ =>
                  if !inR 0x80 0xBF e then .bad 3
                  else .ok ((b.toNat % 8) * 262144 + (c.toNat % 64) * 4096 + (d.toNat % 64) * 64 + e.toNat % 64) 4

/-- Whether bytes are well-formed UTF-8; `fuel` bounds the code points. -/
def wellFormed : Nat → List Byte → Bool
  | _, [] => true
  | 0, _ => false
  | fuel + 1, bs => match utf8At bs with
    | .ok _ n => wellFormed fuel (bs.drop n)
    | .bad _ => false

/-! ### Image checks (R286) -/

def veHeader : Nat := 1
def veLayout : Nat := 2
def veTokens : Nat := 3
def veTrie : Nat := 4
def veInUse : Nat := 5

def vocabHeaderBad (img : List Byte) (count : Nat) : Bool :=
  leAt img 0 4 != 0x44454552 || leAt img 4 2 != 1 || leAt img 6 2 != 64 || leAt img 60 4 != crc32c (img.take 60)
  || leAt img 43 17 != 0 || decide (1 < leAt img 41 1) || count != leAt img 8 4

def vocabLayoutBad (img : List Byte) : Bool :=
  let total := leAt img 8 4
  let n := leAt img 20 4
  let e := leAt img 12 4
  let (a, b, c, d) := (leAt img 24 4, leAt img 28 4, leAt img 32 4, leAt img 36 4)
  total % 64 != 0 || decide (2 ^ 30 < total) || decide (e < 257) || decide (2 ^ 21 < e)
  || decide (n < 1) || decide (2 ^ 24 < n) || decide (e < leAt img 16 4 + 256)
  || decide (leAt img 40 1 < 1) || decide (8 < leAt img 42 1)
  || a % 64 != 0 || b % 64 != 0 || c % 64 != 0 || d % 64 != 0
  || decide (a < 64) || decide (b < a + 8 * n) || decide (c < b + 4 * (n - 1)) || decide (d < c + 8 * e)
  || decide (total < d)

/-- Whether a token-table entry breaks R285. -/
def vocabTokBad (v : Vocab) (t : Nat) : Bool :=
  let k := v.tok t
  let s := v.str t
  k.rest != 0 || decide (3 < k.kind) || decide (v.heap.length < k.ofs + k.len)
  || ((decide (v.byteBase ≤ t) && decide (t < v.byteBase + 256)) != (k.kind == 1))
  || (k.kind == 1 && s != [byteOf (t - v.byteBase)])
  || (k.kind == 0 && (decide (k.len < 1) || decide (v.maxLen < k.len)))
  || (k.kind == 2 && (decide (k.len < 1) || decide (63 < k.len) || !wellFormed 63 s))

def Vocab.specials (v : Vocab) : List Nat := (List.range v.entries).filter (fun t => (v.tok t).kind == 2)

def distinctStrs : List (List Byte) → Bool
  | [] => true
  | s :: l => !l.contains s && distinctStrs l

def vocabTokensBad (v : Vocab) : Bool :=
  (List.range v.entries).any (vocabTokBad v) || decide (1024 < v.specials.length)
  || !distinctStrs (v.specials.map v.str)

/-- Whether edge bytes ascend strictly (R284). -/
def edgesAscend : List Nat → Bool
  | [] => true
  | [_] => true
  | a :: b :: l => decide (edgeByte a < edgeByte b) && edgesAscend (b :: l)

/-- Walks the trie from the nodes waiting, each with its path; answers the nodes seen, none where TRIE fails. -/
def trieWalk (v : Vocab) : Nat → List (Nat × List Byte) → List Nat → Option (List Nat)
  | _, [], seen => some seen
  | 0, _ :: _, _ => none
  | fuel + 1, (n, path) :: rest, seen =>
    let w := v.node n
    let es := v.edgesOf n
    let kids := es.map (fun e => (edgeChild e, path ++ [byteOf (edgeByte e)]))
    if seen.contains n ∨ v.maxLen < path.length ∨ bitsOf w 41 33 ≠ 0 ∨ 256 < nodeEdges w
        ∨ es.length ≠ nodeEdges w ∨ edgesAscend es = false
        ∨ kids.any (fun k => decide (v.nodes.length ≤ k.1)) then none
    else if nodeAccept w ∧ ((v.tok (nodeToken w)).kind ≠ 0 ∨ v.entries ≤ nodeToken w ∨ v.str (nodeToken w) ≠ path) then
      none
    else if nodeAccept w = false ∧ nodeToken w ≠ 0 then none
    else trieWalk v fuel (kids ++ rest) (n :: seen)

def vocabTrieBad (v : Vocab) : Bool :=
  match trieWalk v (v.nodes.length + 1) [(0, [])] [] with
  | some seen => seen.length != v.nodes.length
  | none => true

/-- The first failing check of a vocabulary image (R286), 0 where it passes. -/
def vocabErr (img : List Byte) (count : Nat) : Nat :=
  if vocabHeaderBad img count then veHeader
  else if vocabLayoutBad img then veLayout
  else if vocabTokensBad (vocabOf img) then veTokens
  else if vocabTrieBad (vocabOf img) then veTrie
  else 0

/-! ### Stage configuration (R281) -/

structure ReedCfg where
  mode : Nat
  vocabSlot : Nat
  utf8Reject : Bool
  specialText : Bool
  action : Nat
  vocabTag : Nat
  pieceMax : Nat
  stopCount : Nat
  ioDtype : Nat
  stopTable : Nat
  outMax : Nat
  pinBytes : Nat
  deriving DecidableEq, Repr

def reedCfgOf (b : List Byte) : ReedCfg where
  mode := leAt b 8 1
  vocabSlot := leAt b 9 1
  utf8Reject := bitOf (leAt b 10 1) 0
  specialText := bitOf (leAt b 10 1) 1
  action := leAt b 11 1
  vocabTag := leAt b 12 8
  pieceMax := leAt b 20 2
  stopCount := leAt b 22 1
  ioDtype := leAt b 23 1
  stopTable := leAt b 24 4
  outMax := leAt b 28 4
  pinBytes := leAt b 32 4

/-- Whether a Reed body breaks the ranges of R281; `owned` says whether an extent lies in the stage's banks, `rd`
reads the constants. -/
def reedCfgBad (rd : Nat → Nat → Nat) (owned : Nat → Nat → Bool) (b : List Byte) : Bool :=
  let c := reedCfgOf b
  let a := (bitsOf c.stopTable 21 12 * 4096 + bitsOf c.stopTable 11 0) * 64
  b.length != 40 || decide (2 < c.mode) || decide (3 < c.vocabSlot) || decide (3 < leAt b 10 1) || decide (3 < c.action)
  || decide (c.pieceMax < 16) || decide (4096 < c.pieceMax) || decide (16 < c.stopCount)
  || (c.stopCount == 0 && (c.action != 0 || c.stopTable != 0)) || !(c.ioDtype == 8 || c.ioDtype == 11)
  || decide (2 ^ 22 ≤ c.stopTable) || (c.stopCount != 0 && !owned a (64 * c.stopCount))
  || decide (c.outMax < 1) || decide (2 ^ 24 < c.outMax) || c.pinBytes % 64 != 0 || decide (524288 < c.pinBytes)
  || leAt b 36 4 != 0
  || (c.stopCount != 0 && (List.range c.stopCount).any (fun i =>
        let n := rd (a + 64 * i) 1
        decide (n < 1) || decide (63 < n)
        || (List.range 63).any (fun j => decide (n ≤ j) && rd (a + 64 * i + 1 + j) 1 != 0)))

/-- The stop strings of a stage, read from its constants. -/
def reedStops (rd : Nat → Nat → Nat) (c : ReedCfg) : List (List Byte) :=
  let a := (bitsOf c.stopTable 21 12 * 4096 + bitsOf c.stopTable 11 0) * 64
  (List.range c.stopCount).map (fun i =>
    (List.range (min 63 (rd (a + 64 * i) 1))).map (fun j => byteOf (rd (a + 64 * i + 1 + j) 1)))

/-! ### Encoding -/

/-- The longest string of a list that begins a byte list. -/
def longestPrefix (bs : List Byte) : List (List Byte) → Option (List Byte)
  | [] => none
  | s :: l =>
    match longestPrefix bs l with
    | some t => if s.isPrefixOf bs ∧ t.length < s.length then some s else some t
    | none => if s.isPrefixOf bs ∧ s ≠ [] then some s else none

/-- A part of the input after the first two passes: bytes for BYTE tokens, or a code point. -/
inductive ReedItem where
  | raw (bs : List Byte)
  | chr (cp : Nat) (bs : List Byte)
  deriving DecidableEq, Repr

/-- The escape and UTF-8 passes (R288): items in order, escapes counted, and the input bytes up to the first
ill-formed subpart's end where UTF8_REJECT finds one. `plain` says that no escape may begin before the next byte that
follows; a code point never crosses an escape's start. -/
def passItems (specials : List (List Byte)) (reject : Bool) :
    Nat → Nat → List Byte → List ReedItem × Nat × Option Nat
  | 0, _, _ => ([], 0, none)
  | fuel + 1, pos, bs =>
    match bs with
    | [] => ([], 0, none)
    | _ :: _ =>
      match longestPrefix bs specials with
      | some s =>
        let (l, k, f) := passItems specials reject fuel (pos + s.length) (bs.drop s.length)
        (.raw s :: l, k + 1, f)
      | none =>
        -- a code point is taken from the span up to the next escape
        let span := bs.take (1 + (((List.range 3).find? (fun i =>
          (longestPrefix (bs.drop (i + 1)) specials).isSome)).getD 3))
        match utf8At span with
        | .ok cp n =>
          let (l, k, f) := passItems specials reject fuel (pos + n) (bs.drop n)
          (.chr cp (bs.take n) :: l, k, f)
        | .bad n =>
          let n := max 1 n
          if reject then ([], 0, some (pos + n))
          else
            let (l, k, f) := passItems specials reject fuel (pos + n) (bs.drop n)
            (.raw (bs.take n) :: l, k, f)

/-- The class that the database of R289 gives a code point: 0 letter, 1 mark, 2 number, 3 white space, 4 other.
(PRESUMED, assumption 113.) -/
def ucdClass (cp : Nat) : Nat :=
  if cp < 128 then
    if (65 ≤ cp ∧ cp ≤ 90) ∨ (97 ≤ cp ∧ cp ≤ 122) then 0
    else if 48 ≤ cp ∧ cp ≤ 57 then 2
    else if (9 ≤ cp ∧ cp ≤ 13) ∨ cp = 32 then 3
    else 4
  else if inRanges ucdLetter cp then 0
  else if inRanges ucdMark cp then 1
  else if inRanges ucdNumber cp then 2
  else if inRanges ucdSpace cp then 3
  else 4

/-- The class of R289: 0 L, 1 N, 2 W, 3 P; a mark is L after a code point of class L. -/
def charClass (prev : Option Nat) (cp : Nat) : Nat :=
  match ucdClass cp with
  | 0 => 0
  | 1 => if prev = some 0 then 0 else 3
  | 2 => 1
  | 3 => 2
  | _ => 3

/-- A run: one class's code points, or a raw piece (class none). -/
structure Run where
  cls : Option Nat
  cps : List (Nat × List Byte)
  deriving DecidableEq, Repr

/-- Maximal runs of one class (R290), raw pieces apart. -/
def runsOf : Option Nat → List ReedItem → List Run
  | _, [] => []
  | _, .raw bs :: l => ⟨none, [(0, bs)]⟩ :: runsOf none l
  | prev, .chr cp bs :: l =>
    let c := charClass prev cp
    match runsOf (some c) l with
    | r :: rs => if r.cls = some c then ⟨some c, (cp, bs) :: r.cps⟩ :: rs else ⟨some c, [(cp, bs)]⟩ :: r :: rs
    | [] => [⟨some c, [(cp, bs)]⟩]

/-- Pieces of `n` code points; 0 keeps the run whole. `fuel` bounds their number. -/
def splitEvery (n : Nat) : Nat → List (Nat × List Byte) → List (List (Nat × List Byte))
  | 0, _ => []
  | fuel + 1, l =>
    if l = [] then [] else if n = 0 then [l] else l.take n :: splitEvery n fuel (l.drop n)

/-- A piece: raw bytes, or code points to match. -/
structure Piece where
  raw : Bool
  cps : List (Nat × List Byte)
  deriving DecidableEq, Repr

/-- Pre-split (R290); `lead` is a space that a run of W gave to the next piece. -/
def piecesOf (v : Vocab) : List (Nat × List Byte) → List Run → List Piece
  | _, [] => []
  | lead, r :: rs =>
    match r.cls with
    | none => ⟨true, r.cps⟩ :: piecesOf v [] rs
    | some 2 =>
      let next : Bool := match rs with | n :: _ => n.cls == some 0 || n.cls == some 1 || n.cls == some 3 | [] => false
      match r.cps.getLast? with
      | some (cp, bs) =>
        if v.spacePrefix ∧ cp = 32 ∧ next then
          let body := r.cps.dropLast
          if body = [] then piecesOf v [(cp, bs)] rs else ⟨false, body⟩ :: piecesOf v [(cp, bs)] rs
        else ⟨false, r.cps⟩ :: piecesOf v [] rs
      | none => piecesOf v [] rs
    | some 1 =>
      match splitEvery v.digitMax r.cps.length r.cps with
      | [] => piecesOf v [] rs
      | p :: ps => ⟨false, lead ++ p⟩ :: (ps.map (fun q => ⟨false, q⟩)) ++ piecesOf v [] rs
    | some _ => ⟨false, lead ++ r.cps⟩ :: piecesOf v [] rs

/-- Cuts a piece before the code point that would pass PIECE_MAX bytes (R290). -/
def cutPiece (pieceMax : Nat) : Nat → List (List Byte) → List (Nat × List Byte) → List (List Byte)
  | _, acc, [] => if acc = [] then [] else [acc.flatten]
  | used, acc, (_, bs) :: l =>
    if acc ≠ [] ∧ pieceMax < used + bs.length then acc.flatten :: cutPiece pieceMax bs.length [bs] l
    else cutPiece pieceMax (used + bs.length) (acc ++ [bs]) l

/-- The longest match from a node (R291): `depth` bytes are left of MAX_LEN; `best` is the best so far. -/
def trieMatch (v : Vocab) : Nat → Nat → Nat → List Byte → Option (Nat × Nat) → Option (Nat × Nat)
  | 0, _, _, _, best => best
  | _ + 1, _, _, [], best => best
  | depth + 1, node, used, b :: bs, best =>
    match v.child node b with
    | none => best
    | some n =>
      let best' := if nodeAccept (v.node n) then some (nodeToken (v.node n), used + 1) else best
      trieMatch v depth n (used + 1) bs best'

/-- Greedy longest match of a piece (R291): tokens, each with the bytes it covers. -/
def encodePiece (v : Vocab) : Nat → List Byte → List (Nat × Nat)
  | 0, _ => []
  | fuel + 1, bs =>
    match bs with
    | [] => []
    | b :: rest =>
      match trieMatch v v.maxLen 0 0 bs none with
      | some (t, n) => (t, n) :: encodePiece v fuel (bs.drop n)
      | none => (v.byteBase + b.toNat, 1) :: encodePiece v fuel rest

/-- The tokens of a piece. -/
def pieceTokens (v : Vocab) (pieceMax : Nat) (p : Piece) : List (Nat × Nat) :=
  if p.raw then (p.cps.flatMap (·.2)).map (fun b => (v.byteBase + b.toNat, 1))
  else (cutPiece pieceMax 0 [] p.cps).flatMap (fun bs => encodePiece v bs.length bs)

/-! ### Stop strings -/

/-- The longest stop string that ends a byte list given in reverse. -/
def stopEndsHere (stops : List (List Byte)) (rev : List Byte) : Nat :=
  (stops.filter (fun s => s.reverse.isPrefixOf rev)).map (·.length) |>.foldl max 0

/-- The scan of R294: start and end of the match that ends earliest, the longest of those. (DEDUCED, assumption 98.) -/
def stopScan (stops : List (List Byte)) : List Byte → Nat → List Byte → Option (Nat × Nat)
  | _, _, [] => none
  | rev, n, b :: bs =>
    let k := stopEndsHere stops (b :: rev)
    if 0 < k then some (n + 1 - k, n + 1) else stopScan stops (b :: rev) (n + 1) bs

/-- What a Reed stage makes of a sample: output elements or a reason, its cycles on hits, and what it counts. -/
structure ReedRun where
  out : Option (List Nat)
  reason : Nat
  cycles : Nat
  tokens : Nat
  escapes : Nat
  stops : Nat
  deriving DecidableEq, Repr

def encodeCycles (i : Nat) : Nat := max 1 (ceilDiv (18 * i) 25)
def checkCycles (n t : Nat) : Nat := max 1 (max (ceilDiv (18 * n) 5) (ceilDiv (18 * t) 25))

/-- ENCODE (R288 to R296). -/
def reedEncode (v : Vocab) (c : ReedCfg) (stops : List (List Byte)) (input : List Byte) : ReedRun :=
  let m := if stops = [] then none else stopScan stops [] 0 input
  let st := if m.isSome then 1 else 0
  match m, c.action with
  | some (_, e), 3 => ⟨none, 0x33, encodeCycles e, 0, 0, st⟩
  | _, _ =>
    let (cut, read) := match m, c.action with
      | some (s, e), 1 => (input.take s, e)
      | some (_, e), 2 => (input.take e, e)
      | _, _ => (input, input.length)
    let (items, esc, bad) := passItems (v.specials.map v.str) c.utf8Reject (cut.length + 1) 0 cut
    match bad with
    | some p => ⟨none, 0x30, encodeCycles p, 0, esc, st⟩
    | none =>
      let toks := (piecesOf v [] (runsOf none items)).flatMap (pieceTokens v c.pieceMax)
      if c.outMax < toks.length then
        ⟨none, 0x34, encodeCycles (((toks.take (c.outMax + 1)).map (·.2)).sum), c.outMax, esc, st⟩
      else ⟨some (toks.map (·.1)), 0, encodeCycles read, toks.length, esc, st⟩

/-- Whether a token has a text (R293). -/
def Vocab.known (v : Vocab) (t : Nat) : Bool := decide (t < v.entries) && decide ((v.tok t).kind < 3)

/-- The text of a token (R293). -/
def Vocab.text (v : Vocab) (special : Bool) (t : Nat) : List Byte :=
  if (v.tok t).kind = 2 ∧ special = false then [] else v.str t

/-- The index of the token that holds a text byte, from the text lengths of the tokens. -/
def tokenAtByte : Nat → List Nat → Nat → Nat
  | i, [], _ => i
  | i, n :: ns, b => if b < n then i else tokenAtByte (i + 1) ns (b - n)

/-- CHECK and DECODE (R293 to R296). `elems` are the input's elements; `whole` says that no element is partial.
(DEDUCED, assumption 98.) -/
def reedCheck (v : Vocab) (c : ReedCfg) (stops : List (List Byte)) (elems : List Nat) (whole : Bool) : ReedRun :=
  if !whole then ⟨none, 0x32, 1, 0, 0, 0⟩
  else
    let good := elems.takeWhile v.known
    let texts := good.map (v.text c.specialText)
    let text := texts.flatten
    let lens := texts.map (·.length)
    let m := if stops = [] then none else stopScan stops [] 0 text
    let st := if m.isSome then 1 else 0
    -- the work up to the element past OUT_MAX, and the tokens read by then
    let last := 1 + (if c.mode = 2 then tokenAtByte 0 lens c.outMax else c.outMax)
    let beyond : ReedRun := ⟨none, 0x34, checkCycles last ((lens.take last).sum), last, 0, st⟩
    let finish := fun (toks : List Nat) (bytes : List Byte) (n t : Nat) =>
      let o := if c.mode = 2 then bytes.map (·.toNat) else toks
      if c.outMax < o.length then beyond else ⟨some o, 0, checkCycles n t, n, 0, st⟩
    let past := decide (c.outMax < if c.mode = 2 then text.length else good.length)
    let all :=
      if good.length < elems.length ∧ past then beyond
      else if good.length < elems.length then
        (⟨none, 0x31, checkCycles (good.length + 1) text.length, good.length + 1, 0, st⟩ : ReedRun)
      else finish good text good.length text.length
    match m with
    | none => all
    | some (s, e) =>
      if c.action = 0 then all
      else
        let ts := tokenAtByte 0 lens s
        let te := tokenAtByte 0 lens (e - 1)
        let n := te + 1
        let t := ((lens.take n).sum)
        match c.action with
        | 1 => finish (good.take ts) (text.take s) n t
        | 2 => finish (good.take n) (text.take e) n t
        | _ => ⟨none, 0x33, checkCycles n t, n, 0, st⟩

end Sys2Proof.Machine
end

