-- ==== Sys2Proof/Machine/StageCfg.lean ====
section
/-! DEFINITION. The STAGE_CONFIG check of the loader (error 0x14): each engine type's body against its ranges
(R233, R243, R257, R274, R282, R394, R408). -/
namespace Sys2Proof.Machine

/-- The body of an Inlet intake stage (R394). -/
structure IntakeCfg where
  rejectPadded : Bool
  rejectTrunc : Bool
  rejectEst : Bool
  outFmt : Nat
  outType : Nat
  outMax : Nat
  deriving DecidableEq, Repr

def intakeCfgOf (b : List Byte) : IntakeCfg where
  rejectPadded := bitOf (leAt b 8 1) 0
  rejectTrunc := bitOf (leAt b 8 1) 1
  rejectEst := bitOf (leAt b 8 1) 2
  outFmt := leAt b 9 1
  outType := leAt b 10 1
  outMax := leAt b 12 4

def intakeCfgBad (b : List Byte) : Bool :=
  let c := intakeCfgOf b
  b.length != 24 || decide (7 < leAt b 8 1) || !(c.outFmt == 0 || c.outFmt == 2 || c.outFmt == 4)
  || !(c.outType == 1 || c.outType == 8) || leAt b 11 1 != 0 || decide (c.outMax < 1) || decide (2 ^ 24 < c.outMax)
  || leAt b 16 8 != 0

/-- The body of a Keeper software stage (R408). -/
structure KeeperCfg where
  imageHash : List Byte
  codecFirst : Nat
  codecLast : Nat
  argLen : Nat
  insnBudget : Nat
  outMax : Nat
  deriving DecidableEq, Repr

def keeperCfgOf (b : List Byte) : KeeperCfg where
  imageHash := (b.drop 8).take 48
  codecFirst := leAt b 56 1
  codecLast := leAt b 57 1
  argLen := leAt b 58 2
  insnBudget := leAt b 60 4
  outMax := leAt b 64 4

def keeperCfgBad (images : List (List Byte)) (b : List Byte) : Bool :=
  let c := keeperCfgOf b
  decide (b.length < 68) || !images.contains c.imageHash
  || (if c.codecFirst = 0 then c.codecLast != 0
      else decide (c.codecFirst < 0x80) || decide (0xFE < c.codecFirst) || decide (c.codecLast < c.codecFirst)
        || decide (0xFE < c.codecLast))
  || decide (4096 < c.argLen) || c.insnBudget == 0 || decide (c.outMax < 1) || decide (2 ^ 26 < c.outMax)
  || b.length != alignUp 8 (68 + c.argLen) || !allZero (b.drop (68 + c.argLen))

/-- The byte, within its record, at which a stage's configuration is refused; `vocabOk` judges a vocabulary slot, tag and
element type (R282). -/
def stageCfgBad (images : List (List Byte)) (vocabOk : Nat → Nat → Nat → Bool) (cs : List ConstRec) (owners : List Nat) (rill stage type : Nat)
    (b : List Byte) : Option Nat :=
  let at0 := fun (bad : Bool) => if bad then some 0 else none
  match type with
  | 1 => at0 (decCfgBad 0 b)
  | 2 => at0 (decCfgBad 1 b)
  | 3 => at0 (decCfgBad 2 b)
  | 4 => at0 (decCfgBad 3 b)
  | 5 => jetCfgBad cs owners rill stage b
  | 6 =>
    let c := reedCfgOf b
    at0 (reedCfgBad (constRead cs) (extentOwned owners rill stage) b || !vocabOk c.vocabSlot c.vocabTag c.ioDtype)
  | 7 => at0 (packCfgBad b)
  | 8 => at0 (keeperCfgBad images b)
  | 9 => at0 (intakeCfgBad b)
  | _ => some 0

/-- The first stage configuration of an image that is refused: its error and the byte offset in the image. -/
def stageCfgCheck (images : List (List Byte)) (vocabOk : Nat → Nat → Nat → Bool) (img : List Byte) :
    Option (Nat × Nat) :=
  let cs := (constsOf img).map (·.2.2)
  let owners := ownersOf img
  ((toposOf img).zip (cfgsOf img)).findSome? (fun e =>
    (stageCfgBad images vocabOk cs owners e.1.rill e.1.stage e.1.type e.2.2).map (fun k => (weStageConfig, e.2.1 + k)))

end Sys2Proof.Machine
end

