-- ==== Sys2Proof/Machine/StageOps.lean ====
section
/-! DEFINITION. What a stage of a Rill makes of a sample (R220 to R223, R255, R279 to R296, R394, R408 to R410): its
engine, its output or rejection, its cycles, and what its registers count. -/
namespace Sys2Proof.Machine

/-- A Rill of the active weave. -/
def State.wrill? (s : State) (r : Nat) : Option WRill := s.weave?.bind (fun w => w.rill? r)

/-- A stage of a Rill of the active weave. -/
def State.wstage? (s : State) (r k : Nat) : Option WStage := (s.wrill? r).bind (fun w => w.stage? k)

/-- The DEC instance of an engine (R244). -/
def decInst (type engine rill : Nat) : Nat :=
  if type = 1 then engine else if type = 2 then 32 + engine else if type = 3 then 40 + engine
  else if type = 4 then 56 + engine else 60 + rill

/-- Byte `k` of a spare mapping: a spare's VALID bit and the Jet it serves (R101). -/
def spareServes (map k : Nat) : Option Nat :=
  if bitOf map (8 * k + 7) then some (bitsOf map (8 * k + 5) (8 * k)) else none

/-- The physical Jet that serves a logical one (R100, R101). -/
def State.jetOf (s : State) (n : Nat) : Nat :=
  match (List.range 4).find? (fun k => spareServes (s.get CSC_SPARE_ACTIVE.MAP) k == some n) with
  | some k => 64 + k
  | none => n

/-- What a stage makes of a sample: the sample as it leaves, and the cycles the stage spends on it. -/
structure Worked where
  item : Item
  cycles : Nat
  deriving DecidableEq, Repr

/-- A sample that a stage rejects. -/
def Item.reject (it : Item) (reason : Nat) : Item := { it with reason := reason, content := bytesTensor [] }

/-- A stage's result as a sample: its content, or the reason of its rejection. -/
def Item.result (it : Item) (out : Option Tensor) (reason : Nat) : Item :=
  match out with
  | some t => { it with content := t }
  | none => it.reject reason

/-- The draw key of a Rill's part (R46). -/
def State.partKey (s : State) (r : Nat) : Quad :=
  match (s.rill r).part with
  | some p => p.plan.key
  | none => quadOf 0 0 0 0

/-- Counts of an engine of DEC on a sample (R244). `own` says that this stage rejected it. -/
def State.countDec (s : State) (inst : Nat) (it : Item) (reason cycles : Nat) (own budget : Bool) : State :=
  let s := (s.bumpi DEC_SAMPLES.COUNT inst 1).bumpPair .DEC_CYCLES_LO .DEC_CYCLES_HI inst cycles
  let s := if budget then s.evi DEC_EVENT.BUDGET inst else s
  if own then
    let s := (s.bumpi DEC_REJECTS.COUNT inst 1).evi DEC_EVENT.REJECT inst
    let s := (s.puti DEC_LAST_REJECT.REASON inst reason).puti DEC_LAST_REJECT.CODEC inst it.tag.codec
    s.putPair .DEC_LAST_G_LO .DEC_LAST_G_HI inst (it.tag.g % 2 ^ 44)
  else s

/-- A void sample, which the first stage rejects (R109). (DEDUCED, assumption 47.) -/
def Item.isVoid (it : Item) (g : WStage) : Bool := g.input == 0xFF && (it.reason == 1 || it.reason == 2)

/-- A decoding stage (R220 to R233); what it puts out is plain bytes or a picture, whose CODEC is 0x00.
(DEDUCED, assumption 47.) (DEDUCED, assumption 49.) -/
def workDecoder (r : Nat) (g : WStage) (it : Item) (s : State) : Worked × State :=
  let inst := decInst g.type g.engine r
  if it.isVoid g then
    let c := decBudget (decCfgOf g.cfg) (decReject it.reason (unknownCycles 0))
    (⟨it.reject c.reason, c.cycles⟩, s.countDec inst it c.reason c.cycles true (c.reason == 0x16))
  else if it.reason ≠ 0 then (⟨it, 1⟩, s.countDec inst it 0 1 false false)
  else
    let run := runDecoder (s.partKey r) it.tag.g it.tag.codec (decCfgOf g.cfg) it.content.toBytes
    let out := it.result run.out run.reason
    let out := { out with
      tag := { it.tag with codec := if run.out.isSome then 0 else it.tag.codec }
      oriented := it.oriented || run.oriented
      codedW := if run.codedW = 0 then it.codedW else run.codedW
      codedH := if run.codedH = 0 then it.codedH else run.codedH }
    (⟨out, run.cycles⟩, s.countDec inst it run.reason run.cycles run.out.isNone (run.reason == 0x16))

/-- A Jet's internal saturation flag after a sample (R253): whether a chunk saturated. (DESIGN CHOICE, assumption 112.) -/
def State.noteSaturation (s : State) (jet : Nat) (sat : Bool) : State :=
  { s with svc := { s.svc with saturated := s.svc.saturated.filter (· != jet) ++ (if sat then [jet] else []) } }

/-- A Jet stage (R254 to R274). As its Rill's first stage it takes CODEC 0x00 and expanded CODEC 0x0C samples alone (R231). -/
def workJet (r : Nat) (g : WStage) (it : Item) (s : State) : Worked × State :=
  let inst := s.jetOf g.engine
  let count := fun (cycles : Nat) (own : Bool) (s : State) =>
    let s := (s.bumpi JET_SAMPLES.COUNT inst 1).bumpPair .JET_CYCLES_LO .JET_CYCLES_HI inst cycles
    if own then (s.bumpi JET_REJECTS.COUNT inst 1).evi JET_EVENT.REJECT inst else s
  if it.isVoid g then (⟨it, 16⟩, count 16 true s)
  else if it.reason ≠ 0 then (⟨it, 1⟩, count 1 false s)
  else if g.input = 0xFF ∧ it.tag.codec ≠ 0 ∧ it.tag.codec ≠ 0x0C then (⟨it.reject 0x03, 16⟩, count 16 true s)
  else
    let run := runJet (fun a k => leNat (s.rdBytes a k)) (s.partKey r) it.tag.g g.cfg it.content
    let s := count run.cycles run.out.isNone s
    let s := (s.bumpi JET_SIEVE_KEEP.COUNT inst run.keeps).bumpi JET_SIEVE_DROP.COUNT inst run.drops
    let s := s.bumpPair .JET_MACS_LO .JET_MACS_HI inst run.macs
    let s := match run.score with
      | some v => s.puti JET_LAST_SCORE.SCORE inst v
      | none => s
    let s := s.noteSaturation inst run.saturated
    (⟨it.result run.out run.reason, run.cycles⟩, s)

/-- The elements that a Reed lane reads, and whether no element is partial (R280). -/
def reedInput (dtype : Nat) (t : Tensor) : List Nat × Bool :=
  let bs := t.toBytes
  (bytesElems dtype bs, bs.length % dtypeBytes dtype == 0)

/-- A cache whose lines a lane uses in an order: the latest used comes first (R297). Which lines it uses is an open function of the image, the
stage's configuration and the input. (DESIGN CHOICE, assumption 83.) -/
def touchLines (uses l : List Nat) : List Nat := uses.foldl (fun l x => if l.contains x then x :: l.filter (· != x) else l) l

/-- A Reed stage (R279 to R299); `stall` are the cycles it has waited for cache lines. (DEDUCED, assumption 49.) -/
def workReed (g : WStage) (it : Item) (stall : Nat) (s : State) : Worked × State :=
  let lane := g.engine
  let count := fun (own : Nat) (s : State) =>
    let s := s.bumpi REED_SAMPLES.COUNT lane 1
    if own ≠ 0 then
      ((s.bumpi REED_REJECTS.COUNT lane 1).evi REED_EVENT.REJECT lane).puti REED_LAST_REJECT.REASON lane own
    else s
  if it.isVoid g then (⟨it, 1⟩, count it.reason s)
  else if it.reason ≠ 0 then (⟨it, 1⟩, count 0 s)
  else if g.input = 0xFF ∧ it.tag.codec ≠ 0 ∧ it.tag.codec ≠ 0x0C then (⟨it.reject 0x03, 1⟩, count 0x03 s)
  else
    let c := reedCfgOf g.cfg
    let v := vocabOf (s.vocabs.getD c.vocabSlot [])
    let stops := reedStops (fun a k => leNat (s.rdBytes a k)) c
    let run :=
      if c.mode = 0 then reedEncode v c stops it.content.toBytes
      else let (es, whole) := reedInput c.ioDtype it.content; reedCheck v c stops es whole
    let cycles := run.cycles + stall
    let uses := Config.lineUses (s.vocabs.getD c.vocabSlot []) g.cfg it.content.toBytes
    let s := count (if run.out.isNone then run.reason else 0) { s with caches := modAt (touchLines uses) lane s.caches }
    let s := s.bumpPair .REED_TOKENS_LO .REED_TOKENS_HI lane run.tokens
    let s := (s.bumpi REED_ESCAPES.COUNT lane run.escapes).bumpi REED_STOPS.COUNT lane run.stops
    let s := if 0 < run.escapes then s.evi REED_EVENT.ESCAPE lane else s
    let s := if 0 < run.stops then s.evi REED_EVENT.STOP lane else s
    let out := run.out.map (fun es =>
      if c.mode = 2 then (⟨.bytes, 1, es.length, 1, 1, es⟩ : Tensor) else ⟨.vector, 1, es.length, 1, c.ioDtype, es⟩)
    (⟨{ it.result out run.reason with tag := { it.tag with codec := 0 } }, cycles⟩, s)

/-- What a Keeper stage image makes of a sample's bytes (R409, R410): its output, or a reason. Of the instruction budget and
the output limit, the one that its run reaches first ends it. -/
def keeperRun (c : KeeperCfg) (args bs : List Byte) : Except Nat (List Byte) :=
  let run := Config.imageRun c.imageHash args bs
  let budget := c.insnBudget * 4096
  if c.outMax < run.out.length ∧ Config.imageInsns c.imageHash args bs c.outMax < budget then .error 0x42
  else if budget ≤ run.insns then .error 0x43
  else
    match run.fin with
    | .done => .ok run.out
    | .malformed => .error 0x40
    | .unhandled => .error 0x41
    | .trapped => .error 0x44

/-- A Keeper software stage (R408 to R410): `spent` is the cycles that the sample waits for its core and the image runs. -/
def workKeeper (g : WStage) (it : Item) (spent : Nat) : Worked :=
  let c := keeperCfgOf g.cfg
  if it.isVoid g ∨ it.reason ≠ 0 then ⟨it, 1⟩
  else if c.codecFirst ≠ 0 ∧ (it.tag.codec < c.codecFirst ∨ c.codecLast < it.tag.codec) then ⟨it.reject 0x03, spent⟩
  else
    let out := match keeperRun c ((g.cfg.drop 68).take c.argLen) it.content.toBytes with
      | .ok o => { it with content := bytesTensor o }
      | .error reason => it.reject reason
    ⟨{ out with tag := { out.tag with codec := 0 } }, spent⟩

/-- The pixels of an RVF frame (R388, R394): `format` 0 is mono, 1 RGB 4:4:4, 2 YCbCr 4:2:2 as Cb, Y, Cr, Y. -/
def rvfPixel (samples : List Nat) (format depth w x y : Nat) : List Nat :=
  match format with
  | 1 => (samples.drop (3 * (y * w + x))).take 3
  | 2 =>
    let row := samples.drop (2 * y * w)
    let pr := row.drop (4 * (x / 2))
    videoRgb false depth (pr.getD (if x % 2 = 0 then 1 else 3) 0) (pr.getD 0 0) (pr.getD 2 0)
  | _ => [samples.getD (y * w + x) 0]

/-- The samples that an RVF frame of a size must hold. -/
def rvfNeed (format w h : Nat) : Nat := if format = 1 then 3 * w * h else if format = 2 then 2 * w * h else w * h

/-- An RVF sample unpacked to H × W × C of OUT_TYPE, or nothing where OUT_FMT and OUT_TYPE cannot represent it (R394,
R395). -/
def rvfTensor (c : IntakeCfg) (px : Nat × Nat × Nat × Nat) (bs : List Byte) : Option Tensor :=
  let (format, depth, w, h) := px
  let samples := Config.rvfSamples format depth bs
  if 2 < format ∨ !(depth == 8 || depth == 10 || depth == 12 || depth == 16) ∨ samples.length < rvfNeed format w h
      ∨ w = 0 ∨ h = 0 then none
  else
    let mono := format == 0
    let fmt := if c.outFmt = 4 then (if mono then 2 else 0) else c.outFmt
    some (orientedImage 1 w h (fmtChannels fmt) c.outType (fun x y =>
      pixelOut fmt c.outType ((rvfPixel samples format depth w x y).map (depthRule c.outType depth))))

/-- An Inlet intake stage (R394, R395). The log and an injection carry no pixel format: there it is an open function of what they
carry. (DESIGN CHOICE, assumption 122.) -/
def workIntake (g : WStage) (it : Item) : Worked :=
  let c := intakeCfgOf g.cfg
  if it.isVoid g ∨ it.reason ≠ 0 then ⟨it, 1⟩
  else
    let flags := leAt it.desc 26 1
    let bs := it.content.toBytes
    let cycles := ceilDiv bs.length 64 + 16
    if bitOf flags 0 ∧ c.rejectPadded then ⟨it.reject 0x50, cycles⟩
    else if bitOf flags 1 ∧ c.rejectTrunc then ⟨it.reject 0x51, cycles⟩
    else if bitOf flags 2 ∧ c.rejectEst then ⟨it.reject 0x52, cycles⟩
    else if it.tag.codec = 1 then (if c.outMax < bs.length then ⟨it.reject 0x53, cycles⟩ else ⟨it, cycles⟩)
    else
      match rvfTensor c (it.pixel.getD (Config.rvfForm it.desc bs)) bs with
      | some t => if c.outMax < t.byteLen then ⟨it.reject 0x53, cycles⟩ else ⟨{ it with content := t }, cycles⟩
      | none => ⟨it.reject 0x53, cycles⟩

/-- The packer on an arriving sample (R76, R237, R241): it places an image sample in ceil(bytes ÷ 64) cc and rejects one
of another shape. A packer that is its Rill's only stage takes CODEC 0x00 and expanded CODEC 0x0C samples alone. -/
def workPacker (r : Nat) (g : WStage) (it : Item) (s : State) : Worked × State :=
  let c := packCfgOf g.cfg
  let inst := decInst 7 0 r
  let own := fun (reason : Nat) => (⟨it.reject reason, 0⟩, s.countDec inst it reason 0 true false)
  if it.isVoid g then own it.reason
  else if it.reason ≠ 0 then (⟨it, 1⟩, s.countDec inst it 0 1 false false)
  else if g.input = 0xFF ∧ it.tag.codec ≠ 0 ∧ it.tag.codec ≠ 0x0C then own 0x03
  else if c.takes it.content = false then own 0x17
  else (⟨it, c.placeCycles⟩, s.countDec inst it 0 c.placeCycles false false)

/-- A stage's work on a sample, whatever its engine (R75). -/
def State.work (s : State) (r : Nat) (g : WStage) (it : Item) (spent stall : Nat) : Worked × State :=
  match g.type with
  | 5 => workJet r g it s
  | 6 => workReed g it stall s
  | 7 => workPacker r g it s
  | 8 => (workKeeper g it spent, s)
  | 9 => (workIntake g it, s)
  | _ => workDecoder r g it s

/-- The firmware image that runs, and the hashes of the stage images it carries (R408, R412). -/
def State.runningImage (s : State) : List Byte := s.fwImage (s.get SVC_FW_STATUS.RUNNING)
def State.stageHashes (s : State) : List (List Byte) := Config.stageImages s.runningImage

/-- Whether a Keeper stage can run: its image is in the running firmware, and the core it is bound to runs as a DATA core (R32, R405,
R409, R436): the hang or halt of another core holds nothing here (R399), and a whole restart holds every one (R406). -/
def State.keeperReady (s : State) (r : Nat) (g : WStage) : Bool :=
  g.type != 8
  || (s.stageHashes.contains (keeperCfgOf g.cfg).imageHash
      && (match s.svc.stageCore.find? (fun e => e.1 == r && e.2.1 == g.stage) with
          | some (_, _, c) => s.coreRole c == 1 && !bitOf (s.get DBG_BRK_STATUS.HALTED) c
          | none => s.ison HIF_STATUS.KEEPER_UP))

end Sys2Proof.Machine
end

