-- ==== Sys2Proof/Machine/BatchOps.lean ====
section
/-! DEFINITION. The end of a round and of a batch: replacements (R127 to R129), the packed batch (R234, R241), its Mirror
records (R56, R57), its comparison in a replay (R59), lock-step (R65) and watch units (R437, R438). -/
namespace Sys2Proof.Machine

/-- A list in ascending order of a number, entries with the same number in their order. -/
def insertBy {α : Type} (key : α → Nat) (x : α) : List α → List α
  | [] => [x]
  | y :: l => if key x < key y then x :: y :: l else y :: insertBy key x l
def sortBy {α : Type} (key : α → Nat) (l : List α) : List α := l.foldl (fun acc x => insertBy key x acc) []

/-- A list of positions in ascending offset. -/
def byOffset (l : List PackPos) : List PackPos := sortBy (·.offset) l

/-- Whether the stages of a Rill have nothing left to do. -/
def RillSt.running (x : RillSt) : Bool := x.stages.any (fun g => g.run.isSome)
def RillSt.waiting (x : RillSt) : Bool := x.stages.any (fun g => !g.input.isEmpty)

/-- The cycle by which every stage of a Rill has ended. -/
def RillSt.endCycle (x : RillSt) : Nat := x.stages.foldl (fun m g => max m g.endCycle) x.cycle

/-- Whether a round's rejections lead to another round (R127, R129). -/
def Part.another (p : Part) (rejected : List PackPos) : Bool :=
  !rejected.isEmpty && !p.live && !p.final && decide (p.round < p.reserve)

/-- The packer's stage number, and its configuration. -/
def State.packer? (s : State) (r : Nat) : Option WStage := (s.wrill? r).bind (·.packer?)

/-- A rejection reaches the packer (R127 to R130): the position's replacement is drawn, and can be fetched from the next cycle on.
(DEDUCED, assumption 103.) -/
def State.rejectAt (s : State) (r : Nat) (q : PackPos) : State :=
  let s := s.modRill r (fun x => { x with rejected := x.rejected ++ [q], history := (q.offset, q.reason) :: x.history })
  match (s.rill r).part with
  | some p =>
    if p.another [q] then
      match p.plan.backfill (p.firstPos + q.offset) (p.round + 1) p.dev with
      | some g =>
        (s.bump SLU_BF_DRAWS.DRAWS 1).modRill r (fun x => { x with part := some { p with next := p.next ++ [(q.offset, g)] } })
      | none => s
    else s
  | none => s

/-- The end of a round (R127 to R129): its replacements are the next round, or the part ends and its rejected positions are
filled. -/
def State.endRound (s : State) (r : Nat) : State :=
  let x := s.rill r
  match x.part with
  | none => s
  | some p =>
    let l := byOffset x.rejected
    if p.another l then
      s.setRill r { x with part := some { p with round := p.round + 1, todo := sortBy (·.1) p.next, next := [] }, rejected := [] }
    else
      let n := l.length
      let packer := ((s.packer? r).map (·.stage)).getD 0
      let fill := ((s.packer? r).map (fun g => (packCfgOf g.cfg).placeCycles)).getD 0
      let s := if 0 < n then (s.bump SLU_FILLED.FILLED n).ev SLU_EVENT.FILLED else s
      s.setRill r { x with
        part := some { p with final := true }
        arrived := x.arrived ++ l.map (fun q => { q with filled := true })
        rejected := []
        stages := x.stages.map (fun g => if g.stage = packer then { g with endCycle := max g.endCycle x.endCycle + n * fill } else g) }

/-- The identity of a part in its batch's header (R234). -/
def State.partId (s : State) (r : Nat) (p : Part) : PartId :=
  ⟨p.step, r, p.slot, p.slice, p.dev, p.epoch, p.firstPos, p.sliceSize, ((s.weave?.map (·.hash)).getD []).take 8⟩

/-- The batch of a Rill's part, with the cycle count of the Rill at the end of BATCH_END (R241). -/
def State.closePart (s : State) (r : Nat) (p : Part) : Batch × Nat :=
  let x := s.rill r
  let c := packCfgOf (((s.packer? r).map (·.cfg)).getD [])
  let last := fun (q : PackPos) => { q with reason := ((x.history.find? (fun h => h.1 == q.offset)).map (·.2)).getD 0 }
  let b := closeBatch c (s.partId r p) x.history.length ((byOffset x.arrived).map last)
  (b, x.endCycle + b.cycles)

/-- The VT_TIMING records of a batch (R39, R56): type, and body, its entries in batch-position order. -/
def State.vtBodies (s : State) (r : Nat) : List (List Byte) :=
  let x := s.rill r
  match s.wrill? r with
  | none => []
  | some w =>
    (w.stages.filter (fun g => g.mark != 0)).map (fun g =>
      let es := sortBy (fun e => e.2.1) (x.timing.filter (fun e => e.1 == g.stage))
      leBytes 1 g.mark ++ leBytes 1 g.stage ++ leBytes 2 es.length ++ zeros 4
        ++ es.flatMap (fun e => leBytes 4 e.2.2.1 ++ leBytes 4 e.2.2.2))

/-- The records that a batch leaves (R57). -/
def State.batchBodies (s : State) (r : Nat) (p : Part) (b : Batch) (cycles : Nat) : List (Nat × List Byte) :=
  let vt := if s.mirror.now.vtRec then (s.vtBodies r).map (fun x => (6, x)) else []
  let bt := if s.mirror.now.batchRec then
      [(7, leBytes 8 b.digest ++ leBytes 8 cycles ++ leBytes 8 (p.firstPos % 2 ^ 44) ++ leBytes 4 b.rejected ++ zeros 4)]
    else []
  vt ++ bt

/-- Whether the ring has room for a list of records, judged together (R54). -/
def State.mirRoomAll (s : State) (l : List (Nat × List Byte)) : Bool :=
  s.mirFits ((l.map (fun e => recLen e.2.length)).sum)

/-- The comparison of a replayed batch with its record (R59); a fault stops the replay, and a batch whose part stood in its Rill when the
replay began is no replayed batch. In a segment with VT_REC 0 only a Rill with
marked stages is compared in digest alone: a Rill without marks, whose log holds no VT_TIMING records whatever VT_REC was, is compared
in position and cycles too. (DESIGN CHOICE, assumption 121.) -/
def State.compareBatch (s : State) (r : Nat) (p : Part) (b : Batch) (cycles : Nat) : State :=
  match s.mirror.replay with
  | none => s
  | some rp =>
    if rp.before.contains (p.name r) then
      { s with mirror := { s.mirror with replay := some { rp with before := rp.before.erase (p.name r) } } }
    else
    let k := rp.compared.countP (fun e => e == (r, p.step))
    let s := { s with mirror := { s.mirror with replay := some { rp with compared := rp.compared ++ [(r, p.step)] } } }
    let flags := segmentFlags rp.log p.step
    let digestOnly := ((s.wrill? r).any (·.marked)) && !bitOf flags 1
    if bitOf flags 0 = false then s
    else
      match (rp.batch? r p.step)[k]? with
      | none => (s.detFault dfDigest 2 r p.step 0 b.digest).endReplay
      | some rec =>
        if leAt rec 16 8 ≠ b.digest then (s.detFault dfDigest 0 r p.step (leAt rec 16 8) b.digest).endReplay
        else if digestOnly then s
        else if leAt rec 32 8 % 2 ^ 44 ≠ p.firstPos % 2 ^ 44 then
          (s.detFault dfDigest 1 r p.step (leAt rec 32 8 % 2 ^ 44) (p.firstPos % 2 ^ 44)).endReplay
        else if leAt rec 24 8 ≠ cycles then (s.detFault dfCycles 0 r p.step (leAt rec 24 8) cycles).endReplay
        else s

/-- The statistics of a watch unit (R438): finite values so far, minimum, maximum, sum, and the bins. -/
structure WatchStats where
  finite : Nat
  nonfinite : Nat
  min : F32
  max : F32
  sum : F32
  hist : List Nat
  deriving DecidableEq, Repr

def watchNan : F32 := 0x7FC00000

/-- The bin of a finite element (R438). -/
def watchBin (lo scale x : F32) : Nat :=
  match f32Num (fp32Mul (fp32Sub x lo) scale) with
  | .fin neg m e =>
    let mag := if 0 ≤ e then m * 2 ^ e.toNat else m / 2 ^ (-e).toNat
    if neg then 0 else min 15 mag
  | .inf neg => if neg then 0 else 15
  | .nan => 0

def watchOne (lo scale : F32) (w : WatchStats) (x : F32) : WatchStats :=
  match f32Num x with
  | .fin _ _ _ =>
    { finite := w.finite + 1
      nonfinite := w.nonfinite
      min := if w.finite = 0 ∨ f32Lt x w.min then x else w.min
      max := if w.finite = 0 ∨ f32Lt w.max x then x else w.max
      sum := fp32Add w.sum x
      hist := modAt (· + 1) (watchBin lo scale x) w.hist }
  | _ => { w with nonfinite := w.nonfinite + 1 }

def watchStats (lo scale : F32) (es : List F32) : WatchStats :=
  es.foldl (watchOne lo scale) ⟨0, 0, watchNan, watchNan, 0, List.replicate 16 0⟩

/-- A watch unit latches a batch (R437 to R439, R428). -/
def State.latchWatch (s : State) (k step : Nat) (w : WatchSt) : State :=
  let digest := rippleDigest (w.digests.flatMap (leBytes 8))
  let t := watchStats (s.geti DBG_W_LO.VALUE k) (s.geti DBG_W_SCALE.VALUE k) w.elems
  let mean := if t.finite = 0 then watchNan else fp32Mul t.sum (fp32Div 0x3F800000 (f32OfInt t.finite))
  let s := s.putPair .DBG_W_DIGEST_LO .DBG_W_DIGEST_HI k digest
  let s := ((s.puti DBG_W_MIN.VALUE k t.min).puti DBG_W_MAX.VALUE k t.max).puti DBG_W_MEAN.VALUE k mean
  let s := (s.puti DBG_W_FINITE.COUNT k t.finite).puti DBG_W_NONFINITE.COUNT k t.nonfinite
  let s := s.putPair .DBG_W_STEP_LO .DBG_W_STEP_HI k step
  let s := s.each 16 (fun h s => s.puti DBG_W_HIST.COUNT (k * 16 + h) (t.hist.getD h 0))
  let s := s.put DBG_EVENT.WATCH (setBit (s.get DBG_EVENT.WATCH) k)
  let s := if s.isoni DBG_W_CFG.STOP_NF k ∧ 0 < t.nonfinite then s.trigger 7 else s
  if s.isoni DBG_W_CFG.STOP_MATCH k ∧ digest = s.pair .DBG_W_MATCH_LO .DBG_W_MATCH_HI k then s.trigger 8 else s

/-- The watch units on a Rill latch at its BATCH_END. -/
def State.latchWatches (s : State) (r step : Nat) : State :=
  (s.dbg.watch.zipIdx.filter (fun e => e.1.on && e.1.rill == r)).foldl (fun s e => s.latchWatch e.2 step e.1) s

/-- A sample passes a watched stage (R437): its digest and its elements as FP32. -/
def State.tapWatch (s : State) (r stage : Nat) (t : Tensor) : State :=
  let bs := t.toBytes
  let unit := fun (w : WatchSt) =>
    if w.on ∧ w.rill = r ∧ w.stage = stage then
      { w with
        digests := w.digests ++ [rippleDigest bs]
        elems := w.elems ++ (bytesElems w.dtype bs).map (elemF32 w.dtype) }
    else w
  { s with dbg := { s.dbg with watch := s.dbg.watch.map unit } }

/-- The batch of a part is handed to the Weir (R242): records, comparison, lock-step, counts, watch units, and the Rill
is free for its next part. -/
def State.handOver (s : State) (r : Nat) (p : Part) (b : Batch) (cycles : Nat) : State :=
  let inst := decInst 7 0 r
  let x := s.rill r
  let s := (s.batchBodies r p b cycles).foldl (fun s e => s.record e.1 r 0 p.step e.2) s
  let s := ((s.bumpi DEC_PK_BATCHES.COUNT inst 1).bumpi DEC_PK_FILLED.COUNT inst b.filled).bumpi DEC_PK_OVERFLOW.COUNT inst b.overflow
  let s := s.putPair .DEC_PK_DIGEST_LO .DEC_PK_DIGEST_HI inst b.digest
  let s := s.putPair .DEC_PK_STEP_LO .DEC_PK_STEP_HI inst p.step
  let s := if s.ison MIR_LS_CTRL.EN then
      { s with lock := { s.lock with batches := s.lock.batches ++ [(p.step, r, b.digest, cycles)] } }
    else s
  let s := s.latchWatches r p.step
  let s := s.trace 2 r 0 cycles p.step
  let s := s.modSlot p.slot (fun y => { y with live := y.live.filter (fun l => !(p.live && p.samples.any (fun e => e.2 == l.index))) })
  let s := s.setRill r { x with
    part := none, pc := 0, cycle := 0, arrived := [], rejected := [], history := [], timing := [], rebuilds := 0
    freeBufs := x.freeBufs.drop 1
    ready := x.ready ++ [⟨b, x.freeBufs.headD [], s.cascade.act.gen, none, none⟩] }
  ((s.compareBatch r p b cycles).refill).checkReplay

end Sys2Proof.Machine
end

