-- ==== Sys2Proof/Machine/Sequencer.lean ====
section
/-! DEFINITION. The sequencer of a Rill (R77 to R79), and the completion of a stage's work (R221 to R223). A command acts
where the Rill's schedule stands at its operation (assumption 8); cycles are non-hold cycles from the batch start. -/
namespace Sys2Proof.Machine

/-- The entry at which a Rill's sequencer stands, while it runs a part. -/
def State.entry? (s : State) (r : Nat) : Option SchedEntry :=
  let x := s.rill r
  if s.still ∨ x.part = none ∨ x.mode = .stopped ∨ x.mode = .dead then none
  else (s.wrill? r).bind (fun w => w.sched[x.pc]?)

/-- Runs `f` where a Rill's sequencer stands at an operation. (DESIGN CHOICE, assumption 8.) -/
def State.onOp (s : State) (r op : Nat) (f : SchedEntry → State) : State :=
  match s.entry? r with
  | some e => if e.op = op then f e else s
  | none => s

/-- The sequencer passes its entry at a cycle. -/
def State.passEntry (s : State) (r cycle : Nat) : State := s.modRill r (fun x => { x with pc := x.pc + 1, cycle := cycle })

/-- A stage of a Rill as it stands. -/
def State.stageSt? (s : State) (r k : Nat) : Option StageSt := (s.rill r).stages.find? (fun g => g.stage == k)
def State.modStage (s : State) (r k : Nat) (f : StageSt → StageSt) : State :=
  s.modRill r (fun x => { x with stages := x.stages.map (fun g => if g.stage = k then f g else g) })

/-- The entries of a VT_TIMING record, release cycle and stage cycles, in the order in which the stage received the samples: a round is
released only after the one before it has ended (R127), and within a round samples come in ascending offset (R131), so that order is
the order of the release cycles. -/
def recTimings (x : List Byte) : List (Nat × Nat) :=
  sortBy (·.1) ((List.range (leAt x 18 2)).map (fun i => (leAt x (24 + 8 * i) 4, leAt x (28 + 8 * i) 4)))

/-- What a replay's log gives a marked stage for its next sample: release cycle and stage cycles (R58). -/
def State.recorded (s : State) (r k : Nat) : Option (Nat × Nat) :=
  match s.mirror.replay, (s.rill r).part with
  | some p, some q =>
    if p.before.contains (q.name r) then none else
    let l := p.log.filter (fun x => recType x == 6 && recRill x == r && recStep x == q.step && leAt x 17 1 == k)
    let i := (s.rill r).timing.countP (fun e => e.1 == k)
    match l[p.compared.countP (fun e => e == (r, q.step))]? with
    | some x => (recTimings x)[i]?
    | none => none
  | _, _ => none

/-- DELAY (R78). -/
def delayEffect (r : Nat) (s : State) : State :=
  s.onOp r 0 (fun e => s.passEntry r ((s.rill r).cycle + e.operand))

/-- A stage begins its next input (R78, R23, R139). A busy stage is waited for; the first stages hold for a sample that is
not yet released; with nothing left to come, the entry passes (assumption 9). -/
def beginStage (r : Nat) (fixed : Bool) (e : SchedEntry) (s : State) : State :=
  let x := s.rill r
  match s.stageSt? r e.stage, s.wstage? r e.stage with
  | some g, some w =>
    if g.run.isSome then s
    else
      match g.input with
      | it :: rest =>
        let rel := match s.recorded r e.stage with
          | some q => if w.mark = 0 then it.relCycle else q.1
          | none => it.relCycle
        let start := max (max x.cycle g.endCycle) rel
        let run : StageRun := ⟨{ it with relCycle := rel }, start, if fixed then some e.operand else none, 0⟩
        (s.modStage r e.stage (fun g => { g with input := rest, run := some run })).passEntry r (start + 1)
      | [] =>
        if w.input = 0xFF then
          if x.part.any (fun p => !p.todo.isEmpty) then s.modRill r (fun y => { y with holding := true })
          else s.passEntry r (x.cycle + 1)
        else
          match s.stageSt? r w.input with
          | some u => if u.run.isSome then s else s.passEntry r (x.cycle + 1)
          | none => s.passEntry r (x.cycle + 1)
  | _, _ => s.passEntry r (x.cycle + 1)

def startEffect (r : Nat) (s : State) : State := s.onOp r 1 (fun e => beginStage r false e s)
def runFixedEffect (r : Nat) (s : State) : State := s.onOp r 2 (fun e => beginStage r true e s)

/-- WAIT (R78). -/
def waitEffect (r : Nat) (s : State) : State :=
  s.onOp r 3 (fun e =>
    match s.stageSt? r e.stage with
    | some g => if g.run.isSome then s else s.passEntry r (max ((s.rill r).cycle + 1) g.endCycle)
    | none => s.passEntry r ((s.rill r).cycle + 1))

/-- BIND (R78, R79). -/
def bindEffect (r : Nat) (s : State) : State :=
  s.onOp r 4 (fun e =>
    let b : Binding := ⟨e.stage, e.port, e.bank, e.operand % 4096, e.latency⟩
    (s.modRill r (fun x => { x with
      binds := x.binds.filter (fun y => !(y.stage == e.stage && y.port == e.port)) ++ [b] })).passEntry r ((s.rill r).cycle + 1))

/-- Whether samples of the round are still to be started. -/
def State.roundLeft (s : State) (r : Nat) : Bool :=
  let x := s.rill r
  x.part.any (fun p => !p.todo.isEmpty)
  || x.stages.any (fun g => !g.input.isEmpty && (s.wstage? r g.stage).any (fun w => w.input == 0xFF))

/-- LOOP (R78, R127): it jumps while samples of the round are left; else, once every stage is idle, the round ends, and it
jumps for the replacements of another. -/
def loopEffect (r : Nat) (s : State) : State :=
  s.onOp r 5 (fun e =>
    let x := s.rill r
    let target := e.operand % 2 ^ 14
    if s.roundLeft r then s.setRill r { x with pc := target, cycle := x.cycle + 1 }
    else if x.running then s
    else if x.waiting ∨ x.part.any (fun p => p.final) then s.passEntry r (x.cycle + 1)
    else
      let s := s.endRound r
      let c := x.endCycle + 1
      if (s.rill r).part.any (fun p => p.final) then s.passEntry r c
      else s.modRill r (fun y => { y with pc := target, cycle := c }))

/-- BATCH_END (R78, R241, R242, R54): with samples or replacements left, of which the spec says nothing, the schedule runs again from its
first entry (DESIGN CHOICE, assumption 9); else the batch closes and is handed over, once the Mirror ring has room for its records and the plan and activation records
of its step stand before them (R57). A faulted part is not handed over (R401). -/
def batchEndEffect (r : Nat) (s : State) : State :=
  s.onOp r 6 (fun _ =>
    let x := s.rill r
    if x.running then s
    else if s.roundLeft r ∨ x.waiting then s.setRill r { x with pc := 0, cycle := x.cycle + 1 }
    else
      let t := if x.part.any (fun p => p.final) then s else s.endRound r
      match (t.rill r).part with
      | none => s
      | some p =>
        if p.final = false then t.modRill r (fun y => { y with pc := 0, cycle := x.endCycle + 1 })
        else if x.mode ≠ .running ∨ s.stepOpen p.step = false then s
        else
          let (b, cycles) := t.closePart r p
          if t.mirRoomAll (t.batchBodies r p b cycles) then t.handOver r p b cycles else s.mirHeld)

/-- What a packer keeps of a sample that has reached it. -/
def Item.pos (it : Item) : PackPos :=
  ⟨it.tag.offset, it.tag.g, it.tag.attempt, it.reason, false, it.tag.cls, it.tag.user, it.oriented, it.codedW, it.codedH,
    if it.reason = 0 then some it.content else none⟩

/-- Frees the Basin buffers of a sample whose first stage has read it (R317). (DEDUCED, assumption 64.) -/
def State.readOut (s : State) (l : List Buf) : State :=
  if l = [] then s
  else
    let t := { s with basin := { s.basin with grants := s.basin.grants.filter (fun g => !(g.client != 0 && l.contains (g.pool, g.buffer))) } }
    showBasin s t

/-- STAGE_DONE (R221 to R223, R39, R58, R133): the output or the rejection passes to the stages that take it, at the end
of the stage's cycles; a packer keeps it. (DESIGN CHOICE, assumption 8.) -/
def stageDoneEffect (r k spent : Nat) (s : State) : State :=
  match s.stageSt? r k, s.wstage? r k with
  | some g, some w =>
    match g.run with
    | none => s
    | some run =>
      if s.still ∨ (s.rill r).holding ∨ (s.rill r).mode = .stopped ∨ (s.rill r).mode = .dead then s
      else if s.keeperReady r w = false then
        if s.stageHashes.contains (keeperCfgOf w.cfg).imageHash then s else s.ev SVC_EVENT.STAGE_IMAGE
      else
        let vt := if w.mark = 0 then none else s.recorded r k
        let (o, s) := s.work r w run.item spent run.stall
        let cycles : Nat := match vt with
          | some q => q.2
          | none => run.fixed.getD o.cycles
        let endC := run.start + cycles
        let s := if w.mark = 0 then s else s.modRill r (fun x => { x with timing := x.timing ++ [(k, run.item.tag.offset, run.item.relCycle, cycles)] })
        let s := if w.input = 0xFF then s.readOut run.item.bufs else s
        let it : Item := { o.item with bufs := [], relCycle := endC }
        let s := if it.reason = 0 ∧ w.type ≠ 7 then s.tapWatch r k it.content else s
        let s := s.modStage r k (fun g => { g with run := none, endCycle := endC })
        if w.type = 7 then
          if it.reason = 0 then s.modRill r (fun x => { x with arrived := x.arrived ++ [it.pos] }) else s.rejectAt r it.pos
        else
          let takes := fun (n : Nat) => (s.wstage? r n).any (fun y => y.input == k)
          s.modRill r (fun x => { x with
            stages := x.stages.map (fun y => if takes y.stage then { y with input := y.input ++ [it] } else y) })
  | _, _ => s

def execDelay (r : Nat) (s : State) : Host.Outcome State Fault Refusal := .next (finish s (delayEffect r s))
def execStart (r : Nat) (s : State) : Host.Outcome State Fault Refusal := .next (finish s (startEffect r s))
def execRunFixed (r : Nat) (s : State) : Host.Outcome State Fault Refusal := .next (finish s (runFixedEffect r s))
def execWait (r : Nat) (s : State) : Host.Outcome State Fault Refusal := .next (finish s (waitEffect r s))
def execBind (r : Nat) (s : State) : Host.Outcome State Fault Refusal := .next (finish s (bindEffect r s))
def execLoop (r : Nat) (s : State) : Host.Outcome State Fault Refusal := .next (finish s (loopEffect r s))
def execBatchEnd (r : Nat) (s : State) : Host.Outcome State Fault Refusal := .next (finish s (batchEndEffect r s))
def execStageDone (r k wait extra : Nat) (s : State) : Host.Outcome State Fault Refusal :=
  .next (finish s (stageDoneEffect r k (wait + extra) s))

end Sys2Proof.Machine
end

