-- ==== Sys2Proof/Machine/Faults.lean ====
section
/-! DEFINITION. The synchronous start (R50, R460), crossing tags (R51), and the faults of a Rill: detection, containment,
self-test, realignment and rebuild (R275 to R277, R305, R398 to R402). -/
namespace Sys2Proof.Machine

/-- The event after which a start may begin (R464): the PLL family locked and Cistern initialised. -/
def State.startReady (s : State) : Bool :=
  s.ison PWR_STATUS.PLL_LOCK && s.power.cistern && !s.power.porHeld && s.power.resetPhase == .none
  && !s.ison PWR_STATUS.START_FAIL && s.power.state == 0

/-- START_TICK (R50, R460): the resets of the fast domains are released on one tick, and the marker phase begins. -/
def startTickEffect (s : State) : State :=
  if s.startReady ∧ s.power.startPhase = .reset then
    let s := s.put PWR_STATUS.START_TRIES (s.get PWR_STATUS.START_TRIES + 1)
    { s with
      power := { s.power with startPhase := .marker }
      dbg := { s.dbg with startTick := s.power.uptime } }
  else s

/-- The first crossing and operating point whose measured latency is not the design value, and the two values; a crossing
without values is not one of those measured. -/
def latencyMiss (measured : List (List Nat)) : Option (Nat × Nat × Nat) :=
  measured.zipIdx.findSome? (fun e =>
    if e.1.isEmpty then none
    else (List.range 8).findSome? (fun op =>
      if e.1.getD op 0 = Config.crossingDesign e.2 op then none
      else some (e.2, Config.crossingDesign e.2 op, e.1.getD op 0)))

/-- A START fault (R52); its step is not stated: a free value. -/
def State.startFault (s : State) (miss : Nat × Nat × Nat) : State :=
  let (step, s) := s.fresh 5 (2 ^ 48)
  s.detFault dfStart miss.1 0x1F step miss.2.1 miss.2.2

/-- The marker phase has measured every latency at its design value: the Cascade may run. -/
def State.markerPassed (s : State) (measured : List (List Nat)) : State :=
  let t : State := { s with
    power := { s.power with startPhase := .up }
    dbg := { s.dbg with offsets := measured } }
  (t.put PWR_STATUS.CASCADE_UP 1).refill

/-- The marker phase has met a mismatch: the Cascade stays in reset, and the third failure is final. -/
def State.markerFailed (s : State) (miss : Nat × Nat × Nat) : State :=
  let t : State := { s with power := { s.power with startPhase := .reset } }
  let u := t.startFault miss
  if u.get PWR_STATUS.START_TRIES = 3 then (u.put PWR_STATUS.START_FAIL 1).ev PWR_EVENT.START_FAIL else u

/-- MARKER_PHASE_END (R50, R460): with every latency at its design value the Cascade may run; a mismatch is a START
fault, and the third leaves the Cascade in reset. -/
def markerEndEffect (measured : List (List Nat)) (s : State) : State :=
  if s.power.startPhase = .marker then
    match latencyMiss measured with
    | none => s.markerPassed measured
    | some miss => s.markerFailed miss
  else s

/-- The register instance of a stage's engine: the status field that shows its state, and the instance. -/
def State.engineOf (s : State) (r : Nat) (g : WStage) : Option (Fld × Nat) :=
  match g.type with
  | 5 => some (JET_STATUS.STATE, s.jetOf g.engine)
  | 6 => some (REED_STATUS.STATE, g.engine)
  | 8 => none
  | 9 => none
  | _ => some (DEC_STATUS.STATE, decInst g.type g.engine r)

/-- Whether a physical engine has been retired (R103). -/
def State.retired (s : State) (e : Fld × Nat) : Bool := s.geti e.1 e.2 == 3

/-- Whether a logical Jet is available under a spare mapping (R102), and under the one in effect. -/
def State.jetAvailIn (s : State) (map n : Nat) : Bool :=
  !s.retired (JET_STATUS.STATE, n)
  || (List.range 4).any (fun k => spareServes map k == some n && !s.retired (JET_STATUS.STATE, 64 + k))
def State.jetAvail (s : State) (n : Nat) : Bool := s.jetAvailIn (s.get CSC_SPARE_ACTIVE.MAP) n

/-- A mask of the numbers below `n` that satisfy `f`. -/
def maskOf (n : Nat) (f : Nat → Bool) : Nat := (List.range n).foldl (fun m i => if f i then m + 2 ^ i else m) 0

/-- The availability registers show the engines in service under the spare mapping in effect (R102). -/
def State.showAvail (s : State) : State :=
  let dec := fun (type n : Nat) => maskOf n (fun i => !s.retired (DEC_STATUS.STATE, decInst type i 0))
  let s := s.put CSC_JET_AVAIL_LO.JETS (maskOf 32 s.jetAvail)
  let s := s.put CSC_JET_AVAIL_HI.JETS (maskOf 32 (fun i => s.jetAvail (32 + i)))
  let s := s.put CSC_IMG_AVAIL.IMG (dec 1 32)
  let s := s.put CSC_ENG_AVAIL.DCMP (dec 3 16)
  let s := s.put CSC_ENG_AVAIL.REED (maskOf 16 (fun i => !s.retired (REED_STATUS.STATE, i)))
  let s := s.put CSC_VA_AVAIL.VIDEO (dec 2 8)
  s.put CSC_VA_AVAIL.AUDIO (dec 4 4)

/-- The stages of the active weave that a physical engine serves, as Rill and stage. -/
def State.stagesOn (s : State) (e : Fld × Nat) : List (Nat × Nat) :=
  match s.weave? with
  | some w => w.rills.flatMap (fun x => (x.stages.filter (fun g => s.engineOf x.rill g == some e)).map (fun g => (x.rill, g.stage)))
  | none => []

/-- Retires a physical engine (R103, R277, R402): each Rill of the active weave that it serves has a RETIRED fault (R400). -/
def State.retire (s : State) (e : Fld × Nat) : State :=
  let s := (s.puti e.1 e.2 3).showAvail
  (s.stagesOn e).foldl (fun s x => s.rillFault x.1 6 x.2 0) s

/-- TAG_MISMATCH (R51): an ALIGN determinism fault and a Rill fault. The tags that were compared are not stated: free
values. -/
def tagMismatchEffect (r crossing : Nat) (s : State) : State :=
  if s.still then s
  else
    let step := ((s.rill r).part.map (·.step)).getD 0
    let (want, s) := s.fresh 6 4
    let (got, s) := s.fresh 7 4
    ((s.detFault dfAlign crossing r step want got).rillFault r 4 0 11)

/-- BANK_VIOLATION (R105, R307, R308): an engine's access to a word of a bank that it may not reach is answered with an error and
latched; that of a Rill's running schedule faults its stage. -/
def bankViolationEffect (e : BankEngine) (stage bank w : Nat) (s : State) : State :=
  if s.mayReach e stage bank w then s
  else
    match e with
    | .rill r => if s.still ∨ (s.rill r).part = none then s else (s.bankViolation clsRill r bank w).rillFault r 5 stage 12
    | _ =>
      let (cls, n, s) := s.engineClass e
      (s.bankViolation cls n bank w).emit (.bankError cls bank)

/-- The Rill and stage that a physical engine serves (R244, R278, R299): while it is assigned or faulted, and, once
retired, while the stage of the active weave is still its own (R103, R276). -/
def State.servedBy (s : State) (status : Reg) (inst : Nat) : Option (Nat × Nat) :=
  let w := s.word status inst
  let st := (Fld.mk status 1 0).get w
  let r := (Fld.mk status 7 4).get w
  let k := (Fld.mk status 12 8).get w
  let own := ((s.wstage? r k).bind (s.engineOf r)).any (fun e => e.1.reg == status && e.2 == inst)
  if st = 1 ∨ st = 2 ∨ (st = 3 ∧ own = true) then some (r, k) else none

/-- JET_DETECTION (R276, R277): latched, counted per batch, and a Rill fault; RETIRE_AT different batches retire the
Jet. -/
def jetDetectionEffect (jet unit column opIndex : Nat) (s : State) : State :=
  match s.servedBy .JET_STATUS jet with
  | none => s
  | some (r, stage) =>
    match (s.rill r).part with
    | none => s
    | some p =>
      let f := if unit = 1 then JET_EVENT.RESIDUE else JET_EVENT.PARITY
      let first := !s.isoni f jet
      let s := (s.evi f jet).bumpi JET_DETECTS.COUNT jet 1
      let s :=
        if first then
          let s := (s.puti JET_FAULT_INFO.UNIT jet unit).puti JET_FAULT_INFO.OP_INDEX jet opIndex
          (s.puti JET_FAULT_INFO.COLUMN jet (if unit = 1 then column else 0)).putPair .JET_FAULT_STEP_LO .JET_FAULT_STEP_HI jet p.step
        else s
      let s := if s.retired (JET_STATUS.STATE, jet) then s else s.puti JET_STATUS.STATE jet 2
      let name := p.name r
      let seen := s.svc.detects.contains (jet, name)
      let s := if seen then s else { s with svc := { s.svc with detects := s.svc.detects ++ [(jet, name)] } }
      let s := s.rillFault r 1 stage 9
      let n := s.geti JET_CTRL.RETIRE_AT jet
      if n ≠ 0 ∧ n ≤ s.svc.detects.countP (fun d => d.1 == jet) then (s.retire (JET_STATUS.STATE, jet)).evi JET_EVENT.RETIRED jet
      else s

/-- ENGINE_FAULT (R232): a decoder's or packer's own check. -/
def engineFaultEffect (inst : Nat) (s : State) : State :=
  match s.servedBy .DEC_STATUS inst with
  | some (r, stage) =>
    let s := s.evi DEC_EVENT.FAULT inst
    (if s.retired (DEC_STATUS.STATE, inst) then s else s.puti DEC_STATUS.STATE inst 2).rillFault r 2 stage 10
  | none => s

/-- REED_FAULT (R298). -/
def reedFaultEffect (lane : Nat) (s : State) : State :=
  match s.servedBy .REED_STATUS lane with
  | some (r, stage) =>
    let s := s.evi REED_EVENT.FAULT lane
    (if s.retired (REED_STATUS.STATE, lane) then s else s.puti REED_STATUS.STATE lane 2).rillFault r 2 stage 10
  | none => s

/-- A READ_EXTENT that an uncorrectable word cut short ends (R305), and its units give their buffers back. -/
def State.readCut (s : State) (x : Task) : State :=
  (((s.dropLanded [x]).modTask x.id (fun y => { y with landed := [] })).endTask x.id 0x0030 x.progress).showTasks

/-- RESERVOIR_UNCORR (R305): counted; it faults a stage, ends a READ_EXTENT with MEDIA_ERROR, or answers another elastic client with an
error. A read that an engine's correction saves is counted with its column; the spec's commands name no other that reads a bank.
(DESIGN CHOICE, assumption 120.) -/
def reservoirUncorrEffect (bank : Nat) (reader : BankReader) (s : State) : State :=
  match reader with
  | .corrected column => s.eccCorrected bank column
  | .stage r stage => (s.eccUncorr bank).rillFault r 3 stage 8
  | .task t =>
    let s := s.eccUncorr bank
    match s.task? t with
    | some x => if x.opcode = 1 ∧ x.done = none then (s.readCut x).logFault 8 0 bank 0 else s
    | none => s
  | .client c => ((s.eccUncorr bank).logFault 8 0 bank 0).emit (.bankError c bank)

/-- A Rill's part goes back to round 0 for its rebuild (R401): its samples are fetched again. What had been fetched for the Rill's later
parts is dropped too, so that the limits of R135 let the part's samples be fetched first. (DESIGN CHOICE, assumption 122.) -/
def State.resetPart (s : State) (r : Nat) : State :=
  match (s.rill r).part with
  | none => s
  | some p =>
    let mine := fun (f : Fetch) => f.rill == r
    let bufs := (s.sluice.fetches.filter mine).flatMap (fun f => (f.landed.map (·.bufs)).getD [])
    let held := (s.rill r).stages.flatMap (fun g => g.input.flatMap (·.bufs) ++ (g.run.map (·.item.bufs)).getD [])
    let t := { s with sluice := { s.sluice with fetches := s.sluice.fetches.filter (fun f => !mine f) } }
    let live := (t.slot p.slot).live.flatMap (·.bufs)
    let t := { t with basin := { t.basin with
      grants := t.basin.grants.filter (fun g => g.client == 0 || !((bufs ++ held).contains (g.pool, g.buffer) && !live.contains (g.pool, g.buffer))) } }
    let t := t.modRill r (fun x => { x with
      part := some { p with round := 0, todo := p.samples, next := [], final := false }
      pc := 0, cycle := 0, holding := false, arrived := [], rejected := [], history := [], timing := []
      stages := x.stages.map (fun g => { g with input := [], run := none, endCycle := 0 }) })
    showBasin s t

/-- A stopped Rill runs again; a part that faulted is rebuilt (R400, R401). -/
def State.restartRill (s : State) (r : Nat) : State :=
  let rebuilt := (s.rill r).part.isSome
  let s := if rebuilt then s.bump SVC_REBUILDS.COUNT 1 else s
  let s := s.modRill r (fun x => { x with mode := .running, faults := [], rebuilds := if rebuilt then x.rebuilds + 1 else 0 })
  (s.armWatch r).refill

/-- A Rill is dead until an activation (R402, R103). (DEDUCED, assumption 30.) -/
def State.killRill (s : State) (r : Nat) : State := (s.modRill r (fun x => { x with mode := .dead })).ev SVC_EVENT.RILL_DEAD

/-- The engine of the stage that a fault of a Rill names, where its cause is one of an engine. -/
def State.faultEngine (s : State) (r : Nat) (f : RillFault) : Option (Fld × Nat) :=
  if f.cause = 1 ∨ f.cause = 2 ∨ f.cause = 6 then (s.wstage? r f.stage).bind (s.engineOf r) else none

/-- Whether a fault's cause waits for a check: a self-test for JET and ENGINE, the marker phase for ALIGN (R401). -/
def RillFault.checked (f : RillFault) : Bool := f.cause == 1 || f.cause == 2 || f.cause == 4

/-- The first fault of a Rill that waits for a self-test. -/
def State.testFault (s : State) (r : Nat) : Option RillFault := (s.rill r).faults.find? (fun f => f.cause == 1 || f.cause == 2)

/-- Whether a Rill that is to stop stands at the boundary of its part (R401). -/
def State.atBoundary (s : State) (r : Nat) : Bool :=
  let x := s.rill r
  match x.part with
  | none => true
  | some p =>
    (match s.entry? r with
     | some e => e.op == 6 && !x.running && !s.roundLeft r && !x.waiting
     | none => false)
    && (p.final || (((s.endRound r).rill r).part.any (·.final)))

/-- Whether what is pending on a Rill leaves it dead (R103, R402): an engine of it is retired. -/
def State.fatal (s : State) (r : Nat) : Bool :=
  (s.rill r).faults.any (fun f => f.cause == 6 || (s.faultEngine r f).any s.retired)

/-- The faults of a Rill that `f` keeps stay pending; with none left, the Rill runs again (R401). -/
def State.settleFaults (s : State) (r : Nat) (f : RillFault → Bool) : State :=
  let l := (s.rill r).faults.filter f
  if l = [] then s.restartRill r else s.modRill r (fun x => { x with faults := l })

/-- RILL_STOP (R401, R402): at the boundary of the faulted part the Rill stops; its part goes back to its recipe. A retired
engine, or too many faults of one part, leave it dead; causes JET, ENGINE and ALIGN wait each for its check.
(DEDUCED, assumption 104.) -/
def rillStopEffect (r : Nat) (s : State) : State :=
  if (s.rill r).mode = .stopping ∧ s.still = false ∧ s.atBoundary r then
    let n := (s.rill r).rebuilds + 1
    let s := (s.modRill r (fun x => { x with mode := .stopped })).resetPart r
    if s.fatal r ∨ ((s.rill r).part.isSome ∧ max 1 (s.get SVC_CTRL.REBUILD_MAX) ≤ n) then s.killRill r
    else s.settleFaults r RillFault.checked
  else s

/-- The self-test of a stopped Rill's faulted engine ends (R401, R402); of several engines, that of the first fault. An engine that fails is
retired, which is a RETIRED fault of the Rill (R400). -/
def rillTestDone (r : Nat) (pass : Bool) (s : State) : State :=
  match s.testFault r with
  | none => s
  | some f =>
    if (s.rill r).mode ≠ .stopped then s
    else
      match s.faultEngine r f with
      | some e =>
        if pass then (s.puti e.1 e.2 1).settleFaults r (fun g => g.cause == 4 || s.faultEngine r g != some e)
        else (s.retire e).killRill r
      | none => if pass then s.settleFaults r (· != f) else s.killRill r

/-- The engine that a TYPE and a number of SVC_ENG_CMD name (R427). (DEDUCED, assumption 80.) -/
def commandEngine (type n : Nat) : Option (Fld × Nat) :=
  match type with
  | 1 => if n < 32 then some (DEC_STATUS.STATE, decInst 1 n 0) else none
  | 2 => if n < 8 then some (DEC_STATUS.STATE, decInst 2 n 0) else none
  | 3 => if n < 16 then some (DEC_STATUS.STATE, decInst 3 n 0) else none
  | 4 => if n < 4 then some (DEC_STATUS.STATE, decInst 4 n 0) else none
  | 5 => if n < 68 then some (JET_STATUS.STATE, n) else none
  | 6 => if n < 16 then some (REED_STATUS.STATE, n) else none
  | _ => none

/-- The self-test of SVC_ENG_CMD ends (R421): an engine that passes is back in service, its RETIRE_AT count starts again,
and it joins at the next activation; one that fails is retired. -/
def commandTestDone (pass : Bool) (s : State) : State :=
  if s.ison SVC_ENG_CMD.BUSY then
    let s := ((s.put SVC_ENG_CMD.BUSY 0).putb SVC_ENG_CMD.PASS pass).ev SVC_EVENT.ENG_TEST_DONE
    match s.svc.engTest.bind (fun x => commandEngine x.1 x.2) with
    | some e =>
      if pass then
        let s := if e.1 = JET_STATUS.STATE then
            { s with svc := { s.svc with detects := s.svc.detects.filter (fun d => d.1 != e.2) } }
          else s
        (s.puti e.1 e.2 0).showAvail
      else s.retire e
    | none => s
  else s

/-- ENGINE_SELF_TEST_DONE: of a stopped Rill's engine, or of the engine that SVC_ENG_CMD names. -/
def selfTestEffect (rill : Option Nat) (pass : Bool) (s : State) : State :=
  match rill with
  | some r => rillTestDone r pass s
  | none => commandTestDone pass s

/-- REALIGN_DONE (R51, R401, R460): the marker phase of one Rill's crossings; a mismatch is a START fault, and the phase is
repeated. (DEDUCED, assumption 86.) -/
def realignEffect (r : Nat) (offs : List (List Nat)) (s : State) : State :=
  if (s.rill r).mode = .stopped ∧ (s.rill r).faults.any (·.cause == 4) then
    match latencyMiss offs with
    | none =>
      let offsets := s.dbg.offsets.zipIdx.map (fun e =>
        match offs[e.2]? with
        | some (v :: vs) => v :: vs
        | _ => e.1)
      ({ s with dbg := { s.dbg with offsets := offsets } }).settleFaults r (·.cause != 4)
    | some k => s.startFault k
  else s

def execStartTick (s : State) : Host.Outcome State Fault Refusal := .next (finish s (startTickEffect s))
def execMarkerPhaseEnd (m : List (List Nat)) (s : State) : Host.Outcome State Fault Refusal :=
  .next (finish s (markerEndEffect m s))
def execTagMismatch (r c : Nat) (s : State) : Host.Outcome State Fault Refusal := .next (finish s (tagMismatchEffect r c s))
def execBankViolation (e : BankEngine) (k bank w : Nat) (s : State) : Host.Outcome State Fault Refusal :=
  .next (finish s (bankViolationEffect e k bank w s))
def execJetDetection (jet unit column op : Nat) (s : State) : Host.Outcome State Fault Refusal :=
  .next (finish s (jetDetectionEffect jet unit column op s))
def execEngineFault (inst : Nat) (s : State) : Host.Outcome State Fault Refusal := .next (finish s (engineFaultEffect inst s))
def execReedFault (lane : Nat) (s : State) : Host.Outcome State Fault Refusal := .next (finish s (reedFaultEffect lane s))
def execReservoirUncorr (bank : Nat) (reader : BankReader) (s : State) : Host.Outcome State Fault Refusal :=
  .next (finish s (reservoirUncorrEffect bank reader s))
def execRillStop (r : Nat) (s : State) : Host.Outcome State Fault Refusal := .next (finish s (rillStopEffect r s))
def execEngineSelfTestDone (rill : Option Nat) (pass : Bool) (s : State) : Host.Outcome State Fault Refusal :=
  .next (finish s (selfTestEffect rill pass s))
def execRealignDone (r : Nat) (m : List (List Nat)) (s : State) : Host.Outcome State Fault Refusal :=
  .next (finish s (realignEffect r m s))

end Sys2Proof.Machine
end

