-- ==== Sys2Proof/Machine/Loader.lean ====
section
/-! DEFINITION. The loader (R84 to R92, R282, R500): a load's phases, its checks and its result. -/
namespace Sys2Proof.Machine

/-- CSC_STATUS and the hash registers show a weave slot (R86, R89, R107). -/
def State.showSlot (s : State) (k : Nat) : State :=
  match s.cascade.slots[k]? with
  | none => s
  | some w =>
    let held := w.state == .valid || w.state == .active
    let hash := if held then (w.weave.map (·.hash)).getD [] else []
    let s := if k = 0 then s.put CSC_STATUS.S0_STATE w.state.code else s.put CSC_STATUS.S1_STATE w.state.code
    let v := held && w.verified
    let s := if k = 0 then s.putb CSC_STATUS.S0_VERIFIED v else s.putb CSC_STATUS.S1_VERIFIED v
    let r := if k = 0 then Reg.CSC_S0_HASH else Reg.CSC_S1_HASH
    s.each 12 (fun i s => s.setWord r i (BitVec.ofNat 32 (leAt hash (4 * i) 4)))

def State.setSlot (s : State) (k : Nat) (w : WeaveSlot) : State :=
  ({ s with cascade := { s.cascade with slots := putAt k w s.cascade.slots } }).showSlot k

def State.setLoader (s : State) (l : LoaderSt) : State := { s with cascade := { s.cascade with loader := l } }
def State.loader (s : State) : LoaderSt := s.cascade.loader

/-- The active slot, and the slot a load targets: slot 0 while no weave is active. -/
def State.activeSlot (s : State) : Option Nat :=
  (List.range 2).find? (fun k => (s.cascade.slots[k]?.map (·.state)) == some .active)
def State.inactiveSlot (s : State) : Nat :=
  match s.activeSlot with
  | some k => 1 - k
  | none => 0

/-- Whether an activation stands between its boundary and its first release (R90, R93). -/
def State.activating (s : State) : Bool := s.cascade.act.phase != .idle && s.cascade.act.phase != .holding

/-- A load ends without a weave (R86, R88, R91, R92). -/
def State.failLoad (s : State) (err ofs : Nat) : State :=
  let k := s.loader.slot
  let s := (s.setLoader LoaderSt.reset).put CSC_STATUS.LOADER_BUSY 0
  let s := s.setSlot k ⟨if err = weAborted then .empty else .failed, none, false⟩
  let s := ((s.put CSC_LOAD_RESULT.ERR err).put CSC_LOAD_RESULT.STATUS (loadStatus err)).put CSC_LOAD_ERR_OFS.OFFSET ofs
  s.ev CSC_EVENT.LOAD_FAIL

/-- CSC_LOAD_CTRL.START (R89, R90, R92): refused, or begun; LENGTH and ADDRESS are judged before any byte is read. -/
def startLoad (s : State) : State :=
  let k := s.inactiveSlot
  if s.loader.phase ≠ .idle ∨ s.activating ∨ s.armedSlot = some k then s.ev CSC_EVENT.LOAD_REFUSED
  else
    let len := (s.word .CSC_LOAD_LEN 0).toNat
    let addr := s.pair .CSC_LOAD_ADDR_LO .CSC_LOAD_ADDR_HI 0
    let flash := s.ison CSC_LOAD_CTRL.SRC
    let l : LoaderSt := ⟨.transfer, k, flash, addr, len, s.ison CSC_SIGN_CTRL.ENFORCE, [], none, false⟩
    let s := ((s.setLoader l).put CSC_STATUS.LOADER_BUSY 1).setSlot k ⟨.loading, none, false⟩
    if len < 64 ∨ len % 64 ≠ 0 ∨ maxImage < len then s.failLoad weLength 0
    else if flash = false ∧ addr % 64 ≠ 0 then s.failLoad weAddress 0
    else s

/-- CSC_LOAD_CTRL.ABORT (R91). -/
def abortLoad (s : State) : State := if s.loader.phase = .idle then s else s.failLoad weAborted 0

/-- A write of CSC_LOAD_CTRL; ABORT comes before START (assumption 29). (DEDUCED, assumption 16.) -/
def loadCtrl (w : Word) (s : State) : State :=
  let s := s.swWrite .CSC_LOAD_CTRL 0 w
  let s := if CSC_LOAD_CTRL.ABORT.cmd w then abortLoad s else s
  if CSC_LOAD_CTRL.START.cmd w then startLoad s else s

/-- Whether a logical engine is available (R102). A packer, which has no mask, is available while it is in service. -/
def State.engineAvail (s : State) (type n : Nat) : Bool :=
  match type with
  | 1 => bitOf (s.get CSC_IMG_AVAIL.IMG) n
  | 2 => bitOf (s.get CSC_VA_AVAIL.VIDEO) n
  | 3 => bitOf (s.get CSC_ENG_AVAIL.DCMP) n
  | 4 => bitOf (s.get CSC_VA_AVAIL.AUDIO) n
  | 5 => if n < 32 then bitOf (s.get CSC_JET_AVAIL_LO.JETS) n else bitOf (s.get CSC_JET_AVAIL_HI.JETS) (n - 32)
  | 6 => bitOf (s.get CSC_ENG_AVAIL.REED) n
  | 7 => !s.retired (DEC_STATUS.STATE, decInst 7 0 n)
  | _ => true

/-- Whether a vocabulary slot may serve a Reed stage (R282). -/
def State.vocabServes (s : State) (slot tag dtype : Nat) : Bool :=
  s.geti REED_VOCAB_STATE.STATE (16 + slot) == 2
  && s.pair .REED_VOCAB_TAG_LO .REED_VOCAB_TAG_HI (16 + slot) == tag
  && (dtype != 8 || decide (s.geti REED_VOCAB_STATE.ENTRIES (16 + slot) ≤ 65536))

/-- The first of some checks that fails. -/
def firstFail (l : List (Option (Nat × Nat))) : Option (Nat × Nat) := l.findSome? id

/-- The checks of the structure phase, in the order of their codes (R88, R92). -/
def State.imageVerdict (s : State) (len : Nat) (img : List Byte) : Option (Nat × Nat) :=
  match headerCheck img len (s.get GLB_ID_HI.DCLASS) with
  | some e => some e
  | none =>
    match directoryCheck img with
    | some e => some e
    | none =>
      match sectionCheck img with
      | some e => some e
      | none =>
        match recordCheck img with
        | some e => some e
        | none =>
          let owners := ownersOf img
          let bad := (owners.zipIdx.find? (fun e => bankOwnerBad (toposOf img) e.1)).map (fun e => (weBankOwner, sectionOfs img 4 + 4 * e.2))
          firstFail [engineCheck s.engineAvail img, stageCfgCheck s.stageHashes s.vocabServes img, bad,
            schedCheck owners (toposOf img) (tablesOf img), constCheck owners img, markCheck img]

/-- LOAD_TRANSFER_DONE (R88, R89, R500): the image has arrived, or its source could not be read. A load from flash waits for
the mount. The structure phase begins. CSC_LOAD_ADDR_HI [31:16], which a load from flash has zero, are not looked at: the table gives
them no effect (DESIGN CHOICE, assumption 121). -/
def transferEffect (image : Option (List Byte)) (s : State) : State :=
  let l := s.loader
  if l.phase ≠ .transfer ∨ (l.flash ∧ s.get AQF_STATUS.READY = 0) then s
  else
    let src := match image with
      | none => none
      | some b => if l.flash then (s.aqf.sectors (l.addr % 2 ^ 48) (ceilDiv l.len sectorBytes)).map (fun (x : List Byte) => x.take l.len) else some b
    match src with
    | none => s.failLoad weSource 0
    | some b =>
      if b.length ≠ l.len then s
      else s.setLoader { l with phase := .structure, image := b, verdict := s.imageVerdict l.len b }

/-- The key of a weave key slot, where it is filled (R85, R89, R417). -/
def State.weaveKey (s : State) (n : Nat) : Option (List Byte) := (s.record? (0x10 + n)).filter (fun k => k.length == 96)

/-- Under enforcement a weave that does not verify fails (R89, R106); else staging begins. -/
def State.beginStaging (s : State) (verified : Bool) : State :=
  if s.loader.enforce ∧ verified = false then s.failLoad weSigAbsent 0
  else s.setLoader { s.loader with phase := .staging, verified := verified }

/-- LOAD_STRUCTURE_DONE: the first failing check ends the load; the signature phase follows where the image is signed. -/
def structureEffect (s : State) : State :=
  if s.loader.phase ≠ .structure then s
  else
    match s.loader.verdict with
    | some (err, ofs) => s.failLoad err ofs
    | none =>
      if bitOf (leAt s.loader.image 14 2) 0 then s.setLoader { s.loader with phase := .signature }
      else s.beginStaging false

/-- LOAD_SIGNATURE_DONE (R84, R89). -/
def signatureEffect (s : State) : State :=
  if s.loader.phase ≠ .signature then s
  else
    let img := s.loader.image
    let sg := sectionBytes img 7
    match s.weaveKey (leAt sg 0 2) with
    | none => s.beginStaging false
    | some key =>
      if ecdsaOk key (sha384 (hashedBytes img)) ((sg.drop 8).take 96) then s.beginStaging true
      else s.failLoad weSigBad (sectionOfs img 7)

/-- LOAD_STAGING_DONE (R86, R88, R92). -/
def stagingEffect (s : State) : State :=
  if s.loader.phase ≠ .staging then s
  else
    let l := s.loader
    let s := (s.setLoader LoaderSt.reset).put CSC_STATUS.LOADER_BUSY 0
    let s := s.setSlot l.slot ⟨.valid, some (weaveOf (sha384 (hashedBytes l.image)) l.image), l.verified⟩
    ((s.setWord .CSC_LOAD_RESULT 0 0).setWord .CSC_LOAD_ERR_OFS 0 0).ev CSC_EVENT.LOAD_DONE

/-- CSC_LOAD_CTRL written with START as 1. -/
def execLoadStart (w : Word) (s : State) : Host.Outcome State Fault Refusal :=
  .next (finish s (s.viaReg .host .CSC_LOAD_CTRL 0 (CSC_LOAD_CTRL.START.set w 1) (loadCtrl (CSC_LOAD_CTRL.START.set w 1))))
/-- CSC_LOAD_CTRL written with ABORT as 1. -/
def execLoadAbort (s : State) : Host.Outcome State Fault Refusal :=
  let w := CSC_LOAD_CTRL.ABORT.set (s.word .CSC_LOAD_CTRL 0) 1
  .next (finish s (s.viaReg .host .CSC_LOAD_CTRL 0 w (loadCtrl w)))
def execLoadTransferDone (image : Option (List Byte)) (s : State) : Host.Outcome State Fault Refusal :=
  .next (finish s (transferEffect image s))
def execLoadStructureDone (s : State) : Host.Outcome State Fault Refusal := .next (finish s (structureEffect s))
def execLoadSignatureDone (s : State) : Host.Outcome State Fault Refusal := .next (finish s (signatureEffect s))
def execLoadStagingDone (s : State) : Host.Outcome State Fault Refusal := .next (finish s (stagingEffect s))

end Sys2Proof.Machine
end

