-- ==== Sys2Proof/Machine/Mirror.lean ====
section
/-! DEFINITION. The Mirror's commands: draining, its settings, and the start of a replay (R54, R58 to R60, R68, R502,
R503). -/
namespace Sys2Proof.Machine

/-- Whether Aquifer takes bytes at a byte address from the Mirror writer now (R54): the map is mounted, the array can be written, and
the window has room. (DEDUCED, assumption 41.) -/
def State.flashTakes (s : State) (addr : Nat) : Bool :=
  s.ison AQF_STATUS.READY && !s.ison AQF_STATUS.PF && !s.ison AQF_STATUS.READ_ONLY && decide (addr < s.capSectors * sectorBytes)
  && s.windowRoom 1

/-- The next bytes of the oldest record, up to the end of their unit, enter the flash extent. -/
def State.drainUnit (s : State) : State :=
  match s.mirror.ring with
  | [] => s
  | r :: rest =>
    let addr := r.addr + r.done
    let n := min (r.bytes.length - r.done) (unitBytes - addr % unitBytes)
    if r.host ∨ n = 0 ∨ s.flashTakes addr = false then s
    else
      let s := s.modAqf (fun a => a.stageBytes s.host.nextId (addr / unitBytes) (addr % unitBytes) ((r.bytes.drop r.done).take n))
      { s with mirror := { s.mirror with ring := { r with done := r.done + n } :: rest } }

/-- The oldest record has left the ring; the DET_FAULT records that wait take the room. -/
def State.popRing (s : State) : State :=
  let s := { s with mirror := { s.mirror with ring := s.mirror.ring.drop 1 } }
  s.showFill.flushFaults

/-- MIRROR_DRAIN (R54, R502): the oldest record's write succeeds and the record leaves the ring; a write that cannot be
made, or that would pass the end of the destination, leaves it there. (DEDUCED, assumption 41.) -/
def drainEffect (ok : Bool) (s : State) : State :=
  match s.mirror.ring with
  | [] => s
  | r :: _ =>
    if ok = false ∨ r.limit < r.addr + r.bytes.length then s
    else if r.host then (s.popRing).emit (.hostWrite r.addr r.bytes s.relaxed)
    else
      let s := s.each (r.bytes.length / unitBytes + 2) (fun _ s => s.drainUnit)
      if s.mirror.ring.head?.any (fun x => x.done == x.bytes.length) then s.popRing else s

/-- A write of MIR_CTRL without its START (R68): a changed setting takes effect at once while nothing releases, else at
the next weave boundary. (DEDUCED, assumption 42.) -/
def mirCtrlEffect (w : Word) (s : State) : State :=
  let s := s.swWrite .MIR_CTRL 0 w
  if s.releasing then s else s.mirApply

/-- MIRROR_MODE_CHANGE (R68): at a weave boundary, once the Rills have drained, or with nothing releasing, the pending
setting takes effect. (DEDUCED, assumption 42.) -/
def modeChangeEffect (s : State) : State :=
  let p := s.cascade.act.phase
  if s.releasing = false ∨ p = .swap ∨ p = .ownership ∨ p = .constants ∨ p = .pinning then s.mirApply else s

/-- The step at which MIR_CTRL.START begins a replay (R63). -/
def State.replayStep (s : State) : Nat := s.pair .MIR_RP_STEP_LO .MIR_RP_STEP_HI 0

/-- Arms the activation that a log's WEAVE_ACT record names (R96); the slot is found by its hash at the boundary. -/
def State.armByHash (s : State) (step : Nat) (h : List Byte) : State :=
  let k := (s.slotOfHash h).getD 0
  let s := { s with cascade := { s.cascade with act := { s.cascade.act with armed := some (k, step), byHash := some h } } }
  (s.put CSC_ACT_STATUS.ARMED 1).put CSC_ACT_STATUS.ARMED_SLOT k

/-- In a replay the next activation comes from the log (R96). -/
def State.armNextFromLog (s : State) (step : Nat) : State :=
  match s.mirror.replay with
  | some p =>
    match p.weaveAfter step with
    | some (n, h) => s.armByHash n h
    | none => s
  | none => s

/-- Arms, for every plan slot, the plan that the log holds for the start step (R60); a plan that ended before it leaves
its slot idle until a later record. -/
def State.armFromLog (s : State) (p : Replay) : State :=
  s.each 4 (fun k s =>
    let img := match p.planAt k p.first with
      | some i => if p.first ≤ (planOf i).lastStep then some i else p.planAfter k p.first
      | none => p.planAfter k p.first
    (s.modSlot k (fun x => { x with plan := none, pending := img, begun := none })).putb (pendFld k) img.isSome)

/-- What the destination holds, as far as it can be read (R502): of host memory what the command says, of a flash extent what its
sectors hold. -/
def State.destBytes (s : State) (log : List Byte) : List Byte :=
  let (host, addr, size) := s.mirDest
  if host then log.take size
  else if s.ison AQF_STATUS.READY then s.aqf.readable (addr / sectorBytes) (size / sectorBytes)
  else []

/-- The records of the log that a destination holds, and whether it goes on with a segment of another class (R503). -/
def State.readLog (s : State) (log : List Byte) : List (List Byte) × Bool :=
  let bs := s.destBytes log
  logRecords (s.get GLB_ID_HI.DCLASS) (bs.length / 16) 0 bs

/-- A replay of a log's records begins (R60, R68, R503). -/
def State.beginReplay (s : State) (l : List (List Byte)) (mismatch : Bool) : State :=
  let last := (l.getLast?.map recStep).getD 0
  let standing := s.rills.zipIdx.flatMap (fun (e : RillSt × Nat) => (e.1.part.toList ++ e.1.queue).map (fun q => q.name e.2))
  let p : Replay := ⟨l, mismatch, s.replayStep, last, [], standing⟩
  let s := { s with mirror := { s.mirror with replay := some p } }
  let s := s.put MIR_STATUS.REPLAYING 1
  let s := s.armFromLog p
  let s := match p.weaveAt p.first with
    | some h => s.armByHash p.first h
    | none => s.armNextFromLog p.first
  s.checkReplay

/-- Whether a log begins with a SEGMENT record. -/
def startsWithSegment (l : List (List Byte)) : Bool :=
  match l with
  | [] => false
  | r :: _ => recType r == 1

/-- MIR_CTRL written with START (R68, R503): the settings of the write first; then, with replay mode in effect and
nothing releasing, the log is read from the start of its destination. A log whose first record is not a SEGMENT
record of this class refuses the replay. With replay mode in effect while a plan slot releases or while a replay runs, START is
ignored: the spec names neither case. (DESIGN CHOICE, assumption 121.) -/
def replayStartEffect (w : Word) (log : List Byte) (s : State) : State :=
  let s := mirCtrlEffect w s
  if s.inReplay ∧ s.releasing = false ∧ s.mirror.replay = none then
    if startsWithSegment (s.readLog log).1 then s.beginReplay (s.readLog log).1 (s.readLog log).2
    else s.ev MIR_STATUS.DCLASS_MISMATCH
  else s

def execMirrorDrain (ok : Bool) (s : State) : Host.Outcome State Fault Refusal := .next (finish s (drainEffect ok s))

/-- A write of MIR_CTRL (R68). -/
def execMirCtrlWrite (w : Word) (s : State) : Host.Outcome State Fault Refusal :=
  .next (finish s (s.viaReg .host .MIR_CTRL 0 w (mirCtrlEffect w)))

def execMirrorModeChange (s : State) : Host.Outcome State Fault Refusal := .next (finish s (modeChangeEffect s))

/-- MIR_CTRL written with START as 1; `log` is what the destination holds in host memory. -/
def execReplayStart (w : Word) (log : List Byte) (s : State) : Host.Outcome State Fault Refusal :=
  if s.reachable .MIR_CTRL = false then .next (finish s s)
  else if s.holds .MIR_CTRL then .next (finish s (s.holdAccess .host (.replay w log)))
  else .next (finish s (replayStartEffect w log s))

end Sys2Proof.Machine
end

