-- ==== Sys2Proof/Machine/Sluice.lean ====
section
/-! DEFINITION. The Sluice's commands: arming and starting plans (R121 to R124), fetches and releases (R131 to R140),
the probe (R141), the catalogue (R108, R201) and INJECT (R200). -/
namespace Sys2Proof.Machine

/-- The Rill mask and the LIVE sources that another slot's running or pending plan takes (R121), or its plan that holds after a failed
check. (DESIGN CHOICE, assumption 122.) -/
def State.takenMask (s : State) (k : Nat) : Nat :=
  (List.range 4).foldl (fun m j =>
    if j = k then m
    else
      let x := s.slot j
      let run := match x.plan with
        | some (p, _) => if s.slotState j = 1 ∨ s.slotState j = 2 then p.rillMask else 0
        | none => 0
      let pend := (x.pending.map (fun i => (planOf i).rillMask)).getD 0
      m ||| run ||| pend) 0

def State.takenSource (s : State) (k : Nat) : Nat :=
  (List.range 4).foldl (fun m j =>
    if j = k then m
    else
      let x := s.slot j
      let run := match x.plan with
        | some (p, _) => if (s.slotState j = 1 ∨ s.slotState j = 2) ∧ p.live then p.source else 0
        | none => 0
      let pend := (x.pending.map (fun i => if (planOf i).live then (planOf i).source else 0)).getD 0
      m ||| run ||| pend) 0

/-- Whether a mask names a Rill outside the active weave's (R121, R123). -/
def State.outsideWeave (s : State) (mask : Nat) : Bool :=
  let w := (s.weave?.map (·.rillMask)).getD 0
  (mask ||| w) != w

/-- The first rule of R121 that an arming image breaks, in the order of R121. An arm for a step of which a LIVE sample's record is written
comes too late to be recorded before it (R57). (DESIGN CHOICE, assumption 122.) -/
def State.armErr (s : State) (img : List Byte) : Nat :=
  let p := planOf img
  let k := p.slot
  if s.inReplay then armReplay
  else if planFormatBad img then armFormat
  else if (s.slot k).begun.any (fun b => decide (p.firstStep ≤ b)) ∨ s.liveRecorded p.firstStep then armLate
  else if planGeometryBad img then armGeometry
  else if planShardBad p then armShardMap
  else if planServeBad img then armServe
  else if p.rillMask = 0 ∨ p.rillMask &&& s.takenMask k ≠ 0 ∨ s.outsideWeave p.rillMask then armRills
  else if p.live ∧ (p.source = 0 ∨ p.source &&& s.takenSource k ≠ 0) then armSource
  else 0

/-- The step at which a plan begins: its first, in a replay not before the start step (R60). -/
def State.planStart (s : State) (p : Plan) : Nat :=
  match s.mirror.replay with
  | some r => max p.firstStep r.first
  | none => p.firstStep

/-- Whether no boundary stands at or before a step (R97, R123). -/
def State.stepClear (s : State) (step : Nat) : Bool :=
  (s.cascade.act.phase.rests || s.cascade.act.draining step) && (match s.cascade.act.armed with
    | some (_, n) => decide (step < n)
    | none => true)

/-- The slots whose pending plan, or implicit successor, takes effect now at a step (R123, R124): the running plan has
ended or released every step before it, and no armed boundary stands at or before it. -/
def State.dueImage (s : State) (k : Nat) : Option (Plan × List Byte) :=
  let x := s.slot k
  match x.pending with
  | some i =>
    let p := planOf i
    let ready := s.slotState k != 1 || (s.slotDone k)
    if ready && s.stepClear (s.planStart p) then some (p, i) else none
  | none =>
    match x.plan with
    | some (p, i) =>
      match p.successor with
      | some n =>
        if s.slotState k == 1 && !s.inReplay && decide (p.lastStep < x.genStep) && s.slotDone k && s.stepClear n.firstStep then
          some (n, i.take 32 ++ leBytes 4 n.epoch ++ (i.drop 36).take 4 ++ leBytes 8 n.firstStep ++ leBytes 8 0
            ++ leBytes 8 n.stepCount ++ i.drop 64)
        else none
      | none => none
    | none => none

/-- One plan takes effect (R123): the running plan has released its last step (R141); the new one is checked against the active weave, and
recorded where it passes. LIVE samples accepted for steps that a plan cut short never runs are dropped, and their Basin buffers stay
held. (DESIGN CHOICE, assumption 122.) -/
def takeOne (k : Nat) (p : Plan) (img : List Byte) (more : Bool) (s : State) : State :=
  let s := if s.slotState k = 1 then s.ev SLU_EVENT.PLAN_END else s
  let s := s.put (pendFld k) 0
  let s := s.modSlot k (fun x => { x with pending := none, plan := some (p, img), genStep := p.firstStep, accepted := 0, live := [] })
  if s.outsideWeave p.rillMask then (s.setSlotState k 2).ev SLU_EVENT.PLAN_FAIL
  else
    let s := (s.setSlotState k 1).ev SLU_EVENT.PLAN_START
    let s := s.record 0x02 0xFF (if more then 1 else 0) p.firstStep img
    match s.mirror.replay with
    | some r =>
      let first := max p.firstStep r.first
      let next := r.planAfter k p.firstStep
      let live := r.liveOf k p img
      (s.modSlot k (fun x => { x with pending := next, genStep := first, accepted := live.length, live := live })).putb (pendFld k) next.isSome
    | none => s

/-- The slots whose plans take effect together with slot `k`'s: those due at the same step, ascending (R123). -/
def State.dueWith (s : State) (step : Nat) : List (Nat × Plan × List Byte) :=
  (List.range 4).filterMap (fun j =>
    match s.dueImage j with
    | some (p, i) => if s.planStart p = step then some (j, p, i) else none
    | none => none)

/-- Plans take effect together: the record of each is followed by that of the next one that passes its check (R55, R123). -/
def takeAll : List (Nat × Plan × List Byte) → State → State
  | [], s => s
  | (k, p, i) :: l, s => takeAll l (takeOne k p i (l.any (fun e => !s.outsideWeave e.2.1.rillMask)) s)

/-- Whether every slot whose next plan begins at a step is due, so that their PLAN_ARM records can be written consecutively (R123). -/
def State.allDue (s : State) (step : Nat) : Bool :=
  !s.recording || (List.range 4).all (fun j => s.nextFirst j != some step || (s.dueImage j).isSome)

/-- PLAN_TAKE_EFFECT (R123, R124, R54): held while the ring has no room for the plans' records, or another slot's plan of the same step is
not yet due; a plan armed for a slot in HOLDING waits for no other. -/
def takeEffect (k : Nat) (s : State) : State :=
  match s.dueImage k with
  | none => s
  | some (p, _) =>
    if s.slotState k ≠ 2 ∧ s.allDue (s.planStart p) = false then s else
    let l := s.dueWith (s.planStart p)
    if s.mirFits ((l.map (fun e => recLen e.2.2.length)).sum) then (takeAll l s).refill else s.mirHeld

/-- PLAN_ARM (R121, R123): an accepted image is its slot's pending plan; a slot in HOLDING takes it at once.
(DEDUCED, assumption 23.) -/
def armEffect (t : Nat) (image : HostRead) (s : State) : State :=
  s.runTask t 0x15 (fun x s => s.onSource x image (fun img s =>
    let err := s.armErr img
    let p := planOf img
    let k := p.slot
    if err ≠ 0 then
      let s := (s.put SLU_ARM_ERR.ERR err).put SLU_ARM_ERR.SLOT (k % 4)
      (s.ev SLU_EVENT.ARM_REFUSED).endTask t 0x0020 0
    else
      let s := s.unlist k p.firstStep
      let s := (s.modSlot k (fun x => { x with pending := some img })).put (pendFld k) 1
      let s := (s.ev SLU_EVENT.ARM_DONE).endTask t 0 0
      if s.slotState k = 2 then takeEffect k s else s))

/-- The units of a sample's sectors. -/
def CatEntry.units (c : CatEntry) : List Nat :=
  (List.range (unitsOf c.sector (ceilDiv (c.offset + c.length) sectorBytes))).map (c.sector / 4 + ·)

/-- The units of a sample that are read from flash, with their pages (R157). -/
def State.unitReads (s : State) (c : CatEntry) : List (Nat × FlashLoc) :=
  c.units.filterMap (fun u => (s.aqf.onPage u).map (fun l => (u, l)))

/-- The flash operations that reads take: a page for each unit on an ONLINE die, the rest of its stripe for another (R20, R152, R179). A sample
that takes more than 4,096 has that many in flight at a time. (DEDUCED, assumption 103.) -/
def State.readOps (s : State) (l : List (Nat × FlashLoc)) : Nat :=
  min 4096 (l.map (fun r => if s.dieState r.2.die = dieOnline then 1 else (s.aqf.stripeOthers r.2).length)).sum

/-- Whether one more fetch of so many operations stays within 8,192 catalogue fetches and 4,096 flash operations in flight (R20). -/
def State.opsRoom (s : State) (ops : Nat) : Bool :=
  let open' := s.sluice.fetches.filter (fun f => f.landed.isNone)
  decide (open'.length < 8192) && decide (((open'.filter (fun f => f.job.isNone)).map (fun f => f.ops)).sum + ops ≤ 4096)

/-- The bytes of a sample (R108): from its first sector's offset on. -/
def State.sampleBytes (s : State) (c : CatEntry) : Option (List Byte) :=
  (s.aqf.sectors c.sector (ceilDiv (c.offset + c.length) sectorBytes)).map (fun b => (b.drop c.offset).take c.length)

/-- FETCH_ISSUE (R20, R135 to R138, R140, R144, R157, R175): each unit is looked up now, and its data are those of this moment. -/
def fetchIssueEffect (s : State) : State :=
  if s.ison SLU_CTRL.PAUSE ∨ s.halted ∨ s.get AQF_STATUS.READY = 0 ∨ s.ison AQF_STATUS.PF then s
  else
    let s := s.refill
    match s.pickFetch with
    | some (r, w) =>
      let p := w.part
      let c := s.catEntry p.plan w.g
      let reads := s.unitReads c
      if s.opsRoom (s.readOps reads) = false then s else
      let f : Fetch := ⟨r, p.slot, p.step, p.slice, p.dev, w.offset, w.g, w.attempt, c, s.sampleBytes c, reads, s.readOps reads, none, none, none⟩
      let s := s.issueReads c.sector (ceilDiv (c.offset + c.length) sectorBytes)
      ({ s with sluice := { s.sluice with fetches := s.sluice.fetches ++ [f] } }).trace 3 r 0 w.g 0
    | none => s

/-- The content of a Pebble container's bytes (R338): elements of INNER_DTYPE in INNER's dimensions, an image where these are three; plain
bytes where INNER names no type, or where the bytes are no whole number of its elements. (DESIGN CHOICE, assumption 123.) -/
def innerTensor (inner : PblInner) (bs : List Byte) : Tensor :=
  let k := dtypeBytes inner.dtype
  if k = 0 ∨ bs.length % k ≠ 0 then bytesTensor bs
  else
    let es := bytesElems inner.dtype bs
    let flat := fun (shape : Shape) => (⟨shape, 1, es.length, 1, inner.dtype, es⟩ : Tensor)
    match inner.dims with
    | [_] => flat .vector
    | [h, w, c] => if h * w * c = es.length then ⟨.image, h, w, c, inner.dtype, es⟩ else flat (.array [h, w, c])
    | ds => flat (.array ds)

/-- The expansion of a stored CODEC 0x0C sample; none where it ends in FORMAT or CHECK (R338). -/
def expandStored (b : List Byte) (s : State) : Option Tensor × State :=
  let inner := pblInnerOf b
  let r := pblRun inner none (pblAllUnits pblFreshExpand b + ceilDiv (leAt b 8 8) 256) pblFreshExpand b (leAt b 8 8)
  (if r.reason = pblDone then some (innerTensor inner r.out) else none, s.countPebble r)

def State.modFetch (s : State) (n : Nat) (f : Fetch → Fetch) : State :=
  { s with sluice := { s.sluice with fetches := modAt f n s.sluice.fetches } }

/-- A fetch ends with what its stages get. -/
def State.landFetch (s : State) (n : Nat) (f : Fetch) (it : Item) : State :=
  (s.modFetch n (fun f => { f with landed := some it })).trace 4 f.rill 0 f.g 0

/-- A fetched sample is placed in Basin (R110); without a buffer it waits. -/
def State.placeFetch (s : State) (n : Nat) (f : Fetch) (it : Item) (t : Tensor) : State :=
  let (pool, k) := placeFor t.byteLen
  match s.takeBufs 3 pool k with
  | (s', some l) => showBasin s (s'.landFetch n f { it with bufs := l, content := t, inLen := t.byteLen })
  | (s', none) => s'

/-- The dies of a fetch have served it, and what was suspended for it goes on (R162). -/
def State.servedFetch (s : State) (f : Fetch) : State := (s.modAqf (fun a => a.servedSluice f)).resumeDies

/-- SAMPLE_FETCH_DONE (R110, R157, R162, R163, R338): the bytes land in Basin, or the fetch received MEDIA_ERROR; without a buffer the
sample waits, and so while its dies serve other reads. A CODEC 0x0C sample goes to Pebble first, and lands once it is expanded. -/
def fetchDoneEffect (n : Nat) (s : State) : State :=
  match s.sluice.fetches[n]? with
  | some f =>
    let it := fun (reason : Nat) =>
      itemOf ⟨f.slot, f.step, f.slice, f.offset, f.dev, f.g, f.attempt, f.entry.cls, f.entry.user, f.entry.codec⟩ reason [] [] []
    if f.landed.isSome then s
    else
      match f.job, f.whole, f.data with
      | some _, none, _ => s
      | some _, some none, _ => s.landFetch n f (it 2)
      | some _, some (some t), _ => s.placeFetch n f (it 0) t
      | none, _, data =>
        if s.servesSluice f = false then s
        else
          match data with
          | none => (s.landFetch n f (it 2)).servedFetch f
          | some b =>
            if f.entry.codec = 0x0C then
              ((s.modFetch n (fun f => { f with job := some s.pebble.nextId })).submitJob .sluice b).servedFetch f
            else
              let t := s.placeFetch n f (it 0) (bytesTensor b)
              if t.sluice.fetches[n]?.any (fun f => f.landed.isSome) then t.servedFetch f else t
  | none => s

/-- The stages of a Rill that take their input from the Sluice. -/
def State.feedFirst (s : State) (r : Nat) (it : Item) : State :=
  let first := match s.weave?.bind (fun (w : Weave) => w.rill? r) with
    | some x => (x.stages.filter (fun (g : WStage) => g.input == 0xFF)).map (fun (g : WStage) => g.stage)
    | none => []
  s.modRill r (fun x => { x with
    holding := false
    stages := x.stages.map (fun g => if first.contains g.stage then { g with input := g.input ++ [{ it with relCycle := x.cycle }] } else g) })

/-- Takes the head of a part's round. (DEDUCED, assumption 64.) -/
def State.popHead (s : State) (r : Nat) (p : Part) : State :=
  s.modRill r (fun x => { x with part := some { p with todo := p.todo.drop 1 } })

/-- INDEX of a side-band entry (R238). -/
def indexWord (o g attempt : Nat) : Nat := g % 2 ^ 44 + (o % 65536) * 2 ^ 44 + (attempt % 16) * 2 ^ 60

/-- SAMPLE_RELEASE (R109, R118, R131, R133, R140): the head sample of a Rill's order, once its bytes are in Basin. -/
def releaseEffect (r : Nat) (s : State) : State :=
  match (s.rill r).part with
  | none => s
  | some p =>
    match p.todo with
    | [] => s
    | (o, g) :: _ =>
      if s.ison SLU_CTRL.PAUSE ∨ s.still ∨ s.draining ∨ (p.untouched ∧ s.mayBegin r p = false) ∨ (s.rill r).mode = .dead
          ∨ (s.rill r).mode = .stopped then s
      else
        let go := fun (it : Item) (s : State) =>
          ((((s.feedFirst r it).popHead r p).begin p.slot p.step).trace 1 r p.round (indexWord o g p.round) p.step).refill
        if p.live then
          match (s.slot p.slot).live.find? (fun x => x.index == g) with
          | some x => go { itemOf (tagOf p o g x.cls x.user x.codec) 0 x.bytes x.desc x.bufs with pixel := x.pixel } s
          | none => s
        else
          let c := s.catEntry p.plan g
          if c.fetchable then
            match s.fetchOf r ⟨p, o, g, p.round⟩ with
            | some f =>
              match f.landed with
              | some it =>
                go it { s with sluice := { s.sluice with fetches := s.sluice.fetches.filter (fun x => !x.isFor r ⟨p, o, g, p.round⟩) } }
              | none => s
            | none => s
          else go (itemOf (tagOf p o g c.cls c.user c.codec) 1 [] [] []) s

/-- A write of SLU_CTRL (R113, R140). -/
def sluCtrl (w : Word) (s : State) : State :=
  let s := s.swWrite .SLU_CTRL 0 w
  if SLU_CTRL.WALK_CLR.cmd w then s.put SLU_WALK_MAX.PASSES 0 else s

/-- A write of SLU_PROBE_CTRL (R141): START samples the slot and the position. -/
def probeCtrl (w : Word) (s : State) : State :=
  let s := s.swWrite .SLU_PROBE_CTRL 0 w
  if SLU_PROBE_CTRL.START.cmd w then
    let pos := s.get SLU_PROBE_IN_LO.POS + 2 ^ 32 * (s.get SLU_PROBE_IN_HI.POS % 2 ^ 12)
    { s with sluice := { s.sluice with probe := some (s.get SLU_PROBE_CTRL.SLOT, pos) } }
  else s

/-- The plan that a probe of a slot uses: the running one, or the pending one where none runs. -/
def State.probePlan (s : State) (k : Nat) : Option Plan :=
  match (s.slot k).plan with
  | some (p, _) => if s.slotState k = 1 then some p else (s.slot k).pending.map planOf
  | none => (s.slot k).pending.map planOf

/-- PROBE_DONE (R111, R141). Whether a probe's own walk counts in SLU_WALK_MAX the spec does not say: it does not.
(DESIGN CHOICE, assumption 121.) -/
def probeDoneEffect (s : State) : State :=
  match s.sluice.probe with
  | some (k, pos) =>
    let s := { s with sluice := { s.sluice with probe := none } }
    let none' := ((s.put SLU_PROBE_OUT_LO.G_LO (2 ^ 32 - 1)).put SLU_PROBE_OUT_HI.G_HI (2 ^ 12 - 1)).put SLU_PROBE_OUT_HI.PASSES 0
    let s := match s.probePlan k with
      | some p =>
        if p.live ∨ p.n ≤ pos then none'
        else
          let (g, passes) := permWalk pos p.n p.key
          ((s.put SLU_PROBE_OUT_LO.G_LO (g % 2 ^ 32)).put SLU_PROBE_OUT_HI.G_HI (g / 2 ^ 32)).put
            SLU_PROBE_OUT_HI.PASSES (min 0xFFFF passes)
      | none => none'
    s.ev SLU_EVENT.PROBE_DONE
  | none => s

/-- CATALOGUE_LOAD (R108, R201): entries from TARGET on, as they arrive; those that had arrived before a read failed stay, and
RESULT counts them. (DEDUCED, assumption 54.) -/
def catalogueEffect (t : Nat) (r : HostRead) (s : State) : State :=
  s.runTask t 0x13 (fun x s =>
    let n := min x.count (r.bytes.length / 16)
    let s := (s.loadEntries x.target ((chunksOf 16 n r.bytes).map catEntryOf)).modTask t (fun y => { y with progress := max x.progress n })
    match r.fail with
    | some reason => s.sourceFailed x r.bytes.length reason (max x.progress n)
    | none => if n = x.count then s.endTask t 0 n else s)

/-- INJECT (R118, R200, R54, R57): judged by the slot's plan in effect; it waits for a pending plan that will take it, for the plan and
activation records of its step, for room in the Mirror ring and for a Basin buffer. -/
def injectEffect (t : Nat) (source : HostRead) (s : State) : State :=
  s.runTask t 0x05 (fun x s =>
    let k := leAt x.operands 0 1
    let codec := leAt x.operands 1 1
    let cls := leAt x.operands 2 1
    let user := leAt x.operands 3 1
    if s.inReplay then s.endTask t 0x0020 0
    else if s.takesLive k 2 then s.onSource x source (fun payload s =>
      if s.stepOpen (s.nextLive k).2 = false then s
      else if s.mirRoom (16 + payload.length) = false then s.mirHeld
      else
        let (index, step) := s.nextLive k
        let (pool, n) := placeFor payload.length
        match s.takeBufs 4 pool n with
        | (s', some l) =>
          let body := leBytes 4 payload.length ++ leBytes 1 codec ++ leBytes 1 cls ++ leBytes 1 user ++ leBytes 1 k
            ++ leBytes 8 index ++ payload
          let s' := s'.record 0x05 0xFF 0 step body
          let s' := s'.acceptLive k ⟨index, codec, cls, user, [], none, payload, l⟩
          (showBasin s s').endTask t 0 index
        | (s', none) => s')
    else if s.awaitsLive k 2 then s
    else s.endTask t 0x0020 0)

def execPlanArm (t : Nat) (img : HostRead) (s : State) : Host.Outcome State Fault Refusal := .next (finish s (armEffect t img s))
def execPlanTakeEffect (k : Nat) (s : State) : Host.Outcome State Fault Refusal := .next (finish s (takeEffect k s))
def execFetchIssue (s : State) : Host.Outcome State Fault Refusal := .next (finish s (fetchIssueEffect s))
def execSampleFetchDone (n : Nat) (s : State) : Host.Outcome State Fault Refusal := .next (finish s (fetchDoneEffect n s))
def execSampleRelease (r : Nat) (s : State) : Host.Outcome State Fault Refusal := .next (finish s (releaseEffect r s))
def execSluPause (w : Word) (s : State) : Host.Outcome State Fault Refusal :=
  .next (finish s (s.viaReg .host .SLU_CTRL 0 w (sluCtrl w)))
/-- SLU_CTRL written with WALK_CLR as 1 and nothing else changed. -/
def execWalkClr (s : State) : Host.Outcome State Fault Refusal :=
  let w := SLU_CTRL.WALK_CLR.set (s.word .SLU_CTRL 0) 1
  .next (finish s (s.viaReg .host .SLU_CTRL 0 w (sluCtrl w)))
/-- SLU_PROBE_CTRL written with START as 1. -/
def execProbeStart (w : Word) (s : State) : Host.Outcome State Fault Refusal :=
  .next (finish s (s.viaReg .host .SLU_PROBE_CTRL 0 (SLU_PROBE_CTRL.START.set w 1)
    (probeCtrl (SLU_PROBE_CTRL.START.set w 1))))
def execProbeDone (s : State) : Host.Outcome State Fault Refusal := .next (finish s (probeDoneEffect s))
def execCatalogueLoad (t : Nat) (bs : HostRead) (s : State) : Host.Outcome State Fault Refusal :=
  .next (finish s (catalogueEffect t bs s))
def execInject (t : Nat) (payload : HostRead) (s : State) : Host.Outcome State Fault Refusal :=
  .next (finish s (injectEffect t payload s))

end Sys2Proof.Machine
end

