-- ==== Sys2Proof/Machine/Activation.lean ====
section
/-! DEFINITION. Arming, and the phases of an activation (R93 to R103, R106, R125, R320, R501). -/
namespace Sys2Proof.Machine

def State.act (s : State) : ActSt := s.cascade.act
def State.setAct (s : State) (a : ActSt) : State := { s with cascade := { s.cascade with act := a } }

/-- CSC_ACT_STATUS shows what is armed; with nothing armed, ARMED_SLOT keeps the last slot. (DESIGN CHOICE, assumption 122.) -/
def State.showArm (s : State) : State :=
  let s := s.putb CSC_ACT_STATUS.ARMED s.act.armed.isSome
  match s.act.armed with
  | some (k, _) => s.put CSC_ACT_STATUS.ARMED_SLOT k
  | none => s

/-- Nothing is armed any more. -/
def State.disarm (s : State) : State := (s.setAct { s.act with armed := none, byHash := none }).showArm

/-- Whether the boundary of the armed activation has begun: the activation of a replay waits there for the weave that it names, and
proceeds (R94, R96). -/
def State.boundaryBegun (s : State) : Bool :=
  s.act.phase == .holding && s.act.byHash.isSome && s.act.armed.any (fun a => a.2 == s.act.step)

/-- Whether a bank that a weave takes as a Rill bank is owned by neither a Rill stage of the active weave nor Keeper (R92). -/
def State.bankBusy (s : State) (w : Weave) : Bool :=
  w.owners.zipIdx.any (fun e => boClass e.1 == 1 && s.ownerClass e.2 != clsRill && s.ownerClass e.2 != clsKeeper)

/-- Whether an engine is available to an activation (R95, R102, R103): for a Jet under CSC_SPARE_MAP, the mapping that comes into use. -/
def State.engineServes (s : State) (type n : Nat) : Bool :=
  if type = 5 then s.jetAvailIn (s.word .CSC_SPARE_MAP 0).toNat n else s.engineAvail type n

/-- The checks that R92 marks A and B: 0, or the first error. -/
def State.weaveErr (s : State) (x : WeaveSlot) : Nat :=
  match x.weave with
  | none => weSlotState
  | some w =>
    if w.rills.any (fun r => r.stages.any (fun g =>
        (decide (g.type < 7) && !s.engineServes g.type g.engine) || (g.type == 7 && !s.engineAvail 7 r.rill))) then weEngineAbsent
    else if s.ison PWR_STATUS.START_FAIL then weEngineAbsent
    else if s.bankBusy w then weBankBusy
    else if s.ison CSC_SIGN_CTRL.ENFORCE ∧ x.verified = false then weSigAbsent
    else 0

/-- The highest step whose samples the Sluice has begun to release; a step being activated counts (R93). -/
def State.releaseStep (s : State) : Option Nat :=
  let l := s.sluice.slots.filterMap (·.begun)
  let m := l.foldl (fun (m : Option Nat) x => some (max x (m.getD 0))) none
  if s.activating then some (max s.act.step (m.getD 0)) else m

/-- The error of an arm of a slot at a step (R93, R96); 0 where it is accepted. (DEDUCED, assumption 23.) An arm for a step of which a
LIVE sample's record is written comes too late to be recorded before it (R57). (DESIGN CHOICE, assumption 122.) -/
def State.armRefusal (s : State) (k step : Nat) : Nat :=
  if s.inReplay then weReplay
  else if s.releaseStep.any (fun r => decide (step ≤ r)) ∨ s.liveRecorded step then weLate
  else
    match s.cascade.slots[k]? with
    | some x => if x.state = .valid ∨ x.state = .active then s.weaveErr x else weSlotState
    | none => weSlotState

/-- CSC_ACT_CTRL.ARM (R93). -/
def armWeave (s : State) : State :=
  let k := s.get CSC_ACT_CTRL.SLOT
  let step := s.get CSC_ACT_STEP_LO.STEP_LO + 2 ^ 32 * s.get CSC_ACT_STEP_HI.STEP_HI
  let e := s.armRefusal k step
  if e = 0 then (s.setAct { s.act with armed := some (k, step), byHash := none }).showArm
  else (s.put CSC_ACT_STATUS.ERR e).ev CSC_EVENT.ACT_REFUSED

/-- A write of CSC_ACT_CTRL (R93, R94): DISARM comes before ARM, and is ignored once the boundary has begun. -/
def actCtrl (w : Word) (s : State) : State :=
  let s := s.swWrite .CSC_ACT_CTRL 0 w
  let s := if CSC_ACT_CTRL.DISARM.cmd w ∧ s.boundaryBegun = false then s.disarm else s
  if CSC_ACT_CTRL.ARM.cmd w then armWeave s else s

/-- Whether the Sluice has released every round of every part of the steps before `n` (R97, R125). A dead Rill's parts
wait for the activation that restores it (assumption 30), and a slot in HOLDING, which releases nothing, is waited for no more than one
that has ended. (DEDUCED, assumption 22.) -/
def State.boundaryReached (s : State) (n : Nat) : Bool :=
  (s.rills.all (fun r => r.mode == .dead || r.parts.all (fun p => decide (n ≤ p.step) || p.allReleased)))
  && (List.range 4).all (fun k =>
      (s.dueImage k).isNone
      && (match (s.slot k).plan with
          | some (p, _) => s.slotState k != 1 || decide (n ≤ (s.slot k).genStep) || decide (p.lastStep < (s.slot k).genStep)
          | none => true))

/-- An activation fails (R99, R501). -/
def State.failAct (s : State) (err : Nat) : State :=
  let s := s.setAct { s.act with phase := .holding }
  let s := ((s.put CSC_ACT_STATUS.ACTIVATING 0).put CSC_ACT_STATUS.HOLDING 1).put CSC_ACT_STATUS.ERR err
  s.ev CSC_EVENT.ACT_FAIL

/-- WEAVE_BOUNDARY (R96, R97, R99): the boundary begins, and its B checks run. After a failure it begins anew for an arm of
the same step. In production test mode no weave becomes active (R447). A boundary may begin while an earlier activation still waits for
its first release, of which the spec says nothing: that one then has none, and does not count (DESIGN CHOICE, assumption 121). A failed check withdraws what was armed, also in a
replay, where the activation of the log is then not tried again (DESIGN CHOICE, assumption 122). -/
def boundaryEffect (s : State) : State :=
  match s.act.armed with
  | none => s
  | some (_, n) =>
    if (s.activating ∧ s.act.phase ≠ .release) ∨ (s.act.phase = .holding ∧ s.act.step ≠ n) ∨ s.boundaryReached n = false ∨ s.ison TST_MODE.EN then s
    else
      let s := s.setAct { s.act with step := n }
      match s.armedSlot with
      | none => s.failAct weHashAbsent
      | some k =>
        let e := (s.cascade.slots[k]?.map s.weaveErr).getD weSlotState
        if e ≠ 0 then s.disarm.failAct e
        else
          let s := s.disarm
          let s := s.setAct { s.act with phase := .drain, slot := k, step := n }
          (s.put CSC_ACT_STATUS.ACTIVATING 1).put CSC_ACT_STATUS.HOLDING 0

/-- Whether a Rill has handed on every batch of the steps before `n`. (DEDUCED, assumption 30.) -/
def RillSt.drained (r : RillSt) (n : Nat) : Bool := r.mode == .dead || r.parts.all (fun p => decide (n ≤ p.step))

/-- ACT_DRAIN_DONE: every Rill is idle; the swap begins, and samples CSC_SPARE_MAP (R97, R101). -/
def drainDoneEffect (s : State) : State :=
  if s.act.phase = .drain ∧ s.rills.all (fun r => r.drained s.act.step) then
    s.setAct { s.act with phase := .swap, spare := (s.word .CSC_SPARE_MAP 0).toNat }
  else s

/-- The status registers show the engines of a weave's stages as assigned (R244, R278, R299). -/
def State.assignStage (s : State) (r : Nat) (g : WStage) : State :=
  match s.engineOf r g with
  | none => s
  | some (f, i) =>
    let s := s.puti f i 1
    let s := (s.puti ⟨f.reg, 12, 8⟩ i g.stage).puti ⟨f.reg, 7, 4⟩ i r
    if g.type = 6 then
      let c := reedCfgOf g.cfg
      (s.puti REED_STATUS.MODE i c.mode).puti REED_STATUS.VOCAB_SLOT i c.vocabSlot
    else s

/-- An engine is unassigned, unless it is retired. -/
def State.idleEngine (s : State) (f : Fld) (i : Nat) : State := if s.geti f i = 3 then s else s.puti f i 0

/-- The mapped spares show the Jets they serve (R101, R278). -/
def State.showSpares (s : State) : State :=
  s.each 4 (fun k s =>
    match spareServes (s.get CSC_SPARE_ACTIVE.MAP) k with
    | some j => s.puti JET_STATUS.LOGICAL (64 + k) j
    | none => s)

/-- DBG_BRK_STATUS.BOUND shows the cores to which Keeper stages are bound (R436, R448). -/
def State.showBound (s : State) : State :=
  s.put DBG_BRK_STATUS.BOUND (s.svc.stageCore.foldl (fun m e => setBit m e.2.2) 0)

/-- The core to which a Keeper stage is bound is not stated: a free value among the DATA cores (R405, R436). -/
def State.bindCores (s : State) (w : Weave) : State :=
  let l := w.rills.flatMap (fun r => (r.stages.filter (fun g => g.type == 8)).map (fun g => (r.rill, g.stage)))
  let s := { s with svc := { s.svc with stageCore := [] } }
  (l.foldl (fun s e =>
    let cores := s.coresOf 1
    let (n, s) := s.fresh 10 (max 1 cores.length)
    { s with svc := { s.svc with stageCore := s.svc.stageCore ++ [(e.1, e.2, cores.getD n 0)] } }) s).showBound

/-- A Rill takes a weave (R97, R103): its stages are new and its engines idle; a part it held goes back to the front of
its order. (DEDUCED, assumption 102.) -/
def RillSt.rewoven (r : RillSt) (w : Option WRill) : RillSt :=
  { r with
    mode := .running
    faults := []
    queue := r.parts
    part := none
    pc := 0, cycle := 0, holding := false
    stages := (w.map (fun x => x.stages.map (fun g => (⟨g.stage, [], none, 0⟩ : StageSt)))).getD []
    binds := []
    arrived := [], rejected := [], history := [], timing := []
    rebuilds := 0 }

/-- The old weave's slot is VALID again (R97). -/
def State.retireSlot (s : State) (k : Nat) : State :=
  match s.activeSlot with
  | some j =>
    match s.cascade.slots[j]? with
    | some x => if j = k then s else s.setSlot j { x with state := .valid }
    | none => s
  | none => s

/-- A slot is the active one (R86). -/
def State.activateSlot (s : State) (k : Nat) : State :=
  let s := match s.cascade.slots[k]? with
    | some x => s.setSlot k { x with state := .active }
    | none => s
  (s.put CSC_STATUS.ACTIVE 1).put CSC_STATUS.ACTIVE_SLOT k

/-- The spare mapping is in effect, and no engine is assigned (R95, R101). -/
def State.swapEngines (s : State) (map : Nat) : State :=
  let s := (s.put CSC_SPARE_ACTIVE.MAP map).showSpares.showAvail
  let s := s.each 76 (fun i s => s.idleEngine DEC_STATUS.STATE i)
  let s := s.each 68 (fun i s => s.idleEngine JET_STATUS.STATE i)
  s.each 16 (fun i s => s.idleEngine REED_STATUS.STATE i)

/-- The stages of a weave take their engines, the Rills take the weave, and its Keeper stages their cores (R97, R103). -/
def State.takeWeave (s : State) (w : Weave) : State :=
  let s := w.rills.foldl (fun s r => r.stages.foldl (fun s g => s.assignStage r.rill g) s) s
  { s with rills := s.rills.zipIdx.map (fun (e : RillSt × Nat) => e.1.rewoven (w.rill? e.2)) }.bindCores w

/-- The caches of the Reed lanes are invalid (R297), and the replay pool takes the size that WEIR_POOL.MIB holds (register WEIR_POOL). -/
def State.freshCaches (s : State) : State :=
  { s with
    caches := List.replicate 16 []
    weir := { s.weir with poolMib := max 64 (min 4096 (s.get WEIR_POOL.MIB)) } }

/-- What the swap phase leaves beside the phase (R86, R95, R97, R101, R297). -/
def State.swap (s : State) : State :=
  let t := (((s.retireSlot s.act.slot).activateSlot s.act.slot).swapEngines s.act.spare).freshCaches
  match t.weave? with
  | none => t
  | some w => t.takeWeave w

/-- ACT_SWAP_DONE (R86, R95, R97, R101, R297): the armed slot is active, the spare mapping is in effect, and the caches of
the Reed lanes are invalid. (DEDUCED, assumption 102.) -/
def swapEffect (s : State) : State :=
  if s.act.phase ≠ .swap then s
  else
    let s := s.swap
    s.setAct { s.act with phase := .ownership }

/-- The owners of a weave's Rill banks; a Rill bank that the weave does not take passes to Keeper (R97, R306).
(DEDUCED, assumption 46.) -/
def State.setOwners (s : State) (w : Weave) : State :=
  s.each 1024 (fun b s =>
    let o := w.owners.getD b 0
    if boClass o = 1 then
      let s := (s.puti RSV_OWNER.CLASS b clsRill).puti RSV_OWNER.RILL b (boRill o)
      (s.puti RSV_OWNER.STAGE b (boStage o)).puti RSV_OWNER.PORT_FIRST b (boPortFirst o)
    else if s.ownerClass b = clsRill then
      let s := (s.puti RSV_OWNER.CLASS b clsKeeper).puti RSV_OWNER.RILL b 0
      (s.puti RSV_OWNER.STAGE b 0).puti RSV_OWNER.PORT_FIRST b 0
    else s)

/-- ACT_OWNERSHIP_DONE (R97, R309): the owners are set; handovers that waited are judged. (DEDUCED, assumption 46.) -/
def ownershipEffect (s : State) : State :=
  if s.act.phase ≠ .ownership then s
  else
    let s := match s.weave? with
      | some w => s.setOwners w
      | none => s
    judgeWaiting (s.setAct { s.act with phase := .constants })

/-- A weave's constants are copied into Reservoir (R82, R97). -/
def State.copyConstants (s : State) (w : Weave) : State :=
  w.consts.foldl (fun s c => s.wrBytes (262144 * c.bank + 64 * c.word) c.data) s

/-- ACT_CONSTANTS_DONE. -/
def constantsEffect (s : State) : State :=
  if s.act.phase ≠ .constants then s
  else
    let s := match s.weave? with
      | some w => s.copyConstants w
      | none => s
    s.setAct { s.act with phase := .pinning }

/-- The pool and chain length of an output buffer (R320): pools 4 to 6, or a chain of pool 7. -/
def pinPlace (bytes : Nat) : Nat × Nat :=
  match [4, 5, 6].find? (fun p => decide (bytes ≤ poolSize p)) with
  | some p => (p, 1)
  | none => (7, ceilDiv bytes (poolSize 7))

/-- Pins `n` output buffers for a Rill; false where one could not be had. (DEDUCED, assumption 105.) -/
def State.pinRill (s : State) (r pool chain : Nat) : Nat → State × Bool
  | 0 => (s, true)
  | n + 1 =>
    match s.takeBufs 0 pool chain with
    | (t, some l) => (t.modRill r (fun x => { x with freeBufs := x.freeBufs ++ [l] })).pinRill r pool chain n
    | (t, none) => (t, false)

/-- Pins the output buffers of a weave's Rills, as far as it goes (R320, R501). (DEDUCED, assumption 105.) -/
def State.pinAll (s : State) : List WRill → State × Bool
  | [] => (s, true)
  | w :: l =>
    let c := packCfgOf ((w.packer?.map (·.cfg)).getD [])
    let (pool, chain) := pinPlace c.outBytes
    let (t, ok) := s.pinRill w.rill pool chain c.outBufs
    if ok then t.pinAll l else (t, false)

/-- Releases the pins that are not with the Weir (R320). -/
def State.unpin (s : State) : State :=
  let l := s.rills.flatMap (fun r => r.freeBufs.flatMap id)
  let t := s.freeBufs 0 l
  { t with rills := t.rills.map (fun r => { r with freeBufs := [] }) }

/-- The body of a WEAVE_ACT record (R56). -/
def weaveActBody (slot : Nat) (hash : List Byte) : List Byte := leBytes 1 slot ++ zeros 7 ++ fitBytes 48 hash

/-- The release phase of an activation begins (R57, R97): WEAVE_ACT, then the PLAN_ARM records of the step, and the Rills run. The first
release of the step ends it (State.firstRelease). -/
def State.actRelease (s : State) : State :=
  let n := s.act.step
  let s := s.mirApply
  let s := s.record 0x03 0xFF 0 n (weaveActBody s.act.slot ((s.weave?.map (·.hash)).getD []))
  let s := (s.setAct { s.act with phase := .release }).armNextFromLog n
  (takeAll (s.dueWith n) s).refill

/-- The ring bytes that the release of an activation needs, beside those of a pending setting (R54). -/
def State.actNeed (s : State) : Nat :=
  let t := s.setAct { s.act with phase := .release }
  recLen 56 + ((t.dueWith s.act.step).map (fun e => recLen e.2.2.length)).sum

/-- ACT_PINNING_DONE (R320, R501): the old weave's pins are released and the new weave's taken, or PIN_SHORT. -/
def pinningEffect (s : State) : State :=
  if s.act.phase ≠ .pinning then s
  else if s.mirTakes s.actNeed = false then s.mirHeld
  else
    let t := s.unpin
    let t := t.setAct { t.act with gen := t.act.gen + 1 }
    let (u, ok) := t.pinAll ((t.weave?.map (·.rills)).getD [])
    let u := showBasin s u
    if ok then u.actRelease else u.failAct wePinShort

/-- One byte of a CSC_SPARE_MAP write (R101): whether it is taken, and whether it is rejected. A byte with VALID 0 names no
Jet. (DEDUCED, assumption 45.) -/
def spareByte (k old new : Nat) : Bool × Bool :=
  if old = new then (false, false)
  else if bitOf old 6 then (false, true)
  else if bitOf new 7 ∧ new % 64 / 16 ≠ k then (false, true)
  else (true, false)

/-- A write of CSC_SPARE_MAP (R101). FUSED is read-only: a byte that differs from the stored one in that bit alone is unchanged, of which
the spec says nothing. (DEDUCED, assumption 45.) (DESIGN CHOICE, assumption 121.) -/
def spareMapEffect (w : Word) (s : State) : State :=
  s.each 4 (fun k s =>
    let old := bitsOf (s.word .CSC_SPARE_MAP 0).toNat (8 * k + 7) (8 * k)
    let new := clearBit (bitsOf w.toNat (8 * k + 7) (8 * k)) 6 + (if bitOf old 6 then 64 else 0)
    let (take, reject) := spareByte k old new
    let s := if take then s.put ⟨.CSC_SPARE_MAP, 8 * k + 7, 8 * k⟩ new else s
    if reject then s.ev CSC_EVENT.SPARE_REJECT else s)

/-- A write of CSC_SIGN_CTRL (R106, R471): LOCK written again is a violation; LOCK sets ENFORCE, which then ignores
writes. -/
def signCtrlEffect (rq : Requester) (w : Word) (s : State) : State :=
  let locked := s.ison CSC_SIGN_CTRL.LOCK
  if locked ∧ CSC_SIGN_CTRL.LOCK.cmd w then s.refuseAccess rq 0 0x80030 4 true 4
  else
    let s := s.swWrite .CSC_SIGN_CTRL 0 w
    if s.ison CSC_SIGN_CTRL.LOCK then s.put CSC_SIGN_CTRL.ENFORCE 1 else s

/-- CSC_ACT_CTRL written with ARM as 1. -/
def execArm (w : Word) (s : State) : Host.Outcome State Fault Refusal :=
  .next (finish s (s.viaReg .host .CSC_ACT_CTRL 0 (CSC_ACT_CTRL.ARM.set w 1) (actCtrl (CSC_ACT_CTRL.ARM.set w 1))))
/-- CSC_ACT_CTRL written with DISARM as 1. -/
def execDisarm (w : Word) (s : State) : Host.Outcome State Fault Refusal :=
  .next (finish s (s.viaReg .host .CSC_ACT_CTRL 0 (CSC_ACT_CTRL.DISARM.set w 1) (actCtrl (CSC_ACT_CTRL.DISARM.set w 1))))
def execWeaveBoundary (s : State) : Host.Outcome State Fault Refusal := .next (finish s (boundaryEffect s))
def execActDrainDone (s : State) : Host.Outcome State Fault Refusal := .next (finish s (drainDoneEffect s))
def execActSwapDone (s : State) : Host.Outcome State Fault Refusal := .next (finish s (swapEffect s))
def execActOwnershipDone (s : State) : Host.Outcome State Fault Refusal := .next (finish s (ownershipEffect s))
def execActConstantsDone (s : State) : Host.Outcome State Fault Refusal := .next (finish s (constantsEffect s))
def execActPinningDone (s : State) : Host.Outcome State Fault Refusal := .next (finish s (pinningEffect s))
def execSpareMapWrite (w : Word) (s : State) : Host.Outcome State Fault Refusal :=
  .next (finish s (s.viaReg .host .CSC_SPARE_MAP 0 w (spareMapEffect w)))
def execSignCtrlWrite (rq : Requester) (w : Word) (s : State) : Host.Outcome State Fault Refusal :=
  .next (finish s (s.viaReg rq .CSC_SIGN_CTRL 0 w (signCtrlEffect rq w)))

end Sys2Proof.Machine
end

