-- ==== Sys2Proof/Machine/KeeperOps.lean ====
section
/-! DEFINITION. Keeper's cores and Keeper as a whole: roles (R403), the start of an image (R311, R417, R419), the whole
restart (R406), and the end of a trial (R414). -/
namespace Sys2Proof.Machine

/-- Core roles (R403). -/
def roleRestarting : Nat := 0
def roleData : Nat := 1
def roleBackground : Nat := 2
def roleStandby : Nat := 3

/-- A core takes a role; SVC_STATUS.STANDBY counts the standby cores (R403). -/
def State.setRole (s : State) (c role : Nat) : State :=
  let s := s.put ⟨.SVC_CORE, 2 * c + 1, 2 * c⟩ role
  s.put SVC_STATUS.STANDBY (min 15 (s.coresOf roleStandby).length)

/-- The roles that B1 firmware assigns at start: 4 DATA, 10 BACKGROUND and 2 STANDBY cores, in ascending core number as
the example of R405 has them (assumption 34). -/
def startRole (c : Nat) : Nat := if c < 4 then roleData else if c < 14 then roleBackground else roleStandby

/-- Keeper tasks that had not completed run again from their start (R209). (DEDUCED, assumption 34.) -/
def State.rerunTasks (s : State) : State :=
  s.setTasks (s.host.tasks.map (fun t =>
    if keeperTask t.opcode ∧ t.done = none then { t with started := false } else t))

/-- No core runs the dispatcher (R32, R195). -/
def State.keeperGone (s : State) : State :=
  ((s.put HIF_STATUS.KEEPER_UP 0).setBusy TASK_STATUS.KEEPER true).rerunTasks

/-- Whether an image is in settings-safe mode (R419). -/
def State.settingsSafe (s : State) (k : Nat) : Bool :=
  match s.ledger with
  | some l => let (lo, hi) := s.ledgerRange k; decide (l.format < lo) || decide (hi < l.format)
  | none => s.fwState k != fwCommitted

/-- The image in a slot runs: its mode is judged, and a COMMITTED image that finds no ledger writes an empty one (R419). -/
def State.runImage (s : State) (k : Nat) : State :=
  let safe := s.settingsSafe k
  let s := ((s.put SVC_FW_STATUS.RUNNING k).putb HIF_STATUS.SETTINGS_SAFE safe).putb SVC_STATUS.SETTINGS_SAFE safe
  if s.ledger = none ∧ safe = false then s.rewriteLedger (s.ledgerRange k).2 [] else s.showKeys

/-- Keeper's cores take their roles, its stages are bound, and intake opens (R403, R406, R436). The first DATA core holds
the dispatcher (assumption 34). -/
def State.keeperUp (s : State) : State :=
  let s := s.each 16 (fun c s => s.setRole c (startRole c))
  let s := s.modSvc (fun v => { v with dispatcher := some 0, takeovers := [], reloading := [] })
  let s := (s.put SVC_STATUS.KEEPER_RESTARTING 0).put HIF_STATUS.KEEPER_UP 1
  let s := match s.weave? with
    | some w => s.bindCores w
    | none => s
  s.setBusy TASK_STATUS.KEEPER false

/-- Keeper is not running: every core is reset (R406). -/
def State.keeperDown (s : State) : State :=
  let s := s.each 16 (fun c s => s.setRole c roleRestarting)
  let s := s.modSvc (fun v => { v with dispatcher := none, takeovers := [], reloading := [] })
  (s.put DBG_BRK_STATUS.HALTED 0).keeperGone

/-- The warden restarts the whole of Keeper (R406, R398). (DEDUCED, assumption 85.) -/
def State.restartKeeper (s : State) : State :=
  if s.ison SVC_STATUS.KEEPER_RESTARTING then s
  else ((s.keeperDown.put SVC_STATUS.KEEPER_RESTARTING 1).ev SVC_EVENT.KEEPER_RESTART).logFault 15 0 0 0

/-- A trial ends on the COMMITTED image (R414): the trial slot is PARTIAL, and Keeper restarts. -/
def State.endTrial (s : State) : State :=
  let k := if s.fwState 0 = fwTrial then 0 else 1
  let s := (s.setImage k fwPartial).put SVC_STATUS.TRIAL 0
  ((s.put SVC_FW_STATUS.RUNNING (1 - k)).ev SVC_EVENT.REVERTED).restartKeeper

/-- A trial ends by its expiry. -/
def State.expireTrial (s : State) : State :=
  if s.ison SVC_STATUS.TRIAL then (s.ev SVC_EVENT.TRIAL_EXPIRED).endTrial else s

/-- The words of a ledger record, as Keeper writes them to registers. (DESIGN CHOICE, assumption 35.) -/
def recordWords (b : List Byte) : List Word := (List.range (b.length / 4)).map (fun i => BitVec.ofNat 32 (leAt b (4 * i) 4))

/-- The banks that a Basin layout gives to Basin's pools are handed over from Keeper to the Sluice before it applies, each by a write of
RSV_OWNER that Keeper sees done (R27, R308, assumption 35). -/
def State.giveBanks (s : State) (w : Word) : State :=
  let first := BSN_POOL_BANKS.FIRST.get w
  s.each (BSN_POOL_BANKS.COUNT.get w) (fun i s =>
    if s.ownerClass (first + i) = clsKeeper then
      handoverEnd (first + i) (ownerWrite (first + i) (RSV_OWNER.NEW_CLASS.set (RSV_OWNER.GO.set 0#32 1) clsSluice) s)
    else s)

/-- The Basin layout of ledger record 1 (R311, R417): the images of BSN_POOL_BANKS, BSN_POOL_THR, BSN_MIN, BSN_CLIENT_CFG and
BSN_CPOOL, in the order in which R417 lists them and entry by entry (assumption 35). -/
def State.applyLayout (s : State) : State :=
  let word := fun (i : Nat) (w : Word) (s : State) =>
    if i < 8 then poolBanksEffect i w (s.giveBanks w)
    else if i < 16 then showBasin s (s.swWrite .BSN_POOL_THR (i - 8) w)
    else if i < 96 then minEffect ((i - 16) / 8) ((i - 16) % 8) w s
    else if i < 106 then (if i = 96 ∨ i = 99 then s else s.swWrite .BSN_CLIENT_CFG (i - 96) w)
    else if i = 106 then cpoolEffect w s else s
  (recordWords ((s.record? 1).getD [])).zipIdx.foldl (fun s e => word e.2 e.1 s) s

/-- The service defaults of ledger record 0x30 (R417): SVC_WDT, SVC_TRIAL, SVC_CTRL and SVC_SUSPECT_CFG. -/
def State.applyDefaults (s : State) : State :=
  let regs : List Reg := [.SVC_WDT, .SVC_TRIAL, .SVC_CTRL, .SVC_SUSPECT_CFG]
  ((recordWords ((s.record? 0x30).getD [])).zip regs).foldl (fun s e => s.swWrite e.2 0 (e.2.clampWord e.1)) s

end Sys2Proof.Machine
end

