-- ==== Sys2Proof/Machine/Service.lean ====
section
/-! DEFINITION. Keeper cores and the warden (R404 to R407), debug halts (R435, R436), step barriers (R420, R421), and the
self-test that SVC_ENG_CMD starts (R424). -/
namespace Sys2Proof.Machine

/-- Whether a core is in debug halt. -/
def State.isHalted (s : State) (c : Nat) : Bool := bitOf (s.get DBG_BRK_STATUS.HALTED) c

/-- Standby cores that no DATA takeover is waiting for. -/
def State.spareCores (s : State) : List Nat :=
  (s.coresOf roleStandby).drop (s.svc.takeovers.countP (fun h => h.2.1 == roleData))

/-- The hangs within the last second, the one at `now` among them (R406). -/
def recentHangs (now : Nat) (l : List Nat) : List Nat := l.filter (fun t => decide (now < t + 200000000)) ++ [now]

/-- The warden handles the expiry of a core's watchdog at a tick (R405, R406): the core is halted and fenced, and its duties wait for
another, or the whole of Keeper restarts. -/
def State.handleHang (s : State) (c tick : Nat) : State :=
  let role := s.coreRole c
  if (role ≠ roleData ∧ role ≠ roleBackground) ∨ s.isHalted c then s
  else
    let s := ((s.ev SVC_EVENT.CORE_HANG).bump SVC_HANGS.COUNT 1).logFault 14 0 c 0
    let s := s.modSvc (fun v => { v with hangs := recentHangs tick v.hangs })
    if 3 ≤ s.svc.hangs.length ∨ (role = roleData ∧ s.spareCores = []) then s.restartKeeper
    else
      let s := s.setRole c roleRestarting
      let s := s.modSvc (fun v => { v with takeovers := v.takeovers ++ [(c, role, tick)], reloading := v.reloading ++ [c] })
      if s.svc.dispatcher = some c then s.keeperGone else s

/-- CORE_HANG (R405, R407): an expiry waits while the warden is down. -/
def coreHangEffect (c : Nat) (s : State) : State :=
  if 16 ≤ c ∨ s.ison SVC_STATUS.KEEPER_RESTARTING then s
  else if s.svc.wardenDown then s.modSvc (fun v => { v with expired := v.expired ++ [(c, s.power.uptime)] })
  else s.handleHang c s.power.uptime

/-- A core takes over the duties of another (R405): its stages, and the dispatcher where the other held it.
(DEDUCED, assumption 84.) -/
def State.moveDuties (s : State) (old new : Nat) : State :=
  let s := s.modSvc (fun v => { v with
    stageCore := v.stageCore.map (fun e => if e.2.2 = old then (e.1, e.2.1, new) else e) })
  let s := s.showBound
  if s.svc.dispatcher = some old then
    ((s.modSvc (fun v => { v with dispatcher := some new })).put HIF_STATUS.KEEPER_UP 1).setBusy TASK_STATUS.KEEPER false
  else s

/-- How many lower-numbered DATA cores whose watchdogs expired in the same always-on cycle still wait for a core (R405). -/
def waitingBelow (l : List (Nat × Nat × Nat)) (c tick : Nat) : Nat :=
  l.countP (fun h => decide (h.1 < c) && h.2.1 == roleData && h.2.2 == tick)

/-- CORE_TAKEOVER (R405): the lowest STANDBY core takes a DATA core's duties, where two watchdogs expired in one cycle the lower-numbered
core's first; a BACKGROUND core's go to a STANDBY core that no DATA core waits for, else to the BACKGROUND cores.
(DEDUCED, assumption 84.) -/
def takeoverEffect (c : Nat) (s : State) : State :=
  match s.svc.takeovers.find? (fun h => h.1 == c) with
  | none => s
  | some (_, role, tick) =>
    let pick := if role = roleData then (s.coresOf roleStandby)[waitingBelow s.svc.takeovers c tick]? else s.spareCores.head?
    let t := s.modSvc (fun v => { v with takeovers := v.takeovers.filter (fun h => h.1 != c) })
    match pick with
    | some n => (t.setRole n role).moveDuties c n
    | none => if role = roleData then s.restartKeeper else t

/-- CORE_RESTART_DONE (R405). -/
def coreRestartEffect (c : Nat) (s : State) : State :=
  if s.svc.reloading.contains c ∧ s.svc.takeovers.any (fun h => h.1 == c) = false then
    (s.modSvc (fun v => { v with reloading := v.reloading.filter (· != c) })).setRole c roleStandby
  else s

/-- A write of SVC_CTRL (R406): a restart asked for while the warden is down waits for it. -/
def svcCtrl (w : Word) (s : State) : State :=
  let s := s.swWrite .SVC_CTRL 0 w
  if SVC_CTRL.KEEPER_RESTART.cmd w then
    if s.svc.wardenDown then s.modSvc (fun v => { v with expired := v.expired ++ [(16, s.power.uptime)] }) else s.restartKeeper
  else s

/-- WARDEN_HANG (R407). -/
def wardenHangEffect (s : State) : State :=
  if s.svc.wardenDown then s
  else
    let s := (s.modSvc (fun v => { v with wardenDown := true })).put PWR_STATUS.WARDEN_UP 0
    (s.ev SVC_EVENT.WARDEN_RESTART).logFault 16 0 0 0

/-- WARDEN_RESTART_DONE (R407): what was latched is handled. (DEDUCED, assumption 85.) -/
def wardenDoneEffect (s : State) : State :=
  if s.svc.wardenDown then
    let l := s.svc.expired
    let s := (s.modSvc (fun v => { v with wardenDown := false, expired := [] })).put PWR_STATUS.WARDEN_UP 1
    l.foldl (fun s e =>
      if e.1 = 16 then s.restartKeeper else if e.1 = 17 then s.expireTrial
      else if s.ison SVC_STATUS.KEEPER_RESTARTING then s else s.handleHang e.1 e.2) s
  else s

/-! ### Debug halts -/

/-- A core enters debug halt (R435): intake closes where it holds the dispatcher. -/
def State.haltCore (s : State) (c : Nat) : State :=
  if s.coreRole c = roleRestarting ∨ s.isHalted c then s
  else
    let s := s.put DBG_BRK_STATUS.HALTED (setBit (s.get DBG_BRK_STATUS.HALTED) c)
    if s.svc.dispatcher = some c then (s.put HIF_STATUS.KEEPER_UP 0).setBusy TASK_STATUS.KEEPER true else s

/-- A core leaves debug halt (R435, R436). -/
def State.resumeCore (s : State) (c : Nat) : State :=
  if s.isHalted c then
    let s := s.put DBG_BRK_STATUS.HALTED (clearBit (s.get DBG_BRK_STATUS.HALTED) c)
    let s := if s.svc.dispatcher = some c then (s.put HIF_STATUS.KEEPER_UP 1).setBusy TASK_STATUS.KEEPER false else s
    s.refill
  else s

/-- A write of DBG_BRK_CTRL (R435, R448). -/
def brkCtrl (w : Word) (s : State) : State :=
  if s.ison SVC_STATUS.DEBUG_UNLOCKED = false then s.ev DBG_EVENT.BRK_LOCKED
  else
    let s := s.swWrite .DBG_BRK_CTRL 0 w
    if DBG_BRK_CTRL.GO.cmd w = false then s
    else if s.get DBG_BRK_CTRL.OP = 1 then s.haltCore (s.get DBG_BRK_CTRL.CORE)
    else if s.get DBG_BRK_CTRL.OP = 2 then s.resumeCore (s.get DBG_BRK_CTRL.CORE)
    else s

/-- BREAKPOINT_HIT (R435): hardware triggers are set through JTAG once the device is unlocked. -/
def breakpointEffect (c : Nat) (s : State) : State :=
  if c < 16 ∧ s.ison SVC_STATUS.DEBUG_UNLOCKED then s.haltCore c else s

/-! ### Barriers -/

/-- How often a device number was LAST in the window (R421). -/
def lateCount (l : List (Nat × Nat)) (n : Nat) : Nat := l.countP (fun e => e.2 == n)

/-- The suspect device numbers of a window, in ascending order (R421). -/
def suspectsOf (ratio : Nat) (l : List (Nat × Nat)) : List Nat :=
  (List.range 4096).filter (fun n => decide (ratio < lateCount l n))

/-- Whether a device number is in the SERVE list of a running plan (R421). -/
def State.serves? (s : State) (n : Nat) : Bool :=
  (List.range 4).any (fun k => s.slotState k == 1 && (s.slot k).plan.any (fun p => p.1.serve.contains n))

/-- A write of SVC_BARRIER_HI (R420, R421). -/
def barrierCtrl (w : Word) (s : State) : State :=
  let s := s.swWrite .SVC_BARRIER_HI 0 w
  if SVC_BARRIER_HI.GO.cmd w then
    let step := (s.word .SVC_BARRIER_LO 0).toNat + 2 ^ 32 * s.get SVC_BARRIER_HI.STEP_HI
    if s.svc.lastReport.any (fun p => decide (step ≤ p)) then s.ev SVC_EVENT.BARRIER_ORDER
    else
      let l := s.svc.reports ++ [(step, s.get SVC_BARRIER_HI.LAST)]
      let l := l.drop (l.length - 256)
      let now := suspectsOf (s.get SVC_SUSPECT_CFG.RATIO) l
      let new := now.filter (fun n => !s.svc.suspects.contains n)
      let s := s.modSvc (fun v => { v with reports := l, lastReport := some step, suspects := now })
      let s := if new.any s.serves? then s.ev SVC_EVENT.SELF_LATE else s
      if new.any (fun n => !s.serves? n) then s.ev SVC_EVENT.SUSPECT else s
  else s

/-! ### Engine self-test -/

/-- A write of SVC_ENG_CMD (R424, R427): GO is ignored while BUSY, while the engine is ASSIGNED, or for an engine that does
not exist. (DEDUCED, assumption 80.) -/
def engCmd (w : Word) (s : State) : State :=
  let s := s.swWrite .SVC_ENG_CMD 0 w
  let type := s.get SVC_ENG_CMD.TYPE
  let n := s.get SVC_ENG_CMD.ENGINE
  match commandEngine type n with
  | some e =>
    if SVC_ENG_CMD.GO.cmd w ∧ s.ison SVC_ENG_CMD.BUSY = false ∧ s.geti e.1 e.2 ≠ 1 then
      (s.modSvc (fun v => { v with engTest := some (type, n) })).put SVC_ENG_CMD.BUSY 1
    else s
  | none => s

def execCoreHang (c : Nat) (s : State) : Host.Outcome State Fault Refusal := .next (finish s (coreHangEffect c s).showTasks)
def execCoreTakeover (c : Nat) (s : State) : Host.Outcome State Fault Refusal := .next (finish s (takeoverEffect c s))
def execCoreRestartDone (c : Nat) (s : State) : Host.Outcome State Fault Refusal :=
  .next (finish s (coreRestartEffect c s))
/-- SVC_CTRL written with KEEPER_RESTART as 1. -/
def execKeeperRestart (w : Word) (s : State) : Host.Outcome State Fault Refusal :=
  .next (finish s (s.viaReg .host .SVC_CTRL 0 (SVC_CTRL.KEEPER_RESTART.set w 1) (svcCtrl (SVC_CTRL.KEEPER_RESTART.set w 1))))
def execWardenHang (s : State) : Host.Outcome State Fault Refusal := .next (finish s (wardenHangEffect s))
def execWardenRestartDone (s : State) : Host.Outcome State Fault Refusal := .next (finish s (wardenDoneEffect s))
/-- DBG_BRK_CTRL written with GO as 1 and OP as halt. -/
def execCoreHalt (w : Word) (s : State) : Host.Outcome State Fault Refusal :=
  .next (finish s (s.viaReg .host .DBG_BRK_CTRL 0 (DBG_BRK_CTRL.OP.set (DBG_BRK_CTRL.GO.set w 1) 1)
    (brkCtrl (DBG_BRK_CTRL.OP.set (DBG_BRK_CTRL.GO.set w 1) 1))))
/-- DBG_BRK_CTRL written with GO as 1 and OP as resume. -/
def execCoreResume (w : Word) (s : State) : Host.Outcome State Fault Refusal :=
  .next (finish s (s.viaReg .host .DBG_BRK_CTRL 0 (DBG_BRK_CTRL.OP.set (DBG_BRK_CTRL.GO.set w 1) 2)
    (brkCtrl (DBG_BRK_CTRL.OP.set (DBG_BRK_CTRL.GO.set w 1) 2))))
def execBreakpointHit (c : Nat) (s : State) : Host.Outcome State Fault Refusal := .next (finish s (breakpointEffect c s))
/-- SVC_BARRIER_HI written with GO as 1. -/
def execBarrierReport (w : Word) (s : State) : Host.Outcome State Fault Refusal :=
  .next (finish s (s.viaReg .host .SVC_BARRIER_HI 0 (SVC_BARRIER_HI.GO.set w 1) (barrierCtrl (SVC_BARRIER_HI.GO.set w 1))))
/-- SVC_ENG_CMD written with GO as 1. -/
def execEngineSelfTest (w : Word) (s : State) : Host.Outcome State Fault Refusal :=
  .next (finish s (s.viaReg .host .SVC_ENG_CMD 0 (SVC_ENG_CMD.GO.set w 1) (engCmd (SVC_ENG_CMD.GO.set w 1))))

end Sys2Proof.Machine
end

