-- ==== Sys2Proof/Machine/Snapshot.lean ====
section
/-! DEFINITION. The counters of R440 and their snapshot (R441). -/
namespace Sys2Proof.Machine

/-- The counters of R440, in the order of its table; a pair by its low word. -/
def counterRegs : List Reg :=
  List.flatten [
    [.GLB_VIOL_COUNT, .TASK_REFUSED, .NFC_CORR_LO, .NFC_RETRY, .NFC_SOFT, .NFC_REBUILD, .NFC_RT_MOVES, .NFC_RT_CLAMP, .NFC_FAIL],
    [.CSC_ACT_COUNT, .SLU_DEFICIT_LO, .SLU_BF_DRAWS, .SLU_FILLED, .MIR_DF_COUNT, .MIR_LS_WINDOWS],
    [.DEC_SAMPLES, .DEC_REJECTS, .DEC_CYCLES_LO, .DEC_PK_BATCHES, .DEC_PK_FILLED, .DEC_PK_OVERFLOW],
    [.JET_SAMPLES, .JET_REJECTS, .JET_DETECTS, .JET_MACS_LO, .JET_CYCLES_LO, .JET_SIEVE_KEEP, .JET_SIEVE_DROP],
    [.REED_SAMPLES, .REED_REJECTS, .REED_TOKENS_LO, .REED_MISSES, .REED_STALL_LO, .REED_ESCAPES, .REED_STOPS],
    [.BSN_NONE, .RSV_ECC_CORR, .RSV_ECC_UNCORR, .PBL_BLOCKS, .PBL_LOSS, .PBL_FAILS],
    [.SPT_TX_FRAMES_LO, .SPT_RETRY, .SPT_FEC_CORR, .SPT_FEC_UNCORR, .SPT_CNP, .SPT_DISCARD],
    [.WEIR_DEFICIT_LO, .WEIR_MISSED, .WEIR_RESENT, .WEIR_CR_LOST],
    [.INL_ACCEPTED, .INL_RUNT, .INL_LONG, .INL_STALE, .INL_GAP, .INL_DROP_OTHER],
    [.SVC_HANGS, .SVC_REBUILDS, .DBG_TRACE_LOST, .TST_LOOP_ERRORS, .TST_LOOP_UNITS_LO]]

/-- The value of a counter's entry, a pair joined. -/
def State.counterValue (s : State) (r : Reg) (i : Nat) : Nat :=
  match r.widePair with
  | some (hi, _) => s.pair r hi i
  | none => (s.word r i).toNat

/-- A counter's entries of a snapshot: offset, instance, value. -/
def State.counterEntries (s : State) (r : Reg) : List (Nat × Nat × Nat) :=
  match r.place.perInst, r.place.blk.sel? with
  | true, some b =>
    ((List.range (selCount b)).filter (hasEntry r 0)).map (fun i => (r.place.base, i, s.counterValue r i))
  | _, _ => [(r.place.base, 0xFFFF, s.counterValue r 0)]

/-- Captures every counter (R441). -/
def State.capture (s : State) : State :=
  { s with dbg := { s.dbg with snapshot := some (s.tick, counterRegs.flatMap s.counterEntries) } }

/-- TELEMETRY page 2 (R441). -/
def snapshotPage (x : Nat × List (Nat × Nat × Nat)) : List Byte :=
  leBytes 8 x.1 ++ leBytes 4 x.2.length ++ zeros 4
    ++ x.2.flatMap (fun e => leBytes 4 e.1 ++ leBytes 2 e.2.1 ++ zeros 2 ++ leBytes 8 e.2.2)

end Sys2Proof.Machine
end

