-- ==== Sys2Proof/Machine/LinkFrames.lean ====
section
/-! DEFINITION. Runnel frames as bytes (R352, R353). -/
namespace Sys2Proof.Machine

/-- A Runnel frame (R352): header, payload, trailer. -/
def runnelFrame (type : Nat) (resent coded : Bool) (lseq endpoint fsn ofs : Nat) (payload : List Byte) : List Byte :=
  let f := leBytes 1 type ++ leBytes 1 ((if resent then 1 else 0) + (if coded then 2 else 0)) ++ leBytes 2 payload.length
    ++ leBytes 4 lseq ++ leBytes 2 endpoint ++ zeros 2 ++ leBytes 4 fsn ++ leBytes 8 ofs ++ payload
  f ++ leBytes 4 (crc32c f) ++ zeros 4

/-- A control frame: 32 bytes of payload, its other header fields zero (R353). -/
def controlFrame (type : Nat) (payload : List Byte) : List Byte := runnelFrame type false false 0 0 0 0 (fitBytes 32 payload)

/-- A control frame leaves on a Spout (R353). -/
def State.sendControl (s : State) (k : Nat) (name : String) (type : Nat) (payload : List Byte) : State :=
  s.emit (.control k name (controlFrame type payload))

/-- What a received Runnel frame does (R352, R353, R384): one that is not intact is discarded and counted. -/
def State.onFrame (s : State) (x : RxFrame) (f : Nat → State → State) : State :=
  if x.intact then f x.spout s
  else if decide (x.spout < 24) && decide (2 ≤ s.geti SPT_STATUS.STATE x.spout) && s.isoni SPT_STATUS.MODE_ACTIVE x.spout then
    s.bumpi SPT_DISCARD.COUNT x.spout 1
  else s

end Sys2Proof.Machine
end

