-- ==== Sys2Proof/Machine/WeirOps.lean ====
section
/-! DEFINITION. The Weir's operations: table entries, members and their Spouts, offers and settlement of batches,
completion records, and a member that becomes unreachable (R342 to R350, R361 to R373). -/
namespace Sys2Proof.Machine

def State.modWeir (s : State) (f : WeirSt → WeirSt) : State := { s with weir := f s.weir }

/-- A flow's entry and a group's entry (R345, R346). -/
def State.flowEntry (s : State) (f : Nat) : List Byte := assocRead id (fun _ => zeros 128) f s.weir.flows
def State.groupEntry (s : State) (g : Nat) : List Byte := assocRead id (fun _ => zeros 32) g s.weir.groups
def State.setFlowEntry (s : State) (f : Nat) (b : List Byte) : State :=
  s.modWeir (fun w => { w with flows := assocPut id (fun _ => zeros 128) f b w.flows })
def State.setGroupEntry (s : State) (g : Nat) (b : List Byte) : State :=
  s.modWeir (fun w => { w with groups := assocPut id (fun _ => zeros 32) g b w.groups })

/-- Fields of a flow's entry. -/
def feValid (e : List Byte) : Bool := bitOf (leAt e 0 1) 0
def feGroup (e : List Byte) : Bool := bitOf (leAt e 0 1) 1
def feMember (e : List Byte) : Bool := bitOf (leAt e 0 1) 2
def fePebble (e : List Byte) : Bool := bitOf (leAt e 0 1) 3
def feCache (e : List Byte) : Bool := bitOf (leAt e 0 1) 4
def feWeight (e : List Byte) : Nat := max 1 (leAt e 1 1)
def feSpout (e : List Byte) : Nat := leAt e 2 1
def feAlt (e : List Byte) : Nat := leAt e 3 1
def feFsn (e : List Byte) : Nat := leAt e 4 4
def feRate (e : List Byte) : Nat := leAt e 8 2
def feBurst (e : List Byte) : Nat := leAt e 10 2
def feEndpoint (e : List Byte) : Nat := leAt e 12 2
def feSlotBytes (e : List Byte) : Nat := leAt e 16 4
def fePsn (e : List Byte) : Nat := leAt e 28 3
def feSlotCount (e : List Byte) : Nat := max 1 (leAt e 14 2)
def feQpn (e : List Byte) : Nat := leAt e 20 3
def feRkey (e : List Byte) : Nat := leAt e 24 4
def feBase (e : List Byte) : Nat := leAt e 32 8
def feSrcIp (e : List Byte) : Nat := leAt e 56 16
/-- An entry with another FSN. -/
def feSetFsn (e : List Byte) (n : Nat) : List Byte := e.take 4 ++ leBytes 4 n ++ e.drop 8

/-- Fields of a group's entry. -/
def geValid (e : List Byte) : Bool := bitOf (leAt e 0 1) 0
def geStrict (e : List Byte) : Bool := bitOf (leAt e 0 1) 1
def geCount (e : List Byte) : Nat := leAt e 1 1
def geMembers (e : List Byte) : List Nat := (List.range (min 24 (geCount e))).map (fun i => leAt e (8 + i) 1)

/-- A flow's scheduling state. -/
def State.flow (s : State) (f : Nat) : FlowSt := assocRead id (fun _ => FlowSt.fresh) f s.weir.tx
def State.setFlow (s : State) (f : Nat) (x : FlowSt) : State :=
  s.modWeir (fun w => { w with tx := assocPut id (fun _ => FlowSt.fresh) f x w.tx })
def State.modFlow (s : State) (f : Nat) (g : FlowSt → FlowSt) : State := s.setFlow f (g (s.flow f))

/-- A Spout. -/
def State.spout (s : State) (k : Nat) : SpoutSt := s.weir.spouts.getD k SpoutSt.fresh
def State.modSpout (s : State) (k : Nat) (f : SpoutSt → SpoutSt) : State :=
  s.modWeir (fun w => { w with spouts := modAt f k w.spouts })
def State.spoutUp (s : State) (k : Nat) : Bool := decide (k < 24) && s.geti SPT_STATUS.STATE k == 3
def State.runnel (s : State) (k : Nat) : Bool := s.isoni SPT_STATUS.MODE_ACTIVE k
/-- A Spout's link exists: it is HELD or UP. -/
def State.linked (s : State) (k : Nat) : Bool := decide (k < 24) && decide (2 ≤ s.geti SPT_STATUS.STATE k)

/-- The flows that are members of their own: unicast and member flows with a Spout (R345). -/
def isMember (e : List Byte) : Bool := feValid e && !feGroup e && !feCache e
def State.memberFlows (s : State) : List Nat := (s.weir.flows.filter (fun x => isMember x.2)).map (·.1)

/-- The Spout on which a flow runs (R364, R365). -/
def State.spoutOf (s : State) (f : Nat) : Nat :=
  let e := s.flowEntry f
  if (s.flow f).onAlt then feAlt e else feSpout e

/-- The frames of a batch of a length (R344). -/
def frameCount (len : Nat) : Nat := ceilDiv len 4096 + 1
def PoolBatch.frames (b : PoolBatch) : Nat := frameCount b.bytes.length

/-- The Pool, and one batch of it. -/
def State.batch? (s : State) (id : Nat) : Option PoolBatch := s.weir.pool.find? (fun b => b.id == id)
def State.modBatch (s : State) (id : Nat) (f : PoolBatch → PoolBatch) : State :=
  s.modWeir (fun w => { w with pool := w.pool.map (fun b => if b.id = id then f b else b) })
def WeirSt.poolFrames (w : WeirSt) : Nat := (w.pool.map (·.frames)).sum

/-- The credits of an endpoint on a Spout: frames granted, and frames used (R355). -/
def SpoutSt.creditOf (x : SpoutSt) (ep : Nat) : Nat × Nat :=
  match x.credit.find? (fun c => c.1 == ep) with
  | some (_, g, u) => (g, u)
  | none => (0, 0)
def SpoutSt.setCredit (x : SpoutSt) (ep g u : Nat) : SpoutSt :=
  { x with credit := x.credit.filter (fun c => c.1 != ep) ++ [(ep, g, u)] }
def State.hasCredit (s : State) (f : Nat) : Bool :=
  let k := s.spoutOf f
  let (g, u) := (s.spout k).creditOf (feEndpoint (s.flowEntry f))
  !s.runnel k || decide (u < g)

/-- Whether a member is parked (R361): by an RNR NAK, or in the middle of a batch without credits. -/
def State.isParked (s : State) (f : Nat) : Bool :=
  (s.flow f).parked || ((s.flow f).queue.head?.any (fun d => decide (0 < d.next)) && !s.hasCredit f)

/-- WEIR_STATUS.PARKED, SPT_STATUS.ON_ALT and WEIR_POOL_USED follow what the Weir holds (R374). -/
def State.showWeir (s : State) : State :=
  let l := s.memberFlows
  let s := s.put WEIR_STATUS.PARKED (min 511 (l.countP (fun f => (s.flow f).unreachable || s.isParked f)))
  let s := s.put WEIR_POOL_USED.MIB (min 8191 (s.weir.poolFrames / 256))
  let on := fun (k : Nat) => l.any (fun f => (s.flow f).onAlt && feSpout (s.flowEntry f) == k)
  s.each 24 (fun k s =>
    let v := if on k then 1 else 0
    if s.geti SPT_STATUS.ON_ALT k = v then s else s.puti SPT_STATUS.ON_ALT k v)

/-- Whether a member could send: its Spout or its alternate is UP (R366). -/
def State.usable (s : State) (f : Nat) : Bool :=
  let e := s.flowEntry f
  s.spoutUp (feSpout e) || s.spoutUp (feAlt e)

/-! ### Completion records -/

def State.crSize (s : State) : Nat := 2 ^ max 4 (min 16 (s.get WEIR_CR_SIZE.LOG2))

/-- A Spout that waits in HELD is UP once no flow of it is on its alternate (R365). (DEDUCED, assumption 72.) -/
def State.checkHeld (s : State) (k : Nat) : State :=
  if s.geti SPT_STATUS.STATE k = 2
      ∧ (s.memberFlows.any (fun f => (s.flow f).onAlt && feSpout (s.flowEntry f) == k)) = false then
    (s.puti SPT_STATUS.STATE k 3).evi SPT_EVENT.LINK_UP k
  else s

/-- Writes a record into the ring, and signals vector 19 (R373). -/
def State.writeCr (s : State) (bs : List Byte) : State :=
  let tail := s.get WEIR_CR_TAIL.TAIL
  let n := s.crSize
  let r := bs.take 7 ++ [byteOf (leAt bs 7 1 + s.weir.crPhase)] ++ bs.drop 8
  let s := s.emit (.hostWrite (s.pair .WEIR_CR_BASE_LO .WEIR_CR_BASE_HI 0 + 32 * tail) r false)
  let next := (tail + 1) % n
  let s := s.modWeir (fun w => { w with
    crHeld := w.crHeld + 1, crPhase := if next = 0 then 1 - w.crPhase else w.crPhase })
  let s := s.put WEIR_CR_TAIL.TAIL next
  (s.putb WEIR_STATUS.CR_FULL (decide (n ≤ s.weir.crHeld))).signal 19

/-- A record for the ring: written, queued while the ring is full, or lost (R373). -/
def State.completionRecord (s : State) (bs : List Byte) : State :=
  if s.ison WEIR_CTRL.CR_EN = false then s
  else if s.weir.crHeld < s.crSize ∧ s.weir.crWait = [] then s.writeCr bs
  else if s.weir.crWait.length < 256 then s.modWeir (fun w => { w with crWait := w.crWait ++ [bs] })
  else (s.bump WEIR_CR_LOST.COUNT 1).ev WEIR_EVENT.CR_OVF

/-- Records that wait are written as the ring has room, while CR_EN is 1. -/
def State.flushCr (s : State) : Nat → State
  | 0 => s
  | n + 1 =>
    match s.weir.crWait with
    | [] => s
    | b :: l =>
      if s.ison WEIR_CTRL.CR_EN ∧ s.weir.crHeld < s.crSize then ((s.modWeir (fun w => { w with crWait := l })).writeCr b).flushCr n else s

/-- The 32 bytes of a completion record, with PHASE 0 (R372). -/
def crBytes (b : PoolBatch) (status delivered missed : Nat) : List Byte :=
  let size := b.owed.any (fun o => o.size)
  leBytes 4 b.fsn ++ leBytes 1 b.flow ++ leBytes 1 status ++ leBytes 1 b.rill
    ++ leBytes 1 ((if b.resent then 2 else 0) + (if b.pooled then 4 else 0) + (if size then 8 else 0))
    ++ leBytes 6 b.step ++ zeros 2 ++ leBytes 4 delivered ++ leBytes 4 missed ++ leBytes 8 b.digest

/-- A mask of the Spouts of the members in a state. -/
def PoolBatch.maskIn (b : PoolBatch) (st : OweState) : Nat :=
  (b.owed.filter (fun o => o.state == st)).foldl (fun m o => setBit m o.spout) 0

/-! ### Settlement and retention -/

/-- Whether deliveries of a batch are still under way; what is queued for an unreachable member is not. -/
def State.inUse (s : State) (id : Nat) : Bool :=
  s.weir.tx.any (fun x => !x.2.unreachable && (x.2.queue.any (fun d => d.batch == id) || x.2.unacked.any (fun u => u.batch == id)))
  || s.weir.spouts.any (fun k => k.retry.any (fun u => u.batch == id))

/-- Keeps a flow's WEIR_POOL.DEPTH most recent settled batches (R370). -/
def State.retain (s : State) (flow : Nat) : State :=
  let depth := max 1 (s.get WEIR_POOL.DEPTH)
  let mine := (s.weir.pool.filter (fun b => b.flow == flow && b.settled && !s.inUse b.id)).map (·.id)
  let gone := mine.take (mine.length - depth)
  s.modWeir (fun w => { w with pool := w.pool.filter (fun b => !gone.contains b.id) })

/-- A batch whose outcome is settled for every member gets its final record and is retained (R370, R373). -/
def State.settle (s : State) (id : Nat) : State :=
  match s.batch? id with
  | none => s
  | some b =>
    if b.settled ∨ b.owed.any (fun o => o.state == .owed) then s
    else
      let missed := b.maskIn .missed
      let s := s.modBatch id (fun b => { b with settled := true })
      let s := if missed ≠ 0 then s.completionRecord (crBytes b 2 (b.maskIn .delivered) missed)
        else if s.ison WEIR_CTRL.CR_ALL then s.completionRecord (crBytes b 1 (b.maskIn .delivered) 0) else s
      s.retain b.flow

/-- A member's part of a batch changes state; only what is still owed changes. -/
def State.mark (s : State) (id flow : Nat) (st : OweState) (spout : Nat) : State :=
  s.modBatch id (fun b => { b with owed := b.owed.map (fun o =>
    if o.flow = flow ∧ o.state = .owed then { o with state := st, spout := spout } else o) })

/-- A batch is released as MISSED for a member that is still owed it (R368). -/
def State.miss (s : State) (id flow : Nat) : State :=
  match s.batch? id with
  | some b =>
    if b.owed.any (fun o => o.flow == flow && o.state == .owed) then
      let s := (s.mark id flow .missed (feSpout (s.flowEntry flow))).ev WEIR_EVENT.MISSED
      (s.bump WEIR_MISSED.COUNT 1)
    else s
  | none => s

/-- A batch joins a member's deliveries (R368), or is held for it while it is unreachable. -/
def State.offer (s : State) (id flow : Nat) (resent : Bool) : State :=
  let s := s.modBatch id (fun b => { b with owed := b.owed.map (fun o => if o.flow = flow then { o with tried := true } else o) })
  if (s.flow flow).unreachable then s
  else s.modFlow flow (fun x => { x with queue := x.queue ++ [⟨id, resent, 0⟩] })

/-- The members that a batch is still owed to. -/
def PoolBatch.owedFlows (b : PoolBatch) : List Nat := (b.owed.filter (fun o => o.state == .owed)).map (·.flow)

/-- The ready set of a group flow's STRICT group (R369). -/
def State.readySet (s : State) (g : Nat) : List Nat :=
  ((s.weir.sets.find? (fun x => x.1 == g)).map (·.2)).getD []
def State.setReady (s : State) (g : Nat) (l : List Nat) : State :=
  s.modWeir (fun w => { w with sets := w.sets.filter (fun x => x.1 != g) ++ [(g, l)] })

/-- Offers a batch to every member it is owed to. -/
def State.offerAll (s : State) (b : PoolBatch) : State :=
  let s := s.modBatch b.id (fun b => { b with strictWait := false })
  b.owedFlows.foldl (fun s f => s.offer b.id f false) s

/-- The batches of STRICT groups whose ready set is ready are offered, in order (R369). -/
def State.offerStrict (s : State) : State :=
  (s.weir.pool.filter (fun b => b.strictWait)).foldl (fun (s : State) (b : PoolBatch) =>
    let g := feSpout (s.flowEntry b.flow)
    let first : Option Nat := (s.weir.pool.find? (fun x => x.strictWait && x.flow == b.flow)).map (·.id)
    if first = some b.id ∧ (s.readySet g).all (fun f => !(s.flow f).unreachable) then s.offerAll b else s) s

/-- The flow that a Rill feeds, where its entry names one it may feed (R342, R345). (DEDUCED, assumption 67.) -/
def State.rillFlow (s : State) (r : Nat) : Option Nat :=
  let f := s.geti WEIR_RILL_MAP.FLOW r
  let e := s.flowEntry f
  let groupOk := !feGroup e || geValid (s.groupEntry (feSpout e))
  if s.isoni WEIR_RILL_MAP.EN r && feValid e && !feMember e && groupOk then some f else none

/-- The bytes that a flow sends of a batch: the batch, or the EXACT container that Pebble made of it (R340). Nothing states the coder's settings
for it: one-byte elements and the static table (assumption 31). -/
def wireBytes (e : List Byte) (x : ReadyBatch) : List Byte := if fePebble e then x.coded.getD [] else x.batch.bytes

/-- Whether the pool cannot take a batch that it has refused (R371): WEIR_STATUS.POOL_FULL. -/
def State.poolFull (s : State) : Bool :=
  s.weir.refused.any (fun r =>
    match s.rillFlow r, (s.rill r).ready with
    | some f, x :: _ => decide (s.weir.poolMib * 256 < s.weir.poolFrames + frameCount (wireBytes (s.flowEntry f) x).length)
    | _, _ => false)

/-- A member becomes unreachable (R366): nothing more is sent to it, and its batches are held. Its frames in a Runnel link's retry buffer stay
there until they are acknowledged: the link sends them again in order (R354). -/
def State.makeUnreachable (s : State) (f : Nat) : State :=
  let held := (s.weir.pool.filter (fun b => b.owedFlows.contains f && !b.strictWait)).map (·.id)
  let s := held.foldl (fun s id => s.modBatch id (fun b => { b with owed := b.owed.map (fun o => if o.flow = f then { o with tried := true } else o) })) s
  s.modFlow f (fun x => { x with unreachable := true, parked := false, queue := [], unacked := [], timeouts := 0 })

/-- A delivery whose record is acknowledged is complete (R351, R355). -/
def State.deliverDone (s : State) (u : SentFrame) (spout : Nat) : State :=
  match s.batch? u.batch with
  | none => s
  | some b =>
    if u.index + 1 = b.frames then
      ((s.mark u.batch u.flow .delivered spout).settle u.batch).retain b.flow
    else s

/-! ### Frames -/

/-- A delivery record (R347). (DEDUCED, assumption 31.) -/
def State.deliveryRecord (s : State) (b : PoolBatch) (resent : Bool) : List Byte :=
  let r := leBytes 4 0x52564C44 ++ leBytes 4 b.fsn ++ leBytes 2 ((if resent then 1 else 0) + (if b.coded then 2 else 0))
    ++ leBytes 2 b.flow ++ leBytes 4 b.bytes.length ++ leBytes 8 b.digest ++ leBytes 6 b.step ++ zeros 2 ++ s.timeFull ++ zeros 12
  r ++ leBytes 4 (crc32c r)

/-- The RoCEv2 packet that carries a frame of a delivery (R348, R349): the data frames are one RDMA WRITE to the batch's slot, the record frame is an
RDMA WRITE Only with Immediate to the slot's last 64 bytes. -/
def rocePacket (e : List Byte) (flow : Nat) (b : PoolBatch) (index psn : Nat) (payload : List Byte) : RocePacket :=
  let n := b.frames - 1
  let isRecord := decide (index = n)
  let slot := feBase e + b.fsn % feSlotCount e * feSlotBytes e
  { op := if isRecord then .writeOnlyImm else if n = 1 then .writeOnly else if index = 0 then .writeFirst
      else if index + 1 = n then .writeLast else .writeMiddle
    localQp := 0x100 + flow
    remoteQp := feQpn e
    psn := psn
    target := if isRecord then some ((slot + feSlotBytes e - 64) % 2 ^ 64, feRkey e, 64)
      else if index = 0 then some (slot % 2 ^ 64, feRkey e, b.bytes.length) else none
    imm := if isRecord then some b.fsn else none
    payload := payload
    destMac := (e.drop 72).take 6
    srcIp := (e.drop 56).take 16
    destIp := (e.drop 40).take 16
    udpSource := leAt e 78 2
    udpDest := 4791
    dscp := leAt e 80 1 % 64
    ecn := 2
    vlan := if bitOf (leAt e 81 1) 3 then some (leAt e 81 1 % 8, leAt e 82 2 % 4096) else none }

/-- A frame of a delivery as it leaves on a Spout with a sequence number (R347, R349, R352). The OFFSET of a RECORD frame is not stated: a free value. -/
def State.frameOut (s : State) (spout flow : Nat) (b : PoolBatch) (d : Delivery) (seq : Nat) : Out × State :=
  let last := decide (d.next + 1 = b.frames)
  let payload := if last then s.deliveryRecord b d.resent else (b.bytes.drop (4096 * d.next)).take 4096
  let e := s.flowEntry flow
  let (ofs, s) := if last then s.fresh 12 (2 ^ 40) else (4096 * d.next, s)
  let body := if s.runnel spout then FrameBody.runnel (runnelFrame (if last then 2 else 1) d.resent b.coded seq (feEndpoint e) b.fsn ofs payload)
    else .roce (rocePacket e flow b d.next seq payload)
  (.frame spout flow b.fsn d.resent (if last then .record else .data d.next) body, s)

/-- Frames are sent again, as they left, by the link or by RoCEv2 retransmission (R351, R354). -/
def State.sendAgain (s : State) (spout : Nat) (l : List SentFrame) : State :=
  let s := s.bumpi SPT_RETRY.COUNT spout l.length
  l.foldl (fun s u => s.emit u.out) s

end Sys2Proof.Machine
end

