-- ==== Sys2Proof/Machine/Debug.lean ====
section
/-! DEFINITION. Stillwater's commands and its scan-out image (R428 to R434), snapshots and trace (R441, R442), loop-backs
and production test mode (R445 to R447). -/
namespace Sys2Proof.Machine

/-! ### The scan-out image -/

/-- `n` bytes whose values the spec leaves open, of open point `k`. (DESIGN CHOICE, assumption 3.) -/
def State.freshBytes (s : State) (k n : Nat) : List Byte × State :=
  ((List.range n).map (fun i => byteOf (Config.freeNat k (s.free + i))), { s with free := s.free + n })

/-- How a Rill stands, as a RILL section says it (R434). -/
def scanRillState (x : RillSt) : Nat :=
  if x.mode = .stopped ∨ x.mode = .dead then 3 else if x.part.isNone then 0 else if x.holding then 2 else 1

/-- INDEX of R238 of a sample in a stage. -/
def Item.index (it : Item) : Nat :=
  it.tag.g % 2 ^ 44 + (it.tag.offset % 65536) * 2 ^ 44 + (it.tag.attempt % 16) * 2 ^ 60

/-- A stage entry of a RILL section (R434): the codes of the stage's state and its cycles left are open.
(DEDUCED, assumption 87.) -/
def scanStage (r k : Nat) (s : State) : List Byte × State :=
  match s.wstage? r k with
  | none => (zeros 64, s)
  | some g =>
    let run := ((s.rill r).stages.find? (fun x => x.stage == k)).bind (·.run)
    let (st, s) := s.freshBytes 18 1
    let (left, s) := s.freshBytes 18 4
    let idx := (run.map (fun x => x.item.index)).getD 0
    (leBytes 1 g.type ++ st ++ leBytes 2 g.engine ++ left ++ leBytes 8 idx ++ zeros 48, s)

/-- The stage entries from `k` on. -/
def scanStages (r : Nat) : Nat → Nat → State → List Byte × State
  | 0, _, s => ([], s)
  | n + 1, k, s =>
    let (b, s) := scanStage r k s
    let (bs, s) := scanStages r n (k + 1) s
    (b ++ bs, s)

/-- A RILL section (R434). The cycle of the Rill that an AT trigger named is DBG_STW_AT_CYC (R428).
(DEDUCED, assumption 87.) -/
def scanRill (r : Nat) (s : State) : List Byte × State :=
  let x := s.rill r
  let p := x.part
  let at6 := s.get DBG_STW_STATUS.TRIGGER == 6 && bitsOf (s.word .DBG_STW_AT_HI 0).toNat 27 24 == r
  let cyc := if at6 then (s.word .DBG_STW_AT_CYC 0).toNat else x.cycle
  let head := leBytes 4 x.pc ++ leBytes 1 (scanRillState x) ++ zeros 3 ++ leBytes 6 ((p.map (·.step)).getD 0)
    ++ leBytes 2 ((p.map (·.slice)).getD 0) ++ leBytes 8 cyc ++ leBytes 8 ((p.map (·.firstPos)).getD 0)
    ++ leBytes 4 ((p.map (·.round)).getD 0) ++ zeros 28
  let (st, s) := scanStages r 32 0 s
  let (pad, s) := s.freshBytes 18 (4096 - 64 - 2048)
  (head ++ st ++ pad, s)

/-- A JET section (R434): what the Jet's pipeline holds in mid-operator is open. -/
def scanJet (j : Nat) (s : State) : List Byte × State :=
  let stage := s.geti JET_STATUS.STAGE j
  let run := if s.geti JET_STATUS.STATE j = 1 then
      (((s.rill (s.geti JET_STATUS.RILL j)).stages.find? (fun x => x.stage == stage)).bind (·.run)) else none
  let (op, s) := s.freshBytes 18 1
  let (cyc, s) := s.freshBytes 18 4
  let (acc, s) := s.freshBytes 18 128
  let idx := (run.map (fun x => x.item.index)).getD 0
  (leBytes 1 (s.geti JET_STATUS.STATE j) ++ op ++ zeros 2 ++ cyc ++ leBytes 8 idx ++ acc ++ zeros (1024 - 144), s)

/-- The SLUICE section (R434): the layout of a release tag in its 52 bytes is open. -/
def scanSluice (s : State) : List Byte × State :=
  let rill := fun (l : List Byte × State) (r : Nat) =>
    let (tag, s) := l.2.freshBytes 18 52
    (l.1 ++ tag ++ leBytes 4 (s.aheadCount r) ++ leBytes 8 (s.aheadBytes r), s)
  let (rills, s) := (List.range 16).foldl rill ([], s)
  let slot := fun (l : List Byte × State) (k : Nat) =>
    let (rest, s) := l.2.freshBytes 18 57
    (l.1 ++ leBytes 1 (s.slotState k) ++ leBytes 6 ((s.slot k).begun.getD 0) ++ rest, s)
  let (slots, s) := (List.range 4).foldl slot ([], s)
  let (pad, s) := s.freshBytes 18 (65536 - 20 * 64)
  (rills ++ slots ++ pad, s)

/-- The frames of a flow that are queued. -/
def State.framesQueued (s : State) (f : Nat) : Nat :=
  ((s.flow f).queue.map (fun d => ((s.batch? d.batch).map (fun b => b.frames - d.next)).getD 0)).sum

/-- The WEIR section (R434). -/
def scanWeir (s : State) : List Byte × State :=
  let spout := fun (k : Nat) => leBytes 8 (s.spout k).vtime ++ leBytes 4 (s.word .SPT_STATUS k).toNat
    ++ leBytes 4 (s.spout k).retry.length ++ zeros 16
  let flow := fun (f : Nat) => leBytes 8 (s.flow f).finish ++ leBytes 4 (feFsn (s.flowEntry f)) ++ leBytes 4 (s.framesQueued f)
    ++ leBytes 4 (s.flow f).tokens ++ zeros 44
  let (pad, t) := s.freshBytes 18 (262144 - 24 * 32 - 256 * 64)
  ((List.range 24).flatMap spout ++ (List.range 256).flatMap flow ++ pad, t)

/-- The sections of an image in directory order: type, instance, body (R434). -/
def scanSections (banks : Bool) (s : State) : List (Nat × Nat × List Byte) × State :=
  let put := fun (type : Nat) (f : Nat → State → List Byte × State) (l : List (Nat × Nat × List Byte) × State) (i : Nat) =>
    let (b, s) := f i l.2
    (l.1 ++ [(type, i, b)], s)
  let l := (List.range 16).foldl (put 1 scanRill) ([], s)
  let l := (List.range 68).foldl (put 2 scanJet) l
  let l := put 3 (fun _ => scanSluice) l 0
  let l := put 4 (fun _ => scanWeir) l 0
  let owned := if banks then s.rillBanks else []
  owned.foldl (put 5 (fun b s => (s.rdBytes (b * 262144) 262144, s))) l

/-- The directory entries of sections that follow one another from an offset (R433). -/
def scanDirectory : Nat → List (Nat × Nat × List Byte) → List Byte
  | _, [] => []
  | ofs, (type, inst, body) :: l =>
    leBytes 1 type ++ zeros 1 ++ leBytes 2 inst ++ leBytes 4 ofs ++ leBytes 4 body.length ++ leBytes 4 (crc32c body)
      ++ scanDirectory (ofs + body.length) l

/-- The header of an image (R433). -/
def State.scanHeader (s : State) (seen sections len : Nat) : List Byte :=
  let tag := match s.weave? with
    | some w => fitBytes 8 w.hash
    | none => zeros 8
  let h := leBytes 4 0x52575453 ++ leBytes 2 1 ++ leBytes 1 (s.get DBG_STW_STATUS.TRIGGER) ++ zeros 1 ++ leBytes 4 seen
    ++ leBytes 2 (s.get GLB_ID_HI.DCLASS) ++ leBytes 2 sections ++ timeShort s.dbg.stopTime ++ leBytes 4 len ++ tag ++ zeros 20
  h ++ leBytes 4 (crc32c h)

/-- The scan-out image (R433). -/
def scanImage (seen : Nat) (banks : Bool) (s : State) : List Byte × State :=
  let (secs, t) := scanSections banks s
  let start := alignUp 4096 (64 + 16 * secs.length)
  let len := start + (secs.map (fun x => x.2.2.length)).sum
  (fitBytes start (s.scanHeader seen secs.length len ++ scanDirectory start secs) ++ secs.flatMap (fun x => x.2.2), t)

/-! ### Stillwater -/

/-- ARM as it stands moves Stillwater between IDLE and ARMED (R432). -/
def State.armStillwater (s : State) : State :=
  let st := s.get DBG_STW_STATUS.STATE
  if st = 0 ∧ s.ison DBG_STW_CTRL.ARM then s.put DBG_STW_STATUS.STATE 1
  else if st = 1 ∧ s.ison DBG_STW_CTRL.ARM = false then s.put DBG_STW_STATUS.STATE 0 else s

/-- A RESUME in FROZEN or SCANNED releases every frozen unit (R432). -/
def State.resumeStillwater (s : State) : State :=
  let st := s.get DBG_STW_STATUS.STATE
  if st = 2 ∨ st = 4 then
    (((s.put DBG_STW_STATUS.STATE (s.get DBG_STW_CTRL.ARM)).ev DBG_EVENT.RESUMED).refill)
  else s

/-- A write of DBG_STW_CTRL (R428, R432): ARM, then STOP, SCAN and RESUME in the order of their bits.
(DEDUCED, assumption 16.) -/
def stwCtrl (w : Word) (s : State) : State :=
  let s := (s.swWrite .DBG_STW_CTRL 0 w).armStillwater
  let s := if DBG_STW_CTRL.STOP.cmd w then s.trigger 1 else s
  let s := if DBG_STW_CTRL.SCAN.cmd w ∧ s.get DBG_STW_STATUS.STATE = 2 then s.startScan else s
  if DBG_STW_CTRL.RESUME.cmd w then s.resumeStillwater else s

/-- JTAG_STILLWATER (R428). -/
def jtagStwEffect (s : State) : State := if s.ison SVC_STATUS.DEBUG_UNLOCKED then s.trigger 2 else s

/-- STILLWATER_AT (R428, code 0x06): the named Rill runs a batch of the step, and its cycle has not passed the chosen one. -/
def stwAtEffect (s : State) : State :=
  let hi := (s.word .DBG_STW_AT_HI 0).toNat
  let x := s.rill (bitsOf hi 27 24)
  let step := (s.word .DBG_STW_AT_LO 0).toNat + 2 ^ 32 * bitsOf hi 15 0
  let mine := x.part.any (fun p => p.step == step && !p.untouched)
  if mine ∧ x.cycle ≤ (s.word .DBG_STW_AT_CYC 0).toNat ∧ s.still = false then s.trigger 6 else s

/-- SCANNED (R432, R433): the image has been written. -/
def scannedEffect (s : State) : State :=
  match s.dbg.scan with
  | some (seen, banks, dest) =>
    if s.get DBG_STW_STATUS.STATE = 3 then
      let (img, s) := scanImage seen banks s
      let s := s.emit (if dest then .stream "STILLWATER" 0 img
        else .hostWrite (s.pair .DBG_STW_ADDR_LO .DBG_STW_ADDR_HI 0) img s.relaxed)
      let s : State := { s with dbg := { s.dbg with scan := none, area := if dest then img else s.dbg.area } }
      (s.put DBG_STW_STATUS.STATE 4).ev DBG_EVENT.SCANNED
    else s
  | none => s

/-! ### Snapshots and trace -/

/-- A write of DBG_SNAP (R441). -/
def snapCtrl (w : Word) (s : State) : State := if DBG_SNAP.GO.cmd w then s.capture.ev DBG_EVENT.SNAP_DONE else s

/-- TRACE_SYNC (R442): every 2^16 ticks while EN is 1. -/
def traceSyncEffect (s : State) : State :=
  if s.ison DBG_TRACE_CTRL.EN ∧ s.awake then s.traceRecord 0x0A 0 0 (s.time / oneSecond % 2 ^ 48) s.traceStamp else s

/-- A write of DBG_TRACE_CTRL (R448): setting EN sets TAIL to 0. (DEDUCED, assumption 62.) -/
def traceCtrl (w : Word) (s : State) : State :=
  let was := s.ison DBG_TRACE_CTRL.EN
  let s := s.swWrite .DBG_TRACE_CTRL 0 w
  if s.ison DBG_TRACE_CTRL.EN ∧ was = false then
    let s : State := { s with dbg := { s.dbg with tail := 0 } }
    s.put ⟨.DBG_TRACE_PTR, 31, 16⟩ 0
  else s

/-! ### Loop-backs -/

/-- Whether a loop-back may start (R445 to R447). (DEDUCED, assumption 88.) -/
def State.mayLoop (s : State) (iface depth inst : Nat) : Bool :=
  match iface with
  | 1 => s.ison TST_MODE.EN && decide (1 ≤ depth) && decide (depth ≤ 3)
  | 2 => decide (inst < 24) && s.geti SPT_STATUS.STATE inst == 0 && !s.isoni SPT_CTRL.EN inst
      && decide (1 ≤ depth) && decide (depth ≤ 5)
  | 3 => decide (inst < 2) && !s.isoni INL_CTRL.EN inst && decide (1 ≤ depth) && decide (depth ≤ 3)
  | 4 => decide (inst < 32) && decide (1 ≤ depth) && decide (depth ≤ 2)
  | 5 => s.ison TST_MODE.EN && decide (1 ≤ depth) && decide (depth ≤ 2)
  | 6 => s.ison TST_MODE.EN
  | _ => false

/-- A GO of TST_LOOP_CTRL (R445). Whether the receive side holds lock while the loop runs is open. -/
def State.startLoop (s : State) : State :=
  let iface := s.get TST_LOOP_CTRL.IFACE
  let depth := s.get TST_LOOP_CTRL.DEPTH
  let inst := s.get TST_LOOP_CTRL.INSTANCE
  if s.dbg.loop.isSome ∨ s.mayLoop iface depth inst = false then s.ev TST_LOOP_STATUS.REFUSED
  else
    let dies := if iface = 4 then ((List.range 32).map (32 * inst + ·)).filter (fun d => s.dieState d == dieOnline) else []
    let s := dies.foldl State.suspendDie s
    let loop : LoopSt := ⟨iface, depth, inst, decide (s.get TST_LOOP_CTRL.DURATION_MS ≠ 0), dies⟩
    let s : State := { s with dbg := { s.dbg with loop := some loop } }
    let s := (s.put TST_LOOP_ERRORS.COUNT 0).putPair .TST_LOOP_UNITS_LO .TST_LOOP_UNITS_HI 0 0
    let (lock, s) := s.fresh 17 2
    ((s.put TST_LOOP_STATUS.LOCK lock).put TST_LOOP_STATUS.PASS 0).put TST_LOOP_STATUS.RUNNING 1

/-- A loop-back ends (R445): the units it checked, the mismatches, whether LOCK held throughout, and, of a march test, the
failing columns (R447). The dies of an ONFI channel return under R182. -/
def State.endLoop (s : State) (units errors : Nat) (locked : Bool) (columns : List (Nat × Nat)) : State :=
  match s.dbg.loop with
  | none => s
  | some l =>
    let s : State := { s with dbg := { s.dbg with loop := none } }
    let s := (s.bump TST_LOOP_ERRORS.COUNT errors).bumpPair .TST_LOOP_UNITS_LO .TST_LOOP_UNITS_HI 0 units
    let s := if l.iface = 6 then columns.foldl (fun s c => s.puti RSV_ECC_COL.COLUMN c.1 c.2) s else s
    let s := l.dies.foldl (fun s d => if s.dieState d = dieSuspended then s.bringBack d false else s) s
    let (lock, s) := s.fresh 17 2
    let s := (s.put TST_LOOP_STATUS.LOCK (if locked then 1 else lock)).put TST_LOOP_STATUS.RUNNING 0
    s.putb TST_LOOP_STATUS.PASS (errors == 0 && locked)

/-- A write of TST_LOOP_CTRL (R448): STOP ends the loop that runs, with what it has counted; GO starts one.
(DEDUCED, assumption 88.) -/
def loopCtrl (w : Word) (units errors : Nat) (locked : Bool) (columns : List (Nat × Nat)) (s : State) : State :=
  let s := s.swWrite .TST_LOOP_CTRL 0 w
  let s := if TST_LOOP_CTRL.STOP.cmd w then s.endLoop units errors locked columns else s
  if TST_LOOP_CTRL.GO.cmd w then s.startLoop else s

/-- A write of TST_LOOP_CTRL by an access that says nothing of what a stopped loop has counted: those are free values. -/
def loopCtrlOpen (w : Word) (s : State) : State :=
  let (units, s) := s.fresh 17 (2 ^ 64)
  let (errors, s) := s.fresh 17 (2 ^ 32)
  let (lock, s) := s.fresh 17 2
  let n := s.free
  let columns := (List.range 1024).map (fun b => (b, Config.freeNat 17 (n + b) % 1024))
  loopCtrl w units errors (lock == 1) columns { s with free := n + 1024 }

/-- LOOP_END: DURATION_MS has run out. -/
def loopEndEffect (units errors : Nat) (locked : Bool) (columns : List (Nat × Nat)) (s : State) : State :=
  if s.dbg.loop.any (·.timed) then s.endLoop units errors locked columns else s

/-- TEST_MODE_ENTER (R447): after device reset and before Keeper starts. -/
def testModeEffect (s : State) : State :=
  if s.awake ∧ s.power.resetPhase = .none ∧ s.power.warm = false ∧ s.svc.dispatcher = none ∧ s.ison SVC_STATUS.KEEPER_RESTARTING = false then
    s.put TST_MODE.EN 1
  else s

/-- DBG_STW_CTRL written with STOP as 1. -/
def execStillwaterStop (w : Word) (s : State) : Host.Outcome State Fault Refusal :=
  .next (finish s (s.viaReg .host .DBG_STW_CTRL 0 (DBG_STW_CTRL.STOP.set w 1) (stwCtrl (DBG_STW_CTRL.STOP.set w 1))))
def execJtagStillwater (s : State) : Host.Outcome State Fault Refusal := .next (finish s (jtagStwEffect s))
def execStillwaterAt (s : State) : Host.Outcome State Fault Refusal := .next (finish s (stwAtEffect s))
/-- DBG_STW_CTRL written, ARM as the word gives it. -/
def execStillwaterArm (w : Word) (s : State) : Host.Outcome State Fault Refusal :=
  .next (finish s (s.viaReg .host .DBG_STW_CTRL 0 w (stwCtrl w)))
/-- DBG_STW_CTRL written with SCAN as 1. -/
def execStillwaterScan (w : Word) (s : State) : Host.Outcome State Fault Refusal :=
  .next (finish s (s.viaReg .host .DBG_STW_CTRL 0 (DBG_STW_CTRL.SCAN.set w 1) (stwCtrl (DBG_STW_CTRL.SCAN.set w 1))))
def execScanned (s : State) : Host.Outcome State Fault Refusal := .next (finish s (scannedEffect s))
/-- DBG_STW_CTRL written with RESUME as 1. -/
def execResume (w : Word) (s : State) : Host.Outcome State Fault Refusal :=
  .next (finish s (s.viaReg .host .DBG_STW_CTRL 0 (DBG_STW_CTRL.RESUME.set w 1) (stwCtrl (DBG_STW_CTRL.RESUME.set w 1))))
/-- DBG_SNAP written with GO as 1. -/
def execSnapshot (w : Word) (s : State) : Host.Outcome State Fault Refusal :=
  .next (finish s (s.viaReg .host .DBG_SNAP 0 (DBG_SNAP.GO.set w 1) (snapCtrl (DBG_SNAP.GO.set w 1))))
def execTraceSync (s : State) : Host.Outcome State Fault Refusal := .next (finish s (traceSyncEffect s))
/-- TST_LOOP_CTRL written with GO as 1. -/
def execLoopStart (w : Word) (s : State) : Host.Outcome State Fault Refusal :=
  .next (finish s (s.viaReg .host .TST_LOOP_CTRL 0 (TST_LOOP_CTRL.GO.set w 1) (loopCtrlOpen (TST_LOOP_CTRL.GO.set w 1))))
/-- TST_LOOP_CTRL written with STOP as 1. -/
def execLoopStop (w : Word) (units errors : Nat) (locked : Bool) (columns : List (Nat × Nat)) (s : State) :
    Host.Outcome State Fault Refusal :=
  .next (finish s (s.viaReg .host .TST_LOOP_CTRL 0 (TST_LOOP_CTRL.STOP.set w 1)
    (loopCtrl (TST_LOOP_CTRL.STOP.set w 1) units errors locked columns)))
def execLoopEnd (units errors : Nat) (locked : Bool) (columns : List (Nat × Nat)) (s : State) :
    Host.Outcome State Fault Refusal :=
  .next (finish s (loopEndEffect units errors locked columns s))
def execTestModeEnter (s : State) : Host.Outcome State Fault Refusal := .next (finish s (testModeEffect s))

end Sys2Proof.Machine
end

