-- ==== Sys2Proof/Machine/Lockstep.lean ====
section
/-! DEFINITION. Lock-step comparison with a peer (R64 to R67). -/
namespace Sys2Proof.Machine

/-- The window length in steps. -/
def State.lsWindow (s : State) : Nat := s.get MIR_LS_CTRL.WINDOW_M1 + 1

/-- The first step of the oldest window that has batches; windows start at multiples of their length (assumption 28). -/
def State.lsFirst (s : State) : Option Nat :=
  match s.lock.batches with
  | [] => none
  | b :: l => some ((l.foldl (fun m e => min m e.1) b.1) / s.lsWindow * s.lsWindow)

/-- Whether every batch of the steps before `n` has been handed over. -/
def State.stepsClosed (s : State) (n : Nat) : Bool :=
  s.rills.all (fun r => r.parts.all (fun p => decide (n ≤ p.step)))
  && (List.range 4).all (fun k =>
      match (s.slot k).plan with
      | some (p, _) => s.slotState k != 1 || decide (n ≤ (s.slot k).genStep) || decide (p.lastStep < (s.slot k).genStep)
      | none => true)

/-- Batches in order of step and then Rill. -/
def insertBatch (b : Nat × Nat × Nat × Nat) : List (Nat × Nat × Nat × Nat) → List (Nat × Nat × Nat × Nat)
  | [] => [b]
  | c :: l => if b.1 < c.1 ∨ (b.1 = c.1 ∧ b.2.1 < c.2.1) then b :: c :: l else c :: insertBatch b l

/-- A peer's window compared with the local one (R66). (DEDUCED, assumption 44.) -/
def lsCompare (mine peer : Nat × Nat × Nat) (s : State) : State :=
  let s := s.bump MIR_LS_WINDOWS.WINDOWS 1
  let digest := decide (mine.2.1 ≠ peer.2.1)
  let cycles := s.ison MIR_LS_CTRL.CYCLES && decide (mine.2.2 ≠ peer.2.2)
  if digest then ((s.ev MIR_LS_STATUS.MISMATCH).detFault dfLockstep 0 0x1F mine.1 peer.2.1 mine.2.1).trigger 5
  else if cycles then ((s.ev MIR_LS_STATUS.MISMATCH).detFault dfLockstep 0 0x1F mine.1 peer.2.2 mine.2.2).trigger 5
  else s

/-- Compares the closed windows whose peer frame has come, while the pair compares. -/
def lsMatch (s : State) : State :=
  if s.ison MIR_LS_STATUS.PAIRED then
    s.lock.closed.foldl (fun s c =>
      match s.lock.peer.find? (fun q => q.1 == c.1) with
      | some q =>
        lsCompare c q { s with lock := { s.lock with
          closed := s.lock.closed.filter (fun d => d.1 != c.1)
          peer := s.lock.peer.filter (fun d => d.1 != c.1) } }
      | none => s) s
  else s

/-- A window's frame leaves on the pairing Spout (R65); there is no Spout above 23. (DESIGN CHOICE, assumption 11.) -/
def State.sendWindow (s : State) (first digest cycles : Nat) : State :=
  let spout := s.get MIR_LS_CTRL.SPOUT
  if spout < 24 then 
    s.sendControl spout "LOCKSTEP" 0x21 (leBytes 2 (s.get GLB_ID_HI.DCLASS) ++ leBytes 2 (s.get MIR_LS_CTRL.WINDOW_M1) ++ leBytes 6 first ++ zeros 6
      ++ leBytes 8 digest ++ leBytes 8 cycles)
  else s

/-- LOCKSTEP_WINDOW (R65): the oldest window closes; its frame goes to the peer. (DEDUCED, assumption 28.) -/
def lsWindowEffect (s : State) : State :=
  if s.ison MIR_LS_CTRL.EN ∧ s.lock.stopped = false then
    match s.lsFirst with
    | none => s
    | some first =>
      let limit := first + s.lsWindow
      if s.stepsClosed limit then
        let mine := (s.lock.batches.filter (fun b => decide (b.1 < limit))).foldl (fun l b => insertBatch b l) []
        let digest := rippleDigest (mine.flatMap (fun b => leBytes 8 b.2.2.1))
        let cycles := (mine.map (fun b => b.2.2.2)).sum % 2 ^ 64
        let s := { s with lock := { s.lock with
          batches := s.lock.batches.filter (fun b => !decide (b.1 < limit))
          closed := s.lock.closed ++ [(first, digest, cycles)] } }
        lsMatch (s.sendWindow first digest cycles)
      else s
  else s

/-- LOCKSTEP_FRAME (R64, R66): the peer's first frame makes the pair where class and window agree. -/
def lsFrameEffect (dclass windowM1 first digest cycles : Nat) (s : State) : State :=
  if s.ison MIR_LS_CTRL.EN ∧ s.lock.stopped = false then
    let s :=
      if s.lock.seen then s
      else
        let ok := dclass == s.get GLB_ID_HI.DCLASS && windowM1 == s.get MIR_LS_CTRL.WINDOW_M1
        ({ s with lock := { s.lock with seen := true } }).putb MIR_LS_STATUS.PAIRED ok
    if s.ison MIR_LS_STATUS.PAIRED then
      lsMatch { s with lock := { s.lock with peer := s.lock.peer ++ [(first, digest, cycles)] } }
    else s
  else s

/-- LOCKSTEP_LOST (R67): the peer's frame has not come in time; what a record shows as expected and observed is not stated:
free values. (DEDUCED, assumption 86.) -/
def lsLostEffect (s : State) : State :=
  match s.lock.closed with
  | [] => s
  | c :: _ =>
    if s.ison MIR_LS_CTRL.EN ∧ s.lock.stopped = false then
      let (want, s) := s.fresh 8 (2 ^ 64)
      let (got, s) := s.fresh 9 (2 ^ 64)
      let s := { s with lock := { s.lock with stopped := true, closed := [], peer := [] } }
      ((s.ev MIR_LS_STATUS.LOST).put MIR_LS_STATUS.PAIRED 0).detFault dfLost 0 0x1F c.1 want got
    else s

/-- A write of MIR_LS_CTRL (R67, R68): with EN cleared, nothing is compared, and setting it again starts anew. -/
def lsCtrl (w : Word) (s : State) : State :=
  let s := s.swWrite .MIR_LS_CTRL 0 w
  if s.ison MIR_LS_CTRL.EN then s else ({ s with lock := LockSt.reset }).put MIR_LS_STATUS.PAIRED 0

def execLockstepWindow (s : State) : Host.Outcome State Fault Refusal := .next (finish s (lsWindowEffect s))
def execLockstepFrame (dclass windowM1 first digest cycles : Nat) (s : State) : Host.Outcome State Fault Refusal :=
  .next (finish s (lsFrameEffect dclass windowM1 first digest cycles s))
def execLockstepLost (s : State) : Host.Outcome State Fault Refusal := .next (finish s (lsLostEffect s))

end Sys2Proof.Machine
end

