-- ==== Sys2Proof/Machine/PebbleJob.lean ====
section
/-! DEFINITION. Pebble's jobs: the host's (R329 to R337, R341), the Sluice's (R338), Keeper's (R339) and the Weir's (R340). -/
namespace Sys2Proof.Machine

/-- The words of a register family as bytes. -/
def State.familyBytes (s : State) (r : Reg) (n : Nat) : List Byte :=
  (List.range n).flatMap (fun i => leBytes 4 (s.word r i).toNat)

/-- The job that the PBL registers describe. -/
def State.pebbleJob (s : State) : PblJob where
  srcHost := s.ison PBL_JOB_CTRL.SRC_MEM = false
  src := s.pair .PBL_SRC_LO .PBL_SRC_HI 0
  dstHost := s.ison PBL_JOB_CTRL.DST_MEM = false
  dst := s.pair .PBL_DST_LO .PBL_DST_HI 0
  srcLen := s.get PBL_SRC_LEN.BYTES
  dstLen := s.get PBL_DST_LEN.BYTES
  fresh :=
    if s.ison PBL_JOB_CTRL.RESUME then none
    else some (s.ison PBL_JOB_CTRL.DIR, s.get PBL_JOB_CTRL.MODE, s.ison PBL_JOB_CTRL.TABLE, s.get PBL_JOB_CTRL.ELEM,
      s.get PBL_JOB_CTRL.STRIDE_M1)
  resume := s.familyBytes .PBL_RESUME 16
  aborted := false

/-- A write of PBL_JOB_CTRL (R341): with ABORT, GO is not looked at. -/
def pebbleCtrl (w : Word) (s : State) : State :=
  let s := s.swWrite .PBL_JOB_CTRL 0 w
  if PBL_JOB_CTRL.ABORT.cmd w then s.modPebble (fun p => { p with host := p.host.map (fun j => { j with aborted := true }) })
  else if PBL_JOB_CTRL.GO.cmd w then
    if s.pebble.host.isSome then s.ev PBL_EVENT.GO_REFUSED
    else ((s.modPebble (fun p => { p with host := some s.pebbleJob })).put PBL_STATUS.HOST_BUSY 1).submitJob .host []
  else s

/-- The resume record shows in PBL_STATE (R335). -/
def State.showRecord (s : State) (b : List Byte) : State :=
  s.each 16 (fun i s => s.setWord .PBL_STATE i (BitVec.ofNat 32 (leAt b (4 * i) 4)))

/-- The host job ends for a reason (R341). -/
def State.endPebble (s : State) (reason inDone outDone : Nat) : State :=
  let t := (s.modPebble (fun p => { p with host := none })).put PBL_STATUS.HOST_BUSY 0
  let t := ((t.put PBL_JOB_RESULT.REASON reason).put PBL_IN_DONE.BYTES inDone).put PBL_OUT_DONE.BYTES outDone
  (if reason = pblOutFull then t.ev PBL_EVENT.OUT_FULL else t).ev PBL_EVENT.DONE

/-- A submission runs over the bytes of its source; an aborted one ends after `units` units. -/
def PblJob.run (j : PblJob) (input : List Byte) (vf : Option Nat) (units : Nat) (st : PblState) : PblEnd :=
  let inp := input.take j.srcLen
  let all := pblAllUnits st inp + j.dstLen
  pblRun ⟨0, []⟩ vf (if j.aborted then min units all else all) st inp j.dstLen

/-- The bytes of Cistern's host-directed region (R28): what the other regions leave of 192 GiB. The map holds an entry for each unit of raw
capacity; the catalogue reaches to its highest entry that is not zero; the vocabularies take their images; staging, Keeper, the Mirror ring, the
weave slots and the scan-out area take their sizes. What a region leaves unused is not stated beyond its size. (DESIGN CHOICE, assumption 110.) -/
def State.regionBytes (s : State) : Nat :=
  let dies := (allDies.filter (fun d => s.dieState d != dieAbsent)).length
  let map := 5 * dies * (s.aqf.geometry.map (fun g => g.blocks * g.pages)).getD 0
  let catalogue := 16 * s.sluice.catalogue.foldl (fun m e => max m (e.1 + 1)) 0
  let pools := s.poolTotal 7 * 2 ^ 22 + s.weir.poolMib * 2 ^ 20
  192 * 2 ^ 30 - (16 * 2 ^ 30 + map + catalogue + pools + (s.vocabs.map List.length).sum)

/-- The source of a job (R341): host memory, as it arrived, or the host-directed region; none where an access to it failed. -/
def State.jobSource (s : State) (j : PblJob) (source : Option (List Byte)) : Option (List Byte) :=
  if j.srcHost then source
  else if source.isNone ∨ s.regionBytes < j.src + j.srcLen ∨ (j.dstHost = false ∧ s.regionBytes < j.dst + j.dstLen) then none
  else some (s.rdRegionBytes j.src j.srcLen)

/-- The bytes of a job reach their destination (R341). -/
def State.jobOut (s : State) (j : PblJob) (out : List Byte) : State :=
  if out = [] then s
  else if j.dstHost then s.emit (.hostWrite j.dst out s.relaxed)
  else (s.wrRegion j.dst out).emit (.stream "CISTERN" j.dst out)

/-- The host's job ends (R28, R333 to R336, R341): the bytes of a source in host memory, or none where an access to the source failed; the
block whose self-check mismatches; the units after which an abort takes effect. How far a job had come whose source failed is open.
(DESIGN CHOICE, assumption 89.) -/
def State.hostJobEnd (s : State) (j : PblJob) (source : Option (List Byte)) (vf : Option Nat) (units : Nat) : State :=
  match s.jobSource j source with
  | none =>
    let (a, s) := s.fresh 19 (j.srcLen + 1)
    let (b, s) := s.fresh 19 (j.dstLen + 1)
    s.endPebble pblSource a b
  | some input =>
    match j.start (input.take j.srcLen) with
    | none => s.endPebble pblFormat 0 0
    | some st =>
      let r := j.run input vf units st
      let s := s.jobOut j r.out
      let s := if r.reason = pblOutFull ∨ r.reason = pblAborted then s.showRecord (pblRecord r.st) else s
      (s.countPebble r).endPebble r.reason r.inDone r.out.length

/-- A stored sample has been expanded (R338): what it came to is its fetch's, where the Sluice still has that; none where the expansion ended
in FORMAT or CHECK. -/
def State.sluiceJobEnd (s : State) (id : Nat) (input : List Byte) : State :=
  let (t, s) := expandStored input s
  { s with sluice := { s.sluice with fetches := s.sluice.fetches.map (fun f => if f.job = some id then { f with whole := some t } else f) } }

/-- A batch has been coded (R340): its container waits with it; after a self-check's mismatch it is coded again (R333).
(DESIGN CHOICE, assumption 89.) -/
def State.weirJobEnd (s : State) (id : Nat) (input : List Byte) (vf : Option Nat) : State :=
  let r := pblExactRun ⟨0, []⟩ vf input
  let done := fun (x : ReadyBatch) =>
    if x.job = some id then (if r.reason = pblDone then { x with coded := some r.out } else { x with job := none }) else x
  let s := s.countPebble r
  { s with rills := s.rills.map (fun x => { x with ready := x.ready.map done }) }

/-- A record has been coded for the decoded-sample cache (R339): Keeper writes its container; after a self-check's mismatch it is coded
again (R333). (DESIGN CHOICE, assumption 89.) -/
def State.keeperJobEnd (s : State) (inner : PblInner) (input : List Byte) (vf : Option Nat) : State :=
  let r := pblExactRun inner vf input
  let s := s.countPebble r
  if r.reason = pblDone then (s.cacheContainer r.out).drainCache else s.submitJob (.keeper inner) input

/-- PEBBLE_JOB_DONE (R333 to R341): the job that a lane runs ends, and its lane goes on to a waiting job; the other operands say of the job
what the state does not hold. Where the lane runs none, the waiting jobs ask again for buffers. (DESIGN CHOICE, assumption 89.) -/
def pebbleDoneEffect (lane : Nat) (source : Option (List Byte)) (vf : Option Nat) (units : Nat) (s : State) : State :=
  if s.halted then s
  else
    match s.pebble.jobs.find? (fun j => j.lane == some lane) with
    | none => s.runLanes
    | some j =>
      let t :=
        match j.client with
        | .sluice => s.sluiceJobEnd j.id j.input
        | .weir => s.weirJobEnd j.id j.input vf
        | .keeper inner => s.keeperJobEnd inner j.input vf
        | .host =>
          match s.pebble.host with
          | some h => s.hostJobEnd h source vf units
          | none => s
      t.endJob j

/-- PBL_JOB_CTRL written with GO as 1. -/
def execPebbleGo (w : Word) (s : State) : Host.Outcome State Fault Refusal :=
  .next (finish s (s.viaReg .host .PBL_JOB_CTRL 0 (PBL_JOB_CTRL.GO.set w 1) (pebbleCtrl (PBL_JOB_CTRL.GO.set w 1))))
/-- PBL_JOB_CTRL written with ABORT as 1. -/
def execPebbleAbort (w : Word) (s : State) : Host.Outcome State Fault Refusal :=
  .next (finish s (s.viaReg .host .PBL_JOB_CTRL 0 (PBL_JOB_CTRL.ABORT.set w 1) (pebbleCtrl (PBL_JOB_CTRL.ABORT.set w 1))))
def execPebbleJobDone (lane : Nat) (source : Option (List Byte)) (vf : Option Nat) (units : Nat) (s : State) :
    Host.Outcome State Fault Refusal :=
  .next (finish s (pebbleDoneEffect lane source vf units s))

end Sys2Proof.Machine
end

