-- ==== Sys2Proof/Machine/Tasks.lean ====
section
/-! DEFINITION. The queues and the life of a task: TASK_GO, the fetch in rotation, completion entries, stalls, queue
resets and the resets of the function-level domain (R193 to R214). -/
namespace Sys2Proof.Machine

/-- TASK_GO (R194): the tail is taken while BUSY is 0, no device reset closes intake (R462), the queue runs and the tail lies
in the ring, else refused. It
wakes the device (R217). -/
def goEffect (q : Nat) (w : Word) (s : State) : State :=
  let s := s.wake 0
  let tail := TASK_GO.TAIL.get w
  if s.ison TASK_STATUS.BUSY ∨ s.draining ∨ s.sqSize q ≤ tail ∨ s.isoni TASK_Q_STATUS.RUNNING q = false then
    (s.evi TASK_Q_STATUS.GO_REFUSED q).bump TASK_REFUSED.COUNT 1
  else s.puti TASK_SQ_TAIL.TAIL q tail

/-- A queue that can have its next entry fetched (R196, R214, R219): it runs, holds a queued task, is not waiting for
TASK_CQ_HEAD to read 0, and its completion ring has an entry not yet reserved. (DEDUCED, assumption 65.) -/
def State.canFetch (s : State) (q : Nat) : Bool :=
  s.isoni TASK_Q_STATUS.RUNNING q && s.geti TASK_SQ_HEAD.HEAD q != s.geti TASK_SQ_TAIL.TAIL q
  && !(s.queue q).awaitZero
  && decide ((s.queue q).unreleased + s.inFlight.countP (fun t => t.queue == q) < s.cqSize q)

/-- The queue whose turn it is (R196): the lowest-numbered one that is ready and has not had its turn in this rotation, or, where
every ready queue has had it, the lowest-numbered one that is ready. Below P0 and in a device reset nothing is fetched (R216,
R462). -/
def State.fetchQueue (s : State) : Option Nat :=
  if 512 ≤ s.inFlight.length ∨ s.draining ∨ s.power.state ≠ 0 ∨ s.power.porHeld then none
  else
    match (List.range 8).find? (fun q => s.canFetch q && !s.host.turn.contains q) with
    | some q => some q
    | none => (List.range 8).find? s.canFetch

/-- The queues that have had their turn once queue `q` has been served (R196). -/
def State.nextTurn (s : State) (q : Nat) : List Nat := if s.host.turn.contains q then [q] else q :: s.host.turn

/-- The status that a fetched task ends with at once, if any: a queue reset or an expired drain aborts it, a check of
R203 or of its scatter list refuses it, and a list that could not be read ends it (R198, R203): `reason` says why, 0 where it
could. -/
def State.fetchStatus (s : State) (q : Nat) (bs list : List Byte) (reason : Nat) (t : Task) : Option Nat :=
  if s.isoni TASK_Q_STATUS.QRESET_BUSY q then some 0x0051
  else if s.host.drainExpired then some 0x0050
  else
    match s.checkTask bs t with
    | some st => some st
    | none =>
      if t.sgl = false then none
      else if reason ≠ 0 then some 0x0030
      else if sgBad t list then some 0x0020 else none

/-- A submission-entry fetch that failed stops its queue (R196); under a queue reset the task that could not be read
still completes, with a TAG nothing states (a free value). -/
def fetchFailed (q reason : Nat) (s : State) : State :=
  let addr := s.sqBase q + 64 * s.geti TASK_SQ_HEAD.HEAD q
  let s := (s.evi TASK_Q_STATUS.FETCH_ERR q).puti TASK_Q_STATUS.RUNNING q 0
  s.dmaError addr q 0 reason

/-- TASK_FETCH (R196, R203, R205): a data task claims a range-lock entry, whatever its checks say of it. -/
def fetchEffect (entry : Option (List Byte)) (list : List Byte) (reason : Nat) (s : State) : State :=
  match s.fetchQueue with
  | none => s
  | some q =>
    let s : State := { s with host := { s.host with turn := s.nextTurn q } }
    match entry with
    | none => fetchFailed q reason s
    | some bs =>
      let head := (s.geti TASK_SQ_HEAD.HEAD q + 1) % s.sqSize q
      let t := taskOf bs s.host.nextId q head
      let st : Option Nat := s.fetchStatus q bs list reason t
      let lock := t.isExtent
      if lock ∧ 256 ≤ s.host.tasks.countP (fun x => x.locked) then s
      else
        let t : Task := { t with
          locked := lock
          done := st.map (fun c => (c, 0))
          sg := (sgOf t.sglCount list).map (fun e => (e.1, e.2.1)) }
        let s := s.puti TASK_SQ_HEAD.HEAD q head
        let s := if st = some 0x0030 ∧ t.sgl ∧ reason ≠ 0 then s.dmaError t.addr q t.tag reason else s
        (({ s with host := { s.host with tasks := s.host.tasks ++ [t], nextId := s.host.nextId + 1 } }).trace 7 q t.tag 0 0).showTasks

/-- A finished queue reset (R214): every queued task has been fetched and completed, and the host has released every
entry. -/
def resetQueueIfDone (q : Nat) (s : State) : State :=
  if s.isoni TASK_Q_STATUS.QRESET_BUSY q ∧ s.geti TASK_SQ_HEAD.HEAD q = s.geti TASK_SQ_TAIL.TAIL q
      ∧ s.inFlight.all (fun t => t.queue != q) ∧ (s.queue q).unreleased = 0 then
    let s := ((s.puti TASK_SQ_HEAD.HEAD q 0).puti TASK_SQ_TAIL.TAIL q 0).puti TASK_Q_STATUS.PHASE q 1
    let s := s.puti TASK_Q_STATUS.QRESET_BUSY q 0
    s.modQueue q (fun _ => ⟨0, 0, 0, s.geti TASK_CQ_HEAD.HEAD q != 0⟩)
  else s

/-- The 16 bytes of a completion entry (R206). -/
def completionEntry (t : Task) (status result phase : Nat) : List Byte :=
  leBytes 2 t.tag ++ leBytes 2 status ++ leBytes 2 t.sqHead ++ leBytes 1 t.queue ++ leBytes 1 phase ++ leBytes 8 result

/-- The status as written: OK becomes OK_DEFERRED while deferred errors await acknowledgement (R177, R208). -/
def State.shownStatus (s : State) (st : Nat) : Nat :=
  if st = 0 ∧ s.get AQF_DFL_HEAD.HEAD ≠ s.get AQF_DFL_ACK.ACK then 1 else st

/-- Writes a completion entry into its ring and signals under coalescing (R206, R207). -/
def writeCompletion (t : Task) (status result : Nat) (s : State) : State :=
  let q := t.queue
  let pos := (s.queue q).cqPos
  let s := s.emit (.hostWrite (s.cqBase q + 16 * pos)
    (completionEntry t (s.shownStatus status) result (s.geti TASK_Q_STATUS.PHASE q)) false)
  let next := (pos + 1) % s.cqSize q
  let s := if next = 0 then s.puti TASK_Q_STATUS.PHASE q (1 - s.geti TASK_Q_STATUS.PHASE q) else s
  let n := (s.queue q).unsignalled + 1
  let full := decide (max 1 (s.geti TASK_CQ_COAL.COUNT q) ≤ n)
  let s := s.modQueue q (fun x =>
    { x with cqPos := next, unreleased := x.unreleased + 1, unsignalled := if full then 0 else n })
  if full then s.signal q else s

/-- TASK_COMPLETE (R204, R207): a task that has ended completes in its turn; a silent one leaves no entry (R213). -/
def completeEffect (t : Nat) (s : State) : State :=
  match s.task? t with
  | some x =>
    match x.done with
    | some (status, result) =>
      if x.silent then s.setTasks (s.host.tasks.filter (fun y => y.id != t))
      else if s.inTurn x ∧ (s.queue x.queue).awaitZero = false then
        let s := s.setTasks (s.host.tasks.filter (fun y => y.id != t))
        let s := s.trace 8 x.queue (x.tag + 2 ^ 16 * s.shownStatus status) result 0
        (resetQueueIfDone x.queue (writeCompletion x status result s)).showTasks
      else s
    | none => s
  | none => s

/-- TIME_US has passed since the first unsignalled entry (R207); a TIME_US of 0 disables the timer. -/
def coalesceEffect (q : Nat) (s : State) : State :=
  if s.geti TASK_CQ_COAL.TIME_US q = 0 ∨ (s.queue q).unsignalled = 0 then s
  else (s.modQueue q (fun x => { x with unsignalled := 0 })).signal q

/-- Whether a task reads host memory while it runs (R199, R211). -/
def Task.readsHost (t : Task) : Bool :=
  [0x02, 0x05, 0x10, 0x13, 0x14, 0x15, 0x20, 0x24].contains t.opcode || (t.opcode == 0x2A && t.target == 1)

/-- The sectors of the units of a write that have arrived whole (R211), or the bytes that a read has sent (R210): progress
counts them. -/
def Task.stalledResult (t : Task) : Nat := if t.opcode = 2 ∧ t.atomic = false then t.progress else
  if t.opcode = 1 then t.progress else 0

/-- Whether a task has still to read some of its source (R211): a write whose data has all arrived has not. -/
def Task.reading (t : Task) : Bool := t.readsHost && (t.opcode != 2 || decide (t.progress < t.count))

/-- Whether a task puts data into the host's buffer other than as a READ_EXTENT (R199). -/
def Task.writesHost (t : Task) : Bool := [0x12, 0x25, 0x29].contains t.opcode || (t.opcode == 0x2A && t.target == 0)

/-- Whether a task waits on posted credits (R210): a READ_EXTENT with a unit that waits in its Basin buffer, or another running
task that has data to deliver. (DESIGN CHOICE, assumption 115.) -/
def Task.awaitsCredits (t : Task) : Bool := t.started && (!t.landed.isEmpty || t.writesHost)

/-- Whether HOST_STALL ends a task (R210, R211). (DESIGN CHOICE, assumption 115.) -/
def State.stallHits (s : State) (posted : Bool) (t : Task) : Bool :=
  t.done.isNone && (if posted then t.awaitsCredits else t.reading && s.mayRun t)

/-- A task that HOST_STALL has ended (R210, R211): one that waited on posted credits leaves its lock entry and its buffers. -/
def Task.stalled (posted : Bool) (t : Task) : Task :=
  { t with
    started := true
    locked := t.locked && !posted
    landed := []
    done := some (0x0040, t.stalledResult) }

/-- HOST_STALL (R210, R211): the tasks that wait on posted credits end, or the tasks whose host reads make no progress. -/
def stallEffect (posted : Bool) (s : State) : State :=
  let l := s.host.tasks.filter (s.stallHits posted)
  if l.isEmpty then s
  else
    let s1 := s.setTasks (s.host.tasks.map (fun t => if s.stallHits posted t then t.stalled posted else t))
    ((l.foldl State.vocabUndone ((s1.dropLanded l).ev HIF_EVENT.HOST_STALL)).dropPartial).showTasks

/-- A write of TASK_Q_CTRL (R193, R214): setting EN starts the queue where both bases are aligned, clearing it stops
fetching; QRESET begins a queue reset of a running queue. -/
def queueCtrl (q : Nat) (w : Word) (s : State) : State :=
  let was := s.isoni TASK_Q_CTRL.EN q
  let s := s.swWrite .TASK_Q_CTRL q w
  let now := s.isoni TASK_Q_CTRL.EN q
  let s :=
    if !was && now then
      if s.sqBase q % 4096 = 0 ∧ s.cqBase q % 4096 = 0 then
        let s := (s.puti TASK_Q_STATUS.RUNNING q 1).puti TASK_Q_STATUS.PHASE q 1
        let s := (s.puti TASK_SQ_HEAD.HEAD q 0).puti TASK_SQ_TAIL.TAIL q 0
        s.modQueue q (fun _ => ⟨s.geti TASK_CQ_HEAD.HEAD q % s.cqSize q, 0, 0, false⟩)
      else s
    else if was && !now then s.puti TASK_Q_STATUS.RUNNING q 0
    else s
  if TASK_Q_CTRL.QRESET.cmd w ∧ s.isoni TASK_Q_STATUS.RUNNING q then
    let s := s.puti TASK_Q_STATUS.QRESET_BUSY q 1
    let s := s.setTasks (s.host.tasks.map (fun t =>
      if t.queue = q ∧ t.started = false ∧ t.done = none then { t with done := some (0x0051, 0) } else t))
    resetQueueIfDone q s
  else s

/-- A write of TASK_CQ_HEAD (R207, R214): the entries from the old value to the new one are released; with every entry of
the ring unreleased, a write of the same value releases them all. (DEDUCED, assumption 52.) -/
def cqHeadEffect (q : Nat) (w : Word) (s : State) : State :=
  let old := s.geti TASK_CQ_HEAD.HEAD q
  let s := s.swWrite .TASK_CQ_HEAD q w
  let new := s.geti TASK_CQ_HEAD.HEAD q
  let n := s.cqSize q
  let held := (s.queue q).unreleased
  let freed := if old = new ∧ held = n then n else (new + n - old % n) % n
  let s := s.modQueue q (fun x =>
    { x with unreleased := held - min held freed, awaitZero := x.awaitZero && new != 0 })
  resetQueueIfDone q s

/-- The registers of a reset domain go back to their reset values; a power-on reset takes the device and function-level
domains along, a device reset the function-level domain (R461). -/
def Dom.level : Dom → Nat
  | .func => 0
  | .device => 1
  | .poweron => 2

def State.resetRegs (s : State) (d : Dom) : State :=
  { s with regs := s.regs.filter (fun e => decide (d.level < e.1.1.place.dom.level)) }

/-- Whether a function-level reset leaves a task to run to its end (R213): one that has started and is no READ_EXTENT or
WRITE_EXTENT. -/
def Task.runsOn (t : Task) : Bool := t.started && t.done.isNone && t.opcode != 1 && t.opcode != 2

/-- The tasks after a function-level reset (R213): those not started are discarded, a read is abandoned, a write keeps
what entered staging, other started tasks run on without a completion. -/
def tasksAfterReset (l : List Task) : List Task := (l.filter Task.runsOn).map (fun t => { t with silent := true })

/-- The effects that a Function Level Reset, a link down event, PERST_N and a HIF soft reset share (R213). The status of
the link, of Keeper and of the power state is live hardware state and stays (assumption 9). -/
def functionReset (s : State) : State :=
  let link := s.word .HIF_STATUS 0
  let st := s.get HIF_PWR_STATUS.STATE
  let s := s.dropLanded s.host.tasks
  let s := s.resetRegs .func
  let s := s.setWord .HIF_STATUS 0 link
  let s := (s.put HIF_STATUS.FUNC_READY 0).put HIF_STATUS.SOFT_BUSY 0
  let s := s.put HIF_PWR_STATUS.STATE st
  ({ s with host := { HostSt.reset with tasks := tasksAfterReset s.host.tasks, nextId := s.host.nextId } }).dropPartial.showTasks

/-- The causes of BUSY follow what holds (R195, R464). -/
def State.openIntake (s : State) : State :=
  let s := s.setBusy TASK_STATUS.ACTIVATION s.svc.activating.isSome
  let s := s.setBusy TASK_STATUS.BACKPRESSURE (s.reached BSN_POOL_THR.BP 3)
  s.setBusy TASK_STATUS.KEEPER (!s.ison HIF_STATUS.KEEPER_UP)

/-- The link's state is lost (R191, R461). -/
def State.linkLost (s : State) : State :=
  (((s.put HIF_STATUS.LINK_UP 0).put HIF_STATUS.WIDTH 0).put HIF_STATUS.RATE 0).put HIF_STATUS.FLIT 0

/-- HIF_CTRL written: SOFT_RESET starts a HIF soft reset (R213). -/
def hifCtrl (w : Word) (s : State) : State :=
  let s := s.swWrite .HIF_CTRL 0 w
  if HIF_CTRL.SOFT_RESET.cmd w then
    ((functionReset s).put HIF_STATUS.SOFT_BUSY 1).setBusy TASK_STATUS.RESET true
  else s

/-- The soft reset completes (R213). -/
def softDoneEffect (s : State) : State :=
  if s.ison HIF_STATUS.SOFT_BUSY then
    let s := (s.put HIF_STATUS.SOFT_BUSY 0).put HIF_STATUS.FUNC_READY 1
    (s.openIntake.setBusy TASK_STATUS.RESET false).ev HIF_EVENT.SOFT_DONE
  else s

/-- A host read of the device has had no completion for 50 ms (R190): a submission fetch stops its queue (R196), a
task's own read ends the task (R203). -/
def dmaTimeout (q : Nat) (t : Option Nat) (addr : Nat) (s : State) : State :=
  match t with
  | none => if s.isoni TASK_Q_STATUS.RUNNING q then fetchFailed q 3 s else s
  | some k =>
    match s.task? k with
    | some x =>
      if x.done = none ∧ (x.readsHost ∨ x.sgl) then
        let s := (s.dmaError addr x.queue x.tag 3).vocabFailed x
        (s.endTask k 0x0030 x.failedResult).dropPartial.showTasks
      else s
    | none => s

/-- The NOP task (R199). -/
def nopEffect (t : Nat) (s : State) : State := s.runTask t 0x00 (fun x s => s.endTask x.id 0 0)

/-- PCIE_LINK_UP (R187, R191, R219, R461). -/
def linkUpEffect (rate width : Nat) (flit : Bool) (s : State) : State :=
  if s.power.porHeld ∨ s.power.perstLow then s
  else
    let s := (s.put HIF_STATUS.LINK_UP 1).put HIF_STATUS.RATE rate
    (s.put HIF_STATUS.WIDTH width).putb HIF_STATUS.FLIT flit

def execTaskGo (q : Nat) (w : Word) (s : State) : Host.Outcome State Fault Refusal :=
  .next (finish s (s.viaReg .host .TASK_GO q w (goEffect q w)))
def execTaskFetch (entry : Option (List Byte)) (list : List Byte) (reason : Nat) (s : State) :
    Host.Outcome State Fault Refusal := .next (finish s (fetchEffect entry list reason s))
def execNop (t : Nat) (s : State) : Host.Outcome State Fault Refusal := .next (finish s (nopEffect t s))
def execTaskComplete (t : Nat) (s : State) : Host.Outcome State Fault Refusal := .next (finish s (completeEffect t s))
def execCqCoalesceTimer (q : Nat) (s : State) : Host.Outcome State Fault Refusal := .next (finish s (coalesceEffect q s))
def execHostStall (posted : Bool) (s : State) : Host.Outcome State Fault Refusal := .next (finish s (stallEffect posted s))
def execQueueEnable (q : Nat) (w : Word) (s : State) : Host.Outcome State Fault Refusal :=
  .next (finish s (s.viaReg .host .TASK_Q_CTRL q w (queueCtrl q w)))
/-- TASK_Q_CTRL.QRESET written as 1, with EN as the word gives it (R214). -/
def execQreset (q : Nat) (w : Word) (s : State) : Host.Outcome State Fault Refusal :=
  .next (finish s (s.viaReg .host .TASK_Q_CTRL q (TASK_Q_CTRL.QRESET.set w 1) (queueCtrl q (TASK_Q_CTRL.QRESET.set w 1))))
def execCqHeadWrite (q : Nat) (w : Word) (s : State) : Host.Outcome State Fault Refusal :=
  .next (finish s (s.viaReg .host .TASK_CQ_HEAD q w (cqHeadEffect q w)))
/-- LINK_RECOVERY (R191, R398). -/
def execLinkRecovery (s : State) : Host.Outcome State Fault Refusal :=
  .next (finish s ((s.ev HIF_EVENT.LINK_RECOVERY).logFault 4 0 0 0))
/-- HIF_CTRL written with SOFT_RESET as 1 (R213). -/
def execSoftReset (w : Word) (s : State) : Host.Outcome State Fault Refusal :=
  .next (finish s (s.viaReg .host .HIF_CTRL 0 (HIF_CTRL.SOFT_RESET.set w 1) (hifCtrl (HIF_CTRL.SOFT_RESET.set w 1))))
def execSoftDone (s : State) : Host.Outcome State Fault Refusal := .next (finish s (softDoneEffect s))
def execDmaReadTimeout (q : Nat) (t : Option Nat) (addr : Nat) (s : State) : Host.Outcome State Fault Refusal :=
  .next (finish s (dmaTimeout q t addr s))

/-- The PCIe link comes up at a rate, width and mode (R187, R191, R219). -/
def execPcieLinkUp (rate width : Nat) (flit : Bool) (s : State) : Host.Outcome State Fault Refusal :=
  .next (finish s (linkUpEffect rate width flit s))

end Sys2Proof.Machine
end

