-- ==== Sys2Proof/Machine/Firmware.lean ====
section
/-! DEFINITION. The firmware and service tasks (R215, R412 to R419, R425, R426), the drain of an activation (R215), and the
end of a trial (R414). -/
namespace Sys2Proof.Machine

/-- Whether an image slot is in trial. -/
def State.inTrial (s : State) : Bool := s.fwState 0 == fwTrial || s.fwState 1 == fwTrial
/-- The image slot that is not COMMITTED. -/
def State.otherSlot (s : State) : Nat := if s.fwState 0 = fwCommitted then 1 else 0

/-- FW_DOWNLOAD (R413, R425). -/
def downloadEffect (t : Nat) (chunk : HostRead) (s : State) : State :=
  s.runTask t 0x20 (fun x s =>
    if s.inTrial then s.endTask t 0x0011 0
    else s.onSource x chunk (fun b s =>
      let k := s.otherSlot
      let s := s.modSvc (fun v => { v with slots := modAt (fun l => fwWrite l (x.target / 4096) b) k v.slots })
      (s.setImage k fwPartial).endTask t 0 0))

/-- Whether a task that keeps FW_ACTIVATE from starting is running (R215). -/
def State.busyForActivate (s : State) : Bool :=
  s.host.tasks.any (fun x => x.started && x.done.isNone && [0x10, 0x11, 0x14, 0x20].contains x.opcode)

/-- FW_ACTIVATE (R215, R413): refused, or intake closes and the drain begins; the new image starts at KEEPER_INTAKE_OPEN.
(DEDUCED, assumption 81.) -/
def activateEffect (t : Nat) (s : State) : State :=
  s.runTask t 0x21 (fun _ s =>
    let k := s.otherSlot
    if s.svc.activating.isSome then s
    else if s.busyForActivate then s.endTask t 0x0011 0
    else if s.fwState k ≠ fwPartial then s.endTask t 0x0020 0
    else
      let err := s.fwErr k
      if err ≠ 0 then ((s.setImage k fwBad).put SVC_FW_STATUS.ERR err).endTask t 0x0020 0
      else
        let s := (s.setImage k fwTrial).setBusy TASK_STATUS.ACTIVATION true
        let s := s.modSvc (fun v => { v with activating := some (t, max 1 (s.get SVC_TRIAL.LIMIT_S)) })
        { s with host := { s.host with drainExpired := false } })

/-- The task of the FW_ACTIVATE under way. -/
def State.activateTask (s : State) : Option Nat := s.svc.activating.map (·.1)

/-- DRAIN_EXPIRED (R215). -/
def drainExpiredEffect (s : State) : State :=
  match s.activateTask with
  | none => s
  | some t =>
    if s.host.drainExpired then s
    else
      let hit := fun (x : Task) => x.id != t && x.done.isNone && (!x.started || keeperTask x.opcode)
      let l := s.host.tasks.filter hit
      let s := s.setTasks (s.host.tasks.map (fun x => if hit x then { x with done := some (0x0050, 0) } else x))
      let s := l.foldl State.vocabUndone s
      let s := { s with host := { s.host with drainExpired := true } }
      (s.ev HIF_EVENT.DRAIN_EXPIRED).showTasks

/-- Whether the drain of FW_ACTIVATE is over (R215): no other task is left, and none is queued. -/
def State.drained (s : State) (t : Nat) : Bool :=
  s.inFlight.all (fun x => x.id == t) && (List.range 8).all (fun q => !s.queued q)

/-- KEEPER_INTAKE_OPEN (R195, R215, R406, R459): Keeper runs again, with the new image where FW_ACTIVATE has drained. A
restart that falls into the drain ends first. (DEDUCED, assumption 81.) -/
def intakeEffect (s : State) : State :=
  if s.svc.wardenDown ∨ s.awake = false then s
  else
    match s.svc.activating with
    | some (t, limit) =>
      if s.ison HIF_STATUS.KEEPER_UP = false then s.keeperUp
      else if s.drained t then
        let k := s.otherSlot
        let s := ((s.keeperDown.runImage k).put SVC_STATUS.TRIAL 1).keeperUp
        let s := s.modSvc (fun v => { v with activating := none, trialEnd := s.power.uptime + limit * 200000000 })
        let s := { s with host := { s.host with drainExpired := false } }
        let s := s.setBusy TASK_STATUS.ACTIVATION false
        s.endTask t (if s.ison SVC_STATUS.SETTINGS_SAFE then 0x0070 else 0) 0
      else s
    | none =>
      if s.ison SVC_STATUS.KEEPER_RESTARTING ∨ (s.power.warm ∧ s.ison TASK_STATUS.KEEPER) then
        let s := (s.runImage (s.get SVC_FW_STATUS.RUNNING)).keeperUp
        { s with power := { s.power with warm := false } }
      else s

/-- Whether a trial runs (R414): it ends in the always-on cycle in which it expires. -/
def State.trialRuns (s : State) : Bool := s.ison SVC_STATUS.TRIAL && decide (s.power.uptime < s.svc.trialEnd)

/-- FW_COMMIT (R413, R414, R419). -/
def commitEffect (t : Nat) (s : State) : State :=
  s.runTask t 0x22 (fun _ s =>
    if s.trialRuns = false then s.endTask t 0x0020 0
    else
      let k := s.get SVC_FW_STATUS.RUNNING
      let s := (s.setImage k fwCommitted).setImage (1 - k) fwFallback
      let s := (s.put SVC_STATUS.TRIAL 0).ev SVC_EVENT.COMMITTED
      let top := (s.ledgerRange k).2
      let s := match s.ledger with
        | some l => if l.format < top ∧ s.ledgerOpen then s.rewriteLedger top l.records else s
        | none => s
      s.endTask t 0 0)

/-- FW_REVERT (R413, R414). -/
def revertEffect (t : Nat) (s : State) : State :=
  s.runTask t 0x23 (fun _ s =>
    if s.trialRuns = false then s.endTask t 0x0020 0 else (s.endTask t 0 0).endTrial)

/-- TRIAL_EXPIRE (R414): a trial whose limit has passed ends, once the warden runs. (DESIGN CHOICE, assumption 126.) -/
def trialExpireEffect (s : State) : State :=
  if s.ison SVC_STATUS.TRIAL = false ∨ s.trialRuns then s
  else if s.svc.wardenDown then s.modSvc (fun v => { v with expired := v.expired ++ [(17, s.power.uptime)] })
  else s.expireTrial

/-- The longest record that the host may write under a key, if any (R417). -/
def State.keyLimit (s : State) (key : Nat) : Option Nat :=
  if key = 1 ∨ (0x10000 ≤ key ∧ key ≤ 0x1FFFF) then some 4096
  else if 0x10 ≤ key ∧ key ≤ 0x13 then (if s.ison CSC_SIGN_CTRL.LOCK then none else some 96)
  else if key = 0x20 then (if s.ison SVC_STATUS.DEBUG_UNLOCKED then none else some 96)
  else if key = 0x30 then some 16
  else none

/-- LEDGER_WRITE (R416, R417). A rewrite beyond 1 MiB is refused as a field out of range (assumption 36).
(DEDUCED, assumption 82.) -/
def ledgerWriteEffect (t : Nat) (data : HostRead) (s : State) : State :=
  s.runTask t 0x24 (fun x s =>
    match s.keyLimit x.target with
    | none => s.endTask t 0x0020 0
    | some lim =>
      if lim < x.count then s.endTask t 0x0020 0
      else if s.inTrial then s.endTask t 0x0011 0
      else s.onSource x data (fun b s =>
        if 2 ^ 20 < ledgerBytes (recordsWith s.records x.target b) then s.endTask t 0x0020 0
        else (s.putRecord x.target b).endTask t 0 0))

/-- LEDGER_READ (R417, R425). -/
def ledgerReadEffect (t : Nat) (s : State) : State :=
  s.runTask t 0x25 (fun x s =>
    match s.record? x.target with
    | none => s.endTask t 0 0
    | some r => if x.count < r.length then s.endTask t 0x0021 0 else (s.deliver x 0 r).endTask t 0 r.length)

/-- The page of a TELEMETRY task (R425, R441). What the health page holds is not stated: free bytes, of a free number. -/
def State.telemetryPage (s : State) (page count : Nat) : List Byte × State :=
  match page with
  | 0 =>
    let (n, s) := s.fresh 14 (count + 1)
    let (v, s) := s.fresh 15 (256 ^ n)
    (leBytes n v, s)
  | 1 => (s.svc.log.flatMap id, s)
  | _ =>
    let s := if s.dbg.snapshot.isNone then s.capture else s
    ((s.dbg.snapshot.map snapshotPage).getD [], s)

/-- TELEMETRY (R425). -/
def telemetryEffect (t : Nat) (s : State) : State :=
  s.runTask t 0x29 (fun x s =>
    let (page, s) := s.telemetryPage x.target x.count
    let bs := page.take x.count
    (s.deliver x 0 bs).endTask t 0 bs.length)

/-- Whether a response to a challenge verifies (R426). -/
def State.unlockOk (s : State) (challenge sig : List Byte) : Bool :=
  let d := sha384 challenge
  ((s.record? 0x20).any (fun k => ecdsaOk k d sig)) || ecdsaOk Config.debugKey d sig

/-- DEBUG_UNLOCK (R425, R426). A response without a challenge to serve fails. (DEDUCED, assumption 82.) -/
def unlockEffect (t : Nat) (message : HostRead) (s : State) : State :=
  s.runTask t 0x2A (fun x s =>
    if x.target = 0 then
      let (v, s) := s.fresh 16 (2 ^ 256)
      let uid := leBytes 8 (s.pair .GLB_UID_LO .GLB_UID_HI 0)
      let c := leBytes 32 v ++ uid ++ zeros 24
      ((s.modSvc (fun w => { w with challenge := some c })).deliver x 0 c).endTask t 0 64
    else if x.target = 1 then
      if 3 ≤ s.svc.failures then s.endTask t 0x0011 0
      else s.onSource x message (fun b s =>
        let ok := s.svc.challenge.any (fun c => s.unlockOk c b)
        let s := s.modSvc (fun w => { w with challenge := none })
        if ok then (s.put SVC_STATUS.DEBUG_UNLOCKED 1).endTask t 0 0
        else (s.modSvc (fun w => { w with failures := w.failures + 1 })).endTask t 0x0020 0)
    else (s.put SVC_STATUS.DEBUG_UNLOCKED 0).endTask t 0 0)

def execFwDownload (t : Nat) (chunk : HostRead) (s : State) : Host.Outcome State Fault Refusal :=
  .next (finish s (downloadEffect t chunk s).showTasks)
def execFwActivate (t : Nat) (s : State) : Host.Outcome State Fault Refusal := .next (finish s (activateEffect t s).showTasks)
def execFwCommit (t : Nat) (s : State) : Host.Outcome State Fault Refusal := .next (finish s (commitEffect t s).showTasks)
def execFwRevert (t : Nat) (s : State) : Host.Outcome State Fault Refusal := .next (finish s (revertEffect t s).showTasks)
def execDrainExpired (s : State) : Host.Outcome State Fault Refusal := .next (finish s (drainExpiredEffect s))
def execKeeperIntakeOpen (s : State) : Host.Outcome State Fault Refusal := .next (finish s (intakeEffect s).showTasks)
def execTrialExpire (s : State) : Host.Outcome State Fault Refusal := .next (finish s (trialExpireEffect s))
def execLedgerWrite (t : Nat) (data : HostRead) (s : State) : Host.Outcome State Fault Refusal :=
  .next (finish s (ledgerWriteEffect t data s).showTasks)
def execLedgerRead (t : Nat) (s : State) : Host.Outcome State Fault Refusal := .next (finish s (ledgerReadEffect t s).showTasks)
def execTelemetry (t : Nat) (s : State) : Host.Outcome State Fault Refusal := .next (finish s (telemetryEffect t s).showTasks)
def execDebugUnlock (t : Nat) (message : HostRead) (s : State) : Host.Outcome State Fault Refusal :=
  .next (finish s (unlockEffect t message s).showTasks)

end Sys2Proof.Machine
end

