-- ==== Sys2Proof/Machine/Mjpeg.lean ====
section
/-! DEFINITION. The JPEG that an Inlet builds of MJPEG stream data (R388): SOI, DQT, SOF0, the standard DHT tables of ISO/IEC 10918-1 Annex K, DRI
where present, and SOS, by the rules of RFC 2435. The tables are those of the two standards. (PRESUMED, assumption 124.) -/
namespace Sys2Proof.Machine

/-- `n` bytes, the most significant first. -/
def beBytes (n v : Nat) : List Byte := (leBytes n v).reverse

/-- The luminance and chrominance quantisers of Annex K, in zigzag order. -/
def lumaQuant : List Byte := beBytes 64 0x100B0C0E0C0A100E0D0E1211101318281A181616183123251D283A333D3C3933383740485C4E404457453738506D51575F626768673E4D71797064785C656763
def chromaQuant : List Byte := beBytes 16 0x1112121815182F1A1A2F634238426363 ++ List.replicate 48 (byteOf 99)

/-- A quantiser scaled by Q, 1 to 99 (RFC 2435, 4.2). -/
def scaledQuant (q : Nat) (l : List Byte) : List Byte :=
  let f := if q < 50 then 5000 / q else 200 - 2 * q
  l.map (fun b => byteOf (max 1 (min 255 ((b.toNat * f + 50) / 100))))

/-- The two quantisers of a frame, 64 bytes each: by Q, or those that its first packet carries. -/
def mjpegQuants (h : MjpegHead) : List Byte :=
  if 128 ≤ h.q then fitBytes 128 h.tables else scaledQuant h.q lumaQuant ++ scaledQuant h.q chromaQuant

/-- A marker segment: its code, and its body after the length. -/
def jpegSegment (code : Nat) (body : List Byte) : List Byte := [0xFF#8, byteOf code] ++ beBytes 2 (body.length + 2) ++ body

/-- The Huffman tables of Annex K: class and destination, the number of codes of each length, the symbols. -/
def huffTables : List (List Byte) :=
  let small := (List.range 12).map byteOf
  [[0x00#8] ++ beBytes 16 0x00010501010101010100000000000000 ++ small,
   [0x10#8] ++ beBytes 16 0x0002010303020403050504040000017D
     ++ beBytes 81 0x01020300041105122131410613516107227114328191A1082342B1C11552D1F02433627282090A161718191A25262728292A3435363738393A434445464748494A535455565758595A636465666768696A
     ++ beBytes 81 0x737475767778797A838485868788898A92939495969798999AA2A3A4A5A6A7A8A9AAB2B3B4B5B6B7B8B9BAC2C3C4C5C6C7C8C9CAD2D3D4D5D6D7D8D9DAE1E2E3E4E5E6E7E8E9EAF1F2F3F4F5F6F7F8F9FA,
   [0x01#8] ++ beBytes 16 0x00030101010101010101010000000000 ++ small,
   [0x11#8] ++ beBytes 16 0x00020102040403040705040400010277
     ++ beBytes 81 0x000102031104052131061241510761711322328108144291A1B1C109233352F0156272D10A162434E125F11718191A262728292A35363738393A434445464748494A535455565758595A63646566676869
     ++ beBytes 81 0x6A737475767778797A82838485868788898A92939495969798999AA2A3A4A5A6A7A8A9AAB2B3B4B5B6B7B8B9BAC2C3C4C5C6C7C8C9CAD2D3D4D5D6D7D8D9DAE2E3E4E5E6E7E8E9EAF2F3F4F5F6F7F8F9FA]

/-- Everything of the built JPEG before its scan data; width and height in units of 8 pixels. Types 0 and 64 sample the chroma at half the
width, 1 and 65 at half the width and height. -/
def jpegHead (h : MjpegHead) (width height : Nat) : List Byte :=
  let quants := mjpegQuants h
  let luma := if h.type % 2 = 0 then 0x21#8 else 0x22#8
  [0xFF#8, 0xD8#8]
  ++ jpegSegment 0xDB ([0x00#8] ++ quants.take 64) ++ jpegSegment 0xDB ([0x01#8] ++ quants.drop 64)
  ++ jpegSegment 0xC0 ([8#8] ++ beBytes 2 (8 * height) ++ beBytes 2 (8 * width)
    ++ [3#8, 0#8, luma, 0#8, 1#8, 0x11#8, 1#8, 2#8, 0x11#8, 1#8])
  ++ huffTables.flatMap (jpegSegment 0xC4)
  ++ (if 64 ≤ h.type then jpegSegment 0xDD (beBytes 2 h.restart) else [])
  ++ jpegSegment 0xDA [3#8, 0#8, 0x00#8, 1#8, 0x11#8, 2#8, 0x11#8, 0#8, 63#8, 0#8]

/-- The marker that ends the built JPEG. -/
def jpegEnd : List Byte := [0xFF#8, 0xD9#8]

end Sys2Proof.Machine
end

