-- ==== Sys2Proof/Machine/Sundial.lean ====
section
/-! DEFINITION. The Sundial's commands: sources (R377, R378), settings (R381), PTP (R382, R383), Runnel time transfer
(R384, R385), the time pins (R386), and the stored estimate (R379). -/
namespace Sys2Proof.Machine

/-! ### Sources -/

/-- Source kinds of SDL_STATUS. -/
def kindOwn : Nat := 0
def kindPtp : Nat := 1
def kindRunnel : Nat := 2
def kindPps : Nat := 3

/-- Whether a port's link is up: a Spout's, HELD or UP (R365), or an Inlet's as port 24 or 25 (R377). -/
def State.portUp (s : State) (p : Nat) : Bool :=
  if p < 24 then s.linked p else decide (p < 26) && s.isoni INL_STATUS.LINK_UP (p - 24)

/-- Whether PTP runs on a port, and Runnel time transfer (R383, R384). -/
def State.ptpPort (s : State) (p : Nat) : Bool :=
  s.portUp p && !(decide (p < 24) && s.runnel p) && s.geti SDL_PORT.ROLE p != 0
def State.timePort (s : State) (p : Nat) : Bool := decide (p < 24) && s.linked p && s.runnel p

/-- The order of the IEEE 1588 best master clock algorithm (R377; PRESUMED, assumption 37). -/
def clockRank (c : PtpClock) : List Nat :=
  [c.priority1, c.clockClass, c.accuracy, c.variance, c.priority2, c.identity, c.steps]
def lexLt : List Nat → List Nat → Bool
  | a :: as, b :: bs => decide (a < b) || (a == b && lexLt as bs)
  | _, _ => false

/-- The device's own clock as that algorithm compares it; its accuracy and variance are unknown (assumption 37). -/
def State.ownClock (s : State) : PtpClock :=
  ⟨s.get SDL_CLOCK.PRIORITY1, s.get SDL_CLOCK.CLASS, 0xFE, 0xFFFF, s.get SDL_CLOCK.PRIORITY2,
    s.pair .GLB_UID_LO .GLB_UID_HI 0, 0⟩

/-- The best port of a list of candidates, each with its rank; ties go to the earlier. -/
def bestOf : List (Nat × List Nat) → Option (Nat × List Nat)
  | [] => none
  | c :: cs =>
    match bestOf cs with
    | some b => if lexLt b.2 c.2 then some b else some c
    | none => some c

/-- The Runnel port whose partner reports LOCKED with the fewest HOPS (R377). -/
def State.runnelSource (s : State) : Option Nat :=
  let c := (List.range 24).filterMap (fun p =>
    (s.sundial.partners.find? (fun e => e.1 == p && e.2.2 == 2)).map (fun e => (p, [e.2.1])))
  (bestOf (c.filter (fun e => s.timePort e.1))).map (·.1)

/-- The PTP port of role ANY whose master is the best, and better than the device's own clock (R377). -/
def State.ptpSource (s : State) : Option Nat :=
  let c := (List.range 26).filterMap (fun p =>
    (s.sundial.ptp.find? (fun e => e.1 == p)).map (fun e => (p, clockRank e.2)))
  let c := c.filter (fun e => s.ptpPort e.1 && s.geti SDL_PORT.ROLE e.1 == 2)
  (bestOf c).bind (fun b => if lexLt b.2 (clockRank s.ownClock) then some b.1 else none)

/-- PPS_IN as a grandmaster's phase reference, where enabled and present; else its own oscillator (R377). -/
def State.gmSource (s : State) : Nat × Nat :=
  if s.ison SDL_CTRL.PPS_IN_EN ∧ s.ison SDL_STATUS.PPS_PRESENT then (kindPps, 26) else (kindOwn, 0)

/-- The source by SDL_CTRL.ROLE: its kind and port (R377). (DEDUCED, assumption 76.) -/
def State.source (s : State) : Nat × Nat :=
  match s.sdlRole with
  | 0 =>
    match s.runnelSource, s.ptpSource with
    | some p, _ => (kindRunnel, p)
    | none, some p => (kindPtp, p)
    | none, none => s.gmSource
  | 2 =>
    let p := s.get SDL_CTRL.SOURCE_PORT
    if p = 26 then (kindPps, 26)
    else if p < 26 then (if p < 24 ∧ s.runnel p then kindRunnel else kindPtp, p)
    else (kindOwn, 0)
  | _ => s.gmSource

/-- Whether a grandmaster takes its frequency from REF10_IN (R377, R386). -/
def State.usesRef10 (s : State) : Bool :=
  s.sdlRole == 1 && s.ison SDL_CTRL.REF10_IN_EN && s.ison SDL_STATUS.REF10_PRESENT && s.get SDL_STATUS.STATE != 3

/-- A grandmaster's servo follows REF10_IN (R377, R386): the correction that REF10_IN asks of the 25 MHz reference is not stated, a free value
within ±500 ppm (R379). -/
def State.followRef10 (s : State) : State :=
  if s.usesRef10 then
    let (f, s) := s.fresh 0 (2 * freqLimit.toNat + 1)
    s.setFreq ((f : Int) - freqLimit)
  else s

/-- HOPS as the Sundial advertises it (R382, R384). (DEDUCED, assumption 76.) -/
def State.hops (s : State) : Nat :=
  let kind := s.get SDL_STATUS.SOURCE_KIND
  let port := s.get SDL_STATUS.SOURCE_PORT
  if s.serves = false then 15
  else if kind = kindOwn ∨ kind = kindPps then 0
  else if s.get SDL_STATUS.STATE ≠ 2 then 15
  else
    let theirs := if kind = kindRunnel then (s.sundial.partners.find? (fun e => e.1 == port)).map (fun e => e.2.1)
      else (s.sundial.ptp.find? (fun e => e.1 == port)).map (fun e => e.2.steps)
    min 15 (theirs.getD 14 + 1)

/-- Selects the source anew (R377, R378): a new one is acquired; without one, LOCKED gives way to HOLDOVER, and ACQUIRE to
HOLDOVER or, without an estimate, to FREE_RUN. -/
def State.showSource (s : State) : State :=
  let (kind, port) := s.source
  let s :=
    if kind = s.get SDL_STATUS.SOURCE_KIND ∧ port = s.get SDL_STATUS.SOURCE_PORT then s
    else
      let s := ((s.put SDL_STATUS.SOURCE_KIND kind).put SDL_STATUS.SOURCE_PORT port).ev SDL_EVENT.SOURCE_CHANGE
      let st := s.get SDL_STATUS.STATE
      if kind ≠ kindOwn then s.enterSdl 1
      else if st = 2 then s.enterSdl 3
      else if st = 1 then s.enterSdl (if s.ison SDL_STATUS.ESTIMATE then 3 else 0)
      else s
  s.put SDL_STATUS.HOPS s.hops

/-- Whether a port is the source of a kind. -/
def State.isSource (s : State) (kind port : Nat) : Bool :=
  s.get SDL_STATUS.SOURCE_KIND == kind && s.get SDL_STATUS.SOURCE_PORT == port

def State.modSdl (s : State) (f : SundialSt → SundialSt) : State := { s with sundial := f s.sundial }

/-- An entry of a list by port, replaced. -/
def putPort {α : Type} (p : Nat) (v : α) (l : List (Nat × α)) : List (Nat × α) := l.filter (fun e => e.1 != p) ++ [(p, v)]

/-- SOURCE_LOST (R378). -/
def sourceLostEffect (s : State) : State :=
  let kind := s.get SDL_STATUS.SOURCE_KIND
  let port := s.get SDL_STATUS.SOURCE_PORT
  if kind = kindOwn then s
  else
    let s := if s.get SDL_STATUS.STATE = 2 then s.enterSdl 3 else s
    let s := s.modSdl (fun d => { d with
      partners := if kind = kindRunnel then d.partners.filter (fun e => e.1 != port) else d.partners
      ptp := if kind = kindPtp then d.ptp.filter (fun e => e.1 != port) else d.ptp })
    s.showSource

/-! ### SDL_CTRL -/

/-- Time as SDL_SET0 to SDL_SET3 give it (R396). -/
def State.setTimeValue (s : State) : Nat :=
  (s.word .SDL_SET 0).toNat % 65536 + 65536 * (s.word .SDL_SET 1).toNat
    + oneSecond * ((s.word .SDL_SET 2).toNat + 2 ^ 32 * ((s.word .SDL_SET 3).toNat % 65536))

/-- SET (R381). -/
def State.setTime (s : State) : State :=
  let gm := s.sdlRole = 1
  let free := s.get SDL_STATUS.STATE = 0
  if free ∨ (gm ∧ s.ison SDL_STATUS.PPS_PRESENT = false ∧ s.ison SDL_STATUS.REF10_PRESENT = false) then
    let s := s.stepTime ((s.setTimeValue : Int) - (s.time : Int))
    let s := s.modSdl (fun d => { d with fine := d.fine / 2 ^ 40 * 2 ^ 40, ppsLast := none })
    if gm then (s.enterSdl 2).modSdl (fun d => { d with bare := !(s.ison SDL_STATUS.PPS_PRESENT || s.ison SDL_STATUS.REF10_PRESENT) })
    else s
  else s.ev SDL_EVENT.SET_REFUSED

/-- A reference pin that is not enabled is not present (R386). (DEDUCED, assumption 77.) -/
def State.judgePins (s : State) : State :=
  let s := if s.ison SDL_CTRL.PPS_IN_EN then s
    else (s.put SDL_STATUS.PPS_PRESENT 0).modSdl (fun d => { d with ppsLast := none })
  if s.ison SDL_CTRL.REF10_IN_EN then s else s.put SDL_STATUS.REF10_PRESENT 0

/-- A write of SDL_CTRL (R377, R381, R386). -/
def sdlCtrl (w : Word) (s : State) : State :=
  let s := (s.swWrite .SDL_CTRL 0 w).judgePins.showSource
  (if SDL_CTRL.SET.cmd w then s.setTime else s).showSource.followRef10

/-! ### PTP -/

/-- The device's next sequence number on a port. -/
def State.nextSeq (s : State) (p : Nat) : Nat × State :=
  let n := (assocGet id p s.sundial.seqs).getD 0
  (n, s.modSdl (fun d => { d with seqs := putPort p ((n + 1) % 65536) d.seqs }))

/-- SDL_PORT.ASYM in 1/65,536 ns (R385, R396). (DEDUCED, assumption 38.) -/
def State.asym (s : State) (p : Nat) : Int := toSigned 16 (s.geti SDL_PORT.ASYM p) * 4096

/-- Whether the device takes a PTP message (R383): under IEEE 802.1AS IEEE 802.3 and domain 0 alone, else SDL_CLOCK.DOMAIN. -/
def State.hears (s : State) (x : PtpFrom) : Bool :=
  if s.ison SDL_CTRL.PROFILE then x.transport == .ieee8023 && x.domain == 0 else x.domain == s.get SDL_CLOCK.DOMAIN

/-- A PTP message that the device does not take changes nothing. -/
def State.onPtp (s : State) (x : PtpFrom) (f : Nat → State → State) : State := if s.hears x then f x.port s else s

/-- The domainNumber of the messages that the device sends (R383). -/
def State.ptpDomain (s : State) : Nat := if s.ison SDL_CTRL.PROFILE then 0 else s.get SDL_CLOCK.DOMAIN

/-- A PTP message leaves on a port (R383). -/
def State.sendPtp (s : State) (p : Nat) (name : String) (seq : Nat) (stamps : List Nat) : State :=
  s.emit (.ptp p s.ptpDomain name seq stamps)

/-- Whether the device may send PTP of its own accord on a port as its master (R382, R383). -/
def State.masterOn (s : State) (p : Nat) : Bool := s.serves && s.ptpPort p && !s.isSource kindPtp p

/-- PTP_ANNOUNCE (R377, R383). -/
def announceEffect (p : Nat) (c : PtpClock) (s : State) : State :=
  if s.ptpPort p then (s.modSdl (fun d => { d with ptp := putPort p c d.ptp })).showSource else s

/-- An offset of a PTP source: receipt less origin less the mean delay, less half the asymmetry (assumption 38). -/
def State.ptpOffset (s : State) (p rx origin : Nat) : State :=
  let mean := (assocGet id p s.sundial.meanDelay).getD 0
  s.measured ((rx : Int) - (origin : Int) - mean - s.asym p / 2)

/-- A Delay_Req leaves after a Sync under the default profile (R382, R383). (DEDUCED, assumption 75.) -/
def State.sendDelayReq (s : State) (p rx origin : Nat) : State :=
  if s.serves ∧ s.ison SDL_CTRL.PROFILE = false then
    let (n, s) := s.nextSeq p
    let s := s.modSdl (fun d => { d with delays := d.delays.filter (fun x => x.port != p) ++ [⟨p, n, s.time, rx, origin⟩] })
    s.sendPtp p "Delay_Req" n [s.time]
  else s

/-- PTP_SYNC (R382, R383): a one-step Sync is measured, a two-step one waits for its Follow_Up. -/
def syncEffect (p seq phase origin : Nat) (twoStep : Bool) (s : State) : State :=
  let rx := s.stamp phase
  if s.ptpPort p ∧ s.isSource kindPtp p then
    if twoStep then s.modSdl (fun d => { d with syncs := d.syncs.filter (fun x => x.port != p) ++ [⟨p, seq, rx⟩] })
    else ((s.ptpOffset p rx origin).sendDelayReq p rx origin).showSource
  else s

/-- PTP_FOLLOW_UP (R383). -/
def followUpEffect (p seq origin : Nat) (s : State) : State :=
  match s.sundial.syncs.find? (fun x => x.port == p && x.seq == seq) with
  | some x =>
    if s.ptpPort p ∧ s.isSource kindPtp p then
      let s := s.modSdl (fun d => { d with syncs := d.syncs.filter (fun x => x.port != p) })
      ((s.ptpOffset p x.rx origin).sendDelayReq p x.rx origin).showSource
    else s
  | none => s

/-- PTP_DELAY_REQ: answered as master under the default profile (R382, R383). -/
def delayReqEffect (p seq phase : Nat) (s : State) : State :=
  if s.masterOn p ∧ s.ison SDL_CTRL.PROFILE = false then s.sendPtp p "Delay_Resp" seq [s.stamp phase] else s

/-- PTP_DELAY_RESP (R383): the mean of the two one-way times, and the offset it gives. -/
def delayRespEffect (p seq masterRx : Nat) (s : State) : State :=
  match s.sundial.delays.find? (fun x => x.port == p && x.seq == seq) with
  | some x =>
    if s.ptpPort p ∧ s.isSource kindPtp p ∧ s.ison SDL_CTRL.PROFILE = false then
      let mean := (((x.rx : Int) - (x.peerRx : Int)) + ((masterRx : Int) - (x.tx : Int))) / 2
      let s := s.modSdl (fun d => { d with
        delays := d.delays.filter (fun y => y.port != p), meanDelay := putPort p mean d.meanDelay })
      (s.ptpOffset p x.rx x.peerRx).showSource
    else s
  | none => s

/-- PTP_PDELAY_REQ (R382, R383): before the Sundial serves time, only the source port answers.
(DEDUCED, assumption 75.) -/
def pdelayReqEffect (p seq phase : Nat) (s : State) : State :=
  if s.ptpPort p ∧ s.ison SDL_CTRL.PROFILE ∧ (s.serves ∨ s.isSource kindPtp p) then
    (s.sendPtp p "Pdelay_Resp" seq [s.stamp phase]).sendPtp p "Pdelay_Resp_Follow_Up" seq [s.time]
  else s

/-- PTP_PDELAY_RESP (R383). -/
def pdelayRespEffect (p seq phase peerRx : Nat) (s : State) : State :=
  let rx := s.stamp phase
  if s.ptpPort p then
    s.modSdl (fun d => { d with delays := d.delays.map (fun x =>
      if x.port = p ∧ x.seq = seq then { x with rx := rx, peerRx := peerRx } else x) })
  else s

/-- PTP_PDELAY_RESP_FOLLOW_UP (R383): the peer delay, and asCapable. -/
def pdelayFollowEffect (p seq peerTx : Nat) (s : State) : State :=
  match s.sundial.delays.find? (fun x => x.port == p && x.seq == seq) with
  | some x =>
    if s.ptpPort p ∧ s.ison SDL_CTRL.PROFILE ∧ x.rx ≠ 0 then
      let mean := (((x.rx : Int) - (x.tx : Int)) - ((peerTx : Int) - (x.peerRx : Int))) / 2
      let s := s.modSdl (fun d => { d with
        delays := d.delays.filter (fun y => y.port != p), meanDelay := putPort p mean d.meanDelay
        asCapable := d.asCapable.filter (· != p) ++ [p] })
      (if 24 ≤ p then s.puti INL_STATUS.AS_CAPABLE (p - 24) 1 else s).showTimeLock
    else s
  | none => s

/-- The interval in use on a port, as log2 of seconds (R383, R396). -/
def State.logSync (s : State) (p : Nat) : Int :=
  (assocGet id p s.sundial.intervals).getD (toSigned 4 (s.geti SDL_PORT.LOG_SYNC p))

/-- PTP_SIGNALING (R383): under IEEE 802.1AS, within LOG_SYNC −7 to +1. -/
def signalingEffect (p : Nat) (log : Int) (s : State) : State :=
  if s.ptpPort p ∧ s.ison SDL_CTRL.PROFILE ∧ -7 ≤ log ∧ log ≤ 1 then
    s.modSdl (fun d => { d with intervals := putPort p log d.intervals })
  else s

/-- What an Announce says: priority1, clockClass, priority2, steps (R381, R383, R396). -/
def State.announced (s : State) : List Nat :=
  let parent := if s.get SDL_STATUS.SOURCE_KIND = kindPtp
    then s.sundial.ptp.find? (fun e => e.1 == s.get SDL_STATUS.SOURCE_PORT) else none
  match parent with
  | some (_, c) => [c.priority1, c.clockClass, c.priority2, c.steps + 1]
  | none =>
    let bare := s.sdlRole = 1 ∧ s.sundial.bare
    [s.get SDL_CLOCK.PRIORITY1, if bare then 248 else s.get SDL_CLOCK.CLASS, s.get SDL_CLOCK.PRIORITY2, 0]

/-- PTP_SYNC_INTERVAL (R382, R383): a master port sends Announce and a two-step Sync; under IEEE 802.1AS every port sends
Pdelay_Req. -/
def syncIntervalEffect (p : Nat) (s : State) : State :=
  let s :=
    if s.masterOn p then
      let (n, s) := s.nextSeq p
      let log := ofSigned 8 (s.logSync p)
      ((s.sendPtp p "Announce" n (s.announced ++ [log])).sendPtp p "Sync" n [log]).sendPtp p "Follow_Up" n [s.time]
    else s
  if s.serves ∧ s.ptpPort p ∧ s.ison SDL_CTRL.PROFILE then
    let (n, s) := s.nextSeq p
    let s := s.modSdl (fun d => { d with delays := d.delays.filter (fun x => x.port != p) ++ [⟨p, n, s.time, 0, 0⟩] })
    s.sendPtp p "Pdelay_Req" n [s.time]
  else s

/-! ### Runnel time transfer -/

/-- What a partner's TIME frame says of it (R377, R384). -/
def State.notePartner (s : State) (k hops st : Nat) : State :=
  s.modSdl (fun d => { d with partners := putPort k (hops, st) d.partners })

/-- A TIME frame leaves (R384): KIND, HOPS, STATE, SEQ, T2, T3. -/
def State.sendTime (s : State) (k kind seq t2 : Nat) : State :=
  s.sendControl k "TIME" 0x20 (leBytes 1 kind ++ leBytes 1 (s.get SDL_STATUS.HOPS) ++ leBytes 1 (s.get SDL_STATUS.STATE) ++ zeros 1
    ++ leBytes 2 seq ++ zeros 2 ++ (if kind = 0 then zeros 12 else timeShort t2) ++ timeShort s.time)

/-- TIME_REQUEST_TICK (R384). -/
def timeTickEffect (k : Nat) (s : State) : State :=
  if s.timePort k then
    let (n, s) := s.nextSeq k
    let s := s.modSdl (fun d => { d with requests := d.requests.filter (fun e => e.1 != k) ++ [(k, n, s.time)] })
    s.sendTime k 0 n 0
  else s

/-- TIME_REQUEST (R382, R384). -/
def timeRequestEffect (k seq phase hops st : Nat) (s : State) : State :=
  if s.timePort k then
    let rx := s.stamp phase
    let s := (s.notePartner k hops st).showSource
    if s.serves ∨ s.isSource kindRunnel k then s.sendTime k 1 seq rx else s
  else s

/-- Ascending order. -/
def insertInt (x : Int) : List Int → List Int
  | [] => [x]
  | y :: ys => if x ≤ y then x :: y :: ys else y :: insertInt x ys
def sortInts (l : List Int) : List Int := l.foldl (fun acc x => insertInt x acc) []

/-- The median of a list: of an even number of values, half the sum of the middle two (assumption 39). -/
def medianOf (l : List Int) : Option Int :=
  let s := sortInts l
  let n := s.length
  if n = 0 then none
  else if n % 2 = 1 then s[n / 2]? else some ((s.getD (n / 2 - 1) 0 + s.getD (n / 2) 0) / 2)

/-- Offset and delay of an exchange (R385). -/
def exchange (t1 t2 t3 t4 : Nat) (a : Int) : Int × Int :=
  let fwd := (t2 : Int) - (t1 : Int)
  let rev := (t4 : Int) - (t3 : Int)
  ((rev - fwd - a) / 2, (fwd + rev) / 2)

/-- Whether a stamp falls within 1 ms after a lane change of a link (R385). -/
def State.nearLaneChange (s : State) (k t : Nat) : Bool :=
  s.sundial.laneChange.any (fun e => e.1 == k && decide (e.2 ≤ t) && decide (t < e.2 + 65536 * 1000000))

/-- TIME_RESPONSE (R385): late exchanges, exchanges near a lane change, and those whose delay is off the median are
discarded; only the source port's offsets are used. -/
def timeResponseEffect (k seq t2 t3 phase hops st : Nat) (s : State) : State :=
  let rx := s.stamp phase
  match s.sundial.requests.find? (fun e => e.1 == k && e.2.1 == seq) with
  | some (_, _, t1) =>
    if s.timePort k = false then s
    else
      let s := s.modSdl (fun d => { d with requests := d.requests.filter (fun e => e.1 != k) })
      let s := (s.notePartner k hops st).showSource
      if t1 + 65536 * 10000 < rx ∨ [t1, t2, t3, rx].any (s.nearLaneChange k) then s
      else
        let (off, delay) := exchange t1 t2 t3 rx (s.asym k)
        let l := (assocGet id k s.sundial.median).getD []
        let off2 := (medianOf l).any (fun m => decide (2 * 65536 < absOf (delay - m)))
        let l' := l ++ [delay]
        let s := s.modSdl (fun d => { d with median := putPort k (l'.drop (l'.length - 16)) d.median })
        if off2 ∨ s.isSource kindRunnel k = false then s else (s.measured off).showSource
  | none => s

/-- TIME_RESPONSE_TIMEOUT (R385). -/
def timeTimeoutEffect (k seq : Nat) (s : State) : State :=
  s.modSdl (fun d => { d with requests := d.requests.filter (fun e => !(e.1 == k && e.2.1 == seq)) })

/-! ### Time pins and the estimate -/

/-- An edge's offset from the nearest whole second. -/
def ppsOffset (t : Nat) : Int :=
  let x := t % oneSecond
  if 2 * x < oneSecond then (x : Int) else (x : Int) - (oneSecond : Int)

/-- PPS_IN_EDGE (R378, R381, R386). -/
def ppsEdgeEffect (phase : Nat) (s : State) : State :=
  if s.ison SDL_CTRL.PPS_IN_EN then
    let stamp := s.stamp phase
    let us := 65536 * 1000
    let ok := s.sundial.ppsLast.any (fun l =>
      decide (l + oneSecond ≤ stamp + 10 * us) && decide (stamp ≤ l + oneSecond + 10 * us))
    let s := s.modSdl (fun d => { d with ppsLast := some stamp })
    if ok then
      let s := ((s.put SDL_STATUS.PPS_PRESENT 1).modSdl (fun d => { d with bare := false })).showSource
      if s.get SDL_STATUS.SOURCE_KIND = kindPps then (s.measured (ppsOffset stamp)).showSource else s
    else s
  else s

/-- REF_LOST: 1.5 s without a valid PPS_IN edge (R386). -/
def refLostEffect (s : State) : State :=
  if s.ison SDL_STATUS.PPS_PRESENT then ((s.put SDL_STATUS.PPS_PRESENT 0).ev SDL_EVENT.REF_LOST).showSource else s

/-- REF10_IN_PRESENT and REF10_IN_LOST (R386). -/
def ref10Effect (present : Bool) (s : State) : State :=
  if present then
    if s.ison SDL_CTRL.REF10_IN_EN then ((s.put SDL_STATUS.REF10_PRESENT 1).modSdl (fun d => { d with bare := false })).followRef10 else s
  else if s.ison SDL_STATUS.REF10_PRESENT then (s.put SDL_STATUS.REF10_PRESENT 0).ev SDL_EVENT.REF_LOST else s

/-- The warden stores the frequency estimate (R379, R418). -/
def State.storeEstimate (s : State) : State :=
  match s.sundial.meanFreq with
  | some f => (s.modSdl (fun d => { d with stored := some f })).put SDL_STATUS.ESTIMATE 1
  | none => s

def estimateEffect (s : State) : State := if s.svc.wardenDown then s else s.storeEstimate

def execPtpAnnounce (p : PtpFrom) (c : PtpClock) (s : State) : Host.Outcome State Fault Refusal :=
  .next (finish s (s.onPtp p (fun k => announceEffect k c)))
def execPtpSync (p : PtpFrom) (seq phase origin : Nat) (twoStep : Bool) (s : State) : Host.Outcome State Fault Refusal :=
  .next (finish s (s.onPtp p (fun k => syncEffect k seq phase origin twoStep)))
def execPtpFollowUp (p : PtpFrom) (seq origin : Nat) (s : State) : Host.Outcome State Fault Refusal :=
  .next (finish s (s.onPtp p (fun k => followUpEffect k seq origin)))
def execPtpDelayReq (p : PtpFrom) (seq phase : Nat) (s : State) : Host.Outcome State Fault Refusal :=
  .next (finish s (s.onPtp p (fun k => delayReqEffect k seq phase)))
def execPtpDelayResp (p : PtpFrom) (seq masterRx : Nat) (s : State) : Host.Outcome State Fault Refusal :=
  .next (finish s (s.onPtp p (fun k => delayRespEffect k seq masterRx)))
def execPtpPdelayReq (p : PtpFrom) (seq phase : Nat) (s : State) : Host.Outcome State Fault Refusal :=
  .next (finish s (s.onPtp p (fun k => pdelayReqEffect k seq phase)))
def execPtpPdelayResp (p : PtpFrom) (seq phase peerRx : Nat) (s : State) : Host.Outcome State Fault Refusal :=
  .next (finish s (s.onPtp p (fun k => pdelayRespEffect k seq phase peerRx)))
def execPtpPdelayRespFollowUp (p : PtpFrom) (seq peerTx : Nat) (s : State) : Host.Outcome State Fault Refusal :=
  .next (finish s (s.onPtp p (fun k => pdelayFollowEffect k seq peerTx)))
def execPtpSignaling (p : PtpFrom) (log : Int) (s : State) : Host.Outcome State Fault Refusal :=
  .next (finish s (s.onPtp p (fun k => signalingEffect k log)))
/-- Management messages are discarded (R383). -/
def execPtpManagement (_p : PtpFrom) (s : State) : Host.Outcome State Fault Refusal := .next (finish s s)
def execPtpSyncInterval (p : Nat) (s : State) : Host.Outcome State Fault Refusal := .next (finish s (syncIntervalEffect p s))
def execTimeRequestTick (k : Nat) (s : State) : Host.Outcome State Fault Refusal := .next (finish s (timeTickEffect k s))
def execTimeRequest (x : RxFrame) (seq phase hops st : Nat) (s : State) : Host.Outcome State Fault Refusal :=
  .next (finish s (s.onFrame x (fun k => timeRequestEffect k seq phase hops st)))
def execTimeResponse (x : RxFrame) (seq t2 t3 phase hops st : Nat) (s : State) : Host.Outcome State Fault Refusal :=
  .next (finish s (s.onFrame x (fun k => timeResponseEffect k seq t2 t3 phase hops st)))
def execTimeResponseTimeout (k seq : Nat) (s : State) : Host.Outcome State Fault Refusal :=
  .next (finish s (timeTimeoutEffect k seq s))
def execSourceLost (s : State) : Host.Outcome State Fault Refusal := .next (finish s (sourceLostEffect s))
/-- SDL_CTRL written with SET as 1. -/
def execSundialSet (w : Word) (s : State) : Host.Outcome State Fault Refusal :=
  .next (finish s (s.viaReg .host .SDL_CTRL 0 (SDL_CTRL.SET.set w 1) (sdlCtrl (SDL_CTRL.SET.set w 1))))
def execPpsInEdge (stamp : Nat) (s : State) : Host.Outcome State Fault Refusal := .next (finish s (ppsEdgeEffect stamp s))
def execRefLost (s : State) : Host.Outcome State Fault Refusal := .next (finish s (refLostEffect s))
def execRef10InPresent (s : State) : Host.Outcome State Fault Refusal := .next (finish s (ref10Effect true s))
def execRef10InLost (s : State) : Host.Outcome State Fault Refusal := .next (finish s (ref10Effect false s))
def execEstimateWrite (s : State) : Host.Outcome State Fault Refusal := .next (finish s (estimateEffect s))

end Sys2Proof.Machine
end

