-- ==== Sys2Proof/Machine/Inlet.lean ====
section
/-! DEFINITION. The Inlets: framing (R388, R389), the capture stamp (R390), the checks (R391), the frame descriptor (R392),
acceptance (R393), and the links (R396). -/
namespace Sys2Proof.Machine

def State.inlet (s : State) (i : Nat) : InletSt := s.inlets.getD i InletSt.reset
def State.modInlet (s : State) (i : Nat) (f : InletSt → InletSt) : State := { s with inlets := modAt f i s.inlets }

/-- The entry of a register of stream `n` of Inlet `i`. -/
def streamEntry (i n : Nat) : Nat := n * 1024 + i

/-- The lowest VALID stream entry with a stream_id (R391). -/
def State.streamOf (s : State) (i id : Nat) : Option Nat :=
  (List.range 8).find? (fun n =>
    s.isoni INL_SCFG.VALID (streamEntry i n) && s.pair .INL_SID_LO .INL_SID_HI (streamEntry i n) == id)

/-- The bytes that the receive buffer of an Inlet holds, of its 16 MiB. (DEDUCED, assumption 79.) -/
def InletSt.fill (x : InletSt) : Nat :=
  (x.assembly.map (fun a => a.payload.length)).sum + (x.waiting.map (fun f => f.assembly.payload.length)).sum
def inletBuffer : Nat := 2 ^ 24

/-! ### Judging -/

def dropNolock : Nat := 1
def dropReplay : Nat := 2
def dropNoplan : Nat := 3
def dropUnknown : Nat := 4
def dropFormat : Nat := 5
def dropGap : Nat := 6
def dropLong : Nat := 7
def dropRunt : Nat := 8
def dropFuture : Nat := 9
def dropStale : Nat := 10

/-- A frame is dropped (R391): `stream` is 0xF where no entry applies. -/
def State.dropFrame (s : State) (i stream reason : Nat) : State :=
  let c : Fld := if reason = dropGap then INL_GAP.COUNT else if reason = dropLong then INL_LONG.COUNT
    else if reason = dropRunt then INL_RUNT.COUNT else if reason = dropStale then INL_STALE.COUNT else INL_DROP_OTHER.COUNT
  let s := (s.bumpi c i 1).evi INL_EVENT.DROP i
  (s.puti INL_LAST_DROP.STREAM i stream).puti INL_LAST_DROP.REASON i reason

/-- The slot whose running LIVE plan takes a sample of an Inlet (R118). -/
def State.inletSlot (s : State) (i : Nat) : Option Nat := (List.range 4).find? (fun k => s.takesLive k i)

/-- The slot that takes a sample of an Inlet now: the plan and activation records of the sample's step stand before it (R57). -/
def State.readySlot (s : State) (i : Nat) : Option Nat := (s.inletSlot i).filter (fun k => s.stepOpen (s.nextLive k).2)

/-- Checks 1 to 3 (R391): the first that fails, or 0. (DEDUCED, assumption 78.) -/
def State.firstChecks (s : State) (i : Nat) : Nat :=
  if (s.serves && s.isoni INL_STATUS.AS_CAPABLE i) = false then dropNolock
  else if s.inReplay then dropReplay
  else if s.inletSlot i = none then dropNoplan else 0

/-- The staleness limit in 1/65,536 ns (R396). -/
def State.maxAge (s : State) (i : Nat) : Nat := 65536 * 1000 * max 1 (s.geti INL_AGE.MAX_AGE_US i)
def State.stale (s : State) (i now capture : Nat) : Bool := decide (capture + s.maxAge i < now)

/-- The capture stamp from the 32-bit time stamp of the first packet and the arrival stamp (R390). -/
def captureStamp (ts a : Nat) : Nat :=
  let an := a / 65536
  let d := (an % 2 ^ 32 + 2 ^ 32 - ts % 2 ^ 32) % 2 ^ 32
  65536 * (if d ≤ 2 ^ 31 - 1 then an - d else an + (2 ^ 32 - d))

/-- The CODEC that a stream data subtype hands on (R388). -/
def subtypeCodec (subtype : Nat) : Nat := if subtype = 3 then 1 else 0

/-- The frame descriptor (R392). -/
def frameDesc (capture arrival stream subtype flags codec rawLen : Nat) : List Byte :=
  timeShort capture ++ timeShort arrival ++ leBytes 1 stream ++ leBytes 1 subtype ++ leBytes 1 flags ++ leBytes 1 codec
    ++ leBytes 4 rawLen

/-- The first of checks 4 to 10 that fails of a frame that has its stream entry, or 0 (R391). `short` and `cut` say that its
payload is below MIN_BYTES, and that it is LONG. (DEDUCED, assumption 78.) -/
def State.laterChecks (s : State) (i : Nat) (a : Assembly) (capture arrival now : Nat) (short : Bool) : Nat :=
  let kind := s.geti INL_SCFG.KIND (streamEntry i a.stream)
  let sub := a.first.subtype
  if a.formatOk = false ∨ (if sub = 3 then kind ≠ 0 else if sub = 7 then kind ≠ 1 else true) then dropFormat
  else if a.gap then dropGap
  else if a.long ∧ s.isoni INL_CTRL.TRUNC_LONG i = false then dropLong
  else if short ∧ s.isoni INL_CTRL.PAD_SHORT i = false then dropRunt
  else if arrival + 65536 * s.geti INL_AGE.FUTURE_NS i < capture then dropFuture
  else if s.stale i now capture then dropStale else 0

/-- The capture stamp of a frame (R390, R392). -/
def LiveFrame.capture (f : LiveFrame) : Nat :=
  if f.assembly.first.tv then captureStamp f.assembly.first.timestamp f.arrival else 65536 * (f.arrival / 65536)

/-- The bytes that a stream's entry asks of a frame at least, and whether a frame has fewer (R391). -/
def State.minBytes (s : State) (i : Nat) (f : LiveFrame) : Nat := s.geti INL_SCFG.MIN_BYTES (streamEntry i f.assembly.stream)
def State.shortFrame (s : State) (i : Nat) (f : LiveFrame) : Bool := decide (f.assembly.payload.length < s.minBytes i f)

/-- The first check that fails of a frame that has its stream entry, judged at a time, or 0 (R391). -/
def State.verdict (s : State) (i : Nat) (f : LiveFrame) (now : Nat) : Nat :=
  let first := s.firstChecks i
  if first ≠ 0 then first else s.laterChecks i f.assembly f.capture f.arrival now (s.shortFrame i f)

/-- A frame is counted, once, as truncated and as padded where its judgement has passed that check (R391). -/
def State.countSizes (s : State) (i : Nat) (f : LiveFrame) (r : Nat) : State :=
  let s := if f.assembly.long ∧ (r = 0 ∨ dropLong < r) ∧ f.cut = false then (s.bumpi INL_LONG.COUNT i 1).evi INL_EVENT.TRUNCATED i else s
  if s.shortFrame i f ∧ (r = 0 ∨ dropRunt < r) ∧ f.pad = false then (s.bumpi INL_RUNT.COUNT i 1).evi INL_EVENT.PADDED i else s

/-- The payload of a frame that is accepted: padded with FILL to MIN_BYTES where it is short (R391). -/
def State.framePayload (s : State) (i : Nat) (f : LiveFrame) : List Byte :=
  f.assembly.payload ++ List.replicate (s.minBytes i f - f.assembly.payload.length) (byteOf (s.geti INL_CTRL.FILL i))

/-- The descriptor of a frame that is accepted (R392). -/
def State.describe (s : State) (i : Nat) (f : LiveFrame) : List Byte :=
  let a := f.assembly
  let flags := (if s.shortFrame i f then 1 else 0) + (if a.long then 2 else 0) + (if a.first.tv then 0 else 4)
  frameDesc f.capture f.arrival a.stream a.first.subtype flags (subtypeCodec a.first.subtype) a.rawLen

/-! ### Acceptance -/

/-- Whether an accepted frame can be recorded and stored now (R393): Basin's answer, and the buffers. -/
def State.frameRoom (s : State) (i : Nat) (f : LiveFrame) : State × Option (List Buf) :=
  let n := (s.framePayload i f).length
  if s.halted ∨ s.mirRoom (48 + n) = false then (s, none)
  else
    let (pool, k) := placeFor n
    s.takeBufs (1 + i) pool k

/-- A frame is accepted into a slot (R393). -/
def State.acceptFrame (s : State) (i k : Nat) (f : LiveFrame) (bufs : List Buf) : State :=
  let (index, step) := s.nextLive k
  let p := f.assembly.first
  let codec := subtypeCodec p.subtype
  let payload := s.framePayload i f
  let desc := s.describe i f
  let body := leBytes 1 i ++ zeros 3 ++ leBytes 4 payload.length ++ leBytes 8 index ++ desc ++ payload
  let s := s.record 0x04 0xFF 0 step body
  (s.acceptLive k ⟨index, codec, 0, 0, desc, if codec = 0 then some (p.pixelFormat, p.depth, p.width, p.height) else none, payload,
    bufs⟩).bumpi INL_ACCEPTED.COUNT i 1

/-- A frame that has passed its checks goes to its slot, where a plan takes it, the ring has room, and Basin has buffers; else none (R393). -/
def State.storeFrame (s : State) (i : Nat) (f : LiveFrame) : State × Bool :=
  let s := if s.mirRoom (48 + (s.framePayload i f).length) then s else s.mirHeld
  match s.readySlot i with
  | none => (s, false)
  | some k =>
    match s.frameRoom i f with
    | (t, some l) => (showBasin s (t.acceptFrame i k f l), true)
    | (t, none) => (t, false)

/-- A frame is judged (R391): dropped with the first check that fails, or passed with what it has been counted as. -/
def State.judgeFrame (s : State) (i : Nat) (f : LiveFrame) (now : Nat) : State × Option LiveFrame :=
  let r := s.verdict i f now
  let t := s.countSizes i f r
  if r ≠ 0 then (t.dropFrame i f.assembly.stream r, none)
  else (t, some { f with cut := f.cut || f.assembly.long, pad := f.pad || s.shortFrame i f })

/-- The first frame that waits is judged again once it could be recorded (R391, R393). -/
def acceptWaiting (i : Nat) (s : State) : State :=
  match (s.inlet i).waiting with
  | [] => s
  | f :: rest =>
    match s.frameRoom i f with
    | (t, none) => t
    | (_, some _) =>
      match s.judgeFrame i f s.time with
      | (t, none) => t.modInlet i (fun x => { x with waiting := rest })
      | (t, some g) =>
        match t.storeFrame i g with
        | (u, true) => u.modInlet i (fun x => { x with waiting := rest })
        | (u, false) => u.modInlet i (fun x => { x with waiting := g :: rest })

/-- A completed frame is judged, and accepted or kept behind the frames that wait; a frame of Inlet 0 that waits and can be recorded in the
same cycle is recorded before one of Inlet 1 (R391, R393). -/
def State.offerFrame (s : State) (i : Nat) (f : LiveFrame) : State :=
  let s := if i = 1 then acceptWaiting 0 s else s
  match s.judgeFrame i f f.arrival with
  | (t, none) => t
  | (t, some g) =>
    match (if (t.inlet i).waiting.isEmpty then t.storeFrame i g else (t, false)) with
    | (u, true) => u
    | (u, false) => u.modInlet i (fun x => { x with waiting := x.waiting ++ [g] })

/-! ### Framing -/

/-- Whether a packet is AVTP stream data that an Inlet accepts (R388); the first packet of a frame carries the quantisers that its Q asks for. -/
def packetAccepted (p : AvtpPacket) (isFirst : Bool) : Bool :=
  p.version == 0 && p.sv
  && (if p.subtype = 3 then
        p.mjpeg.any (fun h => [0, 1, 64, 65].contains h.type
          && (decide (1 ≤ h.q ∧ h.q ≤ 99) || (decide (128 ≤ h.q ∧ h.q ≤ 255) && (!isFirst || h.tables.length == 128))))
      else p.subtype == 7 && p.progressive && decide (p.pixelFormat < 3) && [8, 10, 12, 16].contains p.depth)

/-- What the Inlet assembles of a packet (R388): its payload, after the JPEG's head in a frame's first packet, before its end in the last. -/
def packetBytes (p : AvtpPacket) (isFirst : Bool) : List Byte :=
  if p.subtype = 3 then
    (match p.mjpeg with
      | some h => if isFirst then jpegHead h p.width p.height else []
      | none => []) ++ p.payload ++ (if p.endOfFrame then jpegEnd else [])
  else p.payload

/-- A packet joins its stream's frame (R389). -/
def Assembly.add (a : Assembly) (p : AvtpPacket) (isFirst : Bool) (max : Nat) : Assembly :=
  let gap := a.gap || p.seqNum != a.nextNum
  let bytes := packetBytes p isFirst
  let total := a.payload.length + bytes.length
  { a with
    nextNum := (p.seqNum + 1) % 256
    formatOk := a.formatOk && packetAccepted p isFirst && p.subtype == a.first.subtype
    gap := gap
    long := a.long || (if p.endOfFrame then decide (max < total) else decide (max ≤ total))
    rawLen := a.rawLen + bytes.length
    payload := if gap then a.payload else (a.payload ++ bytes).take max }

/-- A packet that the full receive buffer loses leaves a gap in its frame (R389). -/
def Assembly.lose (a : Assembly) (p : AvtpPacket) : Assembly := { a with nextNum := (p.seqNum + 1) % 256, gap := true }

/-- The frame that a packet begins (R389); `seq` is the number that its stream's next packet carries. -/
def Assembly.ofFirst (n seq : Nat) (p : AvtpPacket) : Assembly := ⟨n, p, seq, true, false, false, 0, []⟩

/-- AVTP_PACKET (R388 to R391). A packet that the receive buffer has no room for is lost. (DEDUCED, assumption 79.) -/
def packetEffect (i : Nat) (p : AvtpPacket) (s : State) : State :=
  if 2 ≤ i ∨ s.isoni INL_STATUS.LINK_UP i = false then s
  else
    match (if p.avtp then s.streamOf i p.streamId else none) with
    | none =>
      if p.avtp = false ∨ p.endOfFrame then
        let r := s.firstChecks i
        s.dropFrame i 0xF (if r = 0 then dropUnknown else r)
      else s
    | some n =>
      let x := s.inlet i
      let old := x.assembly.find? (fun a => a.stream == n)
      let a := old.getD (Assembly.ofFirst n ((assocGet id n x.seqs).getD p.seqNum) p)
      let a :=
        if inletBuffer < x.fill + (packetBytes p old.isNone).length then a.lose p
        else a.add p old.isNone (s.geti INL_SMAX.MAX_BYTES (streamEntry i n))
      let s := s.modInlet i (fun x => { x with
        assembly := x.assembly.filter (fun y => y.stream != n), seqs := putPort n a.nextNum x.seqs })
      if p.endOfFrame then s.offerFrame i ⟨a, s.stamp p.phase, false, false⟩
      else s.modInlet i (fun x => { x with assembly := x.assembly ++ [a] })

/-- FRAME_ACCEPT (R391, R393): where a frame of Inlet 0 is ready in the same cycle, it is recorded first. -/
def frameAcceptEffect (i : Nat) (s : State) : State := acceptWaiting i (if i = 1 then acceptWaiting 0 s else s)

/-- FRAME_STALE (R391): the first frame that waits and has exceeded its age is dropped. -/
def frameStaleEffect (i : Nat) (s : State) : State :=
  match (s.inlet i).waiting.find? (fun f => s.stale i s.time f.capture) with
  | some f => (s.modInlet i (fun x => { x with waiting := x.waiting.erase f })).dropFrame i f.assembly.stream dropStale
  | none => s

/-! ### Links -/

/-- INLET_LINK_UP (R396). -/
def inletUpEffect (i : Nat) (s : State) : State :=
  if i < 2 ∧ s.isoni INL_CTRL.EN i ∧ s.awake then s.puti INL_STATUS.LINK_UP i 1 else s

/-- An Inlet's link goes down (R396): its port is no longer asCapable. -/
def State.inletDown (s : State) (i : Nat) : State :=
  if i < 2 ∧ s.isoni INL_STATUS.LINK_UP i then
    let s := (s.puti INL_STATUS.LINK_UP i 0).evi INL_EVENT.LINK_DOWN i
    let s := s.modSdl (fun d => { d with asCapable := d.asCapable.filter (· != 24 + i) })
    (s.puti INL_STATUS.AS_CAPABLE i 0).showTimeLock
  else s

/-- A write of INL_CTRL (R396): a disabled Inlet's link goes down. -/
def inlCtrlOne (i : Nat) (s : State) : State := if s.isoni INL_CTRL.EN i then s else s.inletDown i

def execAvtpPacket (i : Nat) (p : AvtpPacket) (s : State) : Host.Outcome State Fault Refusal :=
  .next (finish s (packetEffect i p s))
def execFrameAccept (i : Nat) (s : State) : Host.Outcome State Fault Refusal := .next (finish s (frameAcceptEffect i s))
def execFrameStale (i : Nat) (s : State) : Host.Outcome State Fault Refusal := .next (finish s (frameStaleEffect i s))
def execInletLinkUp (i : Nat) (s : State) : Host.Outcome State Fault Refusal := .next (finish s (inletUpEffect i s))
def execInletLinkDown (i : Nat) (s : State) : Host.Outcome State Fault Refusal := .next (finish s (s.inletDown i))

end Sys2Proof.Machine
end

