-- ==== Sys2Proof/Machine/Spouts.lean ====
section
/-! DEFINITION. The Spout links: RoCEv2 recovery (R351), Runnel retry and credits (R354, R355), lanes (R363), link loss and
return (R364 to R366), training (R465), and neighbour answers (R348). -/
namespace Sys2Proof.Machine

/-- Whether sequence number `a` lies at or before `b`, on a circle of `m`. -/
def seqLe (m a b : Nat) : Bool := decide ((b % m + m - a % m) % m < m / 2)

/-- The frames that an ACK covers leave a list; deliveries whose record frame it covers are complete. -/
def State.deliverAll (s : State) (l : List SentFrame) (spout : Nat) : State :=
  l.foldl (fun s u => s.deliverDone u spout) s

/-! ### Ethernet mode -/

/-- Whether a flow has packets outstanding on an Ethernet link. -/
def State.outstanding (s : State) (f : Nat) : Bool := !(s.flow f).unacked.isEmpty

/-- ROCE_ACK (R351). -/
def roceAckEffect (f psn : Nat) (s : State) : State :=
  let x := s.flow f
  let gone := x.unacked.filter (fun u => seqLe (2 ^ 24) u.seq psn)
  if gone.isEmpty then s
  else
    let s := s.setFlow f { x with
      unacked := x.unacked.filter (fun u => !seqLe (2 ^ 24) u.seq psn), timeouts := 0 }
    (s.deliverAll gone (s.spoutOf f)).showWeir

/-- NAK_SEQUENCE (R351): go-back-N from the PSN named. -/
def nakSequenceEffect (f psn : Nat) (s : State) : State :=
  if s.frozen then s
  else s.sendAgain (s.spoutOf f) ((s.flow f).unacked.filter (fun u => seqLe (2 ^ 24) psn u.seq))

/-- ACK_TIMEOUT (R351, R366, R430): the seventh in succession makes the member unreachable. -/
def ackTimeoutEffect (f : Nat) (s : State) : State :=
  if s.frozen ∨ s.outstanding f = false then s
  else
    let n := (s.flow f).timeouts + 1
    if n = 7 then (s.makeUnreachable f).showWeir
    else (s.modFlow f (fun x => { x with timeouts := n })).sendAgain (s.spoutOf f) (s.flow f).unacked

/-- RNR_NAK (R351, R361): the member is parked. -/
def rnrNakEffect (f : Nat) (s : State) : State :=
  if s.outstanding f then (s.modFlow f (fun x => { x with parked := true })).showWeir else s

/-- Whether a frame is its delivery's record frame. -/
def State.isRecord (s : State) (u : SentFrame) : Bool :=
  match s.batch? u.batch with
  | some b => u.index + 1 == b.frames
  | none => false

/-- RNR_RETRY (R351, R430): the oldest record frame outstanding, and what follows it, are sent again. -/
def rnrRetryEffect (f : Nat) (s : State) : State :=
  if s.frozen ∨ (s.flow f).parked = false then s
  else
    let t := s.modFlow f (fun x => { x with parked := false })
    (t.sendAgain (t.spoutOf f) ((t.flow f).unacked.dropWhile (fun u => !t.isRecord u))).showWeir

/-- NAK_REMOTE_ERROR (R351, R366). -/
def remoteErrorEffect (f : Nat) (s : State) : State :=
  if s.outstanding f then ((s.evi SPT_EVENT.REMOTE_ERR (s.spoutOf f)).makeUnreachable f).showWeir else s

/-- CNP (R351): refill and eligibility stop for CNP_HOLD_US. (DEDUCED, assumption 70.) -/
def cnpEffect (f : Nat) (s : State) : State :=
  let k := s.spoutOf f
  if s.linked k && !s.runnel k && isMember (s.flowEntry f) then
    let s := s.bumpi SPT_CNP.COUNT k 1
    s.modFlow f (fun x => { x with cnp := s.get WEIR_TIMERS.CNP_HOLD_US != 0 })
  else s

/-- CNP_HOLD_END (R351, R430). (DEDUCED, assumption 70.) -/
def cnpHoldEndEffect (f : Nat) (s : State) : State :=
  if s.frozen then s else s.modFlow f (fun x => { x with cnp := false })

/-! ### Runnel mode -/

/-- RUNNEL_ACK (R354, R355). -/
def runnelAckEffect (k lseq : Nat) (s : State) : State :=
  let l := (s.spout k).retry
  let gone := l.filter (fun u => seqLe (2 ^ 32) u.seq lseq)
  if gone.isEmpty then s
  else
    let s := s.modSpout k (fun y => { y with retry := l.filter (fun u => !seqLe (2 ^ 32) u.seq lseq) })
    (s.deliverAll gone k).showWeir

/-- RUNNEL_NAK (R354): the frames from the LSEQ expected go again, in order. (DEDUCED, assumption 69.) -/
def runnelNakEffect (k lseq : Nat) (s : State) : State :=
  if s.frozen ∨ s.linked k = false then s
  else s.sendAgain k ((s.spout k).retry.filter (fun u => seqLe (2 ^ 32) lseq u.seq))

/-- RETRY_TIMEOUT (R354): the oldest unacknowledged frame is the one expected. -/
def retryTimeoutEffect (k : Nat) (s : State) : State :=
  if s.frozen ∨ s.linked k = false then s else s.sendAgain k (s.spout k).retry

/-- CREDIT (R353, R355): frames granted to an endpoint since link up. -/
def creditEffect (k ep total : Nat) (s : State) : State :=
  if s.linked k && s.runnel k then
    (s.modSpout k (fun y => y.setCredit ep total (y.creditOf ep).2)).showWeir
  else s

/-- CONTROL_FRAME_TICK (R354, R374): the FEC's counts are taken, and an ACK leaves; what the block has received in order is a free value, and it
grants no credit. -/
def controlTickEffect (x : LinkTick) (s : State) : State :=
  if s.linked x.spout then
    let s := (s.bumpi SPT_FEC_CORR.COUNT x.spout x.corrected).bumpi SPT_FEC_UNCORR.COUNT x.spout x.uncorrectable
    if s.runnel x.spout then
      let (n, s) := s.fresh 11 (2 ^ 32)
      s.sendControl x.spout "ACK" 0x10 (leBytes 4 n)
    else s
  else s

/-! ### Link loss and return -/

/-- The deliveries of a flow that its link still owes, as they go again on another link (R364): whole, with RESENT,
ahead of what has not begun. -/
def State.requeued (s : State) (f k : Nat) : List Delivery :=
  let x := s.flow f
  let sent := x.unacked ++ (s.spout k).retry.filter (fun u => u.flow == f)
  let begun : List Nat := (sent.map (·.batch)
    ++ (x.queue.filter (fun d => decide (0 < d.next))).map (·.batch)).eraseDups
  begun.map (fun b => ⟨b, true, 0⟩) ++ x.queue.filter (fun d => d.next == 0 && !begun.contains d.batch)

/-- A flow leaves a failed Spout (R364, R366): for its other Spout where that one is UP, or, going back to its primary,
HELD; else its member is unreachable. -/
def State.leaveSpout (s : State) (f k : Nat) : State :=
  let e := s.flowEntry f
  let x := s.flow f
  let other := if x.onAlt then feSpout e else feAlt e
  let ok := s.spoutUp other || (x.onAlt && s.linked other)
  if x.unreachable then s
  else if ok then
    let q := s.requeued f k
    s.setFlow f { x with onAlt := !x.onAlt, queue := q, unacked := [], parked := false, timeouts := 0 }
  else s.makeUnreachable f

/-- A Spout's link is lost (R364): its flows move or their members are unreachable, and what it held is dropped. -/
def State.loseLink (s : State) (k : Nat) : State :=
  let was := s.linked k
  let s := (s.puti SPT_STATUS.STATE k 0).puti SPT_STATUS.LANES_UP k 0
  if was then
    let s := s.evi SPT_EVENT.LINK_DOWN k
    let l := s.memberFlows.filter (fun f => s.spoutOf f == k)
    let s := l.foldl (fun s f => s.leaveSpout f k) s
    let s := s.modSpout k (fun y => { y with retry := [], credit := [] })
    ((s.each 24 (fun j s => s.checkHeld j)).trigger 9).showWeir
  else s

/-- SPOUT_DOWN (R363, R364, R398, R428): the fault log names the row of the mode. -/
def spoutDownEffect (k : Nat) (s : State) : State :=
  if s.linked k then (s.logFault (if s.runnel k then 1 else 2) 0 k 0).loseLink k else s.loseLink k

/-- Whether a Spout waits for its turn in the stagger (R465). -/
def State.waits (s : State) (k : Nat) : Bool := s.isoni SPT_CTRL.EN k && s.geti SPT_STATUS.STATE k == 0

/-- A Spout begins link training, in the mode set (R348, R374). (DEDUCED, assumption 73.) -/
def State.train (s : State) (k : Nat) : State :=
  (s.puti SPT_STATUS.STATE k 1).puti SPT_STATUS.MODE_ACTIVE k (s.geti SPT_CTRL.MODE k)

/-- SPOUT_TRAINING_START (R465): turns come in ascending Spout order. -/
def trainingStartEffect (k : Nat) (s : State) : State :=
  if k < 24 ∧ s.awake ∧ s.waits k ∧ ((List.range k).any s.waits) = false then s.train k else s

/-- SPOUT_UP (R348, R356, R365): a trained Spout comes up; one that returns, or whose flows are on their alternates, is
HELD first. (DEDUCED, assumption 69.) (DEDUCED, assumption 72.) -/
def spoutUpEffect (k : Nat) (s : State) : State :=
  let lanes := s.geti SPT_CTRL.LANE_EN k
  let ok := s.geti SPT_STATUS.STATE k == 1 && s.isoni SPT_CTRL.EN k && lanes != 0 && (s.runnel k || lanes == 0xF)
  if k < 24 ∧ ok then
    let back := (s.spout k).wasUp
      || s.memberFlows.any (fun f => (s.flow f).onAlt && feSpout (s.flowEntry f) == k)
    let s := (s.puti SPT_STATUS.LANES_UP k lanes).puti SPT_STATUS.STATE k 2
    let s := s.modSpout k (fun y => { y with vtime := 0, lseq := 0, retry := [], credit := [], wasUp := true })
    let s := if back then s.evi SPT_EVENT.HELD k else s
    (s.checkHeld k).showWeir
  else s

/-- FLOW_REJOIN (R365): a flow goes back to its primary at a batch boundary. -/
def flowRejoinEffect (f : Nat) (s : State) : State :=
  let x := s.flow f
  let k := feSpout (s.flowEntry f)
  let alt := feAlt (s.flowEntry f)
  let clear := x.unacked.isEmpty && !(s.spout alt).retry.any (fun u => u.flow == f)
    && !(x.queue.head?.any (fun d => decide (0 < d.next)))
  if x.onAlt ∧ clear ∧ s.linked k then
    ((s.setFlow f { x with onAlt := false }).checkHeld k).showWeir
  else s

/-- What a write of SPT_CTRL does to one Spout (R364, R365, R374): clearing EN takes the link down, and RETRAIN trains it
again. -/
def State.sptCtrlOne (s : State) (k : Nat) (retrain : Bool) : State :=
  if s.isoni SPT_CTRL.EN k = false then
    if s.geti SPT_STATUS.STATE k = 0 then s else s.loseLink k
  else if retrain ∧ s.geti SPT_STATUS.STATE k ≠ 0 then (s.loseLink k).train k
  else s

/-! ### Lanes -/

/-- The lane set of a link changes; the Sundial discards exchanges near the change (R385). -/
def State.setLanes (s : State) (k lanes : Nat) : State :=
  let s := s.puti SPT_STATUS.LANES_UP k lanes
  { s with sundial := { s.sundial with
    laneChange := s.sundial.laneChange.filter (fun e => e.1 != k) ++ [(k, s.time)] } }

/-- A LANE_MAP frame leaves with the next epoch (R353, R363). -/
def State.sendLaneMap (s : State) (k lanes : Nat) : State :=
  let s := s.modSpout k (fun y => { y with epoch := (y.epoch + 1) % 256 })
  s.sendControl k "LANE_MAP" 0x13 (leBytes 1 (lanes % 16) ++ leBytes 1 (s.spout k).epoch)

/-- Lanes have been dropped: frames striped on them are lost, and every unacknowledged frame goes again (R363, R354).
(DEDUCED, assumption 74.) -/
def State.laneDropped (s : State) (k : Nat) : State :=
  let s := (s.evi SPT_EVENT.LANE_DROP k).logFault 1 0 k 0
  if s.frozen then s else s.sendAgain k (s.spout k).retry

/-- LANE_FAULT (R363, R364). -/
def laneFaultEffect (k lane : Nat) (s : State) : State :=
  let lanes := s.geti SPT_STATUS.LANES_UP k
  if s.linked k ∧ lane < 4 ∧ bitOf lanes lane then
    let rest := lanes - 2 ^ lane
    if s.runnel k ∧ rest ≠ 0 then ((s.setLanes k rest).sendLaneMap k rest).laneDropped k
    else spoutDownEffect k s
  else s

/-- LANE_RETRAINED (R363, R424). -/
def laneRetrainedEffect (k lane : Nat) (s : State) : State :=
  let lanes := s.geti SPT_STATUS.LANES_UP k
  if s.linked k ∧ s.runnel k ∧ lane < 4 ∧ bitOf lanes lane = false ∧ bitOf (s.geti SPT_CTRL.LANE_EN k) lane then
    ((s.setLanes k (lanes + 2 ^ lane)).sendLaneMap k (lanes + 2 ^ lane)).evi SPT_EVENT.LANE_BACK k
  else s

/-- LANE_MAP (R353, R363): the partner's lane set and epoch. (DEDUCED, assumption 74.) -/
def laneMapEffect (k lanes epoch : Nat) (s : State) : State :=
  let old := s.geti SPT_STATUS.LANES_UP k
  let new := lanes % 16
  if s.linked k && s.runnel k then
    let s := s.modSpout k (fun y => { y with epoch := epoch % 256 })
    if new = 0 then spoutDownEffect k s
    else if new = old then s
    else
      let s := s.setLanes k new
      let s := if new &&& (15 - old) ≠ 0 then s.evi SPT_EVENT.LANE_BACK k else s
      if old &&& (15 - new) ≠ 0 then s.laneDropped k else s
  else s

/-- ARP_REQUEST (R348, R403): Keeper answers for the SRC_IP of a flow of an Ethernet Spout that is UP. -/
def arpEffect (k address : Nat) (s : State) : State :=
  let mine := (s.weir.flows.any (fun e => feValid e.2 && !feGroup e.2 && feSrcIp e.2 == address
    && (feSpout e.2 == k || feAlt e.2 == k)))
  if s.spoutUp k && !s.runnel k && s.ison HIF_STATUS.KEEPER_UP && mine then s.emit (.arpReply k address) else s

def execRoceAck (f psn : Nat) (s : State) : Host.Outcome State Fault Refusal := .next (finish s (roceAckEffect f psn s))
def execNakSequence (f psn : Nat) (s : State) : Host.Outcome State Fault Refusal :=
  .next (finish s (nakSequenceEffect f psn s))
def execAckTimeout (f : Nat) (s : State) : Host.Outcome State Fault Refusal := .next (finish s (ackTimeoutEffect f s))
def execRnrNak (f : Nat) (s : State) : Host.Outcome State Fault Refusal := .next (finish s (rnrNakEffect f s))
def execRnrRetry (f : Nat) (s : State) : Host.Outcome State Fault Refusal := .next (finish s (rnrRetryEffect f s))
def execNakRemoteError (f : Nat) (s : State) : Host.Outcome State Fault Refusal :=
  .next (finish s (remoteErrorEffect f s))
def execCnp (f : Nat) (s : State) : Host.Outcome State Fault Refusal := .next (finish s (cnpEffect f s))
def execCnpHoldEnd (f : Nat) (s : State) : Host.Outcome State Fault Refusal := .next (finish s (cnpHoldEndEffect f s))
def execRunnelAck (x : RxFrame) (lseq : Nat) (s : State) : Host.Outcome State Fault Refusal :=
  .next (finish s (s.onFrame x (fun k => runnelAckEffect k lseq)))
def execRunnelNak (x : RxFrame) (lseq : Nat) (s : State) : Host.Outcome State Fault Refusal :=
  .next (finish s (s.onFrame x (fun k => runnelNakEffect k lseq)))
def execCredit (x : RxFrame) (ep total : Nat) (s : State) : Host.Outcome State Fault Refusal :=
  .next (finish s (s.onFrame x (fun k => creditEffect k ep total)))
def execLaneMap (x : RxFrame) (lanes epoch : Nat) (s : State) : Host.Outcome State Fault Refusal :=
  .next (finish s (s.onFrame x (fun k => laneMapEffect k lanes epoch)))
def execRetryTimeout (k : Nat) (s : State) : Host.Outcome State Fault Refusal := .next (finish s (retryTimeoutEffect k s))
def execControlFrameTick (k : LinkTick) (s : State) : Host.Outcome State Fault Refusal :=
  .next (finish s (controlTickEffect k s))
def execLaneFault (k lane : Nat) (s : State) : Host.Outcome State Fault Refusal :=
  .next (finish s (laneFaultEffect k lane s))
def execLaneRetrained (k lane : Nat) (s : State) : Host.Outcome State Fault Refusal :=
  .next (finish s (laneRetrainedEffect k lane s))
def execSpoutDown (k : Nat) (s : State) : Host.Outcome State Fault Refusal := .next (finish s (spoutDownEffect k s))
def execSpoutUp (k : Nat) (s : State) : Host.Outcome State Fault Refusal := .next (finish s (spoutUpEffect k s))
def execFlowRejoin (f : Nat) (s : State) : Host.Outcome State Fault Refusal := .next (finish s (flowRejoinEffect f s))
/-- SPT_CTRL of Spout `k` written with RETRAIN as 1. (DEDUCED, assumption 73.) -/
def execSpoutRetrain (k : Nat) (w : Word) (s : State) : Host.Outcome State Fault Refusal :=
  if k < 24 then .next (finish s (s.viaReg .host .SPT_CTRL k w (fun t => (t.swWrite .SPT_CTRL k w).sptCtrlOne k true))) else .next (finish s s)
def execArpRequest (k address : Nat) (s : State) : Host.Outcome State Fault Refusal :=
  .next (finish s (arpEffect k address s))
def execSpoutTrainingStart (k : Nat) (s : State) : Host.Outcome State Fault Refusal :=
  .next (finish s (trainingStartEffect k s))

end Sys2Proof.Machine
end

