-- ==== Sys2Proof/Machine/PowerOps.lean ====
section
/-! DEFINITION. Power states and their wake sources (R216 to R218, R449, R458, R459), the voltage of the clusters (R453, R454), and
the operating point (R452, R455, R456). -/
namespace Sys2Proof.Machine

def State.modPower (s : State) (f : PowerSt → PowerSt) : State := { s with power := f s.power }

/-- The device stands in a power state, which HIF_PWR_STATUS shows (R219). -/
def State.setPState (s : State) (n : Nat) : State :=
  (s.modPower (fun p => { p with state := n })).put HIF_PWR_STATUS.STATE n

/-- The deepest state that a timer enters (R216); 3 while the function is in D3hot (R218). -/
def State.maxState (s : State) : Nat := if s.power.d3hot then 3 else s.get HIF_PWR_CTRL.MAX

/-- Whether a Rill holds released work that it has not consumed (R216). -/
def RillSt.busy (x : RillSt) : Bool := x.stages.any (fun g => !g.input.isEmpty || g.run.isSome) || !x.ready.isEmpty

/-- Whether a flow holds a batch to deliver. -/
def FlowSt.busy (x : FlowSt) : Bool := !x.queue.isEmpty || !x.unacked.isEmpty

/-- The idleness that every deeper state asks for (R34, R216): P1 to be entered, and P2 and P3 to follow. A batch that waits for its
STRICT set is queued in its flow (R369); a POWER task with TARGET 3 is left out of the tasks (R218). -/
def State.quiet (s : State) : Bool :=
  (List.range 8).all (fun q => !s.queued q)
  && s.host.tasks.all (fun t => some t.id == s.power.p3Task)
  && s.rills.all (fun x => !x.busy)
  && s.sluice.fetches.all (fun f => f.landed.isSome)
  && s.weir.tx.all (fun e => !e.2.busy)
  && s.weir.spouts.all (fun x => x.retry.isEmpty)
  && s.weir.pool.all (fun b => !b.strictWait)
  && s.cascade.loader.phase == .idle && s.cascade.act.phase.rests

/-- Whether the warden may take the device deeper: it runs, nothing has fired a wake source, and no reset or Stillwater
freeze is under way (R407, R458). (DEDUCED, assumption 92.) -/
def State.maySleep (s : State) : Bool :=
  s.awake && !s.draining && !s.frozen && !s.svc.wardenDown && s.power.waking == 0 && !s.power.hold0

/-- Whether a timer takes the device to state `n` (R216, R219): an IDLE1_US of 0 disables all three. -/
def State.timerTo (s : State) (n : Nat) : Bool := s.get HIF_PWR_CTRL.IDLE1_US != 0 && decide (n ≤ s.maxState)

/-- P1_ENTRY (R34, R216, R218, R459). -/
def p1Effect (s : State) : State :=
  if s.power.state = 0 ∧ s.maySleep ∧ s.quiet ∧ (s.power.p3Task.isSome ∨ s.timerTo 1) then s.setPState 1 else s

/-- The clusters are power-gated: their voltages read 0 (R449, R467). -/
def State.gateClusters (s : State) : State := s.each 4 (fun k s => s.setWord .PWR_VOLT k 0#32)

/-- P2_ENTRY (R34, R216, R459). -/
def p2Effect (s : State) : State :=
  if s.power.state = 1 ∧ s.maySleep ∧ s.quiet ∧ s.releasing = false ∧ (s.power.p3Task.isSome ∨ s.timerTo 2) then
    s.gateClusters.setPState 2
  else s

/-- Whether Aquifer can be made clean (R169): nothing waits in staging or for the journal. -/
def State.aqfIdle (s : State) : Bool := s.aqf.staging.isEmpty && s.aqf.journal.isEmpty

/-- Before P3 Aquifer checkpoints every changed segment, and writes a clean marker (R169). Where the marker stands is not stated.
(DESIGN CHOICE, assumption 117.) -/
def State.checkpointAll (s : State) : State :=
  if s.ison AQF_STATUS.READY ∧ s.aqf.format.isSome then
    let s := s.each 4096 (fun k s => if s.aqf.changed k then s.checkpoint k else s)
    if s.aqfIdle ∧ (List.range 4096).all (fun k => !s.aqf.changed k) then
      let s := s.markerDies.foldl (fun s d =>
        let (b, p) := Config.markerPage d
        s.programCells ⟨d, b, p, true⟩ (OwnRecord.bytes .clean [s.aqf.seq] ++ (ownMeta s.aqf.seq).bytes)) s
      s.modAqf (fun a => { a with clean := true })
    else s
  else s

/-- Whether Aquifer lets the warden enter P3 (R169): every changed segment is checkpointed and the clean marker stands; an array that is not
formatted or not mounted has nothing to keep. -/
def State.aqfClean (s : State) : Bool := s.get AQF_STATUS.READY == 0 || s.aqf.format.isNone || s.aqf.clean

/-- What P3 gates or loses (R449): links, Keeper, Reservoir's contents, the Reed cache. The Sundial holds over (R216). -/
def State.gateAll (s : State) : State :=
  let s := s.each 24 (fun k s => if s.geti SPT_STATUS.STATE k = 0 then s else s.loseLink k)
  let s := s.each 2 (fun i s => s.inletDown i)
  let s := ((s.enterSdl 3).showSource).loseBanks (List.range 1024)
  let s : State := { s with caches := List.replicate 16 [] }
  (s.keeperDown).modPower (fun p => { p with warm := true })

/-- The POWER task that asked for P3 completes (R218). -/
def State.endP3Task (s : State) : State :=
  match s.power.p3Task with
  | some t => completeEffect t ((s.endTask t 0 3).modPower (fun p => { p with p3Task := none }))
  | none => s

/-- P3_ENTRY (R34, R169, R216, R218, R379, R459): Aquifer checkpoints first, and P3 waits until it is clean. (DEDUCED, assumption 92.) -/
def p3Effect (s : State) : State :=
  if s.power.state = 2 ∧ s.maySleep ∧ s.quiet ∧ (s.power.p3Task.isSome ∨ (s.get HIF_PWR_CTRL.IDLE3_S ≠ 0 ∧ s.timerTo 3)) then
    let s := s.checkpointAll
    if s.aqfClean then s.endP3Task.storeEstimate.gateAll.setPState 3 else s
  else s

/-- The POWER task (R218): TARGET 0 holds the device in P0, and wakes it where it sleeps; TARGET 3 waits for P3, one task at
a time. -/
def powerEffect (t : Nat) (s : State) : State :=
  match s.task? t with
  | none => s
  | some x =>
    if x.target = 0 then
      if s.power.state = 0 then
        s.runTask t 0x28 (fun _ s => (s.modPower (fun p => { p with hold0 := true })).endTask t 0 0)
      else if x.opcode = 0x28 then s.wake 2 else s
    else if s.power.p3Task.isSome then s
    else s.runTask t 0x28 (fun _ s => s.modPower (fun p => { p with hold0 := false, p3Task := some t }))

/-- POWER_TASK_TIMEOUT (R218): the conditions for P2 have not held within 1 s. -/
def powerTimeoutEffect (s : State) : State :=
  match s.power.p3Task with
  | some t =>
    if s.power.state < 2 then (s.endTask t 0x0011 0).modPower (fun p => { p with p3Task := none }) else s
  | none => s

/-- D3HOT_TRANSITION (R218). -/
def d3hotEffect (enter : Bool) (s : State) : State := s.modPower (fun p => { p with d3hot := enter })

/-! ### Wake sources (R458) -/

def i3cWakeEffect (s : State) : State := if s.ison PWR_WAKE_EN.I3C then s.wake 3 else s
def wakeTimerEffect (s : State) : State :=
  if s.power.state = 3 ∧ s.ison PWR_WAKE_EN.TIMER ∧ s.get PWR_WAKE_TIMER.S ≠ 0 then s.wake 4 else s
def signalDetectEffect (k : Nat) (s : State) : State :=
  if s.power.state = 3 ∧ s.ison PWR_WAKE_EN.SPOUT_SD ∧ k < 24 ∧ s.isoni SPT_CTRL.EN k then s.wake 5 else s

/-! ### Voltage (R453, R454) -/

/-- The voltage field of a cluster, and its entry. -/
def voltFld (c : Nat) : Fld := if c % 2 = 0 then PWR_VOLT.EVEN_MV else PWR_VOLT.ODD_MV
def State.volt (s : State) (c : Nat) : Nat := s.geti (voltFld c) (c / 2)
def State.setVolt (s : State) (c mv : Nat) : State := s.puti (voltFld c) (c / 2) mv

/-- The setpoint that the warden requests: the highest cluster voltage plus 25 mV, from 760 to 850 mV (R454). -/
def State.setpoint (s : State) : Nat :=
  max 760 (min 850 (alignUp 5 ((List.range 8).foldl (fun m c => max m (s.volt c)) 0 + 25)))

/-- The limits of the operating point in effect: where MIN exceeds MAX, both are MAX (R455). -/
def State.opMax (s : State) : Nat := s.get PWR_OP.MAX
def State.opMin (s : State) : Nat := min (s.get PWR_OP.MIN) (s.get PWR_OP.MAX)

/-- The idle PLL locks to a new operating point (R456). -/
def State.aimOp (s : State) (x : OpStep) : State := s.modPower (fun p => { p with opTarget := some x })

/-- One cluster's action after 10 µs (R453): the least slack lies below the low mark, or above the high mark. At 850 mV
with too little slack the point steps down at once (R455). (DEDUCED, assumption 90.) -/
def State.adjust (s : State) (c : Nat) (low high : Bool) : State :=
  let n := if high then min 100 (s.power.slackHigh.getD c 0 + 1) else 0
  let s := s.modPower (fun p => { p with slackHigh := putAt c n p.slackHigh })
  let v := s.volt c
  if low then
    if v < 850 then s.setVolt c (min 850 (v + 5))
    else
      let cur := s.get PWR_OP.CURRENT
      if s.opMin < cur then (s.aimOp ⟨cur - 1, false, false⟩).ev PWR_EVENT.VMAX else s
  else if n = 100 then s.setVolt c (max 650 (v - 5))
  else s

/-- VOLTAGE_ADJUST: for each cluster whether its least slack lies below the low mark, and above the high mark. -/
def voltageEffect (slack : List (Bool × Bool)) (s : State) : State :=
  if s.awake = false ∨ 2 ≤ s.power.state then s
  else
    let old := s.setpoint
    let s := s.each 8 (fun c s => let m := slack.getD c (false, false); if s.volt c = 0 then s else s.adjust c m.1 m.2)
    if s.setpoint ≠ old ∧ s.svc.wardenDown = false then s.emit (.vdd s.setpoint) else s

/-- The clusters are powered: nothing states their first voltage, a free value of 650 to 850 mV in steps of 5. -/
def State.powerClusters (s : State) : State :=
  let s := s.each 8 (fun c s => let (k, s) := s.fresh 20 41; s.setVolt c (650 + 5 * k))
  s.emit (.vdd s.setpoint)

/-- VR_FAULT (R454). (DEDUCED, assumption 90.) -/
def vrFaultEffect (s : State) : State :=
  if s.power.porHeld then s
  else ((s.put PWR_STATUS.VR_FAULT 1).ev PWR_EVENT.VR_FAULT).aimOp ⟨s.opMin, false, false⟩

/-! ### The operating point (R455, R456) -/

/-- PWR_LIMIT as the loop takes it, clamped (R467). -/
def State.powerLimit (s : State) : Nat := max 100 (min 440 (s.get PWR_LIMIT.POWER_W))
def State.tjTarget (s : State) : Nat := max 60 (min 105 (s.get PWR_LIMIT.TJ_TARGET))

/-- FREQUENCY_DECISION (R455): the power averaged over the last millisecond and the hottest junction. A point outside the
limits moves towards them, one step a decision. (DEDUCED, assumption 91.) -/
def frequencyEffect (powerW : Nat) (tj : Int) (s : State) : State :=
  if s.awake = false then s
  else
    let s := (s.put PWR_MEAS.POWER_W (min 1023 powerW)).put PWR_MEAS.TJ (ofSigned 8 (clampInt (-128) 127 tj))
    let cur := s.get PWR_OP.CURRENT
    let hot := decide ((s.tjTarget : Int) < tj)
    let heavy := decide (s.powerLimit < powerW)
    let calm := decide (100 * powerW ≤ 95 * s.powerLimit) && decide (tj + 3 ≤ (s.tjTarget : Int))
    let n := if calm then min 10 (s.power.okMs + 1) else 0
    let s := s.modPower (fun p => { p with okMs := n })
    if (heavy ∨ hot) ∧ s.opMin < cur then s.aimOp ⟨cur - 1, heavy, hot⟩
    else if s.opMax < cur then s.aimOp ⟨cur - 1, false, false⟩
    else if cur < s.opMin ∨ (n = 10 ∧ cur < s.opMax) then
      (s.aimOp ⟨cur + 1, false, false⟩).modPower (fun p => { p with okMs := 0 })
    else s

/-- OP_CHANGE (R456): the Cascade clock moves to the new point. It changes neither a bit nor a non-hold cycle count (R38), and
the tags run on. (DEDUCED, assumption 91.) -/
def opChangeEffect (s : State) : State :=
  match s.power.opTarget with
  | none => s
  | some x =>
    if s.power.porHeld then s
    else
      let cur := s.get PWR_OP.CURRENT
      let s := (s.modPower (fun p => { p with opTarget := none })).put PWR_OP.CURRENT x.target
      if x.target < cur then
        ((s.putb PWR_STATUS.POWER_LIMITED x.forPower).putb PWR_STATUS.THERMAL_LIMITED x.forHeat).ev PWR_EVENT.OP_DOWN
      else if cur < x.target then s.ev PWR_EVENT.OP_UP
      else s

def execPower (t : Nat) (s : State) : Host.Outcome State Fault Refusal := .next (finish s (powerEffect t s).showTasks)
def execP1Entry (s : State) : Host.Outcome State Fault Refusal := .next (finish s (p1Effect s))
def execP2Entry (s : State) : Host.Outcome State Fault Refusal := .next (finish s (p2Effect s))
def execP3Entry (s : State) : Host.Outcome State Fault Refusal := .next (finish s (p3Effect s))
def execPowerTaskTimeout (s : State) : Host.Outcome State Fault Refusal := .next (finish s (powerTimeoutEffect s).showTasks)
def execD3hotTransition (enter : Bool) (s : State) : Host.Outcome State Fault Refusal := .next (finish s (d3hotEffect enter s))
def execI3cWake (s : State) : Host.Outcome State Fault Refusal := .next (finish s (i3cWakeEffect s))
def execWakeTimer (s : State) : Host.Outcome State Fault Refusal := .next (finish s (wakeTimerEffect s))
def execSpoutSignalDetect (k : Nat) (s : State) : Host.Outcome State Fault Refusal := .next (finish s (signalDetectEffect k s))
def execVoltageAdjust (slack : List (Bool × Bool)) (s : State) : Host.Outcome State Fault Refusal :=
  .next (finish s (voltageEffect slack s))
def execVrFault (s : State) : Host.Outcome State Fault Refusal := .next (finish s (vrFaultEffect s))
def execFrequencyDecision (powerW : Nat) (tj : Int) (s : State) : Host.Outcome State Fault Refusal :=
  .next (finish s (frequencyEffect powerW tj s))
def execOpChange (s : State) : Host.Outcome State Fault Refusal := .next (finish s (opChangeEffect s))

end Sys2Proof.Machine
end

