-- ==== Sys2Proof/Machine/Resets.lean ====
section
/-! DEFINITION. Resets, coinciding resets, and the first second (R87, R109, R147, R173, R191, R213, R306, R322, R414, R426,
R457, R460 to R464). -/
namespace Sys2Proof.Machine

/-! ### The device reset -/

/-- A device reset is requested (R461, R463): it begins with its drain; the power-loss sequence runs to PF_SAFE first; during
another reset's drain it adds nothing. -/
def State.requestReset (s : State) (src : ResetSource) : State :=
  if s.power.porHeld ∨ s.draining ∨ s.power.resetDeferred then s
  else
    let s := s.modPower (fun p => { p with resetSource := src })
    if s.ison AQF_STATUS.PF ∧ s.get AQF_STATUS.PF_SAFE = 0 then s.modPower (fun p => { p with resetDeferred := true })
    else s.startDrain

/-- A trial is over, and the COMMITTED image is the one that runs next (R414): SVC_FW_STATUS shows the boot record. -/
def State.bootCommitted (s : State) : State :=
  let boot := s.svc.boot
  let s := s.each 2 (fun k s => s.setImage k (if boot.getD k 0 = fwTrial then fwPartial else boot.getD k 0))
  s.put SVC_FW_STATUS.RUNNING (if boot.getD 0 0 = fwCommitted then 0 else 1)

/-- The fuses are sensed (R322): the spare columns and the fuse of the field burn show in their registers. -/
def State.senseFuses (s : State) : State :=
  let s := s.basin.fuses.foldl (fun s f => s.setWord .RSV_SPARE_COL (f.2.1 * 1024 + f.1) (BitVec.ofNat 32 f.2.2)) s
  s.putb RSV_FIELD_CTRL.USED s.basin.fieldUsed

/-- Every register of the device domain goes to its reset value (R461); the image states stand in the boot record (R413), and
the link keeps its state (R466). -/
def State.deviceRegs (s : State) : State :=
  let link := s.word .HIF_STATUS 0
  let s := (s.resetRegs .device).setWord .HIF_STATUS 0 link
  let s := ((s.put HIF_STATUS.FUNC_READY 0).put HIF_STATUS.SOFT_BUSY 0).put HIF_STATUS.KEEPER_UP 0
  let s := (s.put HIF_STATUS.SETTINGS_SAFE 0).put PWR_STATUS.PLL_LOCK 0
  (((s.put PWR_STATUS.CASCADE_UP 0).put PWR_STATUS.START_FAIL 0).put PWR_STATUS.START_TRIES 0).bootCommitted

/-- Everything but the registers that the device reset domain holds goes to its reset value (R461): the warden, the ledger, the
image slots, flash and the fuses keep theirs. Reservoir's contents are undefined (R306). -/
def State.devicePlain (s : State) : State :=
  let z := State.reset
  let t : State := { z with
    pending := s.pending, regs := s.regs, out := s.out, free := s.free, power := s.power
    host := { HostSt.reset with nextId := s.host.nextId }
    reservoir := s.reservoir
    sundial := { s.sundial with asCapable := s.sundial.asCapable.filter (fun p => decide (p < 24)) }
    basin := { BasinSt.reset with fuses := s.basin.fuses, fieldUsed := s.basin.fieldUsed, stale := s.basin.stale, hostGen := s.free }
    aqf := { s.aqf.onFlash with drainLost := s.aqf.undrained }
    svc := { s.svc.onNor with wardenDown := s.svc.wardenDown } }
  t.loseBanks (List.range 1024)

/-- The power state after a device reset: P0, the Cascade in reset, and held while TRST_BOARD_N is low or a trip has not been
released (R457, R462). -/
def PowerSt.afterReset (p : PowerSt) : PowerSt :=
  { PowerSt.reset with
    porHeld := false
    resetPhase := if p.trstLow || p.thermHeld then .held else .none
    resetSource := p.resetSource
    trstLow := p.trstLow, thermHeld := p.thermHeld, perstLow := p.perstLow
    opTarget := p.opTarget, okMs := p.okMs, slackHigh := p.slackHigh }

/-- PWR_RST_CAUSE names the source of the reset (R461, R467). (DEDUCED, assumption 93.) -/
def State.recordReset (s : State) (src : ResetSource) : State :=
  let s := (s.put PWR_RST_CAUSE.POR 0).putb PWR_RST_CAUSE.TRST_BOARD (src == .trst)
  let s := (s.putb PWR_RST_CAUSE.REGISTER (src == .register)).putb PWR_RST_CAUSE.THERMTRIP (src == .thermal)
  s.bump PWR_RST_CAUSE.DEV_RESETS 1

/-- The device powers up with the always-on domain kept (R378): a Sundial with a stored estimate and no source holds over. -/
def State.holdStored (s : State) : State :=
  if s.ison SDL_STATUS.ESTIMATE ∧ s.get SDL_STATUS.STATE = sdlFreeRun then (s.enterSdl sdlHoldover).showSource else s

/-- DEVICE_RESET_DRAIN_DONE (R462): every domain but the always-on domain is reset; the key slots show again as the ledger has them (R107). Clusters that P2 or P3 had gated are
powered again. (DEDUCED, assumption 93.) -/
def resetDoneEffect (s : State) : State :=
  if s.power.resetPhase = .drain ∧ s.aqf.allDrained then
    let gated := decide (2 ≤ s.power.state)
    let s := s.devicePlain.deviceRegs.senseFuses.showKeys
    let s := (s.recordReset s.power.resetSource).modPower PowerSt.afterReset
    let s := (s.setPState 0).showTimeLock
    if gated then s.powerClusters.holdStored else s
  else s

/-- TRST_BOARD_N has been low for 1 µs (R461), and rises (R462). -/
def trstEffect (s : State) : State :=
  if s.power.porHeld then s else (s.modPower (fun p => { p with trstLow := true })).requestReset .trst

/-- A reset that is held ends when nothing holds it any more. -/
def State.releaseReset (s : State) : State :=
  if s.power.resetPhase = .held ∧ s.power.trstLow = false ∧ s.power.thermHeld = false then
    s.modPower (fun p => { p with resetPhase := .none })
  else s

def trstReleaseEffect (s : State) : State := (s.modPower (fun p => { p with trstLow := false })).releaseReset

/-- A write of PWR_RST_CTRL (R461): DEVICE is ignored without its KEY. -/
def rstCtrl (w : Word) (s : State) : State :=
  if PWR_RST_CTRL.DEVICE.cmd w ∧ PWR_RST_CTRL.KEY.get w = 0xDE57 then s.requestReset .register else s

/-- THERMTRIP (R457): ALERT_N is asserted, and a device reset holds until the release. (DEDUCED, assumption 94.) -/
def thermtripEffect (s : State) : State :=
  if s.power.porHeld ∨ s.power.thermHeld then s
  else
    let s := (s.ev PWR_EVENT.THERMTRIP).emit (.pin "ALERT_N" false)
    (s.modPower (fun p => { p with thermHeld := true })).requestReset .thermal

/-- THERMTRIP_RELEASE (R457): the hottest sensor reads 95 °C or below, and the start proceeds from the warden's boot. -/
def thermReleaseEffect (s : State) : State :=
  if s.power.thermHeld ∧ s.power.resetPhase = .held then
    let s := (s.modSvc (fun v => { v with wardenDown := false })).put PWR_STATUS.WARDEN_UP 1
    (s.modPower (fun p => { p with thermHeld := false })).releaseReset.holdStored
  else s

/-! ### The power-on reset -/

/-- A power-on reset (R461, R466): everything goes to its state after reset but what fuses, flash and the SPI NOR hold (R413,
R415); the link is lost, and Reservoir's contents are undefined. (DEDUCED, assumption 94.) -/
def powerOnEffect (s : State) : State :=
  let z := State.reset
  let t : State := { z with
    pending := s.pending, out := s.out, free := s.free
    power := { PowerSt.reset with perstLow := s.power.perstLow }
    sundial := { SundialSt.reset with stored := s.sundial.stored }
    basin := { BasinSt.reset with fuses := s.basin.fuses, fieldUsed := s.basin.fieldUsed, hostGen := s.free }
    aqf := s.aqf.onFlash
    svc := s.svc.onNor }
  (t.bootCommitted.showKeys).loseBanks (List.range 1024)

/-- POWER_ON_RESET_RELEASE (R464): the fuses are sensed, the warden runs, the Sundial takes a stored estimate, and the clusters
are powered. (DEDUCED, assumption 109.) -/
def powerReleaseEffect (s : State) : State :=
  if s.power.porHeld then
    let s := (s.modPower (fun p => { p with porHeld := false })).senseFuses.put PWR_STATUS.WARDEN_UP 1
    let s := match s.sundial.stored with
      | some f => (s.setFreq f).put SDL_STATUS.ESTIMATE 1
      | none => s
    s.powerClusters
  else s

/-! ### The function-level resets -/

/-- A Function Level Reset (R213): a device reset absorbs it (R463), and it leaves D3hot. (PRESUMED, assumption 95.) -/
def flrEffect (s : State) : State :=
  if s.power.porHeld ∨ s.draining then s else d3hotEffect false (functionReset s)

/-- LINK_DOWN (R191, R398): the effect of a Function Level Reset, and the link's state is lost.
(PRESUMED, assumption 95.) -/
def linkDownEffect (s : State) : State :=
  if s.power.porHeld then s else (flrEffect s).linkLost.logFault 4 0 0 0

/-- PERST_N falls or rises (R461). -/
def perstEffect (low : Bool) (s : State) : State :=
  let t := s.modPower (fun p => { p with perstLow := low })
  if low ∧ t.power.porHeld = false then ((flrEffect t).linkLost).put HIF_STATUS.FUNC_READY 0 else t

/-! ### The first second (R464) -/

/-- Whether the start may go on: no reset holds. -/
def State.starting (s : State) : Bool := !s.power.porHeld && !s.draining

/-- FUNCTION_READY: the function answers configuration requests (R213, R461, R464). -/
def functionReadyEffect (s : State) : State :=
  if s.starting ∧ s.power.perstLow = false ∧ s.ison HIF_STATUS.SOFT_BUSY = false then
    (s.put HIF_STATUS.FUNC_READY 1).openIntake
  else s

def pllLockEffect (s : State) : State := if s.starting ∧ s.power.state < 3 then s.put PWR_STATUS.PLL_LOCK 1 else s

/-- CISTERN_INIT_DONE. -/
def cisternEffect (s : State) : State :=
  if s.starting ∧ s.ison PWR_STATUS.PLL_LOCK then s.modPower (fun p => { p with cistern := true }) else s

/-- Whether a die's geometry is one that Aquifer accepts (R147). (DEDUCED, assumption 61.) -/
def DieGeometry.accepted (g : DieGeometry) : Bool :=
  g.pageData == 16384 && decide (2112 ≤ g.spare) && (g.bits == 3 || g.bits == 4)
  && (g.planes == 1 || g.planes == 2 || g.planes == 4)
  && decide (1 ≤ g.pages) && decide (g.pages ≤ 2048) && decide (1 ≤ g.blocks) && decide (g.blocks ≤ 8192)
  && decide (8 * g.pageData * g.pages * g.blocks ≤ 2 ^ 41)

/-- The geometry of the first die found on channel 0 (R147). (DEDUCED, assumption 61.) -/
def firstGeometry (dies : List (Nat × DieReport)) : Option DieGeometry :=
  (List.range 32).findSome? (fun d => (dies.find? (fun e => e.1 == d)).map (·.2.geometry))

/-- The blocks that a die's maker has marked are BAD (R151). -/
def AqfSt.markBad (a : AqfSt) (e : Nat × DieReport) : AqfSt :=
  e.2.bad.foldl (fun a b => if (a.block e.1 b).state = .free then a.setBlock e.1 b { (a.block e.1 b) with state := .bad } else a) a

/-- How a die is found (R144, R147): it is reset, and its ID, its parameter page and its unique ID are read, in SDR timing mode 0. -/
def State.findDie (s : State) (e : Nat × DieReport) : State :=
  let s := ((s.dieOp e.1 opReset [] []).dieOp e.1 opReadId [] e.2.id).dieOp e.1 opParameterPage [] []
  (s.dieOp e.1 opUniqueId [] []).modAqf (fun a => a.markBad e)

/-- The state that a die has after discovery (R147, R179, R180): a die that is not used is ABSENT, a retired one stays RETIRED, and those
of a channel whose PHY fails its training are SUSPENDED. -/
def State.foundState (s : State) (r : Discovery) (mine : List Nat) (d : Nat) : Nat :=
  if mine.contains d = false then dieAbsent
  else if s.aqf.retired.contains d then dieRetired
  else if r.untrained.contains (dieChannel d) then dieSuspended else dieOnline

/-- A channel with dies after discovery (R142, R144, R180): trained and its dies calibrated, or its training has failed. -/
def State.firstTraining (s : State) (r : Discovery) (mine : List Nat) (c : Nat) : State :=
  if mine.any (fun d => dieChannel d == c) = false then s
  else if r.untrained.contains c then (s.puti NFC_STATUS.TRAINED c 0).logFault 6 0 c 0
  else (mine.filter (fun d => dieChannel d == c)).foldl (fun s d => s.dieOp d opZqLong [] []) (s.trained c)

/-- ONFI_DISCOVERY_DONE (R142, R147, R180, R464): the dies found, with what they answer. A die that differs from the first of channel
0, or lies outside the table, is ABSENT; the channels with dies are trained, and the mount begins. A die that training suspends sets
DIE_SUSPEND. -/
def discoveryEffect (r : Discovery) (s : State) : State :=
  if s.starting ∧ s.ison PWR_STATUS.PLL_LOCK ∧ s.power.onfi = false then
    let g := (firstGeometry r.dies).filter DieGeometry.accepted
    let good := r.dies.filter (fun e => decide (e.1 < 1024) && some e.2.geometry == g)
    let mine := good.map (·.1)
    let s := s.modAqf (fun a => { a with geometry := g, found := good })
    let s := good.foldl State.findDie s
    let s := allDies.foldl (fun (s : State) (d : Nat) =>
      if s.dieState d = s.foundState r mine d then s else s.setDie d (s.foundState r mine d)) s
    let s := s.each 32 (fun c s => s.firstTraining r mine c)
    let s := if mine.any (fun d => s.dieState d == dieSuspended) then s.ev AQF_EVENT.DIE_SUSPEND else s
    (s.showDies.put AQF_STATUS.MOUNTING 1).modPower (fun p => { p with onfi := true })
  else s

/-- FIRMWARE_VERIFIED (R403, R417, R419, R464): the COMMITTED image runs; Keeper reads the ledger, applies the Basin layout and
the defaults, and opens intake. Not in test mode (R447). -/
def firmwareEffect (s : State) : State :=
  if s.starting ∧ s.power.cistern ∧ s.awake ∧ s.ison TST_MODE.EN = false ∧ s.svc.dispatcher = none ∧ s.svc.wardenDown = false
      ∧ s.ison SVC_STATUS.KEEPER_RESTARTING = false ∧ s.power.warm = false then
    ((s.runImage (s.get SVC_FW_STATUS.RUNNING)).applyLayout.applyDefaults.keeperUp).openIntake
  else s

/-- BRIDGE_FLIT_ERROR (R17, R398): the flit is replayed, and nothing else changes. -/
def flitEffect (s : State) : State := if s.power.porHeld then s else s.logFault 3 0 0 0

def execTrstBoardN (s : State) : Host.Outcome State Fault Refusal := .next (finish s (trstEffect s))
def execTrstBoardNRelease (s : State) : Host.Outcome State Fault Refusal := .next (finish s (trstReleaseEffect s))
/-- PWR_RST_CTRL written with DEVICE as 1. -/
def execDeviceResetRequest (w : Word) (s : State) : Host.Outcome State Fault Refusal :=
  .next (finish s (s.viaReg .host .PWR_RST_CTRL 0 (PWR_RST_CTRL.DEVICE.set w 1) (rstCtrl (PWR_RST_CTRL.DEVICE.set w 1))))
def execDeviceResetDrainDone (s : State) : Host.Outcome State Fault Refusal := .next (finish s (resetDoneEffect s))
def execThermtrip (s : State) : Host.Outcome State Fault Refusal := .next (finish s (thermtripEffect s))
def execThermtripRelease (s : State) : Host.Outcome State Fault Refusal := .next (finish s (thermReleaseEffect s))
def execPowerOnReset (s : State) : Host.Outcome State Fault Refusal := .next (finish s (powerOnEffect s))
/-- The 25 MHz reference has been absent for 10 µs (R461). -/
def execReferenceLoss (s : State) : Host.Outcome State Fault Refusal := .next (finish s (powerOnEffect s))
def execPowerOnResetRelease (s : State) : Host.Outcome State Fault Refusal := .next (finish s (powerReleaseEffect s))
def execPerstN (low : Bool) (s : State) : Host.Outcome State Fault Refusal := .next (finish s (perstEffect low s))
def execFunctionLevelReset (s : State) : Host.Outcome State Fault Refusal := .next (finish s (flrEffect s))
def execLinkDown (s : State) : Host.Outcome State Fault Refusal := .next (finish s (linkDownEffect s))
def execFunctionReady (s : State) : Host.Outcome State Fault Refusal := .next (finish s (functionReadyEffect s))
def execPllLock (s : State) : Host.Outcome State Fault Refusal := .next (finish s (pllLockEffect s))
def execCisternInitDone (s : State) : Host.Outcome State Fault Refusal := .next (finish s (cisternEffect s))
def execOnfiDiscoveryDone (found : Discovery) (s : State) : Host.Outcome State Fault Refusal :=
  .next (finish s (discoveryEffect found s))
def execFirmwareVerified (s : State) : Host.Outcome State Fault Refusal := .next (finish s (firmwareEffect s))
def execBridgeFlitError (s : State) : Host.Outcome State Fault Refusal := .next (finish s (flitEffect s))

end Sys2Proof.Machine
end

