-- ==== Sys2Proof/Machine/Weir.lean ====
section
/-! DEFINITION. The Weir's commands: enqueueing (R342, R343, R370, R371), frame slots (R356, R357), shapers (R358), tables
(R345, R346, R359), stalls and readiness (R361, R366, R368, R369), resends (R367), and the completion ring (R373); and
an uncorrectable Cistern read (R398). -/
namespace Sys2Proof.Machine

/-! ### Enqueueing -/

/-- The place of a part in its flow's order: step, slice, device (R343). -/
def orderKey (step slice dev : Nat) : Nat := (step * 2 ^ 16 + slice) * 2 ^ 16 + dev

/-- Whether a batch of the same flow comes before a key and has not been enqueued. -/
def State.earlierIn (s : State) (flow key : Nat) : Bool :=
  (List.range 16).any (fun r =>
    s.isoni WEIR_RILL_MAP.EN r && s.geti WEIR_RILL_MAP.FLOW r == flow
    && ((s.rill r).ready.any (fun x => decide (orderKey x.batch.id.step x.batch.id.slice x.batch.id.device < key))
      || (s.rill r).parts.any (fun p => decide (orderKey p.step p.slice p.dev < key))))

/-- Frees pool space until `need` more frames fit in `room` (R370): settled batches first, then batches held only for
unreachable members, which are MISSED with POOL. -/
def State.evict (s : State) (need room : Nat) : Nat → State
  | 0 => s
  | n + 1 =>
    if s.weir.poolFrames + need ≤ room then s
    else
      match s.weir.pool.find? (fun b => b.settled && !s.inUse b.id) with
      | some b => (s.modWeir (fun w => { w with pool := w.pool.filter (fun x => x.id != b.id) })).evict need room n
      | none =>
        match s.weir.pool.find? (fun b => !b.settled && !s.inUse b.id && b.owedFlows.all (fun f => (s.flow f).unreachable)) with
        | some b =>
          let s := s.modBatch b.id (fun b => { b with pooled := true })
          let s := (b.owedFlows.foldl (fun s f => s.miss b.id f) s).ev WEIR_EVENT.POOL_EVICT
          let s := s.settle b.id
          (s.modWeir (fun w => { w with pool := w.pool.filter (fun x => x.id != b.id) })).evict need room n
        | none => s

/-- The records of a record batch: DTYPE, dimensions and data of each (R240). -/
def batchRecords : Nat → List Byte → List (Nat × List Nat × List Byte)
  | 0, _ => []
  | n + 1, bs =>
    let len := leAt bs 4 4
    (leAt bs 2 1, (List.range (min 4 (leAt bs 3 1))).map (fun i => leAt bs (8 + 4 * i) 4), (bs.drop 32).take len)
      :: batchRecords n (bs.drop (alignUp 64 (32 + len)))

/-- The records that Keeper codes of a record batch for the decoded-sample cache, with what their containers say of them (R339).
(DESIGN CHOICE, assumption 71.) -/
def cacheRecords (b : List Byte) : List (PblInner × List Byte) :=
  if leAt b 6 1 = 4 then (batchRecords (leAt b 48 4) (b.drop 128)).map (fun r => (⟨r.1, r.2.1⟩, r.2.2)) else []

/-- Whether a Spout runs in Runnel mode, or will once it is trained (R374). -/
def State.runnelSoon (s : State) (k : Nat) : Bool := if s.geti SPT_STATUS.STATE k = 0 then s.isoni SPT_CTRL.MODE k else s.runnel k

/-- The members of a batch of a flow (R345, R346, R350). (DEDUCED, assumption 66.) -/
def State.membersOf (s : State) (flow len : Nat) : List Owed :=
  let e := s.flowEntry flow
  let l := if feCache e then [] else if feGroup e then geMembers (s.groupEntry (feSpout e)) else [flow]
  l.map (fun f =>
    let m := s.flowEntry f
    ⟨f, feSpout m, .owed, false, !s.runnelSoon (feSpout m) && decide (feSlotBytes m < alignUp 4096 (len + 64))⟩)

/-- A Rill gets a pinned buffer back; one of an earlier activation is released (R320). -/
def State.returnBuf (s : State) (r : Nat) (x : ReadyBatch) : State :=
  if x.gen = s.cascade.act.gen then s.modRill r (fun y => { y with freeBufs := y.freeBufs ++ [x.buf] })
  else showBasin s (s.freeBufs 0 x.buf)

/-- BATCH_ENQUEUE (R339, R340, R342, R343, R350, R368 to R371). A batch of a Pebble flow goes to Pebble first, and is enqueued once it is
coded; Keeper's records of a cache flow go to Pebble. -/
def enqueueEffect (r : Nat) (s : State) : State :=
  match (if s.halted then [] else (s.rill r).ready) with
  | [] => s
  | x :: rest =>
    match s.rillFlow r with
    | none => s.ev WEIR_EVENT.UNMAPPED
    | some f =>
      let e := s.flowEntry f
      if s.earlierIn f (orderKey x.batch.id.step x.batch.id.slice x.batch.id.device) then s
      else if fePebble e ∧ x.coded.isNone then
        if x.job.isSome then s
        else (s.modRill r (fun y => { y with ready := { x with job := some s.pebble.nextId } :: rest })).submitJob .weir x.batch.bytes
      else
        let bs := wireBytes e x
        let need := frameCount bs.length
        let room := s.weir.poolMib * 256
        let s := s.evict need room (s.weir.pool.length + 1)
        if room < s.weir.poolFrames + need then (s.modWeir (fun w => { w with refused := r :: w.refused.filter (· != r) })).showWeir
        else
          let fsn := feFsn e
          let id := s.weir.nextId
          let s := s.setFlowEntry f (feSetFsn e ((fsn + 1) % 2 ^ 32))
          let owed := s.membersOf f bs.length
          let strict := feGroup e && geStrict (s.groupEntry (feSpout e))
          let b : PoolBatch := ⟨id, f, fsn, r, x.batch.id.step, bs, fePebble e, x.batch.digest, owed, strict, false, false, false⟩
          let s := s.modWeir (fun w => { w with nextId := id + 1, pool := w.pool ++ [b] })
          let s := (s.modWeir (fun w => { w with refused := w.refused.filter (· != r) })).modRill r (fun y => { y with ready := rest })
          let s := s.returnBuf r x
          let s := if feCache e then (cacheRecords x.batch.bytes).foldl (fun s c => s.submitJob (.keeper c.1) c.2) s else s
          let s := (owed.filter (fun o => o.size)).foldl (fun s o => s.miss id o.flow) s
          let s := if strict then s.offerStrict
            else match s.batch? id with
              | some b => s.offerAll b
              | none => s
          ((s.settle id).showWeir).refill

/-! ### Frame slots -/

/-- Whether a flow is eligible on its Spout (R357). -/
def State.eligible (s : State) (f : Nat) : Bool :=
  let e := s.flowEntry f
  let x := s.flow f
  let k := s.spoutOf f
  let room := if s.runnel k then decide ((s.spout k).retry.length < 1024) else decide (x.unacked.length ≤ Config.roceWindow)
  isMember e && !x.queue.isEmpty && s.spoutUp k && (x.rate == 0 || decide (256 ≤ x.tokens))
  && !x.cnp && !x.unreachable && !s.isParked f && s.hasCredit f && room

/-- The eligible flow with the smallest start tag on a Spout, and that tag; ties go to the lower flow (R356). -/
def State.nextFlow (s : State) (k : Nat) : Option (Nat × Nat) :=
  let v := (s.spout k).vtime
  ((List.range 256).filter (fun f => s.spoutOf f == k && s.eligible f)).foldl
    (fun (m : Option (Nat × Nat)) f =>
      let t := max v (s.flow f).finish
      match m with
      | some (g, u) => if t < u then some (f, t) else some (g, u)
      | none => some (f, t)) none

/-- The head frame of a flow leaves on a Spout (R344, R347, R349, R352, R354 to R356, R362). -/
def State.sendHead (s : State) (k f start : Nat) : State :=
  let x := s.flow f
  match x.queue with
  | [] => s
  | d :: rest =>
    match s.batch? d.batch with
    | none => s.setFlow f { x with queue := rest }
    | some b =>
      let e := s.flowEntry f
      let run := s.runnel k
      let seq := if run then (s.spout k).lseq else x.psn
      let (out, s) := s.frameOut k f b d seq
      let u : SentFrame := ⟨seq, f, d.batch, d.next, d.resent, out⟩
      let last := d.next + 1 = b.frames
      let x := { x with
        finish := start + ceilDiv 65536 (feWeight e)
        tokens := if x.rate = 0 then x.tokens else x.tokens - 256
        queue := if last then rest else { d with next := d.next + 1 } :: rest
        psn := if run then x.psn else (x.psn + 1) % 2 ^ 24
        unacked := if run then x.unacked else x.unacked ++ [u] }
      let s := s.setFlow f x
      let ep := feEndpoint e
      let s := s.modSpout k (fun y =>
        if run then
          let (g, n) := y.creditOf ep
          { y.setCredit ep g (n + 1) with vtime := start, lseq := (y.lseq + 1) % 2 ^ 32, retry := y.retry ++ [u] }
        else { y with vtime := start })
      let s := s.bumpPair .SPT_TX_FRAMES_LO .SPT_TX_FRAMES_HI k 1
      let s := if d.resent ∧ d.next = 0 then (s.bump WEIR_RESENT.COUNT 1).modBatch d.batch (fun b => { b with resent := true }) else s
      let s := s.trace 5 k b.fsn seq s.traceStamp
      s.emit out

/-- FRAME_SLOT (R356, R430). -/
def frameSlotEffect (k : Nat) (s : State) : State :=
  if s.frozen then s
  else
    match s.nextFlow k with
    | some (f, t) => (s.sendHead k f t).showWeir
    | none => s

/-- One refill of a flow's bucket (R351, R358). (DEDUCED, assumption 68.) -/
def refillFlow (e : List Byte) (x : FlowSt) : FlowSt :=
  if x.cnp then x
  else { x with rate := feRate e, tokens := min (256 * feBurst e) (x.tokens + feRate e) }

/-- SHAPER_REFILL (R358, R430). -/
def shaperEffect (s : State) : State :=
  if s.frozen then s else s.memberFlows.foldl (fun s f => s.modFlow f (refillFlow (s.flowEntry f))) s

/-! ### Tables -/

/-- Whether a group entry with VALID set obeys R346. -/
def groupOk (flow : Nat → List Byte) (e : List Byte) : Bool :=
  let l := geMembers e
  let spouts := l.map (fun f => feSpout (flow f))
  decide (leAt e 0 1 < 4) && decide (1 ≤ geCount e) && decide (geCount e ≤ 24) && allZero ((e.drop 2).take 6)
  && ((e.drop 8).drop (geCount e)).all (fun b => b == 0xFF#8)
  && l.all (fun f => feValid (flow f) && feMember (flow f)) && spouts.eraseDups.length == spouts.length

/-- A flow entry with what a write to a flow in use may change set to zero (R359). -/
def feFixed (e : List Byte) : List Byte := e.take 1 ++ zeros 1 ++ (e.drop 2).take 6 ++ zeros 4 ++ e.drop 12

/-- Whether a flow has a batch queued, in flight, or awaiting a member in the pool (R359). -/
def State.flowBusy (s : State) (f : Nat) : Bool :=
  s.weir.pool.any (fun b => (b.flow == f && (!b.settled || s.inUse b.id)) || (!b.settled && b.owedFlows.contains f))
  || !(s.flow f).queue.isEmpty || !(s.flow f).unacked.isEmpty
  || s.weir.spouts.any (fun k => k.retry.any (fun u => u.flow == f))

/-- A flow takes a new entry: one made VALID starts anew, a rewritten one takes a new PSN, and its Spouts are judged again (R349, R356, R365,
R366). -/
def State.takeFlow (s : State) (f : Nat) (new : List Byte) : State :=
  let old := s.flowEntry f
  let was := feValid old
  let s := s.setFlowEntry f new
  let s :=
    if feValid new = false then s.setFlow f FlowSt.fresh
    else
      let x := if was then (s.flow f) else { FlowSt.fresh with rate := feRate new }
      let x := if was ∧ fePsn new = fePsn old then x else { x with psn := fePsn new }
      if was ∧ feSpout new = feSpout old ∧ feAlt new = feAlt old then s.setFlow f x
      else s.setFlow f { x with
        unreachable := isMember new && !s.usable f, onAlt := !s.spoutUp (feSpout new) && s.spoutUp (feAlt new) }
  s.each 24 (fun k s => s.checkHeld k)

/-- A write of a flow entry (R346, R359): whether it is taken. -/
def State.writeFlow (s : State) (f : Nat) (new : List Byte) : State × Bool :=
  let old := s.flowEntry f
  let free := !feValid old || !s.flowBusy f || decide (feFixed old = feFixed new)
  let tbl := fun g => if g = f then new else s.flowEntry g
  if free ∧ s.weir.groups.all (fun g => !geValid g.2 || groupOk tbl g.2) then (s.takeFlow f new, true) else (s, false)

/-- A write of a group entry (R346, R369): every member is in the ready set when the group is made VALID; a rewrite takes out the members that are
gone, and puts the new ones in. (DEDUCED, assumption 66.) -/
def State.writeGroup (s : State) (g : Nat) (new : List Byte) : State × Bool :=
  if g < 64 ∧ (geValid new = false ∨ groupOk s.flowEntry new) then
    let old := s.groupEntry g
    let s := s.setGroupEntry g new
    let keeps := fun (f : Nat) => !geValid old || (s.readySet g).contains f || !(geMembers old).contains f
    (if geValid new then (s.setReady g ((geMembers new).filter keeps)).offerStrict else s, true)
  else (s, false)

/-- The bytes in the data registers, and a set of them (R374). -/
def State.tblData (s : State) (n : Nat) : List Byte :=
  (List.range n).flatMap (fun i => leBytes 4 (s.word .WEIR_TBL_DATA i).toNat)
def State.setTblData (s : State) (bs : List Byte) : State :=
  s.each (bs.length / 4) (fun i s => s.setWord .WEIR_TBL_DATA i (BitVec.ofNat 32 (leAt bs (4 * i) 4)))

/-- A write of WEIR_TBL_CTRL (R345, R346, R359): GO performs the access; a group number above 63 reads as zeros.
(DEDUCED, assumption 67.) -/
def tblCtrl (w : Word) (s : State) : State :=
  let s := s.swWrite .WEIR_TBL_CTRL 0 w
  if WEIR_TBL_CTRL.GO.cmd w then
    let i := s.get WEIR_TBL_CTRL.INDEX
    let group := s.ison WEIR_TBL_CTRL.TABLE
    let s :=
      if s.ison WEIR_TBL_CTRL.WRITE then
        let (t, ok) := if group then s.writeGroup i (s.tblData 8) else s.writeFlow i (s.tblData 32)
        if ok then t.showWeir else t.ev WEIR_EVENT.TBL_REFUSED
      else s.setTblData (if group then s.groupEntry i else s.flowEntry i)
    s.ev WEIR_EVENT.TBL_DONE
  else s

/-! ### Stalls, readiness, resends -/

/-- The batch that a parked member is stalled on, and its partial delivery's next frame (R361): after an RNR NAK the one whose packet was refused,
else the one being sent. -/
def State.stalledOn (s : State) (f : Nat) : Option (PoolBatch × Nat) :=
  let x := s.flow f
  match x.parked, x.unacked.head?, x.queue.head? with
  | true, some u, _ => (s.batch? u.batch).map (fun b => (b, u.index))
  | _, _, some d => (s.batch? d.batch).map (fun b => (b, d.next))
  | _, _, none => none

/-- STALL_LIMIT (R361): a parked member with a partial delivery stalls. -/
def stallEffect' (f : Nat) (s : State) : State :=
  if s.frozen ∨ s.isParked f = false then s
  else
    match s.stalledOn f with
    | none => s
    | some (b, next) =>
      let k := s.spoutOf f
      let s := if s.runnel k ∧ 0 < next then
          s.sendControl k "ABORT" 0x14 (leBytes 2 (feEndpoint (s.flowEntry f)) ++ zeros 2 ++ leBytes 4 b.fsn) else s
      let s := (s.evi SPT_EVENT.STALL k).ev WEIR_EVENT.STALL
      let s := s.completionRecord (crBytes b 3 (b.maskIn .delivered) (setBit 0 k))
      (s.makeUnreachable f).showWeir

/-- MEMBER_READY (R366, R369): the batches held for the member go to it in FSN order with RESENT, and it joins its STRICT
sets again. -/
def memberReadyEffect (f : Nat) (s : State) : State :=
  let x := s.flow f
  let up := s.usable f
  let x := { x with onAlt := !s.spoutUp (feSpout (s.flowEntry f)) && s.spoutUp (feAlt (s.flowEntry f)) }
  let t := s.setFlow f { x with unreachable := false, timeouts := 0 }
  if x.unreachable ∧ up ∧ t.hasCredit f then
    let held := (t.weir.pool.filter (fun b => b.owedFlows.contains f && !b.strictWait)).map (·.id)
    let t := held.foldl (fun s id => s.offer id f true) t
    let sets := (t.weir.groups.filter (fun g => geValid g.2 && geStrict g.2 && (geMembers g.2).contains f)).map (·.1)
    let t := sets.foldl (fun s g => if (s.readySet g).contains f then s else s.setReady g (s.readySet g ++ [f])) t
    t.offerStrict.showWeir
  else s

/-- A write of WEIR_RESEND (R367); a member that the batch is too large for gets none (R350), and the delivery to an unreachable member waits until it
is ready. (DEDUCED, assumption 70.) -/
def resendCtrl (w : Word) (s : State) : State :=
  let s := s.swWrite .WEIR_RESEND 0 w
  if WEIR_RESEND.GO.cmd w then
    let f := s.get WEIR_RESEND.FLOW
    let fsn := (s.word .WEIR_RESEND_FSN 0).toNat
    let k := s.get WEIR_RESEND.SPOUT
    match s.weir.pool.find? (fun b => b.flow == f && b.fsn == fsn) with
    | some b =>
      let l := b.owed.filter (fun o => !o.size && (k == 0x1F || feSpout (s.flowEntry o.flow) == k))
      (l.foldl (fun s o => s.modFlow o.flow (fun x => { x with queue := x.queue ++ [⟨b.id, true, 0⟩] })) s).showWeir
    | none => s.ev WEIR_EVENT.RESEND_MISS
  else s

/-- REPLAY_HOLD_EXPIRE (R368, R369, R430): a STRICT wait ends, and members not ready miss the batch. -/
def holdExpireEffect (id : Nat) (s : State) : State :=
  match s.batch? id with
  | none => s
  | some b =>
    if s.frozen ∨ b.settled then s
    else
      let gone := b.owedFlows.filter (fun f => (s.flow f).unreachable)
      let s := gone.foldl (fun s f => s.miss id f) s
      let s :=
        if b.strictWait then
          let g := feSpout (s.flowEntry b.flow)
          let s := s.setReady g ((s.readySet g).filter (fun f => !gone.contains f))
          match s.batch? id with
          | some b => (s.offerAll b).offerStrict
          | none => s
        else s
      (s.settle id).showWeir

/-- A write of WEIR_CR_HEAD (R373): entries are released, and records that wait are written. (DEDUCED, assumption 52.) -/
def crHeadEffect (w : Word) (s : State) : State :=
  let old := s.get WEIR_CR_HEAD.HEAD
  let s := s.swWrite .WEIR_CR_HEAD 0 w
  let new := s.get WEIR_CR_HEAD.HEAD
  let n := s.crSize
  let held := s.weir.crHeld
  let freed := if old = new ∧ held = n then n else (new + n - old % n) % n
  let s := s.modWeir (fun x => { x with crHeld := held - min held freed })
  (s.putb WEIR_STATUS.CR_FULL (decide (n ≤ s.weir.crHeld))).flushCr 256

/-- A write of WEIR_CTRL (R373, R374): setting CR_EN resets the tail and PHASE, and what waits is written. -/
def weirCtrl (w : Word) (s : State) : State :=
  let was := s.ison WEIR_CTRL.CR_EN
  let s := s.swWrite .WEIR_CTRL 0 w
  if s.ison WEIR_CTRL.CR_EN ∧ was = false then
    (((s.modWeir (fun x => { x with crHeld := 0, crPhase := 1 })).put WEIR_CR_TAIL.TAIL 0).put WEIR_STATUS.CR_FULL 0).flushCr 256
  else s

/-- CISTERN_UE (R398, R428): a buffer's is a Rill fault; a batch in the pool is MISSED for the members not yet served; the
catalogue's and the map's readers wait. (DESIGN CHOICE, assumption 110.) -/
def cisternUeEffect (g : CisternRegion) (s : State) : State :=
  match g with
  | .buffer r stage => s.rillFault r 7 stage 13
  | .pool id =>
    match s.batch? id with
    | some b =>
      let s := (s.modBatch id (fun b => { b with pooled := true, strictWait := false })).logFault 13 0 0 b.step
      let s := b.owedFlows.foldl (fun s f => (s.miss id f).modFlow f (fun x =>
        { x with queue := x.queue.filter (fun d => d.batch != id) })) s
      (s.settle id).showWeir
    | none => s
  | .catalogue => ((s.ev SVC_EVENT.CISTERN_UE).logFault 13 0 0 0).trigger 10
  | .map => ((s.ev SVC_EVENT.CISTERN_UE).logFault 13 0 0 0).trigger 10
  | .other => s.logFault 13 0 0 0

def execBatchEnqueue (r : Nat) (s : State) : Host.Outcome State Fault Refusal := .next (finish s (enqueueEffect r s))
def execFrameSlot (k : Nat) (s : State) : Host.Outcome State Fault Refusal := .next (finish s (frameSlotEffect k s))
def execShaperRefill (s : State) : Host.Outcome State Fault Refusal := .next (finish s (shaperEffect s))
/-- WEIR_TBL_CTRL written with GO as 1 and WRITE as 0. -/
def execTableRead (w : Word) (s : State) : Host.Outcome State Fault Refusal :=
  .next (finish s (s.viaReg .host .WEIR_TBL_CTRL 0 (WEIR_TBL_CTRL.WRITE.set (WEIR_TBL_CTRL.GO.set w 1) 0)
    (tblCtrl (WEIR_TBL_CTRL.WRITE.set (WEIR_TBL_CTRL.GO.set w 1) 0))))
/-- WEIR_TBL_CTRL written with GO and WRITE as 1. -/
def execTableWrite (w : Word) (s : State) : Host.Outcome State Fault Refusal :=
  .next (finish s (s.viaReg .host .WEIR_TBL_CTRL 0 (WEIR_TBL_CTRL.WRITE.set (WEIR_TBL_CTRL.GO.set w 1) 1)
    (tblCtrl (WEIR_TBL_CTRL.WRITE.set (WEIR_TBL_CTRL.GO.set w 1) 1))))
def execStallLimit (f : Nat) (s : State) : Host.Outcome State Fault Refusal := .next (finish s (stallEffect' f s))
def execMemberReady (f : Nat) (s : State) : Host.Outcome State Fault Refusal := .next (finish s (memberReadyEffect f s))
/-- WEIR_RESEND written with GO as 1. -/
def execResend (w : Word) (s : State) : Host.Outcome State Fault Refusal :=
  .next (finish s (s.viaReg .host .WEIR_RESEND 0 (WEIR_RESEND.GO.set w 1) (resendCtrl (WEIR_RESEND.GO.set w 1))))
def execReplayHoldExpire (id : Nat) (s : State) : Host.Outcome State Fault Refusal :=
  .next (finish s (holdExpireEffect id s))
def execCrHeadWrite (w : Word) (s : State) : Host.Outcome State Fault Refusal :=
  .next (finish s (s.viaReg .host .WEIR_CR_HEAD 0 w (crHeadEffect w)))
def execCisternUe (g : CisternRegion) (s : State) : Host.Outcome State Fault Refusal :=
  .next (finish s (cisternUeEffect g s))

end Sys2Proof.Machine
end

