-- ==== Sys2Proof/Machine/Access.lean ====
section
/-! DEFINITION. The accesses of the host, of Keeper and through JTAG: what a read shows, what a write does in each register, and
the host window (R12, R188, R189, R217, R307, R426, R468 to R478). -/
namespace Sys2Proof.Machine

/-- GLB_STATUS as it reads: copies of other blocks' bits (R481). -/
def State.glbStatus (s : State) : Nat :=
  s.get PWR_STATUS.WARDEN_UP + 2 * s.get HIF_STATUS.KEEPER_UP + 4 * s.get PWR_STATUS.CASCADE_UP
    + 8 * s.get CSC_STATUS.ACTIVE + 16 * s.get AQF_STATUS.READY + 32 * s.get SVC_STATUS.SETTINGS_SAFE
    + 64 * s.get SVC_STATUS.DEBUG_UNLOCKED + 128 * s.get TST_MODE.EN

/-- SDL_TIME0 to SDL_TIME3 (R396). -/
def State.timeWord (s : State) (k : Nat) : Nat :=
  if k = 0 then s.time % 65536
  else if k = 1 then s.time / 65536 % 1000000000
  else if k = 2 then s.time / oneSecond % 2 ^ 32
  else s.time / oneSecond / 2 ^ 32 % 65536

/-- A field of a word that is read is replaced by what the hardware knows now. -/
def Fld.live (f : Fld) (w : Word) (v : Nat) : Word := f.set w v

/-- The seconds left of a trial (R414, R427). -/
def State.trialLeft (s : State) : Nat :=
  if s.ison SVC_STATUS.TRIAL then ceilDiv (s.svc.trialEnd - s.power.uptime) 200000000 else 0

/-- The measured offset of the crossing that DBG_ALIGN names, at the operating point in use (R50, R443). -/
def State.alignOffset (s : State) : Nat :=
  ((s.dbg.offsets.getD (s.get DBG_ALIGN.UNIT) []).getD (s.get PWR_OP.CURRENT) 0) % 2 ^ 24

/-- The virtual time of the Spout that WEIR_VTIME_SEL names (R374). -/
def State.shownVtime (s : State) : Nat := (s.spout (s.get WEIR_VTIME_SEL.SPOUT)).vtime

/-- The suspect numbers as SVC_SUSPECT_SUM and SVC_PEER_LATE show them (R421, R427). -/
def State.suspectWord (s : State) (w : Word) : Word :=
  let l := s.svc.suspects
  SVC_SUSPECT_SUM.COUNT.live (SVC_SUSPECT_SUM.NONE.live (SVC_SUSPECT_SUM.FIRST.live w (l.headD 0))
    (if l.isEmpty then 1 else 0)) l.length
def State.peerWord (s : State) (w : Word) : Word :=
  let n := s.get SVC_PEER_SEL.PEER
  SVC_PEER_LATE.SUSPECT.live (SVC_PEER_LATE.LATE.live w (lateCount s.svc.reports n)) (if s.svc.suspects.contains n then 1 else 0)

/-- DBG_STW_EN as it reads (R428, R448): bit 5 is MIR_LS_CTRL.STOP, bit 0 and the reserved codes are zero. -/
def State.stwEnWord (s : State) (w : Word) : Word :=
  (w &&& 0x7DE#32) ||| (if s.ison MIR_LS_CTRL.STOP then 0x20#32 else 0#32)

/-- The word an entry shows to software: the words and fields that show something else than what a register holds are computed,
SC and WO fields read 0, and so do the reserved halves of SDL_SET0 and SDL_SET3 (R11, R12, R477, R481). -/
def State.live (s : State) (r : Reg) (i : Nat) : Word :=
  let w := r.swRead (s.word r i)
  match r with
  | .GLB_STATUS => BitVec.ofNat 32 s.glbStatus
  | .GLB_CAUSE => BitVec.ofNat 32 s.causeWord
  | .GLB_SPT_CAUSE => BitVec.ofNat 32 s.spoutCauseWord
  | .SDL_TIME => BitVec.ofNat 32 (s.timeWord i)
  | .SDL_SET => if i = 0 ∨ i = 3 then w &&& 0xFFFF#32 else w
  | .BSN_STATUS => BitVec.ofNat 32 s.basinStatus
  | .BSN_POOL_INUSE => BitVec.ofNat 32 (s.poolUsed i)
  | .BSN_POOL_TOTAL => BitVec.ofNat 32 (s.poolTotal i)
  | .INL_STATUS => INL_STATUS.PLAN.live w (if (List.range 4).any (fun k => s.takesLive k i) then 1 else 0)
  | .DBG_STW_EN => s.stwEnWord w
  | .DBG_ALIGN => DBG_ALIGN.OFFSET.live w s.alignOffset
  | .SVC_SUSPECT_SUM => s.suspectWord w
  | .SVC_PEER_LATE => s.peerWord w
  | .SVC_TRIAL => SVC_TRIAL.REMAIN_S.live w s.trialLeft
  | .WEIR_STATUS => WEIR_STATUS.POOL_FULL.live w (if s.poolFull then 1 else 0)
  | .WEIR_VTIME_LO => BitVec.ofNat 32 s.shownVtime
  | .WEIR_VTIME_HI => BitVec.ofNat 32 (s.shownVtime / 2 ^ 32)
  | _ => w

/-- A read of one entry by a requester: a latched word where its requester holds one, a select register's own INST,
else the live word (R474, R476). -/
def State.readEntry (s : State) (rq : Requester) (r : Reg) (k inst : Nat) : Word :=
  if !hasEntry r k inst then 0#32
  else
    let i := entryOf r k inst
    match r.isSelect with
    | some b => (⟨r, 15, 0⟩ : Fld).set (s.live r i) (s.selOf b rq)
    | none =>
      if latches (r, i) then (s.latchOf rq (r, i)).getD (s.live r i) else s.live r i

/-- What a read of an entry latches (R476). -/
def State.latchRead (s : State) (rq : Requester) (r : Reg) (k inst : Nat) : State :=
  (latchedBy (r, entryOf r k inst)).foldl (fun s e => s.setLatch rq e (s.live e.1 e.2)) s

/-- Whether a register ignores writes for now: the ring registers of a queue that is enabled (R219), of the completion
ring while CR_EN is 1 (R374), and of the trace ring while EN is 1 (R448). -/
def State.writeLocked (s : State) (r : Reg) (i : Nat) : Bool :=
  match r with
  | .TASK_SQ_BASE_LO | .TASK_SQ_BASE_HI | .TASK_CQ_BASE_LO | .TASK_CQ_BASE_HI | .TASK_Q_SIZE => s.isoni TASK_Q_CTRL.EN i
  | .WEIR_CR_BASE_LO | .WEIR_CR_BASE_HI => s.ison WEIR_CTRL.CR_EN
  | .DBG_TRACE_BASE_LO | .DBG_TRACE_BASE_HI => s.ison DBG_TRACE_CTRL.EN
  | _ => false

/-- A software write of one entry of a register that carries no command: a counter pair's high word is staged, its low word
takes a staged high word along (R476), the rest follows the access codes (R12). -/
def State.writeEntry (s : State) (rq : Requester) (r : Reg) (k inst : Nat) (w : Word) : State :=
  let i := entryOf r k inst
  if !hasEntry r k inst || s.writeLocked r i then s
  else if r.stagesHigh then s.setStaged rq (r, i) (some w)
  else
    match r.widePair with
    | some (hi, true) =>
      match s.stagedOf rq (hi, i) with
      | some h => ((s.setWord r i w).setWord hi i h).setStaged rq (hi, i) none
      | none => s.setWord r i w
    | _ => s.swWrite r i w

/-! ### Writes -/

/-- MIR_CTRL written by an access that says nothing of the log at the destination (R503): with START, what a destination in host
memory holds is a free value. -/
def mirCtrlOpen (w : Word) (s : State) : State :=
  if MIR_CTRL.START.cmd w ∧ MIR_CTRL.DEST.cmd w = false then replayStartEffect w [] s
  else if MIR_CTRL.START.cmd w then
    let n := s.free
    let size := s.get MIR_DEST_SIZE.SIZE_MIB * 2 ^ 20
    let log := (List.range size).map (fun i => BitVec.ofNat 8 (Config.freeNat 21 (n + i)))
    replayStartEffect w log { s with free := n + size }
  else mirCtrlEffect w s

/-- A threshold of a Basin pool is written: what follows from it shows from the next cycle (R12, R314). -/
def thresholdEffect (p : Nat) (w : Word) (s : State) : State := showBasin s (s.swWrite .BSN_POOL_THR p w)

/-- A software write of entry `i` of a register, with the command that the word carries. -/
def State.regEffect (s : State) (rq : Requester) (r : Reg) (k inst : Nat) (w : Word) : State :=
  match r with
  | .MIR_CTRL => mirCtrlOpen w s
  | .MIR_LS_CTRL => lsCtrl w s
  | .CSC_LOAD_CTRL => loadCtrl w s
  | .CSC_ACT_CTRL => actCtrl w s
  | .CSC_SPARE_MAP => spareMapEffect w s
  | .CSC_SIGN_CTRL => signCtrlEffect rq w s
  | .SLU_CTRL => sluCtrl w s
  | .SLU_PROBE_CTRL => probeCtrl w s
  | .AQF_DIE_CMD => dieCmdEffect w s
  | .AQF_DFL_ACK => dflAckEffect w s
  | .AQF_WB => (s.swWrite .AQF_WB 0 w).showDies
  | .NFC_CTRL => nfcCtrl inst w s
  | .HIF_CTRL => hifCtrl w s
  | .TASK_GO => goEffect k w s
  | .TASK_Q_CTRL => queueCtrl k w s
  | .TASK_CQ_HEAD => cqHeadEffect k w s
  | .RSV_OWNER => ownerWrite inst w s
  | .RSV_FIELD_CTRL => fieldBurnEffect w s
  | .BSN_POOL_BANKS => poolBanksEffect k w s
  | .BSN_POOL_THR => thresholdEffect k w s
  | .BSN_CPOOL => cpoolEffect w s
  | .BSN_MIN => minEffect (k / 8) (k % 8) w s
  | .PBL_JOB_CTRL => pebbleCtrl w s
  | .SPT_CTRL => (s.swWrite .SPT_CTRL inst w).sptCtrlOne inst (SPT_CTRL.RETRAIN.cmd w)
  | .WEIR_CTRL => weirCtrl w s
  | .WEIR_TBL_CTRL => tblCtrl w s
  | .WEIR_RESEND => resendCtrl w s
  | .WEIR_CR_HEAD => crHeadEffect w s
  | .SDL_CTRL => sdlCtrl w s
  | .SDL_CLOCK => (s.swWrite .SDL_CLOCK 0 w).showSource
  | .SDL_PORT => (s.swWrite .SDL_PORT k w).showSource
  | .INL_CTRL => inlCtrlOne inst (s.swWrite .INL_CTRL inst w)
  | .SVC_CTRL => svcCtrl w s
  | .SVC_BARRIER_HI => barrierCtrl w s
  | .SVC_ENG_CMD => engCmd w s
  | .DBG_STW_CTRL => stwCtrl w s
  | .DBG_BRK_CTRL => brkCtrl w s
  | .DBG_SNAP => snapCtrl w s
  | .DBG_TRACE_CTRL => traceCtrl w s
  | .TST_LOOP_CTRL => loopCtrlOpen w s
  | .PWR_RST_CTRL => rstCtrl w s
  | _ => s.writeEntry rq r k inst (r.clampWord w)

/-- A write of one instance of a register: a select register takes the requester's INST alone (R474); an instance that has no
such register, or that ignores writes for now, keeps what it holds. -/
def State.writeOne (s : State) (rq : Requester) (r : Reg) (k inst : Nat) (w : Word) : State :=
  match r.isSelect with
  | some b => s.setSel b rq ((⟨r, 15, 0⟩ : Fld).get w)
  | none =>
    if !hasEntry r k inst || s.writeLocked r (entryOf r k inst) then s else s.regEffect rq r k inst w

/-- The entries, of those written, in which a written word clears an event bit. -/
def State.clears (s : State) (r : Reg) (written : List Nat) (w : Word) : List Nat :=
  written.filter (fun i => (s.word r i &&& r.accMask .w1c &&& w) != 0#32)

/-- A host write that clears event bits of a block and leaves its enabled summary at 1 signals the vector again
(R478): the vectors raised both before and after, when the write cleared an event bit. A write that enables a summary
standing at 1 makes its enabled summary rise, which `finish` signals. -/
def resignal (rq : Requester) (r : Reg) (written : List Nat) (w : Word) (before after : State) : State :=
  let cleared := before.clears r written w
  if rq = .host ∧ cleared ≠ [] then
    let both := after.raised.filter (fun v => before.raised.contains v)
    let mine := match r.place.blk.cause with
      | some 12 => both.filter (fun v => decide (20 ≤ v) && decide (v < 44) && cleared.contains (v - 20))
      | some c => both.filter (fun v => v == vectorOf c)
      | none => []
    mine.foldl State.signal after
  else after

/-- A write of a register in every instance that the requester selects (R475), with the signals of R478. -/
def State.writeReg (s : State) (rq : Requester) (r : Reg) (k : Nat) (w : Word) : State :=
  let l := s.targets rq r
  let t := l.foldl (fun s inst => s.writeOne rq r k inst w) s
  resignal rq r (l.map (entryOf r k)) w s t

/-- A write of the MSI-X table, one word at a time (R470): the pending-bit array ignores writes. An unmasked vector whose pending
bit is set signals at once. -/
def State.writeMsix (s : State) (off value : Nat) : State :=
  if off < 0xC400 then
    let i := (off - 0xC000) / 4
    let s : State := { s with host := { s.host with msixTable := assocPut id msixDflt i (value % 2 ^ 32) s.host.msixTable } }
    let v := i / 4
    if bitOf s.host.pba v ∧ s.msixWord (4 * v + 3) % 2 = 0 then
      ({ s with host := { s.host with pba := clearBit s.host.pba v } } : State).signal v
    else s
  else s

/-- Bytes of the MSI-X structures. -/
def State.readMsix (s : State) (off size : Nat) : List Byte :=
  if off < 0xC400 then
    ((List.range (size / 4)).map (fun i => leBytes 4 (s.msixWord ((off - 0xC000) / 4 + i)))).flatten
  else (leBytes 8 s.host.pba).drop (off - 0xD000) |>.take size

/-- A register write that is served (R471, R472, R475). -/
def State.doWrite (s : State) (rq : Requester) (bar off size value : Nat) : State :=
  let w : Word := BitVec.ofNat 32 value
  let reason := s.judge rq bar off size (some w)
  if reason ≠ 0 then s.refuseAccess rq bar off size true reason
  else if msixAt bar off then
    let s := s.writeMsix off value
    if size = 8 then s.writeMsix (off + 4) (value / 2 ^ 32) else s
  else
    match regAt bar off with
    | some (r, k) => s.writeReg rq r k w
    | none => s

/-- A register read that is served (R471, R474, R476). -/
def State.doRead (s : State) (rq : Requester) (bar off size : Nat) : State :=
  let reason := s.judge rq bar off size none
  if reason ≠ 0 then s.refuseAccess rq bar off size false reason
  else if msixAt bar off then s.emit (.reply rq (s.readMsix off size))
  else
    match regAt bar off with
    | some (r, k) =>
      let inst := (s.targets rq r).headD 0
      (s.latchRead rq r k inst).emit (.reply rq (leBytes 4 (s.readEntry rq r k inst).toNat))
    | none => s

/-- Whether every byte of a BAR4 access lies in a bank whose owner is the host window, and that no handover takes (R189, R308). -/
def State.windowOk (s : State) (addr len : Nat) : Bool :=
  (List.range (ceilDiv (addr % 262144 + len) 262144)).all (fun i =>
    decide (addr / 262144 + i < 1024) && s.ownerClass (addr / 262144 + i) == clsHost
    && !s.isoni RSV_OWNER.BUSY (addr / 262144 + i))

/-- A BAR4 access that is served (R187 to R189, R305, R307): none beyond the maximum payload size, and a write beyond it is a Malformed TLP
too, as the PCIe standard has it (PRESUMED, assumption 114). A read may report a corrected column or an uncorrectable word of its
bank, and the latter is answered with an error. (DEDUCED, assumption 15.) -/
def State.doBar4 (s : State) (addr len : Nat) (write : Option (List Byte)) (corrected : Option Nat) (uncorr : Bool) : State :=
  if s.host.maxPayload < len then
    let s := s.refuseAccess .host 4 addr len write.isSome 6
    if write.isSome then s.emit (.aerReport .malformed) else s
  else if s.windowOk addr len = false then s.refuseAccess .host 4 addr len write.isSome 6
  else
    match write with
    | some bs => s.wrBytes addr (bs.take len)
    | none =>
      let bank := addr / 262144
      let s := match corrected with
        | some c => s.eccCorrected bank c
        | none => s
      if uncorr then ((s.eccUncorr bank).logFault 8 0 bank 0).emit (.readError .host .abort)
      else s.emit (.reply .host (s.rdBytes addr len))

/-! ### When an access is served -/

/-- Whether an offset lies in a block that is served in every power state (R217): HIF, TASK, GLB, PWR, SVC. -/
def servedAt (bar off : Nat) : Bool :=
  bar == 2 || decide (off < 0x40000) || (decide (0x170000 ≤ off) && decide (off < 0x200000))

/-- Whether a requester can make accesses at an offset now: its register's domain is out of reset, and the JTAG access is open
(R426, R461). (DEDUCED, assumption 12.) (DEDUCED, assumption 13.) -/
def State.canAccess (s : State) (rq : Requester) (bar off : Nat) : Bool :=
  (bar == 0 || bar == 2) && !s.power.porHeld && (rq != .jtag || s.ison SVC_STATUS.DEBUG_UNLOCKED)
  && (match regAt bar off with
      | some (r, _) => s.reachable r
      | none => s.power.resetPhase != .held)

/-- A write access: below P0 it is held where its block sleeps (R217). -/
def writeAccess (rq : Requester) (bar off size value : Nat) (s : State) : State :=
  if s.canAccess rq bar off = false then s
  else if s.power.state ≠ 0 ∧ servedAt bar off = false then s.holdAccess rq (.write bar off size value)
  else s.doWrite rq bar off size value

/-- A read access. -/
def readAccess (rq : Requester) (bar off size : Nat) (s : State) : State :=
  if s.canAccess rq bar off = false then s
  else if s.power.state ≠ 0 ∧ servedAt bar off = false then s.holdAccess rq (.read bar off size)
  else s.doRead rq bar off size

/-- A BAR4 access: below P0 it is held (R217). -/
def windowAccess (addr len : Nat) (write : Option (List Byte)) (corrected : Option Nat) (uncorr : Bool) (s : State) : State :=
  if s.power.porHeld ∨ s.power.resetPhase = .held ∨ len = 0 then s
  else if s.power.state ≠ 0 then s.holdAccess .host (.bar4 addr len write corrected uncorr)
  else s.doBar4 addr len write corrected uncorr

/-- An access that was held is served. -/
def State.serve (s : State) (a : HeldAccess) : State :=
  match a.kind with
  | .write bar off size value => s.doWrite a.rq bar off size value
  | .read bar off size => s.doRead a.rq bar off size
  | .entry r i w => if r.place.perInst then s.writeOne a.rq r (i / 1024) (i % 1024) w else s.writeOne a.rq r i 0 w
  | .replay w log => replayStartEffect w log s
  | .bar4 addr len write corrected uncorr => s.doBar4 addr len write corrected uncorr

/-- A write access. A value that the host must never write is stored, as the access code RW has it (R12).
(DESIGN CHOICE, assumption 11.) -/
def execRegisterWrite (rq : Requester) (bar off size value : Nat) (s : State) : Host.Outcome State Fault Refusal :=
  .next (finish s (writeAccess rq bar off size value s))

/-- A write of a select register (R473, R474). -/
def execSelectWrite (rq : Requester) (b : SelBlock) (value : Nat) (s : State) : Host.Outcome State Fault Refusal :=
  .next (finish s (writeAccess rq 0 (selReg b).place.base 4 value s))

/-- A read of a low word, which latches the words beside it (R14, R376, R439, R476). -/
def execLowWordRead (rq : Requester) (bar off : Nat) (s : State) : Host.Outcome State Fault Refusal :=
  .next (finish s (readAccess rq bar off 4 s))

def execBar4Access (addr len : Nat) (write : Option (List Byte)) (corrected : Option Nat) (uncorr : Bool) (s : State) :
    Host.Outcome State Fault Refusal :=
  .next (finish s (windowAccess addr len write corrected uncorr s))

def execRegisterRead (rq : Requester) (bar off size : Nat) (s : State) : Host.Outcome State Fault Refusal :=
  .next (finish s (readAccess rq bar off size s))

end Sys2Proof.Machine
end

