-- ==== Sys2Proof/Machine/Vocab.lean ====
section
/-! DEFINITION. Vocabulary loads (R286, R287) and the vocabulary caches of the Reed lanes (R296, R297). -/
namespace Sys2Proof.Machine

/-- Whether a weave in a slot that is VALID or ACTIVE has a Reed stage that names a vocabulary slot (R287). -/
def State.vocabNamed (s : State) (slot : Nat) : Bool :=
  s.cascade.slots.any (fun w => (w.state == .valid || w.state == .active)
    && w.weave.any (fun x => x.rills.any (fun r => r.stages.any (fun g =>
      g.type == 6 && (reedCfgOf g.cfg).vocabSlot == slot))))

/-- A VOCAB_LOAD takes what has arrived of its image (R286): its slot reads LOADING until the image is whole and has been checked,
or the read has failed; the image that the slot held stays until then, for a load that ends without effect (R211, R215). -/
def State.vocabTake (s : State) (x : Task) (r : HostRead) : State :=
  let slot := x.target
  let s := s.showVocab slot 1 0 0 0
  let s := if r.fail.isSome then s.vocabFailed x else s
  s.onSource x r (fun image s =>
    let err := vocabErr image x.count
    if err = 0 then
      let tag := leAt (sha384 image) 0 8
      ((s.setVocab slot image).showVocab slot 2 0 (vocabOf image).entries tag).endTask x.id 0 tag
    else ((s.setVocab slot []).showVocab slot 3 err 0 0).endTask x.id 0x0020 0)

/-- VOCAB_LOAD (R203, R209, R286, R287): judged once, when it first starts; one that runs again after a Keeper restart is not.
(DESIGN CHOICE, assumption 83.) -/
def vocabLoadEffect (t : Nat) (image : HostRead) (s : State) : State :=
  s.runTask t 0x14 (fun x s =>
    if x.prior.isSome then s.vocabTake x image
    else if s.ison CSC_STATUS.LOADER_BUSY ∨ s.vocabNamed x.target then
      (s.puti REED_VOCAB_ERR.ERR (vocabInst x.target) veInUse).endTask t 0x0011 0
    else
      let prior := some (s.slotShows x.target)
      (s.modTask t (fun y => { y with prior := prior })).vocabTake { x with prior := prior } image)

/-- Whether a line of an image lies in the pinned part of a cache: the first PIN_BYTES of the node table (R297). -/
def pinnedLine (img : List Byte) (pin line : Nat) : Bool :=
  let a := leAt img 24 4
  decide (a ≤ 64 * line) && decide (64 * line < a + pin)

/-- The sets of a cache beside its pinned part: 8 lines of 64 bytes each. -/
def cacheSets (pin : Nat) : Nat := max 1 ((1048576 - pin) / 512)

/-- The lines of a cache that share a set with a line that is not pinned (R297). -/
def cachePeers (img : List Byte) (pin line : Nat) (l : List Nat) : List Nat :=
  let n := cacheSets pin
  l.filter (fun x => x != line && !pinnedLine img pin x && x % n == line % n)

/-- A cache with a line filled: a pinned line evicts none, and of a full set of 8 the line that was used least recently gives
way (R297). -/
def fillLine (img : List Byte) (pin line : Nat) (l : List Nat) : List Nat :=
  let peers := cachePeers img pin line l
  let gone := if pinnedLine img pin line ∨ peers.length < 8 then none else peers.getLast?
  line :: l.filter (fun x => x != line && some x != gone)

/-- CACHE_LINE_FILL (R296, R297, R300): a miss of a lane at work waits `stall` cycles for its line. What the lane has used for the sample
before it misses the line orders the lines of its cache. (DESIGN CHOICE, assumption 83.) -/
def cacheFillEffect (lane line stall : Nat) (parity : Bool) (s : State) : State :=
  let r := s.geti REED_STATUS.RILL lane
  let k := s.geti REED_STATUS.STAGE lane
  if s.geti REED_STATUS.STATE lane ≠ 1 ∨ s.still then s
  else
    match s.wstage? r k, (s.stageSt? r k).bind (·.run) with
    | some g, some run =>
      let c := reedCfgOf g.cfg
      let img := s.vocabs.getD c.vocabSlot []
      let before := (Config.lineUses img g.cfg run.item.content.toBytes).takeWhile (· != line)
      let s := s.modStage r k (fun y => { y with run := y.run.map (fun z => { z with stall := z.stall + stall }) })
      let s := (s.bumpi REED_MISSES.COUNT lane 1).bumpPair .REED_STALL_LO .REED_STALL_HI lane stall
      let s := if parity then s.evi REED_EVENT.PARITY lane else s
      { s with caches := modAt (fun l => fillLine img c.pinBytes line (touchLines before l)) lane s.caches }
    | _, _ => s

def execVocabLoad (t : Nat) (image : HostRead) (s : State) : Host.Outcome State Fault Refusal :=
  .next (finish s (vocabLoadEffect t image s).showTasks)
def execCacheLineFill (lane line stall : Nat) (parity : Bool) (s : State) : Host.Outcome State Fault Refusal :=
  .next (finish s (cacheFillEffect lane line stall parity s))

end Sys2Proof.Machine
end

