-- ==== Sys2Proof/Machine/Wake.lean ====
section
/-! DEFINITION. The exit to P0 (R216, R217, R458 to R460), and what the clocks do of their own accord (R139, R371, R376, R386). -/
namespace Sys2Proof.Machine

/-- A start of the Cascade is due (R459, R460). -/
def State.dueStart (s : State) : State :=
  let s := (s.put PWR_STATUS.CASCADE_UP 0).put PWR_STATUS.START_TRIES 0
  (s.modPower (fun p => { p with startPhase := .reset })).powerClusters

/-- What the exit from P3 restores of the active weave (R459): the owners of its Rill banks and its constants. -/
def State.restoreWeave (s : State) : State :=
  match s.weave? with
  | some w => (s.setOwners w).copyConstants w
  | none => s

/-- The accesses that were held are served, in their order (R217). -/
def State.serveHeld (s : State) : State :=
  let l := s.power.held
  l.foldl (fun s a => s.serve a) (s.modPower (fun p => { p with held := [] }))

/-- P_EXIT (R217, R219, R458, R459, R467): a wake source has fired, and the device is in P0 again; `us` is how long the exit took. -/
def exitEffect (us : Nat) (s : State) : State :=
  let was := s.power.state
  if was = 0 ∨ s.power.waking = 0 ∨ s.svc.wardenDown ∨ s.power.porHeld ∨ s.draining then s
  else
    let s := (s.setWord .PWR_WAKE_CAUSE 0 (BitVec.ofNat 32 s.power.waking)).ev PWR_EVENT.WAKE
    let s := (s.put HIF_PWR_STATUS.LAST_EXIT_US (min 65535 us)).modPower (fun p => { p with waking := 0 })
    let s := (s.setPState 0).ev HIF_EVENT.P_EXIT
    let s := if 2 ≤ was then s.dueStart else s
    let s := if was = 3 then s.restoreWeave else s
    s.serveHeld.refill

def execPExit (us : Nat) (s : State) : Host.Outcome State Fault Refusal := .next (finish s (exitEffect us s))

/-! ### One cycle of the always-on clock -/

/-- The Cascade cycles in always-on cycle `n` at an operating point: 6.5 to 10 in each 5 ns (R452), in whole cycles.
(DEDUCED, assumption 96.) -/
def ccPerTick (op n : Nat) : Nat := (n + 1) * (13 + op) / 2 - n * (13 + op) / 2

/-- Whether a Rill without a part holds for a slot in HOLDING (R123), or at the boundary of an activation that failed (R99, R501). -/
def State.heldRill (s : State) (r : Nat) : Bool :=
  (List.range 4).any (fun k => s.slotState k == 2 && (s.slot k).plan.any (fun e => bitOf e.1.rillMask r))
  || (s.cascade.act.phase == .holding && (s.weave?.any (fun w => bitOf w.rillMask r)))

/-- Rills that hold because their next input has not been released (R23, R139). -/
def State.holdingRills (s : State) : Nat :=
  if s.still then 0
  else s.rills.zipIdx.countP (fun e =>
    (e.1.mode == .running || e.1.mode == .stopping) && (e.1.holding || (e.1.part.isNone && s.heldRill e.2)))

/-- Rills that hold at a batch boundary because every output buffer of theirs is with the Weir (R24). -/
def State.boundaryRills (s : State) : Nat :=
  if s.still then 0
  else s.rills.countP (fun x => x.part.isNone && x.mode == .running && x.freeBufs.isEmpty && !x.ready.isEmpty)

/-- The deficits grow (R139, R371); the fabric makes six cycles in one of the always-on clock.
(DEDUCED, assumption 96.) -/
def State.tickDeficits (s : State) : State :=
  let cc := ccPerTick (s.get PWR_OP.CURRENT) s.power.uptime
  let n := s.holdingRills * cc
  let m := s.boundaryRills * 6
  let s := if n = 0 then s else s.bumpPair .SLU_DEFICIT_LO .SLU_DEFICIT_HI 0 n
  if m = 0 then s else s.bumpPair .WEIR_DEFICIT_LO .WEIR_DEFICIT_HI 0 m

/-- The levels of PPS_OUT and REF10_OUT at a time (R386). -/
def ppsHigh (width t : Nat) : Bool := decide (t % oneSecond < 65536 * 1000 * width)
def ref10High (t : Nat) : Bool := decide (t % (65536 * 100) < 65536 * 50)

/-- An output pin goes to a level, or stops being driven; no change leaves it alone. -/
def State.drivePin (s : State) (name : String) (old new : Option Bool) : State :=
  if old = new then s
  else
    match new with
    | some l => s.emit (.pin name l)
    | none => s.emit (.pinOff name)

/-- The time outputs from one time to the next (R386): PPS_OUT rises at a whole second and stays high for its width; a pin that is not enabled, or
whose Sundial does not serve time, is high-impedance. -/
def State.pinEdges (s : State) (t0 t1 : Nat) : State :=
  let pps :=
    if s.serves = false ∨ s.ison SDL_CTRL.PPS_OUT_EN = false then none
    else if t0 / oneSecond ≠ t1 / oneSecond then some true
    else some (s.sundial.ppsOut == some true && ppsHigh (s.get SDL_PPS.WIDTH_US) t1)
  let ref := if s.serves = false ∨ s.ison SDL_CTRL.REF10_OUT_EN = false then none else some (ref10High t1)
  let u := (s.drivePin "PPS_OUT" s.sundial.ppsOut pps).drivePin "REF10_OUT" s.sundial.ref10Out ref
  { u with sundial := { u.sundial with ppsOut := pps, ref10Out := ref } }

/-- One cycle of the always-on clock, in which no command comes (assumption 7). -/
def State.tickClock (s : State) : State :=
  if s.power.porHeld then s
  else
    let t := s.tickTime.tickDeficits
    (t.pinEdges s.time t.time).modPower (fun p => { p with uptime := p.uptime + 1 })

end Sys2Proof.Machine
end

