-- ==== Sys2Proof/Machine/Dispatch.lean ====
section
/-! DEFINITION. The dispatch of the commands: one arm per constructor. -/
namespace Sys2Proof.Machine

def exec (i : Instr) (s : State) : Host.Outcome State Fault Refusal :=
  match i with
  | .registerWrite rq bar off size value => Sys2Proof.Machine.execRegisterWrite rq bar off size value s
  | .selectWrite rq b value => Sys2Proof.Machine.execSelectWrite rq b value s
  | .lowWordRead rq bar off => Sys2Proof.Machine.execLowWordRead rq bar off s
  | .bar4Access addr len write corrected uncorr => Sys2Proof.Machine.execBar4Access addr len write corrected uncorr s
  | .sampleRelease rill => Sys2Proof.Machine.execSampleRelease rill s
  | .delay rill => Sys2Proof.Machine.execDelay rill s
  | .start rill => Sys2Proof.Machine.execStart rill s
  | .runFixed rill => Sys2Proof.Machine.execRunFixed rill s
  | .wait rill => Sys2Proof.Machine.execWait rill s
  | .bind rill => Sys2Proof.Machine.execBind rill s
  | .loop rill => Sys2Proof.Machine.execLoop rill s
  | .batchEnd rill => Sys2Proof.Machine.execBatchEnd rill s
  | .stageDone rill stage wait extra => Sys2Proof.Machine.execStageDone rill stage wait extra s
  | .startTick => Sys2Proof.Machine.execStartTick s
  | .markerPhaseEnd measured => Sys2Proof.Machine.execMarkerPhaseEnd measured s
  | .tagMismatch rill crossing => Sys2Proof.Machine.execTagMismatch rill crossing s
  | .mirrorDrain ok => Sys2Proof.Machine.execMirrorDrain ok s
  | .mirCtrlWrite w => Sys2Proof.Machine.execMirCtrlWrite w s
  | .mirrorModeChange => Sys2Proof.Machine.execMirrorModeChange s
  | .replayStart w log => Sys2Proof.Machine.execReplayStart w log s
  | .lockstepWindow => Sys2Proof.Machine.execLockstepWindow s
  | .lockstepFrame dclass windowM1 first digest cycles => Sys2Proof.Machine.execLockstepFrame dclass windowM1 first digest cycles s
  | .lockstepLost => Sys2Proof.Machine.execLockstepLost s
  | .loadStart w => Sys2Proof.Machine.execLoadStart w s
  | .loadAbort => Sys2Proof.Machine.execLoadAbort s
  | .loadTransferDone image => Sys2Proof.Machine.execLoadTransferDone image s
  | .loadStructureDone => Sys2Proof.Machine.execLoadStructureDone s
  | .loadSignatureDone => Sys2Proof.Machine.execLoadSignatureDone s
  | .loadStagingDone => Sys2Proof.Machine.execLoadStagingDone s
  | .arm w => Sys2Proof.Machine.execArm w s
  | .disarm w => Sys2Proof.Machine.execDisarm w s
  | .weaveBoundary => Sys2Proof.Machine.execWeaveBoundary s
  | .actDrainDone => Sys2Proof.Machine.execActDrainDone s
  | .actSwapDone => Sys2Proof.Machine.execActSwapDone s
  | .actOwnershipDone => Sys2Proof.Machine.execActOwnershipDone s
  | .actConstantsDone => Sys2Proof.Machine.execActConstantsDone s
  | .actPinningDone => Sys2Proof.Machine.execActPinningDone s
  | .spareMapWrite w => Sys2Proof.Machine.execSpareMapWrite w s
  | .signCtrlWrite rq w => Sys2Proof.Machine.execSignCtrlWrite rq w s
  | .bankViolation engine stage bank word => Sys2Proof.Machine.execBankViolation engine stage bank word s
  | .jetDetection jet unit column opIndex => Sys2Proof.Machine.execJetDetection jet unit column opIndex s
  | .engineFault inst => Sys2Proof.Machine.execEngineFault inst s
  | .reedFault lane => Sys2Proof.Machine.execReedFault lane s
  | .reservoirUncorr bank reader => Sys2Proof.Machine.execReservoirUncorr bank reader s
  | .cisternUe region => Sys2Proof.Machine.execCisternUe region s
  | .rillStop rill => Sys2Proof.Machine.execRillStop rill s
  | .engineSelfTestDone rill pass => Sys2Proof.Machine.execEngineSelfTestDone rill pass s
  | .realignDone rill measured => Sys2Proof.Machine.execRealignDone rill measured s
  | .planArm t image => Sys2Proof.Machine.execPlanArm t image s
  | .planTakeEffect slot => Sys2Proof.Machine.execPlanTakeEffect slot s
  | .fetchIssue => Sys2Proof.Machine.execFetchIssue s
  | .sampleFetchDone n => Sys2Proof.Machine.execSampleFetchDone n s
  | .sluPause w => Sys2Proof.Machine.execSluPause w s
  | .walkClr => Sys2Proof.Machine.execWalkClr s
  | .probeStart w => Sys2Proof.Machine.execProbeStart w s
  | .probeDone => Sys2Proof.Machine.execProbeDone s
  | .nfcRetrain channel w => Sys2Proof.Machine.execNfcRetrain channel w s
  | .zqCalibration channel => Sys2Proof.Machine.execZqCalibration channel s
  | .unitAdmit t data => Sys2Proof.Machine.execUnitAdmit t data s
  | .unitProgrammed loc => Sys2Proof.Machine.execUnitProgrammed loc s
  | .pageReadDone u outcome => Sys2Proof.Machine.execPageReadDone u outcome s
  | .rtWindowEnd die ageBin flips => Sys2Proof.Machine.execRtWindowEnd die ageBin flips s
  | .foldUnit u loc => Sys2Proof.Machine.execFoldUnit u loc s
  | .relocateUnit u loc => Sys2Proof.Machine.execRelocateUnit u loc s
  | .copyBlockClose die block => Sys2Proof.Machine.execCopyBlockClose die block s
  | .checkpointSegment => Sys2Proof.Machine.execCheckpointSegment s
  | .pwrFailNFall => Sys2Proof.Machine.execPwrFailNFall s
  | .pfSafe powerRemains => Sys2Proof.Machine.execPfSafe powerRemains s
  | .mountComplete ms => Sys2Proof.Machine.execMountComplete ms s
  | .dflAckWrite w => Sys2Proof.Machine.execDflAckWrite w s
  | .dieTimeout die => Sys2Proof.Machine.execDieTimeout die s
  | .programFail die block erase => Sys2Proof.Machine.execProgramFail die block erase s
  | .dieSuspend w => Sys2Proof.Machine.execDieSuspend w s
  | .dieBringBack w => Sys2Proof.Machine.execDieBringBack w s
  | .dieRetire w => Sys2Proof.Machine.execDieRetire w s
  | .bringBackDone die pass => Sys2Proof.Machine.execBringBackDone die pass s
  | .autoBack die => Sys2Proof.Machine.execAutoBack die s
  | .lifeEval => Sys2Proof.Machine.execLifeEval s
  | .taskGo q w => Sys2Proof.Machine.execTaskGo q w s
  | .taskFetch entry list reason => Sys2Proof.Machine.execTaskFetch entry list reason s
  | .nop t => Sys2Proof.Machine.execNop t s
  | .readExtent t units => Sys2Proof.Machine.execReadExtent t units s
  | .writeExtent t => Sys2Proof.Machine.execWriteExtent t s
  | .deallocate t => Sys2Proof.Machine.execDeallocate t s
  | .flush t => Sys2Proof.Machine.execFlush t s
  | .inject t payload => Sys2Proof.Machine.execInject t payload s
  | .format t descriptor => Sys2Proof.Machine.execFormat t descriptor s
  | .cryptErase t => Sys2Proof.Machine.execCryptErase t s
  | .logRead t => Sys2Proof.Machine.execLogRead t s
  | .catalogueLoad t entries => Sys2Proof.Machine.execCatalogueLoad t entries s
  | .vocabLoad t image => Sys2Proof.Machine.execVocabLoad t image s
  | .fwDownload t chunk => Sys2Proof.Machine.execFwDownload t chunk s
  | .fwActivate t => Sys2Proof.Machine.execFwActivate t s
  | .fwCommit t => Sys2Proof.Machine.execFwCommit t s
  | .fwRevert t => Sys2Proof.Machine.execFwRevert t s
  | .ledgerWrite t data => Sys2Proof.Machine.execLedgerWrite t data s
  | .ledgerRead t => Sys2Proof.Machine.execLedgerRead t s
  | .power t => Sys2Proof.Machine.execPower t s
  | .telemetry t => Sys2Proof.Machine.execTelemetry t s
  | .debugUnlock t message => Sys2Proof.Machine.execDebugUnlock t message s
  | .taskComplete t => Sys2Proof.Machine.execTaskComplete t s
  | .cqCoalesceTimer q => Sys2Proof.Machine.execCqCoalesceTimer q s
  | .hostStall posted => Sys2Proof.Machine.execHostStall posted s
  | .queueEnable q w => Sys2Proof.Machine.execQueueEnable q w s
  | .qreset q w => Sys2Proof.Machine.execQreset q w s
  | .cqHeadWrite q w => Sys2Proof.Machine.execCqHeadWrite q w s
  | .functionLevelReset => Sys2Proof.Machine.execFunctionLevelReset s
  | .linkDown => Sys2Proof.Machine.execLinkDown s
  | .linkRecovery => Sys2Proof.Machine.execLinkRecovery s
  | .softReset w => Sys2Proof.Machine.execSoftReset w s
  | .softDone => Sys2Proof.Machine.execSoftDone s
  | .drainExpired => Sys2Proof.Machine.execDrainExpired s
  | .p1Entry => Sys2Proof.Machine.execP1Entry s
  | .p2Entry => Sys2Proof.Machine.execP2Entry s
  | .p3Entry => Sys2Proof.Machine.execP3Entry s
  | .powerTaskTimeout => Sys2Proof.Machine.execPowerTaskTimeout s
  | .handoverGo bank w => Sys2Proof.Machine.execHandoverGo bank w s
  | .handoverDone bank => Sys2Proof.Machine.execHandoverDone bank s
  | .poolBanksWrite pool w => Sys2Proof.Machine.execPoolBanksWrite pool w s
  | .cpoolWrite w => Sys2Proof.Machine.execCpoolWrite w s
  | .minWrite client pool w => Sys2Proof.Machine.execMinWrite client pool w s
  | .bufferRequest requests => Sys2Proof.Machine.execBufferRequest requests s
  | .bufferFree client pool buffer => Sys2Proof.Machine.execBufferFree client pool buffer s
  | .fieldBurn w => Sys2Proof.Machine.execFieldBurn w s
  | .burnDone => Sys2Proof.Machine.execBurnDone s
  | .cacheLineFill lane line stall parity => Sys2Proof.Machine.execCacheLineFill lane line stall parity s
  | .pebbleGo w => Sys2Proof.Machine.execPebbleGo w s
  | .pebbleAbort w => Sys2Proof.Machine.execPebbleAbort w s
  | .pebbleJobDone lane source verifyFail units => Sys2Proof.Machine.execPebbleJobDone lane source verifyFail units s
  | .batchEnqueue rill => Sys2Proof.Machine.execBatchEnqueue rill s
  | .frameSlot spout => Sys2Proof.Machine.execFrameSlot spout s
  | .shaperRefill => Sys2Proof.Machine.execShaperRefill s
  | .tableRead w => Sys2Proof.Machine.execTableRead w s
  | .tableWrite w => Sys2Proof.Machine.execTableWrite w s
  | .roceAck flow psn => Sys2Proof.Machine.execRoceAck flow psn s
  | .nakSequence flow psn => Sys2Proof.Machine.execNakSequence flow psn s
  | .ackTimeout flow => Sys2Proof.Machine.execAckTimeout flow s
  | .rnrNak flow => Sys2Proof.Machine.execRnrNak flow s
  | .nakRemoteError flow => Sys2Proof.Machine.execNakRemoteError flow s
  | .cnp flow => Sys2Proof.Machine.execCnp flow s
  | .cnpHoldEnd flow => Sys2Proof.Machine.execCnpHoldEnd flow s
  | .runnelAck spout lseq => Sys2Proof.Machine.execRunnelAck spout lseq s
  | .runnelNak spout lseq => Sys2Proof.Machine.execRunnelNak spout lseq s
  | .credit spout endpoint total => Sys2Proof.Machine.execCredit spout endpoint total s
  | .laneMap spout lanes epoch => Sys2Proof.Machine.execLaneMap spout lanes epoch s
  | .retryTimeout spout => Sys2Proof.Machine.execRetryTimeout spout s
  | .controlFrameTick spout => Sys2Proof.Machine.execControlFrameTick spout s
  | .laneFault spout lane => Sys2Proof.Machine.execLaneFault spout lane s
  | .laneRetrained spout lane => Sys2Proof.Machine.execLaneRetrained spout lane s
  | .spoutDown spout => Sys2Proof.Machine.execSpoutDown spout s
  | .spoutUp spout => Sys2Proof.Machine.execSpoutUp spout s
  | .flowRejoin flow => Sys2Proof.Machine.execFlowRejoin flow s
  | .spoutRetrain spout w => Sys2Proof.Machine.execSpoutRetrain spout w s
  | .stallLimit flow => Sys2Proof.Machine.execStallLimit flow s
  | .memberReady flow => Sys2Proof.Machine.execMemberReady flow s
  | .resend w => Sys2Proof.Machine.execResend w s
  | .replayHoldExpire batch => Sys2Proof.Machine.execReplayHoldExpire batch s
  | .crHeadWrite w => Sys2Proof.Machine.execCrHeadWrite w s
  | .arpRequest spout address => Sys2Proof.Machine.execArpRequest spout address s
  | .ptpAnnounce port clock => Sys2Proof.Machine.execPtpAnnounce port clock s
  | .ptpSync port seq rx origin twoStep => Sys2Proof.Machine.execPtpSync port seq rx origin twoStep s
  | .ptpFollowUp port seq origin => Sys2Proof.Machine.execPtpFollowUp port seq origin s
  | .ptpDelayReq port seq rx => Sys2Proof.Machine.execPtpDelayReq port seq rx s
  | .ptpDelayResp port seq masterRx => Sys2Proof.Machine.execPtpDelayResp port seq masterRx s
  | .ptpPdelayReq port seq rx => Sys2Proof.Machine.execPtpPdelayReq port seq rx s
  | .ptpPdelayResp port seq rx peerRx => Sys2Proof.Machine.execPtpPdelayResp port seq rx peerRx s
  | .ptpPdelayRespFollowUp port seq peerTx => Sys2Proof.Machine.execPtpPdelayRespFollowUp port seq peerTx s
  | .ptpSignaling port logInterval => Sys2Proof.Machine.execPtpSignaling port logInterval s
  | .ptpManagement port => Sys2Proof.Machine.execPtpManagement port s
  | .ptpSyncInterval port => Sys2Proof.Machine.execPtpSyncInterval port s
  | .timeRequestTick spout => Sys2Proof.Machine.execTimeRequestTick spout s
  | .timeRequest spout seq rx hops state => Sys2Proof.Machine.execTimeRequest spout seq rx hops state s
  | .timeResponse spout seq t2 t3 rx hops state => Sys2Proof.Machine.execTimeResponse spout seq t2 t3 rx hops state s
  | .timeResponseTimeout spout seq => Sys2Proof.Machine.execTimeResponseTimeout spout seq s
  | .sourceLost => Sys2Proof.Machine.execSourceLost s
  | .sundialSet w => Sys2Proof.Machine.execSundialSet w s
  | .ppsInEdge stamp => Sys2Proof.Machine.execPpsInEdge stamp s
  | .refLost => Sys2Proof.Machine.execRefLost s
  | .estimateWrite => Sys2Proof.Machine.execEstimateWrite s
  | .avtpPacket inlet p => Sys2Proof.Machine.execAvtpPacket inlet p s
  | .frameAccept inlet => Sys2Proof.Machine.execFrameAccept inlet s
  | .coreHang core => Sys2Proof.Machine.execCoreHang core s
  | .coreTakeover core => Sys2Proof.Machine.execCoreTakeover core s
  | .coreRestartDone core => Sys2Proof.Machine.execCoreRestartDone core s
  | .keeperRestart w => Sys2Proof.Machine.execKeeperRestart w s
  | .keeperIntakeOpen => Sys2Proof.Machine.execKeeperIntakeOpen s
  | .wardenHang => Sys2Proof.Machine.execWardenHang s
  | .wardenRestartDone => Sys2Proof.Machine.execWardenRestartDone s
  | .trialExpire => Sys2Proof.Machine.execTrialExpire s
  | .barrierReport w => Sys2Proof.Machine.execBarrierReport w s
  | .engineSelfTest w => Sys2Proof.Machine.execEngineSelfTest w s
  | .stillwaterStop w => Sys2Proof.Machine.execStillwaterStop w s
  | .jtagStillwater => Sys2Proof.Machine.execJtagStillwater s
  | .stillwaterAt => Sys2Proof.Machine.execStillwaterAt s
  | .stillwaterArm w => Sys2Proof.Machine.execStillwaterArm w s
  | .stillwaterScan w => Sys2Proof.Machine.execStillwaterScan w s
  | .scanned => Sys2Proof.Machine.execScanned s
  | .resume w => Sys2Proof.Machine.execResume w s
  | .coreHalt w => Sys2Proof.Machine.execCoreHalt w s
  | .coreResume w => Sys2Proof.Machine.execCoreResume w s
  | .breakpointHit core => Sys2Proof.Machine.execBreakpointHit core s
  | .snapshot w => Sys2Proof.Machine.execSnapshot w s
  | .traceSync => Sys2Proof.Machine.execTraceSync s
  | .loopStart w => Sys2Proof.Machine.execLoopStart w s
  | .loopStop w units errors locked columns => Sys2Proof.Machine.execLoopStop w units errors locked columns s
  | .loopEnd units errors locked columns => Sys2Proof.Machine.execLoopEnd units errors locked columns s
  | .testModeEnter => Sys2Proof.Machine.execTestModeEnter s
  | .voltageAdjust slack => Sys2Proof.Machine.execVoltageAdjust slack s
  | .vrFault => Sys2Proof.Machine.execVrFault s
  | .frequencyDecision powerW tj => Sys2Proof.Machine.execFrequencyDecision powerW tj s
  | .opChange => Sys2Proof.Machine.execOpChange s
  | .thermtrip => Sys2Proof.Machine.execThermtrip s
  | .thermtripRelease => Sys2Proof.Machine.execThermtripRelease s
  | .i3cWake => Sys2Proof.Machine.execI3cWake s
  | .wakeTimer => Sys2Proof.Machine.execWakeTimer s
  | .spoutSignalDetect spout => Sys2Proof.Machine.execSpoutSignalDetect spout s
  | .pExit us => Sys2Proof.Machine.execPExit us s
  | .trstBoardN => Sys2Proof.Machine.execTrstBoardN s
  | .deviceResetRequest w => Sys2Proof.Machine.execDeviceResetRequest w s
  | .deviceResetDrainDone => Sys2Proof.Machine.execDeviceResetDrainDone s
  | .powerOnReset => Sys2Proof.Machine.execPowerOnReset s
  | .referenceLoss => Sys2Proof.Machine.execReferenceLoss s
  | .powerOnResetRelease => Sys2Proof.Machine.execPowerOnResetRelease s
  | .perstN low => Sys2Proof.Machine.execPerstN low s
  | .pllLock => Sys2Proof.Machine.execPllLock s
  | .cisternInitDone => Sys2Proof.Machine.execCisternInitDone s
  | .onfiDiscoveryDone dies => Sys2Proof.Machine.execOnfiDiscoveryDone dies s
  | .functionReady => Sys2Proof.Machine.execFunctionReady s
  | .firmwareVerified => Sys2Proof.Machine.execFirmwareVerified s
  | .spoutTrainingStart spout => Sys2Proof.Machine.execSpoutTrainingStart spout s
  | .bridgeFlitError => Sys2Proof.Machine.execBridgeFlitError s
  | .dmaReadTimeout queue t address => Sys2Proof.Machine.execDmaReadTimeout queue t address s
  | .rnrRetry flow => Sys2Proof.Machine.execRnrRetry flow s
  | .frameStale inlet => Sys2Proof.Machine.execFrameStale inlet s
  | .ref10InPresent => Sys2Proof.Machine.execRef10InPresent s
  | .ref10InLost => Sys2Proof.Machine.execRef10InLost s
  | .inletLinkUp inlet => Sys2Proof.Machine.execInletLinkUp inlet s
  | .inletLinkDown inlet => Sys2Proof.Machine.execInletLinkDown inlet s
  | .pcieLinkUp rate width flit => Sys2Proof.Machine.execPcieLinkUp rate width flit s
  | .trstBoardNRelease => Sys2Proof.Machine.execTrstBoardNRelease s
  | .channelTrainingDone channel ok => Sys2Proof.Machine.execChannelTrainingDone channel ok s
  | .registerRead rq bar off size => Sys2Proof.Machine.execRegisterRead rq bar off size s
  | .d3hotTransition enter => Sys2Proof.Machine.execD3hotTransition enter s

end Sys2Proof.Machine
end

