-- ==== Sys2Proof/Machine/Step.lean ====
section
/-! DEFINITION. One step of the block: it takes the command at the front of its queue, or lets a clock cycle pass. -/
namespace Sys2Proof.Machine

/-- A step: the command at the front of the queue, on the state with the queue's rest. With nothing waiting, one cycle of the
always-on clock passes (assumption 7). (DESIGN CHOICE, assumption 106.) (DESIGN CHOICE, assumption 107.)
(DESIGN CHOICE, assumption 111.) -/
def step (s : State) : Host.Outcome State Fault Refusal :=
  match s.pending with
  | [] => .next (finish s s.tickClock)
  | c :: rest => exec c { s with pending := rest }

/-- The state with the command that a table word spells in front of its queue. (DESIGN CHOICE, assumption 111.) -/
def State.withFetchWord (s : State) (nbits w : Nat) : State :=
  match Sys2Proof.decodeTableWord nbits w with
  | some c => { s with pending := c :: s.pending }
  | none => s

end Sys2Proof.Machine
end

