-- ==== Sys2Proof/Safety.lean ====
section
/-! DEFINITION. What a safe run is, in the terms that statements use: a step that answers a next state, and the stores in their
canonical forms. -/
namespace Sys2Proof

/-- A step goes on: it neither faults nor refuses. -/
def Goes (o : Host.Outcome Machine.State Machine.Fault Machine.Refusal) : Prop := ∃ t, o = .next t

/-- A command completes: it answers a next state of which `P` holds. -/
def Yields (c : Instr) (s : Machine.State) (P : Machine.State → Prop) : Prop := ∃ t, Machine.exec c s = .next t ∧ P t

/-- A register serves a software write at once: its domain is out of reset and its block is awake (R217, R461). -/
abbrev Served (s : Machine.State) (r : Machine.Reg) : Prop := s.reachable r = true ∧ s.holds r = false

/-- An access reaches the registers at once: its requester can make it, and the block it names is awake (R217, R426, R461). -/
abbrev Taken (s : Machine.State) (rq : Requester) (bar off : Nat) : Prop :=
  s.canAccess rq bar off = true ∧ (s.power.state = 0 ∨ Machine.servedAt bar off = true)

/-- A task of an opcode that runs, or that may start, and what runs it is there (R204, R205, R209). -/
def Ready (s : Machine.State) (k opcode : Nat) (x : Machine.Task) : Prop :=
  s.task? k = some x ∧ x.opcode = opcode ∧ s.mayRun x = true

/-- A task has ended with a status and a result; its completion entry follows in its turn (R206). -/
def Ended (t : Machine.State) (k status result : Nat) : Prop := ∃ y ∈ t.host.tasks, y.id = k ∧ y.done = some (status, result)

/-- What every function-level reset leaves (R213, R461): the registers of its domain at their reset values, but for those that show
the live state of the link, the power state, BUSY and the locks; no other register changed, but for the two that show how full Basin's
pools are, and no Reservoir byte; FUNC_READY 0; and of the tasks those alone that had started and are no READ_EXTENT or WRITE_EXTENT, which go on without a completion entry. -/
structure FunctionReset (s t : Machine.State) : Prop where
  /-- the registers of the domain -/
  regs : ∀ r i, i < r.entries → r.place.dom = .func → r ≠ .HIF_STATUS → r ≠ .HIF_PWR_STATUS → r ≠ .TASK_STATUS → r ≠ .HIF_LOCKS →
    t.word r i = Machine.regDflt (r, i)
  /-- the registers of the other domains -/
  others : ∀ r i, i < r.entries → r.place.dom ≠ .func → r ≠ .SLU_STATUS → r ≠ .BSN_EVENT → t.word r i = s.word r i
  /-- the function does not answer configuration requests -/
  ready : t.get Machine.HIF_STATUS.FUNC_READY = 0
  /-- the range-lock entries held are those of the tasks that go on -/
  locks : t.get Machine.HIF_LOCKS.USED = t.host.tasks.countP (fun x => x.locked) % 2 ^ 9
  /-- the tasks that go on -/
  tasks : ∀ x, x ∈ t.host.tasks ↔
    ∃ y ∈ s.host.tasks, y.started = true ∧ y.done = none ∧ y.opcode ≠ 1 ∧ y.opcode ≠ 2 ∧ x = { y with silent := true }
  /-- Reservoir's bytes -/
  memory : ∀ a, t.rdByte a = s.rdByte a

/-- The stores of Reservoir, of Cistern's host-directed region and of the registers are in their canonical forms, so that equal
contents are equal data. -/
def Canonical (s : Machine.State) : Prop :=
  Machine.Memory.wf s.basin.stale s.reservoir = true ∧ Machine.regionWf s.basin.hostGen s.basin.hostMem = true ∧ Machine.regsWf s.regs = true

/-- What holds of every state that the block can reach: the stores are canonical, and each list of the units that the spec gives
the block has as many entries as there are units. -/
structure Sound (s : Machine.State) : Prop where
  /-- the register store (R10, R12) -/
  regs : Machine.regsWf s.regs = true
  /-- every listed entry is one that its register has -/
  entries : ∀ e ∈ s.regs, e.1.2 < e.1.1.entries
  /-- the Reservoir store (R302) -/
  mem : Machine.Memory.wf s.basin.stale s.reservoir = true
  /-- the store of Cistern's host-directed region (R28) -/
  region : Machine.regionWf s.basin.hostGen s.basin.hostMem = true
  /-- sixteen Rills (R19) -/
  rills : s.rills.length = 16
  /-- four plan slots (R125, R141) -/
  slots : s.sluice.slots.length = 4
  /-- two Inlets (R468) -/
  inlets : s.inlets.length = 2
  /-- eight task queues (R193) -/
  queues : s.host.queues.length = 8
  /-- two weave slots (R86) -/
  weaves : s.cascade.slots.length = 2
  /-- twenty-four Spouts (R468) -/
  spouts : s.weir.spouts.length = 24
  /-- four vocabulary slots (R300) -/
  vocabs : s.vocabs.length = 4
  /-- sixteen cache partitions (R297) -/
  caches : s.caches.length = 16
  /-- two firmware image slots (R413) -/
  images : s.svc.slots.length = 2
  /-- eight watch units (R437) -/
  watch : s.dbg.watch.length = 8

/-- What holds of the Weir in every state that the block can reach: its tables are sparse stores in canonical form whose entries
have their full length, and the batches of the pool stand in the order of their numbers, all below the next. -/
structure WeirSound (s : Machine.State) : Prop where
  /-- the flow table (R345) -/
  flows : Machine.assocWf id (fun _ => Machine.zeros 128) s.weir.flows = true
  /-- the group table (R346) -/
  groups : Machine.assocWf id (fun _ => Machine.zeros 32) s.weir.groups = true
  /-- a flow entry has 128 bytes -/
  flowBytes : ∀ e ∈ s.weir.flows, e.2.length = 128
  /-- a group entry has 32 bytes -/
  groupBytes : ∀ e ∈ s.weir.groups, e.2.length = 32
  /-- the flows' scheduling state -/
  members : Machine.assocWf id (fun _ => Machine.FlowSt.fresh) s.weir.tx = true
  /-- the replay pool, oldest first (R370) -/
  pool : s.weir.pool.Pairwise (fun a b => a.id < b.id)
  /-- the next batch's number is new -/
  next : ∀ b ∈ s.weir.pool, b.id < s.weir.nextId

/-- The parts of the state: each register with all its entries, the Reservoir, the queue of commands, and what the block holds
beside its registers. -/
inductive Region where
  | reg (r : Machine.Reg)
  | memory | pending
  | sel | latched | staged | out | free
  | host | power | cascade | rills | sluice | mirror | weir | lock | sundial | inlets | basin | aqf | svc | dbg | pebble | vocabs | caches
  deriving DecidableEq, Repr

/-- A part is the same after as before: every entry of a register reads the same word, every Reservoir byte reads the same. -/
def Region.same (p : Region) (s t : Machine.State) : Prop :=
  match p with
  | .reg r => ∀ i, i < r.entries → t.word r i = s.word r i
  | .memory => ∀ a, t.rdByte a = s.rdByte a
  | .pending => t.pending = s.pending
  | .sel => t.sel = s.sel
  | .latched => t.latched = s.latched
  | .staged => t.staged = s.staged
  | .out => t.out = s.out
  | .free => t.free = s.free
  | .host => t.host = s.host
  | .power => t.power = s.power
  | .cascade => t.cascade = s.cascade
  | .rills => t.rills = s.rills
  | .sluice => t.sluice = s.sluice
  | .mirror => t.mirror = s.mirror
  | .weir => t.weir = s.weir
  | .lock => t.lock = s.lock
  | .sundial => t.sundial = s.sundial
  | .inlets => t.inlets = s.inlets
  | .basin => t.basin = s.basin
  | .aqf => t.aqf = s.aqf
  | .svc => t.svc = s.svc
  | .dbg => t.dbg = s.dbg
  | .pebble => t.pebble = s.pebble
  | .vocabs => t.vocabs = s.vocabs
  | .caches => t.caches = s.caches

end Sys2Proof
end

