-- ==== Sys2Proof/Machine/Footprint.lean ====
section
/-! DEFINITION. The footprint of each command: the parts of the state outside which it changes nothing. -/
namespace Sys2Proof

open Machine (Reg)

/-- Every part but the queue of commands. -/
def allParts : List Region :=
  [.memory, .sel, .latched, .staged, .out, .free, .host, .power, .cascade, .rills, .sluice, .mirror, .weir, .lock, .sundial, .inlets,
    .basin, .aqf, .svc, .dbg, .pebble, .vocabs, .caches] ++ Machine.allRegs.map Region.reg

/-- What can change when the trace ring takes a record (R445). -/
def traceParts : List Region := [.reg .DBG_EVENT, .reg .DBG_TRACE_PTR, .reg .DBG_TRACE_LOST, .free, .dbg]

/-- What can change when Stillwater is entered (R434). -/
def stillParts : List Region := traceParts ++ [.reg .DBG_STW_STATUS, .reg .DBG_STW_SEEN, .reg .DBG_STW_LEN]

/-- What can change when a divergence or a Mirror fault is recorded (R65). -/
def divergeParts : List Region := stillParts ++ [.reg .MIR_STATUS, .reg .MIR_DF_INFO, .reg .MIR_DF_STEP_LO, .reg .MIR_DF_STEP_HI, .reg .MIR_DF_COUNT,
  .reg .MIR_FILL]

/-- What can change when a Rill faults (R73, R425). -/
def rillFaultParts : List Region := stillParts ++ [.reg .SVC_EVENT, .reg .SVC_RILL_FAULT, .reg .SVC_RILL_STEP_LO, .reg .SVC_RILL_STEP_HI, .rills, .svc]

/-- What can change when an engine instance changes its state (R80). -/
def engineParts : List Region := [.reg .DEC_STATUS, .reg .JET_STATUS, .reg .REED_STATUS]

/-- What can change when the available resources are counted anew (R80). -/
def availParts : List Region := engineParts ++ [.reg .CSC_JET_AVAIL_LO, .reg .CSC_JET_AVAIL_HI, .reg .CSC_IMG_AVAIL, .reg .CSC_ENG_AVAIL,
  .reg .CSC_VA_AVAIL]

/-- What can change when the Sluice moves its plans on, and with a step's first release an activation ends (R97, R141, R147). -/
def planParts : List Region := [.reg .SLU_STATUS, .reg .SLU_EVENT, .reg .SLU_STEP_LO, .reg .SLU_STEP_HI, .reg .SLU_WALK_MAX,
  .reg .CSC_EVENT, .reg .CSC_ACT_STATUS, .reg .CSC_ACT_COUNT, .cascade, .sluice, .rills, .basin, .dbg]

/-- What can change when Basin's buffers are counted anew (R314, R320). -/
def poolParts : List Region := [.reg .SLU_STATUS, .reg .HIF_EVENT, .reg .TASK_STATUS, .reg .BSN_EVENT]

/-- What can change when a task completes or waits (R193, R206). -/
def taskParts : List Region := [.reg .HIF_LOCKS, .reg .TASK_STATUS]

/-- What can change when a transfer from or to host memory fails (R190). -/
def dmaParts : List Region := taskParts ++ [.reg .HIF_EVENT, .reg .HIF_DMA_ERR_ADDR_LO, .reg .HIF_DMA_ERR_ADDR_HI, .reg .HIF_DMA_ERR_INFO]

/-- What can change when a task queue moves on (R193, R219). -/
def queueParts : List Region := [.reg .TASK_Q_STATUS, .reg .TASK_SQ_HEAD, .reg .TASK_SQ_TAIL]

/-- What can change when a die changes its state (R170, R184). -/
def dieParts : List Region := [.reg .AQF_STATUS, .reg .AQF_WB, .reg .NFC_STATUS, .reg .NFC_DIE_STATE_LO, .reg .NFC_DIE_STATE_HI, .aqf]

/-- What can change when Aquifer writes units (R176, R183). -/
def unitParts : List Region := [.reg .AQF_SLC, .reg .AQF_SEQ_LO, .reg .AQF_SEQ_HI, .aqf]

/-- What can change when the Weir pool and the Spouts' queues are shown (R374). -/
def weirParts : List Region := [.reg .SPT_STATUS, .reg .WEIR_STATUS, .reg .WEIR_POOL_USED, .free, .weir]

/-- What can change when the completion ring takes an entry (R366, R374). -/
def ringParts : List Region := [.reg .WEIR_STATUS, .reg .WEIR_EVENT, .reg .WEIR_CR_TAIL, .reg .WEIR_CR_LOST, .weir]

/-- What can change when Sundial judges its source (R388, R396). -/
def clockParts : List Region := [.reg .SDL_STATUS, .reg .SDL_EVENT, .reg .SDL_FREQ, .reg .INL_STATUS, .reg .INL_EVENT, .sundial]

/-- What can change when Keeper or the warden changes its state (R409, R427). -/
def coreParts : List Region := [.reg .HIF_STATUS, .reg .HIF_EVENT, .reg .TASK_STATUS, .reg .SVC_STATUS, .reg .SVC_CORE, .reg .DBG_BRK_STATUS, .svc]

/-- What can change when a weave load ends (R99, R116). -/
def loadParts : List Region := [.reg .CSC_STATUS, .reg .CSC_EVENT, .reg .CSC_LOAD_RESULT, .reg .CSC_LOAD_ERR_OFS, .reg .CSC_S0_HASH, .reg .CSC_S1_HASH,
  .cascade]

/-- What can change when an Inlet judges a frame (R391, R397). -/
def inletParts : List Region := [.reg .INL_EVENT, .reg .INL_RUNT, .reg .INL_LONG, .reg .INL_STALE, .reg .INL_GAP, .reg .INL_DROP_OTHER, .reg .INL_LAST_DROP,
  .inlets]

/-- What can change when a test loop counts (R446). -/
def loopParts : List Region := [.reg .RSV_ECC_COL, .reg .TST_LOOP_STATUS, .reg .TST_LOOP_ERRORS, .reg .TST_LOOP_UNITS_LO, .reg .TST_LOOP_UNITS_HI, .aqf,
  .dbg]

/-- What can change when a Pebble job starts or ends (R339). -/
def jobParts : List Region := [.reg .PBL_STATUS, .reg .PBL_EVENT, .pebble]

/-- What can change when an access violates (R472). -/
def violParts : List Region := [.reg .GLB_VIOL_ADDR, .reg .GLB_VIOL_INFO, .reg .GLB_VIOL_COUNT]

/-- The registers of a function reset (R461). -/
def functionParts : List Region := (Machine.allRegs.filter (fun r => r.place.dom == .func)).map Region.reg

/-- The registers of a device reset (R461). -/
def deviceParts : List Region := (Machine.allRegs.filter (fun r => r.place.dom != .poweron)).map Region.reg

/-- What the command that a register's word carries can change beside the register itself. -/
def Machine.Reg.command (r : Reg) : List Region :=
  match r with
  | .MIR_CTRL => poolParts ++ [.reg .MIR_STATUS, .reg .MIR_FILL, .reg .CSC_ACT_STATUS, .reg .SLU_EVENT, .free, .cascade, .rills, .sluice,
    .mirror, .basin]
  | .MIR_LS_CTRL => [.reg .MIR_LS_STATUS, .lock]
  | .CSC_LOAD_CTRL => loadParts
  | .CSC_ACT_CTRL => [.reg .CSC_EVENT, .reg .CSC_ACT_STATUS, .cascade]
  | .CSC_SPARE_MAP => [.reg .CSC_EVENT]
  | .CSC_SIGN_CTRL => violParts
  | .SLU_CTRL => [.reg .SLU_WALK_MAX]
  | .SLU_PROBE_CTRL => [.sluice]
  | .AQF_DIE_CMD => dieParts ++ [.reg .AQF_EVENT, .reg .AQF_DIE_RESULT]
  | .AQF_DFL_ACK => [.aqf]
  | .AQF_WB => [.reg .AQF_STATUS, .reg .NFC_STATUS]
  | .NFC_CTRL => dieParts ++ [.reg .AQF_EVENT]
  | .HIF_CTRL => dmaParts ++ queueParts ++ [.reg .SLU_STATUS, .reg .BSN_EVENT, .basin, .reg .HIF_STATUS, .reg .HIF_STALL_LIMIT, .reg .HIF_FW_DRAIN, .reg .HIF_PWR_CTRL,
    .reg .HIF_PWR_STATUS, .reg .HIF_PWR_LAT, .reg .TASK_REFUSED, .reg .TASK_Q_CTRL, .reg .TASK_SQ_BASE_LO,
    .reg .TASK_SQ_BASE_HI, .reg .TASK_CQ_BASE_LO, .reg .TASK_CQ_BASE_HI, .reg .TASK_Q_SIZE, .reg .TASK_GO, .reg .TASK_CQ_HEAD,
    .reg .TASK_CQ_COAL, .aqf]
  | .TASK_GO => [.reg .TASK_REFUSED, .reg .TASK_Q_STATUS, .reg .TASK_SQ_TAIL, .power]
  | .TASK_Q_CTRL | .TASK_CQ_HEAD => queueParts
  | .RSV_OWNER => [.reg .RSV_EVENT, .basin]
  | .RSV_FIELD_CTRL => [.reg .RSV_FIELD_RESULT]
  | .BSN_POOL_BANKS | .BSN_POOL_THR | .BSN_CPOOL | .BSN_MIN => poolParts
  | .PBL_JOB_CTRL => jobParts ++ poolParts ++ [.reg .BSN_NONE, .free, .basin]
  | .SPT_CTRL => stillParts ++ weirParts ++ [.reg .SPT_EVENT]
  | .WEIR_CTRL | .WEIR_CR_HEAD => [.reg .WEIR_STATUS, .reg .WEIR_CR_TAIL, .weir]
  | .WEIR_TBL_CTRL => weirParts ++ [.reg .WEIR_EVENT, .reg .WEIR_TBL_DATA, .reg .SPT_EVENT]
  | .WEIR_RESEND => weirParts ++ [.reg .WEIR_EVENT]
  | .SDL_CTRL => clockParts ++ [.free]
  | .SDL_CLOCK | .SDL_PORT => clockParts
  | .INL_CTRL => [.reg .INL_STATUS, .reg .INL_EVENT, .sundial]
  | .SVC_CTRL => coreParts ++ [.reg .SVC_EVENT]
  | .SVC_BARRIER_HI => [.reg .SVC_EVENT, .svc]
  | .SVC_ENG_CMD => engineParts ++ [.svc]
  | .DBG_STW_CTRL => planParts ++ stillParts
  | .DBG_BRK_CTRL => planParts ++ [.reg .HIF_STATUS, .reg .HIF_EVENT, .reg .TASK_STATUS, .reg .DBG_EVENT, .reg .DBG_BRK_STATUS]
  | .DBG_SNAP => [.reg .DBG_EVENT, .dbg]
  | .DBG_TRACE_CTRL => [.reg .DBG_TRACE_PTR, .dbg]
  | .TST_LOOP_CTRL => loopParts ++ dieParts ++ [.reg .AQF_EVENT, .free]
  | .PWR_RST_CTRL => [.power, .aqf]
  | _ => []

/-- A register whose written word carries no command: no select register, none with an effect beside itself, and no half of a
counter pair. -/
abbrev Machine.Reg.Plain (r : Reg) : Prop :=
  r.isSelect = none ∧ r.command = [] ∧ r.stagesHigh = false ∧ ∀ hi, r.widePair ≠ some (hi, true)

/-- What a served write of a register can change (R12, R474 to R476): the register, a high word that waits with it, its
requester's staged word, or the selection; and what its command changes. -/
def Machine.Reg.written (r : Reg) : List Region :=
  match r.isSelect with
  | some _ => [.sel]
  | none => .reg r :: .staged :: r.command ++ match r.widePair with
    | some (hi, _) => [.reg hi]
    | none => []

/-- What a register access that writes at an offset can change: an access that must wait is held (R217), one that violates is
reported (R472), any other is served. -/
def writeParts (bar off : Nat) : List Region :=
  .power :: violParts ++ match Machine.regAt bar off with
    | some (r, _) => r.written
    | none => []

/-- The parts that a command can change. Every command can signal a vector (R187, R477), so the messages that leave and the
host interface's pending bits belong to each. -/
def footprint (c : Instr) : List Region :=
  .out :: .host :: match c with
  | .registerWrite _ bar off _ _ => writeParts bar off
  | .selectWrite .. => .power :: .sel :: violParts
  | .lowWordRead .. | .registerRead .. =>
    violParts ++ [.reg .SDL_TIME, .reg .DBG_W_DIGEST_HI, .reg .DBG_W_MIN, .reg .DBG_W_MAX, .reg .DBG_W_MEAN,
    .reg .DBG_W_FINITE, .reg .DBG_W_NONFINITE, .reg .DBG_W_STEP_LO, .reg .DBG_W_STEP_HI, .reg .DBG_W_HIST, .latched, .power]
  | .bar4Access .. =>
    violParts ++ [.reg .RSV_EVENT, .reg .RSV_ECC_CORR, .reg .RSV_ECC_UNCORR, .reg .RSV_ECC_COL, .memory, .power, .svc]
  | .fetchIssue => planParts ++ traceParts ++ [.aqf]
  | .sampleRelease .. => planParts ++ traceParts
  | .delay .. | .wait .. | .bind .. => [.rills]
  | .start .. | .runFixed .. => [.rills, .weir]
  | .loop .. => [.reg .SLU_EVENT, .reg .SLU_BF_DRAWS, .reg .SLU_FILLED, .rills]
  | .batchEnd .. => divergeParts ++ planParts ++ poolParts ++ [.reg .SLU_BF_DRAWS, .reg .SLU_FILLED, .reg .DEC_PK_BATCHES, .reg .DEC_PK_FILLED, .reg .DEC_PK_OVERFLOW, .reg .DEC_PK_DIGEST_LO, .reg .DEC_PK_DIGEST_HI, .reg .DEC_PK_STEP_LO, .reg .DEC_PK_STEP_HI, .reg .DBG_W_DIGEST_LO, .reg .DBG_W_DIGEST_HI, .reg .DBG_W_MIN, .reg .DBG_W_MAX, .reg .DBG_W_MEAN, .reg .DBG_W_FINITE, .reg .DBG_W_NONFINITE, .reg .DBG_W_STEP_LO, .reg .DBG_W_STEP_HI, .reg .DBG_W_HIST, .mirror, .lock]
  | .stageDone .. => poolParts ++ [.reg .DEC_EVENT, .reg .DEC_SAMPLES, .reg .DEC_REJECTS, .reg .DEC_LAST_REJECT, .reg .DEC_LAST_G_LO, .reg .DEC_LAST_G_HI, .reg .DEC_CYCLES_LO, .reg .DEC_CYCLES_HI, .reg .JET_EVENT, .reg .JET_SAMPLES, .reg .JET_REJECTS, .reg .JET_MACS_LO, .reg .JET_MACS_HI, .reg .JET_CYCLES_LO, .reg .JET_CYCLES_HI, .reg .JET_SIEVE_KEEP, .reg .JET_SIEVE_DROP, .reg .JET_LAST_SCORE, .reg .REED_EVENT, .reg .REED_SAMPLES, .reg .REED_REJECTS, .reg .REED_TOKENS_LO, .reg .REED_TOKENS_HI, .reg .REED_ESCAPES, .reg .REED_STOPS, .reg .REED_LAST_REJECT, .reg .SVC_EVENT, .free, .rills, .weir, .basin, .dbg] ++ [.svc] ++ [.reg .SLU_BF_DRAWS] ++ [.caches]
  | .startTick => [.reg .PWR_STATUS, .power, .dbg]
  | .markerPhaseEnd .. => divergeParts ++ planParts ++ [.reg .PWR_STATUS, .reg .PWR_EVENT, .power, .mirror]
  | .tagMismatch .. => divergeParts ++ rillFaultParts ++ [.mirror]
  | .mirrorDrain .. => [.reg .MIR_FILL, .mirror, .aqf]
  | .mirCtrlWrite .. =>
    poolParts ++ [.reg .MIR_CTRL, .reg .MIR_STATUS, .reg .MIR_FILL, .reg .SLU_EVENT, .free, .power, .rills, .sluice, .mirror,
    .basin]
  | .mirrorModeChange =>
    poolParts ++ [.reg .MIR_STATUS, .reg .MIR_FILL, .reg .SLU_EVENT, .free, .rills, .sluice, .mirror, .basin]
  | .replayStart .. =>
    poolParts ++ [.reg .MIR_CTRL, .reg .MIR_STATUS, .reg .MIR_FILL, .reg .CSC_ACT_STATUS, .reg .SLU_EVENT, .free, .power,
    .cascade, .rills, .sluice, .mirror, .basin]
  | .lockstepWindow | .lockstepFrame .. => divergeParts ++ [.reg .MIR_LS_STATUS, .reg .MIR_LS_WINDOWS, .mirror, .lock]
  | .lockstepLost => divergeParts ++ [.reg .MIR_LS_STATUS, .mirror, .lock]
  | .loadStart .. | .loadAbort => loadParts ++ [.reg .CSC_LOAD_CTRL, .power]
  | .loadTransferDone .. | .loadStructureDone | .loadSignatureDone | .loadStagingDone => loadParts
  | .arm .. | .disarm .. => [.reg .CSC_EVENT, .reg .CSC_ACT_CTRL, .reg .CSC_ACT_STATUS, .power, .cascade]
  | .weaveBoundary => [.reg .CSC_EVENT, .reg .CSC_ACT_STATUS, .cascade]
  | .actDrainDone => [.cascade]
  | .actSwapDone =>
    availParts ++ [.reg .CSC_STATUS, .reg .CSC_SPARE_ACTIVE, .reg .CSC_S0_HASH, .reg .CSC_S1_HASH, .reg .DBG_BRK_STATUS,
    .free, .cascade, .rills, .weir, .svc, .caches]
  | .actOwnershipDone => [.reg .RSV_OWNER, .reg .RSV_EVENT, .cascade, .basin]
  | .actConstantsDone => [.memory, .cascade]
  | .actPinningDone => planParts ++ poolParts ++ [.reg .MIR_STATUS, .reg .MIR_FILL, .reg .CSC_EVENT, .reg .CSC_ACT_STATUS, .reg .CSC_ACT_COUNT, .free, .cascade, .mirror] ++ [.reg .BSN_NONE]
  | .spareMapWrite .. => [.reg .CSC_EVENT, .reg .CSC_SPARE_MAP, .power]
  | .signCtrlWrite .. => violParts ++ [.reg .CSC_SIGN_CTRL, .power]
  | .bankViolation .. => rillFaultParts ++ [.reg .RSV_VIOL]
  | .jetDetection .. =>
    rillFaultParts ++ availParts ++ [.reg .JET_EVENT, .reg .JET_DETECTS, .reg .JET_FAULT_INFO, .reg .JET_FAULT_STEP_LO,
    .reg .JET_FAULT_STEP_HI]
  | .engineFault .. => rillFaultParts ++ [.reg .DEC_STATUS, .reg .DEC_EVENT]
  | .reedFault .. => rillFaultParts ++ [.reg .REED_STATUS, .reg .REED_EVENT]
  | .reservoirUncorr .. => rillFaultParts ++ taskParts ++ [.reg .RSV_EVENT, .reg .RSV_ECC_UNCORR] ++ [.reg .SLU_STATUS, .reg .HIF_EVENT, .reg .BSN_EVENT, .reg .RSV_ECC_CORR, .reg .RSV_ECC_COL, .basin]
  | .cisternUe .. => rillFaultParts ++ weirParts ++ ringParts ++ [.reg .WEIR_MISSED]
  | .rillStop .. => planParts ++ poolParts ++ engineParts ++ [.reg .SVC_EVENT, .reg .SVC_REBUILDS]
  | .engineSelfTestDone .. => planParts ++ availParts ++ [.reg .SVC_EVENT, .reg .SVC_REBUILDS, .reg .SVC_ENG_CMD, .svc] ++ [.reg .SVC_RILL_FAULT, .reg .SVC_RILL_STEP_LO, .reg .SVC_RILL_STEP_HI, .reg .DBG_STW_STATUS, .reg .DBG_STW_SEEN, .reg .DBG_STW_LEN, .reg .DBG_EVENT, .reg .DBG_TRACE_PTR, .reg .DBG_TRACE_LOST, .free]
  | .realignDone .. => divergeParts ++ planParts ++ [.reg .SVC_REBUILDS, .mirror]
  | .planArm .. => planParts ++ poolParts ++ [.reg .MIR_STATUS, .reg .MIR_FILL, .reg .SLU_ARM_ERR, .mirror] ++ [.reg .CSC_EVENT, .reg .CSC_ACT_STATUS, .reg .CSC_ACT_COUNT, .reg .HIF_DMA_ERR_ADDR_LO, .reg .HIF_DMA_ERR_ADDR_HI, .reg .HIF_DMA_ERR_INFO, .cascade]
  | .planTakeEffect .. => planParts ++ [.reg .MIR_STATUS, .reg .MIR_FILL, .mirror]
  | .sampleFetchDone .. => traceParts ++ poolParts ++ [.reg .PBL_EVENT, .reg .PBL_BLOCKS, .reg .PBL_LOSS, .reg .PBL_FAILS, .sluice, .basin] ++ [.reg .BSN_NONE, .reg .PBL_STATUS, .aqf, .pebble]
  | .sluPause .. | .walkClr => [.reg .SLU_CTRL, .reg .SLU_WALK_MAX, .power]
  | .probeStart .. => [.reg .SLU_PROBE_CTRL, .power, .sluice]
  | .probeDone => [.reg .SLU_EVENT, .reg .SLU_PROBE_OUT_LO, .reg .SLU_PROBE_OUT_HI, .sluice]
  | .nfcRetrain .. => dieParts ++ [.reg .NFC_CTRL, .power] ++ [.reg .AQF_EVENT]
  | .zqCalibration .. | .nop .. | .flush .. | .logRead .. | .cqCoalesceTimer .. | .arpRequest .. | .ptpDelayReq .. | .ptpPdelayReq .. | .ptpManagement .. =>
    []
  | .readExtent .. => [.reg .SLU_STATUS, .reg .HIF_EVENT, .reg .TASK_STATUS, .reg .BSN_EVENT, .basin, .free, .reg .HIF_LOCKS, .aqf, .reg .BSN_NONE]
  | .unitProgrammed .. => ringParts ++ unitParts ++ [.sluice]
  | .unitAdmit .. => ringParts ++ unitParts ++ [.reg .HIF_EVENT, .reg .HIF_DMA_ERR_ADDR_LO, .reg .HIF_DMA_ERR_ADDR_HI, .reg .HIF_DMA_ERR_INFO] ++ [.reg .SLU_STATUS, .reg .TASK_STATUS, .reg .BSN_EVENT, .basin] ++ [.reg .BSN_NONE, .free]
  | .pageReadDone .. => unitParts ++ [.reg .AQF_EVENT, .reg .AQF_DFL_HEAD, .reg .NFC_CORR_LO, .reg .NFC_CORR_HI, .reg .NFC_RETRY, .reg .NFC_SOFT, .reg .NFC_REBUILD] ++ [.sluice]
  | .rtWindowEnd .. => [.reg .NFC_RT_MOVES, .reg .NFC_RT_CLAMP, .aqf]
  | .copyBlockClose .. | .deallocate .. => unitParts
  | .relocateUnit .. => unitParts ++ [.reg .AQF_EVENT, .reg .AQF_DFL_HEAD, .reg .NFC_CORR_LO, .reg .NFC_CORR_HI, .reg .NFC_RETRY, .reg .NFC_SOFT, .reg .NFC_REBUILD] ++ [.reg .SLU_STATUS, .reg .HIF_EVENT, .reg .TASK_STATUS, .reg .BSN_EVENT, .sluice, .basin] ++ [.reg .BSN_NONE, .free]
  | .foldUnit .. => unitParts ++ [.reg .AQF_EVENT, .reg .AQF_DFL_HEAD, .reg .NFC_CORR_LO, .reg .NFC_CORR_HI, .reg .NFC_RETRY, .reg .NFC_SOFT, .reg .NFC_REBUILD] ++ [.reg .SLU_STATUS, .reg .HIF_EVENT, .reg .TASK_STATUS, .reg .BSN_EVENT, .sluice, .basin] ++ [.reg .BSN_NONE, .free]
  | .autoBack .. | .writeExtent .. => [.aqf]
  | .checkpointSegment => [.aqf, .reg .AQF_SLC, .reg .AQF_SEQ_LO, .reg .AQF_SEQ_HI]
  | .pwrFailNFall => [.reg .AQF_STATUS, .aqf, .svc]
  | .pfSafe .. => [.reg .AQF_STATUS, .reg .AQF_EVENT, .power, .aqf, .reg .AQF_SLC, .reg .AQF_SEQ_LO, .reg .AQF_SEQ_HI]
  | .mountComplete .. =>
    unitParts ++ [.reg .AQF_STATUS, .reg .AQF_EVENT, .reg .AQF_CAP_LO, .reg .AQF_CAP_HI, .reg .AQF_WB, .reg .AQF_LIFE,
    .reg .AQF_RATING, .reg .AQF_SPARE, .reg .AQF_DFL_HEAD, .reg .AQF_DFL_ACK, .reg .AQF_CRYPT, .reg .AQF_MOUNT_MS,
    .reg .NFC_STATUS]
  | .dflAckWrite .. => [.reg .AQF_DFL_ACK, .power, .aqf]
  | .dieTimeout .. => dieParts ++ [.reg .AQF_EVENT, .reg .NFC_FAIL, .svc]
  | .programFail .. => dieParts ++ [.reg .AQF_EVENT, .reg .NFC_FAIL, .svc] ++ [.reg .AQF_DIE_RESULT]
  | .dieSuspend .. | .dieBringBack .. | .dieRetire .. =>
    dieParts ++ [.reg .AQF_EVENT, .reg .AQF_DIE_CMD, .reg .AQF_DIE_RESULT, .power]
  | .bringBackDone .. => dieParts ++ [.reg .AQF_EVENT, .reg .AQF_DIE_RESULT] ++ [.reg .NFC_RT_MOVES, .reg .NFC_RT_CLAMP]
  | .lifeEval => [.reg .AQF_STATUS, .reg .AQF_EVENT, .reg .AQF_LIFE, .aqf, .reg .HIF_LOCKS, .reg .TASK_STATUS]
  | .taskGo .. => [.reg .TASK_REFUSED, .reg .TASK_Q_STATUS, .reg .TASK_GO, .reg .TASK_SQ_TAIL, .power]
  | .taskFetch .. => dmaParts ++ traceParts ++ [.reg .TASK_Q_STATUS, .reg .TASK_SQ_HEAD]
  | .inject .. => poolParts ++ [.reg .MIR_STATUS, .reg .MIR_FILL, .free, .sluice, .mirror, .basin] ++ [.reg .HIF_DMA_ERR_ADDR_LO, .reg .HIF_DMA_ERR_ADDR_HI, .reg .HIF_DMA_ERR_INFO] ++ [.reg .BSN_NONE]
  | .format .. => dieParts ++ unitParts ++ [.reg .CSC_SIGN_CTRL, .reg .SLU_STATUS, .reg .AQF_CAP_LO, .reg .AQF_CAP_HI, .reg .AQF_RATING, .reg .AQF_SPARE, .reg .AQF_DFL_HEAD, .reg .AQF_DFL_ACK, .reg .AQF_CRYPT, .svc] ++ [.reg .HIF_EVENT, .reg .HIF_DMA_ERR_ADDR_LO, .reg .HIF_DMA_ERR_ADDR_HI, .reg .HIF_DMA_ERR_INFO, .free]
  | .cryptErase .. => unitParts ++ [.reg .AQF_CRYPT] ++ [.free, .svc]
  | .catalogueLoad .. => [.sluice, .reg .HIF_EVENT, .reg .HIF_DMA_ERR_ADDR_LO, .reg .HIF_DMA_ERR_ADDR_HI, .reg .HIF_DMA_ERR_INFO]
  | .vocabLoad .. =>
    dmaParts ++ [.reg .REED_VOCAB_STATE, .reg .REED_VOCAB_ERR, .reg .REED_VOCAB_TAG_LO, .reg .REED_VOCAB_TAG_HI, .free,
    .vocabs]
  | .fwDownload .. => dmaParts ++ [.reg .SVC_FW_STATUS, .svc]
  | .fwActivate .. => taskParts ++ [.reg .HIF_EVENT, .reg .SVC_FW_STATUS, .svc]
  | .fwCommit .. => taskParts ++ [.reg .CSC_SIGN_CTRL, .reg .SVC_STATUS, .reg .SVC_EVENT, .reg .SVC_FW_STATUS, .svc]
  | .fwRevert .. => coreParts ++ [.reg .HIF_LOCKS, .reg .SVC_EVENT, .reg .SVC_FW_STATUS]
  | .ledgerWrite .. => dmaParts ++ [.reg .CSC_SIGN_CTRL, .svc]
  | .ledgerRead .. => taskParts
  | .power .. | .powerTaskTimeout => taskParts ++ [.power]
  | .telemetry .. => taskParts ++ [.free, .dbg]
  | .debugUnlock .. => dmaParts ++ [.reg .SVC_STATUS, .free, .svc]
  | .taskComplete .. => traceParts ++ queueParts ++ taskParts
  | .hostStall .. => taskParts ++ [.reg .HIF_EVENT, .aqf] ++ [.reg .SLU_STATUS, .reg .REED_VOCAB_STATE, .reg .REED_VOCAB_ERR, .reg .REED_VOCAB_TAG_LO, .reg .REED_VOCAB_TAG_HI, .reg .BSN_EVENT, .free, .basin, .vocabs]
  | .queueEnable .. | .qreset .. => queueParts ++ [.reg .TASK_Q_CTRL, .power]
  | .cqHeadWrite .. => queueParts ++ [.reg .TASK_CQ_HEAD, .power]
  | .functionLevelReset | .softReset .. | .perstN .. => functionParts ++ poolParts ++ [.power, .basin, .aqf]
  | .linkDown => functionParts ++ poolParts ++ [.power, .basin, .aqf, .svc]
  | .linkRecovery => [.reg .HIF_EVENT, .svc]
  | .softDone | .functionReady => [.reg .HIF_STATUS, .reg .HIF_EVENT, .reg .TASK_STATUS]
  | .drainExpired => taskParts ++ [.reg .HIF_EVENT] ++ [.reg .REED_VOCAB_STATE, .reg .REED_VOCAB_ERR, .reg .REED_VOCAB_TAG_LO, .reg .REED_VOCAB_TAG_HI, .free, .vocabs]
  | .p1Entry => [.reg .HIF_PWR_STATUS, .power]
  | .p2Entry => [.reg .HIF_PWR_STATUS, .reg .PWR_VOLT, .power]
  | .p3Entry =>
    stillParts ++ coreParts ++ clockParts ++ weirParts ++ queueParts ++ [.reg .HIF_PWR_STATUS, .reg .HIF_LOCKS,
    .reg .SPT_EVENT, .memory, .power, .basin, .aqf, .caches]
  | .handoverGo .. => [.reg .RSV_OWNER, .reg .RSV_EVENT, .power, .basin]
  | .handoverDone .. => [.reg .RSV_OWNER, .reg .RSV_EVENT, .memory, .basin]
  | .poolBanksWrite .. => poolParts ++ [.reg .BSN_POOL_BANKS, .power]
  | .cpoolWrite .. => poolParts ++ [.reg .BSN_CPOOL, .power]
  | .minWrite .. => poolParts ++ [.reg .BSN_MIN, .power]
  | .bufferRequest .. => poolParts ++ [.reg .BSN_NONE, .reg .BSN_VIOL_INFO, .free, .basin] ++ [.reg .PBL_STATUS] ++ [.pebble]
  | .bufferFree .. => poolParts ++ [.reg .BSN_VIOL_INFO, .basin] ++ [.reg .PBL_STATUS] ++ [.reg .BSN_NONE, .free, .pebble]
  | .fieldBurn .. => [.reg .RSV_FIELD_CTRL, .reg .RSV_FIELD_RESULT, .power]
  | .burnDone => [.reg .RSV_FIELD_CTRL, .reg .RSV_FIELD_RESULT, .basin]
  | .cacheLineFill .. => [.reg .REED_EVENT, .reg .REED_MISSES, .reg .REED_STALL_LO, .reg .REED_STALL_HI, .rills, .caches, .free]
  | .pebbleAbort .. => jobParts ++ [.reg .PBL_JOB_CTRL, .power] ++ [.reg .SLU_STATUS, .reg .HIF_EVENT, .reg .TASK_STATUS, .reg .BSN_EVENT, .reg .BSN_NONE, .free, .basin]
  | .pebbleGo .. => jobParts ++ [.reg .PBL_JOB_CTRL, .power] ++ [.reg .SLU_STATUS, .reg .HIF_EVENT, .reg .TASK_STATUS, .reg .BSN_EVENT, .reg .BSN_NONE, .free, .basin]
  | .pebbleJobDone .. => jobParts ++ [.reg .PBL_JOB_RESULT, .reg .PBL_IN_DONE, .reg .PBL_OUT_DONE, .reg .PBL_BLOCKS, .reg .PBL_LOSS, .reg .PBL_FAILS, .reg .PBL_STATE, .free] ++ [.basin] ++ [.reg .SLU_STATUS, .reg .HIF_EVENT, .reg .TASK_STATUS, .reg .BSN_EVENT, .rills, .sluice, .aqf] ++ [.reg .BSN_NONE]
  | .batchEnqueue .. => planParts ++ weirParts ++ ringParts ++ poolParts ++ [.reg .PBL_BLOCKS, .reg .WEIR_MISSED, .aqf] ++ [.reg .PBL_STATUS, .pebble] ++ [.reg .BSN_NONE]
  | .frameSlot .. =>
    traceParts ++ weirParts ++ [.reg .MIR_FILL, .reg .SPT_TX_FRAMES_LO, .reg .SPT_TX_FRAMES_HI, .reg .WEIR_RESENT, .mirror]
  | .shaperRefill | .cnpHoldEnd .. => [.free, .weir]
  | .tableWrite .. => weirParts ++ [.reg .WEIR_EVENT, .reg .WEIR_TBL_CTRL, .reg .WEIR_TBL_DATA, .power] ++ [.reg .SPT_EVENT]
  | .tableRead .. => weirParts ++ [.reg .WEIR_EVENT, .reg .WEIR_TBL_CTRL, .reg .WEIR_TBL_DATA, .power] ++ [.reg .SPT_EVENT]
  | .roceAck .. => weirParts ++ ringParts
  | .nakSequence .. | .retryTimeout .. => [.reg .MIR_FILL, .reg .SPT_RETRY, .free, .mirror]
  | .runnelNak .. => [.reg .MIR_FILL, .reg .SPT_RETRY, .free, .mirror, .reg .SPT_DISCARD]
  | .ackTimeout .. | .rnrRetry .. => weirParts ++ [.reg .MIR_FILL, .reg .SPT_RETRY, .mirror]
  | .rnrNak .. | .memberReady .. => weirParts
  | .nakRemoteError .. | .flowRejoin .. => weirParts ++ [.reg .SPT_EVENT]
  | .cnp .. => [.reg .SPT_CNP, .free, .weir]
  | .runnelAck .. => ringParts ++ [.reg .SPT_STATUS, .reg .WEIR_POOL_USED] ++ [.reg .SPT_DISCARD]
  | .credit .. => [.reg .SPT_STATUS, .reg .WEIR_STATUS, .reg .WEIR_POOL_USED, .weir, .reg .SPT_DISCARD]
  | .laneFault .. =>
    stillParts ++ weirParts ++ [.reg .MIR_FILL, .reg .SPT_EVENT, .reg .SPT_RETRY, .mirror, .sundial, .svc]
  | .laneMap .. => stillParts ++ weirParts ++ [.reg .MIR_FILL, .reg .SPT_EVENT, .reg .SPT_RETRY, .mirror, .sundial, .svc] ++ [.reg .SPT_DISCARD]
  | .controlFrameTick .. => [.free, .reg .SPT_FEC_CORR, .reg .SPT_FEC_UNCORR]
  | .laneRetrained .. => [.reg .SPT_STATUS, .reg .SPT_EVENT, .weir, .sundial]
  | .spoutDown .. => stillParts ++ weirParts ++ [.reg .SPT_EVENT, .svc]
  | .spoutUp .. => [.reg .SPT_STATUS, .reg .SPT_EVENT, .reg .WEIR_STATUS, .reg .WEIR_POOL_USED, .weir]
  | .spoutRetrain .. => stillParts ++ weirParts ++ [.reg .SPT_CTRL, .reg .SPT_EVENT, .power]
  | .stallLimit .. => weirParts ++ ringParts ++ [.reg .SPT_EVENT]
  | .resend .. => weirParts ++ [.reg .WEIR_EVENT, .reg .WEIR_RESEND, .power]
  | .replayHoldExpire .. => weirParts ++ ringParts ++ [.reg .WEIR_MISSED]
  | .crHeadWrite .. => [.reg .WEIR_STATUS, .reg .WEIR_CR_HEAD, .reg .WEIR_CR_TAIL, .power, .weir]
  | .ptpAnnounce .. | .sourceLost | .refLost => clockParts
  | .timeRequest .. => clockParts ++ [.reg .SPT_DISCARD]
  | .ptpSync .. | .ptpFollowUp .. | .ptpDelayResp .. | .ppsInEdge .. =>
    clockParts ++ [.reg .SDL_OFFSET, .free]
  | .timeResponse .. => clockParts ++ [.reg .SDL_OFFSET, .free] ++ [.reg .SPT_DISCARD]
  | .ptpPdelayResp .. | .ptpSignaling .. | .ptpSyncInterval .. | .timeRequestTick .. | .timeResponseTimeout .. => [.sundial]
  | .ptpPdelayRespFollowUp .. | .inletLinkDown .. => [.reg .INL_STATUS, .reg .INL_EVENT, .sundial]
  | .sundialSet .. => clockParts ++ [.reg .SDL_CTRL, .power] ++ [.free]
  | .estimateWrite => [.reg .SDL_STATUS, .sundial]
  | .avtpPacket .. => inletParts ++ poolParts ++ [.reg .MIR_STATUS, .reg .MIR_FILL, .reg .SLU_STEP_LO, .reg .SLU_STEP_HI, .reg .INL_ACCEPTED, .free, .sluice, .mirror, .basin] ++ [.reg .BSN_NONE]
  | .frameAccept .. => inletParts ++ poolParts ++ [.reg .MIR_FILL, .reg .INL_ACCEPTED, .free, .sluice, .mirror, .basin, .dbg] ++ [.reg .MIR_STATUS, .reg .BSN_NONE]
  | .coreHang .. => coreParts ++ [.reg .HIF_LOCKS, .reg .SVC_EVENT, .reg .SVC_HANGS]
  | .coreTakeover .. => coreParts ++ [.reg .SVC_EVENT]
  | .coreRestartDone .. => [.reg .SVC_STATUS, .reg .SVC_CORE, .svc]
  | .keeperRestart .. => coreParts ++ [.reg .SVC_EVENT, .reg .SVC_CTRL, .power]
  | .keeperIntakeOpen => coreParts ++ [.reg .CSC_SIGN_CTRL, .reg .HIF_LOCKS, .reg .SVC_FW_STATUS, .free, .power]
  | .wardenHang => [.reg .SVC_EVENT, .reg .PWR_STATUS, .svc]
  | .wardenRestartDone => coreParts ++ [.reg .SVC_EVENT, .reg .SVC_HANGS, .reg .PWR_STATUS] ++ [.reg .SVC_FW_STATUS]
  | .trialExpire => coreParts ++ [.reg .SVC_EVENT, .reg .SVC_FW_STATUS]
  | .barrierReport .. => [.reg .SVC_EVENT, .reg .SVC_BARRIER_HI, .power, .svc]
  | .engineSelfTest .. => engineParts ++ [.reg .SVC_ENG_CMD, .power, .svc]
  | .resume .. => planParts ++ stillParts ++ [.reg .DBG_STW_CTRL, .power]
  | .stillwaterScan .. => planParts ++ stillParts ++ [.reg .DBG_STW_CTRL, .power]
  | .stillwaterArm .. => planParts ++ stillParts ++ [.reg .DBG_STW_CTRL, .power]
  | .stillwaterStop .. => planParts ++ stillParts ++ [.reg .DBG_STW_CTRL, .power]
  | .jtagStillwater | .stillwaterAt => stillParts
  | .scanned => [.reg .DBG_STW_STATUS, .reg .DBG_EVENT, .free, .dbg]
  | .coreResume .. => planParts ++ [.reg .HIF_STATUS, .reg .HIF_EVENT, .reg .TASK_STATUS, .reg .DBG_EVENT, .reg .DBG_BRK_CTRL, .reg .DBG_BRK_STATUS, .power]
  | .coreHalt .. => planParts ++ [.reg .HIF_STATUS, .reg .HIF_EVENT, .reg .TASK_STATUS, .reg .DBG_EVENT, .reg .DBG_BRK_CTRL, .reg .DBG_BRK_STATUS, .power]
  | .breakpointHit .. => [.reg .HIF_STATUS, .reg .HIF_EVENT, .reg .TASK_STATUS, .reg .DBG_BRK_STATUS]
  | .snapshot .. => [.reg .DBG_EVENT, .reg .DBG_SNAP, .power, .dbg]
  | .traceSync => traceParts
  | .loopStart .. | .loopStop .. => loopParts ++ dieParts ++ [.reg .AQF_EVENT, .reg .TST_LOOP_CTRL, .free, .power]
  | .loopEnd .. => loopParts ++ [.free]
  | .testModeEnter => [.reg .TST_MODE]
  | .voltageAdjust .. => [.reg .PWR_EVENT, .reg .PWR_VOLT, .power]
  | .vrFault => [.reg .PWR_STATUS, .reg .PWR_EVENT, .power]
  | .frequencyDecision .. => [.reg .PWR_MEAS, .power]
  | .opChange => [.reg .PWR_STATUS, .reg .PWR_EVENT, .reg .PWR_OP, .power]
  | .thermtrip => [.reg .PWR_EVENT, .power, .aqf]
  | .thermtripRelease => [.reg .PWR_STATUS, .power, .svc, .reg .SDL_STATUS, .reg .SDL_EVENT, .reg .SDL_FREQ, .reg .INL_STATUS, .reg .INL_EVENT, .sundial]
  | .i3cWake | .wakeTimer | .spoutSignalDetect .. | .cisternInitDone | .trstBoardNRelease | .d3hotTransition .. => [.power]
  | .pExit .. | .powerOnReset | .referenceLoss => allParts
  | .trstBoardN => [.power, .aqf]
  | .deviceResetRequest .. => [.reg .PWR_RST_CTRL, .power, .aqf]
  | .deviceResetDrainDone =>
    deviceParts ++ rillFaultParts ++ planParts ++ [.reg .SDL_STATUS, .reg .SDL_EVENT, .reg .SDL_FREQ, .reg .PWR_STATUS, .reg .PWR_VOLT, .reg .PWR_RST_CAUSE, .memory, .sel,
    .latched, .staged, .power, .cascade, .mirror, .weir, .lock, .sundial, .inlets, .aqf, .pebble, .vocabs, .caches]
  | .powerOnResetRelease =>
    [.reg .RSV_SPARE_COL, .reg .RSV_FIELD_CTRL, .reg .SDL_STATUS, .reg .SDL_FREQ, .reg .PWR_STATUS, .reg .PWR_VOLT, .free,
    .power]
  | .pllLock => [.reg .PWR_STATUS]
  | .onfiDiscoveryDone .. => dieParts ++ [.power] ++ [.reg .AQF_EVENT, .svc]
  | .firmwareVerified => coreParts ++ poolParts ++ [.reg .CSC_SIGN_CTRL, .reg .BSN_CPOOL, .reg .BSN_POOL_BANKS, .reg .BSN_POOL_THR, .reg .BSN_CLIENT_CFG, .reg .BSN_MIN, .reg .RSV_OWNER, .reg .SVC_CTRL, .reg .SVC_WDT, .reg .SVC_FW_STATUS, .reg .SVC_TRIAL, .reg .SVC_SUSPECT_CFG, .free] ++ [.reg .RSV_EVENT, .memory, .basin]
  | .spoutTrainingStart .. => [.reg .SPT_STATUS]
  | .bridgeFlitError => [.svc]
  | .dmaReadTimeout .. => dmaParts ++ [.reg .TASK_Q_STATUS, .aqf] ++ [.reg .REED_VOCAB_STATE, .reg .REED_VOCAB_ERR, .reg .REED_VOCAB_TAG_LO, .reg .REED_VOCAB_TAG_HI, .free, .vocabs]
  | .frameStale .. => inletParts ++ [.dbg]
  | .ref10InLost => [.reg .SDL_STATUS, .reg .SDL_EVENT, .reg .SDL_FREQ, .free, .sundial]
  | .ref10InPresent => [.reg .SDL_STATUS, .reg .SDL_EVENT, .reg .SDL_FREQ, .free, .sundial]
  | .inletLinkUp .. => [.reg .INL_STATUS]
  | .pcieLinkUp .. => [.reg .HIF_STATUS]
  | .channelTrainingDone .. => dieParts ++ [.reg .AQF_EVENT, .svc]

end Sys2Proof
end

