-- ==== Sys2Proof/Certificates/Slice0/Obligations.lean ====
section
/-! DEFINITION. The statements about the model, for the provers. -/
open Sys2Proof Sys2Proof.Machine

/-- A step of a state whose queue is not empty is the front command's effect on the state with the rest of the queue. -/
def Obligations.StepRunsTheFrontCommand : Prop :=
  ∀ (c : Instr) (rest : List Instr) (s : State), s.pending = c :: rest → step s = exec c { s with pending := rest }

/-- A step of a state whose queue is empty, out of the power-on reset, answers a next state with an empty queue and the uptime
counter one higher and the Sundial accumulator 5 ns further, at the rate that the frequency estimate gives (R376); while the power-on reset is held it changes nothing. That a step without a command is one clock cycle is
the model's choice (assumption 7). -/
def Obligations.EmptyQueueLetsOneCyclePass : Prop :=
  ∀ s : State, s.pending = [] →
    (s.power.porHeld = false → ∃ t, step s = .next t ∧ t.pending = [] ∧ t.power.uptime = s.power.uptime + 1 ∧
      t.sundial.fine = ((s.sundial.fine : Int) + 327680 * ((2 ^ 40 : Nat) + s.freq)).toNat) ∧
    (s.power.porHeld = true → step s = .next s)

/-- After reset the stores are canonical and every list of units has the number of units that the spec gives the block. -/
def Obligations.ResetIsSound : Prop := Sound State.reset

/-- From every sound state, a step that answers a next state answers a sound one: the register store, the Reservoir store and the
store of Cistern's host-directed region stay canonical, every listed entry is one its register has, and the sixteen Rills, four plan slots, two Inlets, eight task queues,
two weave slots, twenty-four Spouts, four vocabulary slots, sixteen cache partitions, two image slots and eight watch units
stay in number. -/
def Obligations.EveryStepKeepsSoundness : Prop := ∀ s t : State, Sound s → step s = .next t → Sound t

/-- The frame of all 243 commands: when a command answers a next state from a sound state, every part of the state that is not in
the command's footprint is as it was. A part is a register with all its entries, every byte of Reservoir, or a component beside
the registers; the footprint lists, command by command, the parts that it may change. -/
def Obligations.CommandsChangeOnlyTheirFootprint : Prop :=
  ∀ (c : Instr) (s t : State) (p : Region), Sound s → exec c s = .next t → p ∉ footprint c → p.same s t

/-- What a command does, it does to everything but the queue. -/
def Obligations.CommandsLeaveTheQueue : Prop :=
  ∀ (c : Instr) (s t : State), Sound s → exec c s = .next t → t.pending = s.pending

/-- Every one of the 243 commands completes, in every state: it answers a next state, and none stops or is refused. -/
def Obligations.EveryCommandCompletes : Prop := ∀ (c : Instr) (s : State), ∃ t, exec c s = .next t

/-- A value that the spec reserves, written as RW says by the host, completes and is stored: MODE 0b1x of MIR_CTRL (R68) and ROLE 0b11 of SDL_CTRL
(R396). That the reserved values act as others is the model's choice (assumption 11). -/
def Obligations.ReservedValuesAreStored : Prop :=
  ∀ (s : State) (w : Word),
    (Served s .MIR_CTRL → Yields (.mirCtrlWrite w) s (fun t => t.get MIR_CTRL.MODE = MIR_CTRL.MODE.get w)) ∧
    (Served s .SDL_CTRL → Yields (.sundialSet w) s (fun t => t.get SDL_CTRL.ROLE = SDL_CTRL.ROLE.get w)) ∧
    (∀ log, Served s .MIR_CTRL → Yields (.replayStart w log) s (fun t => t.get MIR_CTRL.MODE = MIR_CTRL.MODE.get w))

/-- A write of a requester that is judged a violation, for any of the reasons of R471, completes: it changes no register but the three
violation registers, no byte of Reservoir and no selection. With VALID at 0 it latches its offset, its reason, its requester and
its width; with VALID at 1 it counts one more in GLB_VIOL_COUNT and leaves the latch (R472). A host write leaves an AER report. -/
def Obligations.ViolatingWriteIsReportedAlone : Prop :=
  ∀ (rq : Requester) (bar off size value : Nat) (s : State), Taken s rq bar off →
    s.judge rq bar off size (some (BitVec.ofNat 32 value)) ≠ 0 →
    Yields (.registerWrite rq bar off size value) s (fun t =>
      (∀ r i, i < r.entries → r ≠ .GLB_VIOL_ADDR → r ≠ .GLB_VIOL_INFO → r ≠ .GLB_VIOL_COUNT → t.word r i = s.word r i) ∧
      (∀ a, t.rdByte a = s.rdByte a) ∧ t.sel = s.sel ∧
      (s.get GLB_VIOL_INFO.VALID = 0 →
        t.word .GLB_VIOL_ADDR 0 = BitVec.ofNat 32 off ∧ t.get GLB_VIOL_INFO.VALID = 1 ∧ t.get GLB_VIOL_INFO.WRITE = 1 ∧
        t.get GLB_VIOL_INFO.REASON = s.judge rq bar off size (some (BitVec.ofNat 32 value)) % 16 ∧
        t.get GLB_VIOL_INFO.REQUESTER = reqCode rq % 4 ∧ t.word .GLB_VIOL_COUNT 0 = s.word .GLB_VIOL_COUNT 0) ∧
      (s.get GLB_VIOL_INFO.VALID ≠ 0 →
        t.word .GLB_VIOL_ADDR 0 = s.word .GLB_VIOL_ADDR 0 ∧ t.word .GLB_VIOL_INFO 0 = s.word .GLB_VIOL_INFO 0 ∧
        t.get GLB_VIOL_COUNT.COUNT = min (s.get GLB_VIOL_COUNT.COUNT + 1) (2 ^ 32 - 1)) ∧
      (rq = .host → Out.aer (s.judge rq bar off size (some (BitVec.ofNat 32 value))) ∈ t.out))

/-- A read of a requester that is judged a violation completes with an error to its requester and no data: Unsupported Request for an
unmapped offset and Completer Abort otherwise to the host, an error on Keeper's bus, an error status to JTAG (R471). It
changes no register but the violation registers, no byte of Reservoir, no selection and no latch. -/
def Obligations.ViolatingReadReturnsNoData : Prop :=
  ∀ (rq : Requester) (bar off size : Nat) (s : State), Taken s rq bar off → s.judge rq bar off size none ≠ 0 →
    Yields (.registerRead rq bar off size) s (fun t =>
      (∀ r i, i < r.entries → r ≠ .GLB_VIOL_ADDR → r ≠ .GLB_VIOL_INFO → r ≠ .GLB_VIOL_COUNT → t.word r i = s.word r i) ∧
      (∀ a, t.rdByte a = s.rdByte a) ∧ t.sel = s.sel ∧ t.latched = s.latched ∧
      ∃ l, t.out = s.out ++ (match rq with
        | .host => Out.readError .host (if s.judge rq bar off size none = 1 then .unsupported else .abort)
        | .keeper => Out.readError .keeper .busError
        | .jtag => Out.readError .jtag .jtagError) :: l)

/-- A write that violates nothing, of a register whose word carries no command, completes. Each instance that its requester selects, one
or under INST 0xFFFF every one, then holds the old word with the written one, clamped where the register's table clamps a field, folded in by
the access codes of R12 (an instance that
has no such register, or that ignores writes for now, keeps its word); every other entry and every other register is as
before, and so is every byte of Reservoir. -/
def Obligations.PlainWriteReachesSelectedInstances : Prop :=
  ∀ (rq : Requester) (bar off value : Nat) (s : State) (r : Reg) (k : Nat), Taken s rq bar off →
    s.judge rq bar off 4 (some (BitVec.ofNat 32 value)) = 0 → msixAt bar off = false → regAt bar off = some (r, k) → r.Plain →
    (s.targets rq r).Nodup → (∀ inst ∈ s.targets rq r, entryOf r k inst < r.entries) →
    Yields (.registerWrite rq bar off 4 value) s (fun t =>
      (∀ inst ∈ s.targets rq r, t.word r (entryOf r k inst) =
        if hasEntry r k inst = true ∧ s.writeLocked r (entryOf r k inst) = false
        then r.swWrite (s.word r (entryOf r k inst)) (r.clampWord (BitVec.ofNat 32 value)) else s.word r (entryOf r k inst)) ∧
      (∀ r' i, i < r'.entries → (r' ≠ r ∨ ∀ inst ∈ s.targets rq r, i ≠ entryOf r k inst) → t.word r' i = s.word r' i) ∧
      (∀ a, t.rdByte a = s.rdByte a))

/-- For every register and each of its bits: where the bit lies in a field of code RW or CNT it takes the written bit; W1C clears where 1
is written, W1S sets where 1 is written; RO, SC and WO fields and reserved bits keep what they hold; a field of code RWO
takes the written bits while it holds its reset value and keeps its bits afterwards (R12). -/
def Obligations.WrittenBitsFollowTheAccessCodes : Prop :=
  ∀ (r : Reg) (old w : Word) (k : Nat), k < 32 →
    (∀ f ∈ r.layout, f.lo ≤ k → k ≤ f.hi →
      (r.swWrite old w).getLsbD k = match f.acc with
        | .rw | .cnt => w.getLsbD k
        | .w1c => old.getLsbD k && !w.getLsbD k
        | .w1s => old.getLsbD k || w.getLsbD k
        | .rwo => if (⟨r, f.hi, f.lo⟩ : Fld).get old = f.reset then w.getLsbD k else old.getLsbD k
        | .ro | .sc | .wo => old.getLsbD k) ∧
    ((∀ f ∈ r.layout, ¬ (f.lo ≤ k ∧ k ≤ f.hi)) → (r.swWrite old w).getLsbD k = old.getLsbD k)

/-- Where a counter field counts `n` more, it holds the sum, or all ones where the sum is greater. -/
def Obligations.CounterFieldsSaturate : Prop :=
  ∀ (s : State) (f : Fld) (i n : Nat), i < f.reg.entries → f.lo ≤ f.hi → f.hi < 32 →
    (s.bumpi f i n).geti f i = min (s.geti f i + n) (2 ^ (f.hi + 1 - f.lo) - 1)

/-- A read of the low word of a 64-bit pair whose low word is read first replies with the low word and latches the high word (R14): whatever
the registers hold by then, a read of the high word by the same requester returns the high word of the time of the low-word read. -/
def Obligations.LowWordReadLatchesTheHighWord : Prop :=
  ∀ (rq : Requester) (bar off : Nat) (s : State) (lo hi : Reg) (c : Bool) (k : Nat), Taken s rq bar off →
    s.judge rq bar off 4 none = 0 → msixAt bar off = false → regAt bar off = some (lo, k) → lo.widePair = some (hi, c) →
    let inst := (s.targets rq lo).headD 0
    latches (hi, entryOf hi k inst) = true → hasEntry hi k inst = true → entryOf lo k inst < lo.entries →
    Yields (.lowWordRead rq bar off) s (fun t =>
      (∃ l, t.out = s.out ++ Out.reply rq (leBytes 4 (s.readEntry rq lo k inst).toNat) :: l) ∧
      ∀ u : State, u.latched = t.latched → u.readEntry rq hi k inst = s.live hi (entryOf hi k inst))

/-- A register read that violates nothing completes: its requester gets the four bytes of the word the register shows, low byte
first; no register, no byte of Reservoir and no selection changes. -/
def Obligations.RegisterReadRepliesWithTheWord : Prop :=
  ∀ (rq : Requester) (bar off : Nat) (s : State) (r : Reg) (k : Nat), Taken s rq bar off → s.judge rq bar off 4 none = 0 →
    msixAt bar off = false → regAt bar off = some (r, k) →
    Yields (.registerRead rq bar off 4) s (fun t =>
      (∃ l, t.out = s.out ++ Out.reply rq (leBytes 4 (s.readEntry rq r k ((s.targets rq r).headD 0)).toNat) :: l) ∧
      (∀ r' i, i < r'.entries → t.word r' i = s.word r' i) ∧ (∀ a, t.rdByte a = s.rdByte a) ∧ t.sel = s.sel)

/-- A write of a select register with an INST below the block's count, or with 0xFFFF, completes: the requester's selection of that block
is the written INST and reads back in its own reads of the register, no other selection (of another block, or of another
requester) changes, and no register does. -/
def Obligations.SelectionsAreHeldPerRequester : Prop :=
  ∀ (rq : Requester) (b : SelBlock) (value : Nat) (s : State), Taken s rq 0 (selReg b).place.base →
    (value % 65536 < selCount b ∨ value % 65536 = 0xFFFF) →
    Yields (.selectWrite rq b value) s (fun t =>
      t.selOf b rq = value % 65536 ∧ (⟨selReg b, 15, 0⟩ : Fld).get (t.readEntry rq (selReg b) 0 0) = value % 65536 ∧
      (∀ b' rq', ¬ (b' = b ∧ rq' = rq) → t.selOf b' rq' = s.selOf b' rq') ∧
      (∀ r i, i < r.entries → t.word r i = s.word r i))

/-- In P0 a BAR4 write completes. Where every byte lies in a bank that the host window owns, and the access is within the maximum payload
size, byte i of the access stands at address + i and every other byte of Reservoir is as before; no register changes. Otherwise it changes no byte and no register but the
violation registers, and leaves an AER report with reason 6. -/
def Obligations.WindowWriteStoresItsBytes : Prop :=
  ∀ (addr : Nat) (bs : List Byte) (s : State), s.power.porHeld = false → s.power.resetPhase ≠ .held → s.power.state = 0 → bs ≠ [] →
    (s.windowOk addr bs.length = true → bs.length ≤ s.host.maxPayload →
      Yields (.bar4Access addr bs.length (some bs) none false) s (fun t =>
        (∀ i, i < bs.length → t.rdByte (addr + i) = bs.getD i 0#8) ∧
        (∀ a, (a < addr ∨ addr + bs.length ≤ a) → t.rdByte a = s.rdByte a) ∧
        (∀ r i, i < r.entries → t.word r i = s.word r i))) ∧
    ((s.windowOk addr bs.length = false ∨ s.host.maxPayload < bs.length) →
      Yields (.bar4Access addr bs.length (some bs) none false) s (fun t =>
        (∀ a, t.rdByte a = s.rdByte a) ∧ Out.aer 6 ∈ t.out ∧
        (∀ r i, i < r.entries → r ≠ .GLB_VIOL_ADDR → r ≠ .GLB_VIOL_INFO → r ≠ .GLB_VIOL_COUNT → t.word r i = s.word r i)))

/-- In P0 a BAR4 read, within the maximum payload size, of banks that the host window owns, in which no word is uncorrectable, completes: the
host gets the bytes from the address on, and no byte of Reservoir changes. A longer one, or a bank the window does not own, answers Completer Abort instead. -/
def Obligations.WindowReadReturnsReservoirBytes : Prop :=
  ∀ (addr len : Nat) (s : State), s.power.porHeld = false → s.power.resetPhase ≠ .held → s.power.state = 0 → 0 < len →
    (s.windowOk addr len = true → len ≤ s.host.maxPayload →
      Yields (.bar4Access addr len none none false) s (fun t =>
        (∃ l, t.out = s.out ++ Out.reply .host (s.rdBytes addr len) :: l) ∧ (∀ a, t.rdByte a = s.rdByte a) ∧
        (∀ r i, i < r.entries → t.word r i = s.word r i))) ∧
    ((s.windowOk addr len = false ∨ s.host.maxPayload < len) →
      Yields (.bar4Access addr len none none false) s (fun t =>
        (∃ l, t.out = s.out ++ Out.readError .host .abort :: l) ∧ ∀ a, t.rdByte a = s.rdByte a))

/-- Below P0, a register access outside the HIF, TASK, GLB, PWR and SVC blocks and every BAR4 access is held, in the order of
arrival, and wakes the device; until it is served no register and no byte of Reservoir changes. -/
def Obligations.SleepingBlocksHoldTheirAccesses : Prop :=
  ∀ (rq : Requester) (bar off size value : Nat) (s : State), s.canAccess rq bar off = true → s.power.state ≠ 0 →
    servedAt bar off = false →
    Yields (.registerWrite rq bar off size value) s (fun t =>
      t.power.held = s.power.held ++ [HeldAccess.mk rq (.write bar off size value)] ∧ t.power.waking ≠ 0 ∧
      (∀ r i, i < r.entries → t.word r i = s.word r i) ∧ ∀ a, t.rdByte a = s.rdByte a) ∧
    Yields (.registerRead rq bar off size) s (fun t =>
      t.power.held = s.power.held ++ [HeldAccess.mk rq (.read bar off size)] ∧ t.power.waking ≠ 0 ∧
      (∀ r i, i < r.entries → t.word r i = s.word r i) ∧ ∀ a, t.rdByte a = s.rdByte a)

/-- In every sound state, bit c of GLB_CAUSE is 1 exactly when some W1C field of some entry of a register of block c is not 0. -/
def Obligations.CauseBitsAreTheOrOfTheEventBits : Prop :=
  ∀ (s : State) (c : Nat), Sound s → c < 18 →
    ((s.live .GLB_CAUSE 0).getLsbD c = true ↔
      ∃ r i, i < r.entries ∧ r.place.blk.cause = some c ∧ s.word r i &&& r.accMask .w1c ≠ 0#32)

/-- Over all 243 commands: a command that answers a next state ends by signalling the vectors whose enabled summary was 0 before it and
is 1 after it. The messages of those that the MSI-X table leaves unmasked leave last, in vector order and once each, and
the pending bits of the masked ones are 1. That a rise within a command that falls again before its end is not seen is the
model's choice (assumption 18). -/
def Obligations.EveryRiseIsSignalled : Prop :=
  ∀ (c : Instr) (s t : State), exec c s = .next t →
    (∃ l, t.out = l ++ ((t.raised.filter (fun v => !s.raised.contains v && t.msixWord (4 * v + 3) % 2 == 0)).map
      (fun v => Out.msix v (t.msixWord (4 * v) + 2 ^ 32 * t.msixWord (4 * v + 1)) (t.msixWord (4 * v + 2))))) ∧
    (∀ v ∈ t.raised, v ∉ s.raised → t.msixWord (4 * v + 3) % 2 ≠ 0 → bitOf t.host.pba v = true)

/-- TASK_GO, while BUSY is 0 (and no device reset closes intake), the queue runs and the tail lies in the ring, sets TASK_SQ_TAIL to the
written value; otherwise it leaves TASK_SQ_TAIL, sets GO_REFUSED and counts in TASK_REFUSED (R194). TASK_Q_CTRL.EN rising starts the
queue with RUNNING and PHASE 1 and head and tail 0 where both bases are 4 KiB aligned, leaves RUNNING as it is where one is not, and
EN falling clears RUNNING (R193). QRESET of a running queue ends its unstarted tasks with ABORTED_RESET (0x0051), which keep their range locks until they complete, and where
nothing is left to wait for the reset is complete at once: head and tail 0, PHASE 1, QRESET_BUSY 0 (R214). TASK_CQ_HEAD takes the written head. -/
def Obligations.TaskQueueRegistersActWhenWritten : Prop :=
  ∀ (q : Nat) (w : Word) (s : State), q < 8 →
    (Served s .TASK_GO →
      (s.ison TASK_STATUS.BUSY = false ∧ s.draining = false ∧ TASK_GO.TAIL.get w < s.sqSize q ∧ s.isoni TASK_Q_STATUS.RUNNING q = true →
        Yields (.taskGo q w) s (fun t => t.geti TASK_SQ_TAIL.TAIL q = TASK_GO.TAIL.get w ∧
          t.geti TASK_Q_STATUS.GO_REFUSED q = s.geti TASK_Q_STATUS.GO_REFUSED q ∧ t.get TASK_REFUSED.COUNT = s.get TASK_REFUSED.COUNT)) ∧
      (s.ison TASK_STATUS.BUSY = true ∨ s.draining = true ∨ s.sqSize q ≤ TASK_GO.TAIL.get w ∨ s.isoni TASK_Q_STATUS.RUNNING q = false →
        Yields (.taskGo q w) s (fun t => t.geti TASK_SQ_TAIL.TAIL q = s.geti TASK_SQ_TAIL.TAIL q ∧
          t.geti TASK_Q_STATUS.GO_REFUSED q = 1 ∧ t.get TASK_REFUSED.COUNT = min (s.get TASK_REFUSED.COUNT + 1) (2 ^ 32 - 1)))) ∧
    (Served s .TASK_Q_CTRL →
      (TASK_Q_CTRL.EN.get w = 1 → TASK_Q_CTRL.QRESET.get w = 0 → s.geti TASK_Q_CTRL.EN q = 0 →
        s.sqBase q % 4096 = 0 → s.cqBase q % 4096 = 0 →
        Yields (.queueEnable q w) s (fun t => t.geti TASK_Q_CTRL.EN q = 1 ∧ t.geti TASK_Q_STATUS.RUNNING q = 1 ∧
          t.geti TASK_Q_STATUS.PHASE q = 1 ∧ t.geti TASK_SQ_HEAD.HEAD q = 0 ∧ t.geti TASK_SQ_TAIL.TAIL q = 0)) ∧
      (TASK_Q_CTRL.EN.get w = 1 → TASK_Q_CTRL.QRESET.get w = 0 → s.geti TASK_Q_CTRL.EN q = 0 →
        (s.sqBase q % 4096 ≠ 0 ∨ s.cqBase q % 4096 ≠ 0) →
        Yields (.queueEnable q w) s (fun t => t.geti TASK_Q_CTRL.EN q = 1 ∧
          t.geti TASK_Q_STATUS.RUNNING q = s.geti TASK_Q_STATUS.RUNNING q)) ∧
      (TASK_Q_CTRL.EN.get w = 0 → s.geti TASK_Q_CTRL.EN q = 1 →
        Yields (.queueEnable q w) s (fun t => t.geti TASK_Q_CTRL.EN q = 0 ∧ t.geti TASK_Q_STATUS.RUNNING q = 0)) ∧
      (TASK_Q_CTRL.EN.get w = 1 → s.geti TASK_Q_CTRL.EN q = 1 → s.geti TASK_Q_STATUS.RUNNING q = 1 →
        (∃ x ∈ s.host.tasks, x.queue = q ∧ x.silent = false) →
        Yields (.qreset q w) s (fun t => t.geti TASK_Q_STATUS.QRESET_BUSY q = 1 ∧
          (∀ x ∈ s.host.tasks, x.queue = q → x.started = false → x.done = none →
            { x with done := some (0x0051, 0) } ∈ t.host.tasks))) ∧
      (TASK_Q_CTRL.EN.get w = 1 → s.geti TASK_Q_CTRL.EN q = 1 → s.geti TASK_Q_STATUS.RUNNING q = 1 →
        s.geti TASK_SQ_HEAD.HEAD q = s.geti TASK_SQ_TAIL.TAIL q → s.host.tasks = [] → (s.queue q).unreleased = 0 →
        Yields (.qreset q w) s (fun t => t.geti TASK_SQ_HEAD.HEAD q = 0 ∧ t.geti TASK_SQ_TAIL.TAIL q = 0 ∧
          t.geti TASK_Q_STATUS.PHASE q = 1 ∧ t.geti TASK_Q_STATUS.QRESET_BUSY q = 0))) ∧
    (Served s .TASK_CQ_HEAD →
      Yields (.cqHeadWrite q w) s (fun t => t.geti TASK_CQ_HEAD.HEAD q = TASK_CQ_HEAD.HEAD.get w))

/-- A fetch of the queue whose turn it is takes the entry at the head: the head moves on, and the fields of the entry are the task's
(R196, R197); a check that fails ends the task with its status (R203). A failed fetch stops the queue with FETCH_ERR and keeps its
head. NOP ends with OK (R199). A task that has ended completes in its turn: the 16 bytes of its completion entry go to the next
place of its ring (R206). The coalescing timer signals the unsignalled entries (R207). A host stall ends the tasks that it holds
with 0x0040 and sets HOST_STALL: those that wait on posted credits, which leave their lock and their Basin buffers (R210), or those
that have some of their source still to read (R211); which tasks other than a READ_EXTENT wait on credits is the model's reading
(assumption 115). A read without completion for 50 ms stops its queue or ends its task (R190). -/
def Obligations.TasksRunToTheirCompletionEntries : Prop :=
  ∀ (s : State), Sound s →
    (∀ q bs list reason, s.fetchQueue = some q → s.host.tasks.countP (fun x => x.locked) < 256 →
      Yields (.taskFetch (some bs) list reason) s (fun t =>
        t.geti TASK_SQ_HEAD.HEAD q = (s.geti TASK_SQ_HEAD.HEAD q + 1) % s.sqSize q ∧
        ∃ x, t.host.tasks = s.host.tasks ++ [x] ∧ x.id = s.host.nextId ∧ x.queue = q ∧ x.opcode = leAt bs 0 1 ∧ x.flags = leAt bs 1 1 ∧
          x.tag = leAt bs 2 2 ∧ x.count = leAt bs 4 4 ∧ x.target = leAt bs 8 8 ∧ x.addr = leAt bs 16 8 ∧ x.started = false ∧
          (s.isoni TASK_Q_STATUS.QRESET_BUSY q = true → x.done = some (0x0051, 0)) ∧
          (s.isoni TASK_Q_STATUS.QRESET_BUSY q = false → s.host.drainExpired = false → opFlags (leAt bs 0 1) = none → x.done = some (0x0020, 0)))) ∧
    (∀ q list reason, s.fetchQueue = some q →
      Yields (.taskFetch none list reason) s (fun t => t.geti TASK_Q_STATUS.RUNNING q = 0 ∧ t.geti TASK_Q_STATUS.FETCH_ERR q = 1 ∧
        t.geti TASK_SQ_HEAD.HEAD q = s.geti TASK_SQ_HEAD.HEAD q ∧ t.get HIF_EVENT.DMA_ERR = 1 ∧ t.host.tasks = s.host.tasks)) ∧
    (∀ k x, s.task? k = some x → x.opcode = 0 → s.mayStart x = true →
      Yields (.nop k) s (fun t => t.host.tasks = s.host.tasks.map (fun y => if y.id = k then { y with started := true, done := some (0, 0) } else y))) ∧
    (∀ k x st res, s.task? k = some x → x.queue < 8 → x.done = some (st, res) → x.silent = false → s.inTurn x = true → (s.queue x.queue).awaitZero = false →
      Yields (.taskComplete k) s (fun t => t.host.tasks = s.host.tasks.filter (fun y => y.id != k) ∧
        Out.hostWrite (s.cqBase x.queue + 16 * (s.queue x.queue).cqPos)
          (leBytes 2 x.tag ++ leBytes 2 (s.shownStatus st) ++ leBytes 2 x.sqHead ++ leBytes 1 x.queue
            ++ leBytes 1 (s.geti TASK_Q_STATUS.PHASE x.queue) ++ leBytes 8 res) false ∈ t.out)) ∧
    (∀ q, q < 8 → s.geti TASK_CQ_COAL.TIME_US q ≠ 0 → (s.queue q).unsignalled ≠ 0 →
      Yields (.cqCoalesceTimer q) s (fun t => (t.queue q).unsignalled = 0 ∧
        (s.msixWord (4 * q + 3) % 2 = 0 → Out.msix q (s.msixWord (4 * q) + 2 ^ 32 * s.msixWord (4 * q + 1)) (s.msixWord (4 * q + 2)) ∈ t.out))) ∧
    (∀ x, x ∈ s.host.tasks → x.done = none →
      (x.started = true → (x.landed ≠ [] ∨ x.writesHost = true) →
        Yields (.hostStall true) s (fun t => t.get HIF_EVENT.HOST_STALL = 1 ∧
          { x with locked := false, landed := [], done := some (0x0040, x.stalledResult) } ∈ t.host.tasks)) ∧
      (x.readsHost = true → (x.opcode = 2 → x.progress < x.count) → s.mayRun x = true →
        Yields (.hostStall false) s (fun t => t.get HIF_EVENT.HOST_STALL = 1 ∧
          { x with started := true, landed := [], done := some (0x0040, x.stalledResult) } ∈ t.host.tasks))) ∧
    (∀ q addr, q < 8 → s.isoni TASK_Q_STATUS.RUNNING q = true →
      Yields (.dmaReadTimeout q none addr) s (fun t => t.geti TASK_Q_STATUS.RUNNING q = 0 ∧ t.geti TASK_Q_STATUS.FETCH_ERR q = 1 ∧
        t.get HIF_EVENT.DMA_ERR = 1 ∧ (s.get HIF_EVENT.DMA_ERR = 0 → t.get HIF_DMA_ERR_INFO.REASON = 3 ∧ t.get HIF_DMA_ERR_INFO.QUEUE = q))) ∧
    (∀ q k x addr, s.task? k = some x → x.done = none → (x.readsHost = true ∨ x.sgl = true) →
      Yields (.dmaReadTimeout q (some k) addr) s (fun t => t.get HIF_EVENT.DMA_ERR = 1 ∧
        ∃ y ∈ t.host.tasks, y.id = k ∧
          y.done = some (0x0030, if (x.opcode = 2 ∧ x.atomic = false) ∨ x.opcode = 0x13 then x.progress else 0)))

/-- Out of a power-on reset and of a device reset, a Function Level Reset, LINK_DOWN and a fall of PERST_N leave what every
function-level reset leaves; the first keeps the state of the link, the others lose it (LINK_UP 0). HIF_CTRL written with SOFT_RESET does
the same with SOFT_BUSY and BUSY at 1 and the link kept, and SOFT_DONE ends it: SOFT_BUSY 0, FUNC_READY 1, the event at 1 (R213). -/
def Obligations.FunctionLevelResetsResetTheirDomainAlone : Prop :=
  ∀ (s : State), Sound s →
    (s.power.porHeld = false → s.draining = false →
      Yields .functionLevelReset s (fun t => FunctionReset s t ∧ t.get HIF_STATUS.LINK_UP = s.get HIF_STATUS.LINK_UP ∧ t.power.d3hot = false) ∧
      Yields .linkDown s (fun t => FunctionReset s t ∧ t.get HIF_STATUS.LINK_UP = 0 ∧ t.svc.log ≠ []) ∧
      Yields (.perstN true) s (fun t => FunctionReset s t ∧ t.get HIF_STATUS.LINK_UP = 0 ∧ t.power.perstLow = true)) ∧
    (∀ w, Served s .HIF_CTRL →
      Yields (.softReset w) s (fun t => FunctionReset s t ∧ t.get HIF_STATUS.LINK_UP = s.get HIF_STATUS.LINK_UP ∧
        t.get HIF_STATUS.SOFT_BUSY = 1 ∧ t.get TASK_STATUS.RESET = 1 ∧ t.get TASK_STATUS.BUSY = 1)) ∧
    (s.ison HIF_STATUS.SOFT_BUSY = true →
      Yields .softDone s (fun t => t.get HIF_STATUS.SOFT_BUSY = 0 ∧ t.get HIF_STATUS.FUNC_READY = 1 ∧ t.get HIF_EVENT.SOFT_DONE = 1 ∧
        t.get TASK_STATUS.RESET = 0)) ∧
    Yields (.perstN false) s (fun t => t.power.perstLow = false ∧ ∀ r i, i < r.entries → t.word r i = s.word r i)

/-- PCIE_LINK_UP shows the link's rate, width and mode unless the block is held by a power-on reset or PERST_N (R191). LINK_RECOVERY
sets its event and a corrected flit error of a bridge is logged; neither changes another register. FUNCTION_READY sets FUNC_READY where no
reset holds. -/
def Obligations.TheLinkComesUpAndRecovers : Prop :=
  ∀ (s : State),
    (∀ rate width flit, s.power.porHeld = false → s.power.perstLow = false →
      Yields (.pcieLinkUp rate width flit) s (fun t => t.get HIF_STATUS.LINK_UP = 1 ∧ t.get HIF_STATUS.RATE = rate % 16 ∧
        t.get HIF_STATUS.WIDTH = width % 32 ∧ t.get HIF_STATUS.FLIT = (if flit then 1 else 0) ∧
        t.get HIF_STATUS.FUNC_READY = s.get HIF_STATUS.FUNC_READY)) ∧
    Yields .linkRecovery s (fun t => t.get HIF_EVENT.LINK_RECOVERY = 1 ∧
      (t.svc.log.getLast?).map (fun e => (e.getD 8 0#8, e.getD 9 0#8)) = some (4#8, 0#8) ∧
      ∀ r i, i < r.entries → r ≠ .HIF_EVENT → t.word r i = s.word r i) ∧
    (s.power.porHeld = false →
      Yields .bridgeFlitError s (fun t => (t.svc.log.getLast?).map (fun e => (e.getD 8 0#8, e.getD 9 0#8)) = some (3#8, 0#8) ∧
        ∀ r i, i < r.entries → t.word r i = s.word r i)) ∧
    (s.power.porHeld = false → s.draining = false → s.power.perstLow = false → s.ison HIF_STATUS.SOFT_BUSY = false →
      Yields .functionReady s (fun t => t.get HIF_STATUS.FUNC_READY = 1 ∧ t.get HIF_STATUS.LINK_UP = s.get HIF_STATUS.LINK_UP))

/-- TRST_BOARD_N, THERMTRIP and PWR_RST_CTRL.DEVICE with its KEY begin the drain of a device reset where no reset is under way; while the
power-loss sequence runs the reset waits for PF_SAFE (R463). At the drain's end every register of the device and function-level domains
reads its reset value (but for the link, the images, the fuses, the key slots and what the time lock and the power state show), no register of the
power-on domain changes but those of the clusters, of the start and PWR_RST_CAUSE (and, out of P2 or P3, the Sundial's state, which may hold over), no task and no plan is left, and the device
stands in P0. The release ends a held reset (R457, R462). -/
def Obligations.DeviceResetsDrainAndResetTheirDomains : Prop :=
  ∀ (s : State), Sound s →
    (s.power.porHeld = false → s.draining = false → s.power.resetDeferred = false →
      (s.ison AQF_STATUS.PF = false →
        Yields .trstBoardN s (fun t => t.power.resetPhase = .drain ∧ t.power.resetSource = .trst ∧ t.power.trstLow = true) ∧
        (s.power.thermHeld = false → Yields .thermtrip s (fun t => t.power.resetPhase = .drain ∧ t.power.resetSource = .thermal ∧ t.power.thermHeld = true ∧
          t.get PWR_EVENT.THERMTRIP = 1 ∧ Out.pin "ALERT_N" false ∈ t.out)) ∧
        (∀ w, Served s .PWR_RST_CTRL → PWR_RST_CTRL.KEY.get w = 0xDE57 →
          Yields (.deviceResetRequest w) s (fun t => t.power.resetPhase = .drain ∧ t.power.resetSource = .register))) ∧
      (∀ w, Served s .PWR_RST_CTRL → PWR_RST_CTRL.KEY.get w ≠ 0xDE57 →
        Yields (.deviceResetRequest w) s (fun t => t.power.resetPhase = .none ∧ ∀ r i, i < r.entries → t.word r i = s.word r i)) ∧
      (s.ison AQF_STATUS.PF = true → s.get AQF_STATUS.PF_SAFE = 0 →
        Yields .trstBoardN s (fun t => t.power.resetPhase = .none ∧ t.power.resetDeferred = true))) ∧
    (s.power.resetPhase = .drain → s.aqf.allDrained = true →
      Yields .deviceResetDrainDone s (fun t =>
        (∀ r i, i < r.entries → r.place.dom ≠ .poweron → r ≠ .HIF_STATUS → r ≠ .HIF_PWR_STATUS → r ≠ .SVC_FW_STATUS → r ≠ .RSV_SPARE_COL →
          r ≠ .RSV_FIELD_CTRL → r ≠ .INL_STATUS → r ≠ .INL_EVENT → r ≠ .CSC_SIGN_CTRL → t.word r i = regDflt (r, i)) ∧
        t.get CSC_SIGN_CTRL.LOCK = 0 ∧ t.get CSC_SIGN_CTRL.ENFORCE = 0 ∧
        (∀ r i, i < r.entries → r.place.dom = .poweron → r ≠ .PWR_STATUS → r ≠ .PWR_VOLT → r ≠ .PWR_RST_CAUSE →
          (s.power.state < 2 ∨ (r ≠ .SDL_STATUS ∧ r ≠ .SDL_EVENT ∧ r ≠ .SDL_FREQ)) → t.word r i = s.word r i) ∧
        t.get PWR_RST_CAUSE.DEV_RESETS = min (s.get PWR_RST_CAUSE.DEV_RESETS + 1) 255 ∧ t.get PWR_STATUS.CASCADE_UP = 0 ∧
        t.host.tasks = [] ∧ t.rills = State.reset.rills ∧ t.power.state = 0 ∧ t.svc.copies = s.svc.copies ∧
        t.power.resetPhase = (if s.power.trstLow || s.power.thermHeld then .held else .none))) ∧
    (s.power.resetPhase = .held → s.power.thermHeld = false →
      Yields .trstBoardNRelease s (fun t => t.power.resetPhase = .none ∧ t.power.trstLow = false)) ∧
    (s.power.resetPhase = .held → s.power.thermHeld = true → s.power.trstLow = false →
      Yields .thermtripRelease s (fun t => t.power.resetPhase = .none ∧ t.power.thermHeld = false ∧ t.get PWR_STATUS.WARDEN_UP = 1))

/-- A power-on reset and the loss of the reference leave every register but SVC_FW_STATUS and the key slots that CSC_SIGN_CTRL shows at its reset value, no task, and the block
held; the images, the ledger and the fuses keep what they hold. The release starts the warden. Then, where no reset holds: the PLL
locks; the Cistern is ready; ONFI discovery begins the mount; and once the firmware is verified Keeper is up and intake opens (R464). -/
def Obligations.PowerOnStartsFromTheResetState : Prop :=
  ∀ (s : State), Sound s →
    (∀ c, (c = Instr.powerOnReset ∨ c = Instr.referenceLoss) →
      Yields c s (fun t => (∀ r i, i < r.entries → r ≠ .SVC_FW_STATUS → r ≠ .CSC_SIGN_CTRL → t.word r i = regDflt (r, i)) ∧ t.power.porHeld = true ∧
        t.host.tasks = [] ∧ t.svc.copies = s.svc.copies ∧ t.svc.slots = s.svc.slots ∧ t.basin.fuses = s.basin.fuses)) ∧
    (s.power.porHeld = true →
      Yields .powerOnResetRelease s (fun t => t.power.porHeld = false ∧ t.get PWR_STATUS.WARDEN_UP = 1)) ∧
    (s.power.porHeld = false → s.draining = false → s.power.state < 3 →
      Yields .pllLock s (fun t => t.get PWR_STATUS.PLL_LOCK = 1 ∧ ∀ r i, i < r.entries → r ≠ .PWR_STATUS → t.word r i = s.word r i)) ∧
    (s.power.porHeld = false → s.draining = false → s.ison PWR_STATUS.PLL_LOCK = true →
      Yields .cisternInitDone s (fun t => t.power.cistern = true ∧ ∀ r i, i < r.entries → t.word r i = s.word r i) ∧
      (s.power.onfi = false → ∀ found,
        Yields (.onfiDiscoveryDone found) s (fun t => t.power.onfi = true ∧ t.get AQF_STATUS.MOUNTING = 1 ∧
          t.aqf.geometry = (firstGeometry found.dies).filter DieGeometry.accepted))) ∧
    (s.power.porHeld = false → s.draining = false → s.power.cistern = true → s.power.state < 3 → s.ison TST_MODE.EN = false →
      s.svc.dispatcher = none → s.svc.wardenDown = false → s.ison SVC_STATUS.KEEPER_RESTARTING = false → s.power.warm = false →
      Yields .firmwareVerified s (fun t => t.get HIF_STATUS.KEEPER_UP = 1 ∧ t.svc.dispatcher = some 0 ∧ t.get TASK_STATUS.KEEPER = 0))

/-- P1, P2 and P3 are entered one after the other under the conditions of R216, each shown in HIF_PWR_STATUS; P2 gates the clusters (their
voltages read 0) and P3, once Aquifer is clean, loses Reservoir's contents, the Reed caches and Keeper (R449). A POWER task with TARGET 0 holds the device in P0
or wakes it; with TARGET 3 it waits for P3, and fails with 0x0011 after its time (R218). I3C, the timer and a Spout's signal set
their wake bits where they are enabled (R458). The exit shows its cause and time, returns to P0, and then serves what was held, in its
order (R217, R467). -/
def Obligations.PowerStatesAreEnteredInOrderAndLeftByWaking : Prop :=
  ∀ (s : State), Sound s →
    (s.power.state = 0 → s.maySleep = true → s.quiet = true → (s.power.p3Task ≠ none ∨ (s.get HIF_PWR_CTRL.IDLE1_US ≠ 0 ∧ 1 ≤ s.maxState)) →
      Yields .p1Entry s (fun t => t.power.state = 1 ∧ t.get HIF_PWR_STATUS.STATE = 1 ∧
        ∀ r i, i < r.entries → r ≠ .HIF_PWR_STATUS → t.word r i = s.word r i)) ∧
    (s.power.state = 1 → s.maySleep = true → s.quiet = true → s.releasing = false →
      (s.power.p3Task ≠ none ∨ (s.get HIF_PWR_CTRL.IDLE1_US ≠ 0 ∧ 2 ≤ s.maxState)) →
      Yields .p2Entry s (fun t => t.power.state = 2 ∧ t.get HIF_PWR_STATUS.STATE = 2 ∧ (∀ k, k < 4 → t.word .PWR_VOLT k = 0#32) ∧
        ∀ r i, i < r.entries → r ≠ .HIF_PWR_STATUS → r ≠ .PWR_VOLT → t.word r i = s.word r i)) ∧
    (s.power.state = 2 → s.maySleep = true → s.quiet = true →
      (s.power.p3Task ≠ none ∨ (s.get HIF_PWR_CTRL.IDLE1_US ≠ 0 ∧ s.get HIF_PWR_CTRL.IDLE3_S ≠ 0 ∧ 3 ≤ s.maxState)) →
      s.checkpointAll.aqfClean = true →
      Yields .p3Entry s (fun t => t.power.state = 3 ∧ t.get HIF_PWR_STATUS.STATE = 3 ∧ t.get HIF_STATUS.KEEPER_UP = 0 ∧
        t.caches = List.replicate 16 [] ∧ ∃ n, ∀ a, a < 2 ^ 28 → t.rdByte a = Config.staleByte n a)) ∧
    (∀ us, s.power.state ≠ 0 → s.power.waking ≠ 0 → s.svc.wardenDown = false → s.power.porHeld = false → s.draining = false →
      Yields (.pExit us) s (fun t => ∃ u : State, t = finish s (s.power.held.foldl (fun (v : State) a => v.serve a) u).refill ∧ u.power.state = 0 ∧ u.power.waking = 0 ∧
        u.power.held = [] ∧ u.get HIF_PWR_STATUS.STATE = 0 ∧ u.get HIF_PWR_STATUS.LAST_EXIT_US = min 65535 us ∧ u.get PWR_EVENT.WAKE = 1 ∧ u.get HIF_EVENT.P_EXIT = 1 ∧
        u.word .PWR_WAKE_CAUSE 0 = BitVec.ofNat 32 s.power.waking)) ∧
    (∀ k x, s.task? k = some x → x.opcode = 0x28 →
      (x.target = 0 → s.power.state = 0 → s.mayStart x = true →
        Yields (.power k) s (fun t => t.power.hold0 = true ∧ ∃ y ∈ t.host.tasks, y.id = k ∧ y.done = some (0, 0))) ∧
      (x.target = 0 → s.power.state ≠ 0 →
        Yields (.power k) s (fun t => bitOf t.power.waking 2 = true ∧ t.host.tasks = s.host.tasks)) ∧
      (x.target ≠ 0 → s.power.p3Task = none → s.mayStart x = true →
        Yields (.power k) s (fun t => t.power.p3Task = some k ∧ t.power.hold0 = false ∧ ∃ y ∈ t.host.tasks, y.id = k ∧ y.started = true ∧ y.done = none))) ∧
    (∀ k x, s.power.p3Task = some k → s.power.state < 2 → s.task? k = some x →
      Yields .powerTaskTimeout s (fun t => t.power.p3Task = none ∧ ∃ y ∈ t.host.tasks, y.id = k ∧ y.done = some (0x0011, 0))) ∧
    (∀ enter, Yields (.d3hotTransition enter) s (fun t => t.power.d3hot = enter ∧ ∀ r i, i < r.entries → t.word r i = s.word r i)) ∧
    (s.power.state ≠ 0 → s.ison PWR_WAKE_EN.I3C = true → Yields .i3cWake s (fun t => bitOf t.power.waking 3 = true)) ∧
    (s.power.state = 3 → s.ison PWR_WAKE_EN.TIMER = true → s.get PWR_WAKE_TIMER.S ≠ 0 → Yields .wakeTimer s (fun t => bitOf t.power.waking 4 = true)) ∧
    (∀ k, k < 24 → s.power.state = 3 → s.ison PWR_WAKE_EN.SPOUT_SD = true → s.isoni SPT_CTRL.EN k = true →
      Yields (.spoutSignalDetect k) s (fun t => bitOf t.power.waking 5 = true))

/-- Every 10 µs a powered cluster with too little slack gains 5 mV, to 850 at most, and one with none of either mark keeps its voltage (R453).
A regulator fault aims at the lowest point (R454). A decision shows the measured power; above the limit or the target it aims one
step down, naming why, and after ten calm decisions one step up (R455). The change takes the new point, with OP_DOWN and what
limited it, or OP_UP (R456). -/
def Obligations.VoltageAndOperatingPointFollowTheirLoops : Prop :=
  ∀ (s : State), Sound s →
    (∀ slack c, c < 8 → s.awake = true → s.power.state < 2 → s.volt c ≠ 0 →
      (slack.getD c (false, false) = (true, false) → s.volt c < 850 →
        Yields (.voltageAdjust slack) s (fun t => t.volt c = min 850 (s.volt c + 5))) ∧
      (slack.getD c (false, false) = (false, false) → Yields (.voltageAdjust slack) s (fun t => t.volt c = s.volt c))) ∧
    (s.power.porHeld = false →
      Yields .vrFault s (fun t => t.get PWR_STATUS.VR_FAULT = 1 ∧ t.get PWR_EVENT.VR_FAULT = 1 ∧ t.power.opTarget = some ⟨s.opMin, false, false⟩)) ∧
    (∀ powerW tj, s.awake = true →
      (s.powerLimit < powerW → s.opMin < s.get PWR_OP.CURRENT →
        Yields (.frequencyDecision powerW tj) s (fun t => t.get PWR_MEAS.POWER_W = min 1023 powerW ∧
          t.power.opTarget = some ⟨s.get PWR_OP.CURRENT - 1, true, decide ((s.tjTarget : Int) < tj)⟩)) ∧
      (100 * powerW ≤ 95 * s.powerLimit → tj + 3 ≤ (s.tjTarget : Int) → 9 ≤ s.power.okMs → s.opMin ≤ s.get PWR_OP.CURRENT →
        s.get PWR_OP.CURRENT < s.opMax →
        Yields (.frequencyDecision powerW tj) s (fun t => t.get PWR_MEAS.POWER_W = min 1023 powerW ∧ t.power.okMs = 0 ∧
          t.power.opTarget = some ⟨s.get PWR_OP.CURRENT + 1, false, false⟩))) ∧
    (∀ x, s.power.opTarget = some x → s.power.porHeld = false → x.target < 8 →
      Yields .opChange s (fun t => t.get PWR_OP.CURRENT = x.target ∧ t.power.opTarget = none ∧
        (x.target < s.get PWR_OP.CURRENT → t.get PWR_EVENT.OP_DOWN = 1 ∧ t.get PWR_STATUS.POWER_LIMITED = (if x.forPower then 1 else 0) ∧
          t.get PWR_STATUS.THERMAL_LIMITED = (if x.forHeat then 1 else 0)) ∧
        (s.get PWR_OP.CURRENT < x.target → t.get PWR_EVENT.OP_UP = 1)))

/-- On a port where PTP runs, of a message of the device's domain: an Announce is kept as that port's master, and the source is selected anew (R377).
A one-step Sync of the source port, and a two-step one with its Follow_Up, give the offset receipt − origin − mean delay − half the asymmetry, which
SDL_OFFSET shows clamped. A Delay_Resp gives the mean delay of its exchange, a Pdelay_Resp_Follow_Up the peer delay, and makes the
port asCapable. As a master the device answers Delay_Req, and sends Announce, Sync and Follow_Up every interval; under IEEE
802.1AS it answers Pdelay_Req. Signaling within −7 to +1 sets the interval, and a management message changes nothing. A message of another
domain, and under IEEE 802.1AS one over UDP, changes nothing (R383). -/
def Obligations.PtpMessagesAreTakenAnsweredAndMeasured : Prop :=
  ∀ (s : State) (m : PtpFrom), let p := m.port
    let dom := s.ptpDomain
    (s.ison SDL_CTRL.PROFILE = true → (m.transport ≠ .ieee8023 ∨ m.domain ≠ 0) → s.hears m = false) ∧
    (s.ison SDL_CTRL.PROFILE = false → m.domain ≠ s.get SDL_CLOCK.DOMAIN → s.hears m = false) ∧
    (s.hears m = false → ∀ c seq a b two log,
      ∀ x ∈ [Instr.ptpAnnounce m c, .ptpSync m seq a b two, .ptpFollowUp m seq a, .ptpDelayReq m seq a, .ptpDelayResp m seq a, .ptpPdelayReq m seq a,
        .ptpPdelayResp m seq a b, .ptpPdelayRespFollowUp m seq a, .ptpSignaling m log], Yields x s (fun t => t = s)) ∧
    Yields (.ptpManagement m) s (fun t => t = s) ∧
    (s.hears m = true → s.ptpPort p = true →
      (∀ c, Yields (.ptpAnnounce m c) s (fun t => (p, c) ∈ t.sundial.ptp ∧
        let u : State := { s with sundial := { s.sundial with ptp := putPort p c s.sundial.ptp } }
        t.get SDL_STATUS.SOURCE_KIND = u.source.1 % 16 ∧ t.get SDL_STATUS.SOURCE_PORT = u.source.2 % 32)) ∧
      (∀ seq phase origin, s.isSource kindPtp p = true →
        Yields (.ptpSync m seq phase origin false) s (fun t => t.get SDL_OFFSET.OFFSET = ofSigned 32 (clampInt (-(2 ^ 31)) (2 ^ 31 - 1)
          ((s.stamp phase : Int) - origin - (assocGet id p s.sundial.meanDelay).getD 0 - s.asym p / 2))) ∧
        Yields (.ptpSync m seq phase origin true) s (fun t => ⟨p, seq, s.stamp phase⟩ ∈ t.sundial.syncs ∧
          t.get SDL_OFFSET.OFFSET = s.get SDL_OFFSET.OFFSET)) ∧
      (∀ seq origin x, s.sundial.syncs.find? (fun x => x.port == p && x.seq == seq) = some x → s.isSource kindPtp p = true →
        Yields (.ptpFollowUp m seq origin) s (fun t => t.get SDL_OFFSET.OFFSET =
          ofSigned 32 (clampInt (-(2 ^ 31)) (2 ^ 31 - 1) ((x.rx : Int) - origin - (assocGet id p s.sundial.meanDelay).getD 0 - s.asym p / 2)))) ∧
      (∀ seq phase, s.serves = true → s.isSource kindPtp p = false → s.ison SDL_CTRL.PROFILE = false →
        Yields (.ptpDelayReq m seq phase) s (fun t => Out.ptp p dom "Delay_Resp" seq [s.stamp phase] ∈ t.out)) ∧
      (∀ seq masterRx x, s.sundial.delays.find? (fun x => x.port == p && x.seq == seq) = some x → s.isSource kindPtp p = true →
        s.ison SDL_CTRL.PROFILE = false →
        Yields (.ptpDelayResp m seq masterRx) s (fun t =>
          let mean := (((x.rx : Int) - x.peerRx) + ((masterRx : Int) - x.tx)) / 2
          assocGet id p t.sundial.meanDelay = some mean ∧
          t.get SDL_OFFSET.OFFSET = ofSigned 32 (clampInt (-(2 ^ 31)) (2 ^ 31 - 1) ((x.rx : Int) - x.peerRx - mean - s.asym p / 2)))) ∧
      (∀ seq phase, s.ison SDL_CTRL.PROFILE = true → (s.serves = true ∨ s.isSource kindPtp p = true) →
        Yields (.ptpPdelayReq m seq phase) s (fun t => Out.ptp p dom "Pdelay_Resp" seq [s.stamp phase] ∈ t.out ∧
          Out.ptp p dom "Pdelay_Resp_Follow_Up" seq [s.time] ∈ t.out)) ∧
      (∀ seq phase peerRx x, x ∈ s.sundial.delays → x.port = p → x.seq = seq →
        Yields (.ptpPdelayResp m seq phase peerRx) s (fun t => { x with rx := s.stamp phase, peerRx := peerRx } ∈ t.sundial.delays)) ∧
      (∀ seq peerTx x, s.sundial.delays.find? (fun x => x.port == p && x.seq == seq) = some x → s.ison SDL_CTRL.PROFILE = true → x.rx ≠ 0 →
        Yields (.ptpPdelayRespFollowUp m seq peerTx) s (fun t =>
          assocGet id p t.sundial.meanDelay = some ((((x.rx : Int) - x.tx) - ((peerTx : Int) - x.peerRx)) / 2) ∧ p ∈ t.sundial.asCapable ∧
          (24 ≤ p → p < 26 → t.geti INL_STATUS.AS_CAPABLE (p - 24) = 1))) ∧
      (∀ log, s.ison SDL_CTRL.PROFILE = true → -7 ≤ log → log ≤ 1 →
        Yields (.ptpSignaling m log) s (fun t => assocGet id p t.sundial.intervals = some log))) ∧
    (s.serves = true → s.ptpPort p = true → s.isSource kindPtp p = false →
      Yields (.ptpSyncInterval p) s (fun t => ∃ n log, Out.ptp p dom "Announce" n (s.announced ++ [log]) ∈ t.out ∧ Out.ptp p dom "Sync" n [log] ∈ t.out ∧
        Out.ptp p dom "Follow_Up" n [s.time] ∈ t.out ∧
        (s.ison SDL_CTRL.PROFILE = true → ∃ n', Out.ptp p dom "Pdelay_Req" n' [s.time] ∈ t.out)))

/-- A TIME request leaves each interval with its stamp and is kept until its answer or its time-out; one received is answered while the
Sundial serves (R384). An answer in time gives its delay to the median; a late one is discarded (R385), and so is a frame that is not intact, which is
counted (R352). A lost source leaves LOCKED (R378). SET writes the time that SDL_SET gives in FREE_RUN, and as a grandmaster without a reference; else it is
refused (R381). PPS_IN is present from its second valid edge until REF_LOST, the 10 MHz reference while it is present and enabled
(R386). The warden stores the mean frequency correction (R379). -/
def Obligations.SundialTransfersKeepsAndStoresTime : Prop :=
  ∀ (s : State),
    (∀ k, s.timePort k = true →
      Yields (.timeRequestTick k) s (fun t => ∃ n, (k, n, s.time) ∈ t.sundial.requests ∧
        Out.control k "TIME" (controlFrame 0x20 (leBytes 1 0 ++ leBytes 1 (s.get SDL_STATUS.HOPS) ++ leBytes 1 (s.get SDL_STATUS.STATE) ++ zeros 1
          ++ leBytes 2 n ++ zeros 2 ++ zeros 12 ++ timeShort s.time)) ∈ t.out)) ∧
    (∀ k seq phase hops st, s.timePort k = true →
      Yields (.timeRequest ⟨k, true⟩ seq phase hops st) s (fun t => (k, hops, st) ∈ t.sundial.partners ∧
        (t.serves = true → Out.control k "TIME" (controlFrame 0x20 (leBytes 1 1 ++ leBytes 1 (t.get SDL_STATUS.HOPS)
          ++ leBytes 1 (t.get SDL_STATUS.STATE) ++ zeros 1 ++ leBytes 2 seq ++ zeros 2 ++ timeShort (s.stamp phase) ++ timeShort s.time)) ∈ t.out))) ∧
    (∀ k, s.timePort k = true → ∀ seq t2 t3 phase hops st, ∀ c ∈ [Instr.timeRequest ⟨k, false⟩ seq phase hops st, .timeResponse ⟨k, false⟩ seq t2 t3 phase hops st],
      Yields c s (fun t => t.sundial = s.sundial ∧ t.geti SPT_DISCARD.COUNT k = min (s.geti SPT_DISCARD.COUNT k + 1) (2 ^ 32 - 1))) ∧
    (∀ k seq t2 t3 phase hops st t1, s.timePort k = true → s.sundial.requests.find? (fun e => e.1 == k && e.2.1 == seq) = some (k, seq, t1) →
      let rx := s.stamp phase
      (t1 + 65536 * 10000 < rx →
        Yields (.timeResponse ⟨k, true⟩ seq t2 t3 phase hops st) s (fun t => t.sundial.median = s.sundial.median ∧
          t.get SDL_OFFSET.OFFSET = s.get SDL_OFFSET.OFFSET ∧ ∀ e ∈ t.sundial.requests, e.1 ≠ k)) ∧
      (rx ≤ t1 + 65536 * 10000 → [t1, t2, t3, rx].any (s.nearLaneChange k) = false →
        Yields (.timeResponse ⟨k, true⟩ seq t2 t3 phase hops st) s (fun t =>
          let l := (assocGet id k s.sundial.median).getD [] ++ [(((t2 : Int) - t1) + ((rx : Int) - t3)) / 2]
          assocGet id k t.sundial.median = some (l.drop (l.length - 16))))) ∧
    (∀ k seq, Yields (.timeResponseTimeout k seq) s (fun t => (∀ e ∈ t.sundial.requests, ¬ (e.1 = k ∧ e.2.1 = seq)) ∧
      ∀ e ∈ s.sundial.requests, ¬ (e.1 = k ∧ e.2.1 = seq) → e ∈ t.sundial.requests)) ∧
    (s.get SDL_STATUS.SOURCE_KIND ≠ 0 → s.get SDL_STATUS.STATE = 2 →
      Yields .sourceLost s (fun t => t.get SDL_STATUS.STATE ≠ 2 ∧ t.get SDL_EVENT.HOLDOVER = 1 ∧ t.time = s.time)) ∧
    (∀ w, Served s .SDL_CTRL →
      let u := (s.swWrite .SDL_CTRL 0 (SDL_CTRL.SET.set w 1)).judgePins.showSource
      if u.get SDL_STATUS.STATE = 0 ∨ (u.sdlRole = 1 ∧ u.ison SDL_STATUS.PPS_PRESENT = false ∧ u.ison SDL_STATUS.REF10_PRESENT = false) then
        Yields (.sundialSet w) s (fun t => t.time = s.setTimeValue)
      else Yields (.sundialSet w) s (fun t => t.time = s.time ∧ t.get SDL_EVENT.SET_REFUSED = 1)) ∧
    (∀ phase, s.ison SDL_CTRL.PPS_IN_EN = true → let stamp := s.stamp phase
      (∀ l, s.sundial.ppsLast = some l → l + oneSecond ≤ stamp + 655360000 → stamp ≤ l + oneSecond + 655360000 →
        Yields (.ppsInEdge phase) s (fun t => t.get SDL_STATUS.PPS_PRESENT = 1)) ∧
      (s.sundial.ppsLast = none →
        Yields (.ppsInEdge phase) s (fun t => t.sundial.ppsLast = some stamp ∧ ∀ r i, i < r.entries → t.word r i = s.word r i))) ∧
    (s.ison SDL_STATUS.PPS_PRESENT = true → Yields .refLost s (fun t => t.get SDL_STATUS.PPS_PRESENT = 0 ∧ t.get SDL_EVENT.REF_LOST = 1)) ∧
    (s.ison SDL_CTRL.REF10_IN_EN = true → Yields .ref10InPresent s (fun t => t.get SDL_STATUS.REF10_PRESENT = 1)) ∧
    (s.ison SDL_STATUS.REF10_PRESENT = true → Yields .ref10InLost s (fun t => t.get SDL_STATUS.REF10_PRESENT = 0 ∧ t.get SDL_EVENT.REF_LOST = 1)) ∧
    (∀ f, s.svc.wardenDown = false → s.sundial.meanFreq = some f →
      Yields .estimateWrite s (fun t => t.sundial.stored = some f ∧ t.get SDL_STATUS.ESTIMATE = 1))

/-- PLAN_ARM with an image that a rule of R121 forbids ends with 0x0020 and shows the error in SLU_ARM_ERR; an accepted image is its
slot's pending plan. A due plan takes effect: its slot holds it with no pending plan, and HOLDING is entered where its Rill mask names
a Rill outside the active weave (R123). A fetch is issued for the sample that comes first (R135, R136), within the operations that may be in flight (R20), with the bytes that its units
hold then (R157); the sample that arrives lands in a Basin buffer with its bytes, as a void sample where a unit is lost (R109, R110), and a CODEC 0x0C sample goes to
Pebble first (R338). A release takes the head sample of the Rill's
order, landed or void, and ends the Rill's hold (R131). -/
def Obligations.PlansTakeEffectAndSamplesAreReleased : Prop :=
  ∀ (s : State), Sound s →
    (∀ k x img, Ready s k 0x15 x → img.length = x.count → s.armErr img ≠ 0 →
      Yields (.planArm k ⟨img, none⟩) s (fun t => t.get SLU_ARM_ERR.ERR = s.armErr img ∧ t.get SLU_EVENT.ARM_REFUSED = 1 ∧ t.sluice = s.sluice ∧
        Ended t k 0x0020 0)) ∧
    (∀ k x img, Ready s k 0x15 x → img.length = x.count → s.armErr img = 0 → s.slotState (planOf img).slot ≠ 2 → (planOf img).slot < 4 →
      Yields (.planArm k ⟨img, none⟩) s (fun t => (t.slot (planOf img).slot).pending = some img ∧ t.get (pendFld (planOf img).slot) = 1 ∧
        t.get SLU_EVENT.ARM_DONE = 1 ∧ Ended t k 0 0)) ∧
    (∀ k p img, k < 4 → s.dueImage k = some (p, img) → s.dueWith (s.planStart p) = [(k, p, img)] → s.recording = false → s.mirror.replay = none →
      Yields (.planTakeEffect k) s (fun t => (t.slot k).plan = some (p, img) ∧ (t.slot k).pending = none ∧ t.get (pendFld k) = 0 ∧
        (s.outsideWeave p.rillMask = true → t.slotState k = 2))) ∧
    (∀ r w, s.ison SLU_CTRL.PAUSE = false → s.halted = false → s.get AQF_STATUS.READY = 1 → s.ison AQF_STATUS.PF = false →
      s.refill.pickFetch = some (r, w) →
      let c := s.refill.catEntry w.part.plan w.g
      let reads := s.refill.unitReads c
      s.refill.opsRoom (s.refill.readOps reads) = true →
      Yields .fetchIssue s (fun t => t.sluice.fetches = s.refill.sluice.fetches ++
        [⟨r, w.part.slot, w.part.step, w.part.slice, w.part.dev, w.offset, w.g, w.attempt, c, s.refill.sampleBytes c, reads, s.refill.readOps reads,
          none, none, none⟩])) ∧
    (∀ n f, s.sluice.fetches[n]? = some f → f.landed = none → f.job = none → s.servesSluice f = true →
      (∀ b u l, f.data = some b → f.entry.codec ≠ 0x0C → s.takeBufs 3 (placeFor b.length).1 (placeFor b.length).2 = (u, some l) →
        Yields (.sampleFetchDone n) s (fun t => ∃ it, t.sluice.fetches[n]? = some { f with landed := some it } ∧
          it.reason = 0 ∧ it.content = bytesTensor b ∧ it.inLen = b.length ∧ it.bufs = l)) ∧
      (∀ b, f.data = some b → f.entry.codec = 0x0C →
        Yields (.sampleFetchDone n) s (fun t => ∃ f', t.sluice.fetches[n]? = some f' ∧ f'.job = some s.pebble.nextId ∧
          ∃ j ∈ t.pebble.jobs, j.id = s.pebble.nextId ∧ j.client = .sluice ∧ j.input = b)) ∧
      (f.data = none →
        Yields (.sampleFetchDone n) s (fun t => ∃ it, t.sluice.fetches[n]? = some { f with landed := some it } ∧ it.reason = 2 ∧ it.bufs = []))) ∧
    (∀ r p o g l, r < 16 → (s.rill r).part = some p → p.todo = (o, g) :: l → p.live = false → s.ison SLU_CTRL.PAUSE = false → s.still = false →
      s.draining = false → (p.untouched = true → s.mayBegin r p = true) → (s.rill r).mode = .running →
      ((s.catEntry p.plan g).fetchable = true → ∃ f it, s.fetchOf r ⟨p, o, g, p.round⟩ = some f ∧ f.landed = some it) →
      Yields (.sampleRelease r) s (fun t => (t.rill r).part = some { p with todo := l } ∧ (t.rill r).holding = false))

/-- SLU_CTRL takes PAUSE, and WALK_CLR clears SLU_WALK_MAX (R113, R140). START latches a probe's slot and position (R141); when it is
done, SLU_PROBE_OUT holds the global index at the position and the passes of its walk, or all ones where the slot has no plan (R111).
CATALOGUE_LOAD writes the entries that have arrived, from TARGET on, and no other; it ends once all have, or where a read fails with 0x0030
and the entries loaded (R108, R201, R203). INJECT ends with 0x0020 where the slot's plan takes no
injected sample, and with the sample's index where it is accepted (R118, R200). -/
def Obligations.SluiceControlsProbeCatalogueAndInject : Prop :=
  ∀ (s : State),
    (∀ w, Served s .SLU_CTRL → Yields (.sluPause w) s (fun t => t.get SLU_CTRL.PAUSE = SLU_CTRL.PAUSE.get w ∧
      (SLU_CTRL.WALK_CLR.get w = 0 → t.get SLU_WALK_MAX.PASSES = s.get SLU_WALK_MAX.PASSES))) ∧
    (Served s .SLU_CTRL → Yields .walkClr s (fun t => t.get SLU_WALK_MAX.PASSES = 0 ∧ t.get SLU_CTRL.PAUSE = s.get SLU_CTRL.PAUSE)) ∧
    (∀ w, Served s .SLU_PROBE_CTRL → Yields (.probeStart w) s (fun t => t.sluice.probe =
      some (SLU_PROBE_CTRL.SLOT.get w, s.get SLU_PROBE_IN_LO.POS + 2 ^ 32 * (s.get SLU_PROBE_IN_HI.POS % 2 ^ 12)))) ∧
    (∀ k pos, s.sluice.probe = some (k, pos) →
      (s.probePlan k = none → Yields .probeDone s (fun t => t.sluice.probe = none ∧ t.get SLU_PROBE_OUT_LO.G_LO = 2 ^ 32 - 1 ∧
        t.get SLU_PROBE_OUT_HI.G_HI = 2 ^ 12 - 1 ∧ t.get SLU_PROBE_OUT_HI.PASSES = 0 ∧ t.get SLU_EVENT.PROBE_DONE = 1)) ∧
      (∀ p, s.probePlan k = some p → p.live = false → pos < p.n →
        Yields .probeDone s (fun t => t.sluice.probe = none ∧ t.get SLU_PROBE_OUT_LO.G_LO = (permWalk pos p.n p.key).1 % 2 ^ 32 ∧
          t.get SLU_PROBE_OUT_HI.G_HI = (permWalk pos p.n p.key).1 / 2 ^ 32 % 2 ^ 12 ∧
          t.get SLU_PROBE_OUT_HI.PASSES = min 0xFFFF (permWalk pos p.n p.key).2 ∧ t.get SLU_EVENT.PROBE_DONE = 1))) ∧
    (∀ k x bs n, Ready s k 0x13 x → n = min x.count (bs.length / 16) →
      let loaded := fun (t : State) =>
        (∀ i, i < n → assocRead id (fun _ => catEntryZero) (x.target + i) t.sluice.catalogue = catEntryOf ((bs.drop (16 * i)).take 16)) ∧
        (∀ j, j < x.target ∨ x.target + n ≤ j →
          assocRead id (fun _ => catEntryZero) j t.sluice.catalogue = assocRead id (fun _ => catEntryZero) j s.sluice.catalogue)
      (n = x.count → Yields (.catalogueLoad k ⟨bs, none⟩) s (fun t => Ended t k 0 x.count ∧ loaded t)) ∧
      (n < x.count → Yields (.catalogueLoad k ⟨bs, none⟩) s (fun t => loaded t ∧ ∃ y ∈ t.host.tasks, y.id = k ∧ y.started = true ∧ y.done = none)) ∧
      (∀ reason, Yields (.catalogueLoad k ⟨bs, some reason⟩) s (fun t => Ended t k 0x0030 (max x.progress n) ∧ loaded t ∧ t.get HIF_EVENT.DMA_ERR = 1))) ∧
    (∀ k x payload, Ready s k 0x05 x →
      (s.inReplay = true ∨ (s.takesLive (leAt x.operands 0 1) 2 = false ∧ s.awaitsLive (leAt x.operands 0 1) 2 = false) →
        Yields (.inject k ⟨payload, none⟩) s (fun t => Ended t k 0x0020 0 ∧ t.sluice = s.sluice)) ∧
      (∀ u l, s.inReplay = false → s.takesLive (leAt x.operands 0 1) 2 = true → leAt x.operands 0 1 < 4 → payload.length = x.count →
        s.stepOpen (s.nextLive (leAt x.operands 0 1)).2 = true → s.mirRoom (16 + payload.length) = true → s.takeBufs 4 (placeFor payload.length).1 (placeFor payload.length).2 = (u, some l) →
        Sound s →
        Yields (.inject k ⟨payload, none⟩) s (fun t => Ended t k 0 (s.nextLive (leAt x.operands 0 1)).1 ∧
          (t.slot (leAt x.operands 0 1)).accepted = (s.slot (leAt x.operands 0 1)).accepted + 1 ∧
          ∃ y ∈ (t.slot (leAt x.operands 0 1)).live, y.bytes = payload ∧ y.index = (s.nextLive (leAt x.operands 0 1)).1)))

/-- Where a Rill's schedule stands at an operation: DELAY passes it OPERAND cycles later. START and RUN_FIXED give a stage that is idle
its next input at the latest of the Rill's cycle, the stage's end and the sample's release (with the fixed count for RUN_FIXED), and
pass; with no input, a first stage holds for a sample that is not yet released (R139). WAIT passes at the stage's end, or waits. BIND
replaces the binding of its stage and port (R79). LOOP jumps while samples of the round are left, and passes when the part is
final. BATCH_END returns to the first entry while samples are left, which is the model's choice (assumption 9); else the closed batch is handed to the Weir, with its digest in
DEC_PK_DIGEST, once the Mirror has room and the plan and activation records of the step stand (R57, R242). Every other Rill is unchanged by DELAY, START, RUN_FIXED, WAIT, BIND and LOOP's jump. -/
def Obligations.SequencerOperationsFollowTheSchedule : Prop :=
  ∀ (s : State) (r : Nat) (e : SchedEntry), Sound s → r < 16 → s.entry? r = some e →
    (e.op = 0 → Yields (.delay r) s (fun t => t.rill r = { s.rill r with pc := (s.rill r).pc + 1, cycle := (s.rill r).cycle + e.operand } ∧
      ∀ j, j ≠ r → t.rill j = s.rill j)) ∧
    (∀ g w it rest, s.stageSt? r e.stage = some g → s.wstage? r e.stage = some w → s.mirror.replay = none → g.run = none → g.input = it :: rest →
      (e.op = 1 → Yields (.start r) s (fun t => (t.rill r).pc = (s.rill r).pc + 1 ∧
        t.stageSt? r e.stage = some { g with input := rest, run := some ⟨it, max (max (s.rill r).cycle g.endCycle) it.relCycle, none, 0⟩ } ∧
        ∀ j, j ≠ r → t.rill j = s.rill j)) ∧
      (e.op = 2 → Yields (.runFixed r) s (fun t => (t.rill r).pc = (s.rill r).pc + 1 ∧
        t.stageSt? r e.stage = some { g with input := rest, run := some ⟨it, max (max (s.rill r).cycle g.endCycle) it.relCycle, some e.operand, 0⟩ } ∧
        ∀ j, j ≠ r → t.rill j = s.rill j))) ∧
    (∀ g w p, e.op = 1 → s.stageSt? r e.stage = some g → s.wstage? r e.stage = some w → g.run = none → g.input = [] → w.input = 0xFF →
      (s.rill r).part = some p → p.todo ≠ [] →
      Yields (.start r) s (fun t => t.rill r = { s.rill r with holding := true } ∧ ∀ j, j ≠ r → t.rill j = s.rill j)) ∧
    (∀ g, e.op = 3 → s.stageSt? r e.stage = some g →
      (g.run = none → Yields (.wait r) s (fun t => t.rill r = { s.rill r with pc := (s.rill r).pc + 1, cycle := max ((s.rill r).cycle + 1) g.endCycle } ∧
        ∀ j, j ≠ r → t.rill j = s.rill j)) ∧
      (g.run ≠ none → Yields (.wait r) s (fun t => t = s))) ∧
    (e.op = 4 → Yields (.bind r) s (fun t => (t.rill r).pc = (s.rill r).pc + 1 ∧ (t.rill r).cycle = (s.rill r).cycle + 1 ∧
      (⟨e.stage, e.port, e.bank, e.operand % 4096, e.latency⟩ : Binding) ∈ (t.rill r).binds ∧
      (∀ b ∈ (t.rill r).binds, b.stage = e.stage → b.port = e.port → b = ⟨e.stage, e.port, e.bank, e.operand % 4096, e.latency⟩) ∧
      (∀ b ∈ (s.rill r).binds, ¬ (b.stage = e.stage ∧ b.port = e.port) → b ∈ (t.rill r).binds) ∧ ∀ j, j ≠ r → t.rill j = s.rill j)) ∧
    (e.op = 5 →
      (s.roundLeft r = true → Yields (.loop r) s (fun t => t.rill r = { s.rill r with pc := e.operand % 2 ^ 14, cycle := (s.rill r).cycle + 1 } ∧
        ∀ j, j ≠ r → t.rill j = s.rill j)) ∧
      (s.roundLeft r = false → (s.rill r).running = false → (s.rill r).part.any (fun p => p.final) = true →
        Yields (.loop r) s (fun t => t.rill r = { s.rill r with pc := (s.rill r).pc + 1, cycle := (s.rill r).cycle + 1 }))) ∧
    (e.op = 6 → (s.rill r).running = false →
      (s.roundLeft r = true → Yields (.batchEnd r) s (fun t => t.rill r = { s.rill r with pc := 0, cycle := (s.rill r).cycle + 1 })) ∧
      (∀ p, s.roundLeft r = false → (s.rill r).waiting = false → (s.rill r).part = some p → p.final = true → (s.rill r).mode = .running →
        s.stepOpen p.step = true → s.mirror.replay = none → s.mirRoomAll (s.batchBodies r p (s.closePart r p).1 (s.closePart r p).2) = true →
        Yields (.batchEnd r) s (fun t => (∃ x ∈ (t.rill r).ready, x.batch = (s.closePart r p).1 ∧ x.buf = (s.rill r).freeBufs.headD []) ∧
          (t.rill r).ready.length = (s.rill r).ready.length + 1 ∧ (t.rill r).freeBufs = (s.rill r).freeBufs.drop 1 ∧
          t.pair .DEC_PK_DIGEST_LO .DEC_PK_DIGEST_HI (decInst 7 0 r) = (s.closePart r p).1.digest % 2 ^ 64)))

/-- When a running stage's work is done the stage is idle, and its end is its start and its cycles: the count that RUN_FIXED gave, where
it ran fixed (R78). Where the stage is the Rill's packer, the sample is one more that has arrived, or one more rejected, with its
tag's offset and index (R133); where it is another stage, the sample is at the end of the input of each stage that takes it. -/
def Obligations.StagesHandTheirSamplesOn : Prop :=
  ∀ (s : State) (r k wait extra : Nat) (g : StageSt) (w : WStage) (run : StageRun), Sound s → r < 16 →
    s.stageSt? r k = some g → s.wstage? r k = some w → g.run = some run → s.still = false → (s.rill r).holding = false →
    ((s.rill r).mode = .running ∨ (s.rill r).mode = .stopping) → s.keeperReady r w = true → w.mark = 0 →
    Yields (.stageDone r k wait extra) s (fun t =>
      (∃ g', t.stageSt? r k = some g' ∧ g'.run = none ∧ ∀ c, run.fixed = some c → g'.endCycle = run.start + c) ∧
      (w.type = 7 → ∃ q : PackPos, q.offset = run.item.tag.offset ∧ q.g = run.item.tag.g ∧
        (((t.rill r).arrived = (s.rill r).arrived ++ [q] ∧ q.reason = 0 ∧ (t.rill r).rejected = (s.rill r).rejected) ∨
         ((t.rill r).arrived = (s.rill r).arrived ∧ q.reason ≠ 0 ∧ (t.rill r).rejected = (s.rill r).rejected ++ [q]))) ∧
      (w.type ≠ 7 → ∀ n u, n ≠ k → s.stageSt? r n = some u → (s.wstage? r n).any (fun y => y.input == k) = true →
        ∃ u' it, t.stageSt? r n = some u' ∧ u'.input = u.input ++ [it] ∧ it.tag.offset = run.item.tag.offset ∧ it.tag.g = run.item.tag.g))

/-- The start tick begins the marker phase and counts in START_TRIES (R460). A marker phase whose latencies are at their design values lets
the Cascade run; the third that is not leaves START_FAIL set and the Cascade in reset (R50). A tag mismatch, a bank violation, a
Jet's detection, an engine's or a Reed's fault and an uncorrectable Reservoir read of a stage each set SVC_EVENT.RILL_FAULT, and the
running Rill is to stop with the fault's cause (R398, R401); the Jet counts it and latches its event (R276). An uncorrectable read of a
READ_EXTENT ends the task with 0x0030 and its progress, and that of another client is answered with an error (R305). An access of an
engine beside the Cascade that R307 forbids is answered with an error and latched once; one that it allows changes nothing. -/
def Obligations.FaultsAreLatchedAndStopTheirRill : Prop :=
  ∀ (s : State), Sound s →
    (s.startReady = true → s.power.startPhase = .reset → s.get PWR_STATUS.START_TRIES < 3 →
      Yields .startTick s (fun t => t.power.startPhase = .marker ∧ t.get PWR_STATUS.START_TRIES = s.get PWR_STATUS.START_TRIES + 1 ∧
        t.dbg.startTick = s.power.uptime)) ∧
    (∀ m, s.power.startPhase = .marker →
      (latencyMiss m = none → Yields (.markerPhaseEnd m) s (fun t => t.power.startPhase = .up ∧ t.get PWR_STATUS.CASCADE_UP = 1)) ∧
      (latencyMiss m ≠ none → s.get PWR_STATUS.START_TRIES = 3 →
        Yields (.markerPhaseEnd m) s (fun t => t.power.startPhase = .reset ∧ t.get PWR_STATUS.START_FAIL = 1 ∧ t.get PWR_EVENT.START_FAIL = 1 ∧
          t.get PWR_STATUS.CASCADE_UP = s.get PWR_STATUS.CASCADE_UP))) ∧
    (∀ r, r < 16 → (s.rill r).mode = .running →
      (∀ c, s.still = false → Yields (.tagMismatch r c) s (fun t => t.get SVC_EVENT.RILL_FAULT = 1 ∧ (t.rill r).mode = .stopping ∧
        ⟨4, 0, 0⟩ ∈ (t.rill r).faults)) ∧
      (∀ stage bank w, s.still = false → (s.rill r).part ≠ none → s.mayReach (.rill r) stage bank w = false →
        Yields (.bankViolation (.rill r) stage bank w) s (fun t => t.get RSV_VIOL.VALID = 1 ∧ t.get SVC_EVENT.RILL_FAULT = 1 ∧
          (t.rill r).mode = .stopping ∧ ⟨5, stage, 0⟩ ∈ (t.rill r).faults)) ∧
      (∀ jet unit column op stage, jet < 68 → s.servedBy .JET_STATUS jet = some (r, stage) → (s.rill r).part ≠ none →
        Yields (.jetDetection jet unit column op) s (fun t => t.get SVC_EVENT.RILL_FAULT = 1 ∧ (t.rill r).mode = .stopping ∧
          ⟨1, stage, 0⟩ ∈ (t.rill r).faults ∧ t.geti JET_DETECTS.COUNT jet = min (s.geti JET_DETECTS.COUNT jet + 1) (2 ^ 32 - 1) ∧
          t.geti (if unit = 1 then JET_EVENT.RESIDUE else JET_EVENT.PARITY) jet = 1)) ∧
      (∀ inst stage, inst < 76 → s.servedBy .DEC_STATUS inst = some (r, stage) →
        Yields (.engineFault inst) s (fun t => t.get SVC_EVENT.RILL_FAULT = 1 ∧ (t.rill r).mode = .stopping ∧ ⟨2, stage, 0⟩ ∈ (t.rill r).faults ∧
          t.geti DEC_EVENT.FAULT inst = 1 ∧ t.geti DEC_STATUS.STATE inst = (if s.geti DEC_STATUS.STATE inst = 3 then 3 else 2))) ∧
      (∀ lane stage, lane < 16 → s.servedBy .REED_STATUS lane = some (r, stage) →
        Yields (.reedFault lane) s (fun t => t.get SVC_EVENT.RILL_FAULT = 1 ∧ (t.rill r).mode = .stopping ∧ ⟨2, stage, 0⟩ ∈ (t.rill r).faults ∧
          t.geti REED_EVENT.FAULT lane = 1 ∧ t.geti REED_STATUS.STATE lane = (if s.geti REED_STATUS.STATE lane = 3 then 3 else 2))) ∧
      (∀ bank stage, bank < 1024 → Yields (.reservoirUncorr bank (.stage r stage)) s (fun t => t.get SVC_EVENT.RILL_FAULT = 1 ∧
        (t.rill r).mode = .stopping ∧ ⟨3, stage, 0⟩ ∈ (t.rill r).faults ∧
        t.geti RSV_ECC_UNCORR.COUNT bank = min (s.geti RSV_ECC_UNCORR.COUNT bank + 1) (2 ^ 32 - 1)))) ∧
    (∀ bank k x, bank < 1024 → s.task? k = some x → x.opcode = 1 → x.done = none →
      Yields (.reservoirUncorr bank (.task k)) s (fun t => Ended t k 0x0030 x.progress ∧ t.geti RSV_EVENT.UNCORR bank = 1)) ∧
    (∀ bank c, bank < 1024 → Yields (.reservoirUncorr bank (.client c)) s (fun t => t.geti RSV_EVENT.UNCORR bank = 1 ∧
      t.geti RSV_ECC_UNCORR.COUNT bank = min (s.geti RSV_ECC_UNCORR.COUNT bank + 1) (2 ^ 32 - 1) ∧ Out.bankError c bank ∈ t.out ∧ t.rills = s.rills)) ∧
    (∀ e stage bank w, (∀ r, e ≠ .rill r) →
      (s.mayReach e stage bank w = false → Yields (.bankViolation e stage bank w) s (fun t => t.get RSV_VIOL.VALID = 1 ∧ t.rills = s.rills ∧
        (∃ c, Out.bankError c bank ∈ t.out) ∧ (s.ison RSV_VIOL.VALID = true → t.word .RSV_VIOL 0 = s.word .RSV_VIOL 0))) ∧
      (s.mayReach e stage bank w = true → Yields (.bankViolation e stage bank w) s (fun t => t = s)))

/-- At the boundary of the faulted part the Rill stops, and its part goes back to its first round (R401): faults of cause JET, ENGINE and ALIGN wait
for their checks; without one of these the Rill runs again, which counts the rebuild; the last rebuild that REBUILD_MAX allows, or a retired
engine, leaves it dead with SVC_EVENT.RILL_DEAD (R402). A self-test that passes puts the engine back, and the Rill runs once no fault is left; one that
fails retires the engine and the Rill is dead. SVC_ENG_CMD's test ends with BUSY 0, PASS as it came out, and ENG_TEST_DONE (R427).
A realignment with every latency at its design value ends the ALIGN faults, and the Rill runs once no fault is left. -/
def Obligations.StoppedRillsAreCheckedAndRebuilt : Prop :=
  ∀ (s : State) (r : Nat), Sound s → r < 16 →
    let settled := fun (l : List RillFault) (t : State) =>
      (l = [] → (t.rill r).mode = .running ∧ (t.rill r).faults = []) ∧ (l ≠ [] → (t.rill r).mode = .stopped ∧ (t.rill r).faults = l)
    (∀ p, (s.rill r).mode = .stopping → s.still = false → s.atBoundary r = true → (s.rill r).part = some p →
      let l := (s.rill r).faults.filter RillFault.checked
      (s.fatal r = false → (s.rill r).rebuilds + 1 < max 1 (s.get SVC_CTRL.REBUILD_MAX) →
        Yields (.rillStop r) s (fun t => settled l t ∧ (t.rill r).part = some { p with round := 0, todo := p.samples, next := [], final := false } ∧
          (t.rill r).pc = 0 ∧ (t.rill r).arrived = [] ∧ (t.rill r).rejected = [] ∧
          t.get SVC_REBUILDS.COUNT = if l = [] then min (s.get SVC_REBUILDS.COUNT + 1) (2 ^ 32 - 1) else s.get SVC_REBUILDS.COUNT)) ∧
      ((s.fatal r = true ∨ max 1 (s.get SVC_CTRL.REBUILD_MAX) ≤ (s.rill r).rebuilds + 1) →
        Yields (.rillStop r) s (fun t => (t.rill r).mode = .dead ∧ t.get SVC_EVENT.RILL_DEAD = 1))) ∧
    (∀ f e, (s.rill r).mode = .stopped → s.testFault r = some f → s.faultEngine r f = some e → e.2 < e.1.reg.entries →
      Yields (.engineSelfTestDone (some r) true) s (fun t => t.geti e.1 e.2 = 1 ∧
        settled ((s.rill r).faults.filter (fun g => g.cause == 4 || s.faultEngine r g != some e)) t) ∧
      Yields (.engineSelfTestDone (some r) false) s (fun t => (t.rill r).mode = .dead ∧ t.get SVC_EVENT.RILL_DEAD = 1 ∧ t.geti e.1 e.2 = 3)) ∧
    (∀ pass, s.ison SVC_ENG_CMD.BUSY = true →
      Yields (.engineSelfTestDone none pass) s (fun t => t.get SVC_ENG_CMD.BUSY = 0 ∧ t.get SVC_ENG_CMD.PASS = (if pass then 1 else 0) ∧
        t.get SVC_EVENT.ENG_TEST_DONE = 1)) ∧
    (∀ m, (s.rill r).mode = .stopped → (s.rill r).faults.any (fun f => f.cause == 4) = true →
      (latencyMiss m = none → Yields (.realignDone r m) s (settled ((s.rill r).faults.filter (fun f => f.cause != 4)))) ∧
      (latencyMiss m ≠ none → Yields (.realignDone r m) s (fun t => (t.rill r).mode = .stopped ∧ t.get MIR_STATUS.DET_FAULT = 1)))

/-- MIRROR_DRAIN: the oldest record leaves the ring once its bytes are in host memory, or have entered Aquifer's staging as the next bytes
of the extent, and MIR_FILL follows; a write that failed, or that Aquifer does not take, leaves it (R54, R502).
A write of MIR_CTRL leaves the settings in effect alone while a plan slot releases, and is in effect at once when none does; at a weave
boundary the pending setting takes effect (R68). A setting whose records the ring has no room for waits, with LOG_FULL (R54). A recording that begins samples its destination and writes a SEGMENT record first (R502).
START, with replay mode in effect and nothing releasing, reads the log: one whose first record is no SEGMENT record of this class is
refused with DCLASS_MISMATCH; else REPLAYING is 1 and each plan slot takes the plan that the log holds for the start step (R60, R503). -/
def Obligations.MirrorDrainsAndReplays : Prop :=
  ∀ (s : State), Sound s →
    (∀ r rest, s.mirror.ring = r :: rest → s.mirror.held = [] → s.mirror.fill ≤ ringBytes → r.addr + r.bytes.length ≤ r.limit →
      (r.host = true → Yields (.mirrorDrain true) s (fun t => t.mirror = { s.mirror with ring := rest } ∧
        t.get MIR_FILL.FILL_MIB = t.mirror.fill / 2 ^ 20 ∧ t.aqf = s.aqf ∧ Out.hostWrite r.addr r.bytes s.relaxed ∈ t.out)) ∧
      (r.host = false → r.done < r.bytes.length →
        (s.flashTakes (r.addr + r.done) = false → Yields (.mirrorDrain true) s (fun t => t.mirror = s.mirror ∧ t.aqf = s.aqf)) ∧
        (s.flashTakes (r.addr + r.done) = true → (r.addr + r.done) % unitBytes + (r.bytes.length - r.done) ≤ unitBytes →
          Yields (.mirrorDrain true) s (fun t => t.mirror = { s.mirror with ring := rest } ∧ t.get MIR_FILL.FILL_MIB = t.mirror.fill / 2 ^ 20 ∧
            t.aqf = s.aqf.stageBytes s.host.nextId ((r.addr + r.done) / unitBytes) ((r.addr + r.done) % unitBytes) (r.bytes.drop r.done))))) ∧
    Yields (.mirrorDrain false) s (fun t => t.mirror = s.mirror) ∧
    (∀ w, Served s .MIR_CTRL → MIR_CTRL.MODE.get w < 2 →
      let b := s.swWrite .MIR_CTRL 0 w
      (s.releasing = true → Yields (.mirCtrlWrite w) s (fun t => t.word .MIR_CTRL 0 = Reg.swWrite .MIR_CTRL (s.word .MIR_CTRL 0) w ∧
        t.mirror = s.mirror)) ∧
      (s.releasing = false → b.mirTakes 0 = true → Yields (.mirCtrlWrite w) s (fun t => t.mirror.now =
        ⟨MIR_CTRL.EN.get w == 1, MIR_CTRL.MODE.get w == 1, MIR_CTRL.BATCH_REC.get w == 1, MIR_CTRL.VT_REC.get w == 1⟩)) ∧
      (s.releasing = false → b.mirTakes 0 = false → b.mirAsked ≠ s.mirror.now →
        Yields (.mirCtrlWrite w) s (fun t => t.mirror = s.mirror ∧ t.get MIR_STATUS.LOG_FULL = 1))) ∧
    ((s.releasing = false ∨ s.cascade.act.phase = .swap ∨ s.cascade.act.phase = .ownership ∨ s.cascade.act.phase = .constants ∨
        s.cascade.act.phase = .pinning) → s.mirTakes 0 = true →
      Yields .mirrorModeChange s (fun t => t.mirror.now = s.mirAsked ∧
        (s.recording = false → s.mirror.replay = none → s.mirAsked.en = true → s.mirAsked.replay = false →
          t.get MIR_STATUS.RECORDING = 1 ∧ (t.mirror.destHost, t.mirror.destAddr, t.mirror.destSize) = s.mirDest ∧ t.mirror.seq = 1 ∧
          ∃ e, t.mirror.ring = s.mirror.ring ++ [e] ∧ e.host = s.mirDest.1 ∧ e.addr = s.mirDest.2.1 ∧ recType e.bytes = 1))) ∧
    (∀ w log, Served s .MIR_CTRL → MIR_CTRL.MODE.get w = 1 → MIR_CTRL.EN.get w = 1 → s.releasing = false → s.mirror.replay = none →
      let b := s.swWrite .MIR_CTRL 0 w
      b.mirTakes 0 = true →
      (startsWithSegment (b.readLog log).1 = false →
        Yields (.replayStart w log) s (fun t => t.get MIR_STATUS.DCLASS_MISMATCH = 1 ∧ t.mirror.replay = none)) ∧
      (∀ k img, startsWithSegment (b.readLog log).1 = true → k < 4 →
        (⟨(b.readLog log).1, (b.readLog log).2, s.replayStep, 0, [], []⟩ : Replay).planAt k s.replayStep = some img → s.replayStep ≤ (planOf img).lastStep →
        Yields (.replayStart w log) s (fun t => t.get MIR_STATUS.REPLAYING = 1 ∧ (t.slot k).plan = none ∧ (t.slot k).pending = some img ∧
          ∃ p, t.mirror.replay = some p ∧ p.log = (b.readLog log).1 ∧ p.first = s.replayStep)))

/-- A closed window goes to the peer with its first step, the digest over its batches' digests in order of step and Rill, and the sum of
their cycles (R65). The peer's first frame sets PAIRED where its class and window are equal (R64). While PAIRED, a frame for a window
that is closed here is compared: a difference in digest, or in cycles while CYCLES is 1, sets MISMATCH and raises LOCKSTEP (R66).
A frame that does not come in time sets LOST and raises LOCKSTEP_LOST, and comparison stops (R67). -/
def Obligations.LockstepComparesWindows : Prop :=
  ∀ (s : State), Sound s → s.ison MIR_LS_CTRL.EN = true → s.lock.stopped = false →
    (∀ first, s.lsFirst = some first → s.stepsClosed (first + s.lsWindow) = true →
      let mine := (s.lock.batches.filter (fun b => decide (b.1 < first + s.lsWindow))).foldl (fun l b => insertBatch b l) []
      Yields .lockstepWindow s (fun t => t.lock.batches = s.lock.batches.filter (fun b => !decide (b.1 < first + s.lsWindow)) ∧
        (s.get MIR_LS_CTRL.SPOUT < 24 → Out.control (s.get MIR_LS_CTRL.SPOUT) "LOCKSTEP" (controlFrame 0x21 (leBytes 2 (s.get GLB_ID_HI.DCLASS)
          ++ leBytes 2 (s.get MIR_LS_CTRL.WINDOW_M1) ++ leBytes 6 first ++ zeros 6 ++ leBytes 8 (rippleDigest (mine.flatMap (fun b => leBytes 8 b.2.2.1)))
          ++ leBytes 8 ((mine.map (fun b => b.2.2.2)).sum % 2 ^ 64))) ∈ t.out))) ∧
    (∀ dc wm first d c, s.lock.seen = false → s.lock.closed = [] →
      Yields (.lockstepFrame dc wm first d c) s (fun t => t.lock.seen = true ∧
        t.get MIR_LS_STATUS.PAIRED = (if dc = s.get GLB_ID_HI.DCLASS ∧ wm = s.get MIR_LS_CTRL.WINDOW_M1 then 1 else 0))) ∧
    (∀ dc wm first d c d0 c0, s.lock.seen = true → s.ison MIR_LS_STATUS.PAIRED = true → s.lock.closed = [(first, d0, c0)] → s.lock.peer = [] →
      Yields (.lockstepFrame dc wm first d c) s (fun t => t.lock.closed = [] ∧ t.lock.peer = [] ∧
        t.get MIR_LS_WINDOWS.WINDOWS = min (s.get MIR_LS_WINDOWS.WINDOWS + 1) (2 ^ 32 - 1) ∧
        ((d0 ≠ d ∨ (s.ison MIR_LS_CTRL.CYCLES = true ∧ c0 ≠ c)) →
          t.get MIR_LS_STATUS.MISMATCH = 1 ∧ t.get MIR_STATUS.DET_FAULT = 1 ∧ (s.ison MIR_STATUS.DET_FAULT = false → t.get MIR_DF_INFO.CAUSE = 5)) ∧
        (d0 = d → (s.ison MIR_LS_CTRL.CYCLES = false ∨ c0 = c) →
          t.get MIR_LS_STATUS.MISMATCH = s.get MIR_LS_STATUS.MISMATCH ∧ t.get MIR_STATUS.DET_FAULT = s.get MIR_STATUS.DET_FAULT))) ∧
    (∀ c l, s.lock.closed = c :: l →
      Yields .lockstepLost s (fun t => t.get MIR_LS_STATUS.LOST = 1 ∧ t.get MIR_LS_STATUS.PAIRED = 0 ∧ t.lock.stopped = true ∧
        t.get MIR_STATUS.DET_FAULT = 1 ∧ (s.ison MIR_STATUS.DET_FAULT = false → t.get MIR_DF_INFO.CAUSE = 6)))

/-- START is refused while the loader is busy, in an activation, or where the inactive slot is armed (R90); else the inactive slot is
LOADING, or FAILED at once for a length or an address out of its rule (R92). ABORT leaves the slot EMPTY with ABORTED (R91). Each
phase ends in the next one, or in FAILED with the first failing check's code, offset and task status (R88, R89, R92); a staged weave
is VALID with its hash, and LOAD_DONE is set (R86, R88). -/
def Obligations.LoadsPassTheirPhases : Prop :=
  ∀ (s : State), Sound s → s.loader.slot < 2 →
    let shows := fun (t : State) (k : Nat) (x : WeaveSlot) => t.cascade.slots[k]? = some x ∧
      t.get (if k = 0 then CSC_STATUS.S0_STATE else CSC_STATUS.S1_STATE) = x.state.code
    let fails := fun (t : State) (k : Nat) (st : SlotState) (err status ofs : Nat) => shows t k ⟨st, none, false⟩ ∧ t.loader = LoaderSt.reset ∧
      t.get CSC_STATUS.LOADER_BUSY = 0 ∧ t.get CSC_LOAD_RESULT.ERR = err % 2 ^ 16 ∧ t.get CSC_LOAD_RESULT.STATUS = status ∧
      t.get CSC_LOAD_ERR_OFS.OFFSET = ofs % 2 ^ 32 ∧ t.get CSC_EVENT.LOAD_FAIL = 1
    (∀ w, Served s .CSC_LOAD_CTRL → CSC_LOAD_CTRL.ABORT.get w = 0 →
      ((s.loader.phase ≠ .idle ∨ s.activating = true ∨ s.armedSlot = some s.inactiveSlot) →
        Yields (.loadStart w) s (fun t => t.get CSC_EVENT.LOAD_REFUSED = 1 ∧ t.cascade = s.cascade)) ∧
      (s.loader.phase = .idle → s.activating = false → s.armedSlot ≠ some s.inactiveSlot →
        let len := (s.word .CSC_LOAD_LEN 0).toNat
        let addr := s.pair .CSC_LOAD_ADDR_LO .CSC_LOAD_ADDR_HI 0
        let flash := CSC_LOAD_CTRL.SRC.get w == 1
        ((len < 64 ∨ len % 64 ≠ 0 ∨ 512 * 2 ^ 20 < len) → Yields (.loadStart w) s (fun t => fails t s.inactiveSlot .failed 0x0003 0x0060 0)) ∧
        (64 ≤ len → len % 64 = 0 → len ≤ 512 * 2 ^ 20 →
          (flash = false → addr % 64 ≠ 0 → Yields (.loadStart w) s (fun t => fails t s.inactiveSlot .failed 0x0056 0x0020 0)) ∧
          ((flash = true ∨ addr % 64 = 0) → Yields (.loadStart w) s (fun t => shows t s.inactiveSlot ⟨.loading, none, false⟩ ∧
            t.loader = ⟨.transfer, s.inactiveSlot, flash, addr, len, s.ison CSC_SIGN_CTRL.ENFORCE, [], none, false⟩ ∧
            t.get CSC_STATUS.LOADER_BUSY = 1))))) ∧
    (Served s .CSC_LOAD_CTRL → CSC_LOAD_CTRL.START.get (s.word .CSC_LOAD_CTRL 0) = 0 → s.loader.phase ≠ .idle →
      Yields .loadAbort s (fun t => fails t s.loader.slot .empty 0x0054 0x0060 0)) ∧
    (s.loader.phase = .transfer → s.loader.flash = false →
      Yields (.loadTransferDone none) s (fun t => fails t s.loader.slot .failed 0x0055 0x0030 0) ∧
      ∀ b, b.length = s.loader.len → Yields (.loadTransferDone (some b)) s (fun t =>
        t.loader = { s.loader with phase := .structure, image := b, verdict := s.imageVerdict s.loader.len b } ∧ t.cascade.slots = s.cascade.slots)) ∧
    (s.loader.phase = .structure →
      (∀ err ofs, s.loader.verdict = some (err, ofs) → err ≠ weAborted →
        Yields .loadStructureDone s (fun t => fails t s.loader.slot .failed err (loadStatus err) ofs)) ∧
      (s.loader.verdict = none → bitOf (leAt s.loader.image 14 2) 0 = true →
        Yields .loadStructureDone s (fun t => t.loader = { s.loader with phase := .signature })) ∧
      (s.loader.verdict = none → bitOf (leAt s.loader.image 14 2) 0 = false →
        (s.loader.enforce = true → Yields .loadStructureDone s (fun t => fails t s.loader.slot .failed 0x0041 0x0061 0)) ∧
        (s.loader.enforce = false → Yields .loadStructureDone s (fun t => t.loader = { s.loader with phase := .staging, verified := false })))) ∧
    (∀ key, s.loader.phase = .signature → s.weaveKey (leAt (sectionBytes s.loader.image 7) 0 2) = some key →
      let good := Machine.ecdsaOk key (Machine.sha384 (hashedBytes s.loader.image)) (((sectionBytes s.loader.image 7).drop 8).take 96)
      (good = true → Yields .loadSignatureDone s (fun t => t.loader = { s.loader with phase := .staging, verified := true })) ∧
      (good = false → Yields .loadSignatureDone s (fun t => fails t s.loader.slot .failed 0x0040 0x0060 (sectionOfs s.loader.image 7)))) ∧
    (s.loader.phase = .signature → s.weaveKey (leAt (sectionBytes s.loader.image 7) 0 2) = none → s.loader.enforce = false →
      Yields .loadSignatureDone s (fun t => t.loader = { s.loader with phase := .staging, verified := false })) ∧
    (s.loader.phase = .staging → Yields .loadStagingDone s (fun t =>
      shows t s.loader.slot ⟨.valid, some (weaveOf (Machine.sha384 (hashedBytes s.loader.image)) s.loader.image), s.loader.verified⟩ ∧
      t.loader = LoaderSt.reset ∧ t.get CSC_STATUS.LOADER_BUSY = 0 ∧ t.word .CSC_LOAD_RESULT 0 = 0 ∧ t.get CSC_EVENT.LOAD_DONE = 1 ∧
      ∀ i, i < 12 → t.word (if s.loader.slot = 0 then .CSC_S0_HASH else .CSC_S1_HASH) i =
        BitVec.ofNat 32 (leAt (weaveOf (Machine.sha384 (hashedBytes s.loader.image)) s.loader.image).hash (4 * i) 4)))

/-- An arm is accepted where its checks pass, and replaces the one before; else ACT_REFUSED is set with the error and what is armed stays
(R93); DISARM takes it back, and is ignored once the boundary has begun (R94). At the boundary the B checks pass and the drain begins, or the activation fails with HOLDING and
ACT_FAIL (R99). The swap makes the armed slot ACTIVE and the old one VALID, the ownership phase hands its Rill banks to the new weave and the
constants phase copies the constants (R97); PIN_SHORT fails it (R501), and the first release of its step ends it, counts and sets ACT_DONE
(R97). Records that the ring has no room for hold it (R54). A spare byte is taken, or rejected with
SPARE_REJECT (R101); LOCK sets ENFORCE (R106). -/
def Obligations.ActivationsArmAndPassTheirPhases : Prop :=
  ∀ (s : State), Sound s →
    (∀ w, Served s .CSC_ACT_CTRL → CSC_ACT_CTRL.DISARM.get w = 0 →
      let b := s.swWrite .CSC_ACT_CTRL 0 (CSC_ACT_CTRL.ARM.set w 1)
      let k := CSC_ACT_CTRL.SLOT.get w
      let n := s.get CSC_ACT_STEP_LO.STEP_LO + 2 ^ 32 * s.get CSC_ACT_STEP_HI.STEP_HI
      (b.armRefusal k n = 0 → Yields (.arm w) s (fun t => t.act.armed = some (k, n) ∧ t.get CSC_ACT_STATUS.ARMED = 1 ∧ t.get CSC_ACT_STATUS.ARMED_SLOT = k ∧
        t.cascade.slots = s.cascade.slots)) ∧
      (b.armRefusal k n ≠ 0 → Yields (.arm w) s (fun t => t.act = s.act ∧ t.get CSC_EVENT.ACT_REFUSED = 1 ∧ t.get CSC_ACT_STATUS.ERR = b.armRefusal k n % 2 ^ 16))) ∧
    (∀ w, Served s .CSC_ACT_CTRL → CSC_ACT_CTRL.ARM.get w = 0 →
      (s.boundaryBegun = false → Yields (.disarm w) s (fun t => t.act.armed = none ∧ t.get CSC_ACT_STATUS.ARMED = 0 ∧ t.act.phase = s.act.phase)) ∧
      (s.boundaryBegun = true → Yields (.disarm w) s (fun t => t.act = s.act))) ∧
    (∀ a n, s.act.armed = some (a, n) → (s.act.phase = .idle ∨ s.act.phase = .release ∨ (s.act.phase = .holding ∧ s.act.step = n)) → s.boundaryReached n = true → s.ison TST_MODE.EN = false →
      (∀ k x, s.armedSlot = some k → s.cascade.slots[k]? = some x →
        (s.weaveErr x = 0 → Yields .weaveBoundary s (fun t => t.act.phase = .drain ∧ t.act.slot = k ∧ t.act.step = n ∧ t.act.armed = none ∧
          t.get CSC_ACT_STATUS.ACTIVATING = 1 ∧ t.get CSC_ACT_STATUS.HOLDING = 0)) ∧
        (s.weaveErr x ≠ 0 → Yields .weaveBoundary s (fun t => t.act.phase = .holding ∧ t.get CSC_ACT_STATUS.ACTIVATING = 0 ∧ t.get CSC_ACT_STATUS.HOLDING = 1 ∧
          t.get CSC_EVENT.ACT_FAIL = 1 ∧ t.get CSC_ACT_STATUS.ERR = s.weaveErr x % 2 ^ 16 ∧ t.act.armed = none ∧ t.cascade.slots = s.cascade.slots))) ∧
      (s.armedSlot = none → Yields .weaveBoundary s (fun t => t.act.phase = .holding ∧ t.get CSC_EVENT.ACT_FAIL = 1 ∧ t.act.armed = s.act.armed ∧
        t.get CSC_ACT_STATUS.ERR = weHashAbsent))) ∧
    (s.act.phase = .drain → s.rills.all (fun r => r.drained s.act.step) = true →
      Yields .actDrainDone s (fun t => t.act = { s.act with phase := .swap, spare := (s.word .CSC_SPARE_MAP 0).toNat })) ∧
    (∀ x w, s.act.phase = .swap → s.act.slot < 2 → s.cascade.slots[s.act.slot]? = some x → x.weave = some w →
      Yields .actSwapDone s (fun t => t.act.phase = .ownership ∧ t.cascade.slots[s.act.slot]? = some { x with state := .active } ∧
        (∀ j y, s.activeSlot = some j → j ≠ s.act.slot → s.cascade.slots[j]? = some y → t.cascade.slots[j]? = some { y with state := .valid }) ∧
        t.get CSC_STATUS.ACTIVE = 1 ∧ t.get CSC_STATUS.ACTIVE_SLOT = s.act.slot ∧ t.get CSC_SPARE_ACTIVE.MAP = s.act.spare % 2 ^ 32 ∧
        t.caches = List.replicate 16 [])) ∧
    (∀ w, s.act.phase = .ownership → s.weave? = some w → Yields .actOwnershipDone s (fun t => t.act.phase = .constants ∧
      ∀ b, b < 1024 → boClass (w.owners.getD b 0) = 1 → t.ownerClass b = clsRill ∧ t.geti RSV_OWNER.RILL b = boRill (w.owners.getD b 0) ∧
        t.geti RSV_OWNER.STAGE b = boStage (w.owners.getD b 0))) ∧
    (∀ w, s.act.phase = .constants → s.weave? = some w → Yields .actConstantsDone s (fun t => t.act.phase = .pinning ∧
      (∀ a, (∀ c ∈ w.consts, a < 262144 * c.bank + 64 * c.word ∨ 262144 * c.bank + 64 * c.word + c.data.length ≤ a) → t.rdByte a = s.rdByte a) ∧
      (∀ c, w.consts = [c] → ∀ i b, c.data[i]? = some b → t.rdByte (262144 * c.bank + 64 * c.word + i) = b))) ∧
    (s.act.phase = .pinning → s.mirTakes s.actNeed = false →
      Yields .actPinningDone s (fun t => t.act = s.act ∧ t.get MIR_STATUS.LOG_FULL = 1)) ∧
    (s.act.phase = .pinning → s.mirTakes s.actNeed = true →
      let u := s.unpin.setAct { s.act with gen := s.act.gen + 1 }
      let p := u.pinAll ((u.weave?.map (·.rills)).getD [])
      (p.2 = true → Yields .actPinningDone s (fun t => t.act.phase = .release ∧ t.act.step = s.act.step ∧
        t.get CSC_ACT_STATUS.ACTIVATING = s.get CSC_ACT_STATUS.ACTIVATING ∧ t.get CSC_ACT_COUNT.COUNT = s.get CSC_ACT_COUNT.COUNT)) ∧
      (p.2 = false → Yields .actPinningDone s (fun t => t.act.phase = .holding ∧ t.get CSC_EVENT.ACT_FAIL = 1 ∧ t.get CSC_ACT_STATUS.HOLDING = 1 ∧
        t.get CSC_ACT_STATUS.ACTIVATING = 0 ∧ t.get CSC_ACT_STATUS.ERR = wePinShort ∧ t.get CSC_ACT_COUNT.COUNT = s.get CSC_ACT_COUNT.COUNT))) ∧
    (∀ r p o g l, s.act.phase = .release → s.act.step ≤ p.step → r < 16 → (s.rill r).part = some p → p.todo = (o, g) :: l → p.live = false →
      s.ison SLU_CTRL.PAUSE = false → s.still = false → s.draining = false → (p.untouched = true → s.mayBegin r p = true) → (s.rill r).mode = .running →
      ((s.catEntry p.plan g).fetchable = true → ∃ f it, s.fetchOf r ⟨p, o, g, p.round⟩ = some f ∧ f.landed = some it) →
      Yields (.sampleRelease r) s (fun t => t.act.phase = .idle ∧ t.get CSC_EVENT.ACT_DONE = 1 ∧ t.get CSC_ACT_STATUS.ACTIVATING = 0 ∧
        t.get CSC_ACT_COUNT.COUNT = min (s.get CSC_ACT_COUNT.COUNT + 1) (2 ^ 32 - 1))) ∧
    (∀ w, Served s .CSC_SPARE_MAP → Yields (.spareMapWrite w) s (fun t => ∀ k, k < 4 →
      let old := bitsOf (s.word .CSC_SPARE_MAP 0).toNat (8 * k + 7) (8 * k)
      let new := bitsOf (t.word .CSC_SPARE_MAP 0).toNat (8 * k + 7) (8 * k)
      let asked := bitsOf w.toNat (8 * k + 7) (8 * k)
      (bitOf old 6 = true → new = old) ∧
      (bitOf old 6 = false → bitOf asked 7 = true → asked % 64 / 16 = k → bitOf asked 6 = false → new = asked) ∧
      (bitOf old 6 = false → bitOf asked 7 = true → asked % 64 / 16 ≠ k → old ≠ clearBit asked 6 → new = old ∧ t.get CSC_EVENT.SPARE_REJECT = 1))) ∧
    (∀ rq w, Served s .CSC_SIGN_CTRL → s.ison CSC_SIGN_CTRL.LOCK = false →
      Yields (.signCtrlWrite rq w) s (fun t => t.get CSC_SIGN_CTRL.LOCK = CSC_SIGN_CTRL.LOCK.get w ∧
        t.get CSC_SIGN_CTRL.ENFORCE = max (CSC_SIGN_CTRL.ENFORCE.get w) (CSC_SIGN_CTRL.LOCK.get w)))

/-- A handover is begun with BUSY, waits for the ownership phase of an activation, or is refused with HANDOVER_REFUSED and no change (R308, R309); its
end gives the bank its new owner and, with CLEAR, zeroes it and no other byte (R308). Pool settings are taken or refused with CONFIG_REFUSED
(R311, R313). A request is granted from the client's reserve or the shared part, or answered NONE and made again (R316 to R318); a free gives the
buffer back (R317); a request of a reserved pool and a free of a buffer not held are latched as violations and answered with an error (R319). No job of
Pebble waits for a buffer. The field burn is refused
or runs once (R323). -/
def Obligations.BanksAndPoolsFollowTheirRules : Prop :=
  ∀ (s : State), Sound s →
    (∀ bank w, bank < 1024 → Served s .RSV_OWNER →
      (s.beforeOwnership = true → Yields (.handoverGo bank w) s (fun t => t.basin = { s.basin with waiting := s.basin.waiting ++ [bank] })) ∧
      (s.beforeOwnership = false →
        ((s.ownerClass bank = clsRill ∨ RSV_OWNER.NEW_CLASS.get w = clsRill ∨ 4 < RSV_OWNER.NEW_CLASS.get w ∨ s.isoni RSV_OWNER.BUSY bank = true) →
          Yields (.handoverGo bank w) s (fun t => t.geti RSV_EVENT.HANDOVER_REFUSED bank = 1 ∧ t.basin = s.basin ∧
            t.ownerClass bank = s.ownerClass bank)) ∧
        (s.ownerClass bank ≠ clsRill → s.ownerClass bank ≠ clsSluice → RSV_OWNER.NEW_CLASS.get w ≠ clsRill → RSV_OWNER.NEW_CLASS.get w ≤ 4 →
          s.isoni RSV_OWNER.BUSY bank = false →
          Yields (.handoverGo bank w) s (fun t => t.geti RSV_OWNER.BUSY bank = 1 ∧ t.ownerClass bank = s.ownerClass bank ∧ t.basin.handovers = s.basin.handovers ++
            [⟨bank, RSV_OWNER.NEW_CLASS.get w, RSV_OWNER.NEW_SPOUT.get w, RSV_OWNER.CLEAR.get w == 1⟩])))) ∧
    (∀ bank h, bank < 1024 → h.cls < 8 → h.spout < 32 → s.basin.handovers.find? (fun x => x.bank == bank) = some h →
      Yields (.handoverDone bank) s (fun t => t.ownerClass bank = h.cls ∧ t.geti RSV_OWNER.SPOUT bank = (if h.cls = clsSpout then h.spout else 0) ∧
        t.geti RSV_OWNER.BUSY bank = 0 ∧ t.geti RSV_EVENT.HANDOVER_DONE bank = 1 ∧
        ∀ a, t.rdByte a = if h.clear = true ∧ a / 262144 = bank then 0 else s.rdByte a)) ∧
    (∀ p w, p < 7 → Served s .BSN_POOL_BANKS →
      let new := s.swWrite .BSN_POOL_BANKS p w
      let fits := s.poolUsed p = 0 ∧ (∀ b ∈ new.poolBanks p, b < 1024 ∧ s.ownerClass b = clsSluice ∧ ∀ q, q < 7 → q ≠ p → b ∉ s.poolBanks q) ∧
        (p = 6 → BSN_POOL_BANKS.COUNT.get w % 4 = 0) ∧ s.sumMin p ≤ new.poolTotal p
      (fits → Yields (.poolBanksWrite p w) s (fun t => t.word .BSN_POOL_BANKS p = Reg.swWrite .BSN_POOL_BANKS (s.word .BSN_POOL_BANKS p) w)) ∧
      (¬ fits → Yields (.poolBanksWrite p w) s (fun t => t.word .BSN_POOL_BANKS p = s.word .BSN_POOL_BANKS p ∧ t.get BSN_EVENT.CONFIG_REFUSED = 1))) ∧
    (∀ w, Served s .BSN_CPOOL →
      let fits := s.poolUsed 7 = 0 ∧ s.sumMin 7 ≤ (s.swWrite .BSN_CPOOL 0 w).poolTotal 7
      (fits → Yields (.cpoolWrite w) s (fun t => t.get BSN_CPOOL.SIZE_GIB = BSN_CPOOL.SIZE_GIB.get w)) ∧
      (¬ fits → Yields (.cpoolWrite w) s (fun t => t.get BSN_CPOOL.SIZE_GIB = s.get BSN_CPOOL.SIZE_GIB ∧ t.get BSN_EVENT.CONFIG_REFUSED = 1))) ∧
    (∀ c p w, 1 ≤ c → c ≤ 9 → p ≤ 7 → Served s .BSN_MIN →
      let raised := (s.swWrite .BSN_MIN (c * 8 + p) w).sumMin p
      ((raised ≤ s.sumMin p ∨ raised ≤ s.poolTotal p) → Yields (.minWrite c p w) s (fun t => t.poolMin c p = BSN_MIN.MIN.get w)) ∧
      (s.sumMin p < raised → s.poolTotal p < raised → Yields (.minWrite c p w) s (fun t => t.poolMin c p = s.poolMin c p ∧
        t.get BSN_EVENT.CONFIG_REFUSED = 1))) ∧
    (∀ c p, c ≤ 9 → s.halted = false → s.basin.asks = [] → s.pebble.next = none →
      (p ≤ 7 → s.freeNumbers p ≠ [] → s.poolUsed p < s.poolTotal p → (s.heldBy c p < s.poolMin c p ∨
          (0 < s.sharedFree p ∧ (c = 0 ∨ s.reached BSN_POOL_THR.RSV_ONLY p = false))) →
        Yields (.bufferRequest [(c, p)]) s (fun t => ∃ b ∈ s.freeNumbers p, t.basin = { s.basin with grants := s.basin.grants ++ [⟨c, p, b⟩] } ∧
          Out.bufferAnswer c p (some b) ∈ t.out)) ∧
      (p ≤ 7 → (s.poolTotal p ≤ s.poolUsed p ∨
          (s.poolMin c p ≤ s.heldBy c p ∧ (s.sharedFree p = 0 ∨ (c ≠ 0 ∧ s.reached BSN_POOL_THR.RSV_ONLY p = true)))) →
        Yields (.bufferRequest [(c, p)]) s (fun t => t.basin = { s.basin with asks := [(c, s.nextPool c p)] } ∧
          t.get BSN_NONE.COUNT = min (s.get BSN_NONE.COUNT + 1) (2 ^ 32 - 1) ∧ Out.bufferAnswer c p none ∈ t.out)) ∧
      (7 < p → s.ison BSN_VIOL_INFO.VALID = false → Yields (.bufferRequest [(c, p)]) s (fun t => t.basin = s.basin ∧ t.get BSN_VIOL_INFO.VALID = 1 ∧
        t.get BSN_VIOL_INFO.CLIENT = c ∧ t.get BSN_VIOL_INFO.REASON = 2 ∧ t.get BSN_EVENT.VIOL = 1 ∧ Out.bufferError c p ∈ t.out))) ∧
    (∀ c p b, c ≤ 9 →
      (⟨c, p, b⟩ ∈ s.basin.grants → s.pebble.next = none →
        Yields (.bufferFree c p b) s (fun t => t.basin = { s.basin with grants := s.basin.grants.filter (fun g => g != ⟨c, p, b⟩) })) ∧
      (⟨c, p, b⟩ ∉ s.basin.grants → s.ison BSN_VIOL_INFO.VALID = false → Yields (.bufferFree c p b) s (fun t => t.basin = s.basin ∧ t.get BSN_VIOL_INFO.VALID = 1 ∧
        t.get BSN_VIOL_INFO.CLIENT = c ∧ t.get BSN_VIOL_INFO.REASON = 1 ∧ t.get BSN_EVENT.VIOL = 1 ∧ Out.bufferError c p ∈ t.out))) ∧
    (∀ w, Served s .RSV_FIELD_CTRL → RSV_FIELD_CTRL.BURN.get w = 1 → s.ison RSV_FIELD_CTRL.BUSY = false →
      ((s.basin.fieldUsed = true ∨ RSV_FIELD_CTRL.KEY.get w ≠ 0xF05E ∨ s.ison CSC_STATUS.ACTIVE = true) →
        Yields (.fieldBurn w) s (fun t => t.get RSV_FIELD_RESULT.REFUSED = 1 ∧ t.get RSV_FIELD_CTRL.BUSY = 0)) ∧
      (s.basin.fieldUsed = false → RSV_FIELD_CTRL.KEY.get w = 0xF05E → s.ison CSC_STATUS.ACTIVE = false →
        Yields (.fieldBurn w) s (fun t => t.get RSV_FIELD_RESULT.REFUSED = 0 ∧ t.get RSV_FIELD_CTRL.BUSY = 1))) ∧
    (s.ison RSV_FIELD_CTRL.BUSY = true →
      Yields .burnDone s (fun t => t.basin.fieldUsed = true ∧ t.get RSV_FIELD_CTRL.BUSY = 0 ∧ t.get RSV_FIELD_CTRL.USED = 1 ∧
        ∀ b n, b < 1024 → s.isoni RSV_FIELD_STAGE.VALID b = true → s.burnEntry b = some n →
          (b, n, 2 ^ 31 + 2 ^ 30 + s.geti RSV_FIELD_STAGE.COLUMN b) ∈ t.basin.fuses))

/-- A VOCAB_LOAD into a slot in use ends with 0x0011 and IN_USE; while part of its image is still to come the slot is LOADING; a read
that fails leaves it FAILED and ends with 0x0030; an image that fails a check leaves the slot FAILED with its error and ends with 0x0020; a good image fills the slot, which shows VALID, and the result is its tag (R286, R287). A cache miss of a lane at work counts, holds the
lane for its stall, and the line is in the lane's cache first (R297). GO starts a Pebble job or is refused; ABORT ends the job at its next
unit; a host job that a lane has run, over host memory or the host-directed region of Cistern, ends with its reason, its counts and PBL_EVENT.DONE, and what
it put out is in host memory or in that region (R28, R335, R337, R341); a Sluice job gives its fetch the expanded sample (R338). -/
def Obligations.VocabulariesCachesAndPebbleJobs : Prop :=
  ∀ (s : State), Sound s →
    (∀ k x image, Ready s k 0x14 x → x.target < 4 →
      (x.prior = none → (s.ison CSC_STATUS.LOADER_BUSY = true ∨ s.vocabNamed x.target = true) →
        Yields (.vocabLoad k ⟨image, none⟩) s (fun t => Ended t k 0x0011 0 ∧ t.geti REED_VOCAB_ERR.ERR (vocabInst x.target) = veInUse ∧ t.vocabs = s.vocabs)) ∧
      ((x.prior ≠ none ∨ (s.ison CSC_STATUS.LOADER_BUSY = false ∧ s.vocabNamed x.target = false)) →
        (image.length ≠ x.count → Yields (.vocabLoad k ⟨image, none⟩) s (fun t => t.geti REED_VOCAB_STATE.STATE (vocabInst x.target) = 1 ∧ t.vocabs = s.vocabs ∧
          ∃ y ∈ t.host.tasks, y.id = k ∧ y.started = true ∧ y.done = none)) ∧
        (∀ reason, Yields (.vocabLoad k ⟨image, some reason⟩) s (fun t => Ended t k 0x0030 0 ∧
          t.geti REED_VOCAB_STATE.STATE (vocabInst x.target) = 3 ∧ t.vocabs[x.target]? = some [] ∧ t.get HIF_EVENT.DMA_ERR = 1)) ∧
        (image.length = x.count → vocabErr image x.count ≠ 0 → Yields (.vocabLoad k ⟨image, none⟩) s (fun t => Ended t k 0x0020 0 ∧
          t.geti REED_VOCAB_STATE.STATE (vocabInst x.target) = 3 ∧ t.geti REED_VOCAB_ERR.ERR (vocabInst x.target) = vocabErr image x.count % 256 ∧
          t.vocabs[x.target]? = some [])) ∧
        (image.length = x.count → vocabErr image x.count = 0 → Yields (.vocabLoad k ⟨image, none⟩) s (fun t => Ended t k 0 (leAt (Machine.sha384 image) 0 8) ∧
          t.geti REED_VOCAB_STATE.STATE (vocabInst x.target) = 2 ∧ t.pair .REED_VOCAB_TAG_LO .REED_VOCAB_TAG_HI (vocabInst x.target) = leAt (Machine.sha384 image) 0 8 ∧
          t.vocabs[x.target]? = some image)))) ∧
    (∀ lane line stall parity g y run, lane < 16 → s.geti REED_STATUS.STATE lane = 1 → s.still = false →
      s.wstage? (s.geti REED_STATUS.RILL lane) (s.geti REED_STATUS.STAGE lane) = some g →
      s.stageSt? (s.geti REED_STATUS.RILL lane) (s.geti REED_STATUS.STAGE lane) = some y → y.run = some run →
      Yields (.cacheLineFill lane line stall parity) s (fun t =>
        t.geti REED_MISSES.COUNT lane = min (s.geti REED_MISSES.COUNT lane + 1) (2 ^ 32 - 1) ∧
        t.stageSt? (s.geti REED_STATUS.RILL lane) (s.geti REED_STATUS.STAGE lane) = some { y with run := some { run with stall := run.stall + stall } } ∧
        (t.caches.getD lane []).head? = some line ∧ (∀ j, j ≠ lane → t.caches.getD j [] = s.caches.getD j []) ∧
        (parity = true → t.geti REED_EVENT.PARITY lane = 1))) ∧
    (∀ w, Served s .PBL_JOB_CTRL → PBL_JOB_CTRL.ABORT.get w = 0 →
      (s.pebble.host ≠ none → Yields (.pebbleGo w) s (fun t => t.pebble = s.pebble ∧ t.get PBL_EVENT.GO_REFUSED = 1)) ∧
      (s.pebble.host = none → Yields (.pebbleGo w) s (fun t => t.get PBL_STATUS.HOST_BUSY = 1 ∧ (∃ x ∈ t.pebble.jobs, x.client = .host) ∧
        ∃ j, t.pebble.host = some j ∧ j.aborted = false ∧
        j.srcLen = s.get PBL_SRC_LEN.BYTES ∧ j.dstLen = s.get PBL_DST_LEN.BYTES ∧ j.dst = s.pair .PBL_DST_LO .PBL_DST_HI 0 ∧
        (j.dstHost = true ↔ PBL_JOB_CTRL.DST_MEM.get w ≠ 1) ∧
        j.fresh = if PBL_JOB_CTRL.RESUME.get w = 1 then none else some (PBL_JOB_CTRL.DIR.get w == 1, PBL_JOB_CTRL.MODE.get w,
          PBL_JOB_CTRL.TABLE.get w == 1, PBL_JOB_CTRL.ELEM.get w, PBL_JOB_CTRL.STRIDE_M1.get w)))) ∧
    (∀ w j, Served s .PBL_JOB_CTRL → s.pebble.host = some j →
      Yields (.pebbleAbort w) s (fun t => t.pebble = { s.pebble with host := some { j with aborted := true } })) ∧
    (∀ lane x source vf units, s.halted = false → s.pebble.jobs.find? (fun y => y.lane == some lane) = some x →
      (x.client = .sluice → Yields (.pebbleJobDone lane source vf units) s (fun t => (∀ y ∈ t.pebble.jobs, y.id ≠ x.id) ∧
        t.sluice.fetches = s.sluice.fetches.map (fun f => if f.job = some x.id then { f with whole := some (expandStored x.input s).1 } else f))) ∧
      (∀ j, x.client = .host → s.pebble.host = some j →
        let ended := fun (t : State) (reason : Nat) => t.pebble.host = none ∧ (∀ y ∈ t.pebble.jobs, y.id ≠ x.id) ∧ t.get PBL_STATUS.HOST_BUSY = 0 ∧
          t.get PBL_JOB_RESULT.REASON = reason ∧ t.get PBL_EVENT.DONE = 1
        (s.jobSource j source = none → Yields (.pebbleJobDone lane source vf units) s (fun t => ended t pblSource)) ∧
        (∀ input, s.jobSource j source = some input → j.start (input.take j.srcLen) = none →
          Yields (.pebbleJobDone lane source vf units) s (fun t => ended t pblFormat)) ∧
        (∀ input st, s.jobSource j source = some input → j.start (input.take j.srcLen) = some st →
          let r := j.run input vf units st
          Yields (.pebbleJobDone lane source vf units) s (fun t => ended t (r.reason % 256) ∧
            t.get PBL_IN_DONE.BYTES = r.inDone % 2 ^ 32 ∧ t.get PBL_OUT_DONE.BYTES = r.out.length % 2 ^ 32 ∧
            (r.out ≠ [] →
              (j.dstHost = true → Out.hostWrite j.dst r.out s.relaxed ∈ t.out ∧ t.basin.hostMem = s.basin.hostMem) ∧
              (j.dstHost = false → t.rdRegionBytes j.dst r.out.length = r.out))))))

/-- After reset, and after every step that answers a next state from a state of which it holds: the flow table and the group table are in
canonical form with entries of 128 and 32 bytes (R345, R346), and the replay pool holds its batches oldest first, each under a
number below the next one (R370). -/
def Obligations.EveryStepKeepsTheWeirInOrder : Prop :=
  WeirSound State.reset ∧ ∀ s t : State, Sound s → WeirSound s → step s = .next t → WeirSound t

/-- BATCH_ENQUEUE of a Rill whose map names no flow sets UNMAPPED and keeps the batch (R342); the batch of a Pebble flow is coded first (R340); of a unicast flow with room in the pool it takes the
flow's FSN, raises it by one, and puts the batch in the pool and in the member's queue. FRAME_SLOT sends the head frame of the
flow that fair queuing chose: V becomes its start tag, its finish tag is the start tag plus ceil(65,536 / WEIGHT), and
LSEQ or PSN goes up by one (R352, R356). SHAPER_REFILL adds RATE to every bucket, up to BURST frames (R358). -/
def Obligations.BatchesQueueAndFramesLeave : Prop :=
  ∀ (s : State), Sound s → WeirSound s →
    (∀ r x rest, r < 16 → s.halted = false → (s.rill r).ready = x :: rest →
      (s.rillFlow r = none → Yields (.batchEnqueue r) s (fun t => t.get WEIR_EVENT.UNMAPPED = 1 ∧ t.weir = s.weir ∧ (t.rill r).ready = x :: rest)) ∧
      (∀ f, s.rillFlow r = some f →
        let e := s.flowEntry f
        let bs := wireBytes e x
        (fePebble e = true → x.coded = none → x.job = none → s.earlierIn f (orderKey x.batch.id.step x.batch.id.slice x.batch.id.device) = false →
          Yields (.batchEnqueue r) s (fun t => (t.rill r).ready = { x with job := some s.pebble.nextId } :: rest ∧ t.weir = s.weir ∧
            ∃ j ∈ t.pebble.jobs, j.id = s.pebble.nextId ∧ j.client = .weir ∧ j.input = x.batch.bytes)) ∧
        ((fePebble e = false ∨ x.coded ≠ none) → feGroup e = false → feCache e = false → s.earlierIn f (orderKey x.batch.id.step x.batch.id.slice x.batch.id.device) = false →
        s.weir.poolFrames + frameCount bs.length ≤ s.weir.poolMib * 256 → (s.flow f).unreachable = false →
        (s.runnelSoon (feSpout e) = true ∨ alignUp 4096 (bs.length + 64) ≤ feSlotBytes e) →
        Yields (.batchEnqueue r) s (fun t => t.flowEntry f = feSetFsn e ((feFsn e + 1) % 2 ^ 32) ∧ (t.rill r).ready = rest ∧
          t.weir.nextId = s.weir.nextId + 1 ∧ (t.flow f).queue = (s.flow f).queue ++ [⟨s.weir.nextId, false, 0⟩] ∧
          ∃ b ∈ t.weir.pool, b.id = s.weir.nextId ∧ b.flow = f ∧ b.fsn = feFsn e ∧ b.bytes = bs ∧ b.digest = x.batch.digest ∧ b.owedFlows = [f])))) ∧
    (∀ k, s.frozen = false →
      (s.nextFlow k = none → Yields (.frameSlot k) s (fun t => t.weir = s.weir)) ∧
      (∀ f start d rest b, k < 24 → s.nextFlow k = some (f, start) → (s.flow f).queue = d :: rest → s.batch? d.batch = some b →
        let o := (s.frameOut k f b d (if s.runnel k = true then (s.spout k).lseq else (s.flow f).psn)).1
        Yields (.frameSlot k) s (fun t =>
          (t.flow f).finish = start + ceilDiv 65536 (feWeight (s.flowEntry f)) ∧ (t.spout k).vtime = start ∧
          (t.flow f).queue = (if d.next + 1 = b.frames then rest else { d with next := d.next + 1 } :: rest) ∧
          (s.runnel k = true → (t.spout k).lseq = ((s.spout k).lseq + 1) % 2 ^ 32 ∧ (t.flow f).psn = (s.flow f).psn ∧
            (t.spout k).retry = (s.spout k).retry ++ [⟨(s.spout k).lseq, f, d.batch, d.next, d.resent, o⟩]) ∧
          (s.runnel k = false → (t.flow f).psn = ((s.flow f).psn + 1) % 2 ^ 24 ∧ (t.spout k).lseq = (s.spout k).lseq ∧
            (t.flow f).unacked = (s.flow f).unacked ++ [⟨(s.flow f).psn, f, d.batch, d.next, d.resent, o⟩]) ∧
          o ∈ t.out ∧ ∃ body, o = Out.frame k f b.fsn d.resent (if d.next + 1 = b.frames then .record else .data d.next) body))) ∧
    (s.frozen = true → ∀ k, Yields (.frameSlot k) s (fun t => t.weir = s.weir) ∧ Yields .shaperRefill s (fun t => t.weir = s.weir)) ∧
    (s.frozen = false → Yields .shaperRefill s (fun t =>
      (∀ f ∈ s.memberFlows, t.flow f = refillFlow (s.flowEntry f) (s.flow f)) ∧ (∀ f, f ∉ s.memberFlows → t.flow f = s.flow f) ∧
      t.weir.pool = s.weir.pool ∧ t.weir.flows = s.weir.flows))

/-- A table access moves an entry between the table and WEIR_TBL_DATA and sets TBL_DONE; a write that R346 or R359 forbids changes nothing and
sets TBL_REFUSED. A stalled member is unreachable, and in Runnel mode an ABORT goes out (R361, R366); when it is ready it is sent every batch
held for it, with RESENT (R366). A resend reaches the named members that the batch is not too large for, those that are unreachable once they are ready, or sets
RESEND_MISS (R350, R367). When a hold ends, the
unreachable members of the batch are MISSED (R368). A write of WEIR_CR_HEAD releases entries (R373). -/
def Obligations.TheWeirRunsItsTablesAndMembers : Prop :=
  ∀ (s : State), Sound s → WeirSound s →
    (∀ w, Served s .WEIR_TBL_CTRL →
      let i := WEIR_TBL_CTRL.INDEX.get w
      (WEIR_TBL_CTRL.TABLE.get w = 0 →
        Yields (.tableRead w) s (fun t => t.tblData 32 = s.flowEntry i ∧ t.weir = s.weir ∧ t.get WEIR_EVENT.TBL_DONE = 1)) ∧
      (WEIR_TBL_CTRL.TABLE.get w = 1 →
        Yields (.tableRead w) s (fun t => t.tblData 8 = s.groupEntry i ∧ t.weir = s.weir ∧ t.get WEIR_EVENT.TBL_DONE = 1)) ∧
      (WEIR_TBL_CTRL.TABLE.get w = 0 →
        let old := s.flowEntry i
        let new := s.tblData 32
        let may := (feValid old = false ∨ s.flowBusy i = false ∨ feFixed old = feFixed new) ∧
          ∀ g ∈ s.weir.groups, geValid g.2 = true → groupOk (fun f => if f = i then new else s.flowEntry f) g.2 = true
        (may → Yields (.tableWrite w) s (fun t => t.flowEntry i = new ∧ t.get WEIR_EVENT.TBL_DONE = 1 ∧ (∀ f, f ≠ i → t.flowEntry f = s.flowEntry f) ∧
          (feValid old = false → feValid new = true → (t.flow i).psn = fePsn new ∧ (t.flow i).finish = 0 ∧ (t.flow i).queue = []))) ∧
        (¬ may → Yields (.tableWrite w) s (fun t => t.weir = s.weir ∧ t.get WEIR_EVENT.TBL_REFUSED = 1 ∧ t.get WEIR_EVENT.TBL_DONE = 1))) ∧
      (WEIR_TBL_CTRL.TABLE.get w = 1 →
        let new := s.tblData 8
        let may := i < 64 ∧ (geValid new = false ∨ groupOk s.flowEntry new = true)
        (may → Yields (.tableWrite w) s (fun t => t.groupEntry i = new ∧ t.get WEIR_EVENT.TBL_DONE = 1 ∧ t.weir.flows = s.weir.flows ∧
          (geValid new = true → geValid (s.groupEntry i) = false → t.readySet i = geMembers new))) ∧
        (¬ may → Yields (.tableWrite w) s (fun t => t.weir = s.weir ∧ t.get WEIR_EVENT.TBL_REFUSED = 1 ∧ t.get WEIR_EVENT.TBL_DONE = 1)))) ∧
    (∀ f next b, s.frozen = false → s.isParked f = true → s.spoutOf f < 24 → s.stalledOn f = some (b, next) →
      Yields (.stallLimit f) s (fun t => (t.flow f).unreachable = true ∧ (t.flow f).queue = [] ∧ t.get WEIR_EVENT.STALL = 1 ∧
        t.geti SPT_EVENT.STALL (s.spoutOf f) = 1 ∧ (∃ x ∈ t.weir.pool, x.id = b.id ∧ x.bytes = b.bytes) ∧
        (s.runnel (s.spoutOf f) = true → 0 < next →
          Out.control (s.spoutOf f) "ABORT" (controlFrame 0x14 (leBytes 2 (feEndpoint (s.flowEntry f)) ++ zeros 2 ++ leBytes 4 b.fsn)) ∈ t.out))) ∧
    (∀ f, (s.flow f).unreachable = true → s.usable f = true → (s.flow f).queue = [] →
      let t0 := s.setFlow f { s.flow f with unreachable := false, timeouts := 0, onAlt := !s.spoutUp (feSpout (s.flowEntry f)) && s.spoutUp (feAlt (s.flowEntry f)) }
      t0.hasCredit f = true →
      Yields (.memberReady f) s (fun t => (t.flow f).unreachable = false ∧
        ((s.weir.pool.filter (fun b => b.owedFlows.contains f && !b.strictWait)).map (fun b => (⟨b.id, true, 0⟩ : Delivery))) <+: (t.flow f).queue)) ∧
    (∀ w, Served s .WEIR_RESEND →
      let found := s.weir.pool.find? (fun b => b.flow == WEIR_RESEND.FLOW.get w && b.fsn == (s.word .WEIR_RESEND_FSN 0).toNat)
      (found = none → Yields (.resend w) s (fun t => t.weir = s.weir ∧ t.get WEIR_EVENT.RESEND_MISS = 1)) ∧
      (∀ b, found = some b → Yields (.resend w) s (fun t => ∀ o ∈ b.owed, o.size = false →
        (WEIR_RESEND.SPOUT.get w = 0x1F ∨ feSpout (s.flowEntry o.flow) = WEIR_RESEND.SPOUT.get w) → ⟨b.id, true, 0⟩ ∈ (t.flow o.flow).queue))) ∧
    (∀ id b, s.batch? id = some b → b.settled = false → s.frozen = false →
      let gone := b.owedFlows.filter (fun f => (s.flow f).unreachable)
      Yields (.replayHoldExpire id) s (fun t => (gone ≠ [] → t.get WEIR_EVENT.MISSED = 1) ∧
        (∀ x ∈ t.weir.pool, x.id = id → x.strictWait = false ∧ ∀ f ∈ gone, f ∉ x.owedFlows))) ∧
    (∀ w, Served s .WEIR_CR_HEAD → s.weir.crWait = [] →
      let old := s.get WEIR_CR_HEAD.HEAD
      let new := WEIR_CR_HEAD.HEAD.get w
      let freed := if old = new ∧ s.weir.crHeld = s.crSize then s.crSize else (new + s.crSize - old % s.crSize) % s.crSize
      Yields (.crHeadWrite w) s (fun t => t.get WEIR_CR_HEAD.HEAD = new ∧ t.weir = { s.weir with crHeld := s.weir.crHeld - min s.weir.crHeld freed } ∧
        (t.get WEIR_STATUS.CR_FULL = 1 ↔ s.crSize ≤ t.weir.crHeld))) ∧
    (∀ r stage, r < 16 → (s.rill r).mode = .running →
      Yields (.cisternUe (.buffer r stage)) s (fun t => t.get SVC_EVENT.RILL_FAULT = 1 ∧ (t.rill r).mode = .stopping ∧ ⟨7, stage, 0⟩ ∈ (t.rill r).faults)) ∧
    (∀ id b, s.batch? id = some b → Yields (.cisternUe (.pool id)) s (fun t => (b.owedFlows ≠ [] → t.get WEIR_EVENT.MISSED = 1) ∧
      ∀ x ∈ t.weir.pool, x.id = id → x.strictWait = false ∧ x.owedFlows = [])) ∧
    Yields (.cisternUe .catalogue) s (fun t => t.get SVC_EVENT.CISTERN_UE = 1) ∧ Yields (.cisternUe .map) s (fun t => t.get SVC_EVENT.CISTERN_UE = 1)

/-- RETRAIN untrains a channel and suspends its ONLINE dies; a training that succeeds brings the channel to its rate and begins to bring those
dies back, one that fails suspends every die of the channel (R142, R180, R182). A trained channel calibrates each die that is there and changes nothing
(R144). A read-threshold window ends at 4,096 codewords; with RT_EN a level whose flips trigger moves by one unit, within LIMIT,
else it is clamped; which way flips move it is a free value (R164, assumption 3). -/
def Obligations.ChannelsTrainCalibrateAndAdapt : Prop :=
  ∀ (s : State), Sound s →
    (∀ c w, c < 32 → Served s .NFC_CTRL → s.aqf.training.all (fun t => t.1 != c) = true →
      Yields (.nfcRetrain c w) s (fun t => t.geti NFC_STATUS.TRAINED c = 0 ∧ (∀ d ∈ channelDies c, s.dieState d = dieOnline → t.dieState d = dieSuspended) ∧
        t.aqf.training = (c, (channelDies c).filter (fun d => s.dieState d == dieOnline)) :: s.aqf.training)) ∧
    (∀ c mine, c < 32 → s.aqf.training.find? (fun t => t.1 == c) = some (c, mine) →
      Yields (.channelTrainingDone c true) s (fun t => t.geti NFC_STATUS.TRAINED c = 1 ∧
        t.geti NFC_STATUS.RATE_ACTIVE c = (if s.geti NFC_CTRL.RATE c = 0 then 1 else s.geti NFC_CTRL.RATE c) ∧
        (∀ d, d < 1024 → t.dieState d = s.dieState d) ∧
        ∀ d ∈ mine, s.dieState d = dieSuspended → (∀ b ∈ s.aqf.bringing, b.1 ≠ d) → (d, false) ∈ t.aqf.bringing) ∧
      Yields (.channelTrainingDone c false) s (fun t => t.geti NFC_STATUS.TRAINED c = s.geti NFC_STATUS.TRAINED c ∧
        ∀ d ∈ channelDies c, t.dieState d ≠ dieOnline)) ∧
    (∀ c, c < 32 → s.isoni NFC_STATUS.TRAINED c = true → Yields (.zqCalibration c) s (fun t => t.aqf = s.aqf ∧
      (∀ r i, i < r.entries → t.word r i = s.word r i) ∧
      ∀ d ∈ channelDies c, s.dieState d ≠ dieAbsent → Out.flash c (dieEnable d) (dieLun d) [0xD9] [] [] ∈ t.out)) ∧
    (∀ d bin flips, d < 1024 → bin < 4 → s.dieState d = dieOnline → 4096 ≤ s.aqf.codewordsOf d bin →
      (s.ison AQF_CTRL.RT_EN = false → Yields (.rtWindowEnd d bin flips) s (fun t => t.aqf = s.aqf.setCodewords d bin 0)) ∧
      (∀ f, s.ison AQF_CTRL.RT_EN = true → flips = [f] →
        let v := s.aqf.rtAt d f.level bin + (if decide (f.down < f.up) == Config.flipRaises then 1 else -1)
        (s.rtTriggers f = false → Yields (.rtWindowEnd d bin flips) s (fun t => t.aqf = s.aqf.setCodewords d bin 0)) ∧
        (s.rtTriggers f = true → v.natAbs ≤ max 1 (s.get AQF_RT.LIMIT) → Yields (.rtWindowEnd d bin flips) s (fun t =>
          t.aqf = (s.aqf.setCodewords d bin 0).setRt d f.level bin v ∧
          t.geti NFC_RT_MOVES.COUNT (dieChannel d) = min (s.geti NFC_RT_MOVES.COUNT (dieChannel d) + 1) (2 ^ 32 - 1))) ∧
        (s.rtTriggers f = true → max 1 (s.get AQF_RT.LIMIT) < v.natAbs → Yields (.rtWindowEnd d bin flips) s (fun t =>
          t.aqf = s.aqf.setCodewords d bin 0 ∧
          t.geti NFC_RT_CLAMP.COUNT (dieChannel d) = min (s.geti NFC_RT_CLAMP.COUNT (dieChannel d) + 1) (2 ^ 32 - 1)))))

/-- A unit of a write enters staging merged with what it held, and reads so at once, outside an atomic write (R153, R156, R157); a failed
read ends the task (R203). A unit, padding and journal records are programmed with the commands and the metadata of R144, R152 and R168, each
unit with the next SEQ. A page read ends as the first attempt that succeeds, and counts it; without one the unit is LOST (R163). A program or
erase failure makes its block GROWN_BAD, and a die with more of them than SPARE_BLKS is retired (R180). A fold and a relocation copy a unit's
data to the new page and leave the map as it is until their block closes, when each copy whose SOURCE the map still names takes its
unit (R159, R160, R166). A checkpoint holds the segment with the oldest CKPT_SEQ as the map has it (R167, R168). -/
def Obligations.UnitsAreStagedProgrammedReadAndCopied : Prop :=
  ∀ (s : State), Sound s →
    (∀ k x data, Ready s k 2 x → s.ison AQF_STATUS.PF = false → s.windowRoom 1 = true → s.throttled = false → x.progress < x.count →
      let first := x.target + x.progress
      let n := min (x.count - x.progress) (4 - first % 4)
      (data.length = sectorBytes * n → (s.takeBuf hostWrite unitPool 7).2.isSome = true →
        Yields (.unitAdmit k ⟨data, none⟩) s (fun t => (∃ y ∈ t.host.tasks, y.id = k ∧ y.progress = x.progress + n ∧ y.done = none) ∧
          (x.atomic = false → t.aqf.unitData (first / 4) = some (mergeUnit (s.aqf.unitData (first / 4)) (first % 4) data)))) ∧
      (∀ reason, Yields (.unitAdmit k ⟨data, some reason⟩) s (fun t => t.get HIF_EVENT.DMA_ERR = 1 ∧
        Ended t k 0x0030 (if x.atomic = false then x.progress else 0)))) ∧
    (s.ison AQF_STATUS.PF_SAFE = false →
      (∀ l x, s.aqf.staging.find? (fun u => u.loc.isNone) = some x → s.canProgram .openHost false l = true →
        l.slc = decide (s.get AQF_SLC.FILL < 100) → s.inHorizon = true → s.suspendedFor l.die false = false → s.servesProgram l.die = true →
        Yields (.unitProgrammed (.unit l)) s (fun t => t.aqf.seq = s.aqf.seq + 1 ∧
          ∃ op, Out.flash (dieChannel l.die) (dieEnable l.die) (dieLun l.die) (op ++ opProgram) [l.block, l.page]
            (cellBytes (s.aqf.unitMeta x) x.data s.aqf.keys) ∈ t.out)) ∧
      (∀ l,
        let copy := (s.aqf.block l.die l.block).state = .openCopy
        (copy ∨ s.aqf.stripeOpen l = true) → s.canProgram (if copy then .openCopy else .openHost) false l = true →
        Yields (.unitProgrammed (.pad l)) s (fun t => t.aqf.seq = s.aqf.seq ∧
          ∃ op, Out.flash (dieChannel l.die) (dieEnable l.die) (dieLun l.die) (op ++ opProgram) [l.block, l.page]
            (cellBytes (padMeta s.aqf.seq) (zeros unitBytes) s.aqf.keys) ∈ t.out)) ∧
      (∀ l, s.aqf.journal ≠ [] → s.canJournal l = true → s.suspendedFor l.die false = false →
        Yields (.unitProgrammed (.journal l)) s (fun t => t.aqf.journal = [] ∧ t.aqf.map = s.aqf.map ∧ t.aqf.seq = s.aqf.seq ∧
          ∃ op, Out.flash (dieChannel l.die) (dieEnable l.die) (dieLun l.die) (op ++ opProgram) [l.block, l.page]
            (OwnRecord.bytes .journal (s.aqf.journal.flatMap JournalRec.nums) ++ (ownMeta s.aqf.seq).bytes) ∈ t.out))) ∧
    (∀ u l c, s.aqf.entry u = .mapped l → l.die < 1024 →
      let e := s.readEnd l c
      let ch := dieChannel l.die
      (∀ n, e = .hard n → Yields (.pageReadDone u c) s (fun t => t.aqf.map = s.aqf.map ∧
        t.pair .NFC_CORR_LO .NFC_CORR_HI ch = min (s.pair .NFC_CORR_LO .NFC_CORR_HI ch + n) (2 ^ 64 - 1))) ∧
      (∀ i n, e = .ladder i n → Yields (.pageReadDone u c) s (fun t => t.aqf.map = s.aqf.map ∧
        t.geti NFC_RETRY.COUNT ch = min (s.geti NFC_RETRY.COUNT ch + 1) (2 ^ 32 - 1))) ∧
      (∀ n, e = .soft n → Yields (.pageReadDone u c) s (fun t => t.aqf.map = s.aqf.map ∧
        t.geti NFC_SOFT.COUNT ch = min (s.geti NFC_SOFT.COUNT ch + 1) (2 ^ 32 - 1))) ∧
      (e = .rebuilt → Yields (.pageReadDone u c) s (fun t => t.aqf.map = s.aqf.map ∧
        t.geti NFC_REBUILD.COUNT ch = min (s.geti NFC_REBUILD.COUNT ch + 1) (2 ^ 32 - 1))) ∧
      (∀ d, e = .lost d → Yields (.pageReadDone u c) s (fun t => t.aqf.entry u = .lost ∧ ∀ v, v ≠ u → t.aqf.entry v = s.aqf.entry v))) ∧
    (∀ d b erase, d < 1024 → s.dieState d ≠ dieAbsent →
      let f := if erase then NFC_FAIL.ERASE else NFC_FAIL.PROGRAM
      let a := s.aqf.setBlock d b { (s.aqf.block d b) with state := .grownBad }
      Yields (.programFail d b erase) s (fun t => (t.aqf.block d b).state = .grownBad ∧ t.aqf.map = s.aqf.map ∧
        t.geti f (dieChannel d) = min (s.geti f (dieChannel d) + 1) (2 ^ 12 - 1) ∧
        (s.get AQF_SPARE.SPARE_BLKS < a.grown d → t.dieState d = dieRetired) ∧
        (a.grown d ≤ s.get AQF_SPARE.SPARE_BLKS → t.dieState d = s.dieState d))) ∧
    (∀ u (x : UnitCopy) src, s.aqf.entry u = .mapped src → s.background = true → s.suspendedFor x.loc.die false = false →
      (s.takeBuf aquiferClient unitPool 7).2.isSome = true →
      let copied := fun (t : State) => t.aqf.seq = s.aqf.seq + 1 ∧ t.aqf.map = s.aqf.map ∧
        ∃ op, Out.flash (dieChannel x.loc.die) (dieEnable x.loc.die) (dieLun x.loc.die) (op ++ opProgram) [x.loc.block, x.loc.page]
          (cellBytes ⟨u, false, false, false, true, 1, s.aqf.seq + 1, s.aqf.seq + 1, (MapUnit.mapped src).value⟩ (s.aqf.pageData src) s.aqf.keys) ∈ t.out
      let gone := fun (t : State) => t.aqf.entry u = .lost ∧ t.aqf.seq = s.aqf.seq ∧ t.aqf.placed = s.aqf.placed
      (src.slc = true → x.loc.slc = false → s.mayFold src.die (s.aqf.opTime .read true) = true →
        s.mayFold x.loc.die (s.aqf.opTime .program false) = true → (s.aqf.cached.contains u = false ∨ s.foldHi ≤ s.get AQF_SLC.FILL) →
        s.canProgram .openCopy false x.loc = true →
        ((∀ d, s.readEnd src x.read ≠ .lost d) → Yields (.foldUnit u x) s (fun t => copied t ∧
          (s.get AQF_SLC.THROTTLE < s.get AQF_SLC.FILL → s.slcFill = s.get AQF_SLC.FILL → t.aqf.folded = s.aqf.folded + 1) ∧
          (s.get AQF_SLC.FILL ≤ s.get AQF_SLC.THROTTLE → t.aqf.folded ≤ s.aqf.folded))) ∧
        (∀ d, s.readEnd src x.read = .lost d → Yields (.foldUnit u x) s gone)) ∧
      (s.ison AQF_CTRL.PLACE_EN = true → s.inBudget = true → s.windowHalf = false → dieGroup src.die ≠ dieGroup x.loc.die →
        (s.dieState src.die = dieSuspended ∨ s.dieState src.die = dieRetired ∨
          (s.wornApart = true ∧ s.coldUnit u = true ∧ s.mostWorn (dieGroup x.loc.die) = true)) →
        s.servesLast x.loc.die = true → s.canProgram .openCopy true x.loc = true →
        ((∀ d, s.readEnd src x.read ≠ .lost d) → Yields (.relocateUnit u x) s (fun t => copied t ∧ t.aqf.placed = s.aqf.placed + 1)) ∧
        (∀ d, s.readEnd src x.read = .lost d → Yields (.relocateUnit u x) s gone))) ∧
    (∀ d b, (s.aqf.block d b).state = .openCopy → (s.aqf.block d b).gone = false →
      s.aqf.pagesIn (s.aqf.block d b).slc ≤ (s.aqf.block d b).used + 1 → s.background = true → s.dieState d = dieOnline →
      Yields (.copyBlockClose d b) s (fun t => t.aqf.map = ((s.aqf.blockPages d b).foldl AqfSt.moveCopy s.aqf).map ∧
        ∃ op, Out.flash (dieChannel d) (dieEnable d) (dieLun d) (op ++ opProgram) [b, s.aqf.pagesIn (s.aqf.block d b).slc - 1]
          (OwnRecord.bytes .summary ((s.aqf.seq + 1) :: (s.aqf.blockMetas d b).flatMap (fun m => m.bytes.map (·.toNat)))
            ++ (ownMeta s.aqf.seq).bytes) ∈ t.out)) ∧
    (s.background = true →
      let k := s.aqf.oldestSegment
      let avoid := s.aqf.dir?.map (fun d => dieChannel (d.block / 8192))
      (s.aqf.settled k = false → Yields .checkpointSegment s (fun t => t.aqf.dirs = s.aqf.dirs ∧ t.aqf.map = s.aqf.map)) ∧
      (s.aqf.settled k = true → s.aqf.changed k = false → s.freeBlocks avoid 1 ≠ [] →
        Yields .checkpointSegment s (fun t => t.aqf.ckptSeq k = s.aqf.seq ∧ t.aqf.map = s.aqf.map)) ∧
      (∀ b rest, s.aqf.settled k = true → s.aqf.changed k = true → s.freeBlocks none s.aqf.segmentBlocks = b :: rest →
        (s.modAqf (fun a => a.takeBlocks (b :: rest))).freeBlocks avoid 1 ≠ [] →
        Yields .checkpointSegment s (fun t => t.aqf.ckptSeq k = s.aqf.seq ∧ t.aqf.ckptEntries k = s.aqf.segmentNow k ∧ t.aqf.map = s.aqf.map)))

/-- A die that times out twice is suspended, and the timeouts are counted (R180). AQF_DIE_CMD suspends an ONLINE die, begins to bring a SUSPENDED one
back, or retires a die that is one of these; a command that the die's state does not allow fails and changes no die (R180, R182,
R186). A bring-back that finds the die recorded at format returns it, and any other leaves it SUSPENDED (R182). With AUTO_BACK
each suspension gets one automatic attempt (R182). -/
def Obligations.DiesAreSuspendedRetiredAndBroughtBack : Prop :=
  ∀ (s : State), Sound s →
    (∀ d, d < 1024 → s.dieState d ≠ dieAbsent → s.aqf.format ≠ none → Yields (.dieTimeout d) s (fun t => t.dieState d = (if s.dieState d = dieOnline then dieSuspended else s.dieState d) ∧
      t.geti NFC_FAIL.TIMEOUT (dieChannel d) = min (s.geti NFC_FAIL.TIMEOUT (dieChannel d) + 2) (2 ^ 8 - 1) ∧
      (s.dieState d = dieOnline → t.get AQF_EVENT.DIE_SUSPEND = 1))) ∧
    (∀ w, Served s .AQF_DIE_CMD →
      let d := AQF_DIE_CMD.DIE.get w
      let failed := fun (t : State) => t.get AQF_DIE_RESULT.FAIL = 1 ∧ t.get AQF_DIE_RESULT.STATE = s.dieState d ∧ ∀ e, e < 1024 → t.dieState e = s.dieState e
      (s.ison AQF_DIE_RESULT.BUSY = true →
        Yields (.dieSuspend w) s (fun t => t.aqf = s.aqf ∧ t.word .AQF_DIE_RESULT 0 = s.word .AQF_DIE_RESULT 0) ∧
        Yields (.dieBringBack w) s (fun t => t.aqf = s.aqf ∧ t.word .AQF_DIE_RESULT 0 = s.word .AQF_DIE_RESULT 0) ∧
        Yields (.dieRetire w) s (fun t => t.aqf = s.aqf ∧ t.word .AQF_DIE_RESULT 0 = s.word .AQF_DIE_RESULT 0)) ∧
      (s.ison AQF_DIE_RESULT.BUSY = false →
        (s.dieState d = dieOnline → Yields (.dieSuspend w) s (fun t => t.dieState d = dieSuspended ∧ t.get AQF_EVENT.DIE_SUSPEND = 1 ∧
          t.get AQF_DIE_RESULT.FAIL = 0 ∧ t.get AQF_DIE_RESULT.STATE = dieSuspended)) ∧
        (s.dieState d ≠ dieOnline → Yields (.dieSuspend w) s failed) ∧
        (s.dieState d = dieSuspended → Yields (.dieBringBack w) s (fun t => t.get AQF_DIE_RESULT.BUSY = 1 ∧ t.get AQF_DIE_RESULT.FAIL = 0 ∧
          (d, true) ∈ t.aqf.bringing ∧ t.dieState d = dieSuspended)) ∧
        (s.dieState d ≠ dieSuspended → Yields (.dieBringBack w) s failed) ∧
        ((s.dieState d = dieOnline ∨ s.dieState d = dieSuspended) → Yields (.dieRetire w) s (fun t => t.dieState d = dieRetired ∧
          t.get AQF_EVENT.DIE_RETIRE = 1 ∧ t.get AQF_DIE_RESULT.FAIL = 0 ∧ t.get AQF_DIE_RESULT.STATE = dieRetired)) ∧
        (s.dieState d ≠ dieOnline → s.dieState d ≠ dieSuspended → Yields (.dieRetire w) s failed))) ∧
    (∀ d r cmd, d < 1024 → s.aqf.bringing.find? (fun b => b.1 == d) = some (d, cmd) →
      let ends := (List.range 4).all (fun bin => s.scanOver d bin r.windows) = true
      (r.answered = true → s.sameDie d r.report = true → s.dieState d = dieSuspended →
        (ends → Yields (.bringBackDone d r) s (fun t => t.dieState d = dieOnline ∧ t.get AQF_EVENT.DIE_BACK = 1 ∧ (∀ b, (d, b) ∉ t.aqf.bringing) ∧
          (cmd = true → t.get AQF_DIE_RESULT.BUSY = 0 ∧ t.get AQF_DIE_RESULT.FAIL = 0 ∧ t.get AQF_DIE_RESULT.STATE = dieOnline))) ∧
        (¬ ends → Yields (.bringBackDone d r) s (fun t => t = s))) ∧
      ((r.answered = false ∨ s.sameDie d r.report = false ∨ s.dieState d ≠ dieSuspended) →
        Yields (.bringBackDone d r) s (fun t => t.dieState d = s.dieState d ∧ t.get AQF_DIE_RESULT.FAIL = 1 ∧ (∀ b, (d, b) ∉ t.aqf.bringing) ∧
          (cmd = true → t.get AQF_DIE_RESULT.BUSY = 0 ∧ t.get AQF_DIE_RESULT.STATE = s.dieState d)))) ∧
    (∀ d,
      let may := s.background = true ∧ s.ison AQF_CTRL.AUTO_BACK = true ∧ s.dieState d = dieSuspended ∧ d ∉ s.aqf.tried ∧
        (∀ c ∈ s.aqf.training, d ∉ c.2) ∧ ∀ b ∈ s.aqf.bringing, b.1 ≠ d
      (may → Yields (.autoBack d) s (fun t => (d, false) ∈ t.aqf.bringing ∧ d ∈ t.aqf.tried ∧ t.dieState d = dieSuspended)) ∧
      (¬ may → Yields (.autoBack d) s (fun t => t = s)))

/-- The fall of PWR_FAIL_N sets PF, and leaves the map (R170). Once the drain has programmed what it can the array is safe, WP_N low; where power
remains PF and PF_SAFE fall, WP_N rises, and a read that has none of its data ends with NOT_READY (R170, R171). A mount shows READY with the map
that the flash holds (R173, R174). AQF_DFL_ACK takes the written value, at most HEAD (R177). LIFE_EVAL raises the life used to the
greatest of the three terms of R183, and a spare term of 100 makes the array read-only and ends its writes (R183, R184). -/
def Obligations.TheArraySurvivesPowerLossAndAges : Prop :=
  ∀ (s : State), Sound s →
    (s.ison AQF_STATUS.PF = false → s.power.porHeld = false → Yields .pwrFailNFall s (fun t => t.get AQF_STATUS.PF = 1 ∧ t.aqf.map = s.aqf.map ∧
      t.aqf.staging = s.aqf.staging ∧ (t.svc.log.getLast?).map (fun e => e.getD 8 0#8) = some (17#8))) ∧
    ((s.ison AQF_STATUS.PF = true ∨ s.power.porHeld = true) → Yields .pwrFailNFall s (fun t => t = s)) ∧
    (∀ remains, s.ison AQF_STATUS.PF = false → Yields (.pfSafe remains) s (fun t => t = s)) ∧
    (s.ison AQF_STATUS.PF = true →
      let recovered := fun (t : State) => t.get AQF_STATUS.PF = 0 ∧ t.get AQF_STATUS.PF_SAFE = 0 ∧ t.get AQF_EVENT.PF_RECOVER = 1 ∧ Out.pin "WP_N" true ∈ t.out ∧
        ∀ x ∈ s.host.tasks, x.opcode = 1 → x.done = none → x.landed = [] → { x with started := true, done := some (0x0010, x.progress) } ∈ t.host.tasks
      (s.ison AQF_STATUS.PF_SAFE = false → s.aqf.allDrained = false → ∀ remains, Yields (.pfSafe remains) s (fun t => t = s)) ∧
      (s.ison AQF_STATUS.PF_SAFE = false → s.aqf.allDrained = true →
        Yields (.pfSafe false) s (fun t => t.get AQF_STATUS.PF_SAFE = 1 ∧ t.get AQF_EVENT.PF_DONE = 1 ∧ Out.pin "WP_N" false ∈ t.out) ∧
        Yields (.pfSafe true) s recovered) ∧
      (s.ison AQF_STATUS.PF_SAFE = true → Yields (.pfSafe false) s (fun t => t = s) ∧ Yields (.pfSafe true) s recovered)) ∧
    (∀ ms, s.ison AQF_STATUS.MOUNTING = true → s.power.onfi = true → Yields (.mountComplete ms) s (fun t => t.get AQF_STATUS.READY = 1 ∧
      t.get AQF_STATUS.MOUNTING = 0 ∧ t.get AQF_EVENT.MOUNT_DONE = 1 ∧ t.get AQF_MOUNT_MS.MS = ms % 2 ^ 32 ∧
      (s.aqf.drainLost = [] → t.aqf.map = s.aqf.mount.map ∧ t.aqf.seq = s.aqf.mount.seq))) ∧
    (∀ ms, (s.ison AQF_STATUS.MOUNTING = false ∨ s.power.onfi = false) → Yields (.mountComplete ms) s (fun t => t = s)) ∧
    (∀ w, Served s .AQF_DFL_ACK →
      let head := s.get AQF_DFL_HEAD.HEAD
      let ack := s.get AQF_DFL_ACK.ACK
      Yields (.dflAckWrite w) s (fun t => t.aqf.dflAck = t.get AQF_DFL_ACK.ACK ∧ t.get AQF_DFL_ACK.ACK =
        (if (head + 2 ^ 32 - ack) % 2 ^ 32 < (w.toNat + 2 ^ 32 - ack) % 2 ^ 32 then head else w.toNat))) ∧
    (∀ f g, s.ison AQF_STATUS.READY = true → s.ison HIF_STATUS.KEEPER_UP = true → s.aqf.format = some f → s.aqf.geometry = some g →
      let dies := allDies.filter (fun d => s.dieState d == 0 || s.dieState d == 1)
      let mine := s.aqf.blocks.filter (fun e => dies.contains (e.1 / 8192))
      let term := lifeTerms f.slcDiv f.peNative f.spareBlks f.dieBudget (mine.map (fun e => e.2.eraseN)).sum (mine.map (fun e => e.2.eraseS)).sum
        dies.length g.blocks ((allDies.map s.aqf.grown).foldl max 0) (allDies.filter (fun d => s.dieState d == dieRetired)).length
      let life := max s.aqf.life (min 100 (max term.1 (max term.2.1 term.2.2)))
      Yields .lifeEval s (fun t => t.aqf.life = life ∧ t.get AQF_LIFE.LIFE = life % 2 ^ 8 ∧ t.get AQF_LIFE.SPARE = min 255 term.2.1 ∧
        t.aqf.readOnly = (s.aqf.readOnly || decide (100 ≤ term.2.1)) ∧ (s.aqf.life / 10 < life / 10 → t.get AQF_EVENT.LIFE_STEP = 1) ∧
        (s.aqf.readOnly = false → 100 ≤ term.2.1 → ∀ x ∈ s.host.tasks, (x.opcode = 2 ∨ x.opcode = 3) → x.done = none →
          { x with started := true, done := some (0x0030, if x.opcode = 2 ∧ x.atomic = false then x.progress else 0) } ∈ t.host.tasks)))

/-- A unit of a READ_EXTENT lands in a Basin buffer with the bytes it reads as, and is sent to the host's buffer; the task ends when all
is sent, or with 0x0030 at a LOST unit (R149, R157, R197, R210). A WRITE_EXTENT ends once all its units are staged, with FUA once all are programmed (R154). A
DEALLOCATE makes the units it covers wholly read as zeros and leaves untouched units as they were (R149). FLUSH ends once every unit acknowledged
before it is programmed (R155). FORMAT leaves every unit UNMAPPED and shows the capacity, or is refused with the status R202 gives (R158, R202).
CRYPT_ERASE leaves every unit UNMAPPED and counts KEY_GEN (R185); that it takes two commands is the model's choice (assumption 115). LOG_READ delivers the entries it names (R176). -/
def Obligations.ExtentTasksReadWriteAndFormat : Prop :=
  ∀ (s : State), Sound s →
    (∀ k x, Ready s k 1 x →
      let first := x.target + x.fetched / sectorBytes
      let n := min (x.count - x.fetched / sectorBytes) (4 - first % 4)
      (s.ison AQF_STATUS.PF = false → s.ison AQF_STATUS.READY = true → x.short = false → x.fetched / sectorBytes < x.count →
        (∀ b u buf, s.aqf.sectors first n = some b → s.takeBuf hostRead unitPool 7 = (u, some buf) →
          (∀ l, s.aqf.onPage (first / 4) = some l → s.servesHost l.die = true) →
          Yields (.readExtent k (.land 1)) s (fun t => ∃ y ∈ t.host.tasks, y.id = k ∧ y.landed = x.landed ++ [(b, buf)] ∧ y.progress = x.progress ∧ y.done = none)) ∧
        (s.aqf.sectors first n = none → x.landed = [] → x.progress ≠ sectorBytes * x.count →
          Yields (.readExtent k (.land 1)) s (fun t => Ended t k 0x0030 x.progress))) ∧
      (∀ b buf rest, x.landed = (b, buf) :: rest →
        let sent := x.progress + b.length
        (b ≠ [] → x.sgl = false → Yields (.readExtent k (.send 1)) s (fun t => Out.hostWrite (x.addr + x.progress) b s.relaxed ∈ t.out)) ∧
        (rest ≠ [] → Yields (.readExtent k (.send 1)) s (fun t => ∃ y ∈ t.host.tasks, y.id = k ∧ y.landed = rest ∧ y.progress = sent ∧ y.done = none)) ∧
        (rest = [] → sent = sectorBytes * x.count → Yields (.readExtent k (.send 1)) s (fun t => Ended t k 0 sent)))) ∧
    (∀ k x, Ready s k 2 x → x.progress = x.count →
      ((x.fua = false ∨ s.durable k = true) → Yields (.writeExtent k) s (fun t => Ended t k 0 x.count ∧ ∀ u, t.aqf.unitData u = s.aqf.unitData u)) ∧
      (x.fua = true → s.durable k = false → Yields (.writeExtent k) s (fun t => ∃ y ∈ t.host.tasks, y.id = k ∧ y.done = none))) ∧
    (∀ k x, Ready s k 3 x →
      (x.progress = 0 → s.ison AQF_STATUS.PF = false → s.windowRoom (partUnits x.target x.count).length = true →
        Yields (.deallocate k) s (fun t => (∀ u, wholeUnit x.target x.count u = true → t.aqf.unitData u = some (zeros unitBytes)) ∧
          (∀ u, wholeUnit x.target x.count u = false → u ∉ partUnits x.target x.count → t.aqf.unitData u = s.aqf.unitData u) ∧
          (x.fua = false → Ended t k 0 0))) ∧
      (x.progress ≠ 0 → s.durable k = true → Yields (.deallocate k) s (fun t => Ended t k 0 0))) ∧
    (∀ k x, Ready s k 4 x →
      let all := ∀ u ∈ s.aqf.staging, s.aqf.safe u = true ∨ u.acked = none ∨ ∃ n, u.acked = some n ∧ x.id < n
      (all → Yields (.flush k) s (fun t => Ended t k 0 0)) ∧ (¬ all → Yields (.flush k) s (fun t => ∃ y ∈ t.host.tasks, y.id = k ∧ y.done = none))) ∧
    (∀ k x b g, Ready s k 0x10 x → b.length = x.count → s.aqf.geometry = some g →
      let idle := (∀ y ∈ s.host.tasks, y.id = x.id) ∧ ∀ i, i < 4 → s.slotState i ≠ 1 ∧ s.slotState i ≠ 2
      (formatBad g b = true → Yields (.format k ⟨b, none⟩) s (fun t => Ended t k 0x0020 0 ∧ t.aqf = s.aqf)) ∧
      (formatBad g b = false → ¬ idle → Yields (.format k ⟨b, none⟩) s (fun t => Ended t k 0x0011 0 ∧ t.aqf = s.aqf)) ∧
      (formatBad g b = false → idle →
        let f := formatOf (allDies.filter (fun d => s.dieState d != dieAbsent)).length g b
        Yields (.format k ⟨b, none⟩) s (fun t => Ended t k 0 (4 * f.units) ∧ t.aqf.format = some f ∧ (∀ u, t.aqf.unitData u = some (zeros unitBytes)) ∧
          t.pair .AQF_CAP_LO .AQF_CAP_HI 0 = 4 * f.units % 2 ^ 64))) ∧
    (∀ k x, Ready s k 0x11 x →
      (x.started = false → Yields (.cryptErase k) s (fun t => t.aqf = s.aqf ∧ ∃ y ∈ t.host.tasks, y.id = k ∧ y.started = true ∧ y.done = none)) ∧
      (x.started = true → Yields (.cryptErase k) s (fun t => Ended t k 0 ((s.aqf.keyGen + 1) % 65536) ∧ (∀ u, t.aqf.unitData u = some (zeros unitBytes)) ∧
        t.get AQF_CRYPT.KEY_GEN = (s.aqf.keyGen + 1) % 65536))) ∧
    (∀ k x, Ready s k 0x12 x →
      let es := s.aqf.dflLog.filter (fun e => decide (x.target ≤ e.index) && decide (e.index < x.target + x.count))
      Yields (.logRead k) s (fun t => Ended t k 0 es.length ∧
        (es ≠ [] → x.sgl = false → Out.hostWrite x.addr (es.flatMap Deferred.bytes) s.relaxed ∈ t.out)))

/-- The firmware tasks, the ledger tasks, TELEMETRY and DEBUG_UNLOCK end with the status that R413 to R417, R425 and R426 give, and have their
effect where they end with OK: a chunk enters the slot that is not COMMITTED, which is then PARTIAL; FW_ACTIVATE closes intake and begins
the drain (R215); FW_COMMIT makes the running slot COMMITTED and the other FALLBACK; FW_REVERT and the end of a trial go back; the drain's
expiry ends the tasks that have not begun (R215). -/
def Obligations.FirmwareAndServiceTasksFollowTheirRules : Prop :=
  ∀ (s : State), Sound s →
    (∀ k x b, Ready s k 0x20 x → b.length = x.count →
      (s.inTrial = true → Yields (.fwDownload k ⟨b, none⟩) s (fun t => Ended t k 0x0011 0 ∧ t.svc = s.svc)) ∧
      (s.inTrial = false → Yields (.fwDownload k ⟨b, none⟩) s (fun t => Ended t k 0 0 ∧ t.fwState s.otherSlot = 1 ∧
        t.svc.slots = modAt (fun l => fwWrite l (x.target / 4096) b) s.otherSlot s.svc.slots))) ∧
    (∀ k x b reason, Ready s k 0x20 x → s.inTrial = false →
      Yields (.fwDownload k ⟨b, some reason⟩) s (fun t => Ended t k 0x0030 0 ∧ t.get HIF_EVENT.DMA_ERR = 1 ∧ t.svc = s.svc)) ∧
    (∀ k x, Ready s k 0x21 x → s.svc.activating = none → (∀ y ∈ s.host.tasks, y.id = k → y = x) →
      (s.busyForActivate = true → Yields (.fwActivate k) s (fun t => Ended t k 0x0011 0 ∧ t.svc = s.svc)) ∧
      (s.busyForActivate = false → s.fwState s.otherSlot ≠ 1 → Yields (.fwActivate k) s (fun t => Ended t k 0x0020 0 ∧ t.svc = s.svc)) ∧
      (s.busyForActivate = false → s.fwState s.otherSlot = 1 → s.fwErr s.otherSlot ≠ 0 →
        Yields (.fwActivate k) s (fun t => Ended t k 0x0020 0 ∧ t.fwState s.otherSlot = 5 ∧ t.get SVC_FW_STATUS.ERR = s.fwErr s.otherSlot)) ∧
      (s.busyForActivate = false → s.fwState s.otherSlot = 1 → s.fwErr s.otherSlot = 0 →
        Yields (.fwActivate k) s (fun t => t.fwState s.otherSlot = 2 ∧ t.get TASK_STATUS.ACTIVATION = 1 ∧ t.get TASK_STATUS.BUSY = 1 ∧
          t.svc.activating = some (k, max 1 (s.get SVC_TRIAL.LIMIT_S)) ∧ ∃ y ∈ t.host.tasks, y.id = k ∧ y.started = true ∧ y.done = none))) ∧
    (∀ k x, Ready s k 0x22 x →
      (s.trialRuns = false → Yields (.fwCommit k) s (fun t => Ended t k 0x0020 0 ∧ t.svc = s.svc)) ∧
      (s.trialRuns = true →
        let slot := s.get SVC_FW_STATUS.RUNNING
        let top := (s.ledgerRange slot).2
        Yields (.fwCommit k) s (fun t => Ended t k 0 0 ∧ t.fwState slot = 3 ∧ t.fwState (1 - slot) = 4 ∧ t.get SVC_STATUS.TRIAL = 0 ∧
          t.get SVC_EVENT.COMMITTED = 1 ∧ ∀ l, s.ledger = some l → l.gen + 1 < 2 ^ 64 → ledgerBytes l.records ≤ 2 ^ 20 → t.ledger =
            some (if l.format < top ∧ s.get SVC_STATUS.SETTINGS_SAFE = 0 then ⟨top, l.gen + 1, l.records⟩ else l)))) ∧
    (
      let back := fun (t : State) => t.get SVC_STATUS.TRIAL = 0 ∧ t.get SVC_EVENT.REVERTED = 1 ∧ t.get SVC_STATUS.KEEPER_RESTARTING = 1 ∧
        t.fwState (if s.fwState 0 = 2 then 0 else 1) = 1 ∧ t.get SVC_FW_STATUS.RUNNING = (if s.fwState 0 = 2 then 1 else 0)
      (∀ k x, Ready s k 0x23 x → (s.trialRuns = false → Yields (.fwRevert k) s (fun t => Ended t k 0x0020 0 ∧ t.svc = s.svc)) ∧
        (s.trialRuns = true → Yields (.fwRevert k) s (fun t => Ended t k 0 0 ∧ back t))) ∧
      (s.get SVC_STATUS.TRIAL = 1 → s.svc.trialEnd ≤ s.power.uptime → s.svc.wardenDown = false →
        Yields .trialExpire s (fun t => t.get SVC_EVENT.TRIAL_EXPIRED = 1 ∧ back t)) ∧
      (s.get SVC_STATUS.TRIAL = 1 → s.svc.trialEnd ≤ s.power.uptime → s.svc.wardenDown = true →
        Yields .trialExpire s (fun t => t.svc.expired = s.svc.expired ++ [(17, s.power.uptime)] ∧ t.get SVC_STATUS.TRIAL = 1)) ∧
      ((s.get SVC_STATUS.TRIAL = 0 ∨ s.power.uptime < s.svc.trialEnd) → Yields .trialExpire s (fun t => t = s))) ∧
    (∀ k x, Ready s k 0x24 x →
      ((s.keyLimit x.target = none ∨ ∃ n, s.keyLimit x.target = some n ∧ n < x.count) →
        ∀ r, Yields (.ledgerWrite k r) s (fun t => Ended t k 0x0020 0 ∧ t.svc = s.svc)) ∧
      (∀ n, s.keyLimit x.target = some n → x.count ≤ n →
        (s.inTrial = true → ∀ r, Yields (.ledgerWrite k r) s (fun t => Ended t k 0x0011 0 ∧ t.svc = s.svc)) ∧
        (s.inTrial = false → ∀ b, b.length = x.count →
          (2 ^ 20 < ledgerBytes (recordsWith s.records x.target b) →
            Yields (.ledgerWrite k ⟨b, none⟩) s (fun t => Ended t k 0x0020 0 ∧ t.svc = s.svc)) ∧
          (ledgerBytes (recordsWith s.records x.target b) ≤ 2 ^ 20 → (∀ l, s.ledger = some l → l.gen + 1 < 2 ^ 64) →
            Yields (.ledgerWrite k ⟨b, none⟩) s (fun t => Ended t k 0 0 ∧ t.records = if s.ledgerOpen then recordsWith s.records x.target b else s.records))))) ∧
    (∀ k x, Ready s k 0x25 x →
      (s.record? x.target = none → Yields (.ledgerRead k) s (fun t => Ended t k 0 0)) ∧
      (∀ r, s.record? x.target = some r → x.count < r.length → Yields (.ledgerRead k) s (fun t => Ended t k 0x0021 0)) ∧
      (∀ r, s.record? x.target = some r → r.length ≤ x.count → Yields (.ledgerRead k) s (fun t => Ended t k 0 r.length ∧
        (r ≠ [] → x.sgl = false → Out.hostWrite x.addr r s.relaxed ∈ t.out)))) ∧
    (∀ k x, Ready s k 0x29 x → Yields (.telemetry k) s (fun t => ∃ n, n ≤ x.count ∧ Ended t k 0 n ∧
      (x.target = 1 → n = min x.count (s.svc.log.flatMap id).length) ∧
      (∀ p, x.target = 2 → s.dbg.snapshot = some p → n = min x.count (snapshotPage p).length))) ∧
    (∀ k x, Ready s k 0x2A x →
      (x.target = 0 → ∀ r, Yields (.debugUnlock k r) s (fun t => Ended t k 0 64 ∧
        ∃ c, t.svc.challenge = some c ∧ c.length = 64 ∧ (x.sgl = false → Out.hostWrite x.addr c s.relaxed ∈ t.out))) ∧
      (x.target = 1 → 3 ≤ s.svc.failures → ∀ r, Yields (.debugUnlock k r) s (fun t => Ended t k 0x0011 0 ∧ t.svc = s.svc)) ∧
      (∀ b, x.target = 1 → s.svc.failures < 3 → b.length = x.count →
        let ok := ∃ c, s.svc.challenge = some c ∧ s.unlockOk c b = true
        (ok → Yields (.debugUnlock k ⟨b, none⟩) s (fun t => Ended t k 0 0 ∧ t.get SVC_STATUS.DEBUG_UNLOCKED = 1 ∧ t.svc.challenge = none)) ∧
        (¬ ok → Yields (.debugUnlock k ⟨b, none⟩) s (fun t => Ended t k 0x0020 0 ∧ t.svc.failures = s.svc.failures + 1 ∧
          t.svc.challenge = none ∧ t.get SVC_STATUS.DEBUG_UNLOCKED = s.get SVC_STATUS.DEBUG_UNLOCKED))) ∧
      (2 ≤ x.target → ∀ r, Yields (.debugUnlock k r) s (fun t => Ended t k 0 0 ∧ t.get SVC_STATUS.DEBUG_UNLOCKED = 0))) ∧
    (∀ a limit, s.svc.activating = some (a, limit) → s.host.drainExpired = false → Yields .drainExpired s (fun t =>
      t.get HIF_EVENT.DRAIN_EXPIRED = 1 ∧ t.host.drainExpired = true ∧
      ∀ x ∈ s.host.tasks, x.id ≠ a → x.done = none → (x.started = false ∨ keeperTask x.opcode = true) →
        { x with done := some (0x0050, 0) } ∈ t.host.tasks)) ∧
    ((s.svc.activating = none ∨ s.host.drainExpired = true) → Yields .drainExpired s (fun t => t = s))

/-- RoCEv2 recovery (R351, R361, R366): an ACK takes the packets up to its PSN out of what is outstanding, and a record frame among them ends
its delivery; a sequence NAK, an ACK timeout and the retry after an RNR NAK send again, in order, what the link still owes, and count it;
the seventh timeout in succession and a remote error make the member unreachable; an RNR NAK parks the member; a CNP is counted and stops
refill and eligibility for CNP_HOLD_US. Stillwater holds the timers (R430). -/
def Obligations.EthernetFlowsRecover : Prop :=
  ∀ (s : State), Sound s → WeirSound s → ∀ f, s.spoutOf f < 24 →
    let k := s.spoutOf f
    let out := (s.flow f).unacked
    let again := fun (l : List SentFrame) (t : State) => t.geti SPT_RETRY.COUNT k = min (s.geti SPT_RETRY.COUNT k + l.length) (2 ^ 32 - 1) ∧
      ∀ u ∈ l, u.out ∈ t.out
    let gone := fun (t : State) => (t.flow f).unreachable = true ∧ (t.flow f).queue = [] ∧ (t.flow f).unacked = [] ∧
      t.weir.spouts = s.weir.spouts
    (∀ psn, ((∀ u ∈ out, seqLe (2 ^ 24) u.seq psn = false) → Yields (.roceAck f psn) s (fun t => t = s)) ∧
      ((∃ u ∈ out, seqLe (2 ^ 24) u.seq psn = true) → Yields (.roceAck f psn) s (fun t =>
        (t.flow f).unacked = out.filter (fun u => !seqLe (2 ^ 24) u.seq psn) ∧ (t.flow f).timeouts = 0 ∧ (t.flow f).queue = (s.flow f).queue ∧
        (∀ g, g ≠ f → t.flow g = s.flow g) ∧
        ∀ u ∈ out, seqLe (2 ^ 24) u.seq psn = true → ∀ b, s.batch? u.batch = some b → u.index + 1 = b.frames →
          ∀ b', t.batch? u.batch = some b' → ∀ o ∈ b'.owed, o.flow = u.flow → o.state ≠ .owed))) ∧
    (∀ psn, (s.frozen = true → Yields (.nakSequence f psn) s (fun t => t = s)) ∧
      (s.frozen = false → Yields (.nakSequence f psn) s (fun t => again (out.filter (fun u => seqLe (2 ^ 24) psn u.seq)) t ∧ t.weir = s.weir))) ∧
    ((s.frozen = true ∨ out = []) → Yields (.ackTimeout f) s (fun t => t = s)) ∧
    (s.frozen = false → out ≠ [] → (s.flow f).timeouts ≠ 6 →
      Yields (.ackTimeout f) s (fun t => t.flow f = { s.flow f with timeouts := (s.flow f).timeouts + 1 } ∧ again out t)) ∧
    (s.frozen = false → out ≠ [] → (s.flow f).timeouts = 6 → Yields (.ackTimeout f) s gone) ∧
    (out = [] → Yields (.rnrNak f) s (fun t => t = s)) ∧
    (out ≠ [] → Yields (.rnrNak f) s (fun t => t.flow f = { s.flow f with parked := true })) ∧
    ((s.frozen = true ∨ (s.flow f).parked = false) → Yields (.rnrRetry f) s (fun t => t = s)) ∧
    (s.frozen = false → (s.flow f).parked = true → Yields (.rnrRetry f) s (fun t => t.flow f = { s.flow f with parked := false } ∧
      again (out.dropWhile (fun u => !s.isRecord u)) t)) ∧
    (out = [] → Yields (.nakRemoteError f) s (fun t => t = s)) ∧
    (out ≠ [] → Yields (.nakRemoteError f) s (fun t => t.geti SPT_EVENT.REMOTE_ERR k = 1 ∧ gone t)) ∧
    (s.linked k = true → s.runnel k = false → isMember (s.flowEntry f) = true → Yields (.cnp f) s (fun t =>
      t.geti SPT_CNP.COUNT k = min (s.geti SPT_CNP.COUNT k + 1) (2 ^ 32 - 1) ∧
      t.flow f = { s.flow f with cnp := decide (s.get WEIR_TIMERS.CNP_HOLD_US ≠ 0) })) ∧
    ((s.linked k = false ∨ s.runnel k = true ∨ isMember (s.flowEntry f) = false) → Yields (.cnp f) s (fun t => t = s)) ∧
    (s.frozen = true → Yields (.cnpHoldEnd f) s (fun t => t = s)) ∧
    (s.frozen = false → Yields (.cnpHoldEnd f) s (fun t => t.flow f = { s.flow f with cnp := false }))

/-- Runnel's retry, credits and control frames (R352 to R355, R363, R374): an ACK takes the frames up to its LSEQ out of the retry buffer, a NAK
and the retry timeout send again, as they left, the frames still in it, and count them; a CREDIT sets what its endpoint has granted since link
up; a control tick counts the codewords of the FEC, and an ACK frame leaves; a LANE_MAP sets the lanes of the link and its epoch, an empty
one takes it down. A frame that is not intact is discarded and counted. On a Spout without a link, or in Ethernet mode, none does
anything. What LSEQ the ACK holds is a free value (assumption 3). -/
def Obligations.RunnelLinksAcknowledgeRetryAndGrant : Prop :=
  ∀ (s : State), Sound s → WeirSound s → ∀ k, k < 24 →
    let held := (s.spout k).retry
    let again := fun (l : List SentFrame) (t : State) => t.weir = s.weir ∧
      t.geti SPT_RETRY.COUNT k = min (s.geti SPT_RETRY.COUNT k + l.length) (2 ^ 32 - 1) ∧
      ∀ u ∈ l, u.out ∈ t.out
    let up := s.linked k = true ∧ s.runnel k = true
    (∀ lseq, ((∀ u ∈ held, seqLe (2 ^ 32) u.seq lseq = false) → Yields (.runnelAck ⟨k, true⟩ lseq) s (fun t => t = s)) ∧
      ((∃ u ∈ held, seqLe (2 ^ 32) u.seq lseq = true) → Yields (.runnelAck ⟨k, true⟩ lseq) s (fun t =>
        (t.spout k).retry = held.filter (fun u => !seqLe (2 ^ 32) u.seq lseq) ∧ (∀ j, j ≠ k → t.spout j = s.spout j) ∧
        ∀ u ∈ held, seqLe (2 ^ 32) u.seq lseq = true → ∀ b, s.batch? u.batch = some b → u.index + 1 = b.frames →
          ∀ b', t.batch? u.batch = some b' → ∀ o ∈ b'.owed, o.flow = u.flow → o.state ≠ .owed))) ∧
    ((s.frozen = true ∨ s.linked k = false) → (∀ lseq, Yields (.runnelNak ⟨k, true⟩ lseq) s (fun t => t = s)) ∧ Yields (.retryTimeout k) s (fun t => t = s)) ∧
    (s.frozen = false → s.linked k = true → Yields (.retryTimeout k) s (again held) ∧
      ∀ lseq, Yields (.runnelNak ⟨k, true⟩ lseq) s (again (held.filter (fun u => seqLe (2 ^ 32) lseq u.seq)))) ∧
    (∀ ep total, (up → Yields (.credit ⟨k, true⟩ ep total) s (fun t => (t.spout k).creditOf ep = (total, ((s.spout k).creditOf ep).2) ∧
        ∀ e, e ≠ ep → (t.spout k).creditOf e = (s.spout k).creditOf e)) ∧
      (¬ up → Yields (.credit ⟨k, true⟩ ep total) s (fun t => t = s))) ∧
    (∀ corrected uncorrectable,
      (s.linked k = true → Yields (.controlFrameTick ⟨k, corrected, uncorrectable⟩) s (fun t => t.weir = s.weir ∧
        t.geti SPT_FEC_CORR.COUNT k = min (s.geti SPT_FEC_CORR.COUNT k + corrected) (2 ^ 32 - 1) ∧
        t.geti SPT_FEC_UNCORR.COUNT k = min (s.geti SPT_FEC_UNCORR.COUNT k + uncorrectable) (2 ^ 32 - 1) ∧
        (s.runnel k = true → ∃ n, n < 2 ^ 32 ∧ Out.control k "ACK" (controlFrame 0x10 (leBytes 4 n)) ∈ t.out))) ∧
      (s.linked k = false → Yields (.controlFrameTick ⟨k, corrected, uncorrectable⟩) s (fun t => t = s))) ∧
    (∀ a b, ∀ c ∈ [Instr.runnelAck ⟨k, false⟩ a, .runnelNak ⟨k, false⟩ a, .credit ⟨k, false⟩ a b, .laneMap ⟨k, false⟩ a b],
      (up → Yields c s (fun t => t.weir = s.weir ∧ t.geti SPT_DISCARD.COUNT k = min (s.geti SPT_DISCARD.COUNT k + 1) (2 ^ 32 - 1))) ∧
      (¬ up → Yields c s (fun t => t = s))) ∧
    (∀ lanes epoch,
      let old := s.geti SPT_STATUS.LANES_UP k
      (up → Yields (.laneMap ⟨k, true⟩ lanes epoch) s (fun t => t.geti SPT_STATUS.LANES_UP k = lanes % 16 ∧ (t.spout k).epoch = epoch % 256 ∧
        (lanes % 16 = 0 → t.geti SPT_STATUS.STATE k = 0 ∧ t.geti SPT_EVENT.LINK_DOWN k = 1) ∧
        (lanes % 16 ≠ 0 → t.geti SPT_STATUS.STATE k = s.geti SPT_STATUS.STATE k ∧
          (lanes % 16 &&& (15 - old) ≠ 0 → t.geti SPT_EVENT.LANE_BACK k = 1) ∧
          (old &&& (15 - lanes % 16) ≠ 0 → t.geti SPT_EVENT.LANE_DROP k = 1)))) ∧
      (¬ up → Yields (.laneMap ⟨k, true⟩ lanes epoch) s (fun t => t = s)))

/-- Lanes, link loss and return (R348, R363 to R365, R374, R465): a faulty lane of a Runnel link with others left is dropped, and the partner
is told; otherwise the link goes down, and each of its flows goes to its other Spout where that can take it, with what it still owes,
else its member is unreachable. A lane that trained comes back. A trained Spout comes up HELD while a flow that belongs to it runs on its
alternate, and is UP once the last has come back. Training starts in Spout order, and anew by RETRAIN. Keeper answers an ARP request for the address of
a flow. -/
def Obligations.SpoutsLoseAndRegainTheirLinks : Prop :=
  ∀ (s : State), Sound s → WeirSound s → ∀ k, k < 24 →
    let lanes := s.geti SPT_STATUS.LANES_UP k
    let awaited := ∃ f ∈ s.memberFlows, (s.flow f).onAlt = true ∧ feSpout (s.flowEntry f) = k
    let down := fun (t : State) => t.geti SPT_STATUS.STATE k = 0 ∧ t.geti SPT_STATUS.LANES_UP k = 0 ∧ t.geti SPT_EVENT.LINK_DOWN k = 1 ∧
      (t.spout k).retry = [] ∧ (t.spout k).credit = [] ∧
      ∀ f ∈ s.memberFlows, s.spoutOf f = k → (s.flow f).unreachable = false →
        let other := if (s.flow f).onAlt then feSpout (s.flowEntry f) else feAlt (s.flowEntry f)
        let takes := other ≠ k ∧ (s.spoutUp other = true ∨ ((s.flow f).onAlt = true ∧ s.linked other = true))
        (takes → (t.flow f).onAlt = !(s.flow f).onAlt ∧ (t.flow f).queue = s.requeued f k ∧ (t.flow f).unacked = []) ∧
        (¬ takes → (t.flow f).unreachable = true ∧ (t.flow f).queue = [] ∧ (t.flow f).unacked = [])
    let told := fun (l : Nat) (t : State) => t.geti SPT_STATUS.LANES_UP k = l ∧
      Out.control k "LANE_MAP" (controlFrame 0x13 (leBytes 1 (l % 16) ++ leBytes 1 (((s.spout k).epoch + 1) % 256))) ∈ t.out
    (∀ lane,
      let hit := s.linked k = true ∧ lane < 4 ∧ bitOf lanes lane = true
      (hit → s.runnel k = true → lanes ≠ 2 ^ lane →
        Yields (.laneFault k lane) s (fun t => told (lanes - 2 ^ lane) t ∧ t.geti SPT_EVENT.LANE_DROP k = 1)) ∧
      (hit → (s.runnel k = false ∨ lanes = 2 ^ lane) → Yields (.laneFault k lane) s down) ∧
      (¬ hit → Yields (.laneFault k lane) s (fun t => t = s))) ∧
    (∀ lane,
      let back := s.linked k = true ∧ s.runnel k = true ∧ lane < 4 ∧ bitOf lanes lane = false ∧ bitOf (s.geti SPT_CTRL.LANE_EN k) lane = true
      (back → Yields (.laneRetrained k lane) s (fun t => told (lanes + 2 ^ lane) t ∧ t.geti SPT_EVENT.LANE_BACK k = 1)) ∧
      (¬ back → Yields (.laneRetrained k lane) s (fun t => t = s))) ∧
    (s.linked k = true → Yields (.spoutDown k) s down) ∧
    (s.linked k = false → Yields (.spoutDown k) s (fun t => t.geti SPT_STATUS.STATE k = 0 ∧ t.geti SPT_STATUS.LANES_UP k = 0 ∧ t.weir = s.weir)) ∧
    (
      let lanesOn := s.geti SPT_CTRL.LANE_EN k
      let trained := s.geti SPT_STATUS.STATE k = 1 ∧ s.geti SPT_CTRL.EN k = 1 ∧ lanesOn ≠ 0 ∧ (s.runnel k = true ∨ lanesOn = 15)
      (trained → Yields (.spoutUp k) s (fun t => t.geti SPT_STATUS.LANES_UP k = lanesOn ∧ (t.spout k).wasUp = true ∧ (t.spout k).retry = [] ∧
        (t.spout k).credit = [] ∧ (t.spout k).lseq = 0 ∧ (awaited → t.geti SPT_STATUS.STATE k = 2) ∧
        (¬ awaited → t.geti SPT_STATUS.STATE k = 3 ∧ t.geti SPT_EVENT.LINK_UP k = 1) ∧
        ((awaited ∨ (s.spout k).wasUp = true) → t.geti SPT_EVENT.HELD k = 1))) ∧
      (¬ trained → Yields (.spoutUp k) s (fun t => t = s))) ∧
    (∀ f, feSpout (s.flowEntry f) = k →
      let alt := feAlt (s.flowEntry f)
      let clear := (s.flow f).onAlt = true ∧ (s.flow f).unacked = [] ∧ (∀ u ∈ (s.spout alt).retry, u.flow ≠ f) ∧
        (∀ d, (s.flow f).queue.head? = some d → d.next = 0) ∧ s.linked k = true
      (clear → Yields (.flowRejoin f) s (fun t => t.flow f = { s.flow f with onAlt := false } ∧
        ((∀ g ∈ s.memberFlows, g ≠ f → (s.flow g).onAlt = true → feSpout (s.flowEntry g) ≠ k) →
          t.geti SPT_STATUS.STATE k = 3))) ∧
      (¬ clear → Yields (.flowRejoin f) s (fun t => t = s))) ∧
    (∀ w, Served s .SPT_CTRL → Yields (.spoutRetrain k w) s (fun t =>
      t.geti SPT_STATUS.STATE k = (if SPT_CTRL.EN.get w = 1 ∧ s.geti SPT_STATUS.STATE k ≠ 0 then 1 else 0) ∧
      (SPT_CTRL.EN.get w = 1 → s.geti SPT_STATUS.STATE k ≠ 0 → t.geti SPT_STATUS.MODE_ACTIVE k = SPT_CTRL.MODE.get w))) ∧
    (
      let turn := s.awake = true ∧ s.waits k = true ∧ ∀ j, j < k → s.waits j = false
      (turn → Yields (.spoutTrainingStart k) s (fun t => t.geti SPT_STATUS.STATE k = 1 ∧ t.geti SPT_STATUS.MODE_ACTIVE k = s.geti SPT_CTRL.MODE k)) ∧
      (¬ turn → Yields (.spoutTrainingStart k) s (fun t => t = s))) ∧
    (∀ address,
      let mine := s.spoutUp k = true ∧ s.runnel k = false ∧ s.get HIF_STATUS.KEEPER_UP = 1 ∧ ∃ e ∈ s.weir.flows,
        feValid e.2 = true ∧ feGroup e.2 = false ∧ feSrcIp e.2 = address ∧ (feSpout e.2 = k ∨ feAlt e.2 = k)
      (mine → Yields (.arpRequest k address) s (fun t => t.out = s.out ++ [Out.arpReply k address] ∧ t.weir = s.weir)) ∧
      (¬ mine → Yields (.arpRequest k address) s (fun t => t = s)))

/-- Inlet frames (R389, R391, R393, R396): a packet joins its stream's frame; one of no stream, and a frame that fails a check, is
dropped with the code of the first check it fails; a frame that passes all is accepted into the plan that takes it, counted
and recorded, or waits until it can be; one that is short is padded, one that is long truncated. A packet that the full buffer loses leaves a gap in
its frame. A frame that waits is judged again once it could be recorded, the oldest first and Inlet 0's before Inlet 1's, and is dropped when
it is stale. A link comes up only on an enabled Inlet, and with it down the port is not asCapable and has no time lock. -/
def Obligations.InletsTakeAndJudgeFrames : Prop :=
  ∀ (s : State), Sound s → ∀ i, i < 2 →
    let dropped := fun (stream reason : Nat) (t : State) => t.geti INL_EVENT.DROP i = 1 ∧ t.geti INL_LAST_DROP.STREAM i = stream ∧
      t.geti INL_LAST_DROP.REASON i = reason
    let other := fun (t : State) => t.geti INL_DROP_OTHER.COUNT i = min (s.geti INL_DROP_OTHER.COUNT i + 1) (2 ^ 32 - 1)
    (∀ p, s.geti INL_STATUS.LINK_UP i = 0 → Yields (.avtpPacket i p) s (fun t => t = s)) ∧
    (∀ p, s.geti INL_STATUS.LINK_UP i = 1 → (p.avtp = false ∨ s.streamOf i p.streamId = none) →
      ((p.avtp = false ∨ p.endOfFrame = true) → Yields (.avtpPacket i p) s (fun t =>
        dropped 0xF (if s.firstChecks i = 0 then 4 else s.firstChecks i) t ∧ other t)) ∧
      (p.avtp = true → p.endOfFrame = false → Yields (.avtpPacket i p) s (fun t => t = s))) ∧
    let taken := fun (u : State) (k : Nat) (t : State) => (t.slot k).accepted = (u.slot k).accepted + 1 ∧
      t.geti INL_ACCEPTED.COUNT i = min (u.geti INL_ACCEPTED.COUNT i + 1) (2 ^ 32 - 1) ∧
      (u.recording = true → ∃ e, t.mirror.ring = u.mirror.ring ++ [e] ∧ recType e.bytes = 4)
    let judged := fun (u : State) (f : LiveFrame) =>
      { f with cut := f.cut || f.assembly.long, pad := f.pad || u.shortFrame i f }
    (∀ p n, s.geti INL_STATUS.LINK_UP i = 1 → p.avtp = true → s.streamOf i p.streamId = some n →
      let x := s.inlet i
      let old := x.assembly.find? (fun a => a.stream == n)
      let a := old.getD (Assembly.ofFirst n ((assocGet id n x.seqs).getD p.seqNum) p)
      let b := if inletBuffer < x.fill + (packetBytes p old.isNone).length then a.lose p
        else a.add p old.isNone (s.geti INL_SMAX.MAX_BYTES (streamEntry i n))
      let y : InletSt := { x with assembly := x.assembly.filter (fun a => a.stream != n), seqs := putPort n b.nextNum x.seqs }
      (p.endOfFrame = false → Yields (.avtpPacket i p) s (fun t => t.inlet i = { y with assembly := y.assembly ++ [b] } ∧
        ∀ r j, j < r.entries → t.word r j = s.word r j)) ∧
      (p.endOfFrame = true →
        let m := s.modInlet i (fun _ => y)
        let u := if i = 1 then acceptWaiting 0 m else m
        let f : LiveFrame := ⟨b, s.stamp p.phase, false, false⟩
        let v := u.verdict i f f.arrival
        (v ≠ 0 → Yields (.avtpPacket i p) s (fun t => dropped n v t ∧ t.inlet i = y)) ∧
        (v = 0 → Yields (.avtpPacket i p) s (fun t => (b.long = true → t.geti INL_EVENT.TRUNCATED i = 1) ∧
          (u.shortFrame i f = true → t.geti INL_EVENT.PADDED i = 1))) ∧
        (∀ k, v = 0 → x.waiting = [] → u.readySlot i = some k → (u.frameRoom i f).2.isSome = true →
          Yields (.avtpPacket i p) s (fun t => taken u k t ∧ (t.inlet i).waiting = [])) ∧
        (v = 0 → (x.waiting ≠ [] ∨ u.readySlot i = none ∨ (u.frameRoom i f).2 = none) →
          Yields (.avtpPacket i p) s (fun t => t.inlet i = { y with waiting := y.waiting ++ [judged u f] })))) ∧
    (
      let u := if i = 1 then acceptWaiting 0 s else s
      ((u.inlet i).waiting = [] → Yields (.frameAccept i) s (fun t => t.inlets = u.inlets)) ∧
      (∀ f rest, (u.inlet i).waiting = f :: rest →
        ((u.frameRoom i f).2 = none → Yields (.frameAccept i) s (fun t => t.inlets = u.inlets)) ∧
        ((u.frameRoom i f).2.isSome = true →
          let v := u.verdict i f u.time
          (v ≠ 0 → Yields (.frameAccept i) s (fun t => dropped (f.assembly.stream % 16) v t ∧ (t.inlet i).waiting = rest)) ∧
          (v = 0 → u.readySlot i = none → Yields (.frameAccept i) s (fun t => (t.inlet i).waiting = judged u f :: rest)) ∧
          (∀ k, v = 0 → u.readySlot i = some k →
            Yields (.frameAccept i) s (fun t => taken u k t ∧ (t.inlet i).waiting = rest))))) ∧
    (
      let old := (s.inlet i).waiting.find? (fun f => s.stale i s.time f.capture)
      (old = none → Yields (.frameStale i) s (fun t => t = s)) ∧
      (∀ f, old = some f → Yields (.frameStale i) s (fun t => (t.inlet i).waiting = (s.inlet i).waiting.erase f ∧
        dropped (f.assembly.stream % 16) 10 t ∧ t.geti INL_STALE.COUNT i = min (s.geti INL_STALE.COUNT i + 1) (2 ^ 32 - 1)))) ∧
    (
      let may := s.geti INL_CTRL.EN i = 1 ∧ s.awake = true
      (may → Yields (.inletLinkUp i) s (fun t => t.geti INL_STATUS.LINK_UP i = 1)) ∧ (¬ may → Yields (.inletLinkUp i) s (fun t => t = s))) ∧
    (s.geti INL_STATUS.LINK_UP i = 0 → Yields (.inletLinkDown i) s (fun t => t = s)) ∧
    (s.geti INL_STATUS.LINK_UP i = 1 → Yields (.inletLinkDown i) s (fun t => t.geti INL_STATUS.LINK_UP i = 0 ∧ t.geti INL_EVENT.LINK_DOWN i = 1 ∧
      t.geti INL_STATUS.AS_CAPABLE i = 0 ∧ t.geti INL_STATUS.TIME_LOCK i = 0 ∧ 24 + i ∉ t.sundial.asCapable))

/-- Keeper's cores and the warden (R403 to R407, R420, R421, R424): a hang is counted; the core leaves its role and waits for another to take
its duties, or, with no core to take them or at the third hang within a second, the whole of Keeper restarts. A takeover moves the role, the stages and
the dispatcher. A core that has reloaded is standby. Intake opens with every core in its role, and after the drain of
FW_ACTIVATE with the new image in trial (R215). What happens while the warden is down waits for it. Reports of barriers must rise, and the late
ones of the last 256 make suspects. An engine that is not ASSIGNED is tested on command. -/
def Obligations.KeeperAndWardenCarryOn : Prop :=
  ∀ (s : State), Sound s →
    let restarting := fun (t : State) => t.get SVC_STATUS.KEEPER_RESTARTING = 1
    (∀ c, (16 ≤ c ∨ s.get SVC_STATUS.KEEPER_RESTARTING = 1) → Yields (.coreHang c) s (fun t => t.svc = s.svc)) ∧
    (∀ c, c < 16 → s.get SVC_STATUS.KEEPER_RESTARTING = 0 →
      (s.svc.wardenDown = true → Yields (.coreHang c) s (fun t => t.svc.expired = s.svc.expired ++ [(c, s.power.uptime)])) ∧
      (s.svc.wardenDown = false →
        let role := s.coreRole c
        let works := (role = 1 ∨ role = 2) ∧ s.isHalted c = false
        let whole := 3 ≤ (recentHangs s.power.uptime s.svc.hangs).length ∨ (role = 1 ∧ s.spareCores = [])
        (¬ works → Yields (.coreHang c) s (fun t => t.svc = s.svc)) ∧
        (works → Yields (.coreHang c) s (fun t => t.get SVC_EVENT.CORE_HANG = 1 ∧
          t.get SVC_HANGS.COUNT = min (s.get SVC_HANGS.COUNT + 1) (2 ^ 32 - 1) ∧ t.coreRole c = 0 ∧
          (whole → restarting t ∧ t.get HIF_STATUS.KEEPER_UP = 0 ∧ ∀ d, d < 16 → t.coreRole d = 0) ∧
          (¬ whole → t.svc.takeovers = s.svc.takeovers ++ [(c, role, s.power.uptime)] ∧ t.svc.reloading = s.svc.reloading ++ [c] ∧
            (∀ d, d < 16 → d ≠ c → t.coreRole d = s.coreRole d) ∧ (s.svc.dispatcher = some c → t.get HIF_STATUS.KEEPER_UP = 0)))))) ∧
    (∀ c, s.svc.takeovers.find? (fun h => h.1 == c) = none → Yields (.coreTakeover c) s (fun t => t = s)) ∧
    (∀ c role tick, s.svc.takeovers.find? (fun h => h.1 == c) = some (c, role, tick) →
      let pick := if role = 1 then (s.coresOf 3)[waitingBelow s.svc.takeovers c tick]? else s.spareCores.head?
      (∀ n, pick = some n → Yields (.coreTakeover c) s (fun t => t.coreRole n = role % 4 ∧ t.svc.takeovers = s.svc.takeovers.filter (fun h => h.1 != c) ∧
        t.svc.stageCore = s.svc.stageCore.map (fun e => if e.2.2 = c then (e.1, e.2.1, n) else e) ∧
        (s.svc.dispatcher = some c → t.svc.dispatcher = some n ∧ t.get HIF_STATUS.KEEPER_UP = 1))) ∧
      (pick = none → role = 1 → Yields (.coreTakeover c) s restarting) ∧
      (pick = none → role ≠ 1 → Yields (.coreTakeover c) s (fun t => t.svc = { s.svc with takeovers := s.svc.takeovers.filter (fun h => h.1 != c) }))) ∧
    (∀ c, c < 16 →
      let ready := c ∈ s.svc.reloading ∧ ∀ h ∈ s.svc.takeovers, h.1 ≠ c
      (ready → Yields (.coreRestartDone c) s (fun t => t.coreRole c = 3 ∧ c ∉ t.svc.reloading)) ∧
      (¬ ready → Yields (.coreRestartDone c) s (fun t => t = s))) ∧
    (∀ w, Served s .SVC_CTRL →
      (s.svc.wardenDown = true → Yields (.keeperRestart w) s (fun t => t.svc.expired = s.svc.expired ++ [(16, s.power.uptime)])) ∧
      (s.svc.wardenDown = false → Yields (.keeperRestart w) s (fun t => restarting t ∧ (s.get SVC_STATUS.KEEPER_RESTARTING = 0 →
        t.get SVC_EVENT.KEEPER_RESTART = 1 ∧ t.get HIF_STATUS.KEEPER_UP = 0 ∧ ∀ d, d < 16 → t.coreRole d = 0)))) ∧
    (
      let open_ := fun (t : State) => t.get HIF_STATUS.KEEPER_UP = 1 ∧ t.get SVC_STATUS.KEEPER_RESTARTING = 0 ∧ t.get TASK_STATUS.KEEPER = 0 ∧
        t.svc.dispatcher = some 0 ∧ ∀ c, c < 16 → t.coreRole c = startRole c
      ((s.svc.wardenDown = true ∨ s.awake = false) → Yields .keeperIntakeOpen s (fun t => t.svc = s.svc)) ∧
      (s.svc.wardenDown = false → s.awake = true →
        (s.svc.activating = none → (s.get SVC_STATUS.KEEPER_RESTARTING = 1 ∨ (s.power.warm = true ∧ s.get TASK_STATUS.KEEPER = 1)) →
          Yields .keeperIntakeOpen s (fun t => open_ t ∧ t.power.warm = false ∧ t.get SVC_FW_STATUS.RUNNING = s.get SVC_FW_STATUS.RUNNING)) ∧
        (s.svc.activating = none → s.get SVC_STATUS.KEEPER_RESTARTING = 0 → (s.power.warm = false ∨ s.get TASK_STATUS.KEEPER = 0) →
          Yields .keeperIntakeOpen s (fun t => t.svc = s.svc)) ∧
        (∀ a limit, s.svc.activating = some (a, limit) →
          (s.get HIF_STATUS.KEEPER_UP = 0 → Yields .keeperIntakeOpen s (fun t => open_ t ∧ t.svc.activating = s.svc.activating)) ∧
          (s.get HIF_STATUS.KEEPER_UP = 1 → s.drained a = false → Yields .keeperIntakeOpen s (fun t => t.svc = s.svc)) ∧
          (s.get HIF_STATUS.KEEPER_UP = 1 → s.drained a = true → Yields .keeperIntakeOpen s (fun t => open_ t ∧ t.svc.activating = none ∧
            t.get SVC_FW_STATUS.RUNNING = s.otherSlot ∧ t.get SVC_STATUS.TRIAL = 1 ∧ t.svc.trialEnd = s.power.uptime + limit * 200000000 ∧
            t.get TASK_STATUS.ACTIVATION = 0 ∧
            ∀ x ∈ s.host.tasks, x.id = a → Ended t a (if s.settingsSafe s.otherSlot then 0x0070 else 0) 0))))) ∧
    (s.svc.wardenDown = true → Yields .wardenHang s (fun t => t = s) ∧ Yields .wardenRestartDone s (fun t => t.svc.wardenDown = false ∧
      t.svc.expired = [] ∧ t.get PWR_STATUS.WARDEN_UP = 1 ∧ ∀ e ∈ s.svc.expired, e.1 = 16 → restarting t)) ∧
    (s.svc.wardenDown = false → Yields .wardenRestartDone s (fun t => t = s) ∧ Yields .wardenHang s (fun t => t.svc.wardenDown = true ∧
      t.get PWR_STATUS.WARDEN_UP = 0 ∧ t.get SVC_EVENT.WARDEN_RESTART = 1 ∧ (t.svc.log.getLast?).map (fun e => e.getD 8 0#8) = some (16#8))) ∧
    (∀ w, Served s .SVC_BARRIER_HI →
      let step := (s.word .SVC_BARRIER_LO 0).toNat + 2 ^ 32 * SVC_BARRIER_HI.STEP_HI.get w
      let early := ∃ p, s.svc.lastReport = some p ∧ step ≤ p
      let all := s.svc.reports ++ [(step, SVC_BARRIER_HI.LAST.get w)]
      let kept := all.drop (all.length - 256)
      let late := suspectsOf (s.get SVC_SUSPECT_CFG.RATIO) kept
      (early → Yields (.barrierReport w) s (fun t => t.get SVC_EVENT.BARRIER_ORDER = 1 ∧ t.svc = s.svc)) ∧
      (¬ early → Yields (.barrierReport w) s (fun t => t.svc.reports = kept ∧ t.svc.lastReport = some step ∧ t.svc.suspects = late ∧
        ((∃ n ∈ late, n ∉ s.svc.suspects ∧ s.serves? n = true) → t.get SVC_EVENT.SELF_LATE = 1) ∧
        ((∃ n ∈ late, n ∉ s.svc.suspects ∧ s.serves? n = false) → t.get SVC_EVENT.SUSPECT = 1)))) ∧
    (∀ w, Served s .SVC_ENG_CMD →
      let type := SVC_ENG_CMD.TYPE.get w
      let n := SVC_ENG_CMD.ENGINE.get w
      let may := s.get SVC_ENG_CMD.BUSY = 0 ∧ ∃ e, commandEngine type n = some e ∧ s.geti e.1 e.2 ≠ 1
      (may → Yields (.engineSelfTest w) s (fun t => t.get SVC_ENG_CMD.BUSY = 1 ∧ t.svc = { s.svc with engTest := some (type, n) })) ∧
      (¬ may → Yields (.engineSelfTest w) s (fun t => t.get SVC_ENG_CMD.BUSY = s.get SVC_ENG_CMD.BUSY ∧ t.svc = s.svc)))

/-- Stillwater (R428, R432, R433): a trigger is seen whatever the state, and ARMED and enabled it freezes, with AUTO_SCAN scanning at
once; the trigger, and the time of the freeze, are shown. ARM moves between IDLE and ARMED, SCAN scans in FROZEN, the image is delivered at the
end of the scan, and RESUME in FROZEN or SCANNED goes back to what ARM says. -/
def Obligations.StillwaterFreezesScansAndResumes : Prop :=
  ∀ (s : State), Sound s →
    let fires := fun (code : Nat) (b t : State) =>
      let stops := b.get DBG_STW_STATUS.STATE = 1 ∧ b.stwEnabled code = true
      bitOf (t.get DBG_STW_SEEN.CODES) code = true ∧
      (stops → t.get DBG_STW_STATUS.STATE = (if b.ison DBG_STW_CTRL.AUTO_SCAN then 3 else 2) ∧ t.get DBG_STW_STATUS.TRIGGER = code ∧
        t.dbg.stopTime = b.time) ∧
      (¬ stops → t.get DBG_STW_STATUS.STATE = b.get DBG_STW_STATUS.STATE ∧ t.get DBG_STW_STATUS.TRIGGER = b.get DBG_STW_STATUS.TRIGGER)
    (∀ w, Served s .DBG_STW_CTRL → DBG_STW_CTRL.SCAN.get w = 0 → DBG_STW_CTRL.RESUME.get w = 0 →
      Yields (.stillwaterStop w) s (fires 1 (s.swWrite .DBG_STW_CTRL 0 (DBG_STW_CTRL.STOP.set w 1)).armStillwater)) ∧
    (s.get SVC_STATUS.DEBUG_UNLOCKED = 0 → Yields .jtagStillwater s (fun t => t = s)) ∧
    (s.get SVC_STATUS.DEBUG_UNLOCKED = 1 → Yields .jtagStillwater s (fires 2 s)) ∧
    (
      let hi := (s.word .DBG_STW_AT_HI 0).toNat
      let x := s.rill (bitsOf hi 27 24)
      let there := (∃ p, x.part = some p ∧ p.step = (s.word .DBG_STW_AT_LO 0).toNat + 2 ^ 32 * bitsOf hi 15 0 ∧ p.untouched = false) ∧
        x.cycle ≤ (s.word .DBG_STW_AT_CYC 0).toNat ∧ s.still = false
      (there → Yields .stillwaterAt s (fires 6 s)) ∧ (¬ there → Yields .stillwaterAt s (fun t => t = s))) ∧
    (∀ w, Served s .DBG_STW_CTRL →
      let state := s.get DBG_STW_STATUS.STATE
      let armed := if state = 0 ∨ state = 1 then DBG_STW_CTRL.ARM.get w else state
      (DBG_STW_CTRL.STOP.get w = 0 → DBG_STW_CTRL.SCAN.get w = 0 → DBG_STW_CTRL.RESUME.get w = 0 →
        Yields (.stillwaterArm w) s (fun t => t.get DBG_STW_STATUS.STATE = armed ∧ t.dbg = s.dbg)) ∧
      (DBG_STW_CTRL.STOP.get w = 0 → DBG_STW_CTRL.RESUME.get w = 0 →
        (state = 2 → Yields (.stillwaterScan w) s (fun t => t.get DBG_STW_STATUS.STATE = 3 ∧
          t.dbg.scan = some (s.get DBG_STW_SEEN.CODES, DBG_STW_CTRL.BANKS.get w == 1, DBG_STW_CTRL.DEST.get w == 1))) ∧
        (state ≠ 2 → Yields (.stillwaterScan w) s (fun t => t.get DBG_STW_STATUS.STATE = armed ∧ t.dbg = s.dbg))) ∧
      (DBG_STW_CTRL.STOP.get w = 0 → DBG_STW_CTRL.SCAN.get w = 0 →
        ((state = 2 ∨ state = 4) → Yields (.resume w) s (fun t => t.get DBG_STW_STATUS.STATE = DBG_STW_CTRL.ARM.get w ∧ t.get DBG_EVENT.RESUMED = 1)) ∧
        (state ≠ 2 → state ≠ 4 → Yields (.resume w) s (fun t => t.get DBG_STW_STATUS.STATE = armed ∧ t.dbg = s.dbg)))) ∧
    (∀ seen banks dest, s.dbg.scan = some (seen, banks, dest) → s.get DBG_STW_STATUS.STATE = 3 →
      let img := (scanImage seen banks s).1
      Yields .scanned s (fun t => t.get DBG_STW_STATUS.STATE = 4 ∧ t.get DBG_EVENT.SCANNED = 1 ∧ t.dbg.scan = none ∧
        (dest = true → Out.stream "STILLWATER" 0 img ∈ t.out ∧ t.dbg.area = img) ∧
        (dest = false → Out.hostWrite (s.pair .DBG_STW_ADDR_LO .DBG_STW_ADDR_HI 0) img s.relaxed ∈ t.out ∧ t.dbg.area = s.dbg.area))) ∧
    ((s.dbg.scan = none ∨ s.get DBG_STW_STATUS.STATE ≠ 3) → Yields .scanned s (fun t => t = s))

/-- Debug (R435, R436, R441, R442): with the device locked no core halts, and a write of DBG_BRK_CTRL is an event; unlocked, a halt
and a breakpoint halt a core that runs, and intake closes where it holds the dispatcher, until it resumes. DBG_SNAP captures every counter. A SYNC
record goes into the trace ring, or is lost and counted where the ring is full. -/
def Obligations.DebugHaltsSnapshotsAndTraces : Prop :=
  ∀ (s : State), Sound s →
    let halts := fun (c : Nat) (t : State) =>
      ((s.coreRole c = 0 ∨ s.isHalted c = true) → t.get DBG_BRK_STATUS.HALTED = s.get DBG_BRK_STATUS.HALTED) ∧
      (s.coreRole c ≠ 0 → s.isHalted c = false → t.isHalted c = true ∧ (∀ d, d < 16 → d ≠ c → t.isHalted d = s.isHalted d) ∧
        (s.svc.dispatcher = some c → t.get HIF_STATUS.KEEPER_UP = 0 ∧ t.get TASK_STATUS.BUSY = 1))
    (∀ w, Served s .DBG_BRK_CTRL →
      let c := DBG_BRK_CTRL.CORE.get w
      (s.get SVC_STATUS.DEBUG_UNLOCKED = 0 →
        Yields (.coreHalt w) s (fun t => t.get DBG_EVENT.BRK_LOCKED = 1 ∧ t.get DBG_BRK_STATUS.HALTED = s.get DBG_BRK_STATUS.HALTED) ∧
        Yields (.coreResume w) s (fun t => t.get DBG_EVENT.BRK_LOCKED = 1 ∧ t.get DBG_BRK_STATUS.HALTED = s.get DBG_BRK_STATUS.HALTED)) ∧
      (s.get SVC_STATUS.DEBUG_UNLOCKED = 1 → Yields (.coreHalt w) s (halts c) ∧ Yields (.coreResume w) s (fun t => t.isHalted c = false ∧
        (∀ d, d < 16 → d ≠ c → t.isHalted d = s.isHalted d) ∧
        (s.isHalted c = true → s.svc.dispatcher = some c → t.get HIF_STATUS.KEEPER_UP = 1 ∧ t.get TASK_STATUS.KEEPER = 0)))) ∧
    (∀ c, (16 ≤ c ∨ s.get SVC_STATUS.DEBUG_UNLOCKED = 0) → Yields (.breakpointHit c) s (fun t => t = s)) ∧
    (∀ c, c < 16 → s.get SVC_STATUS.DEBUG_UNLOCKED = 1 → Yields (.breakpointHit c) s (halts c)) ∧
    (∀ w, Served s .DBG_SNAP → Yields (.snapshot w) s (fun t => t.get DBG_EVENT.SNAP_DONE = 1 ∧
      t.dbg.snapshot = some (s.tick, counterRegs.flatMap s.counterEntries))) ∧
    (
      let runs := s.get DBG_TRACE_CTRL.EN = 1 ∧ s.awake = true
      let next := (s.dbg.tail + 1) % s.traceRing
      (¬ runs → Yields .traceSync s (fun t => t = s)) ∧
      (runs → next = s.traceHead → Yields .traceSync s (fun t => t.get DBG_EVENT.TRACE_OVF = 1 ∧ t.dbg = s.dbg ∧
        t.get DBG_TRACE_LOST.COUNT = min (s.get DBG_TRACE_LOST.COUNT + 1) (2 ^ 32 - 1))) ∧
      (runs → next ≠ s.traceHead → Yields .traceSync s (fun t => t.dbg.tail = next ∧
        let addr := s.pair .DBG_TRACE_BASE_LO .DBG_TRACE_BASE_HI 0 + 32 * s.dbg.tail
        ∃ bs, bs.length = 32 ∧ bs.getD 8 0#8 = 10#8 ∧ ((s.get DBG_TRACE_CTRL.DEST = 1 → Out.stream "TRACE" addr bs ∈ t.out) ∧
          (s.get DBG_TRACE_CTRL.DEST = 0 → Out.hostWrite addr bs s.relaxed ∈ t.out)))))

/-- Loop-backs and production test mode (R445 to R448): GO starts a loop that may run now, with its counters at zero, and is refused otherwise or while one
runs; STOP, and the end of a timed loop, end it with what it has counted, PASS where nothing mismatched and LOCK held throughout. Test mode is entered
only before Keeper starts. -/
def Obligations.LoopBacksAndTestModeRun : Prop :=
  ∀ (s : State), Sound s →
    let ended := fun (units errors : Nat) (locked : Bool) (b t : State) => t.dbg.loop = none ∧ t.get TST_LOOP_STATUS.RUNNING = 0 ∧
      t.get TST_LOOP_STATUS.PASS = (if errors = 0 ∧ locked = true then 1 else 0) ∧
      t.get TST_LOOP_ERRORS.COUNT = min (b.get TST_LOOP_ERRORS.COUNT + errors) (2 ^ 32 - 1) ∧
      t.pair .TST_LOOP_UNITS_LO .TST_LOOP_UNITS_HI 0 = min (b.pair .TST_LOOP_UNITS_LO .TST_LOOP_UNITS_HI 0 + units) (2 ^ 64 - 1)
    (∀ w, Served s .TST_LOOP_CTRL → TST_LOOP_CTRL.STOP.get w = 0 →
      let iface := TST_LOOP_CTRL.IFACE.get w
      let depth := TST_LOOP_CTRL.DEPTH.get w
      let inst := TST_LOOP_CTRL.INSTANCE.get w
      let may := s.dbg.loop = none ∧ s.mayLoop iface depth inst = true
      (may → Yields (.loopStart w) s (fun t => t.get TST_LOOP_STATUS.RUNNING = 1 ∧ t.get TST_LOOP_STATUS.PASS = 0 ∧ t.get TST_LOOP_ERRORS.COUNT = 0 ∧
        t.pair .TST_LOOP_UNITS_LO .TST_LOOP_UNITS_HI 0 = 0 ∧ ∃ l, t.dbg.loop = some l ∧ l.iface = iface ∧ l.depth = depth ∧
        l.timed = decide (TST_LOOP_CTRL.DURATION_MS.get w ≠ 0))) ∧
      (¬ may → Yields (.loopStart w) s (fun t => t.get TST_LOOP_STATUS.REFUSED = 1 ∧ t.dbg = s.dbg))) ∧
    (∀ w units errors locked columns, Served s .TST_LOOP_CTRL → TST_LOOP_CTRL.GO.get w = 0 →
      (s.dbg.loop = none → Yields (.loopStop w units errors locked columns) s (fun t => t.dbg = s.dbg ∧
        t.word .TST_LOOP_STATUS 0 = s.word .TST_LOOP_STATUS 0)) ∧
      (s.dbg.loop ≠ none → Yields (.loopStop w units errors locked columns) s (ended units errors locked s))) ∧
    (∀ units errors locked columns,
      (∀ l, s.dbg.loop = some l → l.timed = true → Yields (.loopEnd units errors locked columns) s (ended units errors locked s)) ∧
      ((∀ l, s.dbg.loop = some l → l.timed = false) → Yields (.loopEnd units errors locked columns) s (fun t => t = s))) ∧
    (
      let may := s.awake = true ∧ s.power.resetPhase = .none ∧ s.power.warm = false ∧ s.svc.dispatcher = none ∧ s.get SVC_STATUS.KEEPER_RESTARTING = 0
      (may → Yields .testModeEnter s (fun t => t.get TST_MODE.EN = 1)) ∧ (¬ may → Yields .testModeEnter s (fun t => t = s)))
end

