-- ==== Sys2Proof/Laws/Bits.lean ====
section
/-! SUPPORT. Laws of the bit fields of a word and of lists changed in one place. -/
namespace Sys2Proof.Machine

theorem maskBits_getLsbD (hi lo i : Nat) :
    (maskBits hi lo).getLsbD i = (decide (i < 32) && decide (lo ≤ i) && decide (i - lo < hi + 1 - lo)) := by
  simp only [maskBits, BitVec.getLsbD_shiftLeft, BitVec.getLsbD_setWidth, BitVec.getLsbD_allOnes]
  by_cases h1 : i < 32 <;> by_cases h2 : lo ≤ i <;> simp [h1, h2, Nat.not_lt.2, Nat.lt_of_not_le]
  omega

/-- A field reads as the low bits of what was put into it. -/
theorem Fld.get_set (f : Fld) (w : Word) (v : Nat) (h : f.hi < 32) : f.get (f.set w v) = v % 2 ^ (f.hi + 1 - f.lo) := by
  unfold Fld.get Fld.set
  rw [show v % 2 ^ (f.hi + 1 - f.lo) = (BitVec.ofNat (f.hi + 1 - f.lo) v).toNat from rfl]
  congr 1
  apply BitVec.eq_of_getLsbD_eq
  intro i hi
  simp only [BitVec.getLsbD_extractLsb', BitVec.getLsbD_or, BitVec.getLsbD_and, BitVec.getLsbD_not, maskBits_getLsbD,
    BitVec.getLsbD_shiftLeft, BitVec.getLsbD_setWidth]
  have a : f.lo + i < 32 := by omega
  have b : f.lo ≤ f.lo + i := by omega
  have c : f.lo + i - f.lo = i := by omega
  have d : i < 32 := by omega
  simp [a, b, c, d, hi]

/-- A field keeps its value when a field beside it is set. -/
theorem Fld.get_set_beside (f g : Fld) (w : Word) (v : Nat) (h : g.hi < f.lo ∨ f.hi < g.lo) : g.get (f.set w v) = g.get w := by
  unfold Fld.get Fld.set
  congr 1
  apply BitVec.eq_of_getLsbD_eq
  intro i hi
  simp only [BitVec.getLsbD_extractLsb', BitVec.getLsbD_or, BitVec.getLsbD_and, BitVec.getLsbD_not, maskBits_getLsbD,
    BitVec.getLsbD_shiftLeft, BitVec.getLsbD_setWidth, BitVec.getLsbD_ofNat]
  by_cases a : g.lo + i < 32
  · by_cases b : f.lo ≤ g.lo + i
    · have c : ¬ g.lo + i - f.lo < f.hi + 1 - f.lo := by omega
      simp [a, b, c, hi]
    · have c : g.lo + i < f.lo := by omega
      simp [a, b, c, hi]
  · simp [a, BitVec.getLsbD_of_ge, Nat.le_of_not_lt a]

theorem Fld.get_lt (f : Fld) (w : Word) : f.get w < 2 ^ (f.hi + 1 - f.lo) := (w.extractLsb' f.lo (f.hi + 1 - f.lo)).isLt

/-- A field as a number: the word divided by its place, cut to its width. -/
theorem Fld.get_eq (f : Fld) (w : Word) : f.get w = w.toNat / 2 ^ f.lo % 2 ^ (f.hi + 1 - f.lo) := by
  rw [Fld.get, BitVec.extractLsb'_toNat, Nat.shiftRight_eq_div_pow]

section Lists
variable {α : Type}

@[simp] theorem modAt_length (f : α → α) : ∀ (i : Nat) (l : List α), (modAt f i l).length = l.length
  | _, [] => by cases ‹Nat› <;> rfl
  | 0, _ :: _ => rfl
  | i + 1, _ :: l => by simp [modAt, modAt_length f i l]

@[simp] theorem putAt_length (i : Nat) (v : α) (l : List α) : (putAt i v l).length = l.length := modAt_length _ i l

theorem modAt_getElem? (f : α → α) : ∀ (i j : Nat) (l : List α), (modAt f i l)[j]? = if i = j then (l[j]?).map f else l[j]?
  | _, _, [] => by cases ‹Nat› <;> simp [modAt]
  | 0, 0, _ :: _ => by simp [modAt]
  | 0, j + 1, _ :: _ => by simp [modAt]
  | i + 1, 0, _ :: _ => by simp [modAt]
  | i + 1, j + 1, _ :: l => by simp [modAt, modAt_getElem? f i j l]

/-- The changed entry. -/
theorem modAt_getD_same (f : α → α) (i : Nat) (l : List α) (d : α) (h : i < l.length) : (modAt f i l).getD i d = f (l.getD i d) := by
  rw [List.getD_eq_getElem?_getD, List.getD_eq_getElem?_getD, modAt_getElem?]; simp [h]

/-- The other entries. -/
theorem modAt_getD_other (f : α → α) (i j : Nat) (l : List α) (d : α) (h : i ≠ j) : (modAt f i l).getD j d = l.getD j d := by
  simp [List.getD_eq_getElem?_getD, modAt_getElem?, h]

theorem putAt_getD_same (i : Nat) (v : α) (l : List α) (d : α) (h : i < l.length) : (putAt i v l).getD i d = v :=
  modAt_getD_same _ i l d h

theorem putAt_getD_other (i j : Nat) (v : α) (l : List α) (d : α) (h : i ≠ j) : (putAt i v l).getD j d = l.getD j d :=
  modAt_getD_other _ i j l d h

end Lists

end Sys2Proof.Machine
end

