-- ==== Sys2Proof/Laws/Store.lean ====
section
/-! SUPPORT. Laws of the sparse stores: what a key reads as after a write, and that every operation keeps the canonical form. -/
namespace Sys2Proof.Machine

variable {κ α : Type} (ord : κ → Nat) (dflt : κ → α)

theorem assocGet_del_same (k : κ) (l : List (κ × α)) {j : κ} (h : ord j = ord k) : assocGet ord j (assocDel ord k l) = none := by
  induction l with
  | nil => rfl
  | cons e l ih =>
    obtain ⟨k', v⟩ := e
    simp only [assocDel]
    split
    · exact ih
    · next hk => simp only [assocGet, h, if_neg hk]; exact ih

theorem assocGet_del_other (k : κ) (l : List (κ × α)) {j : κ} (h : ord j ≠ ord k) :
    assocGet ord j (assocDel ord k l) = assocGet ord j l := by
  induction l with
  | nil => rfl
  | cons e l ih =>
    obtain ⟨k', v⟩ := e
    simp only [assocDel]
    split
    · next hk => rw [ih]; simp only [assocGet]; rw [if_neg (by rw [← hk]; exact h)]
    · simp only [assocGet]; split
      · rfl
      · exact ih

theorem assocGet_ins_same (k : κ) (v : α) (l : List (κ × α)) (h : assocGet ord k l = none) {j : κ} (hj : ord j = ord k) :
    assocGet ord j (assocIns ord k v l) = some v := by
  induction l with
  | nil => simp [assocIns, assocGet, hj]
  | cons e l ih =>
    obtain ⟨k', v'⟩ := e
    simp only [assocGet] at h
    split at h
    · cases h
    · next hk =>
      simp only [assocIns]
      split
      · simp [assocGet, hj]
      · simp only [assocGet, hj, if_neg hk]; exact ih h

theorem assocGet_ins_other (k : κ) (v : α) (l : List (κ × α)) {j : κ} (h : ord j ≠ ord k) :
    assocGet ord j (assocIns ord k v l) = assocGet ord j l := by
  induction l with
  | nil => simp [assocIns, assocGet, h]
  | cons e l ih =>
    obtain ⟨k', v'⟩ := e
    simp only [assocIns]
    split
    · simp [assocGet, h]
    · simp only [assocGet]; split
      · rfl
      · exact ih

/-- An entry that a filter keeps is found as before. -/
theorem assocGet_filter {p : κ × α → Bool} {k : κ} : ∀ {l : List (κ × α)},
    (∀ e ∈ l, ord k = ord e.1 → p e = true) → assocGet ord k (l.filter p) = assocGet ord k l
  | [], _ => rfl
  | (k', v) :: l, h => by
    have ih := assocGet_filter (k := k) (l := l) (fun e he => h e (List.mem_cons_of_mem _ he))
    rw [List.filter_cons]
    by_cases hk : ord k = ord k'
    · rw [if_pos (h (k', v) List.mem_cons_self hk)]
      simp only [assocGet, hk, if_true]
    · split <;> simp only [assocGet, hk, if_false, ih]

/-- Reading back what was written, wherever two keys of one number have one default. -/
theorem assocRead_put_same [DecidableEq α] (k : κ) (v : α) (l : List (κ × α)) :
    assocRead ord dflt k (assocPut ord dflt k v l) = v := by
  unfold assocPut assocRead
  split
  · next h => rw [assocGet_del_same ord k l rfl]; exact h.symm
  · rw [assocGet_ins_same ord k v _ (assocGet_del_same ord k l rfl) rfl]; rfl

theorem assocRead_put_other [DecidableEq α] (k : κ) (v : α) (l : List (κ × α)) {j : κ} (h : ord j ≠ ord k) :
    assocRead ord dflt j (assocPut ord dflt k v l) = assocRead ord dflt j l := by
  unfold assocPut assocRead
  split
  · rw [assocGet_del_other ord k l h]
  · rw [assocGet_ins_other ord k v _ h, assocGet_del_other ord k l h]

theorem mem_assocDel {k : κ} {e : κ × α} : ∀ {l : List (κ × α)}, e ∈ assocDel ord k l → e ∈ l ∧ ord k ≠ ord e.1
  | [], h => by cases h
  | (k', v) :: l, h => by
    simp only [assocDel] at h
    split at h
    · exact ⟨List.mem_cons_of_mem _ (mem_assocDel h).1, (mem_assocDel h).2⟩
    · next hk =>
      cases h with
      | head => exact ⟨List.mem_cons_self, hk⟩
      | tail _ h => exact ⟨List.mem_cons_of_mem _ (mem_assocDel h).1, (mem_assocDel h).2⟩

theorem mem_assocIns {k : κ} {v : α} {e : κ × α} : ∀ {l : List (κ × α)}, e ∈ assocIns ord k v l → e = (k, v) ∨ e ∈ l
  | [], h => by simpa [assocIns] using h
  | (k', v') :: l, h => by
    simp only [assocIns] at h
    split at h
    · simpa using h
    · cases h with
      | head => exact .inr List.mem_cons_self
      | tail _ h =>
        cases mem_assocIns h with
        | inl h => exact .inl h
        | inr h => exact .inr (List.mem_cons_of_mem _ h)

theorem assocWf_cons [DecidableEq α] {k : κ} {v : α} {l : List (κ × α)} :
    assocWf ord dflt ((k, v) :: l) = true ↔ v ≠ dflt k ∧ (∀ e ∈ l, ord k < ord e.1) ∧ assocWf ord dflt l = true := by
  simp [assocWf, and_assoc]

theorem assocWf_del [DecidableEq α] {k : κ} : ∀ {l : List (κ × α)}, assocWf ord dflt l = true → assocWf ord dflt (assocDel ord k l) = true
  | [], _ => rfl
  | (k', v) :: l, h => by
    rw [assocWf_cons] at h
    simp only [assocDel]
    split
    · exact assocWf_del h.2.2
    · rw [assocWf_cons]; exact ⟨h.1, fun e he => h.2.1 e (mem_assocDel ord he).1, assocWf_del h.2.2⟩

theorem assocWf_ins [DecidableEq α] {k : κ} {v : α} (hv : v ≠ dflt k) :
    ∀ {l : List (κ × α)}, assocWf ord dflt l = true → (∀ e ∈ l, ord k ≠ ord e.1) → assocWf ord dflt (assocIns ord k v l) = true
  | [], _, _ => by simp [assocIns, assocWf, hv]
  | (k', v') :: l, h, hn => by
    have h0 := h
    rw [assocWf_cons] at h
    simp only [assocIns]
    split
    · next hk =>
      rw [assocWf_cons]
      refine ⟨hv, fun e he => ?_, h0⟩
      cases he with
      | head => exact hk
      | tail _ he => exact Nat.lt_trans hk (h.2.1 e he)
    · next hk =>
      rw [assocWf_cons]
      have hne := hn (k', v') List.mem_cons_self
      refine ⟨h.1, fun e he => ?_, assocWf_ins hv h.2.2 (fun e he => hn e (List.mem_cons_of_mem _ he))⟩
      cases mem_assocIns ord he with
      | inl he => subst he; simp only at hne hk ⊢; omega
      | inr he => exact h.2.1 e he

/-- A write keeps the canonical form. -/
theorem assocWf_put [DecidableEq α] {k : κ} {v : α} {l : List (κ × α)} (h : assocWf ord dflt l = true) :
    assocWf ord dflt (assocPut ord dflt k v l) = true := by
  unfold assocPut
  split
  · exact assocWf_del ord dflt h
  · next hv => exact assocWf_ins ord dflt hv (assocWf_del ord dflt h) (fun e he => (mem_assocDel ord he).2)

/-- Dropping entries keeps the canonical form. -/
theorem assocWf_filter [DecidableEq α] {p : κ × α → Bool} : ∀ {l : List (κ × α)}, assocWf ord dflt l = true → assocWf ord dflt (l.filter p) = true
  | [], _ => rfl
  | (k, v) :: l, h => by
    rw [assocWf_cons] at h
    rw [List.filter_cons]
    split
    · rw [assocWf_cons]; exact ⟨h.1, fun e he => h.2.1 e ((List.mem_filter.1 he).1), assocWf_filter h.2.2⟩
    · exact assocWf_filter h.2.2

/-- The form under one default holds under every other that agrees on the listed keys. -/
theorem assocWf_congr [DecidableEq α] {d' : κ → α} : ∀ {l : List (κ × α)}, (∀ e ∈ l, dflt e.1 = d' e.1) → assocWf ord dflt l = true →
    assocWf ord d' l = true
  | [], _, _ => rfl
  | (k, v) :: l, hd, h => by
    rw [assocWf_cons] at h ⊢
    exact ⟨by rw [← hd _ List.mem_cons_self]; exact h.1, h.2.1, assocWf_congr (fun e he => hd e (List.mem_cons_of_mem _ he)) h.2.2⟩

end Sys2Proof.Machine
end

