-- ==== Sys2Proof/Laws/Registers.lean ====
section
/-! SUPPORT. Laws of the register file: what a field reads as after the named operations of Ops, and what they leave. -/
namespace Sys2Proof.Machine

theorem Reg.ctorIdx_inj {a b : Reg} (h : a.ctorIdx = b.ctorIdx) : a = b := by
  rw [← Reg.ofNat_ctorIdx a, ← Reg.ofNat_ctorIdx b, h]

theorem Reg.entries_le (r : Reg) : r.entries ≤ 131072 := by cases r <;> decide
theorem Reg.entries_pos (r : Reg) : 0 < r.entries := by cases r <;> decide

/-- Two entries with one number are one entry. -/
theorem regOrd_inj {a b : Reg} {i j : Nat} (hi : i < 131072) (hj : j < 131072) (h : regOrd (a, i) = regOrd (b, j)) : a = b ∧ i = j := by
  simp only [regOrd] at h
  have : a.ctorIdx = b.ctorIdx := by omega
  exact ⟨Reg.ctorIdx_inj this, by omega⟩

section Word
variable (s : State) (r r' : Reg) (i j : Nat) (w : Word)

theorem State.word_setWord_same (h : i < r.entries) : (s.setWord r i w).word r i = w := by
  simp only [State.setWord, if_pos h, State.word]
  exact assocRead_put_same _ _ _ _ _

theorem State.word_setWord_other (h : ¬ (r' = r ∧ j = i)) (hj : j < 131072) : (s.setWord r i w).word r' j = s.word r' j := by
  unfold State.setWord
  split
  · next hi =>
    simp only [State.word]
    apply assocRead_put_other
    intro he
    obtain ⟨a, b⟩ := regOrd_inj hj (Nat.lt_of_lt_of_le hi r.entries_le) he
    exact h ⟨a, b⟩
  · rfl

theorem State.word_setWord_of_reg (h : r' ≠ r) (hj : j < 131072) : (s.setWord r i w).word r' j = s.word r' j :=
  s.word_setWord_other r r' i j w (fun e => h e.1) hj

end Word

section Fields
variable (s : State) (f g : Fld) (i j v : Nat)

/-- A field reads back what was put into it, cut to its width. -/
theorem State.geti_puti (h : i < f.reg.entries) (hb : f.hi < 32) : (s.puti f i v).geti f i = v % 2 ^ (f.hi + 1 - f.lo) := by
  simp only [State.geti, State.puti, State.word_setWord_same _ _ _ _ h]
  exact Fld.get_set f _ v hb

/-- Fields of other registers. -/
theorem State.geti_puti_reg (h : g.reg ≠ f.reg) (hj : j < 131072) : (s.puti f i v).geti g j = s.geti g j := by
  simp only [State.geti, State.puti, State.word_setWord_of_reg _ _ _ _ _ _ h hj]

/-- Fields of other entries. -/
theorem State.geti_puti_entry (h : j ≠ i) (hj : j < 131072) : (s.puti f i v).geti g j = s.geti g j := by
  simp only [State.geti, State.puti, State.word_setWord_other _ _ _ _ _ _ (fun e => h e.2) hj]

/-- Fields beside it in one register. -/
theorem State.geti_puti_beside (h : g.hi < f.lo ∨ f.hi < g.lo) (hr : g.reg = f.reg) : (s.puti f i v).geti g i = s.geti g i := by
  simp only [State.geti, State.puti, State.setWord, hr]
  split
  · simp only [State.word, assocRead_put_same]
    exact Fld.get_set_beside f g _ v h
  · rfl

/-- Fields of other registers, or beside it. -/
theorem State.get_put_other (h : g.reg ≠ f.reg ∨ (g.reg = f.reg ∧ (g.hi < f.lo ∨ f.hi < g.lo))) : (s.put f v).get g = s.get g := by
  rcases h with h | ⟨h, h'⟩
  · exact s.geti_puti_reg f g 0 0 v h (by decide)
  · exact s.geti_puti_beside f g 0 v h' h

theorem State.get_put (hb : f.hi < 32) : (s.put f v).get f = v % 2 ^ (f.hi + 1 - f.lo) :=
  s.geti_puti f 0 v f.reg.entries_pos hb

theorem State.get_lt : s.get f < 2 ^ (f.hi + 1 - f.lo) := Fld.get_lt _ _

end Fields

section Frames
variable (s : State) (f : Fld) (i v : Nat) (r : Reg) (w : Word)

/-- A write of a register changes the register file and nothing else. -/
theorem State.setWord_eq : s.setWord r i w = { s with regs := (s.setWord r i w).regs } := by
  unfold State.setWord; split <;> rfl

/-- A write of a register keeps the register file in its canonical form. -/
theorem State.setWord_wf (h : regsWf s.regs = true) : regsWf (s.setWord r i w).regs = true := by
  unfold State.setWord
  split
  · exact assocWf_put _ _ h
  · exact h

end Frames

end Sys2Proof.Machine
end

