-- ==== Sys2Proof/Laws/State.lean ====
section
/-! SUPPORT. What each update of the state leaves in each field, one law a field, so that no proof unfolds an update. -/
namespace Sys2Proof.Machine

variable (s : State)

/-! ### Updates of one component -/

@[simp] theorem State.emit_pending (o : Out) : (s.emit o).pending = s.pending := (rfl)
@[simp] theorem State.emit_regs (o : Out) : (s.emit o).regs = s.regs := (rfl)
@[simp] theorem State.emit_sel (o : Out) : (s.emit o).sel = s.sel := (rfl)
@[simp] theorem State.emit_latched (o : Out) : (s.emit o).latched = s.latched := (rfl)
@[simp] theorem State.emit_staged (o : Out) : (s.emit o).staged = s.staged := (rfl)
@[simp] theorem State.emit_out (o : Out) : (s.emit o).out = s.out ++ [o] := (rfl)
@[simp] theorem State.emit_free (o : Out) : (s.emit o).free = s.free := (rfl)
@[simp] theorem State.emit_host (o : Out) : (s.emit o).host = s.host := (rfl)
@[simp] theorem State.emit_power (o : Out) : (s.emit o).power = s.power := (rfl)
@[simp] theorem State.emit_reservoir (o : Out) : (s.emit o).reservoir = s.reservoir := (rfl)
@[simp] theorem State.emit_cascade (o : Out) : (s.emit o).cascade = s.cascade := (rfl)
@[simp] theorem State.emit_rills (o : Out) : (s.emit o).rills = s.rills := (rfl)
@[simp] theorem State.emit_sluice (o : Out) : (s.emit o).sluice = s.sluice := (rfl)
@[simp] theorem State.emit_mirror (o : Out) : (s.emit o).mirror = s.mirror := (rfl)
@[simp] theorem State.emit_weir (o : Out) : (s.emit o).weir = s.weir := (rfl)
@[simp] theorem State.emit_lock (o : Out) : (s.emit o).lock = s.lock := (rfl)
@[simp] theorem State.emit_sundial (o : Out) : (s.emit o).sundial = s.sundial := (rfl)
@[simp] theorem State.emit_inlets (o : Out) : (s.emit o).inlets = s.inlets := (rfl)
@[simp] theorem State.emit_basin (o : Out) : (s.emit o).basin = s.basin := (rfl)
@[simp] theorem State.emit_aqf (o : Out) : (s.emit o).aqf = s.aqf := (rfl)
@[simp] theorem State.emit_svc (o : Out) : (s.emit o).svc = s.svc := (rfl)
@[simp] theorem State.emit_dbg (o : Out) : (s.emit o).dbg = s.dbg := (rfl)
@[simp] theorem State.emit_pebble (o : Out) : (s.emit o).pebble = s.pebble := (rfl)
@[simp] theorem State.emit_vocabs (o : Out) : (s.emit o).vocabs = s.vocabs := (rfl)
@[simp] theorem State.emit_caches (o : Out) : (s.emit o).caches = s.caches := (rfl)
@[simp] theorem State.emit_word (o : Out) (rg : Reg) (en : Nat) : (s.emit o).word rg en = s.word rg en := (rfl)
@[simp] theorem State.emit_geti (o : Out) (fd : Fld) (en : Nat) : (s.emit o).geti fd en = s.geti fd en := (rfl)
@[simp] theorem State.emit_get (o : Out) (fd : Fld) : (s.emit o).get fd = s.get fd := (rfl)
@[simp] theorem State.emit_rdByte (o : Out) (ad : Nat) : (s.emit o).rdByte ad = s.rdByte ad := (rfl)

@[simp] theorem State.wrByte_pending (a : Nat) (b : Byte) : (s.wrByte a b).pending = s.pending := (rfl)
@[simp] theorem State.wrByte_regs (a : Nat) (b : Byte) : (s.wrByte a b).regs = s.regs := (rfl)
@[simp] theorem State.wrByte_sel (a : Nat) (b : Byte) : (s.wrByte a b).sel = s.sel := (rfl)
@[simp] theorem State.wrByte_latched (a : Nat) (b : Byte) : (s.wrByte a b).latched = s.latched := (rfl)
@[simp] theorem State.wrByte_staged (a : Nat) (b : Byte) : (s.wrByte a b).staged = s.staged := (rfl)
@[simp] theorem State.wrByte_out (a : Nat) (b : Byte) : (s.wrByte a b).out = s.out := (rfl)
@[simp] theorem State.wrByte_free (a : Nat) (b : Byte) : (s.wrByte a b).free = s.free := (rfl)
@[simp] theorem State.wrByte_host (a : Nat) (b : Byte) : (s.wrByte a b).host = s.host := (rfl)
@[simp] theorem State.wrByte_power (a : Nat) (b : Byte) : (s.wrByte a b).power = s.power := (rfl)
@[simp] theorem State.wrByte_reservoir (a : Nat) (b : Byte) : (s.wrByte a b).reservoir = assocPut id (memDflt s.basin.stale) a b s.reservoir := (rfl)
@[simp] theorem State.wrByte_cascade (a : Nat) (b : Byte) : (s.wrByte a b).cascade = s.cascade := (rfl)
@[simp] theorem State.wrByte_rills (a : Nat) (b : Byte) : (s.wrByte a b).rills = s.rills := (rfl)
@[simp] theorem State.wrByte_sluice (a : Nat) (b : Byte) : (s.wrByte a b).sluice = s.sluice := (rfl)
@[simp] theorem State.wrByte_mirror (a : Nat) (b : Byte) : (s.wrByte a b).mirror = s.mirror := (rfl)
@[simp] theorem State.wrByte_weir (a : Nat) (b : Byte) : (s.wrByte a b).weir = s.weir := (rfl)
@[simp] theorem State.wrByte_lock (a : Nat) (b : Byte) : (s.wrByte a b).lock = s.lock := (rfl)
@[simp] theorem State.wrByte_sundial (a : Nat) (b : Byte) : (s.wrByte a b).sundial = s.sundial := (rfl)
@[simp] theorem State.wrByte_inlets (a : Nat) (b : Byte) : (s.wrByte a b).inlets = s.inlets := (rfl)
@[simp] theorem State.wrByte_basin (a : Nat) (b : Byte) : (s.wrByte a b).basin = s.basin := (rfl)
@[simp] theorem State.wrByte_aqf (a : Nat) (b : Byte) : (s.wrByte a b).aqf = s.aqf := (rfl)
@[simp] theorem State.wrByte_svc (a : Nat) (b : Byte) : (s.wrByte a b).svc = s.svc := (rfl)
@[simp] theorem State.wrByte_dbg (a : Nat) (b : Byte) : (s.wrByte a b).dbg = s.dbg := (rfl)
@[simp] theorem State.wrByte_pebble (a : Nat) (b : Byte) : (s.wrByte a b).pebble = s.pebble := (rfl)
@[simp] theorem State.wrByte_vocabs (a : Nat) (b : Byte) : (s.wrByte a b).vocabs = s.vocabs := (rfl)
@[simp] theorem State.wrByte_caches (a : Nat) (b : Byte) : (s.wrByte a b).caches = s.caches := (rfl)
@[simp] theorem State.wrByte_word (a : Nat) (b : Byte) (rg : Reg) (en : Nat) : (s.wrByte a b).word rg en = s.word rg en := (rfl)
@[simp] theorem State.wrByte_geti (a : Nat) (b : Byte) (fd : Fld) (en : Nat) : (s.wrByte a b).geti fd en = s.geti fd en := (rfl)
@[simp] theorem State.wrByte_get (a : Nat) (b : Byte) (fd : Fld) : (s.wrByte a b).get fd = s.get fd := (rfl)

@[simp] theorem State.modRill_pending (r : Nat) (f : RillSt → RillSt) : (s.modRill r f).pending = s.pending := (rfl)
@[simp] theorem State.modRill_regs (r : Nat) (f : RillSt → RillSt) : (s.modRill r f).regs = s.regs := (rfl)
@[simp] theorem State.modRill_sel (r : Nat) (f : RillSt → RillSt) : (s.modRill r f).sel = s.sel := (rfl)
@[simp] theorem State.modRill_latched (r : Nat) (f : RillSt → RillSt) : (s.modRill r f).latched = s.latched := (rfl)
@[simp] theorem State.modRill_staged (r : Nat) (f : RillSt → RillSt) : (s.modRill r f).staged = s.staged := (rfl)
@[simp] theorem State.modRill_out (r : Nat) (f : RillSt → RillSt) : (s.modRill r f).out = s.out := (rfl)
@[simp] theorem State.modRill_free (r : Nat) (f : RillSt → RillSt) : (s.modRill r f).free = s.free := (rfl)
@[simp] theorem State.modRill_host (r : Nat) (f : RillSt → RillSt) : (s.modRill r f).host = s.host := (rfl)
@[simp] theorem State.modRill_power (r : Nat) (f : RillSt → RillSt) : (s.modRill r f).power = s.power := (rfl)
@[simp] theorem State.modRill_reservoir (r : Nat) (f : RillSt → RillSt) : (s.modRill r f).reservoir = s.reservoir := (rfl)
@[simp] theorem State.modRill_cascade (r : Nat) (f : RillSt → RillSt) : (s.modRill r f).cascade = s.cascade := (rfl)
@[simp] theorem State.modRill_rills (r : Nat) (f : RillSt → RillSt) : (s.modRill r f).rills = modAt f r s.rills := (rfl)
@[simp] theorem State.modRill_sluice (r : Nat) (f : RillSt → RillSt) : (s.modRill r f).sluice = s.sluice := (rfl)
@[simp] theorem State.modRill_mirror (r : Nat) (f : RillSt → RillSt) : (s.modRill r f).mirror = s.mirror := (rfl)
@[simp] theorem State.modRill_weir (r : Nat) (f : RillSt → RillSt) : (s.modRill r f).weir = s.weir := (rfl)
@[simp] theorem State.modRill_lock (r : Nat) (f : RillSt → RillSt) : (s.modRill r f).lock = s.lock := (rfl)
@[simp] theorem State.modRill_sundial (r : Nat) (f : RillSt → RillSt) : (s.modRill r f).sundial = s.sundial := (rfl)
@[simp] theorem State.modRill_inlets (r : Nat) (f : RillSt → RillSt) : (s.modRill r f).inlets = s.inlets := (rfl)
@[simp] theorem State.modRill_basin (r : Nat) (f : RillSt → RillSt) : (s.modRill r f).basin = s.basin := (rfl)
@[simp] theorem State.modRill_aqf (r : Nat) (f : RillSt → RillSt) : (s.modRill r f).aqf = s.aqf := (rfl)
@[simp] theorem State.modRill_svc (r : Nat) (f : RillSt → RillSt) : (s.modRill r f).svc = s.svc := (rfl)
@[simp] theorem State.modRill_dbg (r : Nat) (f : RillSt → RillSt) : (s.modRill r f).dbg = s.dbg := (rfl)
@[simp] theorem State.modRill_pebble (r : Nat) (f : RillSt → RillSt) : (s.modRill r f).pebble = s.pebble := (rfl)
@[simp] theorem State.modRill_vocabs (r : Nat) (f : RillSt → RillSt) : (s.modRill r f).vocabs = s.vocabs := (rfl)
@[simp] theorem State.modRill_caches (r : Nat) (f : RillSt → RillSt) : (s.modRill r f).caches = s.caches := (rfl)
@[simp] theorem State.modRill_word (r : Nat) (f : RillSt → RillSt) (rg : Reg) (en : Nat) : (s.modRill r f).word rg en = s.word rg en := (rfl)
@[simp] theorem State.modRill_geti (r : Nat) (f : RillSt → RillSt) (fd : Fld) (en : Nat) : (s.modRill r f).geti fd en = s.geti fd en := (rfl)
@[simp] theorem State.modRill_get (r : Nat) (f : RillSt → RillSt) (fd : Fld) : (s.modRill r f).get fd = s.get fd := (rfl)
@[simp] theorem State.modRill_rdByte (r : Nat) (f : RillSt → RillSt) (ad : Nat) : (s.modRill r f).rdByte ad = s.rdByte ad := (rfl)

@[simp] theorem State.setRill_pending (r : Nat) (x : RillSt) : (s.setRill r x).pending = s.pending := (rfl)
@[simp] theorem State.setRill_regs (r : Nat) (x : RillSt) : (s.setRill r x).regs = s.regs := (rfl)
@[simp] theorem State.setRill_sel (r : Nat) (x : RillSt) : (s.setRill r x).sel = s.sel := (rfl)
@[simp] theorem State.setRill_latched (r : Nat) (x : RillSt) : (s.setRill r x).latched = s.latched := (rfl)
@[simp] theorem State.setRill_staged (r : Nat) (x : RillSt) : (s.setRill r x).staged = s.staged := (rfl)
@[simp] theorem State.setRill_out (r : Nat) (x : RillSt) : (s.setRill r x).out = s.out := (rfl)
@[simp] theorem State.setRill_free (r : Nat) (x : RillSt) : (s.setRill r x).free = s.free := (rfl)
@[simp] theorem State.setRill_host (r : Nat) (x : RillSt) : (s.setRill r x).host = s.host := (rfl)
@[simp] theorem State.setRill_power (r : Nat) (x : RillSt) : (s.setRill r x).power = s.power := (rfl)
@[simp] theorem State.setRill_reservoir (r : Nat) (x : RillSt) : (s.setRill r x).reservoir = s.reservoir := (rfl)
@[simp] theorem State.setRill_cascade (r : Nat) (x : RillSt) : (s.setRill r x).cascade = s.cascade := (rfl)
@[simp] theorem State.setRill_rills (r : Nat) (x : RillSt) : (s.setRill r x).rills = putAt r x s.rills := (rfl)
@[simp] theorem State.setRill_sluice (r : Nat) (x : RillSt) : (s.setRill r x).sluice = s.sluice := (rfl)
@[simp] theorem State.setRill_mirror (r : Nat) (x : RillSt) : (s.setRill r x).mirror = s.mirror := (rfl)
@[simp] theorem State.setRill_weir (r : Nat) (x : RillSt) : (s.setRill r x).weir = s.weir := (rfl)
@[simp] theorem State.setRill_lock (r : Nat) (x : RillSt) : (s.setRill r x).lock = s.lock := (rfl)
@[simp] theorem State.setRill_sundial (r : Nat) (x : RillSt) : (s.setRill r x).sundial = s.sundial := (rfl)
@[simp] theorem State.setRill_inlets (r : Nat) (x : RillSt) : (s.setRill r x).inlets = s.inlets := (rfl)
@[simp] theorem State.setRill_basin (r : Nat) (x : RillSt) : (s.setRill r x).basin = s.basin := (rfl)
@[simp] theorem State.setRill_aqf (r : Nat) (x : RillSt) : (s.setRill r x).aqf = s.aqf := (rfl)
@[simp] theorem State.setRill_svc (r : Nat) (x : RillSt) : (s.setRill r x).svc = s.svc := (rfl)
@[simp] theorem State.setRill_dbg (r : Nat) (x : RillSt) : (s.setRill r x).dbg = s.dbg := (rfl)
@[simp] theorem State.setRill_pebble (r : Nat) (x : RillSt) : (s.setRill r x).pebble = s.pebble := (rfl)
@[simp] theorem State.setRill_vocabs (r : Nat) (x : RillSt) : (s.setRill r x).vocabs = s.vocabs := (rfl)
@[simp] theorem State.setRill_caches (r : Nat) (x : RillSt) : (s.setRill r x).caches = s.caches := (rfl)
@[simp] theorem State.setRill_word (r : Nat) (x : RillSt) (rg : Reg) (en : Nat) : (s.setRill r x).word rg en = s.word rg en := (rfl)
@[simp] theorem State.setRill_geti (r : Nat) (x : RillSt) (fd : Fld) (en : Nat) : (s.setRill r x).geti fd en = s.geti fd en := (rfl)
@[simp] theorem State.setRill_get (r : Nat) (x : RillSt) (fd : Fld) : (s.setRill r x).get fd = s.get fd := (rfl)
@[simp] theorem State.setRill_rdByte (r : Nat) (x : RillSt) (ad : Nat) : (s.setRill r x).rdByte ad = s.rdByte ad := (rfl)

@[simp] theorem State.modSlot_pending (k : Nat) (f : PlanSlot → PlanSlot) : (s.modSlot k f).pending = s.pending := (rfl)
@[simp] theorem State.modSlot_regs (k : Nat) (f : PlanSlot → PlanSlot) : (s.modSlot k f).regs = s.regs := (rfl)
@[simp] theorem State.modSlot_sel (k : Nat) (f : PlanSlot → PlanSlot) : (s.modSlot k f).sel = s.sel := (rfl)
@[simp] theorem State.modSlot_latched (k : Nat) (f : PlanSlot → PlanSlot) : (s.modSlot k f).latched = s.latched := (rfl)
@[simp] theorem State.modSlot_staged (k : Nat) (f : PlanSlot → PlanSlot) : (s.modSlot k f).staged = s.staged := (rfl)
@[simp] theorem State.modSlot_out (k : Nat) (f : PlanSlot → PlanSlot) : (s.modSlot k f).out = s.out := (rfl)
@[simp] theorem State.modSlot_free (k : Nat) (f : PlanSlot → PlanSlot) : (s.modSlot k f).free = s.free := (rfl)
@[simp] theorem State.modSlot_host (k : Nat) (f : PlanSlot → PlanSlot) : (s.modSlot k f).host = s.host := (rfl)
@[simp] theorem State.modSlot_power (k : Nat) (f : PlanSlot → PlanSlot) : (s.modSlot k f).power = s.power := (rfl)
@[simp] theorem State.modSlot_reservoir (k : Nat) (f : PlanSlot → PlanSlot) : (s.modSlot k f).reservoir = s.reservoir := (rfl)
@[simp] theorem State.modSlot_cascade (k : Nat) (f : PlanSlot → PlanSlot) : (s.modSlot k f).cascade = s.cascade := (rfl)
@[simp] theorem State.modSlot_rills (k : Nat) (f : PlanSlot → PlanSlot) : (s.modSlot k f).rills = s.rills := (rfl)
@[simp] theorem State.modSlot_sluice (k : Nat) (f : PlanSlot → PlanSlot) : (s.modSlot k f).sluice = { s.sluice with slots := modAt f k s.sluice.slots } := (rfl)
@[simp] theorem State.modSlot_mirror (k : Nat) (f : PlanSlot → PlanSlot) : (s.modSlot k f).mirror = s.mirror := (rfl)
@[simp] theorem State.modSlot_weir (k : Nat) (f : PlanSlot → PlanSlot) : (s.modSlot k f).weir = s.weir := (rfl)
@[simp] theorem State.modSlot_lock (k : Nat) (f : PlanSlot → PlanSlot) : (s.modSlot k f).lock = s.lock := (rfl)
@[simp] theorem State.modSlot_sundial (k : Nat) (f : PlanSlot → PlanSlot) : (s.modSlot k f).sundial = s.sundial := (rfl)
@[simp] theorem State.modSlot_inlets (k : Nat) (f : PlanSlot → PlanSlot) : (s.modSlot k f).inlets = s.inlets := (rfl)
@[simp] theorem State.modSlot_basin (k : Nat) (f : PlanSlot → PlanSlot) : (s.modSlot k f).basin = s.basin := (rfl)
@[simp] theorem State.modSlot_aqf (k : Nat) (f : PlanSlot → PlanSlot) : (s.modSlot k f).aqf = s.aqf := (rfl)
@[simp] theorem State.modSlot_svc (k : Nat) (f : PlanSlot → PlanSlot) : (s.modSlot k f).svc = s.svc := (rfl)
@[simp] theorem State.modSlot_dbg (k : Nat) (f : PlanSlot → PlanSlot) : (s.modSlot k f).dbg = s.dbg := (rfl)
@[simp] theorem State.modSlot_pebble (k : Nat) (f : PlanSlot → PlanSlot) : (s.modSlot k f).pebble = s.pebble := (rfl)
@[simp] theorem State.modSlot_vocabs (k : Nat) (f : PlanSlot → PlanSlot) : (s.modSlot k f).vocabs = s.vocabs := (rfl)
@[simp] theorem State.modSlot_caches (k : Nat) (f : PlanSlot → PlanSlot) : (s.modSlot k f).caches = s.caches := (rfl)
@[simp] theorem State.modSlot_word (k : Nat) (f : PlanSlot → PlanSlot) (rg : Reg) (en : Nat) : (s.modSlot k f).word rg en = s.word rg en := (rfl)
@[simp] theorem State.modSlot_geti (k : Nat) (f : PlanSlot → PlanSlot) (fd : Fld) (en : Nat) : (s.modSlot k f).geti fd en = s.geti fd en := (rfl)
@[simp] theorem State.modSlot_get (k : Nat) (f : PlanSlot → PlanSlot) (fd : Fld) : (s.modSlot k f).get fd = s.get fd := (rfl)
@[simp] theorem State.modSlot_rdByte (k : Nat) (f : PlanSlot → PlanSlot) (ad : Nat) : (s.modSlot k f).rdByte ad = s.rdByte ad := (rfl)

@[simp] theorem State.modQueue_pending (q : Nat) (f : QueueSt → QueueSt) : (s.modQueue q f).pending = s.pending := (rfl)
@[simp] theorem State.modQueue_regs (q : Nat) (f : QueueSt → QueueSt) : (s.modQueue q f).regs = s.regs := (rfl)
@[simp] theorem State.modQueue_sel (q : Nat) (f : QueueSt → QueueSt) : (s.modQueue q f).sel = s.sel := (rfl)
@[simp] theorem State.modQueue_latched (q : Nat) (f : QueueSt → QueueSt) : (s.modQueue q f).latched = s.latched := (rfl)
@[simp] theorem State.modQueue_staged (q : Nat) (f : QueueSt → QueueSt) : (s.modQueue q f).staged = s.staged := (rfl)
@[simp] theorem State.modQueue_out (q : Nat) (f : QueueSt → QueueSt) : (s.modQueue q f).out = s.out := (rfl)
@[simp] theorem State.modQueue_free (q : Nat) (f : QueueSt → QueueSt) : (s.modQueue q f).free = s.free := (rfl)
@[simp] theorem State.modQueue_host (q : Nat) (f : QueueSt → QueueSt) : (s.modQueue q f).host = { s.host with queues := modAt f q s.host.queues } := (rfl)
@[simp] theorem State.modQueue_power (q : Nat) (f : QueueSt → QueueSt) : (s.modQueue q f).power = s.power := (rfl)
@[simp] theorem State.modQueue_reservoir (q : Nat) (f : QueueSt → QueueSt) : (s.modQueue q f).reservoir = s.reservoir := (rfl)
@[simp] theorem State.modQueue_cascade (q : Nat) (f : QueueSt → QueueSt) : (s.modQueue q f).cascade = s.cascade := (rfl)
@[simp] theorem State.modQueue_rills (q : Nat) (f : QueueSt → QueueSt) : (s.modQueue q f).rills = s.rills := (rfl)
@[simp] theorem State.modQueue_sluice (q : Nat) (f : QueueSt → QueueSt) : (s.modQueue q f).sluice = s.sluice := (rfl)
@[simp] theorem State.modQueue_mirror (q : Nat) (f : QueueSt → QueueSt) : (s.modQueue q f).mirror = s.mirror := (rfl)
@[simp] theorem State.modQueue_weir (q : Nat) (f : QueueSt → QueueSt) : (s.modQueue q f).weir = s.weir := (rfl)
@[simp] theorem State.modQueue_lock (q : Nat) (f : QueueSt → QueueSt) : (s.modQueue q f).lock = s.lock := (rfl)
@[simp] theorem State.modQueue_sundial (q : Nat) (f : QueueSt → QueueSt) : (s.modQueue q f).sundial = s.sundial := (rfl)
@[simp] theorem State.modQueue_inlets (q : Nat) (f : QueueSt → QueueSt) : (s.modQueue q f).inlets = s.inlets := (rfl)
@[simp] theorem State.modQueue_basin (q : Nat) (f : QueueSt → QueueSt) : (s.modQueue q f).basin = s.basin := (rfl)
@[simp] theorem State.modQueue_aqf (q : Nat) (f : QueueSt → QueueSt) : (s.modQueue q f).aqf = s.aqf := (rfl)
@[simp] theorem State.modQueue_svc (q : Nat) (f : QueueSt → QueueSt) : (s.modQueue q f).svc = s.svc := (rfl)
@[simp] theorem State.modQueue_dbg (q : Nat) (f : QueueSt → QueueSt) : (s.modQueue q f).dbg = s.dbg := (rfl)
@[simp] theorem State.modQueue_pebble (q : Nat) (f : QueueSt → QueueSt) : (s.modQueue q f).pebble = s.pebble := (rfl)
@[simp] theorem State.modQueue_vocabs (q : Nat) (f : QueueSt → QueueSt) : (s.modQueue q f).vocabs = s.vocabs := (rfl)
@[simp] theorem State.modQueue_caches (q : Nat) (f : QueueSt → QueueSt) : (s.modQueue q f).caches = s.caches := (rfl)
@[simp] theorem State.modQueue_word (q : Nat) (f : QueueSt → QueueSt) (rg : Reg) (en : Nat) : (s.modQueue q f).word rg en = s.word rg en := (rfl)
@[simp] theorem State.modQueue_geti (q : Nat) (f : QueueSt → QueueSt) (fd : Fld) (en : Nat) : (s.modQueue q f).geti fd en = s.geti fd en := (rfl)
@[simp] theorem State.modQueue_get (q : Nat) (f : QueueSt → QueueSt) (fd : Fld) : (s.modQueue q f).get fd = s.get fd := (rfl)
@[simp] theorem State.modQueue_rdByte (q : Nat) (f : QueueSt → QueueSt) (ad : Nat) : (s.modQueue q f).rdByte ad = s.rdByte ad := (rfl)

@[simp] theorem State.modTask_pending (i : Nat) (f : Task → Task) : (s.modTask i f).pending = s.pending := (rfl)
@[simp] theorem State.modTask_regs (i : Nat) (f : Task → Task) : (s.modTask i f).regs = s.regs := (rfl)
@[simp] theorem State.modTask_sel (i : Nat) (f : Task → Task) : (s.modTask i f).sel = s.sel := (rfl)
@[simp] theorem State.modTask_latched (i : Nat) (f : Task → Task) : (s.modTask i f).latched = s.latched := (rfl)
@[simp] theorem State.modTask_staged (i : Nat) (f : Task → Task) : (s.modTask i f).staged = s.staged := (rfl)
@[simp] theorem State.modTask_out (i : Nat) (f : Task → Task) : (s.modTask i f).out = s.out := (rfl)
@[simp] theorem State.modTask_free (i : Nat) (f : Task → Task) : (s.modTask i f).free = s.free := (rfl)
@[simp] theorem State.modTask_host (i : Nat) (f : Task → Task) : (s.modTask i f).host = { s.host with tasks := s.host.tasks.map (fun x => if x.id = i then f x else x) } := (rfl)
@[simp] theorem State.modTask_power (i : Nat) (f : Task → Task) : (s.modTask i f).power = s.power := (rfl)
@[simp] theorem State.modTask_reservoir (i : Nat) (f : Task → Task) : (s.modTask i f).reservoir = s.reservoir := (rfl)
@[simp] theorem State.modTask_cascade (i : Nat) (f : Task → Task) : (s.modTask i f).cascade = s.cascade := (rfl)
@[simp] theorem State.modTask_rills (i : Nat) (f : Task → Task) : (s.modTask i f).rills = s.rills := (rfl)
@[simp] theorem State.modTask_sluice (i : Nat) (f : Task → Task) : (s.modTask i f).sluice = s.sluice := (rfl)
@[simp] theorem State.modTask_mirror (i : Nat) (f : Task → Task) : (s.modTask i f).mirror = s.mirror := (rfl)
@[simp] theorem State.modTask_weir (i : Nat) (f : Task → Task) : (s.modTask i f).weir = s.weir := (rfl)
@[simp] theorem State.modTask_lock (i : Nat) (f : Task → Task) : (s.modTask i f).lock = s.lock := (rfl)
@[simp] theorem State.modTask_sundial (i : Nat) (f : Task → Task) : (s.modTask i f).sundial = s.sundial := (rfl)
@[simp] theorem State.modTask_inlets (i : Nat) (f : Task → Task) : (s.modTask i f).inlets = s.inlets := (rfl)
@[simp] theorem State.modTask_basin (i : Nat) (f : Task → Task) : (s.modTask i f).basin = s.basin := (rfl)
@[simp] theorem State.modTask_aqf (i : Nat) (f : Task → Task) : (s.modTask i f).aqf = s.aqf := (rfl)
@[simp] theorem State.modTask_svc (i : Nat) (f : Task → Task) : (s.modTask i f).svc = s.svc := (rfl)
@[simp] theorem State.modTask_dbg (i : Nat) (f : Task → Task) : (s.modTask i f).dbg = s.dbg := (rfl)
@[simp] theorem State.modTask_pebble (i : Nat) (f : Task → Task) : (s.modTask i f).pebble = s.pebble := (rfl)
@[simp] theorem State.modTask_vocabs (i : Nat) (f : Task → Task) : (s.modTask i f).vocabs = s.vocabs := (rfl)
@[simp] theorem State.modTask_caches (i : Nat) (f : Task → Task) : (s.modTask i f).caches = s.caches := (rfl)
@[simp] theorem State.modTask_word (i : Nat) (f : Task → Task) (rg : Reg) (en : Nat) : (s.modTask i f).word rg en = s.word rg en := (rfl)
@[simp] theorem State.modTask_geti (i : Nat) (f : Task → Task) (fd : Fld) (en : Nat) : (s.modTask i f).geti fd en = s.geti fd en := (rfl)
@[simp] theorem State.modTask_get (i : Nat) (f : Task → Task) (fd : Fld) : (s.modTask i f).get fd = s.get fd := (rfl)
@[simp] theorem State.modTask_rdByte (i : Nat) (f : Task → Task) (ad : Nat) : (s.modTask i f).rdByte ad = s.rdByte ad := (rfl)

@[simp] theorem State.setTasks_pending (l : List Task) : (s.setTasks l).pending = s.pending := (rfl)
@[simp] theorem State.setTasks_regs (l : List Task) : (s.setTasks l).regs = s.regs := (rfl)
@[simp] theorem State.setTasks_sel (l : List Task) : (s.setTasks l).sel = s.sel := (rfl)
@[simp] theorem State.setTasks_latched (l : List Task) : (s.setTasks l).latched = s.latched := (rfl)
@[simp] theorem State.setTasks_staged (l : List Task) : (s.setTasks l).staged = s.staged := (rfl)
@[simp] theorem State.setTasks_out (l : List Task) : (s.setTasks l).out = s.out := (rfl)
@[simp] theorem State.setTasks_free (l : List Task) : (s.setTasks l).free = s.free := (rfl)
@[simp] theorem State.setTasks_host (l : List Task) : (s.setTasks l).host = { s.host with tasks := l } := (rfl)
@[simp] theorem State.setTasks_power (l : List Task) : (s.setTasks l).power = s.power := (rfl)
@[simp] theorem State.setTasks_reservoir (l : List Task) : (s.setTasks l).reservoir = s.reservoir := (rfl)
@[simp] theorem State.setTasks_cascade (l : List Task) : (s.setTasks l).cascade = s.cascade := (rfl)
@[simp] theorem State.setTasks_rills (l : List Task) : (s.setTasks l).rills = s.rills := (rfl)
@[simp] theorem State.setTasks_sluice (l : List Task) : (s.setTasks l).sluice = s.sluice := (rfl)
@[simp] theorem State.setTasks_mirror (l : List Task) : (s.setTasks l).mirror = s.mirror := (rfl)
@[simp] theorem State.setTasks_weir (l : List Task) : (s.setTasks l).weir = s.weir := (rfl)
@[simp] theorem State.setTasks_lock (l : List Task) : (s.setTasks l).lock = s.lock := (rfl)
@[simp] theorem State.setTasks_sundial (l : List Task) : (s.setTasks l).sundial = s.sundial := (rfl)
@[simp] theorem State.setTasks_inlets (l : List Task) : (s.setTasks l).inlets = s.inlets := (rfl)
@[simp] theorem State.setTasks_basin (l : List Task) : (s.setTasks l).basin = s.basin := (rfl)
@[simp] theorem State.setTasks_aqf (l : List Task) : (s.setTasks l).aqf = s.aqf := (rfl)
@[simp] theorem State.setTasks_svc (l : List Task) : (s.setTasks l).svc = s.svc := (rfl)
@[simp] theorem State.setTasks_dbg (l : List Task) : (s.setTasks l).dbg = s.dbg := (rfl)
@[simp] theorem State.setTasks_pebble (l : List Task) : (s.setTasks l).pebble = s.pebble := (rfl)
@[simp] theorem State.setTasks_vocabs (l : List Task) : (s.setTasks l).vocabs = s.vocabs := (rfl)
@[simp] theorem State.setTasks_caches (l : List Task) : (s.setTasks l).caches = s.caches := (rfl)
@[simp] theorem State.setTasks_word (l : List Task) (rg : Reg) (en : Nat) : (s.setTasks l).word rg en = s.word rg en := (rfl)
@[simp] theorem State.setTasks_geti (l : List Task) (fd : Fld) (en : Nat) : (s.setTasks l).geti fd en = s.geti fd en := (rfl)
@[simp] theorem State.setTasks_get (l : List Task) (fd : Fld) : (s.setTasks l).get fd = s.get fd := (rfl)
@[simp] theorem State.setTasks_rdByte (l : List Task) (ad : Nat) : (s.setTasks l).rdByte ad = s.rdByte ad := (rfl)

@[simp] theorem State.setAct_pending (a : ActSt) : (s.setAct a).pending = s.pending := (rfl)
@[simp] theorem State.setAct_regs (a : ActSt) : (s.setAct a).regs = s.regs := (rfl)
@[simp] theorem State.setAct_sel (a : ActSt) : (s.setAct a).sel = s.sel := (rfl)
@[simp] theorem State.setAct_latched (a : ActSt) : (s.setAct a).latched = s.latched := (rfl)
@[simp] theorem State.setAct_staged (a : ActSt) : (s.setAct a).staged = s.staged := (rfl)
@[simp] theorem State.setAct_out (a : ActSt) : (s.setAct a).out = s.out := (rfl)
@[simp] theorem State.setAct_free (a : ActSt) : (s.setAct a).free = s.free := (rfl)
@[simp] theorem State.setAct_host (a : ActSt) : (s.setAct a).host = s.host := (rfl)
@[simp] theorem State.setAct_power (a : ActSt) : (s.setAct a).power = s.power := (rfl)
@[simp] theorem State.setAct_reservoir (a : ActSt) : (s.setAct a).reservoir = s.reservoir := (rfl)
@[simp] theorem State.setAct_cascade (a : ActSt) : (s.setAct a).cascade = { s.cascade with act := a } := (rfl)
@[simp] theorem State.setAct_rills (a : ActSt) : (s.setAct a).rills = s.rills := (rfl)
@[simp] theorem State.setAct_sluice (a : ActSt) : (s.setAct a).sluice = s.sluice := (rfl)
@[simp] theorem State.setAct_mirror (a : ActSt) : (s.setAct a).mirror = s.mirror := (rfl)
@[simp] theorem State.setAct_weir (a : ActSt) : (s.setAct a).weir = s.weir := (rfl)
@[simp] theorem State.setAct_lock (a : ActSt) : (s.setAct a).lock = s.lock := (rfl)
@[simp] theorem State.setAct_sundial (a : ActSt) : (s.setAct a).sundial = s.sundial := (rfl)
@[simp] theorem State.setAct_inlets (a : ActSt) : (s.setAct a).inlets = s.inlets := (rfl)
@[simp] theorem State.setAct_basin (a : ActSt) : (s.setAct a).basin = s.basin := (rfl)
@[simp] theorem State.setAct_aqf (a : ActSt) : (s.setAct a).aqf = s.aqf := (rfl)
@[simp] theorem State.setAct_svc (a : ActSt) : (s.setAct a).svc = s.svc := (rfl)
@[simp] theorem State.setAct_dbg (a : ActSt) : (s.setAct a).dbg = s.dbg := (rfl)
@[simp] theorem State.setAct_pebble (a : ActSt) : (s.setAct a).pebble = s.pebble := (rfl)
@[simp] theorem State.setAct_vocabs (a : ActSt) : (s.setAct a).vocabs = s.vocabs := (rfl)
@[simp] theorem State.setAct_caches (a : ActSt) : (s.setAct a).caches = s.caches := (rfl)
@[simp] theorem State.setAct_word (a : ActSt) (rg : Reg) (en : Nat) : (s.setAct a).word rg en = s.word rg en := (rfl)
@[simp] theorem State.setAct_geti (a : ActSt) (fd : Fld) (en : Nat) : (s.setAct a).geti fd en = s.geti fd en := (rfl)
@[simp] theorem State.setAct_get (a : ActSt) (fd : Fld) : (s.setAct a).get fd = s.get fd := (rfl)
@[simp] theorem State.setAct_rdByte (a : ActSt) (ad : Nat) : (s.setAct a).rdByte ad = s.rdByte ad := (rfl)

@[simp] theorem State.setLoader_pending (l : LoaderSt) : (s.setLoader l).pending = s.pending := (rfl)
@[simp] theorem State.setLoader_regs (l : LoaderSt) : (s.setLoader l).regs = s.regs := (rfl)
@[simp] theorem State.setLoader_sel (l : LoaderSt) : (s.setLoader l).sel = s.sel := (rfl)
@[simp] theorem State.setLoader_latched (l : LoaderSt) : (s.setLoader l).latched = s.latched := (rfl)
@[simp] theorem State.setLoader_staged (l : LoaderSt) : (s.setLoader l).staged = s.staged := (rfl)
@[simp] theorem State.setLoader_out (l : LoaderSt) : (s.setLoader l).out = s.out := (rfl)
@[simp] theorem State.setLoader_free (l : LoaderSt) : (s.setLoader l).free = s.free := (rfl)
@[simp] theorem State.setLoader_host (l : LoaderSt) : (s.setLoader l).host = s.host := (rfl)
@[simp] theorem State.setLoader_power (l : LoaderSt) : (s.setLoader l).power = s.power := (rfl)
@[simp] theorem State.setLoader_reservoir (l : LoaderSt) : (s.setLoader l).reservoir = s.reservoir := (rfl)
@[simp] theorem State.setLoader_cascade (l : LoaderSt) : (s.setLoader l).cascade = { s.cascade with loader := l } := (rfl)
@[simp] theorem State.setLoader_rills (l : LoaderSt) : (s.setLoader l).rills = s.rills := (rfl)
@[simp] theorem State.setLoader_sluice (l : LoaderSt) : (s.setLoader l).sluice = s.sluice := (rfl)
@[simp] theorem State.setLoader_mirror (l : LoaderSt) : (s.setLoader l).mirror = s.mirror := (rfl)
@[simp] theorem State.setLoader_weir (l : LoaderSt) : (s.setLoader l).weir = s.weir := (rfl)
@[simp] theorem State.setLoader_lock (l : LoaderSt) : (s.setLoader l).lock = s.lock := (rfl)
@[simp] theorem State.setLoader_sundial (l : LoaderSt) : (s.setLoader l).sundial = s.sundial := (rfl)
@[simp] theorem State.setLoader_inlets (l : LoaderSt) : (s.setLoader l).inlets = s.inlets := (rfl)
@[simp] theorem State.setLoader_basin (l : LoaderSt) : (s.setLoader l).basin = s.basin := (rfl)
@[simp] theorem State.setLoader_aqf (l : LoaderSt) : (s.setLoader l).aqf = s.aqf := (rfl)
@[simp] theorem State.setLoader_svc (l : LoaderSt) : (s.setLoader l).svc = s.svc := (rfl)
@[simp] theorem State.setLoader_dbg (l : LoaderSt) : (s.setLoader l).dbg = s.dbg := (rfl)
@[simp] theorem State.setLoader_pebble (l : LoaderSt) : (s.setLoader l).pebble = s.pebble := (rfl)
@[simp] theorem State.setLoader_vocabs (l : LoaderSt) : (s.setLoader l).vocabs = s.vocabs := (rfl)
@[simp] theorem State.setLoader_caches (l : LoaderSt) : (s.setLoader l).caches = s.caches := (rfl)
@[simp] theorem State.setLoader_word (l : LoaderSt) (rg : Reg) (en : Nat) : (s.setLoader l).word rg en = s.word rg en := (rfl)
@[simp] theorem State.setLoader_geti (l : LoaderSt) (fd : Fld) (en : Nat) : (s.setLoader l).geti fd en = s.geti fd en := (rfl)
@[simp] theorem State.setLoader_get (l : LoaderSt) (fd : Fld) : (s.setLoader l).get fd = s.get fd := (rfl)
@[simp] theorem State.setLoader_rdByte (l : LoaderSt) (ad : Nat) : (s.setLoader l).rdByte ad = s.rdByte ad := (rfl)

@[simp] theorem State.modAqf_pending (f : AqfSt → AqfSt) : (s.modAqf f).pending = s.pending := (rfl)
@[simp] theorem State.modAqf_regs (f : AqfSt → AqfSt) : (s.modAqf f).regs = s.regs := (rfl)
@[simp] theorem State.modAqf_sel (f : AqfSt → AqfSt) : (s.modAqf f).sel = s.sel := (rfl)
@[simp] theorem State.modAqf_latched (f : AqfSt → AqfSt) : (s.modAqf f).latched = s.latched := (rfl)
@[simp] theorem State.modAqf_staged (f : AqfSt → AqfSt) : (s.modAqf f).staged = s.staged := (rfl)
@[simp] theorem State.modAqf_out (f : AqfSt → AqfSt) : (s.modAqf f).out = s.out := (rfl)
@[simp] theorem State.modAqf_free (f : AqfSt → AqfSt) : (s.modAqf f).free = s.free := (rfl)
@[simp] theorem State.modAqf_host (f : AqfSt → AqfSt) : (s.modAqf f).host = s.host := (rfl)
@[simp] theorem State.modAqf_power (f : AqfSt → AqfSt) : (s.modAqf f).power = s.power := (rfl)
@[simp] theorem State.modAqf_reservoir (f : AqfSt → AqfSt) : (s.modAqf f).reservoir = s.reservoir := (rfl)
@[simp] theorem State.modAqf_cascade (f : AqfSt → AqfSt) : (s.modAqf f).cascade = s.cascade := (rfl)
@[simp] theorem State.modAqf_rills (f : AqfSt → AqfSt) : (s.modAqf f).rills = s.rills := (rfl)
@[simp] theorem State.modAqf_sluice (f : AqfSt → AqfSt) : (s.modAqf f).sluice = s.sluice := (rfl)
@[simp] theorem State.modAqf_mirror (f : AqfSt → AqfSt) : (s.modAqf f).mirror = s.mirror := (rfl)
@[simp] theorem State.modAqf_weir (f : AqfSt → AqfSt) : (s.modAqf f).weir = s.weir := (rfl)
@[simp] theorem State.modAqf_lock (f : AqfSt → AqfSt) : (s.modAqf f).lock = s.lock := (rfl)
@[simp] theorem State.modAqf_sundial (f : AqfSt → AqfSt) : (s.modAqf f).sundial = s.sundial := (rfl)
@[simp] theorem State.modAqf_inlets (f : AqfSt → AqfSt) : (s.modAqf f).inlets = s.inlets := (rfl)
@[simp] theorem State.modAqf_basin (f : AqfSt → AqfSt) : (s.modAqf f).basin = s.basin := (rfl)
@[simp] theorem State.modAqf_aqf (f : AqfSt → AqfSt) : (s.modAqf f).aqf = f s.aqf := (rfl)
@[simp] theorem State.modAqf_svc (f : AqfSt → AqfSt) : (s.modAqf f).svc = s.svc := (rfl)
@[simp] theorem State.modAqf_dbg (f : AqfSt → AqfSt) : (s.modAqf f).dbg = s.dbg := (rfl)
@[simp] theorem State.modAqf_pebble (f : AqfSt → AqfSt) : (s.modAqf f).pebble = s.pebble := (rfl)
@[simp] theorem State.modAqf_vocabs (f : AqfSt → AqfSt) : (s.modAqf f).vocabs = s.vocabs := (rfl)
@[simp] theorem State.modAqf_caches (f : AqfSt → AqfSt) : (s.modAqf f).caches = s.caches := (rfl)
@[simp] theorem State.modAqf_word (f : AqfSt → AqfSt) (rg : Reg) (en : Nat) : (s.modAqf f).word rg en = s.word rg en := (rfl)
@[simp] theorem State.modAqf_geti (f : AqfSt → AqfSt) (fd : Fld) (en : Nat) : (s.modAqf f).geti fd en = s.geti fd en := (rfl)
@[simp] theorem State.modAqf_get (f : AqfSt → AqfSt) (fd : Fld) : (s.modAqf f).get fd = s.get fd := (rfl)
@[simp] theorem State.modAqf_rdByte (f : AqfSt → AqfSt) (ad : Nat) : (s.modAqf f).rdByte ad = s.rdByte ad := (rfl)

@[simp] theorem State.modSvc_pending (f : ServiceSt → ServiceSt) : (s.modSvc f).pending = s.pending := (rfl)
@[simp] theorem State.modSvc_regs (f : ServiceSt → ServiceSt) : (s.modSvc f).regs = s.regs := (rfl)
@[simp] theorem State.modSvc_sel (f : ServiceSt → ServiceSt) : (s.modSvc f).sel = s.sel := (rfl)
@[simp] theorem State.modSvc_latched (f : ServiceSt → ServiceSt) : (s.modSvc f).latched = s.latched := (rfl)
@[simp] theorem State.modSvc_staged (f : ServiceSt → ServiceSt) : (s.modSvc f).staged = s.staged := (rfl)
@[simp] theorem State.modSvc_out (f : ServiceSt → ServiceSt) : (s.modSvc f).out = s.out := (rfl)
@[simp] theorem State.modSvc_free (f : ServiceSt → ServiceSt) : (s.modSvc f).free = s.free := (rfl)
@[simp] theorem State.modSvc_host (f : ServiceSt → ServiceSt) : (s.modSvc f).host = s.host := (rfl)
@[simp] theorem State.modSvc_power (f : ServiceSt → ServiceSt) : (s.modSvc f).power = s.power := (rfl)
@[simp] theorem State.modSvc_reservoir (f : ServiceSt → ServiceSt) : (s.modSvc f).reservoir = s.reservoir := (rfl)
@[simp] theorem State.modSvc_cascade (f : ServiceSt → ServiceSt) : (s.modSvc f).cascade = s.cascade := (rfl)
@[simp] theorem State.modSvc_rills (f : ServiceSt → ServiceSt) : (s.modSvc f).rills = s.rills := (rfl)
@[simp] theorem State.modSvc_sluice (f : ServiceSt → ServiceSt) : (s.modSvc f).sluice = s.sluice := (rfl)
@[simp] theorem State.modSvc_mirror (f : ServiceSt → ServiceSt) : (s.modSvc f).mirror = s.mirror := (rfl)
@[simp] theorem State.modSvc_weir (f : ServiceSt → ServiceSt) : (s.modSvc f).weir = s.weir := (rfl)
@[simp] theorem State.modSvc_lock (f : ServiceSt → ServiceSt) : (s.modSvc f).lock = s.lock := (rfl)
@[simp] theorem State.modSvc_sundial (f : ServiceSt → ServiceSt) : (s.modSvc f).sundial = s.sundial := (rfl)
@[simp] theorem State.modSvc_inlets (f : ServiceSt → ServiceSt) : (s.modSvc f).inlets = s.inlets := (rfl)
@[simp] theorem State.modSvc_basin (f : ServiceSt → ServiceSt) : (s.modSvc f).basin = s.basin := (rfl)
@[simp] theorem State.modSvc_aqf (f : ServiceSt → ServiceSt) : (s.modSvc f).aqf = s.aqf := (rfl)
@[simp] theorem State.modSvc_svc (f : ServiceSt → ServiceSt) : (s.modSvc f).svc = f s.svc := (rfl)
@[simp] theorem State.modSvc_dbg (f : ServiceSt → ServiceSt) : (s.modSvc f).dbg = s.dbg := (rfl)
@[simp] theorem State.modSvc_pebble (f : ServiceSt → ServiceSt) : (s.modSvc f).pebble = s.pebble := (rfl)
@[simp] theorem State.modSvc_vocabs (f : ServiceSt → ServiceSt) : (s.modSvc f).vocabs = s.vocabs := (rfl)
@[simp] theorem State.modSvc_caches (f : ServiceSt → ServiceSt) : (s.modSvc f).caches = s.caches := (rfl)
@[simp] theorem State.modSvc_word (f : ServiceSt → ServiceSt) (rg : Reg) (en : Nat) : (s.modSvc f).word rg en = s.word rg en := (rfl)
@[simp] theorem State.modSvc_geti (f : ServiceSt → ServiceSt) (fd : Fld) (en : Nat) : (s.modSvc f).geti fd en = s.geti fd en := (rfl)
@[simp] theorem State.modSvc_get (f : ServiceSt → ServiceSt) (fd : Fld) : (s.modSvc f).get fd = s.get fd := (rfl)
@[simp] theorem State.modSvc_rdByte (f : ServiceSt → ServiceSt) (ad : Nat) : (s.modSvc f).rdByte ad = s.rdByte ad := (rfl)

@[simp] theorem State.modPower_pending (f : PowerSt → PowerSt) : (s.modPower f).pending = s.pending := (rfl)
@[simp] theorem State.modPower_regs (f : PowerSt → PowerSt) : (s.modPower f).regs = s.regs := (rfl)
@[simp] theorem State.modPower_sel (f : PowerSt → PowerSt) : (s.modPower f).sel = s.sel := (rfl)
@[simp] theorem State.modPower_latched (f : PowerSt → PowerSt) : (s.modPower f).latched = s.latched := (rfl)
@[simp] theorem State.modPower_staged (f : PowerSt → PowerSt) : (s.modPower f).staged = s.staged := (rfl)
@[simp] theorem State.modPower_out (f : PowerSt → PowerSt) : (s.modPower f).out = s.out := (rfl)
@[simp] theorem State.modPower_free (f : PowerSt → PowerSt) : (s.modPower f).free = s.free := (rfl)
@[simp] theorem State.modPower_host (f : PowerSt → PowerSt) : (s.modPower f).host = s.host := (rfl)
@[simp] theorem State.modPower_power (f : PowerSt → PowerSt) : (s.modPower f).power = f s.power := (rfl)
@[simp] theorem State.modPower_reservoir (f : PowerSt → PowerSt) : (s.modPower f).reservoir = s.reservoir := (rfl)
@[simp] theorem State.modPower_cascade (f : PowerSt → PowerSt) : (s.modPower f).cascade = s.cascade := (rfl)
@[simp] theorem State.modPower_rills (f : PowerSt → PowerSt) : (s.modPower f).rills = s.rills := (rfl)
@[simp] theorem State.modPower_sluice (f : PowerSt → PowerSt) : (s.modPower f).sluice = s.sluice := (rfl)
@[simp] theorem State.modPower_mirror (f : PowerSt → PowerSt) : (s.modPower f).mirror = s.mirror := (rfl)
@[simp] theorem State.modPower_weir (f : PowerSt → PowerSt) : (s.modPower f).weir = s.weir := (rfl)
@[simp] theorem State.modPower_lock (f : PowerSt → PowerSt) : (s.modPower f).lock = s.lock := (rfl)
@[simp] theorem State.modPower_sundial (f : PowerSt → PowerSt) : (s.modPower f).sundial = s.sundial := (rfl)
@[simp] theorem State.modPower_inlets (f : PowerSt → PowerSt) : (s.modPower f).inlets = s.inlets := (rfl)
@[simp] theorem State.modPower_basin (f : PowerSt → PowerSt) : (s.modPower f).basin = s.basin := (rfl)
@[simp] theorem State.modPower_aqf (f : PowerSt → PowerSt) : (s.modPower f).aqf = s.aqf := (rfl)
@[simp] theorem State.modPower_svc (f : PowerSt → PowerSt) : (s.modPower f).svc = s.svc := (rfl)
@[simp] theorem State.modPower_dbg (f : PowerSt → PowerSt) : (s.modPower f).dbg = s.dbg := (rfl)
@[simp] theorem State.modPower_pebble (f : PowerSt → PowerSt) : (s.modPower f).pebble = s.pebble := (rfl)
@[simp] theorem State.modPower_vocabs (f : PowerSt → PowerSt) : (s.modPower f).vocabs = s.vocabs := (rfl)
@[simp] theorem State.modPower_caches (f : PowerSt → PowerSt) : (s.modPower f).caches = s.caches := (rfl)
@[simp] theorem State.modPower_word (f : PowerSt → PowerSt) (rg : Reg) (en : Nat) : (s.modPower f).word rg en = s.word rg en := (rfl)
@[simp] theorem State.modPower_geti (f : PowerSt → PowerSt) (fd : Fld) (en : Nat) : (s.modPower f).geti fd en = s.geti fd en := (rfl)
@[simp] theorem State.modPower_get (f : PowerSt → PowerSt) (fd : Fld) : (s.modPower f).get fd = s.get fd := (rfl)
@[simp] theorem State.modPower_rdByte (f : PowerSt → PowerSt) (ad : Nat) : (s.modPower f).rdByte ad = s.rdByte ad := (rfl)

@[simp] theorem State.modSdl_pending (f : SundialSt → SundialSt) : (s.modSdl f).pending = s.pending := (rfl)
@[simp] theorem State.modSdl_regs (f : SundialSt → SundialSt) : (s.modSdl f).regs = s.regs := (rfl)
@[simp] theorem State.modSdl_sel (f : SundialSt → SundialSt) : (s.modSdl f).sel = s.sel := (rfl)
@[simp] theorem State.modSdl_latched (f : SundialSt → SundialSt) : (s.modSdl f).latched = s.latched := (rfl)
@[simp] theorem State.modSdl_staged (f : SundialSt → SundialSt) : (s.modSdl f).staged = s.staged := (rfl)
@[simp] theorem State.modSdl_out (f : SundialSt → SundialSt) : (s.modSdl f).out = s.out := (rfl)
@[simp] theorem State.modSdl_free (f : SundialSt → SundialSt) : (s.modSdl f).free = s.free := (rfl)
@[simp] theorem State.modSdl_host (f : SundialSt → SundialSt) : (s.modSdl f).host = s.host := (rfl)
@[simp] theorem State.modSdl_power (f : SundialSt → SundialSt) : (s.modSdl f).power = s.power := (rfl)
@[simp] theorem State.modSdl_reservoir (f : SundialSt → SundialSt) : (s.modSdl f).reservoir = s.reservoir := (rfl)
@[simp] theorem State.modSdl_cascade (f : SundialSt → SundialSt) : (s.modSdl f).cascade = s.cascade := (rfl)
@[simp] theorem State.modSdl_rills (f : SundialSt → SundialSt) : (s.modSdl f).rills = s.rills := (rfl)
@[simp] theorem State.modSdl_sluice (f : SundialSt → SundialSt) : (s.modSdl f).sluice = s.sluice := (rfl)
@[simp] theorem State.modSdl_mirror (f : SundialSt → SundialSt) : (s.modSdl f).mirror = s.mirror := (rfl)
@[simp] theorem State.modSdl_weir (f : SundialSt → SundialSt) : (s.modSdl f).weir = s.weir := (rfl)
@[simp] theorem State.modSdl_lock (f : SundialSt → SundialSt) : (s.modSdl f).lock = s.lock := (rfl)
@[simp] theorem State.modSdl_sundial (f : SundialSt → SundialSt) : (s.modSdl f).sundial = f s.sundial := (rfl)
@[simp] theorem State.modSdl_inlets (f : SundialSt → SundialSt) : (s.modSdl f).inlets = s.inlets := (rfl)
@[simp] theorem State.modSdl_basin (f : SundialSt → SundialSt) : (s.modSdl f).basin = s.basin := (rfl)
@[simp] theorem State.modSdl_aqf (f : SundialSt → SundialSt) : (s.modSdl f).aqf = s.aqf := (rfl)
@[simp] theorem State.modSdl_svc (f : SundialSt → SundialSt) : (s.modSdl f).svc = s.svc := (rfl)
@[simp] theorem State.modSdl_dbg (f : SundialSt → SundialSt) : (s.modSdl f).dbg = s.dbg := (rfl)
@[simp] theorem State.modSdl_pebble (f : SundialSt → SundialSt) : (s.modSdl f).pebble = s.pebble := (rfl)
@[simp] theorem State.modSdl_vocabs (f : SundialSt → SundialSt) : (s.modSdl f).vocabs = s.vocabs := (rfl)
@[simp] theorem State.modSdl_caches (f : SundialSt → SundialSt) : (s.modSdl f).caches = s.caches := (rfl)
@[simp] theorem State.modSdl_word (f : SundialSt → SundialSt) (rg : Reg) (en : Nat) : (s.modSdl f).word rg en = s.word rg en := (rfl)
@[simp] theorem State.modSdl_geti (f : SundialSt → SundialSt) (fd : Fld) (en : Nat) : (s.modSdl f).geti fd en = s.geti fd en := (rfl)
@[simp] theorem State.modSdl_get (f : SundialSt → SundialSt) (fd : Fld) : (s.modSdl f).get fd = s.get fd := (rfl)
@[simp] theorem State.modSdl_rdByte (f : SundialSt → SundialSt) (ad : Nat) : (s.modSdl f).rdByte ad = s.rdByte ad := (rfl)

@[simp] theorem State.modWeir_pending (f : WeirSt → WeirSt) : (s.modWeir f).pending = s.pending := (rfl)
@[simp] theorem State.modWeir_regs (f : WeirSt → WeirSt) : (s.modWeir f).regs = s.regs := (rfl)
@[simp] theorem State.modWeir_sel (f : WeirSt → WeirSt) : (s.modWeir f).sel = s.sel := (rfl)
@[simp] theorem State.modWeir_latched (f : WeirSt → WeirSt) : (s.modWeir f).latched = s.latched := (rfl)
@[simp] theorem State.modWeir_staged (f : WeirSt → WeirSt) : (s.modWeir f).staged = s.staged := (rfl)
@[simp] theorem State.modWeir_out (f : WeirSt → WeirSt) : (s.modWeir f).out = s.out := (rfl)
@[simp] theorem State.modWeir_free (f : WeirSt → WeirSt) : (s.modWeir f).free = s.free := (rfl)
@[simp] theorem State.modWeir_host (f : WeirSt → WeirSt) : (s.modWeir f).host = s.host := (rfl)
@[simp] theorem State.modWeir_power (f : WeirSt → WeirSt) : (s.modWeir f).power = s.power := (rfl)
@[simp] theorem State.modWeir_reservoir (f : WeirSt → WeirSt) : (s.modWeir f).reservoir = s.reservoir := (rfl)
@[simp] theorem State.modWeir_cascade (f : WeirSt → WeirSt) : (s.modWeir f).cascade = s.cascade := (rfl)
@[simp] theorem State.modWeir_rills (f : WeirSt → WeirSt) : (s.modWeir f).rills = s.rills := (rfl)
@[simp] theorem State.modWeir_sluice (f : WeirSt → WeirSt) : (s.modWeir f).sluice = s.sluice := (rfl)
@[simp] theorem State.modWeir_mirror (f : WeirSt → WeirSt) : (s.modWeir f).mirror = s.mirror := (rfl)
@[simp] theorem State.modWeir_weir (f : WeirSt → WeirSt) : (s.modWeir f).weir = f s.weir := (rfl)
@[simp] theorem State.modWeir_lock (f : WeirSt → WeirSt) : (s.modWeir f).lock = s.lock := (rfl)
@[simp] theorem State.modWeir_sundial (f : WeirSt → WeirSt) : (s.modWeir f).sundial = s.sundial := (rfl)
@[simp] theorem State.modWeir_inlets (f : WeirSt → WeirSt) : (s.modWeir f).inlets = s.inlets := (rfl)
@[simp] theorem State.modWeir_basin (f : WeirSt → WeirSt) : (s.modWeir f).basin = s.basin := (rfl)
@[simp] theorem State.modWeir_aqf (f : WeirSt → WeirSt) : (s.modWeir f).aqf = s.aqf := (rfl)
@[simp] theorem State.modWeir_svc (f : WeirSt → WeirSt) : (s.modWeir f).svc = s.svc := (rfl)
@[simp] theorem State.modWeir_dbg (f : WeirSt → WeirSt) : (s.modWeir f).dbg = s.dbg := (rfl)
@[simp] theorem State.modWeir_pebble (f : WeirSt → WeirSt) : (s.modWeir f).pebble = s.pebble := (rfl)
@[simp] theorem State.modWeir_vocabs (f : WeirSt → WeirSt) : (s.modWeir f).vocabs = s.vocabs := (rfl)
@[simp] theorem State.modWeir_caches (f : WeirSt → WeirSt) : (s.modWeir f).caches = s.caches := (rfl)
@[simp] theorem State.modWeir_word (f : WeirSt → WeirSt) (rg : Reg) (en : Nat) : (s.modWeir f).word rg en = s.word rg en := (rfl)
@[simp] theorem State.modWeir_geti (f : WeirSt → WeirSt) (fd : Fld) (en : Nat) : (s.modWeir f).geti fd en = s.geti fd en := (rfl)
@[simp] theorem State.modWeir_get (f : WeirSt → WeirSt) (fd : Fld) : (s.modWeir f).get fd = s.get fd := (rfl)
@[simp] theorem State.modWeir_rdByte (f : WeirSt → WeirSt) (ad : Nat) : (s.modWeir f).rdByte ad = s.rdByte ad := (rfl)

@[simp] theorem State.modInlet_pending (i : Nat) (f : InletSt → InletSt) : (s.modInlet i f).pending = s.pending := (rfl)
@[simp] theorem State.modInlet_regs (i : Nat) (f : InletSt → InletSt) : (s.modInlet i f).regs = s.regs := (rfl)
@[simp] theorem State.modInlet_sel (i : Nat) (f : InletSt → InletSt) : (s.modInlet i f).sel = s.sel := (rfl)
@[simp] theorem State.modInlet_latched (i : Nat) (f : InletSt → InletSt) : (s.modInlet i f).latched = s.latched := (rfl)
@[simp] theorem State.modInlet_staged (i : Nat) (f : InletSt → InletSt) : (s.modInlet i f).staged = s.staged := (rfl)
@[simp] theorem State.modInlet_out (i : Nat) (f : InletSt → InletSt) : (s.modInlet i f).out = s.out := (rfl)
@[simp] theorem State.modInlet_free (i : Nat) (f : InletSt → InletSt) : (s.modInlet i f).free = s.free := (rfl)
@[simp] theorem State.modInlet_host (i : Nat) (f : InletSt → InletSt) : (s.modInlet i f).host = s.host := (rfl)
@[simp] theorem State.modInlet_power (i : Nat) (f : InletSt → InletSt) : (s.modInlet i f).power = s.power := (rfl)
@[simp] theorem State.modInlet_reservoir (i : Nat) (f : InletSt → InletSt) : (s.modInlet i f).reservoir = s.reservoir := (rfl)
@[simp] theorem State.modInlet_cascade (i : Nat) (f : InletSt → InletSt) : (s.modInlet i f).cascade = s.cascade := (rfl)
@[simp] theorem State.modInlet_rills (i : Nat) (f : InletSt → InletSt) : (s.modInlet i f).rills = s.rills := (rfl)
@[simp] theorem State.modInlet_sluice (i : Nat) (f : InletSt → InletSt) : (s.modInlet i f).sluice = s.sluice := (rfl)
@[simp] theorem State.modInlet_mirror (i : Nat) (f : InletSt → InletSt) : (s.modInlet i f).mirror = s.mirror := (rfl)
@[simp] theorem State.modInlet_weir (i : Nat) (f : InletSt → InletSt) : (s.modInlet i f).weir = s.weir := (rfl)
@[simp] theorem State.modInlet_lock (i : Nat) (f : InletSt → InletSt) : (s.modInlet i f).lock = s.lock := (rfl)
@[simp] theorem State.modInlet_sundial (i : Nat) (f : InletSt → InletSt) : (s.modInlet i f).sundial = s.sundial := (rfl)
@[simp] theorem State.modInlet_inlets (i : Nat) (f : InletSt → InletSt) : (s.modInlet i f).inlets = modAt f i s.inlets := (rfl)
@[simp] theorem State.modInlet_basin (i : Nat) (f : InletSt → InletSt) : (s.modInlet i f).basin = s.basin := (rfl)
@[simp] theorem State.modInlet_aqf (i : Nat) (f : InletSt → InletSt) : (s.modInlet i f).aqf = s.aqf := (rfl)
@[simp] theorem State.modInlet_svc (i : Nat) (f : InletSt → InletSt) : (s.modInlet i f).svc = s.svc := (rfl)
@[simp] theorem State.modInlet_dbg (i : Nat) (f : InletSt → InletSt) : (s.modInlet i f).dbg = s.dbg := (rfl)
@[simp] theorem State.modInlet_pebble (i : Nat) (f : InletSt → InletSt) : (s.modInlet i f).pebble = s.pebble := (rfl)
@[simp] theorem State.modInlet_vocabs (i : Nat) (f : InletSt → InletSt) : (s.modInlet i f).vocabs = s.vocabs := (rfl)
@[simp] theorem State.modInlet_caches (i : Nat) (f : InletSt → InletSt) : (s.modInlet i f).caches = s.caches := (rfl)
@[simp] theorem State.modInlet_word (i : Nat) (f : InletSt → InletSt) (rg : Reg) (en : Nat) : (s.modInlet i f).word rg en = s.word rg en := (rfl)
@[simp] theorem State.modInlet_geti (i : Nat) (f : InletSt → InletSt) (fd : Fld) (en : Nat) : (s.modInlet i f).geti fd en = s.geti fd en := (rfl)
@[simp] theorem State.modInlet_get (i : Nat) (f : InletSt → InletSt) (fd : Fld) : (s.modInlet i f).get fd = s.get fd := (rfl)
@[simp] theorem State.modInlet_rdByte (i : Nat) (f : InletSt → InletSt) (ad : Nat) : (s.modInlet i f).rdByte ad = s.rdByte ad := (rfl)

@[simp] theorem State.setVocab_pending (k : Nat) (b : List Byte) : (s.setVocab k b).pending = s.pending := (rfl)
@[simp] theorem State.setVocab_regs (k : Nat) (b : List Byte) : (s.setVocab k b).regs = s.regs := (rfl)
@[simp] theorem State.setVocab_sel (k : Nat) (b : List Byte) : (s.setVocab k b).sel = s.sel := (rfl)
@[simp] theorem State.setVocab_latched (k : Nat) (b : List Byte) : (s.setVocab k b).latched = s.latched := (rfl)
@[simp] theorem State.setVocab_staged (k : Nat) (b : List Byte) : (s.setVocab k b).staged = s.staged := (rfl)
@[simp] theorem State.setVocab_out (k : Nat) (b : List Byte) : (s.setVocab k b).out = s.out := (rfl)
@[simp] theorem State.setVocab_free (k : Nat) (b : List Byte) : (s.setVocab k b).free = s.free := (rfl)
@[simp] theorem State.setVocab_host (k : Nat) (b : List Byte) : (s.setVocab k b).host = s.host := (rfl)
@[simp] theorem State.setVocab_power (k : Nat) (b : List Byte) : (s.setVocab k b).power = s.power := (rfl)
@[simp] theorem State.setVocab_reservoir (k : Nat) (b : List Byte) : (s.setVocab k b).reservoir = s.reservoir := (rfl)
@[simp] theorem State.setVocab_cascade (k : Nat) (b : List Byte) : (s.setVocab k b).cascade = s.cascade := (rfl)
@[simp] theorem State.setVocab_rills (k : Nat) (b : List Byte) : (s.setVocab k b).rills = s.rills := (rfl)
@[simp] theorem State.setVocab_sluice (k : Nat) (b : List Byte) : (s.setVocab k b).sluice = s.sluice := (rfl)
@[simp] theorem State.setVocab_mirror (k : Nat) (b : List Byte) : (s.setVocab k b).mirror = s.mirror := (rfl)
@[simp] theorem State.setVocab_weir (k : Nat) (b : List Byte) : (s.setVocab k b).weir = s.weir := (rfl)
@[simp] theorem State.setVocab_lock (k : Nat) (b : List Byte) : (s.setVocab k b).lock = s.lock := (rfl)
@[simp] theorem State.setVocab_sundial (k : Nat) (b : List Byte) : (s.setVocab k b).sundial = s.sundial := (rfl)
@[simp] theorem State.setVocab_inlets (k : Nat) (b : List Byte) : (s.setVocab k b).inlets = s.inlets := (rfl)
@[simp] theorem State.setVocab_basin (k : Nat) (b : List Byte) : (s.setVocab k b).basin = s.basin := (rfl)
@[simp] theorem State.setVocab_aqf (k : Nat) (b : List Byte) : (s.setVocab k b).aqf = s.aqf := (rfl)
@[simp] theorem State.setVocab_svc (k : Nat) (b : List Byte) : (s.setVocab k b).svc = s.svc := (rfl)
@[simp] theorem State.setVocab_dbg (k : Nat) (b : List Byte) : (s.setVocab k b).dbg = s.dbg := (rfl)
@[simp] theorem State.setVocab_pebble (k : Nat) (b : List Byte) : (s.setVocab k b).pebble = s.pebble := (rfl)
@[simp] theorem State.setVocab_vocabs (k : Nat) (b : List Byte) : (s.setVocab k b).vocabs = putAt k b s.vocabs := (rfl)
@[simp] theorem State.setVocab_caches (k : Nat) (b : List Byte) : (s.setVocab k b).caches = s.caches := (rfl)
@[simp] theorem State.setVocab_word (k : Nat) (b : List Byte) (rg : Reg) (en : Nat) : (s.setVocab k b).word rg en = s.word rg en := (rfl)
@[simp] theorem State.setVocab_geti (k : Nat) (b : List Byte) (fd : Fld) (en : Nat) : (s.setVocab k b).geti fd en = s.geti fd en := (rfl)
@[simp] theorem State.setVocab_get (k : Nat) (b : List Byte) (fd : Fld) : (s.setVocab k b).get fd = s.get fd := (rfl)
@[simp] theorem State.setVocab_rdByte (k : Nat) (b : List Byte) (ad : Nat) : (s.setVocab k b).rdByte ad = s.rdByte ad := (rfl)

@[simp] theorem State.setSel_pending (b : SelBlock) (rq : Requester) (i : Nat) : (s.setSel b rq i).pending = s.pending := (rfl)
@[simp] theorem State.setSel_regs (b : SelBlock) (rq : Requester) (i : Nat) : (s.setSel b rq i).regs = s.regs := (rfl)
@[simp] theorem State.setSel_sel (b : SelBlock) (rq : Requester) (i : Nat) : (s.setSel b rq i).sel = assocPut id (fun _ => 0) (selKey b rq) i s.sel := (rfl)
@[simp] theorem State.setSel_latched (b : SelBlock) (rq : Requester) (i : Nat) : (s.setSel b rq i).latched = s.latched := (rfl)
@[simp] theorem State.setSel_staged (b : SelBlock) (rq : Requester) (i : Nat) : (s.setSel b rq i).staged = s.staged := (rfl)
@[simp] theorem State.setSel_out (b : SelBlock) (rq : Requester) (i : Nat) : (s.setSel b rq i).out = s.out := (rfl)
@[simp] theorem State.setSel_free (b : SelBlock) (rq : Requester) (i : Nat) : (s.setSel b rq i).free = s.free := (rfl)
@[simp] theorem State.setSel_host (b : SelBlock) (rq : Requester) (i : Nat) : (s.setSel b rq i).host = s.host := (rfl)
@[simp] theorem State.setSel_power (b : SelBlock) (rq : Requester) (i : Nat) : (s.setSel b rq i).power = s.power := (rfl)
@[simp] theorem State.setSel_reservoir (b : SelBlock) (rq : Requester) (i : Nat) : (s.setSel b rq i).reservoir = s.reservoir := (rfl)
@[simp] theorem State.setSel_cascade (b : SelBlock) (rq : Requester) (i : Nat) : (s.setSel b rq i).cascade = s.cascade := (rfl)
@[simp] theorem State.setSel_rills (b : SelBlock) (rq : Requester) (i : Nat) : (s.setSel b rq i).rills = s.rills := (rfl)
@[simp] theorem State.setSel_sluice (b : SelBlock) (rq : Requester) (i : Nat) : (s.setSel b rq i).sluice = s.sluice := (rfl)
@[simp] theorem State.setSel_mirror (b : SelBlock) (rq : Requester) (i : Nat) : (s.setSel b rq i).mirror = s.mirror := (rfl)
@[simp] theorem State.setSel_weir (b : SelBlock) (rq : Requester) (i : Nat) : (s.setSel b rq i).weir = s.weir := (rfl)
@[simp] theorem State.setSel_lock (b : SelBlock) (rq : Requester) (i : Nat) : (s.setSel b rq i).lock = s.lock := (rfl)
@[simp] theorem State.setSel_sundial (b : SelBlock) (rq : Requester) (i : Nat) : (s.setSel b rq i).sundial = s.sundial := (rfl)
@[simp] theorem State.setSel_inlets (b : SelBlock) (rq : Requester) (i : Nat) : (s.setSel b rq i).inlets = s.inlets := (rfl)
@[simp] theorem State.setSel_basin (b : SelBlock) (rq : Requester) (i : Nat) : (s.setSel b rq i).basin = s.basin := (rfl)
@[simp] theorem State.setSel_aqf (b : SelBlock) (rq : Requester) (i : Nat) : (s.setSel b rq i).aqf = s.aqf := (rfl)
@[simp] theorem State.setSel_svc (b : SelBlock) (rq : Requester) (i : Nat) : (s.setSel b rq i).svc = s.svc := (rfl)
@[simp] theorem State.setSel_dbg (b : SelBlock) (rq : Requester) (i : Nat) : (s.setSel b rq i).dbg = s.dbg := (rfl)
@[simp] theorem State.setSel_pebble (b : SelBlock) (rq : Requester) (i : Nat) : (s.setSel b rq i).pebble = s.pebble := (rfl)
@[simp] theorem State.setSel_vocabs (b : SelBlock) (rq : Requester) (i : Nat) : (s.setSel b rq i).vocabs = s.vocabs := (rfl)
@[simp] theorem State.setSel_caches (b : SelBlock) (rq : Requester) (i : Nat) : (s.setSel b rq i).caches = s.caches := (rfl)
@[simp] theorem State.setSel_word (b : SelBlock) (rq : Requester) (i : Nat) (rg : Reg) (en : Nat) : (s.setSel b rq i).word rg en = s.word rg en := (rfl)
@[simp] theorem State.setSel_geti (b : SelBlock) (rq : Requester) (i : Nat) (fd : Fld) (en : Nat) : (s.setSel b rq i).geti fd en = s.geti fd en := (rfl)
@[simp] theorem State.setSel_get (b : SelBlock) (rq : Requester) (i : Nat) (fd : Fld) : (s.setSel b rq i).get fd = s.get fd := (rfl)
@[simp] theorem State.setSel_rdByte (b : SelBlock) (rq : Requester) (i : Nat) (ad : Nat) : (s.setSel b rq i).rdByte ad = s.rdByte ad := (rfl)

@[simp] theorem State.setLatch_pending (rq : Requester) (k : RegKey) (w : Word) : (s.setLatch rq k w).pending = s.pending := (rfl)
@[simp] theorem State.setLatch_regs (rq : Requester) (k : RegKey) (w : Word) : (s.setLatch rq k w).regs = s.regs := (rfl)
@[simp] theorem State.setLatch_sel (rq : Requester) (k : RegKey) (w : Word) : (s.setLatch rq k w).sel = s.sel := (rfl)
@[simp] theorem State.setLatch_latched (rq : Requester) (k : RegKey) (w : Word) : (s.setLatch rq k w).latched = assocPut id (fun _ => none) (latchKey rq k) (some w) s.latched := (rfl)
@[simp] theorem State.setLatch_staged (rq : Requester) (k : RegKey) (w : Word) : (s.setLatch rq k w).staged = s.staged := (rfl)
@[simp] theorem State.setLatch_out (rq : Requester) (k : RegKey) (w : Word) : (s.setLatch rq k w).out = s.out := (rfl)
@[simp] theorem State.setLatch_free (rq : Requester) (k : RegKey) (w : Word) : (s.setLatch rq k w).free = s.free := (rfl)
@[simp] theorem State.setLatch_host (rq : Requester) (k : RegKey) (w : Word) : (s.setLatch rq k w).host = s.host := (rfl)
@[simp] theorem State.setLatch_power (rq : Requester) (k : RegKey) (w : Word) : (s.setLatch rq k w).power = s.power := (rfl)
@[simp] theorem State.setLatch_reservoir (rq : Requester) (k : RegKey) (w : Word) : (s.setLatch rq k w).reservoir = s.reservoir := (rfl)
@[simp] theorem State.setLatch_cascade (rq : Requester) (k : RegKey) (w : Word) : (s.setLatch rq k w).cascade = s.cascade := (rfl)
@[simp] theorem State.setLatch_rills (rq : Requester) (k : RegKey) (w : Word) : (s.setLatch rq k w).rills = s.rills := (rfl)
@[simp] theorem State.setLatch_sluice (rq : Requester) (k : RegKey) (w : Word) : (s.setLatch rq k w).sluice = s.sluice := (rfl)
@[simp] theorem State.setLatch_mirror (rq : Requester) (k : RegKey) (w : Word) : (s.setLatch rq k w).mirror = s.mirror := (rfl)
@[simp] theorem State.setLatch_weir (rq : Requester) (k : RegKey) (w : Word) : (s.setLatch rq k w).weir = s.weir := (rfl)
@[simp] theorem State.setLatch_lock (rq : Requester) (k : RegKey) (w : Word) : (s.setLatch rq k w).lock = s.lock := (rfl)
@[simp] theorem State.setLatch_sundial (rq : Requester) (k : RegKey) (w : Word) : (s.setLatch rq k w).sundial = s.sundial := (rfl)
@[simp] theorem State.setLatch_inlets (rq : Requester) (k : RegKey) (w : Word) : (s.setLatch rq k w).inlets = s.inlets := (rfl)
@[simp] theorem State.setLatch_basin (rq : Requester) (k : RegKey) (w : Word) : (s.setLatch rq k w).basin = s.basin := (rfl)
@[simp] theorem State.setLatch_aqf (rq : Requester) (k : RegKey) (w : Word) : (s.setLatch rq k w).aqf = s.aqf := (rfl)
@[simp] theorem State.setLatch_svc (rq : Requester) (k : RegKey) (w : Word) : (s.setLatch rq k w).svc = s.svc := (rfl)
@[simp] theorem State.setLatch_dbg (rq : Requester) (k : RegKey) (w : Word) : (s.setLatch rq k w).dbg = s.dbg := (rfl)
@[simp] theorem State.setLatch_pebble (rq : Requester) (k : RegKey) (w : Word) : (s.setLatch rq k w).pebble = s.pebble := (rfl)
@[simp] theorem State.setLatch_vocabs (rq : Requester) (k : RegKey) (w : Word) : (s.setLatch rq k w).vocabs = s.vocabs := (rfl)
@[simp] theorem State.setLatch_caches (rq : Requester) (k : RegKey) (w : Word) : (s.setLatch rq k w).caches = s.caches := (rfl)
@[simp] theorem State.setLatch_word (rq : Requester) (k : RegKey) (w : Word) (rg : Reg) (en : Nat) : (s.setLatch rq k w).word rg en = s.word rg en := (rfl)
@[simp] theorem State.setLatch_geti (rq : Requester) (k : RegKey) (w : Word) (fd : Fld) (en : Nat) : (s.setLatch rq k w).geti fd en = s.geti fd en := (rfl)
@[simp] theorem State.setLatch_get (rq : Requester) (k : RegKey) (w : Word) (fd : Fld) : (s.setLatch rq k w).get fd = s.get fd := (rfl)
@[simp] theorem State.setLatch_rdByte (rq : Requester) (k : RegKey) (w : Word) (ad : Nat) : (s.setLatch rq k w).rdByte ad = s.rdByte ad := (rfl)

@[simp] theorem State.setStaged_pending (rq : Requester) (k : RegKey) (w : Option Word) : (s.setStaged rq k w).pending = s.pending := (rfl)
@[simp] theorem State.setStaged_regs (rq : Requester) (k : RegKey) (w : Option Word) : (s.setStaged rq k w).regs = s.regs := (rfl)
@[simp] theorem State.setStaged_sel (rq : Requester) (k : RegKey) (w : Option Word) : (s.setStaged rq k w).sel = s.sel := (rfl)
@[simp] theorem State.setStaged_latched (rq : Requester) (k : RegKey) (w : Option Word) : (s.setStaged rq k w).latched = s.latched := (rfl)
@[simp] theorem State.setStaged_staged (rq : Requester) (k : RegKey) (w : Option Word) : (s.setStaged rq k w).staged = assocPut id (fun _ => none) (latchKey rq k) w s.staged := (rfl)
@[simp] theorem State.setStaged_out (rq : Requester) (k : RegKey) (w : Option Word) : (s.setStaged rq k w).out = s.out := (rfl)
@[simp] theorem State.setStaged_free (rq : Requester) (k : RegKey) (w : Option Word) : (s.setStaged rq k w).free = s.free := (rfl)
@[simp] theorem State.setStaged_host (rq : Requester) (k : RegKey) (w : Option Word) : (s.setStaged rq k w).host = s.host := (rfl)
@[simp] theorem State.setStaged_power (rq : Requester) (k : RegKey) (w : Option Word) : (s.setStaged rq k w).power = s.power := (rfl)
@[simp] theorem State.setStaged_reservoir (rq : Requester) (k : RegKey) (w : Option Word) : (s.setStaged rq k w).reservoir = s.reservoir := (rfl)
@[simp] theorem State.setStaged_cascade (rq : Requester) (k : RegKey) (w : Option Word) : (s.setStaged rq k w).cascade = s.cascade := (rfl)
@[simp] theorem State.setStaged_rills (rq : Requester) (k : RegKey) (w : Option Word) : (s.setStaged rq k w).rills = s.rills := (rfl)
@[simp] theorem State.setStaged_sluice (rq : Requester) (k : RegKey) (w : Option Word) : (s.setStaged rq k w).sluice = s.sluice := (rfl)
@[simp] theorem State.setStaged_mirror (rq : Requester) (k : RegKey) (w : Option Word) : (s.setStaged rq k w).mirror = s.mirror := (rfl)
@[simp] theorem State.setStaged_weir (rq : Requester) (k : RegKey) (w : Option Word) : (s.setStaged rq k w).weir = s.weir := (rfl)
@[simp] theorem State.setStaged_lock (rq : Requester) (k : RegKey) (w : Option Word) : (s.setStaged rq k w).lock = s.lock := (rfl)
@[simp] theorem State.setStaged_sundial (rq : Requester) (k : RegKey) (w : Option Word) : (s.setStaged rq k w).sundial = s.sundial := (rfl)
@[simp] theorem State.setStaged_inlets (rq : Requester) (k : RegKey) (w : Option Word) : (s.setStaged rq k w).inlets = s.inlets := (rfl)
@[simp] theorem State.setStaged_basin (rq : Requester) (k : RegKey) (w : Option Word) : (s.setStaged rq k w).basin = s.basin := (rfl)
@[simp] theorem State.setStaged_aqf (rq : Requester) (k : RegKey) (w : Option Word) : (s.setStaged rq k w).aqf = s.aqf := (rfl)
@[simp] theorem State.setStaged_svc (rq : Requester) (k : RegKey) (w : Option Word) : (s.setStaged rq k w).svc = s.svc := (rfl)
@[simp] theorem State.setStaged_dbg (rq : Requester) (k : RegKey) (w : Option Word) : (s.setStaged rq k w).dbg = s.dbg := (rfl)
@[simp] theorem State.setStaged_pebble (rq : Requester) (k : RegKey) (w : Option Word) : (s.setStaged rq k w).pebble = s.pebble := (rfl)
@[simp] theorem State.setStaged_vocabs (rq : Requester) (k : RegKey) (w : Option Word) : (s.setStaged rq k w).vocabs = s.vocabs := (rfl)
@[simp] theorem State.setStaged_caches (rq : Requester) (k : RegKey) (w : Option Word) : (s.setStaged rq k w).caches = s.caches := (rfl)
@[simp] theorem State.setStaged_word (rq : Requester) (k : RegKey) (w : Option Word) (rg : Reg) (en : Nat) : (s.setStaged rq k w).word rg en = s.word rg en := (rfl)
@[simp] theorem State.setStaged_geti (rq : Requester) (k : RegKey) (w : Option Word) (fd : Fld) (en : Nat) : (s.setStaged rq k w).geti fd en = s.geti fd en := (rfl)
@[simp] theorem State.setStaged_get (rq : Requester) (k : RegKey) (w : Option Word) (fd : Fld) : (s.setStaged rq k w).get fd = s.get fd := (rfl)
@[simp] theorem State.setStaged_rdByte (rq : Requester) (k : RegKey) (w : Option Word) (ad : Nat) : (s.setStaged rq k w).rdByte ad = s.rdByte ad := (rfl)

/-! ### The next free value -/

@[simp] theorem State.fresh_val (k n : Nat) : (s.fresh k n).1 = Config.freeNat k s.free % n := (rfl)
@[simp] theorem State.fresh_pending (k n : Nat) : (s.fresh k n).2.pending = s.pending := (rfl)
@[simp] theorem State.fresh_regs (k n : Nat) : (s.fresh k n).2.regs = s.regs := (rfl)
@[simp] theorem State.fresh_sel (k n : Nat) : (s.fresh k n).2.sel = s.sel := (rfl)
@[simp] theorem State.fresh_latched (k n : Nat) : (s.fresh k n).2.latched = s.latched := (rfl)
@[simp] theorem State.fresh_staged (k n : Nat) : (s.fresh k n).2.staged = s.staged := (rfl)
@[simp] theorem State.fresh_out (k n : Nat) : (s.fresh k n).2.out = s.out := (rfl)
@[simp] theorem State.fresh_free (k n : Nat) : (s.fresh k n).2.free = s.free + 1 := (rfl)
@[simp] theorem State.fresh_host (k n : Nat) : (s.fresh k n).2.host = s.host := (rfl)
@[simp] theorem State.fresh_power (k n : Nat) : (s.fresh k n).2.power = s.power := (rfl)
@[simp] theorem State.fresh_reservoir (k n : Nat) : (s.fresh k n).2.reservoir = s.reservoir := (rfl)
@[simp] theorem State.fresh_cascade (k n : Nat) : (s.fresh k n).2.cascade = s.cascade := (rfl)
@[simp] theorem State.fresh_rills (k n : Nat) : (s.fresh k n).2.rills = s.rills := (rfl)
@[simp] theorem State.fresh_sluice (k n : Nat) : (s.fresh k n).2.sluice = s.sluice := (rfl)
@[simp] theorem State.fresh_mirror (k n : Nat) : (s.fresh k n).2.mirror = s.mirror := (rfl)
@[simp] theorem State.fresh_weir (k n : Nat) : (s.fresh k n).2.weir = s.weir := (rfl)
@[simp] theorem State.fresh_lock (k n : Nat) : (s.fresh k n).2.lock = s.lock := (rfl)
@[simp] theorem State.fresh_sundial (k n : Nat) : (s.fresh k n).2.sundial = s.sundial := (rfl)
@[simp] theorem State.fresh_inlets (k n : Nat) : (s.fresh k n).2.inlets = s.inlets := (rfl)
@[simp] theorem State.fresh_basin (k n : Nat) : (s.fresh k n).2.basin = s.basin := (rfl)
@[simp] theorem State.fresh_aqf (k n : Nat) : (s.fresh k n).2.aqf = s.aqf := (rfl)
@[simp] theorem State.fresh_svc (k n : Nat) : (s.fresh k n).2.svc = s.svc := (rfl)
@[simp] theorem State.fresh_dbg (k n : Nat) : (s.fresh k n).2.dbg = s.dbg := (rfl)
@[simp] theorem State.fresh_pebble (k n : Nat) : (s.fresh k n).2.pebble = s.pebble := (rfl)
@[simp] theorem State.fresh_vocabs (k n : Nat) : (s.fresh k n).2.vocabs = s.vocabs := (rfl)
@[simp] theorem State.fresh_caches (k n : Nat) : (s.fresh k n).2.caches = s.caches := (rfl)
@[simp] theorem State.fresh_word (k n : Nat) (q : Reg) (j : Nat) : (s.fresh k n).2.word q j = s.word q j := (rfl)

/-! ### Writes of registers -/

@[simp] theorem State.setWord_pending (r : Reg) (i : Nat) (w : Word) : (s.setWord r i w).pending = s.pending := by rw [State.setWord_eq]
@[simp] theorem State.setWord_sel (r : Reg) (i : Nat) (w : Word) : (s.setWord r i w).sel = s.sel := by rw [State.setWord_eq]
@[simp] theorem State.setWord_latched (r : Reg) (i : Nat) (w : Word) : (s.setWord r i w).latched = s.latched := by rw [State.setWord_eq]
@[simp] theorem State.setWord_staged (r : Reg) (i : Nat) (w : Word) : (s.setWord r i w).staged = s.staged := by rw [State.setWord_eq]
@[simp] theorem State.setWord_out (r : Reg) (i : Nat) (w : Word) : (s.setWord r i w).out = s.out := by rw [State.setWord_eq]
@[simp] theorem State.setWord_free (r : Reg) (i : Nat) (w : Word) : (s.setWord r i w).free = s.free := by rw [State.setWord_eq]
@[simp] theorem State.setWord_host (r : Reg) (i : Nat) (w : Word) : (s.setWord r i w).host = s.host := by rw [State.setWord_eq]
@[simp] theorem State.setWord_power (r : Reg) (i : Nat) (w : Word) : (s.setWord r i w).power = s.power := by rw [State.setWord_eq]
@[simp] theorem State.setWord_reservoir (r : Reg) (i : Nat) (w : Word) : (s.setWord r i w).reservoir = s.reservoir := by rw [State.setWord_eq]
@[simp] theorem State.setWord_cascade (r : Reg) (i : Nat) (w : Word) : (s.setWord r i w).cascade = s.cascade := by rw [State.setWord_eq]
@[simp] theorem State.setWord_rills (r : Reg) (i : Nat) (w : Word) : (s.setWord r i w).rills = s.rills := by rw [State.setWord_eq]
@[simp] theorem State.setWord_sluice (r : Reg) (i : Nat) (w : Word) : (s.setWord r i w).sluice = s.sluice := by rw [State.setWord_eq]
@[simp] theorem State.setWord_mirror (r : Reg) (i : Nat) (w : Word) : (s.setWord r i w).mirror = s.mirror := by rw [State.setWord_eq]
@[simp] theorem State.setWord_weir (r : Reg) (i : Nat) (w : Word) : (s.setWord r i w).weir = s.weir := by rw [State.setWord_eq]
@[simp] theorem State.setWord_lock (r : Reg) (i : Nat) (w : Word) : (s.setWord r i w).lock = s.lock := by rw [State.setWord_eq]
@[simp] theorem State.setWord_sundial (r : Reg) (i : Nat) (w : Word) : (s.setWord r i w).sundial = s.sundial := by rw [State.setWord_eq]
@[simp] theorem State.setWord_inlets (r : Reg) (i : Nat) (w : Word) : (s.setWord r i w).inlets = s.inlets := by rw [State.setWord_eq]
@[simp] theorem State.setWord_basin (r : Reg) (i : Nat) (w : Word) : (s.setWord r i w).basin = s.basin := by rw [State.setWord_eq]
@[simp] theorem State.setWord_aqf (r : Reg) (i : Nat) (w : Word) : (s.setWord r i w).aqf = s.aqf := by rw [State.setWord_eq]
@[simp] theorem State.setWord_svc (r : Reg) (i : Nat) (w : Word) : (s.setWord r i w).svc = s.svc := by rw [State.setWord_eq]
@[simp] theorem State.setWord_dbg (r : Reg) (i : Nat) (w : Word) : (s.setWord r i w).dbg = s.dbg := by rw [State.setWord_eq]
@[simp] theorem State.setWord_pebble (r : Reg) (i : Nat) (w : Word) : (s.setWord r i w).pebble = s.pebble := by rw [State.setWord_eq]
@[simp] theorem State.setWord_vocabs (r : Reg) (i : Nat) (w : Word) : (s.setWord r i w).vocabs = s.vocabs := by rw [State.setWord_eq]
@[simp] theorem State.setWord_caches (r : Reg) (i : Nat) (w : Word) : (s.setWord r i w).caches = s.caches := by rw [State.setWord_eq]
@[simp] theorem State.setWord_rdByte (r : Reg) (i : Nat) (w : Word) (ad : Nat) : (s.setWord r i w).rdByte ad = s.rdByte ad := by simp only [State.rdByte, State.setWord_basin, State.setWord_reservoir]

@[simp] theorem State.puti_pending (f : Fld) (i v : Nat) : (s.puti f i v).pending = s.pending := State.setWord_pending ..
@[simp] theorem State.puti_sel (f : Fld) (i v : Nat) : (s.puti f i v).sel = s.sel := State.setWord_sel ..
@[simp] theorem State.puti_latched (f : Fld) (i v : Nat) : (s.puti f i v).latched = s.latched := State.setWord_latched ..
@[simp] theorem State.puti_staged (f : Fld) (i v : Nat) : (s.puti f i v).staged = s.staged := State.setWord_staged ..
@[simp] theorem State.puti_out (f : Fld) (i v : Nat) : (s.puti f i v).out = s.out := State.setWord_out ..
@[simp] theorem State.puti_free (f : Fld) (i v : Nat) : (s.puti f i v).free = s.free := State.setWord_free ..
@[simp] theorem State.puti_host (f : Fld) (i v : Nat) : (s.puti f i v).host = s.host := State.setWord_host ..
@[simp] theorem State.puti_power (f : Fld) (i v : Nat) : (s.puti f i v).power = s.power := State.setWord_power ..
@[simp] theorem State.puti_reservoir (f : Fld) (i v : Nat) : (s.puti f i v).reservoir = s.reservoir := State.setWord_reservoir ..
@[simp] theorem State.puti_cascade (f : Fld) (i v : Nat) : (s.puti f i v).cascade = s.cascade := State.setWord_cascade ..
@[simp] theorem State.puti_rills (f : Fld) (i v : Nat) : (s.puti f i v).rills = s.rills := State.setWord_rills ..
@[simp] theorem State.puti_sluice (f : Fld) (i v : Nat) : (s.puti f i v).sluice = s.sluice := State.setWord_sluice ..
@[simp] theorem State.puti_mirror (f : Fld) (i v : Nat) : (s.puti f i v).mirror = s.mirror := State.setWord_mirror ..
@[simp] theorem State.puti_weir (f : Fld) (i v : Nat) : (s.puti f i v).weir = s.weir := State.setWord_weir ..
@[simp] theorem State.puti_lock (f : Fld) (i v : Nat) : (s.puti f i v).lock = s.lock := State.setWord_lock ..
@[simp] theorem State.puti_sundial (f : Fld) (i v : Nat) : (s.puti f i v).sundial = s.sundial := State.setWord_sundial ..
@[simp] theorem State.puti_inlets (f : Fld) (i v : Nat) : (s.puti f i v).inlets = s.inlets := State.setWord_inlets ..
@[simp] theorem State.puti_basin (f : Fld) (i v : Nat) : (s.puti f i v).basin = s.basin := State.setWord_basin ..
@[simp] theorem State.puti_aqf (f : Fld) (i v : Nat) : (s.puti f i v).aqf = s.aqf := State.setWord_aqf ..
@[simp] theorem State.puti_svc (f : Fld) (i v : Nat) : (s.puti f i v).svc = s.svc := State.setWord_svc ..
@[simp] theorem State.puti_dbg (f : Fld) (i v : Nat) : (s.puti f i v).dbg = s.dbg := State.setWord_dbg ..
@[simp] theorem State.puti_pebble (f : Fld) (i v : Nat) : (s.puti f i v).pebble = s.pebble := State.setWord_pebble ..
@[simp] theorem State.puti_vocabs (f : Fld) (i v : Nat) : (s.puti f i v).vocabs = s.vocabs := State.setWord_vocabs ..
@[simp] theorem State.puti_caches (f : Fld) (i v : Nat) : (s.puti f i v).caches = s.caches := State.setWord_caches ..
@[simp] theorem State.puti_rdByte (f : Fld) (i v : Nat) (ad : Nat) : (s.puti f i v).rdByte ad = s.rdByte ad := by simp only [State.rdByte, State.puti_basin, State.puti_reservoir]

@[simp] theorem State.put_pending (f : Fld) (v : Nat) : (s.put f v).pending = s.pending := State.puti_pending ..
@[simp] theorem State.put_sel (f : Fld) (v : Nat) : (s.put f v).sel = s.sel := State.puti_sel ..
@[simp] theorem State.put_latched (f : Fld) (v : Nat) : (s.put f v).latched = s.latched := State.puti_latched ..
@[simp] theorem State.put_staged (f : Fld) (v : Nat) : (s.put f v).staged = s.staged := State.puti_staged ..
@[simp] theorem State.put_out (f : Fld) (v : Nat) : (s.put f v).out = s.out := State.puti_out ..
@[simp] theorem State.put_free (f : Fld) (v : Nat) : (s.put f v).free = s.free := State.puti_free ..
@[simp] theorem State.put_host (f : Fld) (v : Nat) : (s.put f v).host = s.host := State.puti_host ..
@[simp] theorem State.put_power (f : Fld) (v : Nat) : (s.put f v).power = s.power := State.puti_power ..
@[simp] theorem State.put_reservoir (f : Fld) (v : Nat) : (s.put f v).reservoir = s.reservoir := State.puti_reservoir ..
@[simp] theorem State.put_cascade (f : Fld) (v : Nat) : (s.put f v).cascade = s.cascade := State.puti_cascade ..
@[simp] theorem State.put_rills (f : Fld) (v : Nat) : (s.put f v).rills = s.rills := State.puti_rills ..
@[simp] theorem State.put_sluice (f : Fld) (v : Nat) : (s.put f v).sluice = s.sluice := State.puti_sluice ..
@[simp] theorem State.put_mirror (f : Fld) (v : Nat) : (s.put f v).mirror = s.mirror := State.puti_mirror ..
@[simp] theorem State.put_weir (f : Fld) (v : Nat) : (s.put f v).weir = s.weir := State.puti_weir ..
@[simp] theorem State.put_lock (f : Fld) (v : Nat) : (s.put f v).lock = s.lock := State.puti_lock ..
@[simp] theorem State.put_sundial (f : Fld) (v : Nat) : (s.put f v).sundial = s.sundial := State.puti_sundial ..
@[simp] theorem State.put_inlets (f : Fld) (v : Nat) : (s.put f v).inlets = s.inlets := State.puti_inlets ..
@[simp] theorem State.put_basin (f : Fld) (v : Nat) : (s.put f v).basin = s.basin := State.puti_basin ..
@[simp] theorem State.put_aqf (f : Fld) (v : Nat) : (s.put f v).aqf = s.aqf := State.puti_aqf ..
@[simp] theorem State.put_svc (f : Fld) (v : Nat) : (s.put f v).svc = s.svc := State.puti_svc ..
@[simp] theorem State.put_dbg (f : Fld) (v : Nat) : (s.put f v).dbg = s.dbg := State.puti_dbg ..
@[simp] theorem State.put_pebble (f : Fld) (v : Nat) : (s.put f v).pebble = s.pebble := State.puti_pebble ..
@[simp] theorem State.put_vocabs (f : Fld) (v : Nat) : (s.put f v).vocabs = s.vocabs := State.puti_vocabs ..
@[simp] theorem State.put_caches (f : Fld) (v : Nat) : (s.put f v).caches = s.caches := State.puti_caches ..
@[simp] theorem State.put_rdByte (f : Fld) (v : Nat) (ad : Nat) : (s.put f v).rdByte ad = s.rdByte ad := by simp only [State.rdByte, State.put_basin, State.put_reservoir]

@[simp] theorem State.ev_pending (f : Fld) : (s.ev f).pending = s.pending := State.put_pending ..
@[simp] theorem State.ev_sel (f : Fld) : (s.ev f).sel = s.sel := State.put_sel ..
@[simp] theorem State.ev_latched (f : Fld) : (s.ev f).latched = s.latched := State.put_latched ..
@[simp] theorem State.ev_staged (f : Fld) : (s.ev f).staged = s.staged := State.put_staged ..
@[simp] theorem State.ev_out (f : Fld) : (s.ev f).out = s.out := State.put_out ..
@[simp] theorem State.ev_free (f : Fld) : (s.ev f).free = s.free := State.put_free ..
@[simp] theorem State.ev_host (f : Fld) : (s.ev f).host = s.host := State.put_host ..
@[simp] theorem State.ev_power (f : Fld) : (s.ev f).power = s.power := State.put_power ..
@[simp] theorem State.ev_reservoir (f : Fld) : (s.ev f).reservoir = s.reservoir := State.put_reservoir ..
@[simp] theorem State.ev_cascade (f : Fld) : (s.ev f).cascade = s.cascade := State.put_cascade ..
@[simp] theorem State.ev_rills (f : Fld) : (s.ev f).rills = s.rills := State.put_rills ..
@[simp] theorem State.ev_sluice (f : Fld) : (s.ev f).sluice = s.sluice := State.put_sluice ..
@[simp] theorem State.ev_mirror (f : Fld) : (s.ev f).mirror = s.mirror := State.put_mirror ..
@[simp] theorem State.ev_weir (f : Fld) : (s.ev f).weir = s.weir := State.put_weir ..
@[simp] theorem State.ev_lock (f : Fld) : (s.ev f).lock = s.lock := State.put_lock ..
@[simp] theorem State.ev_sundial (f : Fld) : (s.ev f).sundial = s.sundial := State.put_sundial ..
@[simp] theorem State.ev_inlets (f : Fld) : (s.ev f).inlets = s.inlets := State.put_inlets ..
@[simp] theorem State.ev_basin (f : Fld) : (s.ev f).basin = s.basin := State.put_basin ..
@[simp] theorem State.ev_aqf (f : Fld) : (s.ev f).aqf = s.aqf := State.put_aqf ..
@[simp] theorem State.ev_svc (f : Fld) : (s.ev f).svc = s.svc := State.put_svc ..
@[simp] theorem State.ev_dbg (f : Fld) : (s.ev f).dbg = s.dbg := State.put_dbg ..
@[simp] theorem State.ev_pebble (f : Fld) : (s.ev f).pebble = s.pebble := State.put_pebble ..
@[simp] theorem State.ev_vocabs (f : Fld) : (s.ev f).vocabs = s.vocabs := State.put_vocabs ..
@[simp] theorem State.ev_caches (f : Fld) : (s.ev f).caches = s.caches := State.put_caches ..
@[simp] theorem State.ev_rdByte (f : Fld) (ad : Nat) : (s.ev f).rdByte ad = s.rdByte ad := by simp only [State.rdByte, State.ev_basin, State.ev_reservoir]

@[simp] theorem State.evi_pending (f : Fld) (i : Nat) : (s.evi f i).pending = s.pending := State.puti_pending ..
@[simp] theorem State.evi_sel (f : Fld) (i : Nat) : (s.evi f i).sel = s.sel := State.puti_sel ..
@[simp] theorem State.evi_latched (f : Fld) (i : Nat) : (s.evi f i).latched = s.latched := State.puti_latched ..
@[simp] theorem State.evi_staged (f : Fld) (i : Nat) : (s.evi f i).staged = s.staged := State.puti_staged ..
@[simp] theorem State.evi_out (f : Fld) (i : Nat) : (s.evi f i).out = s.out := State.puti_out ..
@[simp] theorem State.evi_free (f : Fld) (i : Nat) : (s.evi f i).free = s.free := State.puti_free ..
@[simp] theorem State.evi_host (f : Fld) (i : Nat) : (s.evi f i).host = s.host := State.puti_host ..
@[simp] theorem State.evi_power (f : Fld) (i : Nat) : (s.evi f i).power = s.power := State.puti_power ..
@[simp] theorem State.evi_reservoir (f : Fld) (i : Nat) : (s.evi f i).reservoir = s.reservoir := State.puti_reservoir ..
@[simp] theorem State.evi_cascade (f : Fld) (i : Nat) : (s.evi f i).cascade = s.cascade := State.puti_cascade ..
@[simp] theorem State.evi_rills (f : Fld) (i : Nat) : (s.evi f i).rills = s.rills := State.puti_rills ..
@[simp] theorem State.evi_sluice (f : Fld) (i : Nat) : (s.evi f i).sluice = s.sluice := State.puti_sluice ..
@[simp] theorem State.evi_mirror (f : Fld) (i : Nat) : (s.evi f i).mirror = s.mirror := State.puti_mirror ..
@[simp] theorem State.evi_weir (f : Fld) (i : Nat) : (s.evi f i).weir = s.weir := State.puti_weir ..
@[simp] theorem State.evi_lock (f : Fld) (i : Nat) : (s.evi f i).lock = s.lock := State.puti_lock ..
@[simp] theorem State.evi_sundial (f : Fld) (i : Nat) : (s.evi f i).sundial = s.sundial := State.puti_sundial ..
@[simp] theorem State.evi_inlets (f : Fld) (i : Nat) : (s.evi f i).inlets = s.inlets := State.puti_inlets ..
@[simp] theorem State.evi_basin (f : Fld) (i : Nat) : (s.evi f i).basin = s.basin := State.puti_basin ..
@[simp] theorem State.evi_aqf (f : Fld) (i : Nat) : (s.evi f i).aqf = s.aqf := State.puti_aqf ..
@[simp] theorem State.evi_svc (f : Fld) (i : Nat) : (s.evi f i).svc = s.svc := State.puti_svc ..
@[simp] theorem State.evi_dbg (f : Fld) (i : Nat) : (s.evi f i).dbg = s.dbg := State.puti_dbg ..
@[simp] theorem State.evi_pebble (f : Fld) (i : Nat) : (s.evi f i).pebble = s.pebble := State.puti_pebble ..
@[simp] theorem State.evi_vocabs (f : Fld) (i : Nat) : (s.evi f i).vocabs = s.vocabs := State.puti_vocabs ..
@[simp] theorem State.evi_caches (f : Fld) (i : Nat) : (s.evi f i).caches = s.caches := State.puti_caches ..
@[simp] theorem State.evi_rdByte (f : Fld) (i : Nat) (ad : Nat) : (s.evi f i).rdByte ad = s.rdByte ad := by simp only [State.rdByte, State.evi_basin, State.evi_reservoir]

@[simp] theorem State.putb_pending (f : Fld) (b : Bool) : (s.putb f b).pending = s.pending := State.put_pending ..
@[simp] theorem State.putb_sel (f : Fld) (b : Bool) : (s.putb f b).sel = s.sel := State.put_sel ..
@[simp] theorem State.putb_latched (f : Fld) (b : Bool) : (s.putb f b).latched = s.latched := State.put_latched ..
@[simp] theorem State.putb_staged (f : Fld) (b : Bool) : (s.putb f b).staged = s.staged := State.put_staged ..
@[simp] theorem State.putb_out (f : Fld) (b : Bool) : (s.putb f b).out = s.out := State.put_out ..
@[simp] theorem State.putb_free (f : Fld) (b : Bool) : (s.putb f b).free = s.free := State.put_free ..
@[simp] theorem State.putb_host (f : Fld) (b : Bool) : (s.putb f b).host = s.host := State.put_host ..
@[simp] theorem State.putb_power (f : Fld) (b : Bool) : (s.putb f b).power = s.power := State.put_power ..
@[simp] theorem State.putb_reservoir (f : Fld) (b : Bool) : (s.putb f b).reservoir = s.reservoir := State.put_reservoir ..
@[simp] theorem State.putb_cascade (f : Fld) (b : Bool) : (s.putb f b).cascade = s.cascade := State.put_cascade ..
@[simp] theorem State.putb_rills (f : Fld) (b : Bool) : (s.putb f b).rills = s.rills := State.put_rills ..
@[simp] theorem State.putb_sluice (f : Fld) (b : Bool) : (s.putb f b).sluice = s.sluice := State.put_sluice ..
@[simp] theorem State.putb_mirror (f : Fld) (b : Bool) : (s.putb f b).mirror = s.mirror := State.put_mirror ..
@[simp] theorem State.putb_weir (f : Fld) (b : Bool) : (s.putb f b).weir = s.weir := State.put_weir ..
@[simp] theorem State.putb_lock (f : Fld) (b : Bool) : (s.putb f b).lock = s.lock := State.put_lock ..
@[simp] theorem State.putb_sundial (f : Fld) (b : Bool) : (s.putb f b).sundial = s.sundial := State.put_sundial ..
@[simp] theorem State.putb_inlets (f : Fld) (b : Bool) : (s.putb f b).inlets = s.inlets := State.put_inlets ..
@[simp] theorem State.putb_basin (f : Fld) (b : Bool) : (s.putb f b).basin = s.basin := State.put_basin ..
@[simp] theorem State.putb_aqf (f : Fld) (b : Bool) : (s.putb f b).aqf = s.aqf := State.put_aqf ..
@[simp] theorem State.putb_svc (f : Fld) (b : Bool) : (s.putb f b).svc = s.svc := State.put_svc ..
@[simp] theorem State.putb_dbg (f : Fld) (b : Bool) : (s.putb f b).dbg = s.dbg := State.put_dbg ..
@[simp] theorem State.putb_pebble (f : Fld) (b : Bool) : (s.putb f b).pebble = s.pebble := State.put_pebble ..
@[simp] theorem State.putb_vocabs (f : Fld) (b : Bool) : (s.putb f b).vocabs = s.vocabs := State.put_vocabs ..
@[simp] theorem State.putb_caches (f : Fld) (b : Bool) : (s.putb f b).caches = s.caches := State.put_caches ..
@[simp] theorem State.putb_rdByte (f : Fld) (b : Bool) (ad : Nat) : (s.putb f b).rdByte ad = s.rdByte ad := by simp only [State.rdByte, State.putb_basin, State.putb_reservoir]

@[simp] theorem State.putPair_pending (lo hi : Reg) (i v : Nat) : (s.putPair lo hi i v).pending = s.pending := (State.setWord_pending ..).trans (State.setWord_pending ..)
@[simp] theorem State.putPair_sel (lo hi : Reg) (i v : Nat) : (s.putPair lo hi i v).sel = s.sel := (State.setWord_sel ..).trans (State.setWord_sel ..)
@[simp] theorem State.putPair_latched (lo hi : Reg) (i v : Nat) : (s.putPair lo hi i v).latched = s.latched := (State.setWord_latched ..).trans (State.setWord_latched ..)
@[simp] theorem State.putPair_staged (lo hi : Reg) (i v : Nat) : (s.putPair lo hi i v).staged = s.staged := (State.setWord_staged ..).trans (State.setWord_staged ..)
@[simp] theorem State.putPair_out (lo hi : Reg) (i v : Nat) : (s.putPair lo hi i v).out = s.out := (State.setWord_out ..).trans (State.setWord_out ..)
@[simp] theorem State.putPair_free (lo hi : Reg) (i v : Nat) : (s.putPair lo hi i v).free = s.free := (State.setWord_free ..).trans (State.setWord_free ..)
@[simp] theorem State.putPair_host (lo hi : Reg) (i v : Nat) : (s.putPair lo hi i v).host = s.host := (State.setWord_host ..).trans (State.setWord_host ..)
@[simp] theorem State.putPair_power (lo hi : Reg) (i v : Nat) : (s.putPair lo hi i v).power = s.power := (State.setWord_power ..).trans (State.setWord_power ..)
@[simp] theorem State.putPair_reservoir (lo hi : Reg) (i v : Nat) : (s.putPair lo hi i v).reservoir = s.reservoir := (State.setWord_reservoir ..).trans (State.setWord_reservoir ..)
@[simp] theorem State.putPair_cascade (lo hi : Reg) (i v : Nat) : (s.putPair lo hi i v).cascade = s.cascade := (State.setWord_cascade ..).trans (State.setWord_cascade ..)
@[simp] theorem State.putPair_rills (lo hi : Reg) (i v : Nat) : (s.putPair lo hi i v).rills = s.rills := (State.setWord_rills ..).trans (State.setWord_rills ..)
@[simp] theorem State.putPair_sluice (lo hi : Reg) (i v : Nat) : (s.putPair lo hi i v).sluice = s.sluice := (State.setWord_sluice ..).trans (State.setWord_sluice ..)
@[simp] theorem State.putPair_mirror (lo hi : Reg) (i v : Nat) : (s.putPair lo hi i v).mirror = s.mirror := (State.setWord_mirror ..).trans (State.setWord_mirror ..)
@[simp] theorem State.putPair_weir (lo hi : Reg) (i v : Nat) : (s.putPair lo hi i v).weir = s.weir := (State.setWord_weir ..).trans (State.setWord_weir ..)
@[simp] theorem State.putPair_lock (lo hi : Reg) (i v : Nat) : (s.putPair lo hi i v).lock = s.lock := (State.setWord_lock ..).trans (State.setWord_lock ..)
@[simp] theorem State.putPair_sundial (lo hi : Reg) (i v : Nat) : (s.putPair lo hi i v).sundial = s.sundial := (State.setWord_sundial ..).trans (State.setWord_sundial ..)
@[simp] theorem State.putPair_inlets (lo hi : Reg) (i v : Nat) : (s.putPair lo hi i v).inlets = s.inlets := (State.setWord_inlets ..).trans (State.setWord_inlets ..)
@[simp] theorem State.putPair_basin (lo hi : Reg) (i v : Nat) : (s.putPair lo hi i v).basin = s.basin := (State.setWord_basin ..).trans (State.setWord_basin ..)
@[simp] theorem State.putPair_aqf (lo hi : Reg) (i v : Nat) : (s.putPair lo hi i v).aqf = s.aqf := (State.setWord_aqf ..).trans (State.setWord_aqf ..)
@[simp] theorem State.putPair_svc (lo hi : Reg) (i v : Nat) : (s.putPair lo hi i v).svc = s.svc := (State.setWord_svc ..).trans (State.setWord_svc ..)
@[simp] theorem State.putPair_dbg (lo hi : Reg) (i v : Nat) : (s.putPair lo hi i v).dbg = s.dbg := (State.setWord_dbg ..).trans (State.setWord_dbg ..)
@[simp] theorem State.putPair_pebble (lo hi : Reg) (i v : Nat) : (s.putPair lo hi i v).pebble = s.pebble := (State.setWord_pebble ..).trans (State.setWord_pebble ..)
@[simp] theorem State.putPair_vocabs (lo hi : Reg) (i v : Nat) : (s.putPair lo hi i v).vocabs = s.vocabs := (State.setWord_vocabs ..).trans (State.setWord_vocabs ..)
@[simp] theorem State.putPair_caches (lo hi : Reg) (i v : Nat) : (s.putPair lo hi i v).caches = s.caches := (State.setWord_caches ..).trans (State.setWord_caches ..)
@[simp] theorem State.putPair_rdByte (lo hi : Reg) (i v : Nat) (ad : Nat) : (s.putPair lo hi i v).rdByte ad = s.rdByte ad := by simp only [State.rdByte, State.putPair_basin, State.putPair_reservoir]

@[simp] theorem State.bumpi_pending (f : Fld) (i n : Nat) : (s.bumpi f i n).pending = s.pending := State.puti_pending ..
@[simp] theorem State.bumpi_sel (f : Fld) (i n : Nat) : (s.bumpi f i n).sel = s.sel := State.puti_sel ..
@[simp] theorem State.bumpi_latched (f : Fld) (i n : Nat) : (s.bumpi f i n).latched = s.latched := State.puti_latched ..
@[simp] theorem State.bumpi_staged (f : Fld) (i n : Nat) : (s.bumpi f i n).staged = s.staged := State.puti_staged ..
@[simp] theorem State.bumpi_out (f : Fld) (i n : Nat) : (s.bumpi f i n).out = s.out := State.puti_out ..
@[simp] theorem State.bumpi_free (f : Fld) (i n : Nat) : (s.bumpi f i n).free = s.free := State.puti_free ..
@[simp] theorem State.bumpi_host (f : Fld) (i n : Nat) : (s.bumpi f i n).host = s.host := State.puti_host ..
@[simp] theorem State.bumpi_power (f : Fld) (i n : Nat) : (s.bumpi f i n).power = s.power := State.puti_power ..
@[simp] theorem State.bumpi_reservoir (f : Fld) (i n : Nat) : (s.bumpi f i n).reservoir = s.reservoir := State.puti_reservoir ..
@[simp] theorem State.bumpi_cascade (f : Fld) (i n : Nat) : (s.bumpi f i n).cascade = s.cascade := State.puti_cascade ..
@[simp] theorem State.bumpi_rills (f : Fld) (i n : Nat) : (s.bumpi f i n).rills = s.rills := State.puti_rills ..
@[simp] theorem State.bumpi_sluice (f : Fld) (i n : Nat) : (s.bumpi f i n).sluice = s.sluice := State.puti_sluice ..
@[simp] theorem State.bumpi_mirror (f : Fld) (i n : Nat) : (s.bumpi f i n).mirror = s.mirror := State.puti_mirror ..
@[simp] theorem State.bumpi_weir (f : Fld) (i n : Nat) : (s.bumpi f i n).weir = s.weir := State.puti_weir ..
@[simp] theorem State.bumpi_lock (f : Fld) (i n : Nat) : (s.bumpi f i n).lock = s.lock := State.puti_lock ..
@[simp] theorem State.bumpi_sundial (f : Fld) (i n : Nat) : (s.bumpi f i n).sundial = s.sundial := State.puti_sundial ..
@[simp] theorem State.bumpi_inlets (f : Fld) (i n : Nat) : (s.bumpi f i n).inlets = s.inlets := State.puti_inlets ..
@[simp] theorem State.bumpi_basin (f : Fld) (i n : Nat) : (s.bumpi f i n).basin = s.basin := State.puti_basin ..
@[simp] theorem State.bumpi_aqf (f : Fld) (i n : Nat) : (s.bumpi f i n).aqf = s.aqf := State.puti_aqf ..
@[simp] theorem State.bumpi_svc (f : Fld) (i n : Nat) : (s.bumpi f i n).svc = s.svc := State.puti_svc ..
@[simp] theorem State.bumpi_dbg (f : Fld) (i n : Nat) : (s.bumpi f i n).dbg = s.dbg := State.puti_dbg ..
@[simp] theorem State.bumpi_pebble (f : Fld) (i n : Nat) : (s.bumpi f i n).pebble = s.pebble := State.puti_pebble ..
@[simp] theorem State.bumpi_vocabs (f : Fld) (i n : Nat) : (s.bumpi f i n).vocabs = s.vocabs := State.puti_vocabs ..
@[simp] theorem State.bumpi_caches (f : Fld) (i n : Nat) : (s.bumpi f i n).caches = s.caches := State.puti_caches ..
@[simp] theorem State.bumpi_rdByte (f : Fld) (i n : Nat) (ad : Nat) : (s.bumpi f i n).rdByte ad = s.rdByte ad := by simp only [State.rdByte, State.bumpi_basin, State.bumpi_reservoir]

@[simp] theorem State.bump_pending (f : Fld) (n : Nat) : (s.bump f n).pending = s.pending := State.bumpi_pending ..
@[simp] theorem State.bump_sel (f : Fld) (n : Nat) : (s.bump f n).sel = s.sel := State.bumpi_sel ..
@[simp] theorem State.bump_latched (f : Fld) (n : Nat) : (s.bump f n).latched = s.latched := State.bumpi_latched ..
@[simp] theorem State.bump_staged (f : Fld) (n : Nat) : (s.bump f n).staged = s.staged := State.bumpi_staged ..
@[simp] theorem State.bump_out (f : Fld) (n : Nat) : (s.bump f n).out = s.out := State.bumpi_out ..
@[simp] theorem State.bump_free (f : Fld) (n : Nat) : (s.bump f n).free = s.free := State.bumpi_free ..
@[simp] theorem State.bump_host (f : Fld) (n : Nat) : (s.bump f n).host = s.host := State.bumpi_host ..
@[simp] theorem State.bump_power (f : Fld) (n : Nat) : (s.bump f n).power = s.power := State.bumpi_power ..
@[simp] theorem State.bump_reservoir (f : Fld) (n : Nat) : (s.bump f n).reservoir = s.reservoir := State.bumpi_reservoir ..
@[simp] theorem State.bump_cascade (f : Fld) (n : Nat) : (s.bump f n).cascade = s.cascade := State.bumpi_cascade ..
@[simp] theorem State.bump_rills (f : Fld) (n : Nat) : (s.bump f n).rills = s.rills := State.bumpi_rills ..
@[simp] theorem State.bump_sluice (f : Fld) (n : Nat) : (s.bump f n).sluice = s.sluice := State.bumpi_sluice ..
@[simp] theorem State.bump_mirror (f : Fld) (n : Nat) : (s.bump f n).mirror = s.mirror := State.bumpi_mirror ..
@[simp] theorem State.bump_weir (f : Fld) (n : Nat) : (s.bump f n).weir = s.weir := State.bumpi_weir ..
@[simp] theorem State.bump_lock (f : Fld) (n : Nat) : (s.bump f n).lock = s.lock := State.bumpi_lock ..
@[simp] theorem State.bump_sundial (f : Fld) (n : Nat) : (s.bump f n).sundial = s.sundial := State.bumpi_sundial ..
@[simp] theorem State.bump_inlets (f : Fld) (n : Nat) : (s.bump f n).inlets = s.inlets := State.bumpi_inlets ..
@[simp] theorem State.bump_basin (f : Fld) (n : Nat) : (s.bump f n).basin = s.basin := State.bumpi_basin ..
@[simp] theorem State.bump_aqf (f : Fld) (n : Nat) : (s.bump f n).aqf = s.aqf := State.bumpi_aqf ..
@[simp] theorem State.bump_svc (f : Fld) (n : Nat) : (s.bump f n).svc = s.svc := State.bumpi_svc ..
@[simp] theorem State.bump_dbg (f : Fld) (n : Nat) : (s.bump f n).dbg = s.dbg := State.bumpi_dbg ..
@[simp] theorem State.bump_pebble (f : Fld) (n : Nat) : (s.bump f n).pebble = s.pebble := State.bumpi_pebble ..
@[simp] theorem State.bump_vocabs (f : Fld) (n : Nat) : (s.bump f n).vocabs = s.vocabs := State.bumpi_vocabs ..
@[simp] theorem State.bump_caches (f : Fld) (n : Nat) : (s.bump f n).caches = s.caches := State.bumpi_caches ..
@[simp] theorem State.bump_rdByte (f : Fld) (n : Nat) (ad : Nat) : (s.bump f n).rdByte ad = s.rdByte ad := by simp only [State.rdByte, State.bump_basin, State.bump_reservoir]

@[simp] theorem State.bumpPair_pending (lo hi : Reg) (i n : Nat) : (s.bumpPair lo hi i n).pending = s.pending := State.putPair_pending ..
@[simp] theorem State.bumpPair_sel (lo hi : Reg) (i n : Nat) : (s.bumpPair lo hi i n).sel = s.sel := State.putPair_sel ..
@[simp] theorem State.bumpPair_latched (lo hi : Reg) (i n : Nat) : (s.bumpPair lo hi i n).latched = s.latched := State.putPair_latched ..
@[simp] theorem State.bumpPair_staged (lo hi : Reg) (i n : Nat) : (s.bumpPair lo hi i n).staged = s.staged := State.putPair_staged ..
@[simp] theorem State.bumpPair_out (lo hi : Reg) (i n : Nat) : (s.bumpPair lo hi i n).out = s.out := State.putPair_out ..
@[simp] theorem State.bumpPair_free (lo hi : Reg) (i n : Nat) : (s.bumpPair lo hi i n).free = s.free := State.putPair_free ..
@[simp] theorem State.bumpPair_host (lo hi : Reg) (i n : Nat) : (s.bumpPair lo hi i n).host = s.host := State.putPair_host ..
@[simp] theorem State.bumpPair_power (lo hi : Reg) (i n : Nat) : (s.bumpPair lo hi i n).power = s.power := State.putPair_power ..
@[simp] theorem State.bumpPair_reservoir (lo hi : Reg) (i n : Nat) : (s.bumpPair lo hi i n).reservoir = s.reservoir := State.putPair_reservoir ..
@[simp] theorem State.bumpPair_cascade (lo hi : Reg) (i n : Nat) : (s.bumpPair lo hi i n).cascade = s.cascade := State.putPair_cascade ..
@[simp] theorem State.bumpPair_rills (lo hi : Reg) (i n : Nat) : (s.bumpPair lo hi i n).rills = s.rills := State.putPair_rills ..
@[simp] theorem State.bumpPair_sluice (lo hi : Reg) (i n : Nat) : (s.bumpPair lo hi i n).sluice = s.sluice := State.putPair_sluice ..
@[simp] theorem State.bumpPair_mirror (lo hi : Reg) (i n : Nat) : (s.bumpPair lo hi i n).mirror = s.mirror := State.putPair_mirror ..
@[simp] theorem State.bumpPair_weir (lo hi : Reg) (i n : Nat) : (s.bumpPair lo hi i n).weir = s.weir := State.putPair_weir ..
@[simp] theorem State.bumpPair_lock (lo hi : Reg) (i n : Nat) : (s.bumpPair lo hi i n).lock = s.lock := State.putPair_lock ..
@[simp] theorem State.bumpPair_sundial (lo hi : Reg) (i n : Nat) : (s.bumpPair lo hi i n).sundial = s.sundial := State.putPair_sundial ..
@[simp] theorem State.bumpPair_inlets (lo hi : Reg) (i n : Nat) : (s.bumpPair lo hi i n).inlets = s.inlets := State.putPair_inlets ..
@[simp] theorem State.bumpPair_basin (lo hi : Reg) (i n : Nat) : (s.bumpPair lo hi i n).basin = s.basin := State.putPair_basin ..
@[simp] theorem State.bumpPair_aqf (lo hi : Reg) (i n : Nat) : (s.bumpPair lo hi i n).aqf = s.aqf := State.putPair_aqf ..
@[simp] theorem State.bumpPair_svc (lo hi : Reg) (i n : Nat) : (s.bumpPair lo hi i n).svc = s.svc := State.putPair_svc ..
@[simp] theorem State.bumpPair_dbg (lo hi : Reg) (i n : Nat) : (s.bumpPair lo hi i n).dbg = s.dbg := State.putPair_dbg ..
@[simp] theorem State.bumpPair_pebble (lo hi : Reg) (i n : Nat) : (s.bumpPair lo hi i n).pebble = s.pebble := State.putPair_pebble ..
@[simp] theorem State.bumpPair_vocabs (lo hi : Reg) (i n : Nat) : (s.bumpPair lo hi i n).vocabs = s.vocabs := State.putPair_vocabs ..
@[simp] theorem State.bumpPair_caches (lo hi : Reg) (i n : Nat) : (s.bumpPair lo hi i n).caches = s.caches := State.putPair_caches ..
@[simp] theorem State.bumpPair_rdByte (lo hi : Reg) (i n : Nat) (ad : Nat) : (s.bumpPair lo hi i n).rdByte ad = s.rdByte ad := by simp only [State.rdByte, State.bumpPair_basin, State.bumpPair_reservoir]

@[simp] theorem State.swWrite_pending (r : Reg) (i : Nat) (w : Word) : (s.swWrite r i w).pending = s.pending := State.setWord_pending ..
@[simp] theorem State.swWrite_sel (r : Reg) (i : Nat) (w : Word) : (s.swWrite r i w).sel = s.sel := State.setWord_sel ..
@[simp] theorem State.swWrite_latched (r : Reg) (i : Nat) (w : Word) : (s.swWrite r i w).latched = s.latched := State.setWord_latched ..
@[simp] theorem State.swWrite_staged (r : Reg) (i : Nat) (w : Word) : (s.swWrite r i w).staged = s.staged := State.setWord_staged ..
@[simp] theorem State.swWrite_out (r : Reg) (i : Nat) (w : Word) : (s.swWrite r i w).out = s.out := State.setWord_out ..
@[simp] theorem State.swWrite_free (r : Reg) (i : Nat) (w : Word) : (s.swWrite r i w).free = s.free := State.setWord_free ..
@[simp] theorem State.swWrite_host (r : Reg) (i : Nat) (w : Word) : (s.swWrite r i w).host = s.host := State.setWord_host ..
@[simp] theorem State.swWrite_power (r : Reg) (i : Nat) (w : Word) : (s.swWrite r i w).power = s.power := State.setWord_power ..
@[simp] theorem State.swWrite_reservoir (r : Reg) (i : Nat) (w : Word) : (s.swWrite r i w).reservoir = s.reservoir := State.setWord_reservoir ..
@[simp] theorem State.swWrite_cascade (r : Reg) (i : Nat) (w : Word) : (s.swWrite r i w).cascade = s.cascade := State.setWord_cascade ..
@[simp] theorem State.swWrite_rills (r : Reg) (i : Nat) (w : Word) : (s.swWrite r i w).rills = s.rills := State.setWord_rills ..
@[simp] theorem State.swWrite_sluice (r : Reg) (i : Nat) (w : Word) : (s.swWrite r i w).sluice = s.sluice := State.setWord_sluice ..
@[simp] theorem State.swWrite_mirror (r : Reg) (i : Nat) (w : Word) : (s.swWrite r i w).mirror = s.mirror := State.setWord_mirror ..
@[simp] theorem State.swWrite_weir (r : Reg) (i : Nat) (w : Word) : (s.swWrite r i w).weir = s.weir := State.setWord_weir ..
@[simp] theorem State.swWrite_lock (r : Reg) (i : Nat) (w : Word) : (s.swWrite r i w).lock = s.lock := State.setWord_lock ..
@[simp] theorem State.swWrite_sundial (r : Reg) (i : Nat) (w : Word) : (s.swWrite r i w).sundial = s.sundial := State.setWord_sundial ..
@[simp] theorem State.swWrite_inlets (r : Reg) (i : Nat) (w : Word) : (s.swWrite r i w).inlets = s.inlets := State.setWord_inlets ..
@[simp] theorem State.swWrite_basin (r : Reg) (i : Nat) (w : Word) : (s.swWrite r i w).basin = s.basin := State.setWord_basin ..
@[simp] theorem State.swWrite_aqf (r : Reg) (i : Nat) (w : Word) : (s.swWrite r i w).aqf = s.aqf := State.setWord_aqf ..
@[simp] theorem State.swWrite_svc (r : Reg) (i : Nat) (w : Word) : (s.swWrite r i w).svc = s.svc := State.setWord_svc ..
@[simp] theorem State.swWrite_dbg (r : Reg) (i : Nat) (w : Word) : (s.swWrite r i w).dbg = s.dbg := State.setWord_dbg ..
@[simp] theorem State.swWrite_pebble (r : Reg) (i : Nat) (w : Word) : (s.swWrite r i w).pebble = s.pebble := State.setWord_pebble ..
@[simp] theorem State.swWrite_vocabs (r : Reg) (i : Nat) (w : Word) : (s.swWrite r i w).vocabs = s.vocabs := State.setWord_vocabs ..
@[simp] theorem State.swWrite_caches (r : Reg) (i : Nat) (w : Word) : (s.swWrite r i w).caches = s.caches := State.setWord_caches ..
@[simp] theorem State.swWrite_rdByte (r : Reg) (i : Nat) (w : Word) (ad : Nat) : (s.swWrite r i w).rdByte ad = s.rdByte ad := by simp only [State.rdByte, State.swWrite_basin, State.swWrite_reservoir]

end Sys2Proof.Machine
end

