-- ==== Sys2Proof/Laws/Finish.lean ====
section
/-! SUPPORT. What ends a command: a vector that is signalled leaves as a message or sets its pending bit, and nothing else of the
state changes. -/
namespace Sys2Proof.Machine

variable (b s : State)

/-- A signal changes what has left the block or the pending bits. -/
theorem State.signal_eq (v : Nat) :
    s.signal v = { s with out := (s.signal v).out, host := { s.host with pba := (s.signal v).host.pba } } := by
  unfold State.signal; split <;> rfl

theorem signals_eq (l : List Nat) : l.foldl State.signal s =
    { s with out := (l.foldl State.signal s).out, host := { s.host with pba := (l.foldl State.signal s).host.pba } } := by
  induction l generalizing s with
  | nil => rfl
  | cons v l ih =>
    simp only [List.foldl_cons]
    rw [ih, s.signal_eq v]

theorem finish_eq : finish b s = { s with out := (finish b s).out, host := { s.host with pba := (finish b s).host.pba } } :=
  signals_eq _ _

@[simp] theorem finish_pending : (finish b s).pending = s.pending := by rw [finish_eq]
@[simp] theorem finish_regs : (finish b s).regs = s.regs := by rw [finish_eq]
@[simp] theorem finish_sel : (finish b s).sel = s.sel := by rw [finish_eq]
@[simp] theorem finish_latched : (finish b s).latched = s.latched := by rw [finish_eq]
@[simp] theorem finish_staged : (finish b s).staged = s.staged := by rw [finish_eq]
@[simp] theorem finish_free : (finish b s).free = s.free := by rw [finish_eq]
@[simp] theorem finish_power : (finish b s).power = s.power := by rw [finish_eq]
@[simp] theorem finish_reservoir : (finish b s).reservoir = s.reservoir := by rw [finish_eq]
@[simp] theorem finish_cascade : (finish b s).cascade = s.cascade := by rw [finish_eq]
@[simp] theorem finish_rills : (finish b s).rills = s.rills := by rw [finish_eq]
@[simp] theorem finish_sluice : (finish b s).sluice = s.sluice := by rw [finish_eq]
@[simp] theorem finish_mirror : (finish b s).mirror = s.mirror := by rw [finish_eq]
@[simp] theorem finish_weir : (finish b s).weir = s.weir := by rw [finish_eq]
@[simp] theorem finish_lock : (finish b s).lock = s.lock := by rw [finish_eq]
@[simp] theorem finish_sundial : (finish b s).sundial = s.sundial := by rw [finish_eq]
@[simp] theorem finish_inlets : (finish b s).inlets = s.inlets := by rw [finish_eq]
@[simp] theorem finish_basin : (finish b s).basin = s.basin := by rw [finish_eq]
@[simp] theorem finish_aqf : (finish b s).aqf = s.aqf := by rw [finish_eq]
@[simp] theorem finish_svc : (finish b s).svc = s.svc := by rw [finish_eq]
@[simp] theorem finish_dbg : (finish b s).dbg = s.dbg := by rw [finish_eq]
@[simp] theorem finish_pebble : (finish b s).pebble = s.pebble := by rw [finish_eq]
@[simp] theorem finish_vocabs : (finish b s).vocabs = s.vocabs := by rw [finish_eq]
@[simp] theorem finish_caches : (finish b s).caches = s.caches := by rw [finish_eq]
@[simp] theorem finish_word (r : Reg) (i : Nat) : (finish b s).word r i = s.word r i := by simp only [State.word, finish_regs]
@[simp] theorem finish_geti (f : Fld) (i : Nat) : (finish b s).geti f i = s.geti f i := by simp only [State.geti, finish_word]
@[simp] theorem finish_get (f : Fld) : (finish b s).get f = s.get f := finish_geti ..
@[simp] theorem finish_rdByte (a : Nat) : (finish b s).rdByte a = s.rdByte a := by
  simp only [State.rdByte, finish_basin, finish_reservoir]
@[simp] theorem finish_queues : (finish b s).host.queues = s.host.queues := by rw [finish_eq]
@[simp] theorem finish_tasks : (finish b s).host.tasks = s.host.tasks := by rw [finish_eq]

/-- A command that changes nothing signals nothing. -/
@[simp] theorem finish_self : finish s s = s := by
  unfold finish
  have h : s.raised.filter (fun v => !s.raised.contains v) = [] := by
    rw [List.filter_eq_nil_iff]
    intro v hv
    simpa using hv
  simp only [h, List.foldl_nil]

/-- What has left the block stays first. -/
theorem finish_out : ∃ l, (finish b s).out = s.out ++ l := by
  suffices h : ∀ (l : List Nat) (s : State), ∃ k, (l.foldl State.signal s).out = s.out ++ k from h _ _
  intro l
  induction l with
  | nil => exact fun s => ⟨[], (List.append_nil _).symm⟩
  | cons v l ih =>
    intro s
    obtain ⟨k, hk⟩ := ih (s.signal v)
    simp only [List.foldl_cons]
    have hs : ∃ k, (s.signal v).out = s.out ++ k := by
      unfold State.signal
      split
      · exact ⟨_, rfl⟩
      · exact ⟨[], (List.append_nil _).symm⟩
    obtain ⟨j, hj⟩ := hs
    exact ⟨j ++ k, by rw [hk, hj, List.append_assoc]⟩

end Sys2Proof.Machine
end

