-- ==== Sys2Proof/Laws/WithinBase.lean ====
section
/-! SUPPORT. What an operation can change: a state lies within a set of parts of another when it is sound and every other
part is as it was. A set of parts is a number whose bits name its parts. -/
namespace Sys2Proof

/-- The bit of a part. -/
def Region.bit (p : Region) : Nat :=
  match p with
  | .reg r => r.ctorIdx
  | .memory => 400
  | .pending => 401
  | .sel => 402
  | .latched => 403
  | .staged => 404
  | .out => 405
  | .free => 406
  | .host => 407
  | .power => 408
  | .cascade => 409
  | .rills => 410
  | .sluice => 411
  | .mirror => 412
  | .weir => 413
  | .lock => 414
  | .sundial => 415
  | .inlets => 416
  | .basin => 417
  | .aqf => 418
  | .svc => 419
  | .dbg => 420
  | .pebble => 421
  | .vocabs => 422
  | .caches => 423

namespace Machine

/-- A set of parts lies in another. -/
abbrev Sub (a b : Nat) : Prop := a &&& b = a

theorem Sub.refl (a : Nat) : Sub a a := Nat.and_self a

theorem Sub.up {a b m : Nat} (hm : Sub b m) (h : Sub a b) : Sub a m := by
  apply Nat.eq_of_testBit_eq
  intro i
  have h1 := congrArg (·.testBit i) hm
  have h2 := congrArg (·.testBit i) h
  simp only [Nat.testBit_and] at h1 h2 ⊢
  cases ha : a.testBit i <;> simp_all

theorem Sub.bit {a m k : Nat} (hm : Sub a m) (h : a.testBit k = true) : m.testBit k = true := by
  have h1 := congrArg (·.testBit k) hm
  simp only [Nat.testBit_and, h, Bool.true_and] at h1
  exact h1

theorem Sub.reg {m : Nat} (hm : Sub 0xFFFFFD00000000000FFFFFFFFFFFFFFFFFFFFFFFFFFFFFFFFFFFFFFFFFFFFFFFFFFFFFFFFFFFFFFFFFFFFFFFFFFFFFFFFFFFFFFFFF m) (r : Reg) : m.testBit r.ctorIdx = true :=
  Sub.bit hm (by cases r <;> rfl)

/-- A state is sound, and differs from `s₀` in the parts of `m` at most. -/
structure Within (m : Nat) (s₀ s : State) : Prop where
  sound : Sound s
  same : ∀ p : Region, m.testBit p.bit = false → p.same s₀ s

variable {m : Nat} {s₀ s : State}

theorem Within.start (h : Sound s) : Within m s s where
  sound := h
  same := by intro p _; cases p <;> simp [Region.same]

theorem Region.same_trans {p : Region} {a b c : State} (h : p.same a b) (k : p.same b c) : p.same a c := by
  cases p <;> simp only [Region.same] at h k ⊢
  case reg => exact fun i hi => (k i hi).trans (h i hi)
  case memory => exact fun i => (k i).trans (h i)
  all_goals exact k.trans h

theorem Within.trans {t : State} (h : Within m s₀ s) (k : Within m s t) : Within m s₀ t where
  sound := k.sound
  same := fun p hp => Region.same_trans (h.same p hp) (k.same p hp)

/-- A changed record lies within when each changed part is one of `m` and the counts stay. -/
theorem within_mk (h : Within m s₀ s) {pending sel latched staged out free host power cascade rills sluice mirror weir lock
    sundial inlets basin aqf svc dbg pebble vocabs caches} (h3 : (basin.stale, basin.hostGen, basin.hostMem) = (s.basin.stale, s.basin.hostGen, s.basin.hostMem))
    (l1 : rills.length = s.rills.length)
    (l2 : sluice.slots.length = s.sluice.slots.length) (l3 : inlets.length = s.inlets.length)
    (l4 : host.queues.length = s.host.queues.length) (l5 : cascade.slots.length = s.cascade.slots.length)
    (l6 : weir.spouts.length = s.weir.spouts.length) (l7 : vocabs.length = s.vocabs.length)
    (l8 : caches.length = s.caches.length) (l9 : svc.slots.length = s.svc.slots.length)
    (l10 : dbg.watch.length = s.dbg.watch.length)
    (c0 : pending = s.pending ∨ m.testBit 401 = true)
    (c1 : sel = s.sel ∨ m.testBit 402 = true)
    (c2 : latched = s.latched ∨ m.testBit 403 = true)
    (c3 : staged = s.staged ∨ m.testBit 404 = true)
    (c4 : out = s.out ∨ m.testBit 405 = true)
    (c5 : free = s.free ∨ m.testBit 406 = true)
    (c6 : host = s.host ∨ m.testBit 407 = true)
    (c7 : power = s.power ∨ m.testBit 408 = true)
    (c8 : cascade = s.cascade ∨ m.testBit 409 = true)
    (c9 : rills = s.rills ∨ m.testBit 410 = true)
    (c10 : sluice = s.sluice ∨ m.testBit 411 = true)
    (c11 : mirror = s.mirror ∨ m.testBit 412 = true)
    (c12 : weir = s.weir ∨ m.testBit 413 = true)
    (c13 : lock = s.lock ∨ m.testBit 414 = true)
    (c14 : sundial = s.sundial ∨ m.testBit 415 = true)
    (c15 : inlets = s.inlets ∨ m.testBit 416 = true)
    (c16 : basin = s.basin ∨ m.testBit 417 = true)
    (c17 : aqf = s.aqf ∨ m.testBit 418 = true)
    (c18 : svc = s.svc ∨ m.testBit 419 = true)
    (c19 : dbg = s.dbg ∨ m.testBit 420 = true)
    (c20 : pebble = s.pebble ∨ m.testBit 421 = true)
    (c21 : vocabs = s.vocabs ∨ m.testBit 422 = true)
    (c22 : caches = s.caches ∨ m.testBit 423 = true) :
    Within m s₀ ⟨pending, s.regs, sel, latched, staged, out, free, host, power, s.reservoir, cascade, rills, sluice, mirror, weir,
      lock, sundial, inlets, basin, aqf, svc, dbg, pebble, vocabs, caches⟩ where
  sound := ⟨h.sound.regs, h.sound.entries, by rw [(Prod.mk.inj h3).1]; exact h.sound.mem,
    by rw [(Prod.mk.inj (Prod.mk.inj h3).2).1, (Prod.mk.inj (Prod.mk.inj h3).2).2]; exact h.sound.region, l1.trans h.sound.rills, l2.trans h.sound.slots, l3.trans h.sound.inlets,
    l4.trans h.sound.queues, l5.trans h.sound.weaves, l6.trans h.sound.spouts, l7.trans h.sound.vocabs, l8.trans h.sound.caches,
    l9.trans h.sound.images, l10.trans h.sound.watch⟩
  same := by
    intro p hp
    refine Region.same_trans (h.same p hp) ?_
    cases p <;> simp only [Region.same, Region.bit] at hp ⊢
    case reg => exact fun _ _ => rfl
    case memory => exact fun a => by simp only [State.rdByte, (Prod.mk.inj h3).1]
    case pending => exact c0.resolve_right (by simp [hp])
    case sel => exact c1.resolve_right (by simp [hp])
    case latched => exact c2.resolve_right (by simp [hp])
    case staged => exact c3.resolve_right (by simp [hp])
    case out => exact c4.resolve_right (by simp [hp])
    case free => exact c5.resolve_right (by simp [hp])
    case host => exact c6.resolve_right (by simp [hp])
    case power => exact c7.resolve_right (by simp [hp])
    case cascade => exact c8.resolve_right (by simp [hp])
    case rills => exact c9.resolve_right (by simp [hp])
    case sluice => exact c10.resolve_right (by simp [hp])
    case mirror => exact c11.resolve_right (by simp [hp])
    case weir => exact c12.resolve_right (by simp [hp])
    case lock => exact c13.resolve_right (by simp [hp])
    case sundial => exact c14.resolve_right (by simp [hp])
    case inlets => exact c15.resolve_right (by simp [hp])
    case basin => exact c16.resolve_right (by simp [hp])
    case aqf => exact c17.resolve_right (by simp [hp])
    case svc => exact c18.resolve_right (by simp [hp])
    case dbg => exact c19.resolve_right (by simp [hp])
    case pebble => exact c20.resolve_right (by simp [hp])
    case vocabs => exact c21.resolve_right (by simp [hp])
    case caches => exact c22.resolve_right (by simp [hp])

theorem within_ite {c : Prop} [Decidable c] {a b : State} (ha : c → Within m s₀ a) (hb : ¬ c → Within m s₀ b) :
    Within m s₀ (if c then a else b) := by
  split
  · exact ha ‹_›
  · exact hb ‹_›

theorem within_of_snd {α : Type} {p : α × State} {a : α} {t : State} (e : p = (a, t)) (h : Within m s₀ p.2) : Within m s₀ t := by
  rw [e] at h; exact h

theorem within_of_fst {α : Type} {p : State × α} {a : α} {t : State} (e : p = (t, a)) (h : Within m s₀ p.1) : Within m s₀ t := by
  rw [e] at h; exact h

/-- What is shown of a value may be cut off before the rest is shown. -/
theorem within_cut {G : Prop} {m : Nat} {s₀ : State} (x : State) (a : Within m s₀ x) (b : Within m s₀ x → G) : G := b a

theorem State.setWord_entries {r : Reg} {i : Nat} {w : Word} (h : ∀ e ∈ s.regs, e.1.2 < e.1.1.entries) :
    ∀ e ∈ (s.setWord r i w).regs, e.1.2 < e.1.1.entries := by
  unfold State.setWord
  split
  · intro e he
    simp only [assocPut] at he
    split at he
    · exact h e (mem_assocDel _ he).1
    · rcases mem_assocIns _ he with rfl | he
      · assumption
      · exact h e (mem_assocDel _ he).1
  · exact h

theorem within_State_setWord (hs : Within m s₀ s) (r : Reg) (i : Nat) (w : Word) (hr : m.testBit r.ctorIdx = true) :
    Within m s₀ (s.setWord r i w) := by
  refine hs.trans ⟨?_, ?_⟩
  · rw [State.setWord_eq]
    exact { hs.sound with regs := State.setWord_wf s i r w hs.sound.regs, entries := State.setWord_entries hs.sound.entries }
  · intro p hp
    rw [State.setWord_eq]
    cases p <;> simp only [Region.same] <;> try rfl
    case reg r' =>
      intro j hj
      have hne : r' ≠ r := by
        rintro rfl
        simp only [Region.bit, hr] at hp
        cases hp
      exact State.word_setWord_of_reg _ _ _ _ _ _ hne (Nat.lt_of_lt_of_le hj (Reg.entries_le r'))
    case memory => exact fun _ => rfl

theorem within_State_wrByte (hs : Within m s₀ s) (a : Nat) (b : Byte) (hm : m.testBit 400 = true) : Within m s₀ (s.wrByte a b) := by
  refine hs.trans ⟨{ hs.sound with mem := assocWf_put _ _ hs.sound.mem }, ?_⟩
  intro p hp
  cases p <;> simp only [Region.same] <;> try rfl
  case reg => exact fun _ _ => rfl
  case memory => simp [Region.bit, hm] at hp

theorem within_State_wrBytes (hs : Within m s₀ s) (a : Nat) (bs : List Byte) (hm : m.testBit 400 = true) :
    Within m s₀ (s.wrBytes a bs) := by
  induction bs generalizing s a with
  | nil => exact hs
  | cons b bs ih => exact ih (within_State_wrByte hs a b hm) _

theorem stale_foldl_other {n b : Nat} : ∀ {banks : List Nat} {l : List (Nat × Nat)}, b ∉ banks →
    assocGet id b (banks.foldl (fun l b => assocIns id b n (assocDel id b l)) l) = assocGet id b l
  | [], _, _ => rfl
  | c :: banks, l, h => by
    simp only [List.mem_cons, not_or] at h
    rw [List.foldl_cons, stale_foldl_other h.2, assocGet_ins_other id c n _ h.1, assocGet_del_other id c l h.1]

theorem within_State_loseBanks (hs : Within m s₀ s) (banks : List Nat) (h1 : m.testBit 400 = true) (h2 : m.testBit 406 = true)
    (h3 : m.testBit 417 = true) : Within m s₀ (s.loseBanks banks) := by
  refine hs.trans ⟨{ hs.sound with mem := ?_ }, ?_⟩
  · refine assocWf_congr _ (memDflt s.basin.stale) ?_ (assocWf_filter _ _ hs.sound.mem)
    intro e he
    have hb : e.1 / 262144 ∉ banks := by simpa using (List.mem_filter.1 he).2
    simp only [memDflt, State.loseBanks, stale_foldl_other hb]
  · intro p hp
    cases p <;> simp only [Region.same] <;> try rfl
    case reg => exact fun _ _ => rfl
    all_goals simp [Region.bit, h1, h2, h3] at hp

theorem within_State_modRill (hs : Within m s₀ s) (r : Nat) (f : RillSt → RillSt) (hm : m.testBit 410 = true) :
    Within m s₀ (s.modRill r f) := by
  refine hs.trans ⟨{ hs.sound with rills := (modAt_length f r s.rills).trans hs.sound.rills }, ?_⟩
  intro p hp
  cases p <;> simp only [Region.same] <;> try rfl
  case reg => exact fun _ _ => rfl
  case memory => exact fun _ => rfl
  case rills => simp [Region.bit, hm] at hp

theorem within_State_modSlot (hs : Within m s₀ s) (k : Nat) (f : PlanSlot → PlanSlot) (hm : m.testBit 411 = true) :
    Within m s₀ (s.modSlot k f) := by
  refine hs.trans ⟨{ hs.sound with slots := (modAt_length f k s.sluice.slots).trans hs.sound.slots }, ?_⟩
  intro p hp
  cases p <;> simp only [Region.same] <;> try rfl
  case reg => exact fun _ _ => rfl
  case memory => exact fun _ => rfl
  case sluice => simp [Region.bit, hm] at hp

theorem within_foldl {α : Type} {f : State → α → State} (hf : ∀ s x, Within m s₀ s → Within m s₀ (f s x)) {l : List α}
    (hs : Within m s₀ s) : Within m s₀ (l.foldl f s) := by
  induction l generalizing s with
  | nil => exact hs
  | cons x l ih => exact ih (hf s x hs)

theorem within_State_each (hs : Within m s₀ s) (n : Nat) (f : Nat → State → State)
    (hf : ∀ i s, Within m s₀ s → Within m s₀ (f i s)) : Within m s₀ (s.each n f) :=
  within_foldl (fun s i hs => hf i s hs) hs

end Machine
end Sys2Proof
end

