-- ==== Sys2Proof/Laws/Memory.lean ====
section
/-! SUPPORT. Laws of the Reservoir store: what a byte reads as after each operation, and that each keeps the canonical form. -/
namespace Sys2Proof.Machine

variable (s : State)

theorem State.rdByte_wrByte_same (a : Nat) (b : Byte) : (s.wrByte a b).rdByte a = b := by
  simp only [State.rdByte, State.wrByte, assocRead_put_same]

theorem State.rdByte_wrByte_other {a x : Nat} (b : Byte) (h : x ≠ a) : (s.wrByte a b).rdByte x = s.rdByte x := by
  simp only [State.rdByte, State.wrByte]
  exact assocRead_put_other _ _ _ _ _ (fun e => h e)

/-- A store of bytes leaves every other address as it was. -/
theorem State.rdByte_wrBytes_other {bs : List Byte} {a x : Nat} (h : x < a ∨ a + bs.length ≤ x) :
    (s.wrBytes a bs).rdByte x = s.rdByte x := by
  induction bs generalizing s a with
  | nil => rfl
  | cons b bs ih =>
    simp only [List.length_cons] at h
    rw [State.wrBytes, ih _ (by omega), s.rdByte_wrByte_other b (by omega)]

/-- A store of bytes changes Reservoir and nothing else. -/
theorem State.wrBytes_eq (a : Nat) (bs : List Byte) : s.wrBytes a bs = { s with reservoir := (s.wrBytes a bs).reservoir } := by
  induction bs generalizing s a with
  | nil => rfl
  | cons b bs ih => exact ih (s.wrByte a b) (a + 1)

@[simp] theorem State.wrBytes_pending (a : Nat) (bs : List Byte) : (s.wrBytes a bs).pending = s.pending := by rw [State.wrBytes_eq]
@[simp] theorem State.wrBytes_regs (a : Nat) (bs : List Byte) : (s.wrBytes a bs).regs = s.regs := by rw [State.wrBytes_eq]
@[simp] theorem State.wrBytes_sel (a : Nat) (bs : List Byte) : (s.wrBytes a bs).sel = s.sel := by rw [State.wrBytes_eq]
@[simp] theorem State.wrBytes_latched (a : Nat) (bs : List Byte) : (s.wrBytes a bs).latched = s.latched := by rw [State.wrBytes_eq]
@[simp] theorem State.wrBytes_staged (a : Nat) (bs : List Byte) : (s.wrBytes a bs).staged = s.staged := by rw [State.wrBytes_eq]
@[simp] theorem State.wrBytes_out (a : Nat) (bs : List Byte) : (s.wrBytes a bs).out = s.out := by rw [State.wrBytes_eq]
@[simp] theorem State.wrBytes_free (a : Nat) (bs : List Byte) : (s.wrBytes a bs).free = s.free := by rw [State.wrBytes_eq]
@[simp] theorem State.wrBytes_host (a : Nat) (bs : List Byte) : (s.wrBytes a bs).host = s.host := by rw [State.wrBytes_eq]
@[simp] theorem State.wrBytes_power (a : Nat) (bs : List Byte) : (s.wrBytes a bs).power = s.power := by rw [State.wrBytes_eq]
@[simp] theorem State.wrBytes_cascade (a : Nat) (bs : List Byte) : (s.wrBytes a bs).cascade = s.cascade := by rw [State.wrBytes_eq]
@[simp] theorem State.wrBytes_rills (a : Nat) (bs : List Byte) : (s.wrBytes a bs).rills = s.rills := by rw [State.wrBytes_eq]
@[simp] theorem State.wrBytes_sluice (a : Nat) (bs : List Byte) : (s.wrBytes a bs).sluice = s.sluice := by rw [State.wrBytes_eq]
@[simp] theorem State.wrBytes_mirror (a : Nat) (bs : List Byte) : (s.wrBytes a bs).mirror = s.mirror := by rw [State.wrBytes_eq]
@[simp] theorem State.wrBytes_weir (a : Nat) (bs : List Byte) : (s.wrBytes a bs).weir = s.weir := by rw [State.wrBytes_eq]
@[simp] theorem State.wrBytes_lock (a : Nat) (bs : List Byte) : (s.wrBytes a bs).lock = s.lock := by rw [State.wrBytes_eq]
@[simp] theorem State.wrBytes_sundial (a : Nat) (bs : List Byte) : (s.wrBytes a bs).sundial = s.sundial := by rw [State.wrBytes_eq]
@[simp] theorem State.wrBytes_inlets (a : Nat) (bs : List Byte) : (s.wrBytes a bs).inlets = s.inlets := by rw [State.wrBytes_eq]
@[simp] theorem State.wrBytes_basin (a : Nat) (bs : List Byte) : (s.wrBytes a bs).basin = s.basin := by rw [State.wrBytes_eq]
@[simp] theorem State.wrBytes_aqf (a : Nat) (bs : List Byte) : (s.wrBytes a bs).aqf = s.aqf := by rw [State.wrBytes_eq]
@[simp] theorem State.wrBytes_svc (a : Nat) (bs : List Byte) : (s.wrBytes a bs).svc = s.svc := by rw [State.wrBytes_eq]
@[simp] theorem State.wrBytes_dbg (a : Nat) (bs : List Byte) : (s.wrBytes a bs).dbg = s.dbg := by rw [State.wrBytes_eq]
@[simp] theorem State.wrBytes_pebble (a : Nat) (bs : List Byte) : (s.wrBytes a bs).pebble = s.pebble := by rw [State.wrBytes_eq]
@[simp] theorem State.wrBytes_vocabs (a : Nat) (bs : List Byte) : (s.wrBytes a bs).vocabs = s.vocabs := by rw [State.wrBytes_eq]
@[simp] theorem State.wrBytes_caches (a : Nat) (bs : List Byte) : (s.wrBytes a bs).caches = s.caches := by rw [State.wrBytes_eq]
@[simp] theorem State.wrBytes_word (a : Nat) (bs : List Byte) (r : Reg) (i : Nat) : (s.wrBytes a bs).word r i = s.word r i := by
  simp only [State.word, State.wrBytes_regs]

/-- A store of bytes is read back. -/
theorem State.rdByte_wrBytes_same {bs : List Byte} {a i : Nat} (h : i < bs.length) :
    (s.wrBytes a bs).rdByte (a + i) = bs.getD i 0#8 := by
  induction bs generalizing s a i with
  | nil => cases h
  | cons b bs ih =>
    rw [State.wrBytes]
    cases i with
    | zero => exact (State.rdByte_wrBytes_other _ (by omega)).trans (s.rdByte_wrByte_same a b)
    | succ i =>
      rw [show a + (i + 1) = a + 1 + i by omega, ih _ (by simpa using h)]
      rfl

theorem State.wrByte_wf (a : Nat) (b : Byte) (h : Memory.wf s.basin.stale s.reservoir = true) :
    Memory.wf (s.wrByte a b).basin.stale (s.wrByte a b).reservoir = true := assocWf_put _ _ h

theorem State.wrBytes_wf (a : Nat) (bs : List Byte) (h : Memory.wf s.basin.stale s.reservoir = true) :
    Memory.wf (s.wrBytes a bs).basin.stale (s.wrBytes a bs).reservoir = true := by
  induction bs generalizing s a with
  | nil => exact h
  | cons b bs ih => exact ih _ _ (s.wrByte_wf a b h)

theorem State.loseBanks_wf (l : List Nat) (h : Memory.wf s.basin.stale s.reservoir = true) :
    Memory.wf (s.loseBanks l).basin.stale (s.loseBanks l).reservoir = true := by
  refine assocWf_congr _ (memDflt s.basin.stale) ?_ (assocWf_filter _ _ h)
  intro e he
  have hb : e.1 / 262144 ∉ l := by simpa using (List.mem_filter.1 he).2
  simp only [memDflt, State.loseBanks, stale_foldl_other hb]

/-- The banks that are not lost keep their bytes. -/
theorem State.rdByte_loseBanks_other {l : List Nat} {x : Nat} (h : x / 262144 ∉ l) : (s.loseBanks l).rdByte x = s.rdByte x := by
  have hd : memDflt (s.loseBanks l).basin.stale x = memDflt s.basin.stale x := by
    simp only [memDflt, State.loseBanks, stale_foldl_other h]
  simp only [State.rdByte, assocRead, hd]
  have hg : assocGet id x (s.loseBanks l).reservoir = assocGet id x s.reservoir := by
    show assocGet id x (s.reservoir.filter _) = _
    exact assocGet_filter id (fun e _ he => by simp only [id] at he; rw [← he]; simpa using h)
  rw [hg]

end Sys2Proof.Machine
end

