-- ==== Sys2Proof/Laws/Fields.lean ====
section
/-! SUPPORT. What a field or a register reads as after the named operations, in the form in which a proof uses it: every side
condition about named fields is decided. -/
namespace Sys2Proof.Machine

variable (s : State) (f g : Fld) (i j v : Nat)

theorem State.geti_puti_same (h : i < f.reg.entries) (hb : f.hi < 32) : (s.puti f i v).geti f i = v % 2 ^ (f.hi + 1 - f.lo) :=
  s.geti_puti f i v h hb

theorem State.geti_puti_other (h : g.reg ≠ f.reg ∨ g.hi < f.lo ∨ f.hi < g.lo ∨ j ≠ i) (hj : j < 131072) :
    (s.puti f i v).geti g j = s.geti g j := by
  by_cases hr : g.reg = f.reg
  · by_cases hi : j = i
    · subst hi
      refine s.geti_puti_beside f g j v ?_ hr
      rcases h with h | h | h | h
      · exact absurd hr h
      · exact .inl h
      · exact .inr h
      · exact absurd rfl h
    · exact s.geti_puti_entry f g i j v hi hj
  · exact s.geti_puti_reg f g i j v hr hj

theorem State.word_puti_other (r : Reg) (h : r ≠ f.reg ∨ j ≠ i) (hj : j < 131072) : (s.puti f i v).word r j = s.word r j :=
  s.word_setWord_other _ _ _ _ _ (fun e => h.elim (fun a => a e.1) (fun a => a e.2)) hj

theorem State.geti_setWord_same (w : Word) (h : i < f.reg.entries) : (s.setWord f.reg i w).geti f i = f.get w := by
  rw [State.geti, State.word_setWord_same _ _ _ _ h]

theorem State.geti_setWord_other (r : Reg) (w : Word) (h : f.reg ≠ r ∨ j ≠ i) (hj : j < 131072) : (s.setWord r i w).geti f j = s.geti f j := by
  rw [State.geti, State.word_setWord_other _ _ _ _ _ _ (fun e => h.elim (fun a => a e.1) (fun a => a e.2)) hj]
  rfl

theorem State.put_def : s.put f v = s.puti f 0 v := (rfl)
theorem State.ev_def : s.ev f = s.puti f 0 1 := (rfl)
theorem State.evi_def : s.evi f i = s.puti f i 1 := (rfl)
theorem State.putb_def (b : Bool) : s.putb f b = s.puti f 0 (if b then 1 else 0) := (rfl)
theorem State.get_def : s.get f = s.geti f 0 := (rfl)
theorem State.ison_def : s.ison f = (s.geti f 0 == 1) := (rfl)
theorem State.isoni_def : s.isoni f i = (s.geti f i == 1) := (rfl)

theorem State.geti_bumpi (n : Nat) (hi : i < f.reg.entries) (hb : f.hi < 32) :
    (s.bumpi f i n).geti f i = min (s.geti f i + n) (2 ^ (f.hi + 1 - f.lo) - 1) := by
  rw [State.bumpi, State.geti_puti _ _ _ _ hi hb, Nat.mod_eq_of_lt]
  have := Nat.two_pow_pos (f.hi + 1 - f.lo)
  omega

theorem State.geti_bumpi_other (n : Nat) (h : g.reg ≠ f.reg ∨ g.hi < f.lo ∨ f.hi < g.lo ∨ j ≠ i) (hj : j < 131072) :
    (s.bumpi f i n).geti g j = s.geti g j := State.geti_puti_other _ _ _ _ _ _ h hj

/-- A pair reads back what was put into it, cut to 64 bits. -/
theorem State.pair_putPair (lo hi : Reg) (n : Nat) (h : lo ≠ hi) (h1 : i < lo.entries) (h2 : i < hi.entries) :
    (s.putPair lo hi i n).pair lo hi i = n % 2 ^ 64 := by
  have hj := Nat.lt_of_lt_of_le h1 lo.entries_le
  simp only [State.pair, State.putPair]
  rw [State.word_setWord_same _ _ _ _ h2, State.word_setWord_of_reg _ _ _ _ _ _ h hj, State.word_setWord_same _ _ _ _ h1]
  simp only [BitVec.toNat_ofNat]
  omega

theorem State.pair_putPair_other (lo hi lo' hi' : Reg) (n : Nat) (h : (lo ≠ lo' ∧ lo ≠ hi' ∧ hi ≠ lo' ∧ hi ≠ hi') ∨ j ≠ i) (hj : j < 131072) :
    (s.putPair lo' hi' i n).pair lo hi j = s.pair lo hi j := by
  have aux : ∀ r, (r ≠ lo' ∧ r ≠ hi') ∨ j ≠ i → (s.putPair lo' hi' i n).word r j = s.word r j := by
    intro r hr
    rw [State.putPair, State.word_setWord_other _ _ _ _ _ _ (fun e => hr.elim (fun a => a.2 e.1) (fun a => a e.2)) hj,
      State.word_setWord_other _ _ _ _ _ _ (fun e => hr.elim (fun a => a.1 e.1) (fun a => a e.2)) hj]
  simp only [State.pair]
  rw [aux lo (h.imp (fun a => ⟨a.1, a.2.1⟩) id), aux hi (h.imp (fun a => ⟨a.2.2.1, a.2.2.2⟩) id)]

theorem State.geti_putPair_other (lo hi : Reg) (n : Nat) (h : (f.reg ≠ lo ∧ f.reg ≠ hi) ∨ j ≠ i) (hj : j < 131072) :
    (s.putPair lo hi i n).geti f j = s.geti f j := by
  rw [State.putPair, State.geti_setWord_other _ _ _ _ _ _ (h.imp (fun a => a.2) id) hj,
    State.geti_setWord_other _ _ _ _ _ _ (h.imp (fun a => a.1) id) hj]

theorem State.pair_puti_other (lo hi : Reg) (h : (lo ≠ f.reg ∧ hi ≠ f.reg) ∨ j ≠ i) (hj : j < 131072) :
    (s.puti f i v).pair lo hi j = s.pair lo hi j := by
  simp only [State.pair]
  rw [State.word_puti_other _ _ _ _ _ _ (h.imp (fun a => a.1) id) hj, State.word_puti_other _ _ _ _ _ _ (h.imp (fun a => a.2) id) hj]

theorem State.word_swWrite (r : Reg) (w : Word) (h : i < r.entries) : (s.swWrite r i w).word r i = r.swWrite (s.word r i) w :=
  State.word_setWord_same _ _ _ _ h

theorem State.word_swWrite_other (r r' : Reg) (w : Word) (h : r' ≠ r ∨ j ≠ i) (hj : j < 131072) : (s.swWrite r i w).word r' j = s.word r' j :=
  s.word_setWord_other _ _ _ _ _ (fun e => h.elim (fun a => a e.1) (fun a => a e.2)) hj

theorem State.geti_swWrite_other (r : Reg) (w : Word) (h : f.reg ≠ r ∨ j ≠ i) (hj : j < 131072) : (s.swWrite r i w).geti f j = s.geti f j :=
  State.geti_setWord_other _ _ _ _ _ _ h hj

theorem State.pair_finish (b : State) (lo hi : Reg) : (finish b s).pair lo hi i = s.pair lo hi i := by
  simp only [State.pair, finish_word]

/-- A write that its register serves at once. -/
theorem State.viaReg_served {s : State} {rq : Requester} {r : Reg} {i : Nat} {w : Word} {e : State → State} (h : Served s r) : s.viaReg rq r i w e = e s := by
  unfold State.viaReg
  rw [if_neg (by simp [h.1]), if_neg (by simp [h.2])]

end Sys2Proof.Machine
end

