-- ==== Sys2Proof/Laws/Codes.lean ====
section
/-! SUPPORT. The access codes bit by bit (R12): what a software write makes of the field of a register. -/
namespace Sys2Proof.Machine

theorem maskBits_getLsbD_le (hi lo k : Nat) (hk : k < 32) (hl : lo ≤ hi) : (maskBits hi lo).getLsbD k = (decide (lo ≤ k) && decide (k ≤ hi)) := by
  rw [maskBits_getLsbD]
  by_cases h1 : lo ≤ k <;> by_cases h2 : k ≤ hi <;> simp [hk, h1, h2] <;> omega
/-- Whether a field covers a bit. -/
def FieldSpec.covers (f : FieldSpec) (k : Nat) : Bool := decide (f.lo ≤ k) && decide (k ≤ f.hi)
/-- The fields of a layout lie in the word and beside each other. -/
def layoutOk (l : List FieldSpec) : Bool :=
  l.all (fun f => decide (f.lo ≤ f.hi) && decide (f.hi < 32)) && decide (l.Pairwise (fun f g => f.hi < g.lo ∨ g.hi < f.lo))
theorem Reg.layout_ok (r : Reg) : layoutOk r.layout = true := by cases r <;> decide
theorem accMask_fold (a : Acc) (k : Nat) (hk : k < 32) : ∀ (l : List FieldSpec) (w : Word), (∀ f ∈ l, f.lo ≤ f.hi) →
    (l.foldl (fun w f => if f.acc = a then w ||| maskBits f.hi f.lo else w) w).getLsbD k = (w.getLsbD k || l.any (fun f => decide (f.acc = a) && f.covers k)) := by
  intro l
  induction l with
  | nil => intro w _; simp
  | cons f l ih =>
    intro w h
    rw [List.foldl_cons, ih _ (fun g hg => h g (List.mem_cons_of_mem _ hg)), List.any_cons]
    have := h f List.mem_cons_self
    by_cases hf : f.acc = a
    · simp only [hf, if_true, BitVec.getLsbD_or, maskBits_getLsbD_le _ _ _ hk this, FieldSpec.covers, decide_true, Bool.true_and, Bool.or_assoc]
    · simp [hf]
theorem covers_unique {l : List FieldSpec} (hp : l.Pairwise (fun f g => f.hi < g.lo ∨ g.hi < f.lo)) {f : FieldSpec} (hf : f ∈ l) {k : Nat} (hc : f.covers k = true)
    (p : FieldSpec → Bool) : l.any (fun g => p g && g.covers k) = p f := by
  induction l with
  | nil => cases hf
  | cons g l ih =>
    rw [List.pairwise_cons] at hp
    rw [List.any_cons]
    rcases List.mem_cons.1 hf with rfl | hf
    · rw [hc, Bool.and_true]
      have : l.any (fun g => p g && g.covers k) = false := by
        rw [List.any_eq_false]
        intro g hg
        have := hp.1 g hg
        simp only [FieldSpec.covers, Bool.and_eq_true, decide_eq_true_eq] at hc ⊢
        omega
      rw [this, Bool.or_false]
    · rw [ih hp.2 hf]
      have : g.covers k = false := by
        have := hp.1 f hf
        simp only [FieldSpec.covers, Bool.and_eq_true, decide_eq_true_eq, Bool.and_eq_false_iff, decide_eq_false_iff_not] at hc ⊢
        omega
      rw [this, Bool.and_false, Bool.false_or]
theorem Fld.set_get_bit (f : Fld) (w n : Word) (k : Nat) (hk : k < 32) (hh : f.hi < 32) (hl : f.lo ≤ f.hi) :
    (f.set w (f.get n)).getLsbD k = if f.lo ≤ k ∧ k ≤ f.hi then n.getLsbD k else w.getLsbD k := by
  unfold Fld.set Fld.get
  simp only [BitVec.getLsbD_or, BitVec.getLsbD_and, BitVec.getLsbD_not, maskBits_getLsbD_le _ _ _ hk hl, BitVec.getLsbD_shiftLeft, BitVec.getLsbD_setWidth, BitVec.ofNat_toNat,
    BitVec.getLsbD_extractLsb', hk, decide_true, Bool.true_and]
  by_cases h1 : f.lo ≤ k <;> by_cases h2 : k ≤ f.hi <;> simp [h1, h2]
  · have a1 : k - f.lo < 32 := by omega
    have a2 : k - f.lo < f.hi + 1 - f.lo := by omega
    have a3 : ¬ k < f.lo := by omega
    simp [a1, a2, a3]
  · omega
theorem rwo_fold_other (old w : Word) (k : Nat) (hk : k < 32) : ∀ (l : List FieldSpec) (c : Word), (∀ f ∈ l, f.lo ≤ f.hi ∧ f.hi < 32) →
    (∀ g ∈ l, g.covers k = true → g.acc ≠ .rwo) → (l.foldl (fun acc f => if f.acc = .rwo then rwoField f old w acc else acc) c).getLsbD k = c.getLsbD k := by
  intro l
  induction l with
  | nil => intro c _ _; rfl
  | cons f l ih =>
    intro c h hn
    rw [List.foldl_cons, ih _ (fun g hg => h g (List.mem_cons_of_mem _ hg)) (fun g hg => hn g (List.mem_cons_of_mem _ hg))]
    split
    · next ha =>
      have hc := hn f List.mem_cons_self
      have hb := h f List.mem_cons_self
      unfold rwoField
      dsimp only
      split
      · rw [Fld.set_get_bit _ _ _ _ hk hb.2 hb.1, if_neg]
        intro h
        exact hc (by simp [FieldSpec.covers, h]) ha
      · rfl
    · rfl
theorem rwo_fold_bit (old w : Word) (k : Nat) (hk : k < 32) (f : FieldSpec) (hc : f.covers k = true) (ha : f.acc = .rwo) : ∀ (l : List FieldSpec) (c : Word), f ∈ l →
    (∀ f ∈ l, f.lo ≤ f.hi ∧ f.hi < 32) → l.Pairwise (fun f g => f.hi < g.lo ∨ g.hi < f.lo) → 
    (l.foldl (fun acc f => if f.acc = .rwo then rwoField f old w acc else acc) c).getLsbD k =
      if (⟨.GLB_ID_LO, f.hi, f.lo⟩ : Fld).get old = f.reset then w.getLsbD k else c.getLsbD k := by
  intro l
  induction l with
  | nil => intro c h; cases h
  | cons g l ih =>
    intro c hf hb hp
    rw [List.pairwise_cons] at hp
    rw [List.foldl_cons]
    simp only [FieldSpec.covers, Bool.and_eq_true, decide_eq_true_eq] at hc
    rcases List.mem_cons.1 hf with rfl | hf
    · rw [rwo_fold_other old w k hk l _ (fun g hg => hb g (List.mem_cons_of_mem _ hg)), if_pos ha]
      · unfold rwoField
        have hbf := hb f List.mem_cons_self
        dsimp only
        split
        · rw [Fld.set_get_bit _ _ _ _ hk hbf.2 hbf.1, if_pos hc]
        · rfl
      · intro g hg h
        have := hp.1 g hg
        simp only [FieldSpec.covers, Bool.and_eq_true, decide_eq_true_eq] at h
        omega
    · rw [ih _ hf (fun g hg => hb g (List.mem_cons_of_mem _ hg)) hp.2]
      have hgc := hp.1 f hf
      have hgb := hb g List.mem_cons_self
      congr 1
      split
      · unfold rwoField
        dsimp only
        split
        · rw [Fld.set_get_bit _ _ _ _ hk hgb.2 hgb.1, if_neg]
          dsimp only
          omega
        · rfl
      · rfl

/-- A written RW or CNT field takes the written value; an RO, SC or WO field keeps what it holds. -/
theorem Reg.swWrite_bit {r : Reg} {f : FieldSpec} (hf : f ∈ r.layout) (old w : Word) {k : Nat} (hk : k < 32) (h1 : f.lo ≤ k) (h2 : k ≤ f.hi)
    (ha : f.acc = .rw ∨ f.acc = .cnt ∨ f.acc = .ro ∨ f.acc = .sc ∨ f.acc = .wo) :
    (r.swWrite old w).getLsbD k = if f.acc = .rw ∨ f.acc = .cnt then w.getLsbD k else old.getLsbD k := by
  have hok := r.layout_ok
  simp only [layoutOk, Bool.and_eq_true, List.all_eq_true, decide_eq_true_eq] at hok
  obtain ⟨hb, hp⟩ := hok
  have hc : f.covers k = true := by simp [FieldSpec.covers, h1, h2]
  have hm : ∀ a, (r.accMask a).getLsbD k = decide (f.acc = a) := by
    intro a
    rw [Reg.accMask, accMask_fold a k hk _ _ (fun f hf => (hb f hf).1), covers_unique hp hf hc (fun f => decide (f.acc = a))]
    simp
  rw [Reg.swWrite, rwo_fold_other old w k hk _ _ hb]
  · simp only [blend, BitVec.getLsbD_or, BitVec.getLsbD_and, BitVec.getLsbD_not, hm, hk]
    rcases ha with ha | ha | ha | ha | ha <;> simp [ha]
  · intro g hg hgc ha'
    have := covers_unique hp hf hc (fun f => decide (f.acc = .rwo))
    rw [List.any_eq_true.2 ⟨g, hg, by simp [ha', hgc]⟩] at this
    simp only [Bool.true_eq, decide_eq_true_eq] at this
    rcases ha with ha | ha | ha | ha | ha <;> rw [ha] at this <;> cases this

theorem Fld.get_congr (f : Fld) {a b : Word} (h : ∀ k, f.lo ≤ k → k ≤ f.hi → a.getLsbD k = b.getLsbD k) : f.get a = f.get b := by
  unfold Fld.get
  congr 1
  apply BitVec.eq_of_getLsbD_eq
  intro i hi
  simp only [BitVec.getLsbD_extractLsb', hi, decide_true, Bool.true_and]
  exact h _ (by omega) (by omega)

/-- A field reads what was written into it. -/
theorem Reg.get_swWrite_rw {r : Reg} (f : FieldSpec) (hf : f ∈ r.layout) (ha : f.acc = .rw ∨ f.acc = .cnt) (hb : f.hi < 32) (old w : Word) (g : Fld)
    (hg : g.hi = f.hi ∧ g.lo = f.lo) : g.get (r.swWrite old w) = g.get w := by
  refine Fld.get_congr g (fun k h1 h2 => ?_)
  rw [Reg.swWrite_bit hf old w (by omega) (by omega) (by omega) (by rcases ha with h | h <;> simp [h]), if_pos ha]

/-- A field that software cannot write keeps its value. -/
theorem Reg.get_swWrite_keep {r : Reg} (f : FieldSpec) (hf : f ∈ r.layout) (ha : f.acc = .ro ∨ f.acc = .sc ∨ f.acc = .wo) (hb : f.hi < 32)
    (old w : Word) (g : Fld) (hg : g.hi = f.hi ∧ g.lo = f.lo) : g.get (r.swWrite old w) = g.get old := by
  refine Fld.get_congr g (fun k h1 h2 => ?_)
  rw [Reg.swWrite_bit hf old w (by omega) (by omega) (by omega) (by rcases ha with h | h | h <;> simp [h]), if_neg]
  rcases ha with h | h | h <;> simp [h]

/-- Whether a field is one that software writes, and whether it is one that software cannot change. -/
def Fld.writable (g : Fld) (r : Reg) : Bool :=
  r.layout.any (fun f => f.hi == g.hi && f.lo == g.lo && (f.acc == .rw || f.acc == .cnt) && decide (f.hi < 32))
def Fld.kept (g : Fld) (r : Reg) : Bool :=
  r.layout.any (fun f => f.hi == g.hi && f.lo == g.lo && (f.acc == .ro || f.acc == .sc || f.acc == .wo) && decide (f.hi < 32))

theorem Fld.get_swWrite_rw (g : Fld) (r : Reg) (h : g.writable r = true) (old w : Word) : g.get (r.swWrite old w) = g.get w := by
  simp only [Fld.writable, List.any_eq_true, Bool.and_eq_true, Bool.or_eq_true, beq_iff_eq, decide_eq_true_eq] at h
  obtain ⟨f, hf, ⟨⟨h1, h2⟩, h3⟩, h4⟩ := h
  exact Reg.get_swWrite_rw f hf h3 h4 old w g ⟨h1.symm, h2.symm⟩

theorem Fld.get_swWrite_keep (g : Fld) (r : Reg) (h : g.kept r = true) (old w : Word) : g.get (r.swWrite old w) = g.get old := by
  simp only [Fld.kept, List.any_eq_true, Bool.and_eq_true, Bool.or_eq_true, beq_iff_eq, decide_eq_true_eq] at h
  obtain ⟨f, hf, ⟨⟨h1, h2⟩, h3⟩, h4⟩ := h
  exact Reg.get_swWrite_keep f hf (by rcases h3 with (h3 | h3) | h3 <;> simp [h3]) h4 old w g ⟨h1.symm, h2.symm⟩

theorem State.geti_swWrite_rw (s : State) (g : Fld) (r : Reg) (i : Nat) (w : Word) (hr : g.reg = r) (h : g.writable r = true) (hi : i < r.entries) :
    (s.swWrite r i w).geti g i = g.get w := by
  rw [State.geti, hr, State.word_swWrite _ _ _ _ hi, g.get_swWrite_rw r h]

theorem State.geti_swWrite_keep (s : State) (g : Fld) (r : Reg) (i : Nat) (w : Word) (hr : g.reg = r) (h : g.kept r = true) (hi : i < r.entries) :
    (s.swWrite r i w).geti g i = s.geti g i := by
  rw [State.geti, hr, State.word_swWrite _ _ _ _ hi, g.get_swWrite_keep r h, State.geti, hr]

end Sys2Proof.Machine
end

