-- ==== Sys2Proof/Laws/WithinOps.lean ====
section
/-! SUPPORT. What the operations of Machine/Ops.lean can change, and that they keep a state sound. -/
namespace Sys2Proof.Machine

variable {m : Nat} {s₀ : State}

theorem within_State_puti {s : State} (f : Fld) (i : Nat) (v : Nat) (hs : Within m s₀ s) (hb_f : m.testBit f.reg.ctorIdx = true)  : Within m s₀ (State.puti s f i v) := by
  unfold State.puti
  repeat' first
    | with_reducible assumption
    | exact Sub.up hm (by decide)
    | exact Sub.bit hm (by decide)
    | intro _
    | with_reducible apply within_State_setWord

theorem within_State_put {s : State} (f : Fld) (v : Nat) (hs : Within m s₀ s) (hb_f : m.testBit f.reg.ctorIdx = true)  : Within m s₀ (State.put s f v) := by
  unfold State.put
  repeat' first
    | with_reducible assumption
    | exact Sub.up hm (by decide)
    | exact Sub.bit hm (by decide)
    | intro _
    | with_reducible apply within_State_puti

theorem within_State_ev {s : State} (f : Fld) (hs : Within m s₀ s) (hb_f : m.testBit f.reg.ctorIdx = true)  : Within m s₀ (State.ev s f) := by
  unfold State.ev
  repeat' first
    | with_reducible assumption
    | exact Sub.up hm (by decide)
    | exact Sub.bit hm (by decide)
    | intro _
    | with_reducible apply within_State_put

theorem within_State_evi {s : State} (f : Fld) (i : Nat) (hs : Within m s₀ s) (hb_f : m.testBit f.reg.ctorIdx = true)  : Within m s₀ (State.evi s f i) := by
  unfold State.evi
  repeat' first
    | with_reducible assumption
    | exact Sub.up hm (by decide)
    | exact Sub.bit hm (by decide)
    | intro _
    | with_reducible apply within_State_puti

theorem within_State_putb {s : State} (f : Fld) (b : Bool) (hs : Within m s₀ s) (hb_f : m.testBit f.reg.ctorIdx = true)  : Within m s₀ (State.putb s f b) := by
  unfold State.putb
  repeat' first
    | with_reducible assumption
    | exact Sub.up hm (by decide)
    | exact Sub.bit hm (by decide)
    | intro _
    | with_reducible apply within_ite
    | with_reducible apply within_State_put

theorem within_State_putPair {s : State} (lo : Reg) (hi : Reg) (i : Nat) (v : Nat) (hs : Within m s₀ s) (hb_lo : m.testBit lo.ctorIdx = true) (hb_hi : m.testBit hi.ctorIdx = true)  : Within m s₀ (State.putPair s lo hi i v) := by
  unfold State.putPair
  repeat' first
    | with_reducible assumption
    | exact Sub.up hm (by decide)
    | exact Sub.bit hm (by decide)
    | intro _
    | with_reducible apply within_State_setWord

theorem within_State_bumpi {s : State} (f : Fld) (i : Nat) (n : Nat) (hs : Within m s₀ s) (hb_f : m.testBit f.reg.ctorIdx = true)  : Within m s₀ (State.bumpi s f i n) := by
  unfold State.bumpi
  repeat' first
    | with_reducible assumption
    | exact Sub.up hm (by decide)
    | exact Sub.bit hm (by decide)
    | intro _
    | with_reducible apply within_State_puti

theorem within_State_bump {s : State} (f : Fld) (n : Nat) (hs : Within m s₀ s) (hb_f : m.testBit f.reg.ctorIdx = true)  : Within m s₀ (State.bump s f n) := by
  unfold State.bump
  repeat' first
    | with_reducible assumption
    | exact Sub.up hm (by decide)
    | exact Sub.bit hm (by decide)
    | intro _
    | with_reducible apply within_State_bumpi

theorem within_State_bumpPair {s : State} (lo : Reg) (hi : Reg) (i : Nat) (n : Nat) (hs : Within m s₀ s) (hb_lo : m.testBit lo.ctorIdx = true) (hb_hi : m.testBit hi.ctorIdx = true)  : Within m s₀ (State.bumpPair s lo hi i n) := by
  unfold State.bumpPair
  repeat' first
    | with_reducible assumption
    | exact Sub.up hm (by decide)
    | exact Sub.bit hm (by decide)
    | intro _
    | with_reducible apply within_State_putPair

theorem within_State_emit {s : State} (o : Out) (hs : Within m s₀ s) (hm : Sub 0x200000000000000000000000000000000000000000000000000000000000000000000000000000000000000000000000000000 m)  : Within m s₀ (State.emit s o) := by
  unfold State.emit
  repeat' first
    | with_reducible assumption
    | exact Sub.up hm (by decide)
    | exact Sub.bit hm (by decide)
    | (intro x; (first | (refine within_cut (m := m) (s₀ := s₀) x ?_ ?_; unfold x; rotate_left; clear_value x; intro hx) | skip))
    | lift_lets -underBinder
    | (apply within_mk <;> first | exact Or.inl (by with_reducible rfl) | exact Or.inr (Sub.bit hm (by decide)) | with_reducible rfl | rfl | exact Or.inl rfl | (simp; done) | skip)

theorem within_State_fresh {s : State} (k : Nat) (n : Nat) (hs : Within m s₀ s) (hm : Sub 0x400000000000000000000000000000000000000000000000000000000000000000000000000000000000000000000000000000 m)  : Within m s₀ (State.fresh s k n).2 := by
  unfold State.fresh
  repeat' first
    | with_reducible assumption
    | exact Sub.up hm (by decide)
    | exact Sub.bit hm (by decide)
    | (intro x; (first | (refine within_cut (m := m) (s₀ := s₀) x ?_ ?_; unfold x; rotate_left; clear_value x; intro hx) | skip))
    | lift_lets -underBinder
    | (refine within_of_snd (by assumption) ?_)
    | (refine within_of_fst (by assumption) ?_)
    | (dsimp -zeta only)
    | (split)
    | (apply within_mk <;> first | exact Or.inl (by with_reducible rfl) | exact Or.inr (Sub.bit hm (by decide)) | with_reducible rfl | rfl | exact Or.inl rfl | (simp; done) | skip)

/-- A store in the host-directed region keeps its form. -/
theorem regionPut_wf (gen : Nat) : ∀ (m : List Host.Cell) (a : Nat) (bs : List Byte), regionWf gen m = true → regionWf gen (regionPut gen m a bs) = true
  | _, _, [], h => h
  | _, a, b :: bs, h => regionPut_wf gen _ (a + 1) bs (assocWf_put _ _ h)

theorem within_State_wrRegion (a : Nat) (bs : List Byte) {s : State} (hs : Within m s₀ s) (hm : Sub 0x200000000000000000000000000000000000000000000000000000000000000000000000000000000000000000000000000000000 m) : Within m s₀ (State.wrRegion s a bs) := by
  refine hs.trans ⟨{ hs.sound with region := regionPut_wf _ _ a bs hs.sound.region }, fun p hp => ?_⟩
  cases p <;> simp only [Region.same] <;> try rfl
  case reg => exact fun _ _ => rfl
  case memory => exact fun _ => rfl
  case basin => exact absurd (Sub.bit (k := 417) hm (by decide)) (by simp only [Region.bit] at hp; simp [hp])

theorem within_State_setRill {s : State} (r : Nat) (x : RillSt) (hs : Within m s₀ s) (hm : Sub 0x4000000000000000000000000000000000000000000000000000000000000000000000000000000000000000000000000000000 m)  : Within m s₀ (State.setRill s r x) := by
  unfold State.setRill
  repeat' first
    | with_reducible assumption
    | exact Sub.up hm (by decide)
    | exact Sub.bit hm (by decide)
    | (intro x; (first | (refine within_cut (m := m) (s₀ := s₀) x ?_ ?_; unfold x; rotate_left; clear_value x; intro hx) | skip))
    | lift_lets -underBinder
    | (apply within_mk <;> first | exact Or.inl (by with_reducible rfl) | exact Or.inr (Sub.bit hm (by decide)) | with_reducible rfl | rfl | exact Or.inl rfl | (simp; done) | skip)

theorem within_State_swWrite {s : State} (r : Reg) (i : Nat) (w : Word) (hs : Within m s₀ s) (hb_r : m.testBit r.ctorIdx = true)  : Within m s₀ (State.swWrite s r i w) := by
  unfold State.swWrite
  repeat' first
    | with_reducible assumption
    | exact Sub.up hm (by decide)
    | exact Sub.bit hm (by decide)
    | intro _
    | with_reducible apply within_State_setWord

theorem within_State_logFault {s : State} (row : Nat) (cause : Nat) (inst : Nat) (step : Nat) (hs : Within m s₀ s) (hm : Sub 0x800000000000000000000000000000000000000000000000000000000000000000000000000000000000000000000000000000000 m)  : Within m s₀ (State.logFault s row cause inst step) := by
  unfold State.logFault
  repeat' first
    | with_reducible assumption
    | exact Sub.up hm (by decide)
    | exact Sub.bit hm (by decide)
    | (intro x; (first | (refine within_cut (m := m) (s₀ := s₀) x ?_ ?_; unfold x; rotate_left; clear_value x; intro hx) | skip))
    | lift_lets -underBinder
    | (apply within_mk <;> first | exact Or.inl (by with_reducible rfl) | exact Or.inr (Sub.bit hm (by decide)) | with_reducible rfl | rfl | exact Or.inl rfl | (simp; done) | skip)

end Sys2Proof.Machine
end

