-- ==== Sys2Proof/Laws/WithinHostOps.lean ====
section
/-! SUPPORT. What the operations of Machine/HostOps.lean can change, and that they keep a state sound. -/
namespace Sys2Proof.Machine

variable {m : Nat} {s₀ : State}

theorem within_State_setBusy {s : State} (f : Fld) (b : Bool) (hs : Within m s₀ s) (hm : Sub 0x40080000000000000000000000 m) (hb_f : m.testBit f.reg.ctorIdx = true)  : Within m s₀ (State.setBusy s f b) := by
  unfold State.setBusy
  repeat' first
    | with_reducible assumption
    | exact Sub.up hm (by decide)
    | exact Sub.bit hm (by decide)
    | (intro x; (first | (refine within_cut (m := m) (s₀ := s₀) x ?_ ?_; unfold x; rotate_left; clear_value x; intro hx) | skip))
    | lift_lets -underBinder
    | with_reducible apply within_ite
    | with_reducible apply within_State_ev
    | with_reducible apply within_State_putb

theorem within_State_modQueue {s : State} (q : Nat) (f : QueueSt → QueueSt) (hs : Within m s₀ s) (hm : Sub 0x800000000000000000000000000000000000000000000000000000000000000000000000000000000000000000000000000000 m)  : Within m s₀ (State.modQueue s q f) := by
  unfold State.modQueue
  repeat' first
    | with_reducible assumption
    | exact Sub.up hm (by decide)
    | exact Sub.bit hm (by decide)
    | (intro x; (first | (refine within_cut (m := m) (s₀ := s₀) x ?_ ?_; unfold x; rotate_left; clear_value x; intro hx) | skip))
    | lift_lets -underBinder
    | (apply within_mk <;> first | exact Or.inl (by with_reducible rfl) | exact Or.inr (Sub.bit hm (by decide)) | with_reducible rfl | rfl | exact Or.inl rfl | (simp; done) | skip)

theorem within_State_reportRead (reason : Nat) {s : State} (hs : Within m s₀ s) (hm : Sub 0x200000000000000000000000000000000000000000000000000000000000000000000000000000000000000000000000000000 m) : Within m s₀ (State.reportRead s reason) := by
  unfold State.reportRead
  repeat' first
    | with_reducible assumption
    | exact Sub.up hm (by decide)
    | exact Sub.bit hm (by decide)
    | (intro x; (first | (refine within_cut (m := m) (s₀ := s₀) x ?_ ?_; unfold x; rotate_left; clear_value x; intro hx) | skip))
    | lift_lets -underBinder
    | with_reducible apply within_ite
    | with_reducible apply within_State_emit
    | (refine within_of_snd (by assumption) ?_)
    | (refine within_of_fst (by assumption) ?_)
    | (split)
    | (dsimp -zeta only)

theorem within_State_dmaError {s : State} (addr : Nat) (q : Nat) (tag : Nat) (reason : Nat) (hs : Within m s₀ s) (hm : Sub 0x200000000000000000000000000000000000000000000000000000000000000000000000000003880000000000000000000000 m)  : Within m s₀ (State.dmaError s addr q tag reason) := by
  unfold State.dmaError
  repeat' first
    | with_reducible assumption
    | exact Sub.up hm (by decide)
    | exact Sub.bit hm (by decide)
    | (intro x; (first | (refine within_cut (m := m) (s₀ := s₀) x ?_ ?_; unfold x; rotate_left; clear_value x; intro hx) | skip))
    | lift_lets -underBinder
    | with_reducible apply within_ite
    | with_reducible apply within_State_put
    | with_reducible apply within_State_ev
    | with_reducible apply within_State_putPair
    | with_reducible apply within_State_reportRead
    | (refine within_of_snd (by assumption) ?_)
    | (refine within_of_fst (by assumption) ?_)
    | (split)

theorem within_State_modTask {s : State} (t : Nat) (f : Task → Task) (hs : Within m s₀ s) (hm : Sub 0x800000000000000000000000000000000000000000000000000000000000000000000000000000000000000000000000000000 m)  : Within m s₀ (State.modTask s t f) := by
  unfold State.modTask
  repeat' first
    | with_reducible assumption
    | exact Sub.up hm (by decide)
    | exact Sub.bit hm (by decide)
    | (intro x; (first | (refine within_cut (m := m) (s₀ := s₀) x ?_ ?_; unfold x; rotate_left; clear_value x; intro hx) | skip))
    | lift_lets -underBinder
    | with_reducible apply within_ite
    | (apply within_mk <;> first | exact Or.inl (by with_reducible rfl) | exact Or.inr (Sub.bit hm (by decide)) | with_reducible rfl | rfl | exact Or.inl rfl | (simp; done) | skip)

theorem within_State_setTasks {s : State} (l : List Task) (hs : Within m s₀ s) (hm : Sub 0x800000000000000000000000000000000000000000000000000000000000000000000000000000000000000000000000000000 m)  : Within m s₀ (State.setTasks s l) := by
  unfold State.setTasks
  repeat' first
    | with_reducible assumption
    | exact Sub.up hm (by decide)
    | exact Sub.bit hm (by decide)
    | (intro x; (first | (refine within_cut (m := m) (s₀ := s₀) x ?_ ?_; unfold x; rotate_left; clear_value x; intro hx) | skip))
    | lift_lets -underBinder
    | (apply within_mk <;> first | exact Or.inl (by with_reducible rfl) | exact Or.inr (Sub.bit hm (by decide)) | with_reducible rfl | rfl | exact Or.inl rfl | (simp; done) | skip)

theorem within_State_showTasks {s : State} (hs : Within m s₀ s) (hm : Sub 0x60000000000000000000000000 m)  : Within m s₀ (State.showTasks s) := by
  unfold State.showTasks
  repeat' first
    | with_reducible assumption
    | exact Sub.up hm (by decide)
    | exact Sub.bit hm (by decide)
    | (intro x; (first | (refine within_cut (m := m) (s₀ := s₀) x ?_ ?_; unfold x; rotate_left; clear_value x; intro hx) | skip))
    | lift_lets -underBinder
    | with_reducible apply within_State_put

theorem within_State_endTask {s : State} (t : Nat) (status : Nat) (result : Nat) (hs : Within m s₀ s) (hm : Sub 0x800000000000000000000000000000000000000000000000000000000000000000000000000000000000000000000000000000 m)  : Within m s₀ (State.endTask s t status result) := by
  unfold State.endTask
  repeat' first
    | with_reducible assumption
    | exact Sub.up hm (by decide)
    | exact Sub.bit hm (by decide)
    | (intro x; (first | (refine within_cut (m := m) (s₀ := s₀) x ?_ ?_; unfold x; rotate_left; clear_value x; intro hx) | skip))
    | lift_lets -underBinder
    | with_reducible apply within_State_modTask

theorem within_State_dropPartial {s : State} (hs : Within m s₀ s) (hm : Sub 0x400000000000000000000000000000000000000000000000000000000000000000000000000000000000000000000000000000000 m)  : Within m s₀ (State.dropPartial s) := by
  unfold State.dropPartial
  repeat' first
    | with_reducible assumption
    | exact Sub.up hm (by decide)
    | exact Sub.bit hm (by decide)
    | with_reducible apply within_ite
    | (intro x; (first | (refine within_cut (m := m) (s₀ := s₀) x ?_ ?_; unfold x; rotate_left; clear_value x; intro hx) | skip))
    | lift_lets -underBinder
    | (apply within_mk <;> first | exact Or.inl (by with_reducible rfl) | exact Or.inr (Sub.bit hm (by decide)) | with_reducible rfl | rfl | exact Or.inl rfl | (simp; done) | skip)
    | (refine within_of_snd (by assumption) ?_)
    | (refine within_of_fst (by assumption) ?_)
    | (split)

theorem within_State_runTask {s : State} (t : Nat) (opcode : Nat) (f : Task → State → State) (hs : Within m s₀ s) (hm : Sub 0x800000000000000000000000000000000000000000000000000000000000000000000000000000000000000000000000000000 m) (hf : ∀ x s, Within m s₀ s → Within m s₀ (f x s))  : Within m s₀ (State.runTask s t opcode f) := by
  unfold State.runTask
  repeat' first
    | with_reducible assumption
    | exact Sub.up hm (by decide)
    | exact Sub.bit hm (by decide)
    | (intro x; (first | (refine within_cut (m := m) (s₀ := s₀) x ?_ ?_; unfold x; rotate_left; clear_value x; intro hx) | skip))
    | lift_lets -underBinder
    | with_reducible apply within_ite
    | with_reducible apply within_State_modTask
    | with_reducible apply hf
    | (refine within_of_snd (by assumption) ?_)
    | (refine within_of_fst (by assumption) ?_)
    | (split)

theorem within_State_sourceFailed (t : Task) (n : Nat) (reason : Nat) (result : Nat) {s : State} (hs : Within m s₀ s) (hm : Sub 0xA00000000000000000000000000000000000000000000000000000000000000000000000000003880000000000000000000000 m) : Within m s₀ (State.sourceFailed s t n reason result) := by
  unfold State.sourceFailed
  repeat' first
    | with_reducible assumption
    | exact Sub.up hm (by decide)
    | exact Sub.bit hm (by decide)
    | intro _
    | with_reducible apply within_State_dmaError
    | with_reducible apply within_State_endTask
    | (intro x; (first | (refine within_cut (m := m) (s₀ := s₀) x ?_ ?_; unfold x; rotate_left; clear_value x; intro hx) | skip))
    | with_reducible apply within_ite
    | (refine within_of_snd (by assumption) ?_)
    | (refine within_of_fst (by assumption) ?_)
    | (split)

theorem within_State_onSource (t : Task) (r : HostRead) (f : List Byte → State → State) {s : State} (hs : Within m s₀ s) (hm : Sub 0xA00000000000000000000000000000000000000000000000000000000000000000000000000003880000000000000000000000 m) (hf : ∀ x0 x1, Within m s₀ x1 → Within m s₀ (f x0 x1)) : Within m s₀ (State.onSource s t r f) := by
  unfold State.onSource
  repeat' first
    | with_reducible assumption
    | exact Sub.up hm (by decide)
    | exact Sub.bit hm (by decide)
    | (intro x; (first | (refine within_cut (m := m) (s₀ := s₀) x ?_ ?_; unfold x; rotate_left; clear_value x; intro hx) | skip))
    | lift_lets -underBinder
    | with_reducible apply within_ite
    | with_reducible apply hf
    | with_reducible apply within_State_sourceFailed
    | (refine within_of_snd (by assumption) ?_)
    | (refine within_of_fst (by assumption) ?_)
    | (split)
    | (dsimp -zeta only)

theorem within_State_showVocab {s : State} (slot : Nat) (state : Nat) (err : Nat) (entries : Nat) (tag : Nat) (hs : Within m s₀ s) (hm : Sub 0x780000000000000000000000000000000000000000 m)  : Within m s₀ (State.showVocab s slot state err entries tag) := by
  unfold State.showVocab
  repeat' first
    | with_reducible assumption
    | exact Sub.up hm (by decide)
    | exact Sub.bit hm (by decide)
    | (intro x; (first | (refine within_cut (m := m) (s₀ := s₀) x ?_ ?_; unfold x; rotate_left; clear_value x; intro hx) | skip))
    | lift_lets -underBinder
    | with_reducible apply within_State_puti
    | with_reducible apply within_State_putPair

theorem within_State_setVocab {s : State} (slot : Nat) (img : List Byte) (hs : Within m s₀ s) (hm : Sub 0x4000000000000000000000000000000000000000000000000000000000000000000000000000000000000000000000000000000000 m)  : Within m s₀ (State.setVocab s slot img) := by
  unfold State.setVocab
  repeat' first
    | with_reducible assumption
    | exact Sub.up hm (by decide)
    | exact Sub.bit hm (by decide)
    | (intro x; (first | (refine within_cut (m := m) (s₀ := s₀) x ?_ ?_; unfold x; rotate_left; clear_value x; intro hx) | skip))
    | lift_lets -underBinder
    | (apply within_mk <;> first | exact Or.inl (by with_reducible rfl) | exact Or.inr (Sub.bit hm (by decide)) | with_reducible rfl | rfl | exact Or.inl rfl | (simp; done) | skip)

theorem within_State_vocabFailed (t : Task) {s : State} (hs : Within m s₀ s) (hm : Sub 0x4000400000000000000000000000000000000000000000000000000000000000780000000000000000000000000000000000000000 m) : Within m s₀ (State.vocabFailed s t) := by
  unfold State.vocabFailed
  repeat' first
    | with_reducible assumption
    | exact Sub.up hm (by decide)
    | exact Sub.bit hm (by decide)
    | (intro x; (first | (refine within_cut (m := m) (s₀ := s₀) x ?_ ?_; unfold x; rotate_left; clear_value x; intro hx) | skip))
    | lift_lets -underBinder
    | with_reducible apply within_ite
    | with_reducible apply within_State_fresh
    | with_reducible apply within_State_setVocab
    | with_reducible apply within_State_showVocab
    | (refine within_of_snd (by assumption) ?_)
    | (refine within_of_fst (by assumption) ?_)
    | (split)
    | (dsimp -zeta only)

theorem within_State_vocabUndone (t : Task) {s : State} (hs : Within m s₀ s) (hm : Sub 0x780000000000000000000000000000000000000000 m) : Within m s₀ (State.vocabUndone s t) := by
  unfold State.vocabUndone
  repeat' first
    | with_reducible assumption
    | exact Sub.up hm (by decide)
    | exact Sub.bit hm (by decide)
    | (intro x; (first | (refine within_cut (m := m) (s₀ := s₀) x ?_ ?_; unfold x; rotate_left; clear_value x; intro hx) | skip))
    | lift_lets -underBinder
    | with_reducible apply within_ite
    | with_reducible apply within_State_showVocab
    | (refine within_of_snd (by assumption) ?_)
    | (refine within_of_fst (by assumption) ?_)
    | (split)
    | (dsimp -zeta only)

theorem within_State_dataWrite (addr : Nat) (bs : List Byte) {s : State} (hs : Within m s₀ s) (hm : Sub 0x200000000000000000000000000000000000000000000000000000000000000000000000000000000000000000000000000000 m) : Within m s₀ (State.dataWrite s addr bs) := by
  unfold State.dataWrite
  repeat' first
    | with_reducible assumption
    | exact Sub.up hm (by decide)
    | exact Sub.bit hm (by decide)
    | (intro x; (first | (refine within_cut (m := m) (s₀ := s₀) x ?_ ?_; unfold x; rotate_left; clear_value x; intro hx) | skip))
    | lift_lets -underBinder
    | with_reducible apply within_ite
    | with_reducible apply within_State_emit
    | (refine within_of_snd (by assumption) ?_)
    | (refine within_of_fst (by assumption) ?_)
    | (split)
    | (dsimp -zeta only)

theorem within_deliverSg {s : State} (h : Within m s₀ s) (l : List (Nat × Nat)) (ofs : Nat) (bs : List Byte) (hm : Sub 0x200000000000000000000000000000000000000000000000000000000000000000000000000000000000000000000000000000 m) :
    Within m s₀ (deliverSg s l ofs bs) := by
  induction l generalizing s ofs bs with
  | nil => exact h
  | cons e l ih =>
    obtain ⟨a, n⟩ := e
    unfold deliverSg
    split
    · exact h
    · split
      · exact ih h _ _
      · exact ih (within_State_emit _ h (Sub.up hm (by decide))) _ _

theorem within_State_deliver {s : State} (t : Task) (ofs : Nat) (bs : List Byte) (hs : Within m s₀ s) (hm : Sub 0x200000000000000000000000000000000000000000000000000000000000000000000000000000000000000000000000000000 m)  : Within m s₀ (State.deliver s t ofs bs) := by
  unfold State.deliver
  repeat' first
    | with_reducible assumption
    | exact Sub.up hm (by decide)
    | exact Sub.bit hm (by decide)
    | intro _
    | with_reducible apply within_ite
    | (intro x; (first | (refine within_cut (m := m) (s₀ := s₀) x ?_ ?_; unfold x; rotate_left; clear_value x; intro hx) | skip))
    | with_reducible apply within_deliverSg
    | with_reducible apply within_State_dataWrite
    | apply within_deliverSg
    | (refine within_of_snd (by assumption) ?_)
    | (refine within_of_fst (by assumption) ?_)
    | (split)

end Sys2Proof.Machine
end

