-- ==== Sys2Proof/Laws/WithinBasinOps.lean ====
section
/-! SUPPORT. What the operations of Machine/BasinOps.lean can change, and that they keep a state sound. -/
namespace Sys2Proof.Machine

variable {m : Nat} {s₀ : State}

theorem within_showBasin (before : State) {s : State} (hs : Within m s₀ s) (hm : Sub 0x1000000000000000040080000000000008000000000 m)  : Within m s₀ (showBasin before s) := by
  unfold showBasin
  repeat' first
    | with_reducible assumption
    | exact Sub.up hm (by decide)
    | exact Sub.bit hm (by decide)
    | (intro x; (first | (refine within_cut (m := m) (s₀ := s₀) x ?_ ?_; unfold x; rotate_left; clear_value x; intro hx) | skip))
    | lift_lets -underBinder
    | with_reducible apply within_State_setBusy
    | with_reducible apply within_State_put
    | with_reducible apply within_State_putb

theorem within_State_grant {s : State} (c : Nat) (p : Nat) (hs : Within m s₀ s) (hm : Sub 0x200400000000000000000000000000000000000000000000000000000000000000000000000000000000000000000000000000000 m)  : Within m s₀ (State.grant s c p).1 := by
  unfold State.grant
  repeat' first
    | with_reducible assumption
    | exact Sub.up hm (by decide)
    | exact Sub.bit hm (by decide)
    | (intro x; (first | (refine within_cut (m := m) (s₀ := s₀) x ?_ ?_; unfold x; rotate_left; clear_value x; intro hx) | skip))
    | lift_lets -underBinder
    | with_reducible apply within_State_fresh
    | (refine within_of_snd (by assumption) ?_)
    | (refine within_of_fst (by assumption) ?_)
    | (dsimp -zeta only)
    | (split)
    | (apply within_mk <;> first | exact Or.inl (by with_reducible rfl) | exact Or.inr (Sub.bit hm (by decide)) | with_reducible rfl | rfl | exact Or.inl rfl | (simp; done) | skip)

theorem within_State_ask (c : Nat) (p : Nat) {s : State} (hs : Within m s₀ s) (hm : Sub 0x200400000000000000000000000000000000000000000000000000000000004000000000000000000000000000000000000000000 m) : Within m s₀ (State.ask s c p).1 := by
  unfold State.ask
  repeat' first
    | with_reducible assumption
    | exact Sub.up hm (by decide)
    | exact Sub.bit hm (by decide)
    | (intro x; (first | (refine within_cut (m := m) (s₀ := s₀) x ?_ ?_; unfold x; rotate_left; clear_value x; intro hx) | skip))
    | lift_lets -underBinder
    | with_reducible apply within_ite
    | with_reducible apply within_State_grant
    | with_reducible apply within_State_bump
    | (refine within_of_snd (by assumption) ?_)
    | (refine within_of_fst (by assumption) ?_)
    | (split)
    | (dsimp -zeta only)

theorem within_State_freeBufs {s : State} (c : Nat) (l : List Buf) (hs : Within m s₀ s) (hm : Sub 0x200000000000000000000000000000000000000000000000000000000000000000000000000000000000000000000000000000000 m)  : Within m s₀ (State.freeBufs s c l) := by
  unfold State.freeBufs
  repeat' first
    | with_reducible assumption
    | exact Sub.up hm (by decide)
    | exact Sub.bit hm (by decide)
    | (intro x; (first | (refine within_cut (m := m) (s₀ := s₀) x ?_ ?_; unfold x; rotate_left; clear_value x; intro hx) | skip))
    | lift_lets -underBinder
    | (apply within_mk <;> first | exact Or.inl (by with_reducible rfl) | exact Or.inr (Sub.bit hm (by decide)) | with_reducible rfl | rfl | exact Or.inl rfl | (simp; done) | skip)

theorem within_takeBuf_pools (c : Nat) (n : Nat) : ∀ (p : Nat) {s : State}, Within m s₀ s → Sub 0x200400000000000000000000000000000000000000000000000000000000004000000000000000000000000000000000000000000 m → Within m s₀ (State.takeBuf s c p n).1 := by
  induction n with
  | zero => intro p s hs hm; exact within_State_ask c p hs (Sub.up hm (by decide))
  | succ n ih =>
    intro p s hs hm
    have h := within_State_ask c p hs (Sub.up hm (by decide))
    unfold State.takeBuf
    split
    · next e => exact within_of_fst e h
    · next e =>
      split
      · exact within_of_fst e h
      · exact ih _ (within_of_fst e h) hm

theorem within_State_takeBuf (c : Nat) (p : Nat) (n : Nat) {s : State} (hs : Within m s₀ s) (hm : Sub 0x200400000000000000000000000000000000000000000000000000000000004000000000000000000000000000000000000000000 m) : Within m s₀ (State.takeBuf s c p n).1 :=
  within_takeBuf_pools c n p hs hm

theorem within_takeBufs_chain (c p : Nat) (n : Nat) : ∀ {s : State}, Within m s₀ s → Sub 0x200400000000000000000000000000000000000000000000000000000000004000000000000000000000000000000000000000000 m → Within m s₀ (State.takeBufs s c p n).1 := by
  induction n with
  | zero => intro s hs _; exact hs
  | succ n ih =>
    intro s hs hm
    have h := within_takeBuf_pools c 7 p hs (Sub.up hm (by decide))
    unfold State.takeBufs
    split
    · next e => exact within_of_fst e h
    · next e =>
      have k := ih (within_of_fst e h) hm
      split
      · next e2 => exact within_of_fst e2 k
      · next e2 => exact within_State_freeBufs _ _ (within_of_fst e2 k) (Sub.up hm (by decide))

theorem within_State_takeBufs (c : Nat) (p : Nat) (n : Nat) {s : State} (hs : Within m s₀ s) (hm : Sub 0x200400000000000000000000000000000000000000000000000000000000004000000000000000000000000000000000000000000 m) : Within m s₀ (State.takeBufs s c p n).1 :=
  within_takeBufs_chain c p n hs hm

theorem within_State_withUnit (c : Nat) (f : State → State) {s : State} (hs : Within m s₀ s) (hm : Sub 0x200400000000000000000000000000000000000000000000000000000000005000000000000000040080000000000008000000000 m) (hf : ∀ x0, Within m s₀ x0 → Within m s₀ (f x0)) : Within m s₀ (State.withUnit s c f) := by
  unfold State.withUnit
  repeat' first
    | with_reducible assumption
    | exact Sub.up hm (by decide)
    | exact Sub.bit hm (by decide)
    | (intro x; (first | (refine within_cut (m := m) (s₀ := s₀) x ?_ ?_; unfold x; rotate_left; clear_value x; intro hx) | skip))
    | lift_lets -underBinder
    | with_reducible apply within_ite
    | with_reducible apply hf
    | with_reducible apply within_State_takeBuf
    | with_reducible apply within_showBasin
    | with_reducible apply within_State_freeBufs
    | (refine within_of_snd (by assumption) ?_)
    | (refine within_of_fst (by assumption) ?_)
    | (split)
    | (dsimp -zeta only)

theorem within_State_dropLanded (l : List Task) {s : State} (hs : Within m s₀ s) (hm : Sub 0x200000000000000000000000000000000000000000000000000000000000001000000000000000040080000000000008000000000 m) : Within m s₀ (State.dropLanded s l) := by
  unfold State.dropLanded
  repeat' first
    | with_reducible assumption
    | exact Sub.up hm (by decide)
    | exact Sub.bit hm (by decide)
    | (intro x; (first | (refine within_cut (m := m) (s₀ := s₀) x ?_ ?_; unfold x; rotate_left; clear_value x; intro hx) | skip))
    | lift_lets -underBinder
    | with_reducible apply within_ite
    | with_reducible apply within_showBasin
    | with_reducible apply within_State_freeBufs
    | (refine within_of_snd (by assumption) ?_)
    | (refine within_of_fst (by assumption) ?_)
    | (split)
    | (dsimp -zeta only)

theorem within_State_basinViolation {s : State} (c : Nat) (p : Nat) (b : Nat) (reason : Nat) (hs : Within m s₀ s) (hm : Sub 0x9000000000000000000000000000000000000000000 m)  : Within m s₀ (State.basinViolation s c p b reason) := by
  unfold State.basinViolation
  repeat' first
    | with_reducible assumption
    | exact Sub.up hm (by decide)
    | exact Sub.bit hm (by decide)
    | (intro x; (first | (refine within_cut (m := m) (s₀ := s₀) x ?_ ?_; unfold x; rotate_left; clear_value x; intro hx) | skip))
    | lift_lets -underBinder
    | with_reducible apply within_ite
    | with_reducible apply within_State_put
    | with_reducible apply within_State_ev

theorem within_State_bankViolation {s : State} (cls : Nat) (number : Nat) (bank : Nat) (w : Nat) (hs : Within m s₀ s) (hm : Sub 0x40000000000000000000000000000000000000000000000 m)  : Within m s₀ (State.bankViolation s cls number bank w) := by
  unfold State.bankViolation
  repeat' first
    | with_reducible assumption
    | exact Sub.up hm (by decide)
    | exact Sub.bit hm (by decide)
    | (intro x; (first | (refine within_cut (m := m) (s₀ := s₀) x ?_ ?_; unfold x; rotate_left; clear_value x; intro hx) | skip))
    | lift_lets -underBinder
    | with_reducible apply within_ite
    | with_reducible apply within_State_put

theorem within_State_engineClass (e : BankEngine) {s : State} (hs : Within m s₀ s) (hm : Sub 0x400000000000000000000000000000000000000000000000000000000000000000000000000000000000000000000000000000 m) : Within m s₀ (State.engineClass s e).2.2 := by
  unfold State.engineClass
  repeat' first
    | with_reducible assumption
    | exact Sub.up hm (by decide)
    | exact Sub.bit hm (by decide)
    | (intro x; (first | (refine within_cut (m := m) (s₀ := s₀) x ?_ ?_; unfold x; rotate_left; clear_value x; intro hx) | skip))
    | lift_lets -underBinder
    | with_reducible apply within_ite
    | with_reducible apply within_State_fresh
    | (refine within_of_snd (by assumption) ?_)
    | (refine within_of_fst (by assumption) ?_)
    | (split)
    | (dsimp -zeta only)

theorem within_State_eccCorrected {s : State} (bank : Nat) (column : Nat) (hs : Within m s₀ s) (hm : Sub 0x80000000000000000000000000000000000000000000000000000000000B000000000000000000000000000000000000000000000 m)  : Within m s₀ (State.eccCorrected s bank column) := by
  unfold State.eccCorrected
  repeat' first
    | with_reducible assumption
    | exact Sub.up hm (by decide)
    | exact Sub.bit hm (by decide)
    | intro _
    | with_reducible apply within_State_puti
    | with_reducible apply within_State_evi
    | with_reducible apply within_State_bumpi
    | with_reducible apply within_State_logFault

theorem within_State_eccUncorr {s : State} (bank : Nat) (hs : Within m s₀ s) (hm : Sub 0x5000000000000000000000000000000000000000000000 m)  : Within m s₀ (State.eccUncorr s bank) := by
  unfold State.eccUncorr
  repeat' first
    | with_reducible assumption
    | exact Sub.up hm (by decide)
    | exact Sub.bit hm (by decide)
    | intro _
    | with_reducible apply within_State_evi
    | with_reducible apply within_State_bumpi

end Sys2Proof.Machine
end

