-- ==== Sys2Proof/Laws/WithinPebbleOps.lean ====
section
/-! SUPPORT. What the operations of Machine/PebbleOps.lean can change, and that they keep a state sound. -/
namespace Sys2Proof.Machine

variable {m : Nat} {s₀ : State}

theorem within_State_countPebble {s : State} (e : PblEnd) (hs : Within m s₀ s) (hm : Sub 0xE00400000000000000000000000000000000000000000000000 m)  : Within m s₀ (State.countPebble s e) := by
  unfold State.countPebble
  repeat' first
    | with_reducible assumption
    | exact Sub.up hm (by decide)
    | exact Sub.bit hm (by decide)
    | (intro x; (first | (refine within_cut (m := m) (s₀ := s₀) x ?_ ?_; unfold x; rotate_left; clear_value x; intro hx) | skip))
    | lift_lets -underBinder
    | with_reducible apply within_ite
    | with_reducible apply within_State_ev
    | with_reducible apply within_State_bump

theorem within_State_modPebble (f : PebbleSt → PebbleSt) {s : State} (hs : Within m s₀ s) (hm : Sub 0x2000000000000000000000000000000000000000000000000000000000000000000000000000000000000000000000000000000000 m) : Within m s₀ (State.modPebble s f) := by
  unfold State.modPebble
  repeat' first
    | with_reducible assumption
    | exact Sub.up hm (by decide)
    | exact Sub.bit hm (by decide)
    | (intro x; (first | (refine within_cut (m := m) (s₀ := s₀) x ?_ ?_; unfold x; rotate_left; clear_value x; intro hx) | skip))
    | lift_lets -underBinder
    | with_reducible apply within_ite
    | (apply within_mk <;> first | exact Or.inl (by with_reducible rfl) | exact Or.inr (Sub.bit hm (by decide)) | with_reducible rfl | rfl | exact Or.inl rfl | (simp; done) | skip)
    | (refine within_of_snd (by assumption) ?_)
    | (refine within_of_fst (by assumption) ?_)
    | (split)
    | (dsimp -zeta only)

theorem within_State_showLanes  {s : State} (hs : Within m s₀ s) (hm : Sub 0x200000000000000000000000000000000000000000000000 m) : Within m s₀ (State.showLanes s) := by
  unfold State.showLanes
  repeat' first
    | with_reducible assumption
    | exact Sub.up hm (by decide)
    | exact Sub.bit hm (by decide)
    | (intro x; (first | (refine within_cut (m := m) (s₀ := s₀) x ?_ ?_; unfold x; rotate_left; clear_value x; intro hx) | skip))
    | lift_lets -underBinder
    | with_reducible apply within_ite
    | with_reducible apply within_State_put
    | (refine within_of_snd (by assumption) ?_)
    | (refine within_of_fst (by assumption) ?_)
    | (split)
    | (dsimp -zeta only)

theorem within_State_jobBufs  {s : State} (hs : Within m s₀ s) (hm : Sub 0x200400000000000000000000000000000000000000000000000000000000004000000000000000000000000000000000000000000 m) : Within m s₀ (State.jobBufs s).1 := by
  unfold State.jobBufs
  repeat' first
    | with_reducible assumption
    | exact Sub.up hm (by decide)
    | exact Sub.bit hm (by decide)
    | (intro x; (first | (refine within_cut (m := m) (s₀ := s₀) x ?_ ?_; unfold x; rotate_left; clear_value x; intro hx) | skip))
    | lift_lets -underBinder
    | with_reducible apply within_ite
    | with_reducible apply within_State_takeBuf
    | with_reducible apply within_State_freeBufs
    | (refine within_of_snd (by assumption) ?_)
    | (refine within_of_fst (by assumption) ?_)
    | (split)
    | (dsimp -zeta only)

theorem within_State_giveLanes {s : State} (h : Within m s₀ s) (n : Nat) (hm : Sub 0x2200400000000000000000000000000000000000000000000000000000000005000000000000000040080000000000008000000000 m) : Within m s₀ (s.giveLanes n) := by
  induction n generalizing s with
  | zero => exact h
  | succ n ih =>
    have hb := within_State_jobBufs h (Sub.up hm (by decide))
    unfold State.giveLanes
    split
    · split
      · next e => exact ih (within_State_modPebble _ (within_showBasin _ (within_of_fst e hb) (Sub.up hm (by decide))) (Sub.up hm (by decide)))
      · next e => exact within_of_fst e hb
    · exact h

theorem within_State_runLanes  {s : State} (hs : Within m s₀ s) (hm : Sub 0x2200400000000000000000000000000000000000000000000000000000200005000000000000000040080000000000008000000000 m) : Within m s₀ (State.runLanes s) := by
  unfold State.runLanes
  repeat' first
    | with_reducible assumption
    | exact Sub.up hm (by decide)
    | exact Sub.bit hm (by decide)
    | (intro x; (first | (refine within_cut (m := m) (s₀ := s₀) x ?_ ?_; unfold x; rotate_left; clear_value x; intro hx) | skip))
    | lift_lets -underBinder
    | with_reducible apply within_ite
    | with_reducible apply within_State_giveLanes
    | with_reducible apply within_State_showLanes
    | (refine within_of_snd (by assumption) ?_)
    | (refine within_of_fst (by assumption) ?_)
    | (split)
    | (dsimp -zeta only)

theorem within_State_submitJob (c : PblClient) (input : List Byte) {s : State} (hs : Within m s₀ s) (hm : Sub 0x2200400000000000000000000000000000000000000000000000000000200005000000000000000040080000000000008000000000 m) : Within m s₀ (State.submitJob s c input) := by
  unfold State.submitJob
  repeat' first
    | with_reducible assumption
    | exact Sub.up hm (by decide)
    | exact Sub.bit hm (by decide)
    | (intro x; (first | (refine within_cut (m := m) (s₀ := s₀) x ?_ ?_; unfold x; rotate_left; clear_value x; intro hx) | skip))
    | lift_lets -underBinder
    | with_reducible apply within_ite
    | with_reducible apply within_State_modPebble
    | with_reducible apply within_State_runLanes
    | (refine within_of_snd (by assumption) ?_)
    | (refine within_of_fst (by assumption) ?_)
    | (split)
    | (dsimp -zeta only)

theorem within_State_endJob (j : PblWork) {s : State} (hs : Within m s₀ s) (hm : Sub 0x2200400000000000000000000000000000000000000000000000000000200005000000000000000040080000000000008000000000 m) : Within m s₀ (State.endJob s j) := by
  unfold State.endJob
  repeat' first
    | with_reducible assumption
    | exact Sub.up hm (by decide)
    | exact Sub.bit hm (by decide)
    | (intro x; (first | (refine within_cut (m := m) (s₀ := s₀) x ?_ ?_; unfold x; rotate_left; clear_value x; intro hx) | skip))
    | lift_lets -underBinder
    | with_reducible apply within_ite
    | with_reducible apply within_State_modPebble
    | with_reducible apply within_showBasin
    | with_reducible apply within_State_freeBufs
    | with_reducible apply within_State_runLanes
    | (refine within_of_snd (by assumption) ?_)
    | (refine within_of_fst (by assumption) ?_)
    | (split)
    | (dsimp -zeta only)

end Sys2Proof.Machine
end

