-- ==== Sys2Proof/Laws/WithinBasin.lean ====
section
/-! SUPPORT. What the operations of Machine/Basin.lean can change, and that they keep a state sound. -/
namespace Sys2Proof.Machine

variable {m : Nat} {s₀ : State}

theorem within_State_clearBank {s : State} (bank : Nat) (h : Within m s₀ s) (hm : Sub 0x200010000000000000000000000000000000000000000000000000000000000000000000000000000000000000000000000000000 m) :
    Within m s₀ (s.clearBank bank) := by
  refine h.trans ⟨{ h.sound with mem := ?_ }, ?_⟩
  · refine assocWf_congr _ (memDflt s.basin.stale) ?_ (assocWf_filter _ _ h.sound.mem)
    intro e he
    have hb : e.1 / 262144 ≠ bank := by simpa using (List.mem_filter.1 he).2
    simp only [memDflt, State.clearBank, assocGet_del_other id bank _ (show id (e.1 / 262144) ≠ id bank from hb)]
  · have h1 : m.testBit 400 = true := Sub.bit hm (by decide)
    have h2 : m.testBit 417 = true := Sub.bit hm (by decide)
    intro p hp
    cases p <;> simp only [Region.same] <;> try rfl
    case reg => exact fun _ _ => rfl
    all_goals simp [Region.bit, h1, h2] at hp

theorem within_judgeHandover (bank : Nat) {s : State} (hs : Within m s₀ s) (hm : Sub 0x200000000000000000000000000000000000000000000000000000000001800000000000000000000000000000000000000000000 m)  : Within m s₀ (judgeHandover bank s) := by
  unfold judgeHandover
  repeat' first
    | with_reducible assumption
    | exact Sub.up hm (by decide)
    | exact Sub.bit hm (by decide)
    | (intro x; (first | (refine within_cut (m := m) (s₀ := s₀) x ?_ ?_; unfold x; rotate_left; clear_value x; intro hx) | skip))
    | lift_lets -underBinder
    | with_reducible apply within_ite
    | with_reducible apply within_State_puti
    | with_reducible apply within_State_evi
    | (apply within_mk <;> first | exact Or.inl (by with_reducible rfl) | exact Or.inr (Sub.bit hm (by decide)) | with_reducible rfl | rfl | exact Or.inl rfl | (simp; done) | skip)

theorem within_ownerWrite (bank : Nat) (w : Word) {s : State} (hs : Within m s₀ s) (hm : Sub 0x200000000000000000000000000000000000000000000000000000000001800000000000000000000000000000000000000000000 m)  : Within m s₀ (ownerWrite bank w s) := by
  unfold ownerWrite
  repeat' first
    | with_reducible assumption
    | exact Sub.up hm (by decide)
    | exact Sub.bit hm (by decide)
    | (intro x; (first | (refine within_cut (m := m) (s₀ := s₀) x ?_ ?_; unfold x; rotate_left; clear_value x; intro hx) | skip))
    | lift_lets -underBinder
    | with_reducible apply within_ite
    | with_reducible apply within_judgeHandover
    | with_reducible apply within_State_swWrite
    | (apply within_mk <;> first | exact Or.inl (by with_reducible rfl) | exact Or.inr (Sub.bit hm (by decide)) | with_reducible rfl | rfl | exact Or.inl rfl | (simp; done) | skip)

theorem within_judgeWaiting {s : State} (hs : Within m s₀ s) (hm : Sub 0x200000000000000000000000000000000000000000000000000000000001800000000000000000000000000000000000000000000 m)  : Within m s₀ (judgeWaiting s) := by
  unfold judgeWaiting
  repeat' first
    | with_reducible assumption
    | exact Sub.up hm (by decide)
    | exact Sub.bit hm (by decide)
    | (intro x; (first | (refine within_cut (m := m) (s₀ := s₀) x ?_ ?_; unfold x; rotate_left; clear_value x; intro hx) | skip))
    | lift_lets -underBinder
    | with_reducible apply within_judgeHandover
    | with_reducible apply within_foldl
    | (apply within_mk <;> first | exact Or.inl (by with_reducible rfl) | exact Or.inr (Sub.bit hm (by decide)) | with_reducible rfl | rfl | exact Or.inl rfl | (simp; done) | skip)

theorem within_handoverEnd (bank : Nat) {s : State} (hs : Within m s₀ s) (hm : Sub 0x200010000000000000000000000000000000000000000000000000000001800000000000000000000000000000000000000000000 m)  : Within m s₀ (handoverEnd bank s) := by
  unfold handoverEnd
  repeat' first
    | with_reducible assumption
    | exact Sub.up hm (by decide)
    | exact Sub.bit hm (by decide)
    | (intro x; (first | (refine within_cut (m := m) (s₀ := s₀) x ?_ ?_; unfold x; rotate_left; clear_value x; intro hx) | skip))
    | lift_lets -underBinder
    | with_reducible apply within_ite
    | with_reducible apply within_State_clearBank
    | with_reducible apply within_State_puti
    | with_reducible apply within_State_evi
    | (refine within_of_snd (by assumption) ?_)
    | (refine within_of_fst (by assumption) ?_)
    | (split)
    | (apply within_mk <;> first | exact Or.inl (by with_reducible rfl) | exact Or.inr (Sub.bit hm (by decide)) | with_reducible rfl | rfl | exact Or.inl rfl | (simp; done) | skip)

theorem within_poolBanksEffect (p : Nat) (w : Word) {s : State} (hs : Within m s₀ s) (hm : Sub 0x11000000000000000040080000000000008000000000 m)  : Within m s₀ (poolBanksEffect p w s) := by
  unfold poolBanksEffect
  repeat' first
    | with_reducible assumption
    | exact Sub.up hm (by decide)
    | exact Sub.bit hm (by decide)
    | (intro x; (first | (refine within_cut (m := m) (s₀ := s₀) x ?_ ?_; unfold x; rotate_left; clear_value x; intro hx) | skip))
    | lift_lets -underBinder
    | with_reducible apply within_ite
    | with_reducible apply within_showBasin
    | with_reducible apply within_State_ev
    | with_reducible apply within_State_swWrite

theorem within_cpoolEffect (w : Word) {s : State} (hs : Within m s₀ s) (hm : Sub 0x3000000000000000040080000000000008000000000 m)  : Within m s₀ (cpoolEffect w s) := by
  unfold cpoolEffect
  repeat' first
    | with_reducible assumption
    | exact Sub.up hm (by decide)
    | exact Sub.bit hm (by decide)
    | (intro x; (first | (refine within_cut (m := m) (s₀ := s₀) x ?_ ?_; unfold x; rotate_left; clear_value x; intro hx) | skip))
    | lift_lets -underBinder
    | with_reducible apply within_ite
    | with_reducible apply within_showBasin
    | with_reducible apply within_State_ev
    | with_reducible apply within_State_swWrite

theorem within_minEffect (c : Nat) (p : Nat) (w : Word) {s : State} (hs : Within m s₀ s) (hm : Sub 0x201000000000000000040080000000000008000000000 m)  : Within m s₀ (minEffect c p w s) := by
  unfold minEffect
  repeat' first
    | with_reducible assumption
    | exact Sub.up hm (by decide)
    | exact Sub.bit hm (by decide)
    | (intro x; (first | (refine within_cut (m := m) (s₀ := s₀) x ?_ ?_; unfold x; rotate_left; clear_value x; intro hx) | skip))
    | lift_lets -underBinder
    | with_reducible apply within_ite
    | with_reducible apply within_showBasin
    | with_reducible apply within_State_ev
    | with_reducible apply within_State_swWrite

theorem within_answerRequest (may : Bool) (r : Nat × Nat) {s : State} (start : State) (hs : Within m s₀ s) (hm : Sub 0x200600000000000000000000000000000000000000000000000000000000004000000000000000000000000000000000000000000 m) : Within m s₀ (answerRequest start may r s) := by
  unfold answerRequest
  apply within_ite <;> intro _
  · exact within_State_emit _ (within_State_grant _ _ hs (Sub.up hm (by decide))) (Sub.up hm (by decide))
  · have h := within_State_emit (.bufferAnswer r.1 r.2 none) (within_State_bump BSN_NONE.COUNT 1 hs (Sub.bit hm (by decide))) (Sub.up hm (by decide))
    lift_lets -underBinder
    intro t
    replace h : Within m s₀ t := h
    clear_value t
    apply within_mk h <;> first | exact Or.inl (by with_reducible rfl) | exact Or.inr (Sub.bit hm (by decide)) | rfl

theorem within_sharedGrants (start : State) {s : State} (h : Within m s₀ s) (l : List (Nat × Nat)) (hm : Sub 0x200600000000000000000000000000000000000000000000000000000000004000000000000000000000000000000000000000000 m) :
    Within m s₀ (sharedGrants start l s) := by
  induction l generalizing s with
  | nil => exact h
  | cons r l ih => exact ih (within_answerRequest _ _ _ h hm)

theorem within_requestEffect (rs : List (Nat × Nat)) {s : State} (hs : Within m s₀ s) (hm : Sub 0x220060000000000000000000000000000000000000000000000000000020000D000000000000000040080000000000008000000000 m)  : Within m s₀ (requestEffect rs s) := by
  unfold requestEffect
  repeat' first
    | with_reducible assumption
    | exact Sub.up hm (by decide)
    | exact Sub.bit hm (by decide)
    | (intro x; (first | (refine within_cut (m := m) (s₀ := s₀) x ?_ ?_; unfold x; rotate_left; clear_value x; intro hx) | skip))
    | lift_lets -underBinder
    | with_reducible apply within_ite
    | with_reducible apply within_showBasin
    | with_reducible apply within_State_basinViolation
    | apply within_sharedGrants
    | with_reducible apply within_foldl
    | with_reducible apply within_State_emit
    | with_reducible apply within_answerRequest
    | with_reducible apply within_sharedGrants
    | with_reducible apply within_State_runLanes
    | (apply within_mk <;> first | exact Or.inl (by with_reducible rfl) | exact Or.inr (Sub.bit hm (by decide)) | with_reducible rfl | rfl | exact Or.inl rfl | (simp; done) | skip)
    | (refine within_of_snd (by assumption) ?_)
    | (refine within_of_fst (by assumption) ?_)
    | (split)

theorem within_freeEffect (c : Nat) (p : Nat) (b : Nat) {s : State} (hs : Within m s₀ s) (hm : Sub 0x220060000000000000000000000000000000000000000000000000000020000D000000000000000040080000000000008000000000 m)  : Within m s₀ (freeEffect c p b s) := by
  unfold freeEffect
  repeat' first
    | with_reducible assumption
    | exact Sub.up hm (by decide)
    | exact Sub.bit hm (by decide)
    | (intro x; (first | (refine within_cut (m := m) (s₀ := s₀) x ?_ ?_; unfold x; rotate_left; clear_value x; intro hx) | skip))
    | lift_lets -underBinder
    | with_reducible apply within_ite
    | with_reducible apply within_showBasin
    | with_reducible apply within_State_freeBufs
    | with_reducible apply within_State_basinViolation
    | with_reducible apply within_State_runLanes
    | with_reducible apply within_State_emit
    | (refine within_of_snd (by assumption) ?_)
    | (refine within_of_fst (by assumption) ?_)
    | (split)

theorem within_fieldBurnEffect (w : Word) {s : State} (hs : Within m s₀ s) (hm : Sub 0x180000000000000000000000000000000000000000000000 m)  : Within m s₀ (fieldBurnEffect w s) := by
  unfold fieldBurnEffect
  repeat' first
    | with_reducible assumption
    | exact Sub.up hm (by decide)
    | exact Sub.bit hm (by decide)
    | intro _
    | with_reducible apply within_ite
    | with_reducible apply within_State_put

theorem within_burnEnd {s : State} (hs : Within m s₀ s) (hm : Sub 0x200000000000000000000000000000000000000000000000000000000180000000000000000000000000000000000000000000000 m)  : Within m s₀ (burnEnd s) := by
  unfold burnEnd
  repeat' first
    | with_reducible assumption
    | exact Sub.up hm (by decide)
    | exact Sub.bit hm (by decide)
    | (intro x; (first | (refine within_cut (m := m) (s₀ := s₀) x ?_ ?_; unfold x; rotate_left; clear_value x; intro hx) | skip))
    | lift_lets -underBinder
    | with_reducible apply within_ite
    | with_reducible apply within_State_put
    | (apply within_mk <;> first | exact Or.inl (by with_reducible rfl) | exact Or.inr (Sub.bit hm (by decide)) | with_reducible rfl | rfl | exact Or.inl rfl | (simp; done) | skip)

end Sys2Proof.Machine
end

