-- ==== Sys2Proof/Laws/WithinStopOps.lean ====
section
/-! SUPPORT. What the operations of Machine/StopOps.lean can change, and that they keep a state sound. -/
namespace Sys2Proof.Machine

variable {m : Nat} {s₀ : State}

theorem within_State_traceRecord {s : State} (event : Nat) (unit : Nat) (arg0 : Nat) (arg1 : Nat) (arg2 : Nat) (hs : Within m s₀ s) (hm : Sub 0x1000600000000000000000000000604000000000000000000000000000000000000000000000000000000000000000000000000000 m)  : Within m s₀ (State.traceRecord s event unit arg0 arg1 arg2) := by
  unfold State.traceRecord
  repeat' first
    | with_reducible assumption
    | exact Sub.up hm (by decide)
    | exact Sub.bit hm (by decide)
    | (dsimp only; exact Sub.bit hm (by decide))
    | (intro x; (first | (refine within_cut (m := m) (s₀ := s₀) x ?_ ?_; unfold x; rotate_left; clear_value x; intro hx) | skip))
    | lift_lets -underBinder
    | with_reducible apply within_ite
    | with_reducible apply within_State_put
    | with_reducible apply within_State_ev
    | with_reducible apply within_State_bump
    | with_reducible apply within_State_emit
    | with_reducible apply within_State_fresh
    | (refine within_of_snd (by assumption) ?_)
    | (refine within_of_fst (by assumption) ?_)
    | (dsimp -zeta only)
    | (split)
    | (apply within_mk <;> first | exact Or.inl (by with_reducible rfl) | exact Or.inr (Sub.bit hm (by decide)) | with_reducible rfl | rfl | exact Or.inl rfl | (simp; done) | skip)

theorem within_State_trace {s : State} (event : Nat) (unit : Nat) (arg0 : Nat) (arg1 : Nat) (arg2 : Nat) (hs : Within m s₀ s) (hm : Sub 0x1000600000000000000000000000604000000000000000000000000000000000000000000000000000000000000000000000000000 m)  : Within m s₀ (State.trace s event unit arg0 arg1 arg2) := by
  unfold State.trace
  repeat' first
    | with_reducible assumption
    | exact Sub.up hm (by decide)
    | exact Sub.bit hm (by decide)
    | intro _
    | with_reducible apply within_ite
    | with_reducible apply within_State_traceRecord

theorem within_State_startDrain {s : State} (hs : Within m s₀ s) (hm : Sub 0x401000000000000000000000000000000000000000000000000000000000000000000000000000000000000000000000000000000 m)  : Within m s₀ (State.startDrain s) := by
  unfold State.startDrain
  repeat' first
    | with_reducible assumption
    | exact Sub.up hm (by decide)
    | exact Sub.bit hm (by decide)
    | (intro x; (first | (refine within_cut (m := m) (s₀ := s₀) x ?_ ?_; unfold x; rotate_left; clear_value x; intro hx) | skip))
    | lift_lets -underBinder
    | (apply within_mk <;> first | exact Or.inl (by with_reducible rfl) | exact Or.inr (Sub.bit hm (by decide)) | with_reducible rfl | rfl | exact Or.inl rfl | (simp; done) | skip)

theorem within_State_startScan {s : State} (hs : Within m s₀ s) (hm : Sub 0x1000000000000000000000000000002010000000000000000000000000000000000000000000000000000000000000000000000000 m)  : Within m s₀ (State.startScan s) := by
  unfold State.startScan
  repeat' first
    | with_reducible assumption
    | exact Sub.up hm (by decide)
    | exact Sub.bit hm (by decide)
    | (intro x; (first | (refine within_cut (m := m) (s₀ := s₀) x ?_ ?_; unfold x; rotate_left; clear_value x; intro hx) | skip))
    | lift_lets -underBinder
    | with_reducible apply within_State_put
    | (apply within_mk <;> first | exact Or.inl (by with_reducible rfl) | exact Or.inr (Sub.bit hm (by decide)) | with_reducible rfl | rfl | exact Or.inl rfl | (simp; done) | skip)

theorem within_State_trigger {s : State} (code : Nat) (hs : Within m s₀ s) (hm : Sub 0x1000600000000000000000000000606090000000000000000000000000000000000000000000000000000000000000000000000000 m)  : Within m s₀ (State.trigger s code) := by
  unfold State.trigger
  repeat' first
    | with_reducible assumption
    | exact Sub.up hm (by decide)
    | exact Sub.bit hm (by decide)
    | (intro x; (first | (refine within_cut (m := m) (s₀ := s₀) x ?_ ?_; unfold x; rotate_left; clear_value x; intro hx) | skip))
    | lift_lets -underBinder
    | with_reducible apply within_ite
    | with_reducible apply within_State_put
    | with_reducible apply within_State_trace
    | with_reducible apply within_State_startScan
    | (apply within_mk <;> first | exact Or.inl (by with_reducible rfl) | exact Or.inr (Sub.bit hm (by decide)) | with_reducible rfl | rfl | exact Or.inl rfl | (simp; done) | skip)

theorem within_State_latchRill (r : Nat) (cause : Nat) (stage : Nat) (step : Nat) {s : State} (hs : Within m s₀ s) (hm : Sub 0x8000000000000000000000000000000000E0000000000000000000000000000000000000000000000000000000000000000000000 m) : Within m s₀ (State.latchRill s r cause stage step) := by
  unfold State.latchRill
  repeat' first
    | with_reducible assumption
    | exact Sub.up hm (by decide)
    | exact Sub.bit hm (by decide)
    | (intro x; (first | (refine within_cut (m := m) (s₀ := s₀) x ?_ ?_; unfold x; rotate_left; clear_value x; intro hx) | skip))
    | lift_lets -underBinder
    | with_reducible apply within_ite
    | with_reducible apply within_State_put
    | with_reducible apply within_State_putPair
    | (apply within_mk <;> first | exact Or.inl (by with_reducible rfl) | exact Or.inr (Sub.bit hm (by decide)) | with_reducible rfl | rfl | exact Or.inl rfl | (simp; done) | skip)
    | (refine within_of_snd (by assumption) ?_)
    | (refine within_of_fst (by assumption) ?_)
    | (split)
    | (dsimp -zeta only)

theorem within_State_rillFault {s : State} (r : Nat) (cause : Nat) (stage : Nat) (row : Nat) (hs : Within m s₀ s) (hm : Sub 0x18046000000000000000000000006060900E0400000000000000000000000000000000000000000000000000000000000000000000 m)  : Within m s₀ (State.rillFault s r cause stage row) := by
  unfold State.rillFault
  repeat' first
    | with_reducible assumption
    | exact Sub.up hm (by decide)
    | exact Sub.bit hm (by decide)
    | (intro x; (first | (refine within_cut (m := m) (s₀ := s₀) x ?_ ?_; unfold x; rotate_left; clear_value x; intro hx) | skip))
    | lift_lets -underBinder
    | with_reducible apply within_ite
    | with_reducible apply within_State_ev
    | with_reducible apply within_State_modRill
    | with_reducible apply within_State_logFault
    | with_reducible apply within_State_trigger
    | with_reducible apply within_State_latchRill
    | (refine within_of_snd (by assumption) ?_)
    | (refine within_of_fst (by assumption) ?_)
    | (split)

end Sys2Proof.Machine
end

