-- ==== Sys2Proof/Laws/WithinMirrorOps.lean ====
section
/-! SUPPORT. What the operations of Machine/MirrorOps.lean can change, and that they keep a state sound. -/
namespace Sys2Proof.Machine

variable {m : Nat} {s₀ : State}

theorem within_State_mirHeld {s : State} (hs : Within m s₀ s) (hm : Sub 0x2 m)  : Within m s₀ (State.mirHeld s) := by
  unfold State.mirHeld
  repeat' first
    | with_reducible assumption
    | exact Sub.up hm (by decide)
    | exact Sub.bit hm (by decide)
    | intro _
    | with_reducible apply within_State_ev

theorem within_State_showFill {s : State} (hs : Within m s₀ s) (hm : Sub 0x4 m)  : Within m s₀ (State.showFill s) := by
  unfold State.showFill
  repeat' first
    | with_reducible assumption
    | exact Sub.up hm (by decide)
    | exact Sub.bit hm (by decide)
    | intro _
    | with_reducible apply within_State_put

theorem within_State_record {s : State} (type : Nat) (rill : Nat) (flags : Nat) (step : Nat) (body : List Byte) (hs : Within m s₀ s) (hm : Sub 0x10000000000000000000000000000000000000000000000000000000000000000000000000000000000000000000000000000004 m)  : Within m s₀ (State.record s type rill flags step body) := by
  unfold State.record
  repeat' first
    | with_reducible assumption
    | exact Sub.up hm (by decide)
    | exact Sub.bit hm (by decide)
    | (intro x; (first | (refine within_cut (m := m) (s₀ := s₀) x ?_ ?_; unfold x; rotate_left; clear_value x; intro hx) | skip))
    | lift_lets -underBinder
    | with_reducible apply within_ite
    | with_reducible apply within_State_showFill
    | (apply within_mk <;> first | exact Or.inl (by with_reducible rfl) | exact Or.inr (Sub.bit hm (by decide)) | with_reducible rfl | rfl | exact Or.inl rfl | (simp; done) | skip)

theorem within_State_latchFault (cause : Nat) (detail : Nat) (rill : Nat) (step : Nat) {s : State} (hs : Within m s₀ s) (hm : Sub 0x1000000000000000000000000000000000000000000000000000000000000000000000000000000000000000000000000000003A m) : Within m s₀ (State.latchFault s cause detail rill step) := by
  unfold State.latchFault
  repeat' first
    | with_reducible assumption
    | exact Sub.up hm (by decide)
    | exact Sub.bit hm (by decide)
    | (intro x; (first | (refine within_cut (m := m) (s₀ := s₀) x ?_ ?_; unfold x; rotate_left; clear_value x; intro hx) | skip))
    | lift_lets -underBinder
    | with_reducible apply within_ite
    | with_reducible apply within_State_put
    | with_reducible apply within_State_putPair
    | with_reducible apply within_State_ev
    | (apply within_mk <;> first | exact Or.inl (by with_reducible rfl) | exact Or.inr (Sub.bit hm (by decide)) | with_reducible rfl | rfl | exact Or.inl rfl | (simp; done) | skip)
    | (refine within_of_snd (by assumption) ?_)
    | (refine within_of_fst (by assumption) ?_)
    | (split)
    | (dsimp -zeta only)

theorem within_State_recordFault (r : HeldRec) {s : State} (hs : Within m s₀ s) (hm : Sub 0x10000000000000000000000000000000000000000000000000000000000000000000000000000000000000000000000000000006 m) : Within m s₀ (State.recordFault s r) := by
  unfold State.recordFault
  repeat' first
    | with_reducible assumption
    | exact Sub.up hm (by decide)
    | exact Sub.bit hm (by decide)
    | (intro x; (first | (refine within_cut (m := m) (s₀ := s₀) x ?_ ?_; unfold x; rotate_left; clear_value x; intro hx) | skip))
    | lift_lets -underBinder
    | with_reducible apply within_ite
    | with_reducible apply within_State_record
    | with_reducible apply within_State_mirHeld
    | (apply within_mk <;> first | exact Or.inl (by with_reducible rfl) | exact Or.inr (Sub.bit hm (by decide)) | with_reducible rfl | rfl | exact Or.inl rfl | (simp; done) | skip)
    | (refine within_of_snd (by assumption) ?_)
    | (refine within_of_fst (by assumption) ?_)
    | (split)
    | (dsimp -zeta only)

theorem within_State_flushFaults  {s : State} (hs : Within m s₀ s) (hm : Sub 0x10000000000000000000000000000000000000000000000000000000000000000000000000000000000000000000000000000004 m) : Within m s₀ (State.flushFaults s) := by
  unfold State.flushFaults
  repeat' first
    | with_reducible assumption
    | exact Sub.up hm (by decide)
    | exact Sub.bit hm (by decide)
    | (intro x; (first | (refine within_cut (m := m) (s₀ := s₀) x ?_ ?_; unfold x; rotate_left; clear_value x; intro hx) | skip))
    | lift_lets -underBinder
    | with_reducible apply within_ite
    | with_reducible apply within_State_record
    | with_reducible apply within_foldl
    | intro _
    | (apply within_mk <;> first | exact Or.inl (by with_reducible rfl) | exact Or.inr (Sub.bit hm (by decide)) | with_reducible rfl | rfl | exact Or.inl rfl | (simp; done) | skip)
    | (refine within_of_snd (by assumption) ?_)
    | (refine within_of_fst (by assumption) ?_)
    | (split)
    | (dsimp -zeta only)

theorem within_State_detFault {s : State} (cause : Nat) (detail : Nat) (rill : Nat) (step : Nat) (expected : Nat) (observed : Nat) (hs : Within m s₀ s) (hm : Sub 0x101060000000000000000000000060609000000000000000000000000000000000000000000000000000000000000000000000007E m)  : Within m s₀ (State.detFault s cause detail rill step expected observed) := by
  unfold State.detFault
  repeat' first
    | with_reducible assumption
    | exact Sub.up hm (by decide)
    | exact Sub.bit hm (by decide)
    | (intro x; (first | (refine within_cut (m := m) (s₀ := s₀) x ?_ ?_; unfold x; rotate_left; clear_value x; intro hx) | skip))
    | lift_lets -underBinder
    | with_reducible apply within_ite
    | with_reducible apply within_State_bump
    | with_reducible apply within_State_trigger
    | with_reducible apply within_State_latchFault
    | with_reducible apply within_State_recordFault
    | (refine within_of_snd (by assumption) ?_)
    | (refine within_of_fst (by assumption) ?_)
    | (split)

theorem within_State_beginSegment {s : State} (hs : Within m s₀ s) (hm : Sub 0x10400000000000000000000000000000000000000000000000000000000000000000000000000000000000000000000000000004 m)  : Within m s₀ (State.beginSegment s) := by
  unfold State.beginSegment
  repeat' first
    | with_reducible assumption
    | exact Sub.up hm (by decide)
    | exact Sub.bit hm (by decide)
    | (intro x; (first | (refine within_cut (m := m) (s₀ := s₀) x ?_ ?_; unfold x; rotate_left; clear_value x; intro hx) | skip))
    | lift_lets -underBinder
    | with_reducible apply within_State_record
    | with_reducible apply within_State_fresh
    | (refine within_of_snd (by assumption) ?_)
    | (refine within_of_fst (by assumption) ?_)
    | (dsimp -zeta only)
    | (split)
    | (apply within_mk <;> first | exact Or.inl (by with_reducible rfl) | exact Or.inr (Sub.bit hm (by decide)) | with_reducible rfl | rfl | exact Or.inl rfl | (simp; done) | skip)

theorem within_State_unlist {s : State} (k : Nat) (step : Nat) (hs : Within m s₀ s) (hm : Sub 0x20C000000000000000000000000000000000000000000000000000000000001000000000000000040080000000000008000000000 m)  : Within m s₀ (State.unlist s k step) := by
  unfold State.unlist
  repeat' first
    | with_reducible assumption
    | exact Sub.up hm (by decide)
    | exact Sub.bit hm (by decide)
    | (intro x; (first | (refine within_cut (m := m) (s₀ := s₀) x ?_ ?_; unfold x; rotate_left; clear_value x; intro hx) | skip))
    | lift_lets -underBinder
    | with_reducible apply within_showBasin
    | with_reducible apply within_State_freeBufs
    | with_reducible apply within_State_modSlot
    | with_reducible apply within_ite
    | (apply within_mk <;> first | exact Or.inl (by with_reducible rfl) | exact Or.inr (Sub.bit hm (by decide)) | with_reducible rfl | rfl | exact Or.inl rfl | (simp; done) | skip)
    | (refine within_of_snd (by assumption) ?_)
    | (refine within_of_fst (by assumption) ?_)
    | (split)

theorem within_State_setSlotState {s : State} (k : Nat) (st : Nat) (hs : Within m s₀ s) (hm : Sub 0x8000000000 m)  : Within m s₀ (State.setSlotState s k st) := by
  unfold State.setSlotState
  repeat' first
    | with_reducible assumption
    | exact Sub.up hm (by decide)
    | exact Sub.bit hm (by decide)
    | (unfold slotFld; (try dsimp only); first | exact Sub.bit hm (by decide) | (split <;> exact Sub.bit hm (by decide)))
    | intro _
    | with_reducible apply within_State_put

theorem within_State_endReplay {s : State} (hs : Within m s₀ s) (hm : Sub 0x21C000000000000000000000000000000000000000000000000000000000001000000000000000040080000000000018000000002 m)  : Within m s₀ (State.endReplay s) := by
  unfold State.endReplay
  repeat' first
    | with_reducible assumption
    | exact Sub.up hm (by decide)
    | exact Sub.bit hm (by decide)
    | (unfold pendFld; (try dsimp only); first | exact Sub.bit hm (by decide) | (split <;> exact Sub.bit hm (by decide)))
    | (intro x; (first | (refine within_cut (m := m) (s₀ := s₀) x ?_ ?_; unfold x; rotate_left; clear_value x; intro hx) | skip))
    | lift_lets -underBinder
    | with_reducible apply within_ite
    | with_reducible apply within_State_unlist
    | with_reducible apply within_State_setSlotState
    | with_reducible apply within_State_put
    | with_reducible apply within_State_ev
    | with_reducible apply within_State_modSlot
    | with_reducible apply within_State_each
    | with_reducible apply within_foldl
    | (apply within_mk <;> first | exact Or.inl (by with_reducible rfl) | exact Or.inr (Sub.bit hm (by decide)) | with_reducible rfl | rfl | exact Or.inl rfl | (simp; done) | skip)
    | (refine within_of_snd (by assumption) ?_)
    | (refine within_of_fst (by assumption) ?_)
    | (split)

theorem within_State_checkReplay {s : State} (hs : Within m s₀ s) (hm : Sub 0x21C000000000000000000000000000000000000000000000000000000000001000000000000000040080000000000018000000002 m)  : Within m s₀ (State.checkReplay s) := by
  unfold State.checkReplay
  repeat' first
    | with_reducible assumption
    | exact Sub.up hm (by decide)
    | exact Sub.bit hm (by decide)
    | intro _
    | with_reducible apply within_ite
    | with_reducible apply within_State_endReplay
    | with_reducible apply within_State_ev
    | (refine within_of_snd (by assumption) ?_)
    | (refine within_of_fst (by assumption) ?_)
    | (split)

theorem within_State_mirApply {s : State} (hs : Within m s₀ s) (hm : Sub 0x21C400000000000000000000000000000000000000000000000000000000001000000000000000040080000000000018000000006 m)  : Within m s₀ (State.mirApply s) := by
  unfold State.mirApply
  repeat' first
    | with_reducible assumption
    | exact Sub.up hm (by decide)
    | exact Sub.bit hm (by decide)
    | (intro x; (first | (refine within_cut (m := m) (s₀ := s₀) x ?_ ?_; unfold x; rotate_left; clear_value x; intro hx) | skip))
    | lift_lets -underBinder
    | with_reducible apply within_ite
    | with_reducible apply within_State_showFill
    | with_reducible apply within_State_beginSegment
    | with_reducible apply within_State_endReplay
    | with_reducible apply within_State_putb
    | with_reducible apply within_State_mirHeld
    | (apply within_mk <;> first | exact Or.inl (by with_reducible rfl) | exact Or.inr (Sub.bit hm (by decide)) | with_reducible rfl | rfl | exact Or.inl rfl | (simp; done) | skip)
    | (refine within_of_snd (by assumption) ?_)
    | (refine within_of_fst (by assumption) ?_)
    | (split)

end Sys2Proof.Machine
end

