-- ==== Sys2Proof/Laws/WithinSluiceOps.lean ====
section
/-! SUPPORT. What the operations of Machine/SluiceOps.lean can change, and that they keep a state sound. -/
namespace Sys2Proof.Machine

variable {m : Nat} {s₀ : State}

theorem within_State_listStep {s : State} (k : Nat) (hs : Within m s₀ s) (hm : Sub 0xC000000000000000000000000000000000000000000000000000000000000000000000000000000000000000004000000000000 m)  : Within m s₀ (State.listStep s k) := by
  unfold State.listStep
  repeat' first
    | with_reducible assumption
    | exact Sub.up hm (by decide)
    | exact Sub.bit hm (by decide)
    | (intro x; (first | (refine within_cut (m := m) (s₀ := s₀) x ?_ ?_; unfold x; rotate_left; clear_value x; intro hx) | skip))
    | lift_lets -underBinder
    | with_reducible apply within_State_put
    | with_reducible apply within_State_modRill
    | with_reducible apply within_State_modSlot
    | with_reducible apply within_foldl
    | (refine within_of_snd (by assumption) ?_)
    | (refine within_of_fst (by assumption) ?_)
    | (split)

theorem within_State_listAhead {s : State} (hs : Within m s₀ s) (hm : Sub 0xC000000000000000000000000000000000000000000000000000000000000000000000000000000000000000004000000000000 m)  : Within m s₀ (State.listAhead s) := by
  unfold State.listAhead
  repeat' first
    | with_reducible assumption
    | exact Sub.up hm (by decide)
    | exact Sub.bit hm (by decide)
    | (intro x; (first | (refine within_cut (m := m) (s₀ := s₀) x ?_ ?_; unfold x; rotate_left; clear_value x; intro hx) | skip))
    | lift_lets -underBinder
    | with_reducible apply within_ite
    | with_reducible apply within_State_each
    | with_reducible apply within_State_listStep
    | with_reducible apply within_foldl
    | (refine within_of_snd (by assumption) ?_)
    | (refine within_of_fst (by assumption) ?_)
    | (split)

theorem within_State_endPlans {s : State} (hs : Within m s₀ s) (hm : Sub 0x18000000000 m)  : Within m s₀ (State.endPlans s) := by
  unfold State.endPlans
  repeat' first
    | with_reducible assumption
    | exact Sub.up hm (by decide)
    | exact Sub.bit hm (by decide)
    | (intro x; (first | (refine within_cut (m := m) (s₀ := s₀) x ?_ ?_; unfold x; rotate_left; clear_value x; intro hx) | skip))
    | lift_lets -underBinder
    | with_reducible apply within_ite
    | with_reducible apply within_State_setSlotState
    | with_reducible apply within_State_ev
    | with_reducible apply within_State_each
    | (refine within_of_snd (by assumption) ?_)
    | (refine within_of_fst (by assumption) ?_)
    | (split)

theorem within_State_acceptLive {s : State} (k : Nat) (x : LiveSample) (hs : Within m s₀ s) (hm : Sub 0x8000000000000000000000000000000000000000000000000000000000000000000000000000000000000000000000000000000 m)  : Within m s₀ (State.acceptLive s k x) := by
  unfold State.acceptLive
  repeat' first
    | with_reducible assumption
    | exact Sub.up hm (by decide)
    | exact Sub.bit hm (by decide)
    | (intro x; (first | (refine within_cut (m := m) (s₀ := s₀) x ?_ ?_; unfold x; rotate_left; clear_value x; intro hx) | skip))
    | lift_lets -underBinder
    | with_reducible apply within_State_modSlot

theorem within_State_firstRelease (step : Nat) {s : State} (hs : Within m s₀ s) (hm : Sub 0x2000000000000000000000000000000000000000000000000000000000000000000000000000000000000000000001008020000 m) : Within m s₀ (State.firstRelease s step) := by
  unfold State.firstRelease
  repeat' first
    | with_reducible assumption
    | exact Sub.up hm (by decide)
    | exact Sub.bit hm (by decide)
    | (intro x; (first | (refine within_cut (m := m) (s₀ := s₀) x ?_ ?_; unfold x; rotate_left; clear_value x; intro hx) | skip))
    | lift_lets -underBinder
    | with_reducible apply within_ite
    | with_reducible apply within_State_put
    | with_reducible apply within_State_ev
    | with_reducible apply within_State_bump
    | (apply within_mk <;> first | exact Or.inl (by with_reducible rfl) | exact Or.inr (Sub.bit hm (by decide)) | with_reducible rfl | rfl | exact Or.inl rfl | (simp; done) | skip)
    | (refine within_of_snd (by assumption) ?_)
    | (refine within_of_fst (by assumption) ?_)
    | (split)
    | (dsimp -zeta only)

theorem within_State_begin {s : State} (k : Nat) (step : Nat) (hs : Within m s₀ s) (hm : Sub 0xA000000000000000000000000000000000000000000000000000000000000000000000000000000000000000000301008020000 m)  : Within m s₀ (State.begin s k step) := by
  unfold State.begin
  repeat' first
    | with_reducible assumption
    | exact Sub.up hm (by decide)
    | exact Sub.bit hm (by decide)
    | (intro x; (first | (refine within_cut (m := m) (s₀ := s₀) x ?_ ?_; unfold x; rotate_left; clear_value x; intro hx) | skip))
    | lift_lets -underBinder
    | with_reducible apply within_State_putPair
    | with_reducible apply within_State_modSlot
    | with_reducible apply within_ite
    | with_reducible apply within_State_firstRelease
    | (refine within_of_snd (by assumption) ?_)
    | (refine within_of_fst (by assumption) ?_)
    | (split)

theorem within_State_armWatch {s : State} (r : Nat) (hs : Within m s₀ s) (hm : Sub 0x1000000000000000000000000000000000000000000000000000000000000000000000000000000000000000000000000000000000 m)  : Within m s₀ (State.armWatch s r) := by
  unfold State.armWatch
  repeat' first
    | with_reducible assumption
    | exact Sub.up hm (by decide)
    | exact Sub.bit hm (by decide)
    | (intro x; (first | (refine within_cut (m := m) (s₀ := s₀) x ?_ ?_; unfold x; rotate_left; clear_value x; intro hx) | skip))
    | lift_lets -underBinder
    | with_reducible apply within_ite
    | (apply within_mk <;> first | exact Or.inl (by with_reducible rfl) | exact Or.inr (Sub.bit hm (by decide)) | with_reducible rfl | rfl | exact Or.inl rfl | exact (Sound.queues (Within.sound (by assumption))).symm | exact (Sound.caches (Within.sound (by assumption))).symm | exact (Sound.watch (Within.sound (by assumption))).symm | (simp; done) | skip)

theorem within_State_takePart {s : State} (r : Nat) (hs : Within m s₀ s) (hm : Sub 0x120E000000000000000000000000000000000000000000000000000000000000000000000000000000000000000000301008020000 m)  : Within m s₀ (State.takePart s r) := by
  unfold State.takePart
  repeat' first
    | with_reducible assumption
    | exact Sub.up hm (by decide)
    | exact Sub.bit hm (by decide)
    | (intro x; (first | (refine within_cut (m := m) (s₀ := s₀) x ?_ ?_; unfold x; rotate_left; clear_value x; intro hx) | skip))
    | lift_lets -underBinder
    | with_reducible apply within_ite
    | with_reducible apply within_State_freeBufs
    | with_reducible apply within_State_setRill
    | with_reducible apply within_State_begin
    | with_reducible apply within_State_armWatch
    | (refine within_of_snd (by assumption) ?_)
    | (refine within_of_fst (by assumption) ?_)
    | (split)

theorem within_State_refill {s : State} (hs : Within m s₀ s) (hm : Sub 0x120E000000000000000000000000000000000000000000000000000000000000000000000000000000000000000004319008020000 m)  : Within m s₀ (State.refill s) := by
  unfold State.refill
  repeat' first
    | with_reducible assumption
    | exact Sub.up hm (by decide)
    | exact Sub.bit hm (by decide)
    | (intro x; (first | (refine within_cut (m := m) (s₀ := s₀) x ?_ ?_; unfold x; rotate_left; clear_value x; intro hx) | skip))
    | lift_lets -underBinder
    | with_reducible apply within_State_each
    | with_reducible apply within_State_listAhead
    | with_reducible apply within_State_endPlans
    | with_reducible apply within_State_takePart

end Sys2Proof.Machine
end

