-- ==== Sys2Proof/Laws/WithinFaults.lean ====
section
/-! SUPPORT. What the operations of Machine/Faults.lean can change, and that they keep a state sound. -/
namespace Sys2Proof.Machine

variable {m : Nat} {s₀ : State}

/-- The engines' status registers. -/
theorem engineOf_bit {a : Nat} (hm : Sub a m) (h : Sub 0x80004000200000000000000000000000000000 a) {s : State} {r : Nat} {g : WStage} {e : Fld × Nat}
    (he : s.engineOf r g = some e) : m.testBit e.1.reg.ctorIdx = true := by
  have hm := Sub.up hm h
  unfold State.engineOf at he
  split at he <;> cases he
  · exact Sub.bit hm (show Nat.testBit _ Reg.JET_STATUS.ctorIdx = true by decide)
  · exact Sub.bit hm (show Nat.testBit _ Reg.REED_STATUS.ctorIdx = true by decide)
  · exact Sub.bit hm (show Nat.testBit _ Reg.DEC_STATUS.ctorIdx = true by decide)

theorem faultEngine_bit {a : Nat} (hm : Sub a m) (h : Sub 0x80004000200000000000000000000000000000 a) {s : State} {r : Nat} {f : RillFault} {e : Fld × Nat}
    (he : s.faultEngine r f = some e) : m.testBit e.1.reg.ctorIdx = true := by
  unfold State.faultEngine at he
  split at he
  · obtain ⟨g, -, he⟩ := Option.bind_eq_some_iff.1 he
    exact engineOf_bit hm h he
  · cases he

theorem engTest_bit {a : Nat} (hm : Sub a m) (h : Sub 0x80004000200000000000000000000000000000 a) {x : Option (Nat × Nat)} {e : Fld × Nat}
    (he : (x.bind fun x => commandEngine x.1 x.2) = some e) : m.testBit e.1.reg.ctorIdx = true := by
  have hm := Sub.up hm h
  obtain ⟨x, -, he⟩ := Option.bind_eq_some_iff.1 he
  unfold commandEngine at he
  split at he <;> first | cases he; done | skip
  all_goals
    split at he <;> cases he
    first
      | exact Sub.bit hm (show Nat.testBit _ Reg.DEC_STATUS.ctorIdx = true by decide)
      | exact Sub.bit hm (show Nat.testBit _ Reg.JET_STATUS.ctorIdx = true by decide)
      | exact Sub.bit hm (show Nat.testBit _ Reg.REED_STATUS.ctorIdx = true by decide)

theorem within_startTickEffect {s : State} (hs : Within m s₀ s) (hm : Sub 0x1001000000000000000000200000000000000000000000000000000000000000000000000000000000000000000000000000000000 m)  : Within m s₀ (startTickEffect s) := by
  unfold startTickEffect
  repeat' first
    | with_reducible assumption
    | exact Sub.up hm (by decide)
    | exact Sub.bit hm (by decide)
    | (intro x; (first | (refine within_cut (m := m) (s₀ := s₀) x ?_ ?_; unfold x; rotate_left; clear_value x; intro hx) | skip))
    | lift_lets -underBinder
    | with_reducible apply within_ite
    | with_reducible apply within_State_put
    | (apply within_mk <;> first | exact Or.inl (by with_reducible rfl) | exact Or.inr (Sub.bit hm (by decide)) | with_reducible rfl | rfl | exact Or.inl rfl | (simp; done) | skip)

theorem within_State_startFault {s : State} (miss : Nat × Nat × Nat) (hs : Within m s₀ s) (hm : Sub 0x101060000000000000000000000060609000000000000000000000000000000000000000000000000000000000000000000000007E m)  : Within m s₀ (State.startFault s miss) := by
  unfold State.startFault
  repeat' first
    | with_reducible assumption
    | exact Sub.up hm (by decide)
    | exact Sub.bit hm (by decide)
    | (intro x; (first | (refine within_cut (m := m) (s₀ := s₀) x ?_ ?_; unfold x; rotate_left; clear_value x; intro hx) | skip))
    | lift_lets -underBinder
    | with_reducible apply within_State_detFault
    | with_reducible apply within_State_fresh

theorem within_State_markerPassed {s : State} (measured : List (List Nat)) (hs : Within m s₀ s) (hm : Sub 0x120F000000000000000000200000000000000000000000000000000000000000000000000000000000000000000004319008020000 m)  : Within m s₀ (State.markerPassed s measured) := by
  unfold State.markerPassed
  repeat' first
    | with_reducible assumption
    | exact Sub.up hm (by decide)
    | exact Sub.bit hm (by decide)
    | (intro x; (first | (refine within_cut (m := m) (s₀ := s₀) x ?_ ?_; unfold x; rotate_left; clear_value x; intro hx) | skip))
    | lift_lets -underBinder
    | with_reducible apply within_State_put
    | with_reducible apply within_State_refill
    | (apply within_mk <;> first | exact Or.inl (by with_reducible rfl) | exact Or.inr (Sub.bit hm (by decide)) | with_reducible rfl | rfl | exact Or.inl rfl | (simp; done) | skip)

theorem within_State_markerFailed {s : State} (miss : Nat × Nat × Nat) (hs : Within m s₀ s) (hm : Sub 0x101160000000000000000060000060609000000000000000000000000000000000000000000000000000000000000000000000007E m)  : Within m s₀ (State.markerFailed s miss) := by
  unfold State.markerFailed
  repeat' first
    | with_reducible assumption
    | exact Sub.up hm (by decide)
    | exact Sub.bit hm (by decide)
    | (intro x; (first | (refine within_cut (m := m) (s₀ := s₀) x ?_ ?_; unfold x; rotate_left; clear_value x; intro hx) | skip))
    | lift_lets -underBinder
    | with_reducible apply within_ite
    | with_reducible apply within_State_startFault
    | with_reducible apply within_State_put
    | with_reducible apply within_State_ev
    | (apply within_mk <;> first | exact Or.inl (by with_reducible rfl) | exact Or.inr (Sub.bit hm (by decide)) | with_reducible rfl | rfl | exact Or.inl rfl | (simp; done) | skip)

theorem within_markerEndEffect (measured : List (List Nat)) {s : State} (hs : Within m s₀ s) (hm : Sub 0x121F60000000000000000060000060609000000000000000000000000000000000000000000000000000000000000431900802007E m)  : Within m s₀ (markerEndEffect measured s) := by
  unfold markerEndEffect
  repeat' first
    | with_reducible assumption
    | exact Sub.up hm (by decide)
    | exact Sub.bit hm (by decide)
    | intro _
    | with_reducible apply within_ite
    | with_reducible apply within_State_markerPassed
    | with_reducible apply within_State_markerFailed
    | (refine within_of_snd (by assumption) ?_)
    | (refine within_of_fst (by assumption) ?_)
    | (split)

theorem within_State_showAvail {s : State} (hs : Within m s₀ s) (hm : Sub 0x80000000200000000000000000000F80000000 m)  : Within m s₀ (State.showAvail s) := by
  unfold State.showAvail
  repeat' first
    | with_reducible assumption
    | exact Sub.up hm (by decide)
    | exact Sub.bit hm (by decide)
    | (intro x; (first | (refine within_cut (m := m) (s₀ := s₀) x ?_ ?_; unfold x; rotate_left; clear_value x; intro hx) | skip))
    | lift_lets -underBinder
    | with_reducible apply within_State_put

theorem within_State_retire {s : State} (e : Fld × Nat) (hs : Within m s₀ s) (hm : Sub 0x18046000000000000000000000006060900E0400000000000000000000000000000080000000200000000000000000000F80000000 m) (hb_e : m.testBit e.1.reg.ctorIdx = true)  : Within m s₀ (State.retire s e) := by
  unfold State.retire
  repeat' first
    | with_reducible assumption
    | exact Sub.up hm (by decide)
    | exact Sub.bit hm (by decide)
    | intro _
    | with_reducible apply within_State_showAvail
    | with_reducible apply within_State_puti
    | (intro x; (first | (refine within_cut (m := m) (s₀ := s₀) x ?_ ?_; unfold x; rotate_left; clear_value x; intro hx) | skip))
    | with_reducible apply within_ite
    | with_reducible apply within_State_rillFault
    | with_reducible apply within_foldl
    | (refine within_of_snd (by assumption) ?_)
    | (refine within_of_fst (by assumption) ?_)
    | (split)

theorem within_tagMismatchEffect (r : Nat) (crossing : Nat) {s : State} (hs : Within m s₀ s) (hm : Sub 0x18146000000000000000000000006060900E040000000000000000000000000000000000000000000000000000000000000000007E m)  : Within m s₀ (tagMismatchEffect r crossing s) := by
  unfold tagMismatchEffect
  repeat' first
    | with_reducible assumption
    | exact Sub.up hm (by decide)
    | exact Sub.bit hm (by decide)
    | (intro x; (first | (refine within_cut (m := m) (s₀ := s₀) x ?_ ?_; unfold x; rotate_left; clear_value x; intro hx) | skip))
    | lift_lets -underBinder
    | with_reducible apply within_ite
    | with_reducible apply within_State_detFault
    | with_reducible apply within_State_fresh
    | with_reducible apply within_State_rillFault

theorem within_bankViolationEffect (e : BankEngine) (stage : Nat) (bank : Nat) (w : Nat) {s : State} (hs : Within m s₀ s) (hm : Sub 0x18046000000000000000000000006060900E0400000000000000000000040000000000000000000000000000000000000000000000 m) : Within m s₀ (bankViolationEffect e stage bank w s) := by
  unfold bankViolationEffect
  repeat' first
    | with_reducible assumption
    | exact Sub.up hm (by decide)
    | exact Sub.bit hm (by decide)
    | intro _
    | with_reducible apply within_ite
    | with_reducible apply within_State_bankViolation
    | with_reducible apply within_State_rillFault
    | (intro x; (first | (refine within_cut (m := m) (s₀ := s₀) x ?_ ?_; unfold x; rotate_left; clear_value x; intro hx) | skip))
    | with_reducible apply within_State_engineClass
    | with_reducible apply within_State_emit
    | (refine within_of_snd (by assumption) ?_)
    | (refine within_of_fst (by assumption) ?_)
    | (split)

theorem within_jetDetectionEffect (jet : Nat) (unit : Nat) (column : Nat) (opIndex : Nat) {s : State} (hs : Within m s₀ s) (hm : Sub 0x18046000000000000000000000006060900E040000000000000000000000000000008078C000200000000000000000000F80000000 m)  : Within m s₀ (jetDetectionEffect jet unit column opIndex s) := by
  unfold jetDetectionEffect
  repeat' first
    | with_reducible assumption
    | exact Sub.up hm (by decide)
    | exact Sub.bit hm (by decide)
    | ((with_reducible show Nat.testBit _ _ = true; (try simp +zetaDelta only); repeat' split) <;> exact Sub.bit hm (by decide))
    | (intro x; (first | (refine within_cut (m := m) (s₀ := s₀) x ?_ ?_; unfold x; rotate_left; clear_value x; intro hx) | skip))
    | lift_lets -underBinder
    | with_reducible apply within_ite
    | with_reducible apply within_State_retire
    | with_reducible apply within_State_puti
    | with_reducible apply within_State_evi
    | with_reducible apply within_State_putPair
    | with_reducible apply within_State_bumpi
    | with_reducible apply within_State_rillFault
    | (refine within_of_snd (by assumption) ?_)
    | (refine within_of_fst (by assumption) ?_)
    | (split)
    | (apply within_mk <;> first | exact Or.inl (by with_reducible rfl) | exact Or.inr (Sub.bit hm (by decide)) | with_reducible rfl | rfl | exact Or.inl rfl | (simp; done) | skip)

theorem within_engineFaultEffect (inst : Nat) {s : State} (hs : Within m s₀ s) (hm : Sub 0x18046000000000000000000000006060900E0400000000000000000000000000000000000000600000000000000000000000000000 m)  : Within m s₀ (engineFaultEffect inst s) := by
  unfold engineFaultEffect
  repeat' first
    | with_reducible assumption
    | exact Sub.up hm (by decide)
    | exact Sub.bit hm (by decide)
    | intro _
    | with_reducible apply within_ite
    | with_reducible apply within_State_puti
    | with_reducible apply within_State_evi
    | with_reducible apply within_State_rillFault
    | (intro x; (first | (refine within_cut (m := m) (s₀ := s₀) x ?_ ?_; unfold x; rotate_left; clear_value x; intro hx) | skip))
    | (refine within_of_snd (by assumption) ?_)
    | (refine within_of_fst (by assumption) ?_)
    | (split)

theorem within_reedFaultEffect (lane : Nat) {s : State} (hs : Within m s₀ s) (hm : Sub 0x18046000000000000000000000006060900E0400000000000000000000000000000180000000000000000000000000000000000000 m)  : Within m s₀ (reedFaultEffect lane s) := by
  unfold reedFaultEffect
  repeat' first
    | with_reducible assumption
    | exact Sub.up hm (by decide)
    | exact Sub.bit hm (by decide)
    | intro _
    | with_reducible apply within_ite
    | with_reducible apply within_State_puti
    | with_reducible apply within_State_evi
    | with_reducible apply within_State_rillFault
    | (intro x; (first | (refine within_cut (m := m) (s₀ := s₀) x ?_ ?_; unfold x; rotate_left; clear_value x; intro hx) | skip))
    | (refine within_of_snd (by assumption) ?_)
    | (refine within_of_fst (by assumption) ?_)
    | (split)

theorem within_State_readCut (x : Task) {s : State} (hs : Within m s₀ s) (hm : Sub 0x200800000000000000000000000000000000000000000000000000000000001000000000000000060080000000000008000000000 m) : Within m s₀ (State.readCut s x) := by
  unfold State.readCut
  repeat' first
    | with_reducible assumption
    | exact Sub.up hm (by decide)
    | exact Sub.bit hm (by decide)
    | (intro x; (first | (refine within_cut (m := m) (s₀ := s₀) x ?_ ?_; unfold x; rotate_left; clear_value x; intro hx) | skip))
    | lift_lets -underBinder
    | with_reducible apply within_ite
    | with_reducible apply within_State_dropLanded
    | with_reducible apply within_State_modTask
    | with_reducible apply within_State_endTask
    | with_reducible apply within_State_showTasks
    | (refine within_of_snd (by assumption) ?_)
    | (refine within_of_fst (by assumption) ?_)
    | (split)
    | (dsimp -zeta only)

theorem within_reservoirUncorrEffect (bank : Nat) (reader : BankReader) {s : State} (hs : Within m s₀ s) (hm : Sub 0x1A04E000000000000000000000006060900E040000000000000000000000F001000000000000000060080000000000008000000000 m)  : Within m s₀ (reservoirUncorrEffect bank reader s) := by
  unfold reservoirUncorrEffect
  repeat' first
    | with_reducible assumption
    | exact Sub.up hm (by decide)
    | exact Sub.bit hm (by decide)
    | (intro x; (first | (refine within_cut (m := m) (s₀ := s₀) x ?_ ?_; unfold x; rotate_left; clear_value x; intro hx) | skip))
    | lift_lets -underBinder
    | with_reducible apply within_ite
    | with_reducible apply within_State_eccUncorr
    | with_reducible apply within_State_logFault
    | with_reducible apply within_State_rillFault
    | with_reducible apply within_State_eccCorrected
    | with_reducible apply within_State_readCut
    | with_reducible apply within_State_emit
    | (refine within_of_snd (by assumption) ?_)
    | (refine within_of_fst (by assumption) ?_)
    | (split)

theorem within_State_resetPart {s : State} (r : Nat) (hs : Within m s₀ s) (hm : Sub 0x20C000000000000000000000000000000000000000000000000000000000001000000000000000040080000000000008000000000 m)  : Within m s₀ (State.resetPart s r) := by
  unfold State.resetPart
  repeat' first
    | with_reducible assumption
    | exact Sub.up hm (by decide)
    | exact Sub.bit hm (by decide)
    | (intro x; (first | (refine within_cut (m := m) (s₀ := s₀) x ?_ ?_; unfold x; rotate_left; clear_value x; intro hx) | skip))
    | lift_lets -underBinder
    | with_reducible apply within_showBasin
    | with_reducible apply within_State_modRill
    | with_reducible apply within_ite
    | (refine within_of_snd (by assumption) ?_)
    | (refine within_of_fst (by assumption) ?_)
    | (split)
    | (apply within_mk <;> first | exact Or.inl (by with_reducible rfl) | exact Or.inr (Sub.bit hm (by decide)) | with_reducible rfl | rfl | exact Or.inl rfl | (simp; done) | skip)

theorem within_State_restartRill {s : State} (r : Nat) (hs : Within m s₀ s) (hm : Sub 0x120E000000000000000000000000000000100000000000000000000000000000000000000000000000000000000004319008020000 m)  : Within m s₀ (State.restartRill s r) := by
  unfold State.restartRill
  repeat' first
    | with_reducible assumption
    | exact Sub.up hm (by decide)
    | exact Sub.bit hm (by decide)
    | (intro x; (first | (refine within_cut (m := m) (s₀ := s₀) x ?_ ?_; unfold x; rotate_left; clear_value x; intro hx) | skip))
    | lift_lets -underBinder
    | with_reducible apply within_ite
    | with_reducible apply within_State_bump
    | with_reducible apply within_State_modRill
    | with_reducible apply within_State_armWatch
    | with_reducible apply within_State_refill
    | (refine within_of_snd (by assumption) ?_)
    | (refine within_of_fst (by assumption) ?_)
    | (split)

theorem within_State_killRill {s : State} (r : Nat) (hs : Within m s₀ s) (hm : Sub 0x4000000000000000000000000000000000400000000000000000000000000000000000000000000000000000000000000000000 m)  : Within m s₀ (State.killRill s r) := by
  unfold State.killRill
  repeat' first
    | with_reducible assumption
    | exact Sub.up hm (by decide)
    | exact Sub.bit hm (by decide)
    | (intro x; (first | (refine within_cut (m := m) (s₀ := s₀) x ?_ ?_; unfold x; rotate_left; clear_value x; intro hx) | skip))
    | lift_lets -underBinder
    | with_reducible apply within_State_ev
    | with_reducible apply within_State_modRill

theorem within_State_settleFaults (r : Nat) (f : RillFault → Bool) {s : State} (hs : Within m s₀ s) (hm : Sub 0x120E000000000000000000000000000000100000000000000000000000000000000000000000000000000000000004319008020000 m) : Within m s₀ (State.settleFaults s r f) := by
  unfold State.settleFaults
  repeat' first
    | with_reducible assumption
    | exact Sub.up hm (by decide)
    | exact Sub.bit hm (by decide)
    | (intro x; (first | (refine within_cut (m := m) (s₀ := s₀) x ?_ ?_; unfold x; rotate_left; clear_value x; intro hx) | skip))
    | lift_lets -underBinder
    | with_reducible apply within_ite
    | with_reducible apply within_State_restartRill
    | with_reducible apply within_State_modRill
    | (refine within_of_snd (by assumption) ?_)
    | (refine within_of_fst (by assumption) ?_)
    | (split)
    | (dsimp -zeta only)

theorem within_rillStopEffect (r : Nat) {s : State} (hs : Within m s₀ s) (hm : Sub 0x120E000000000000000000000000000000100400000000000000000000000001000000000000000040080000000004319008020000 m)  : Within m s₀ (rillStopEffect r s) := by
  unfold rillStopEffect
  repeat' first
    | with_reducible assumption
    | exact Sub.up hm (by decide)
    | exact Sub.bit hm (by decide)
    | (intro x; (first | (refine within_cut (m := m) (s₀ := s₀) x ?_ ?_; unfold x; rotate_left; clear_value x; intro hx) | skip))
    | lift_lets -underBinder
    | with_reducible apply within_ite
    | with_reducible apply within_State_resetPart
    | with_reducible apply within_State_killRill
    | with_reducible apply within_State_modRill
    | with_reducible apply within_State_settleFaults
    | (refine within_of_snd (by assumption) ?_)
    | (refine within_of_fst (by assumption) ?_)
    | (split)

theorem within_rillTestDone (r : Nat) (pass : Bool) {s : State} (hs : Within m s₀ s) (hm : Sub 0x1A0E6000000000000000000000006060901E0400000000000000000000000000000080004000200000000000000004319F88020000 m)  : Within m s₀ (rillTestDone r pass s) := by
  unfold rillTestDone
  repeat' first
    | with_reducible assumption
    | exact Sub.up hm (by decide)
    | exact Sub.bit hm (by decide)
    | exact faultEngine_bit hm (by decide) (by assumption)
    | exact engTest_bit hm (by decide) (by assumption)
    | (intro x; (first | (refine within_cut (m := m) (s₀ := s₀) x ?_ ?_; unfold x; rotate_left; clear_value x; intro hx) | skip))
    | lift_lets -underBinder
    | with_reducible apply within_ite
    | with_reducible apply within_State_retire
    | with_reducible apply within_State_killRill
    | with_reducible apply within_State_puti
    | with_reducible apply within_State_settleFaults
    | (refine within_of_snd (by assumption) ?_)
    | (refine within_of_fst (by assumption) ?_)
    | (split)

theorem within_commandTestDone (pass : Bool) {s : State} (hs : Within m s₀ s) (hm : Sub 0x18046000000000000000000000006060980E0400000000000000000000000000000080004000200000000000000000000F80000000 m)  : Within m s₀ (commandTestDone pass s) := by
  unfold commandTestDone
  repeat' first
    | with_reducible assumption
    | exact Sub.up hm (by decide)
    | exact Sub.bit hm (by decide)
    | exact faultEngine_bit hm (by decide) (by assumption)
    | exact engTest_bit hm (by decide) (by assumption)
    | (intro x; (first | (refine within_cut (m := m) (s₀ := s₀) x ?_ ?_; unfold x; rotate_left; clear_value x; intro hx) | skip))
    | lift_lets -underBinder
    | with_reducible apply within_ite
    | with_reducible apply within_State_showAvail
    | with_reducible apply within_State_retire
    | with_reducible apply within_State_puti
    | with_reducible apply within_State_put
    | with_reducible apply within_State_ev
    | with_reducible apply within_State_putb
    | (refine within_of_snd (by assumption) ?_)
    | (refine within_of_fst (by assumption) ?_)
    | (split)
    | (apply within_mk <;> first | exact Or.inl (by with_reducible rfl) | exact Or.inr (Sub.bit hm (by decide)) | with_reducible rfl | rfl | exact Or.inl rfl | (simp; done) | skip)

theorem within_selfTestEffect (rill : Option Nat) (pass : Bool) {s : State} (hs : Within m s₀ s) (hm : Sub 0x1A0E6000000000000000000000006060981E0400000000000000000000000000000080004000200000000000000004319F88020000 m)  : Within m s₀ (selfTestEffect rill pass s) := by
  unfold selfTestEffect
  repeat' first
    | with_reducible assumption
    | exact Sub.up hm (by decide)
    | exact Sub.bit hm (by decide)
    | intro _
    | with_reducible apply within_rillTestDone
    | with_reducible apply within_commandTestDone
    | (refine within_of_snd (by assumption) ?_)
    | (refine within_of_fst (by assumption) ?_)
    | (split)

theorem within_realignEffect (r : Nat) (offs : List (List Nat)) {s : State} (hs : Within m s₀ s) (hm : Sub 0x121E60000000000000000000000060609010000000000000000000000000000000000000000000000000000000000431900802007E m) : Within m s₀ (realignEffect r offs s) := by
  unfold realignEffect
  repeat' first
    | with_reducible assumption
    | exact Sub.up hm (by decide)
    | exact Sub.bit hm (by decide)
    | (intro x; (first | (refine within_cut (m := m) (s₀ := s₀) x ?_ ?_; unfold x; rotate_left; clear_value x; intro hx) | skip))
    | lift_lets -underBinder
    | with_reducible apply within_ite
    | with_reducible apply within_State_startFault
    | with_reducible apply within_State_settleFaults
    | (refine within_of_snd (by assumption) ?_)
    | (refine within_of_fst (by assumption) ?_)
    | (split)
    | (apply within_mk <;> first | exact Or.inl (by with_reducible rfl) | exact Or.inr (Sub.bit hm (by decide)) | with_reducible rfl | rfl | exact Or.inl rfl | (simp; done) | skip)

end Sys2Proof.Machine
end

