-- ==== Sys2Proof/Laws/WithinLoader.lean ====
section
/-! SUPPORT. What the operations of Machine/Loader.lean can change, and that they keep a state sound. -/
namespace Sys2Proof.Machine

variable {m : Nat} {s₀ : State}

theorem within_State_showSlot {s : State} (k : Nat) (hs : Within m s₀ s) (hm : Sub 0x6000010000 m)  : Within m s₀ (State.showSlot s k) := by
  unfold State.showSlot
  repeat' first
    | with_reducible assumption
    | exact Sub.up hm (by decide)
    | exact Sub.bit hm (by decide)
    | ((with_reducible show Nat.testBit _ _ = true; (try simp +zetaDelta only); repeat' split) <;> exact Sub.bit hm (by decide))
    | (intro x; (first | (refine within_cut (m := m) (s₀ := s₀) x ?_ ?_; unfold x; rotate_left; clear_value x; intro hx) | skip))
    | lift_lets -underBinder
    | with_reducible apply within_ite
    | with_reducible apply within_State_setWord
    | with_reducible apply within_State_put
    | with_reducible apply within_State_putb
    | with_reducible apply within_State_each
    | (refine within_of_snd (by assumption) ?_)
    | (refine within_of_fst (by assumption) ?_)
    | (split)

theorem within_State_setSlot {s : State} (k : Nat) (w : WeaveSlot) (hs : Within m s₀ s) (hm : Sub 0x2000000000000000000000000000000000000000000000000000000000000000000000000000000000000000000006000010000 m)  : Within m s₀ (State.setSlot s k w) := by
  unfold State.setSlot
  repeat' first
    | with_reducible assumption
    | exact Sub.up hm (by decide)
    | exact Sub.bit hm (by decide)
    | (intro x; (first | (refine within_cut (m := m) (s₀ := s₀) x ?_ ?_; unfold x; rotate_left; clear_value x; intro hx) | skip))
    | lift_lets -underBinder
    | with_reducible apply within_State_showSlot
    | (apply within_mk <;> first | exact Or.inl (by with_reducible rfl) | exact Or.inr (Sub.bit hm (by decide)) | with_reducible rfl | rfl | exact Or.inl rfl | (simp; done) | skip)

theorem within_State_setLoader {s : State} (l : LoaderSt) (hs : Within m s₀ s) (hm : Sub 0x2000000000000000000000000000000000000000000000000000000000000000000000000000000000000000000000000000000 m)  : Within m s₀ (State.setLoader s l) := by
  unfold State.setLoader
  repeat' first
    | with_reducible assumption
    | exact Sub.up hm (by decide)
    | exact Sub.bit hm (by decide)
    | (intro x; (first | (refine within_cut (m := m) (s₀ := s₀) x ?_ ?_; unfold x; rotate_left; clear_value x; intro hx) | skip))
    | lift_lets -underBinder
    | (apply within_mk <;> first | exact Or.inl (by with_reducible rfl) | exact Or.inr (Sub.bit hm (by decide)) | with_reducible rfl | rfl | exact Or.inl rfl | (simp; done) | skip)

theorem within_State_failLoad {s : State} (err : Nat) (ofs : Nat) (hs : Within m s₀ s) (hm : Sub 0x2000000000000000000000000000000000000000000000000000000000000000000000000000000000000000000006000C30000 m)  : Within m s₀ (State.failLoad s err ofs) := by
  unfold State.failLoad
  repeat' first
    | with_reducible assumption
    | exact Sub.up hm (by decide)
    | exact Sub.bit hm (by decide)
    | (intro x; (first | (refine within_cut (m := m) (s₀ := s₀) x ?_ ?_; unfold x; rotate_left; clear_value x; intro hx) | skip))
    | lift_lets -underBinder
    | with_reducible apply within_ite
    | with_reducible apply within_State_setSlot
    | with_reducible apply within_State_setLoader
    | with_reducible apply within_State_put
    | with_reducible apply within_State_ev

theorem within_startLoad {s : State} (hs : Within m s₀ s) (hm : Sub 0x2000000000000000000000000000000000000000000000000000000000000000000000000000000000000000000006000C30000 m)  : Within m s₀ (startLoad s) := by
  unfold startLoad
  repeat' first
    | with_reducible assumption
    | exact Sub.up hm (by decide)
    | exact Sub.bit hm (by decide)
    | (dsimp only; exact Sub.bit hm (by decide))
    | (intro x; (first | (refine within_cut (m := m) (s₀ := s₀) x ?_ ?_; unfold x; rotate_left; clear_value x; intro hx) | skip))
    | lift_lets -underBinder
    | with_reducible apply within_ite
    | with_reducible apply within_State_setSlot
    | with_reducible apply within_State_setLoader
    | with_reducible apply within_State_failLoad
    | with_reducible apply within_State_put
    | with_reducible apply within_State_ev
    | (refine within_of_snd (by assumption) ?_)
    | (refine within_of_fst (by assumption) ?_)
    | (split)

theorem within_abortLoad {s : State} (hs : Within m s₀ s) (hm : Sub 0x2000000000000000000000000000000000000000000000000000000000000000000000000000000000000000000006000C30000 m)  : Within m s₀ (abortLoad s) := by
  unfold abortLoad
  repeat' first
    | with_reducible assumption
    | exact Sub.up hm (by decide)
    | exact Sub.bit hm (by decide)
    | intro _
    | with_reducible apply within_ite
    | with_reducible apply within_State_failLoad

theorem within_loadCtrl (w : Word) {s : State} (hs : Within m s₀ s) (hm : Sub 0x2000000000000000000000000000000000000000000000000000000000000000000000000000000000000000000006000C70000 m)  : Within m s₀ (loadCtrl w s) := by
  unfold loadCtrl
  repeat' first
    | with_reducible assumption
    | exact Sub.up hm (by decide)
    | exact Sub.bit hm (by decide)
    | (intro x; (first | (refine within_cut (m := m) (s₀ := s₀) x ?_ ?_; unfold x; rotate_left; clear_value x; intro hx) | skip))
    | lift_lets -underBinder
    | with_reducible apply within_ite
    | with_reducible apply within_startLoad
    | with_reducible apply within_abortLoad
    | with_reducible apply within_State_swWrite

theorem within_transferEffect (image : Option (List Byte)) {s : State} (hs : Within m s₀ s) (hm : Sub 0x2000000000000000000000000000000000000000000000000000000000000000000000000000000000000000000006000C30000 m)  : Within m s₀ (transferEffect image s) := by
  unfold transferEffect
  repeat' first
    | with_reducible assumption
    | exact Sub.up hm (by decide)
    | exact Sub.bit hm (by decide)
    | (intro x; (first | (refine within_cut (m := m) (s₀ := s₀) x ?_ ?_; unfold x; rotate_left; clear_value x; intro hx) | clear_value x | skip))
    | lift_lets -underBinder
    | with_reducible apply within_ite
    | with_reducible apply within_State_setLoader
    | with_reducible apply within_State_failLoad
    | (refine within_of_snd (by assumption) ?_)
    | (refine within_of_fst (by assumption) ?_)
    | (split)

theorem within_State_beginStaging {s : State} (verified : Bool) (hs : Within m s₀ s) (hm : Sub 0x2000000000000000000000000000000000000000000000000000000000000000000000000000000000000000000006000C30000 m)  : Within m s₀ (State.beginStaging s verified) := by
  unfold State.beginStaging
  repeat' first
    | with_reducible assumption
    | exact Sub.up hm (by decide)
    | exact Sub.bit hm (by decide)
    | (intro x; (first | (refine within_cut (m := m) (s₀ := s₀) x ?_ ?_; unfold x; rotate_left; clear_value x; intro hx) | skip))
    | lift_lets -underBinder
    | with_reducible apply within_ite
    | with_reducible apply within_State_setLoader
    | with_reducible apply within_State_failLoad

theorem within_structureEffect {s : State} (hs : Within m s₀ s) (hm : Sub 0x2000000000000000000000000000000000000000000000000000000000000000000000000000000000000000000006000C30000 m)  : Within m s₀ (structureEffect s) := by
  unfold structureEffect
  repeat' first
    | with_reducible assumption
    | exact Sub.up hm (by decide)
    | exact Sub.bit hm (by decide)
    | (intro x; (first | (refine within_cut (m := m) (s₀ := s₀) x ?_ ?_; unfold x; rotate_left; clear_value x; intro hx) | skip))
    | lift_lets -underBinder
    | with_reducible apply within_ite
    | with_reducible apply within_State_setLoader
    | with_reducible apply within_State_failLoad
    | with_reducible apply within_State_beginStaging
    | (refine within_of_snd (by assumption) ?_)
    | (refine within_of_fst (by assumption) ?_)
    | (split)

theorem within_signatureEffect {s : State} (hs : Within m s₀ s) (hm : Sub 0x2000000000000000000000000000000000000000000000000000000000000000000000000000000000000000000006000C30000 m)  : Within m s₀ (signatureEffect s) := by
  unfold signatureEffect
  repeat' first
    | with_reducible assumption
    | exact Sub.up hm (by decide)
    | exact Sub.bit hm (by decide)
    | (intro x; (first | (refine within_cut (m := m) (s₀ := s₀) x ?_ ?_; unfold x; rotate_left; clear_value x; intro hx) | skip))
    | lift_lets -underBinder
    | with_reducible apply within_ite
    | with_reducible apply within_State_failLoad
    | with_reducible apply within_State_beginStaging
    | (refine within_of_snd (by assumption) ?_)
    | (refine within_of_fst (by assumption) ?_)
    | (split)

theorem within_stagingEffect {s : State} (hs : Within m s₀ s) (hm : Sub 0x2000000000000000000000000000000000000000000000000000000000000000000000000000000000000000000006000C30000 m)  : Within m s₀ (stagingEffect s) := by
  unfold stagingEffect
  repeat' first
    | with_reducible assumption
    | exact Sub.up hm (by decide)
    | exact Sub.bit hm (by decide)
    | (dsimp only; exact Sub.bit hm (by decide))
    | (intro x; (first | (refine within_cut (m := m) (s₀ := s₀) x ?_ ?_; unfold x; rotate_left; clear_value x; intro hx) | skip))
    | lift_lets -underBinder
    | with_reducible apply within_ite
    | with_reducible apply within_State_setSlot
    | with_reducible apply within_State_setLoader
    | with_reducible apply within_State_setWord
    | with_reducible apply within_State_put
    | with_reducible apply within_State_ev
    | (refine within_of_snd (by assumption) ?_)
    | (refine within_of_fst (by assumption) ?_)
    | (split)

end Sys2Proof.Machine
end

