-- ==== Sys2Proof/Laws/WithinAquiferOps.lean ====
section
/-! SUPPORT. What the operations of Machine/AquiferOps.lean can change, and that they keep a state sound. -/
namespace Sys2Proof.Machine

variable {m : Nat} {s₀ : State}

theorem within_State_modAqf {s : State} (f : AqfSt → AqfSt) (hs : Within m s₀ s) (hm : Sub 0x400000000000000000000000000000000000000000000000000000000000000000000000000000000000000000000000000000000 m)  : Within m s₀ (State.modAqf s f) := by
  unfold State.modAqf
  repeat' first
    | with_reducible assumption
    | exact Sub.up hm (by decide)
    | exact Sub.bit hm (by decide)
    | (intro x; (first | (refine within_cut (m := m) (s₀ := s₀) x ?_ ?_; unfold x; rotate_left; clear_value x; intro hx) | skip))
    | lift_lets -underBinder
    | (apply within_mk <;> first | exact Or.inl (by with_reducible rfl) | exact Or.inr (Sub.bit hm (by decide)) | with_reducible rfl | rfl | exact Or.inl rfl | (simp; done) | skip)

theorem within_State_dieOp (d : Nat) (op : List Nat) (args : List Nat) (bs : List Byte) {s : State} (hs : Within m s₀ s) (hm : Sub 0x200000000000000000000000000000000000000000000000000000000000000000000000000000000000000000000000000000 m) : Within m s₀ (State.dieOp s d op args bs) := by
  unfold State.dieOp
  repeat' first
    | with_reducible assumption
    | exact Sub.up hm (by decide)
    | exact Sub.bit hm (by decide)
    | (intro x; (first | (refine within_cut (m := m) (s₀ := s₀) x ?_ ?_; unfold x; rotate_left; clear_value x; intro hx) | skip))
    | lift_lets -underBinder
    | with_reducible apply within_ite
    | with_reducible apply within_State_emit
    | (refine within_of_snd (by assumption) ?_)
    | (refine within_of_fst (by assumption) ?_)
    | (split)
    | (dsimp -zeta only)

theorem within_State_enterMode (d : Nat) (slc : Bool) {s : State} (hs : Within m s₀ s) (hm : Sub 0x200000000000000000000000000000000000000000000000000000000000000000000000000000000000000000000000000000 m) : Within m s₀ (State.enterMode s d slc).1 := by
  unfold State.enterMode
  repeat' first
    | with_reducible assumption
    | exact Sub.up hm (by decide)
    | exact Sub.bit hm (by decide)
    | (intro x; (first | (refine within_cut (m := m) (s₀ := s₀) x ?_ ?_; unfold x; rotate_left; clear_value x; intro hx) | skip))
    | lift_lets -underBinder
    | with_reducible apply within_ite
    | with_reducible apply within_State_dieOp
    | (refine within_of_snd (by assumption) ?_)
    | (refine within_of_fst (by assumption) ?_)
    | (split)
    | (dsimp -zeta only)

theorem within_State_arrayOp (d : Nat) (slc : Bool) (kind : ArrayOp) (op : List Nat) (args : List Nat) (bs : List Byte) {s : State} (hs : Within m s₀ s) (hm : Sub 0x400200000000000000000000000000000000000000000000000000000000000000000000000000000000000000000000000000000 m) : Within m s₀ (State.arrayOp s d slc kind op args bs) := by
  unfold State.arrayOp
  repeat' first
    | with_reducible assumption
    | exact Sub.up hm (by decide)
    | exact Sub.bit hm (by decide)
    | (intro x; (first | (refine within_cut (m := m) (s₀ := s₀) x ?_ ?_; unfold x; rotate_left; clear_value x; intro hx) | skip))
    | lift_lets -underBinder
    | with_reducible apply within_ite
    | with_reducible apply within_State_enterMode
    | with_reducible apply within_State_dieOp
    | with_reducible apply within_State_modAqf
    | (refine within_of_snd (by assumption) ?_)
    | (refine within_of_fst (by assumption) ?_)
    | (split)
    | (dsimp -zeta only)

theorem within_State_readPage (l : FlashLoc) {s : State} (hs : Within m s₀ s) (hm : Sub 0x400200000000000000000000000000000000000000000000000000000000000000000000000000000000000000000000000000000 m) : Within m s₀ (State.readPage s l) := by
  unfold State.readPage
  repeat' first
    | with_reducible assumption
    | exact Sub.up hm (by decide)
    | exact Sub.bit hm (by decide)
    | (intro x; (first | (refine within_cut (m := m) (s₀ := s₀) x ?_ ?_; unfold x; rotate_left; clear_value x; intro hx) | skip))
    | lift_lets -underBinder
    | with_reducible apply within_ite
    | with_reducible apply within_State_arrayOp
    | (refine within_of_snd (by assumption) ?_)
    | (refine within_of_fst (by assumption) ?_)
    | (split)
    | (dsimp -zeta only)

theorem within_State_programCells (l : FlashLoc) (cells : List Byte) {s : State} (hs : Within m s₀ s) (hm : Sub 0x400200000000000000000000000000000000000000000000000000000000000000000000000000000000000000000000000000000 m) : Within m s₀ (State.programCells s l cells) := by
  unfold State.programCells
  repeat' first
    | with_reducible assumption
    | exact Sub.up hm (by decide)
    | exact Sub.bit hm (by decide)
    | (intro x; (first | (refine within_cut (m := m) (s₀ := s₀) x ?_ ?_; unfold x; rotate_left; clear_value x; intro hx) | skip))
    | lift_lets -underBinder
    | with_reducible apply within_ite
    | with_reducible apply within_State_arrayOp
    | (refine within_of_snd (by assumption) ?_)
    | (refine within_of_fst (by assumption) ?_)
    | (split)
    | (dsimp -zeta only)

theorem within_State_showDies {s : State} (hs : Within m s₀ s) (hm : Sub 0x80002100000000000000 m)  : Within m s₀ (State.showDies s) := by
  unfold State.showDies
  repeat' first
    | with_reducible assumption
    | exact Sub.up hm (by decide)
    | exact Sub.bit hm (by decide)
    | (intro x; (first | (refine within_cut (m := m) (s₀ := s₀) x ?_ ?_; unfold x; rotate_left; clear_value x; intro hx) | skip))
    | lift_lets -underBinder
    | with_reducible apply within_State_puti
    | with_reducible apply within_State_put
    | with_reducible apply within_State_putb
    | with_reducible apply within_State_each

theorem within_State_setDie {s : State} (d : Nat) (st : Nat) (hs : Within m s₀ s) (hm : Sub 0x300000000000000000000 m)  : Within m s₀ (State.setDie s d st) := by
  unfold State.setDie
  repeat' first
    | with_reducible assumption
    | exact Sub.up hm (by decide)
    | exact Sub.bit hm (by decide)
    | (unfold dieFld; (try dsimp only); first | exact Sub.bit hm (by decide) | (split <;> exact Sub.bit hm (by decide)))
    | intro _
    | with_reducible apply within_State_puti

theorem within_State_suspendDie {s : State} (d : Nat) (hs : Within m s₀ s) (hm : Sub 0x400000000000000000000000000000000000000000000000000000000000000000000000000000000000380002300000000000000 m)  : Within m s₀ (State.suspendDie s d) := by
  unfold State.suspendDie
  repeat' first
    | with_reducible assumption
    | exact Sub.up hm (by decide)
    | exact Sub.bit hm (by decide)
    | intro _
    | with_reducible apply within_ite
    | with_reducible apply within_State_showDies
    | with_reducible apply within_State_setDie
    | with_reducible apply within_State_ev
    | (intro x; (first | (refine within_cut (m := m) (s₀ := s₀) x ?_ ?_; unfold x; rotate_left; clear_value x; intro hx) | skip))
    | with_reducible apply within_State_modAqf
    | (refine within_of_snd (by assumption) ?_)
    | (refine within_of_fst (by assumption) ?_)
    | (split)

theorem within_State_retireDie {s : State} (d : Nat) (hs : Within m s₀ s) (hm : Sub 0x400000000000000000000000000000000000000000000000000000000000000000000000000000000000384002300000000000000 m)  : Within m s₀ (State.retireDie s d) := by
  unfold State.retireDie
  repeat' first
    | with_reducible assumption
    | exact Sub.up hm (by decide)
    | exact Sub.bit hm (by decide)
    | (intro x; (first | (refine within_cut (m := m) (s₀ := s₀) x ?_ ?_; unfold x; rotate_left; clear_value x; intro hx) | skip))
    | lift_lets -underBinder
    | with_reducible apply within_ite
    | with_reducible apply within_State_modAqf
    | with_reducible apply within_State_showDies
    | with_reducible apply within_State_setDie
    | with_reducible apply within_State_ev
    | with_reducible apply within_State_put
    | (refine within_of_snd (by assumption) ?_)
    | (refine within_of_fst (by assumption) ?_)
    | (split)

theorem within_State_writeCells (want : BlockState) (l : FlashLoc) (cells : List Byte) (x : FlashPage) {s : State} (hs : Within m s₀ s) (hm : Sub 0x400200000000000000000000000000000000000000000000000000000000000000000000000000000000000000000000000000000 m) : Within m s₀ (State.writeCells s want l cells x) := by
  unfold State.writeCells
  repeat' first
    | with_reducible assumption
    | exact Sub.up hm (by decide)
    | exact Sub.bit hm (by decide)
    | (intro x; (first | (refine within_cut (m := m) (s₀ := s₀) x ?_ ?_; unfold x; rotate_left; clear_value x; intro hx) | skip))
    | lift_lets -underBinder
    | with_reducible apply within_ite
    | with_reducible apply within_State_programCells
    | with_reducible apply within_State_modAqf
    | (refine within_of_snd (by assumption) ?_)
    | (refine within_of_fst (by assumption) ?_)
    | (split)
    | (dsimp -zeta only)

theorem within_State_writeUnit (want : BlockState) (l : FlashLoc) (w : PageMeta) (data : List Byte) {s : State} (hs : Within m s₀ s) (hm : Sub 0x400200000000000000000000000000000000000000000000000000000000000000000000000000000000000000000000000000000 m) : Within m s₀ (State.writeUnit s want l w data) := by
  unfold State.writeUnit
  repeat' first
    | with_reducible assumption
    | exact Sub.up hm (by decide)
    | exact Sub.bit hm (by decide)
    | (intro x; (first | (refine within_cut (m := m) (s₀ := s₀) x ?_ ?_; unfold x; rotate_left; clear_value x; intro hx) | skip))
    | lift_lets -underBinder
    | with_reducible apply within_ite
    | with_reducible apply within_State_modAqf
    | with_reducible apply within_State_writeCells
    | (refine within_of_snd (by assumption) ?_)
    | (refine within_of_fst (by assumption) ?_)
    | (split)
    | (dsimp -zeta only)

theorem within_State_closeBlock (d : Nat) (b : Nat) {s : State} (hs : Within m s₀ s) (hm : Sub 0x400200000000000000000000000000000000000000000000000000000000000000000000000000000000000000000000000000000 m) : Within m s₀ (State.closeBlock s d b) := by
  unfold State.closeBlock
  repeat' first
    | with_reducible assumption
    | exact Sub.up hm (by decide)
    | exact Sub.bit hm (by decide)
    | (intro x; (first | (refine within_cut (m := m) (s₀ := s₀) x ?_ ?_; unfold x; rotate_left; clear_value x; intro hx) | skip))
    | lift_lets -underBinder
    | with_reducible apply within_ite
    | with_reducible apply within_State_writeCells
    | with_reducible apply within_State_modAqf
    | (refine within_of_snd (by assumption) ?_)
    | (refine within_of_fst (by assumption) ?_)
    | (split)
    | (dsimp -zeta only)

theorem within_State_closeFull (d : Nat) (b : Nat) {s : State} (hs : Within m s₀ s) (hm : Sub 0x400200000000000000000000000000000000000000000000000000000000000000000000000000000000000000000000000000000 m) : Within m s₀ (State.closeFull s d b) := by
  unfold State.closeFull
  repeat' first
    | with_reducible assumption
    | exact Sub.up hm (by decide)
    | exact Sub.bit hm (by decide)
    | (intro x; (first | (refine within_cut (m := m) (s₀ := s₀) x ?_ ?_; unfold x; rotate_left; clear_value x; intro hx) | skip))
    | lift_lets -underBinder
    | with_reducible apply within_ite
    | with_reducible apply within_State_closeBlock
    | (refine within_of_snd (by assumption) ?_)
    | (refine within_of_fst (by assumption) ?_)
    | (split)
    | (dsimp -zeta only)

theorem within_State_catchUp (d : Nat) (b : Nat) (slc : Bool) {s : State} (hs : Within m s₀ s) (hm : Sub 0x400200000000000000000000000000000000000000000000000000000000000000000000000000000000000000000000000000000 m) : Within m s₀ (State.catchUp s d b slc) := by
  unfold State.catchUp
  repeat' first
    | with_reducible assumption
    | exact Sub.up hm (by decide)
    | exact Sub.bit hm (by decide)
    | (intro x; (first | (refine within_cut (m := m) (s₀ := s₀) x ?_ ?_; unfold x; rotate_left; clear_value x; intro hx) | skip))
    | lift_lets -underBinder
    | with_reducible apply within_ite
    | with_reducible apply within_State_writeUnit
    | with_reducible apply within_State_closeFull
    | with_reducible apply within_State_each
    | with_reducible apply within_foldl
    | intro _
    | (refine within_of_snd (by assumption) ?_)
    | (refine within_of_fst (by assumption) ?_)
    | (split)
    | (dsimp -zeta only)

theorem within_State_returnDie (d : Nat) {s : State} (hs : Within m s₀ s) (hm : Sub 0x400200000000000000000000000000000000000000000000000000000000000000000000000000000000380002300000000000000 m) : Within m s₀ (State.returnDie s d) := by
  unfold State.returnDie
  repeat' first
    | with_reducible assumption
    | exact Sub.up hm (by decide)
    | exact Sub.bit hm (by decide)
    | (intro x; (first | (refine within_cut (m := m) (s₀ := s₀) x ?_ ?_; unfold x; rotate_left; clear_value x; intro hx) | skip))
    | lift_lets -underBinder
    | with_reducible apply within_ite
    | with_reducible apply within_State_setDie
    | with_reducible apply within_State_ev
    | with_reducible apply within_State_showDies
    | with_reducible apply within_foldl
    | with_reducible apply within_State_catchUp
    | intro _
    | (refine within_of_snd (by assumption) ?_)
    | (refine within_of_fst (by assumption) ?_)
    | (split)
    | (dsimp -zeta only)

theorem within_State_closeStripe (want : BlockState) (slc : Bool) (key : Nat) (sum : List Byte) {s : State} (hs : Within m s₀ s) (hm : Sub 0x400200000000000000000000000000000000000000000000000000000000000000000000000000000000000000000000000000000 m) : Within m s₀ (State.closeStripe s want slc key sum) := by
  unfold State.closeStripe
  repeat' first
    | with_reducible assumption
    | exact Sub.up hm (by decide)
    | exact Sub.bit hm (by decide)
    | (intro x; (first | (refine within_cut (m := m) (s₀ := s₀) x ?_ ?_; unfold x; rotate_left; clear_value x; intro hx) | skip))
    | lift_lets -underBinder
    | with_reducible apply within_ite
    | with_reducible apply within_State_modAqf
    | with_reducible apply within_State_writeUnit
    | with_reducible apply within_State_closeFull
    | (refine within_of_snd (by assumption) ?_)
    | (refine within_of_fst (by assumption) ?_)
    | (split)
    | (dsimp -zeta only)

theorem within_State_closeStripes (want : BlockState) (l : FlashLoc) {s : State} (hs : Within m s₀ s) (hm : Sub 0x400200000000000000000000000000000000000000000000000000000000000000000000000000000000000000000000000000000 m) : Within m s₀ (State.closeStripes s want l) := by
  unfold State.closeStripes
  repeat' first
    | with_reducible assumption
    | exact Sub.up hm (by decide)
    | exact Sub.bit hm (by decide)
    | (intro x; (first | (refine within_cut (m := m) (s₀ := s₀) x ?_ ?_; unfold x; rotate_left; clear_value x; intro hx) | skip))
    | lift_lets -underBinder
    | with_reducible apply within_ite
    | with_reducible apply within_State_closeStripe
    | with_reducible apply within_foldl
    | intro _
    | (refine within_of_snd (by assumption) ?_)
    | (refine within_of_fst (by assumption) ?_)
    | (split)
    | (dsimp -zeta only)

theorem within_State_programPage (want : BlockState) (l : FlashLoc) (w : PageMeta) (data : List Byte) {s : State} (hs : Within m s₀ s) (hm : Sub 0x400200000000000000000000000000000000000000000000000000000000000000000000000000000000000000000000000000000 m) : Within m s₀ (State.programPage s want l w data) := by
  unfold State.programPage
  repeat' first
    | with_reducible assumption
    | exact Sub.up hm (by decide)
    | exact Sub.bit hm (by decide)
    | (intro x; (first | (refine within_cut (m := m) (s₀ := s₀) x ?_ ?_; unfold x; rotate_left; clear_value x; intro hx) | skip))
    | lift_lets -underBinder
    | with_reducible apply within_ite
    | with_reducible apply within_State_writeUnit
    | with_reducible apply within_State_modAqf
    | with_reducible apply within_State_closeStripes
    | with_reducible apply within_State_closeFull
    | (refine within_of_snd (by assumption) ?_)
    | (refine within_of_fst (by assumption) ?_)
    | (split)
    | (dsimp -zeta only)

theorem within_State_padStripes  {s : State} (hs : Within m s₀ s) (hm : Sub 0x400200000000000000000000000000000000000000000000000000000000000000000000000000000000000000000000000000000 m) : Within m s₀ (State.padStripes s) := by
  unfold State.padStripes
  repeat' first
    | with_reducible assumption
    | exact Sub.up hm (by decide)
    | exact Sub.bit hm (by decide)
    | (intro x; (first | (refine within_cut (m := m) (s₀ := s₀) x ?_ ?_; unfold x; rotate_left; clear_value x; intro hx) | skip))
    | lift_lets -underBinder
    | with_reducible apply within_ite
    | with_reducible apply within_State_programPage
    | with_reducible apply within_State_closeStripes
    | with_reducible apply within_foldl
    | intro _
    | (refine within_of_snd (by assumption) ?_)
    | (refine within_of_fst (by assumption) ?_)
    | (split)
    | (dsimp -zeta only)

theorem within_State_readOthers (l : FlashLoc) {s : State} (hs : Within m s₀ s) (hm : Sub 0x400200000000000000000000000000000000000000000000000000000000000000000000000000000000000000000000000000000 m) : Within m s₀ (State.readOthers s l) := by
  unfold State.readOthers
  repeat' first
    | with_reducible assumption
    | exact Sub.up hm (by decide)
    | exact Sub.bit hm (by decide)
    | (intro x; (first | (refine within_cut (m := m) (s₀ := s₀) x ?_ ?_; unfold x; rotate_left; clear_value x; intro hx) | skip))
    | lift_lets -underBinder
    | with_reducible apply within_ite
    | with_reducible apply within_State_readPage
    | with_reducible apply within_foldl
    | intro _
    | (refine within_of_snd (by assumption) ?_)
    | (refine within_of_fst (by assumption) ?_)
    | (split)
    | (dsimp -zeta only)

theorem within_State_issueRead (u : Nat) {s : State} (hs : Within m s₀ s) (hm : Sub 0x400200000000000000000000000000000000000000000000000000000000000000000000000000000000000000000000000000000 m) : Within m s₀ (State.issueRead s u) := by
  unfold State.issueRead
  repeat' first
    | with_reducible assumption
    | exact Sub.up hm (by decide)
    | exact Sub.bit hm (by decide)
    | (intro x; (first | (refine within_cut (m := m) (s₀ := s₀) x ?_ ?_; unfold x; rotate_left; clear_value x; intro hx) | skip))
    | lift_lets -underBinder
    | with_reducible apply within_ite
    | with_reducible apply within_foldl
    | with_reducible apply within_State_readPage
    | with_reducible apply within_State_readOthers
    | intro _
    | (refine within_of_snd (by assumption) ?_)
    | (refine within_of_fst (by assumption) ?_)
    | (split)
    | (dsimp -zeta only)

theorem within_State_issueReads (first : Nat) (count : Nat) {s : State} (hs : Within m s₀ s) (hm : Sub 0x400200000000000000000000000000000000000000000000000000000000000000000000000000000000000000000000000000000 m) : Within m s₀ (State.issueReads s first count) := by
  unfold State.issueReads
  repeat' first
    | with_reducible assumption
    | exact Sub.up hm (by decide)
    | exact Sub.bit hm (by decide)
    | (intro x; (first | (refine within_cut (m := m) (s₀ := s₀) x ?_ ?_; unfold x; rotate_left; clear_value x; intro hx) | skip))
    | lift_lets -underBinder
    | with_reducible apply within_ite
    | with_reducible apply within_State_issueRead
    | with_reducible apply within_State_each
    | with_reducible apply within_foldl
    | intro _
    | (refine within_of_snd (by assumption) ?_)
    | (refine within_of_fst (by assumption) ?_)
    | (split)
    | (dsimp -zeta only)

theorem within_State_loadEntries (first : Nat) (es : List CatEntry) {s : State} (hs : Within m s₀ s) (hm : Sub 0x8000000000000000000000000000000000000000000000000000000000000000000000000000000000000000000000000000000 m) : Within m s₀ (State.loadEntries s first es) := by
  unfold State.loadEntries
  repeat' first
    | with_reducible assumption
    | exact Sub.up hm (by decide)
    | exact Sub.bit hm (by decide)
    | (intro x; (first | (refine within_cut (m := m) (s₀ := s₀) x ?_ ?_; unfold x; rotate_left; clear_value x; intro hx) | skip))
    | lift_lets -underBinder
    | with_reducible apply within_ite
    | with_reducible apply within_foldl
    | intro _
    | (apply within_mk <;> first | exact Or.inl (by with_reducible rfl) | exact Or.inr (Sub.bit hm (by decide)) | with_reducible rfl | rfl | exact Or.inl rfl | (simp; done) | skip)
    | (refine within_of_snd (by assumption) ?_)
    | (refine within_of_fst (by assumption) ?_)
    | (split)
    | (dsimp -zeta only)

theorem within_State_cacheContainer (c : List Byte) {s : State} (hs : Within m s₀ s) (hm : Sub 0x400400000000000000000000000000000000000000000000000000000000000000000000000000000000000000000000000000000 m) : Within m s₀ (State.cacheContainer s c) := by
  unfold State.cacheContainer
  repeat' first
    | with_reducible assumption
    | exact Sub.up hm (by decide)
    | exact Sub.bit hm (by decide)
    | (intro x; (first | (refine within_cut (m := m) (s₀ := s₀) x ?_ ?_; unfold x; rotate_left; clear_value x; intro hx) | skip))
    | lift_lets -underBinder
    | with_reducible apply within_ite
    | with_reducible apply within_State_fresh
    | with_reducible apply within_State_modAqf
    | (refine within_of_snd (by assumption) ?_)
    | (refine within_of_fst (by assumption) ?_)
    | (split)
    | (dsimp -zeta only)

theorem within_State_cacheUnit  {s : State} (hs : Within m s₀ s) (hm : Sub 0x408000000000000000000000000000000000000000000000000000000000000000000000000000000000000000000000000000000 m) : Within m s₀ (State.cacheUnit s) := by
  unfold State.cacheUnit
  repeat' first
    | with_reducible assumption
    | exact Sub.up hm (by decide)
    | exact Sub.bit hm (by decide)
    | (intro x; (first | (refine within_cut (m := m) (s₀ := s₀) x ?_ ?_; unfold x; rotate_left; clear_value x; intro hx) | skip))
    | lift_lets -underBinder
    | with_reducible apply within_ite
    | with_reducible apply within_State_modAqf
    | with_reducible apply within_State_loadEntries
    | (refine within_of_snd (by assumption) ?_)
    | (refine within_of_fst (by assumption) ?_)
    | (split)
    | (dsimp -zeta only)

theorem within_State_drainCache  {s : State} (hs : Within m s₀ s) (hm : Sub 0x408000000000000000000000000000000000000000000000000000000000000000000000000000000000000000000000000000000 m) : Within m s₀ (State.drainCache s) := by
  unfold State.drainCache
  repeat' first
    | with_reducible assumption
    | exact Sub.up hm (by decide)
    | exact Sub.bit hm (by decide)
    | (intro x; (first | (refine within_cut (m := m) (s₀ := s₀) x ?_ ?_; unfold x; rotate_left; clear_value x; intro hx) | skip))
    | lift_lets -underBinder
    | with_reducible apply within_ite
    | with_reducible apply within_State_cacheUnit
    | with_reducible apply within_State_each
    | with_reducible apply within_foldl
    | intro _
    | (refine within_of_snd (by assumption) ?_)
    | (refine within_of_fst (by assumption) ?_)
    | (split)
    | (dsimp -zeta only)

theorem within_State_showMap {s : State} (hs : Within m s₀ s) (hm : Sub 0x400000000000000000000000000000000000000000000000000000000000000000000000000000000000000604000000000000000 m)  : Within m s₀ (State.showMap s) := by
  unfold State.showMap
  repeat' first
    | with_reducible assumption
    | exact Sub.up hm (by decide)
    | exact Sub.bit hm (by decide)
    | intro _
    | with_reducible apply within_State_put
    | with_reducible apply within_State_putPair
    | (intro x; (first | (refine within_cut (m := m) (s₀ := s₀) x ?_ ?_; unfold x; rotate_left; clear_value x; intro hx) | skip))
    | with_reducible apply within_ite
    | with_reducible apply within_State_modAqf
    | (refine within_of_snd (by assumption) ?_)
    | (refine within_of_fst (by assumption) ?_)
    | (split)

theorem within_State_logDeferred {s : State} (sector : Nat) (count : Nat) (cause : Nat) (die : Nat) (hs : Within m s₀ s) (hm : Sub 0x400000000000000000000000000000000000000000000000000000000000000000000000000000000000000800200000000000000 m)  : Within m s₀ (State.logDeferred s sector count cause die) := by
  unfold State.logDeferred
  repeat' first
    | with_reducible assumption
    | exact Sub.up hm (by decide)
    | exact Sub.bit hm (by decide)
    | (intro x; (first | (refine within_cut (m := m) (s₀ := s₀) x ?_ ?_; unfold x; rotate_left; clear_value x; intro hx) | skip))
    | lift_lets -underBinder
    | with_reducible apply within_ite
    | with_reducible apply within_State_modAqf
    | with_reducible apply within_State_put
    | with_reducible apply within_State_ev
    | (refine within_of_snd (by assumption) ?_)
    | (refine within_of_fst (by assumption) ?_)
    | (split)

theorem within_State_loseUnit {s : State} (u : Nat) (cause : Nat) (die : Nat) (hs : Within m s₀ s) (hm : Sub 0x408000000000000000000000000000000000000000000000000000000000000000000000000000000000000E04200000000000000 m)  : Within m s₀ (State.loseUnit s u cause die) := by
  unfold State.loseUnit
  repeat' first
    | with_reducible assumption
    | exact Sub.up hm (by decide)
    | exact Sub.bit hm (by decide)
    | (intro x; (first | (refine within_cut (m := m) (s₀ := s₀) x ?_ ?_; unfold x; rotate_left; clear_value x; intro hx) | skip))
    | lift_lets -underBinder
    | with_reducible apply within_State_modAqf
    | with_reducible apply within_State_showMap
    | with_reducible apply within_State_logDeferred
    | with_reducible apply within_ite
    | (refine within_of_snd (by assumption) ?_)
    | (refine within_of_fst (by assumption) ?_)
    | (split)
    | (apply within_mk <;> first | exact Or.inl (by with_reducible rfl) | exact Or.inr (Sub.bit hm (by decide)) | with_reducible rfl | rfl | exact Or.inl rfl | (simp; done) | skip)

theorem within_State_eraseBlock (d : Nat) (b : Nat) {s : State} (hs : Within m s₀ s) (hm : Sub 0x400200000000000000000000000000000000000000000000000000000000000000000000000000000000000000000000000000000 m) : Within m s₀ (State.eraseBlock s d b) := by
  unfold State.eraseBlock
  repeat' first
    | with_reducible assumption
    | exact Sub.up hm (by decide)
    | exact Sub.bit hm (by decide)
    | (intro x; (first | (refine within_cut (m := m) (s₀ := s₀) x ?_ ?_; unfold x; rotate_left; clear_value x; intro hx) | skip))
    | lift_lets -underBinder
    | with_reducible apply within_ite
    | with_reducible apply within_State_arrayOp
    | with_reducible apply within_State_modAqf
    | (refine within_of_snd (by assumption) ?_)
    | (refine within_of_fst (by assumption) ?_)
    | (split)
    | (dsimp -zeta only)

theorem within_State_pauseDie (d : Nat) {s : State} (hs : Within m s₀ s) (hm : Sub 0x400200000000000000000000000000000000000000000000000000000000000000000000000000000000000000000000000000000 m) : Within m s₀ (State.pauseDie s d) := by
  unfold State.pauseDie
  repeat' first
    | with_reducible assumption
    | exact Sub.up hm (by decide)
    | exact Sub.bit hm (by decide)
    | (intro x; (first | (refine within_cut (m := m) (s₀ := s₀) x ?_ ?_; unfold x; rotate_left; clear_value x; intro hx) | skip))
    | lift_lets -underBinder
    | with_reducible apply within_ite
    | with_reducible apply within_State_dieOp
    | with_reducible apply within_State_modAqf
    | (refine within_of_snd (by assumption) ?_)
    | (refine within_of_fst (by assumption) ?_)
    | (split)
    | (dsimp -zeta only)

theorem within_State_resumeDies  {s : State} (hs : Within m s₀ s) (hm : Sub 0x400200000000000000000000000000000000000000000000000000000000000000000000000000000000000000000000000000000 m) : Within m s₀ (State.resumeDies s) := by
  unfold State.resumeDies
  repeat' first
    | with_reducible assumption
    | exact Sub.up hm (by decide)
    | exact Sub.bit hm (by decide)
    | (intro x; (first | (refine within_cut (m := m) (s₀ := s₀) x ?_ ?_; unfold x; rotate_left; clear_value x; intro hx) | skip))
    | lift_lets -underBinder
    | with_reducible apply within_ite
    | with_reducible apply within_State_dieOp
    | with_reducible apply within_State_modAqf
    | with_reducible apply within_foldl
    | intro _
    | (refine within_of_snd (by assumption) ?_)
    | (refine within_of_fst (by assumption) ?_)
    | (split)
    | (dsimp -zeta only)

theorem within_State_eraseOr (d : Nat) (b : Nat) {s : State} (hs : Within m s₀ s) (hm : Sub 0x400200000000000000000000000000000000000000000000000000000000000000000000000000000000000000000000000000000 m) : Within m s₀ (State.eraseOr s d b) := by
  unfold State.eraseOr
  repeat' first
    | with_reducible assumption
    | exact Sub.up hm (by decide)
    | exact Sub.bit hm (by decide)
    | (intro x; (first | (refine within_cut (m := m) (s₀ := s₀) x ?_ ?_; unfold x; rotate_left; clear_value x; intro hx) | skip))
    | lift_lets -underBinder
    | with_reducible apply within_ite
    | with_reducible apply within_State_pauseDie
    | with_reducible apply within_State_eraseBlock
    | (refine within_of_snd (by assumption) ?_)
    | (refine within_of_fst (by assumption) ?_)
    | (split)
    | (dsimp -zeta only)

theorem within_State_eraseCheckpoints  {s : State} (hs : Within m s₀ s) (hm : Sub 0x400200000000000000000000000000000000000000000000000000000000000000000000000000000000000000000000000000000 m) : Within m s₀ (State.eraseCheckpoints s) := by
  unfold State.eraseCheckpoints
  repeat' first
    | with_reducible assumption
    | exact Sub.up hm (by decide)
    | exact Sub.bit hm (by decide)
    | (intro x; (first | (refine within_cut (m := m) (s₀ := s₀) x ?_ ?_; unfold x; rotate_left; clear_value x; intro hx) | skip))
    | lift_lets -underBinder
    | with_reducible apply within_ite
    | with_reducible apply within_State_checkpoint
    | with_reducible apply within_State_eraseOr
    | with_reducible apply within_foldl
    | intro _
    | (refine within_of_snd (by assumption) ?_)
    | (refine within_of_fst (by assumption) ?_)
    | (split)
    | (dsimp -zeta only)

theorem within_State_writeOwn (blocks : List Nat) (bs : List Byte) {s : State} (hs : Within m s₀ s) (hm : Sub 0x400200000000000000000000000000000000000000000000000000000000000000000000000000000000000000000000000000000 m) : Within m s₀ (State.writeOwn s blocks bs) := by
  unfold State.writeOwn
  repeat' first
    | with_reducible assumption
    | exact Sub.up hm (by decide)
    | exact Sub.bit hm (by decide)
    | (intro x; (first | (refine within_cut (m := m) (s₀ := s₀) x ?_ ?_; unfold x; rotate_left; clear_value x; intro hx) | skip))
    | lift_lets -underBinder
    | with_reducible apply within_ite
    | with_reducible apply within_State_programCells
    | with_reducible apply within_State_each
    | with_reducible apply within_foldl
    | intro _
    | (refine within_of_snd (by assumption) ?_)
    | (refine within_of_fst (by assumption) ?_)
    | (split)
    | (dsimp -zeta only)

theorem within_State_writeDirectory (k : Nat) (first : Option Nat) (seq : Nat) {s : State} (hs : Within m s₀ s) (hm : Sub 0x400200000000000000000000000000000000000000000000000000000000000000000000000000000000000000000000000000000 m) : Within m s₀ (State.writeDirectory s k first seq) := by
  unfold State.writeDirectory
  repeat' first
    | with_reducible assumption
    | exact Sub.up hm (by decide)
    | exact Sub.bit hm (by decide)
    | (intro x; (first | (refine within_cut (m := m) (s₀ := s₀) x ?_ ?_; unfold x; rotate_left; clear_value x; intro hx) | skip))
    | lift_lets -underBinder
    | with_reducible apply within_ite
    | with_reducible apply within_State_modAqf
    | with_reducible apply within_State_writeOwn
    | with_reducible apply within_State_eraseCheckpoints
    | (refine within_of_snd (by assumption) ?_)
    | (refine within_of_fst (by assumption) ?_)
    | (split)
    | (dsimp -zeta only)

theorem within_State_checkpoint (k : Nat) {s : State} (hs : Within m s₀ s) (hm : Sub 0x400200000000000000000000000000000000000000000000000000000000000000000000000000000000000000000000000000000 m) : Within m s₀ (State.checkpoint s k) := by
  unfold State.checkpoint
  repeat' first
    | with_reducible assumption
    | exact Sub.up hm (by decide)
    | exact Sub.bit hm (by decide)
    | (intro x; (first | (refine within_cut (m := m) (s₀ := s₀) x ?_ ?_; unfold x; rotate_left; clear_value x; intro hx) | skip))
    | lift_lets -underBinder
    | with_reducible apply within_ite
    | with_reducible apply within_State_writeDirectory
    | with_reducible apply within_State_modAqf
    | with_reducible apply within_State_writeOwn
    | (refine within_of_snd (by assumption) ?_)
    | (refine within_of_fst (by assumption) ?_)
    | (split)
    | (dsimp -zeta only)

theorem within_State_eraseDead  {s : State} (hs : Within m s₀ s) (hm : Sub 0x400200000000000000000000000000000000000000000000000000000000000000000000000000000000000000000000000000000 m) : Within m s₀ (State.eraseDead s) := by
  unfold State.eraseDead
  repeat' first
    | with_reducible assumption
    | exact Sub.up hm (by decide)
    | exact Sub.bit hm (by decide)
    | (intro x; (first | (refine within_cut (m := m) (s₀ := s₀) x ?_ ?_; unfold x; rotate_left; clear_value x; intro hx) | skip))
    | lift_lets -underBinder
    | with_reducible apply within_ite
    | with_reducible apply within_foldl
    | with_reducible apply within_State_eraseOr
    | with_reducible apply within_State_eraseCheckpoints
    | intro _
    | (refine within_of_snd (by assumption) ?_)
    | (refine within_of_fst (by assumption) ?_)
    | (split)
    | (dsimp -zeta only)

theorem within_State_endWrites  {s : State} (hs : Within m s₀ s) (hm : Sub 0x400800000000000000000000000000000000000000000000000000000000000000000000000000000000000000000000000000000 m) : Within m s₀ (State.endWrites s) := by
  unfold State.endWrites
  repeat' first
    | with_reducible assumption
    | exact Sub.up hm (by decide)
    | exact Sub.bit hm (by decide)
    | (intro x; (first | (refine within_cut (m := m) (s₀ := s₀) x ?_ ?_; unfold x; rotate_left; clear_value x; intro hx) | skip))
    | lift_lets -underBinder
    | with_reducible apply within_ite
    | with_reducible apply within_State_setTasks
    | with_reducible apply within_State_dropPartial
    | (refine within_of_snd (by assumption) ?_)
    | (refine within_of_fst (by assumption) ?_)
    | (split)
    | (dsimp -zeta only)

theorem within_State_lifeEval {s : State} (hs : Within m s₀ s) (hm : Sub 0x400800000000000000000000000000000000000000000000000000000000000000000000000000000000000040300000000000000 m)  : Within m s₀ (State.lifeEval s) := by
  unfold State.lifeEval
  repeat' first
    | with_reducible assumption
    | exact Sub.up hm (by decide)
    | exact Sub.bit hm (by decide)
    | (intro x; (first | (refine within_cut (m := m) (s₀ := s₀) x ?_ ?_; unfold x; rotate_left; clear_value x; intro hx) | skip))
    | lift_lets -underBinder
    | with_reducible apply within_ite
    | with_reducible apply within_State_modAqf
    | with_reducible apply within_State_put
    | with_reducible apply within_State_ev
    | with_reducible apply within_State_putb
    | with_reducible apply within_foldl
    | with_reducible apply within_State_endWrites
    | (refine within_of_snd (by assumption) ?_)
    | (refine within_of_fst (by assumption) ?_)
    | (dsimp -zeta only)
    | (split)

end Sys2Proof.Machine
end

