-- ==== Sys2Proof/Laws/WithinMirror.lean ====
section
/-! SUPPORT. What the operations of Machine/Mirror.lean can change, and that they keep a state sound. -/
namespace Sys2Proof.Machine

variable {m : Nat} {s₀ : State}

theorem within_State_drainUnit  {s : State} (hs : Within m s₀ s) (hm : Sub 0x410000000000000000000000000000000000000000000000000000000000000000000000000000000000000000000000000000000 m) : Within m s₀ (State.drainUnit s) := by
  unfold State.drainUnit
  split
  · exact hs
  · apply within_ite
    · exact fun _ => hs
    · intro _
      have hx := fun f => within_State_modAqf f hs (Sub.up hm (by decide))
      exact within_mk (hx _) rfl rfl rfl rfl rfl rfl rfl rfl rfl rfl rfl (.inl rfl) (.inl rfl) (.inl rfl) (.inl rfl) (.inl rfl) (.inl rfl) (.inl rfl)
        (.inl rfl) (.inl rfl) (.inl rfl) (.inl rfl) (.inr (Sub.bit hm (by decide))) (.inl rfl) (.inl rfl) (.inl rfl) (.inl rfl) (.inl rfl)
        (.inl rfl) (.inl rfl) (.inl rfl) (.inl rfl) (.inl rfl) (.inl rfl)

theorem within_State_popRing  {s : State} (hs : Within m s₀ s) (hm : Sub 0x10000000000000000000000000000000000000000000000000000000000000000000000000000000000000000000000000000004 m) : Within m s₀ (State.popRing s) := by
  unfold State.popRing
  repeat' first
    | with_reducible assumption
    | exact Sub.up hm (by decide)
    | exact Sub.bit hm (by decide)
    | (intro x; (first | (refine within_cut (m := m) (s₀ := s₀) x ?_ ?_; unfold x; rotate_left; clear_value x; intro hx) | skip))
    | lift_lets -underBinder
    | with_reducible apply within_ite
    | with_reducible apply within_State_flushFaults
    | with_reducible apply within_State_showFill
    | (apply within_mk <;> first | exact Or.inl (by with_reducible rfl) | exact Or.inr (Sub.bit hm (by decide)) | with_reducible rfl | rfl | exact Or.inl rfl | (simp; done) | skip)
    | (refine within_of_snd (by assumption) ?_)
    | (refine within_of_fst (by assumption) ?_)
    | (split)
    | (dsimp -zeta only)

theorem within_drainEffect (ok : Bool) {s : State} (hs : Within m s₀ s) (hm : Sub 0x410200000000000000000000000000000000000000000000000000000000000000000000000000000000000000000000000000004 m)  : Within m s₀ (drainEffect ok s) := by
  unfold drainEffect
  repeat' first
    | with_reducible assumption
    | exact Sub.up hm (by decide)
    | exact Sub.bit hm (by decide)
    | (intro x; (first | (refine within_cut (m := m) (s₀ := s₀) x ?_ ?_; unfold x; rotate_left; clear_value x; intro hx) | skip))
    | lift_lets -underBinder
    | with_reducible apply within_ite
    | with_reducible apply within_State_emit
    | with_reducible apply within_State_popRing
    | with_reducible apply within_State_drainUnit
    | with_reducible apply within_State_each
    | with_reducible apply within_foldl
    | (refine within_of_snd (by assumption) ?_)
    | (refine within_of_fst (by assumption) ?_)
    | (split)
    | (apply within_mk <;> first | exact Or.inl (by with_reducible rfl) | exact Or.inr (Sub.bit hm (by decide)) | with_reducible rfl | rfl | exact Or.inl rfl | (simp; done) | skip)

theorem within_mirCtrlEffect (w : Word) {s : State} (hs : Within m s₀ s) (hm : Sub 0x21C400000000000000000000000000000000000000000000000000000000001000000000000000040080000000000018000000007 m)  : Within m s₀ (mirCtrlEffect w s) := by
  unfold mirCtrlEffect
  repeat' first
    | with_reducible assumption
    | exact Sub.up hm (by decide)
    | exact Sub.bit hm (by decide)
    | (intro x; (first | (refine within_cut (m := m) (s₀ := s₀) x ?_ ?_; unfold x; rotate_left; clear_value x; intro hx) | skip))
    | lift_lets -underBinder
    | with_reducible apply within_ite
    | with_reducible apply within_State_mirApply
    | with_reducible apply within_State_swWrite

theorem within_modeChangeEffect {s : State} (hs : Within m s₀ s) (hm : Sub 0x21C400000000000000000000000000000000000000000000000000000000001000000000000000040080000000000018000000006 m)  : Within m s₀ (modeChangeEffect s) := by
  unfold modeChangeEffect
  repeat' first
    | with_reducible assumption
    | exact Sub.up hm (by decide)
    | exact Sub.bit hm (by decide)
    | (intro x; (first | (refine within_cut (m := m) (s₀ := s₀) x ?_ ?_; unfold x; rotate_left; clear_value x; intro hx) | skip))
    | lift_lets -underBinder
    | with_reducible apply within_ite
    | with_reducible apply within_State_mirApply

theorem within_State_armByHash {s : State} (step : Nat) (h : List Byte) (hs : Within m s₀ s) (hm : Sub 0x2000000000000000000000000000000000000000000000000000000000000000000000000000000000000000000000008000000 m)  : Within m s₀ (State.armByHash s step h) := by
  unfold State.armByHash
  repeat' first
    | with_reducible assumption
    | exact Sub.up hm (by decide)
    | exact Sub.bit hm (by decide)
    | (intro x; (first | (refine within_cut (m := m) (s₀ := s₀) x ?_ ?_; unfold x; rotate_left; clear_value x; intro hx) | skip))
    | lift_lets -underBinder
    | with_reducible apply within_State_put
    | (apply within_mk <;> first | exact Or.inl (by with_reducible rfl) | exact Or.inr (Sub.bit hm (by decide)) | with_reducible rfl | rfl | exact Or.inl rfl | (simp; done) | skip)

theorem within_State_armNextFromLog (step : Nat) {s : State} (hs : Within m s₀ s) (hm : Sub 0x2000000000000000000000000000000000000000000000000000000000000000000000000000000000000000000000008000000 m) : Within m s₀ (State.armNextFromLog s step) := by
  unfold State.armNextFromLog
  repeat' first
    | with_reducible assumption
    | exact Sub.up hm (by decide)
    | exact Sub.bit hm (by decide)
    | (intro x; (first | (refine within_cut (m := m) (s₀ := s₀) x ?_ ?_; unfold x; rotate_left; clear_value x; intro hx) | skip))
    | lift_lets -underBinder
    | with_reducible apply within_ite
    | with_reducible apply within_State_armByHash
    | (refine within_of_snd (by assumption) ?_)
    | (refine within_of_fst (by assumption) ?_)
    | (split)
    | (dsimp -zeta only)

theorem within_State_armFromLog {s : State} (p : Replay) (hs : Within m s₀ s) (hm : Sub 0x8000000000000000000000000000000000000000000000000000000000000000000000000000000000000000000008000000000 m)  : Within m s₀ (State.armFromLog s p) := by
  unfold State.armFromLog
  repeat' first
    | with_reducible assumption
    | exact Sub.up hm (by decide)
    | exact Sub.bit hm (by decide)
    | (unfold pendFld; (try dsimp only); first | exact Sub.bit hm (by decide) | (split <;> exact Sub.bit hm (by decide)))
    | (intro x; (first | (refine within_cut (m := m) (s₀ := s₀) x ?_ ?_; unfold x; rotate_left; clear_value x; intro hx) | skip))
    | lift_lets -underBinder
    | with_reducible apply within_ite
    | with_reducible apply within_State_putb
    | with_reducible apply within_State_modSlot
    | with_reducible apply within_State_each

theorem within_State_beginReplay {s : State} (l : List (List Byte)) (mismatch : Bool) (ht : Within m s₀ s) (hm : Sub 0x21E400000000000000000000000000000000000000000000000000000000001000000000000000040080000000000018008000007 m) :
    Within m s₀ (s.beginReplay l mismatch) := by
  unfold State.beginReplay
  lift_lets -underBinder
  intro last standing p x y
  clear_value last standing p
  have hy : Within m s₀ y := by
    unfold y
    repeat' first
      | with_reducible assumption
      | exact Sub.up hm (by decide)
      | exact Sub.bit hm (by decide)
      | (intro x; (first | (refine within_cut (m := m) (s₀ := s₀) x ?_ ?_; unfold x; rotate_left; clear_value x; intro hx) | skip))
      | lift_lets -underBinder
      | with_reducible apply within_ite
      | with_reducible apply within_mirCtrlEffect
      | with_reducible apply within_State_armByHash
      | with_reducible apply within_State_armFromLog
      | with_reducible apply within_State_checkReplay
      | with_reducible apply within_State_put
      | with_reducible apply within_State_ev
      | (refine within_of_snd (by assumption) ?_)
      | (refine within_of_fst (by assumption) ?_)
      | (dsimp -zeta only)
      | (split)
      | (apply within_mk <;> first | exact Or.inl (by with_reducible rfl) | exact Or.inr (Sub.bit hm (by decide)) | with_reducible rfl | rfl | exact Or.inl rfl | (simp; done) | skip)
  clear_value y
  intro y1
  have h1 : Within m s₀ y1 := within_State_put _ _ hy (Sub.bit hm (by decide))
  clear_value y1
  intro y2
  have h2 : Within m s₀ y2 := within_State_armFromLog _ h1 (Sub.up hm (by decide))
  clear_value y2
  intro y3
  have h3 : Within m s₀ y3 := by
    unfold y3
    split
    · exact within_State_armByHash _ _ h2 (Sub.up hm (by decide))
    · exact within_State_armNextFromLog _ h2 (Sub.up hm (by decide))
  exact within_State_checkReplay h3 (Sub.up hm (by decide))

theorem within_replayStartEffect (w : Word) (log : List Byte) {s : State} (hs : Within m s₀ s) (hm : Sub 0x21E400000000000000000000000000000000000000000000000000000000001000000000000000040080000000000018008000007 m) :
    Within m s₀ (replayStartEffect w log s) := by
  unfold replayStartEffect
  have ht := within_mirCtrlEffect w hs (Sub.up hm (by decide))
  generalize mirCtrlEffect w s = t at ht ⊢
  apply within_ite
  · intro _
    apply within_ite
    · intro _; exact within_State_beginReplay _ _ ht hm
    · intro _; exact within_State_ev _ ht (Sub.bit hm (by decide))
  · intro _; exact ht

end Sys2Proof.Machine
end

