-- ==== Sys2Proof/Laws/WithinOperands.lean ====
section
/-! SUPPORT. What the operations of Machine/Operands.lean can change, and that they keep a state sound. -/
namespace Sys2Proof.Machine

variable {m : Nat} {s₀ : State}

theorem within_State_setSel {s : State} (b : SelBlock) (rq : Requester) (inst : Nat) (hs : Within m s₀ s) (hm : Sub 0x40000000000000000000000000000000000000000000000000000000000000000000000000000000000000000000000000000 m)  : Within m s₀ (State.setSel s b rq inst) := by
  unfold State.setSel
  repeat' first
    | with_reducible assumption
    | exact Sub.up hm (by decide)
    | exact Sub.bit hm (by decide)
    | (intro x; (first | (refine within_cut (m := m) (s₀ := s₀) x ?_ ?_; unfold x; rotate_left; clear_value x; intro hx) | skip))
    | lift_lets -underBinder
    | (apply within_mk <;> first | exact Or.inl (by with_reducible rfl) | exact Or.inr (Sub.bit hm (by decide)) | with_reducible rfl | rfl | exact Or.inl rfl | (simp; done) | skip)

theorem within_State_setLatch {s : State} (rq : Requester) (k : RegKey) (w : Word) (hs : Within m s₀ s) (hm : Sub 0x80000000000000000000000000000000000000000000000000000000000000000000000000000000000000000000000000000 m)  : Within m s₀ (State.setLatch s rq k w) := by
  unfold State.setLatch
  repeat' first
    | with_reducible assumption
    | exact Sub.up hm (by decide)
    | exact Sub.bit hm (by decide)
    | (intro x; (first | (refine within_cut (m := m) (s₀ := s₀) x ?_ ?_; unfold x; rotate_left; clear_value x; intro hx) | skip))
    | lift_lets -underBinder
    | (apply within_mk <;> first | exact Or.inl (by with_reducible rfl) | exact Or.inr (Sub.bit hm (by decide)) | with_reducible rfl | rfl | exact Or.inl rfl | (simp; done) | skip)

theorem within_State_setStaged {s : State} (rq : Requester) (k : RegKey) (w : Option Word) (hs : Within m s₀ s) (hm : Sub 0x100000000000000000000000000000000000000000000000000000000000000000000000000000000000000000000000000000 m)  : Within m s₀ (State.setStaged s rq k w) := by
  unfold State.setStaged
  repeat' first
    | with_reducible assumption
    | exact Sub.up hm (by decide)
    | exact Sub.bit hm (by decide)
    | (intro x; (first | (refine within_cut (m := m) (s₀ := s₀) x ?_ ?_; unfold x; rotate_left; clear_value x; intro hx) | skip))
    | lift_lets -underBinder
    | (apply within_mk <;> first | exact Or.inl (by with_reducible rfl) | exact Or.inr (Sub.bit hm (by decide)) | with_reducible rfl | rfl | exact Or.inl rfl | (simp; done) | skip)

theorem within_State_violation {s : State} (rq : Requester) (bar : Nat) (off : Nat) (size : Nat) (write : Bool) (reason : Nat) (hs : Within m s₀ s) (hm : Sub 0xE0000000000000000000000000000000000000000000000000000000000000000000000000000000000000000 m)  : Within m s₀ (State.violation s rq bar off size write reason) := by
  unfold State.violation
  repeat' first
    | with_reducible assumption
    | exact Sub.up hm (by decide)
    | exact Sub.bit hm (by decide)
    | (intro x; (first | (refine within_cut (m := m) (s₀ := s₀) x ?_ ?_; unfold x; rotate_left; clear_value x; intro hx) | skip))
    | lift_lets -underBinder
    | with_reducible apply within_ite
    | with_reducible apply within_State_setWord
    | with_reducible apply within_State_put
    | with_reducible apply within_State_putb
    | with_reducible apply within_State_bump

theorem within_State_refuseAccess {s : State} (rq : Requester) (bar : Nat) (off : Nat) (size : Nat) (write : Bool) (reason : Nat) (hs : Within m s₀ s) (hm : Sub 0x2000000000000E0000000000000000000000000000000000000000000000000000000000000000000000000000000000000000 m)  : Within m s₀ (State.refuseAccess s rq bar off size write reason) := by
  unfold State.refuseAccess
  repeat' first
    | with_reducible assumption
    | exact Sub.up hm (by decide)
    | exact Sub.bit hm (by decide)
    | (intro x; (first | (refine within_cut (m := m) (s₀ := s₀) x ?_ ?_; unfold x; rotate_left; clear_value x; intro hx) | skip))
    | lift_lets -underBinder
    | with_reducible apply within_State_violation
    | with_reducible apply within_State_emit
    | (refine within_of_snd (by assumption) ?_)
    | (refine within_of_fst (by assumption) ?_)
    | (split)

end Sys2Proof.Machine
end

