-- ==== Sys2Proof/Laws/WithinLedgerOps.lean ====
section
/-! SUPPORT. What the operations of Machine/LedgerOps.lean can change, and that they keep a state sound. -/
namespace Sys2Proof.Machine

variable {m : Nat} {s₀ : State}

theorem within_State_modSvc {s : State} (f : ServiceSt → ServiceSt) (hs : Within m s₀ s) (hm : Sub 0x800000000000000000000000000000000000000000000000000000000000000000000000000000000000000000000000000000000 m) (hf : (f s.svc).slots.length = s.svc.slots.length)  : Within m s₀ (State.modSvc s f) := by
  unfold State.modSvc
  repeat' first
    | with_reducible assumption
    | exact Sub.up hm (by decide)
    | exact Sub.bit hm (by decide)
    | (intro x; (first | (refine within_cut (m := m) (s₀ := s₀) x ?_ ?_; unfold x; rotate_left; clear_value x; intro hx) | skip))
    | lift_lets -underBinder
    | (apply within_mk <;> first | exact Or.inl (by with_reducible rfl) | exact Or.inr (Sub.bit hm (by decide)) | with_reducible rfl | rfl | exact Or.inl rfl | (simp; done) | skip)

theorem within_State_setImage (k : Nat) (st : Nat) {s : State} (hs : Within m s₀ s) (hm : Sub 0x800000000000000000000000000000000008000000000000000000000000000000000000000000000000000000000000000000000 m) : Within m s₀ (State.setImage s k st) := by
  unfold State.setImage
  repeat' first
    | with_reducible assumption
    | exact Sub.up hm (by decide)
    | exact Sub.bit hm (by decide)
    | (intro x; (first | (refine within_cut (m := m) (s₀ := s₀) x ?_ ?_; unfold x; rotate_left; clear_value x; intro hx) | skip))
    | lift_lets -underBinder
    | with_reducible apply within_ite
    | (unfold fwField; (try dsimp only); first | exact Sub.bit hm (by decide) | (split <;> exact Sub.bit hm (by decide)))
    | with_reducible apply within_State_put
    | with_reducible refine within_State_modSvc _ ?_ (Sub.up hm (by decide)) rfl
    | with_reducible refine within_State_modSvc _ ?_ (Sub.up hm (by decide)) (by simp)
    | (refine within_of_snd (by assumption) ?_)
    | (refine within_of_fst (by assumption) ?_)
    | (split)
    | (dsimp -zeta only)

theorem within_State_showKeys {s : State} (hs : Within m s₀ s) (hm : Sub 0x10000000 m)  : Within m s₀ (State.showKeys s) := by
  unfold State.showKeys
  repeat' first
    | with_reducible assumption
    | exact Sub.up hm (by decide)
    | exact Sub.bit hm (by decide)
    | (intro x; (first | (refine within_cut (m := m) (s₀ := s₀) x ?_ ?_; unfold x; rotate_left; clear_value x; intro hx) | skip))
    | lift_lets -underBinder
    | with_reducible apply within_ite
    | with_reducible apply within_State_put

theorem within_State_rewriteLedger {s : State} (format : Nat) (l : List (Nat × List Byte)) (hs : Within m s₀ s) (hm : Sub 0x800000000000000000000000000000000000000000000000000000000000000000000000000000000000000000000000010000000 m)  : Within m s₀ (State.rewriteLedger s format l) := by
  unfold State.rewriteLedger
  repeat' first
    | with_reducible assumption
    | exact Sub.up hm (by decide)
    | exact Sub.bit hm (by decide)
    | (intro x; (first | (refine within_cut (m := m) (s₀ := s₀) x ?_ ?_; unfold x; rotate_left; clear_value x; intro hx) | skip))
    | lift_lets -underBinder
    | with_reducible refine within_State_modSvc _ ?_ rfl
    | with_reducible refine within_State_modSvc _ ?_ (by simp)
    | with_reducible apply within_State_showKeys
    | with_reducible apply within_ite
    | with_reducible refine within_State_modSvc _ ?_ (Sub.up hm (by decide)) rfl
    | with_reducible refine within_State_modSvc _ ?_ (Sub.up hm (by decide)) (by simp)
    | (apply within_mk <;> first | exact Or.inl (by with_reducible rfl) | exact Or.inr (Sub.bit hm (by decide)) | with_reducible rfl | rfl | exact Or.inl rfl | (simp; done) | skip)
    | (refine within_of_snd (by assumption) ?_)
    | (refine within_of_fst (by assumption) ?_)
    | (split)

theorem within_State_putRecord {s : State} (key : Nat) (data : List Byte) (hs : Within m s₀ s) (hm : Sub 0x800000000000000000000000000000000000000000000000000000000000000000000000000000000000000000000000010000000 m)  : Within m s₀ (State.putRecord s key data) := by
  unfold State.putRecord
  repeat' first
    | with_reducible assumption
    | exact Sub.up hm (by decide)
    | exact Sub.bit hm (by decide)
    | (intro x; (first | (refine within_cut (m := m) (s₀ := s₀) x ?_ ?_; unfold x; rotate_left; clear_value x; intro hx) | skip))
    | lift_lets -underBinder
    | with_reducible apply within_ite
    | with_reducible apply within_State_rewriteLedger
    | (refine within_of_snd (by assumption) ?_)
    | (refine within_of_fst (by assumption) ?_)
    | (split)

end Sys2Proof.Machine
end

