-- ==== Sys2Proof/Laws/WithinAquifer.lean ====
section
/-! SUPPORT. What the operations of Machine/Aquifer.lean can change, and that they keep a state sound. -/
namespace Sys2Proof.Machine

variable {m : Nat} {s₀ : State}

theorem within_landUnit (t : Nat) {s : State} (hs : Within m s₀ s) (hm : Sub 0x600E00000000000000000000000000000000000000000000000000000000005000000000000000040080000000000008000000000 m) : Within m s₀ (landUnit t s) := by
  unfold landUnit
  repeat' first
    | with_reducible assumption
    | exact Sub.up hm (by decide)
    | exact Sub.bit hm (by decide)
    | (intro x; (first | (refine within_cut (m := m) (s₀ := s₀) x ?_ ?_; unfold x; rotate_left; clear_value x; intro hx) | skip))
    | lift_lets -underBinder
    | exact within_takeBuf_some (by assumption) (Sub.up hm (by decide)) (by assumption)
    | with_reducible apply within_ite
    | with_reducible apply within_State_modTask
    | with_reducible apply within_showBasin
    | with_reducible apply within_State_issueReads
    | with_reducible apply within_State_takeBuf
    | with_reducible apply within_State_modAqf
    | with_reducible apply within_foldl
    | (refine within_of_snd (by assumption) ?_)
    | (refine within_of_fst (by assumption) ?_)
    | (split)
    | (dsimp -zeta only)

theorem within_sendUnit (t : Nat) {s : State} (hs : Within m s₀ s) (hm : Sub 0x200A00000000000000000000000000000000000000000000000000000000001000000000000000040080000000000008000000000 m) : Within m s₀ (sendUnit t s) := by
  unfold sendUnit
  repeat' first
    | with_reducible assumption
    | exact Sub.up hm (by decide)
    | exact Sub.bit hm (by decide)
    | (intro x; (first | (refine within_cut (m := m) (s₀ := s₀) x ?_ ?_; unfold x; rotate_left; clear_value x; intro hx) | skip))
    | lift_lets -underBinder
    | with_reducible apply within_ite
    | with_reducible apply within_showBasin
    | with_reducible apply within_State_freeBufs
    | with_reducible apply within_State_deliver
    | with_reducible apply within_State_modTask
    | (refine within_of_snd (by assumption) ?_)
    | (refine within_of_fst (by assumption) ?_)
    | (split)
    | (dsimp -zeta only)

theorem within_readEnd (t : Nat) {s : State} (hs : Within m s₀ s) (hm : Sub 0x800000000000000000000000000000000000000000000000000000000000000000000000000000000000000000000000000000 m) : Within m s₀ (readEnd t s) := by
  unfold readEnd
  repeat' first
    | with_reducible assumption
    | exact Sub.up hm (by decide)
    | exact Sub.bit hm (by decide)
    | (intro x; (first | (refine within_cut (m := m) (s₀ := s₀) x ?_ ?_; unfold x; rotate_left; clear_value x; intro hx) | skip))
    | lift_lets -underBinder
    | with_reducible apply within_ite
    | with_reducible apply within_State_endTask
    | (refine within_of_snd (by assumption) ?_)
    | (refine within_of_fst (by assumption) ?_)
    | (split)
    | (dsimp -zeta only)

theorem within_readEffect (t : Nat) (step : ReadStep) {s : State} (hs : Within m s₀ s) (hm : Sub 0x600E00000000000000000000000000000000000000000000000000000000005000000000000000040080000000000008000000000 m) : Within m s₀ (readEffect t step s) := by
  unfold readEffect
  repeat' first
    | with_reducible assumption
    | exact Sub.up hm (by decide)
    | exact Sub.bit hm (by decide)
    | (intro x; (first | (refine within_cut (m := m) (s₀ := s₀) x ?_ ?_; unfold x; rotate_left; clear_value x; intro hx) | skip))
    | lift_lets -underBinder
    | with_reducible apply within_ite
    | with_reducible apply within_State_runTask
    | with_reducible apply within_readEnd
    | with_reducible apply within_landUnit
    | with_reducible apply within_sendUnit
    | with_reducible apply within_State_each
    | with_reducible apply within_foldl
    | (refine within_of_snd (by assumption) ?_)
    | (refine within_of_fst (by assumption) ?_)
    | (split)

theorem within_admitEffect (t : Nat) (r : HostRead) {s : State} (hs : Within m s₀ s) (hm : Sub 0x600E00000000000000000000000000000000000000000000000000000000005000000000000000043880000604000008000000000 m) : Within m s₀ (admitEffect t r s) := by
  unfold admitEffect
  repeat' first
    | with_reducible assumption
    | exact Sub.up hm (by decide)
    | exact Sub.bit hm (by decide)
    | (intro x; (first | (refine within_cut (m := m) (s₀ := s₀) x ?_ ?_; unfold x; rotate_left; clear_value x; intro hx) | skip))
    | lift_lets -underBinder
    | with_reducible apply within_ite
    | with_reducible apply within_State_showMap
    | with_reducible apply within_State_modTask
    | with_reducible apply within_State_runTask
    | with_reducible apply within_State_sourceFailed
    | with_reducible apply within_State_dropPartial
    | with_reducible apply within_State_withUnit
    | (apply within_mk <;> first | exact Or.inl (by with_reducible rfl) | exact Or.inr (Sub.bit hm (by decide)) | with_reducible rfl | rfl | exact Or.inl rfl | (simp; done) | skip)
    | (refine within_of_snd (by assumption) ?_)
    | (refine within_of_fst (by assumption) ?_)
    | (split)

theorem within_State_acknowledge (t : Nat) {s : State} (hs : Within m s₀ s) (hm : Sub 0x400000000000000000000000000000000000000000000000000000000000000000000000000000000000000000000000000000000 m) : Within m s₀ (State.acknowledge s t) := by
  unfold State.acknowledge
  repeat' first
    | with_reducible assumption
    | exact Sub.up hm (by decide)
    | exact Sub.bit hm (by decide)
    | (intro x; (first | (refine within_cut (m := m) (s₀ := s₀) x ?_ ?_; unfold x; rotate_left; clear_value x; intro hx) | skip))
    | lift_lets -underBinder
    | with_reducible apply within_ite
    | with_reducible apply within_State_modAqf
    | (refine within_of_snd (by assumption) ?_)
    | (refine within_of_fst (by assumption) ?_)
    | (split)
    | (dsimp -zeta only)

theorem within_writeEffect (t : Nat) {s : State} (hs : Within m s₀ s) (hm : Sub 0x400800000000000000000000000000000000000000000000000000000000000000000000000000000000000000000000000000000 m)  : Within m s₀ (writeEffect t s) := by
  unfold writeEffect
  repeat' first
    | with_reducible assumption
    | exact Sub.up hm (by decide)
    | exact Sub.bit hm (by decide)
    | (intro x; (first | (refine within_cut (m := m) (s₀ := s₀) x ?_ ?_; unfold x; rotate_left; clear_value x; intro hx) | skip))
    | lift_lets -underBinder
    | with_reducible apply within_ite
    | with_reducible apply within_State_endTask
    | with_reducible apply within_State_runTask
    | with_reducible apply within_State_acknowledge
    | (refine within_of_snd (by assumption) ?_)
    | (refine within_of_fst (by assumption) ?_)
    | (split)

theorem within_deallocEffect (t : Nat) {s : State} (hs : Within m s₀ s) (hm : Sub 0x400800000000000000000000000000000000000000000000000000000000000000000000000000000000000604000000000000000 m)  : Within m s₀ (deallocEffect t s) := by
  unfold deallocEffect
  repeat' first
    | with_reducible assumption
    | exact Sub.up hm (by decide)
    | exact Sub.bit hm (by decide)
    | (intro x; (first | (refine within_cut (m := m) (s₀ := s₀) x ?_ ?_; unfold x; rotate_left; clear_value x; intro hx) | skip))
    | lift_lets -underBinder
    | with_reducible apply within_ite
    | with_reducible apply within_State_modAqf
    | with_reducible apply within_State_showMap
    | with_reducible apply within_State_modTask
    | with_reducible apply within_State_endTask
    | with_reducible apply within_foldl
    | with_reducible apply within_State_runTask
    | with_reducible apply within_State_acknowledge
    | (refine within_of_snd (by assumption) ?_)
    | (refine within_of_fst (by assumption) ?_)
    | (split)

theorem within_flushEffect (t : Nat) {s : State} (hs : Within m s₀ s) (hm : Sub 0x800000000000000000000000000000000000000000000000000000000000000000000000000000000000000000000000000000 m)  : Within m s₀ (flushEffect t s) := by
  unfold flushEffect
  repeat' first
    | with_reducible assumption
    | exact Sub.up hm (by decide)
    | exact Sub.bit hm (by decide)
    | (intro x; (first | (refine within_cut (m := m) (s₀ := s₀) x ?_ ?_; unfold x; rotate_left; clear_value x; intro hx) | skip))
    | lift_lets -underBinder
    | with_reducible apply within_ite
    | with_reducible apply within_State_endTask
    | with_reducible apply within_State_runTask
    | (refine within_of_snd (by assumption) ?_)
    | (refine within_of_fst (by assumption) ?_)
    | (split)

theorem within_programUnit (l : FlashLoc) {s : State} (hs : Within m s₀ s) (hm : Sub 0x400200000000000000000000000000000000000000000000000000000000000000000000000000000000000604000000000000000 m) : Within m s₀ (programUnit l s) := by
  unfold programUnit
  repeat' first
    | with_reducible assumption
    | exact Sub.up hm (by decide)
    | exact Sub.bit hm (by decide)
    | (intro x; (first | (refine within_cut (m := m) (s₀ := s₀) x ?_ ?_; unfold x; rotate_left; clear_value x; intro hx) | skip))
    | lift_lets -underBinder
    | with_reducible apply within_ite
    | with_reducible apply within_State_modAqf
    | with_reducible apply within_State_programPage
    | with_reducible apply within_State_showMap
    | with_reducible apply within_State_pauseDie
    | (refine within_of_snd (by assumption) ?_)
    | (refine within_of_fst (by assumption) ?_)
    | (split)
    | (dsimp -zeta only)

theorem within_programPad (l : FlashLoc) {s : State} (hs : Within m s₀ s) (hm : Sub 0x400200000000000000000000000000000000000000000000000000000000000000000000000000000000000604000000000000000 m) : Within m s₀ (programPad l s) := by
  unfold programPad
  repeat' first
    | with_reducible assumption
    | exact Sub.up hm (by decide)
    | exact Sub.bit hm (by decide)
    | (intro x; (first | (refine within_cut (m := m) (s₀ := s₀) x ?_ ?_; unfold x; rotate_left; clear_value x; intro hx) | skip))
    | lift_lets -underBinder
    | with_reducible apply within_ite
    | with_reducible apply within_State_programPage
    | with_reducible apply within_State_modAqf
    | with_reducible apply within_State_showMap
    | (refine within_of_snd (by assumption) ?_)
    | (refine within_of_fst (by assumption) ?_)
    | (split)
    | (dsimp -zeta only)

theorem within_programJournal (l : FlashLoc) {s : State} (hs : Within m s₀ s) (hm : Sub 0x400200000000000000000000000000000000000000000000000000000000000000000000000000000000000000000000000000000 m) : Within m s₀ (programJournal l s) := by
  unfold programJournal
  repeat' first
    | with_reducible assumption
    | exact Sub.up hm (by decide)
    | exact Sub.bit hm (by decide)
    | (intro x; (first | (refine within_cut (m := m) (s₀ := s₀) x ?_ ?_; unfold x; rotate_left; clear_value x; intro hx) | skip))
    | lift_lets -underBinder
    | with_reducible apply within_ite
    | with_reducible apply within_State_modAqf
    | with_reducible apply within_State_pauseDie
    | with_reducible apply within_State_writeCells
    | with_reducible apply within_State_closeFull
    | (refine within_of_snd (by assumption) ?_)
    | (refine within_of_fst (by assumption) ?_)
    | (split)
    | (dsimp -zeta only)

theorem within_programEffect (x : PageWrite) {s : State} (hs : Within m s₀ s) (hm : Sub 0x408200000000000000000000000000000000000000000000000000000000000000000000000000000000000604000000000000000 m) : Within m s₀ (programEffect x s) := by
  unfold programEffect
  repeat' first
    | with_reducible assumption
    | exact Sub.up hm (by decide)
    | exact Sub.bit hm (by decide)
    | (intro x; (first | (refine within_cut (m := m) (s₀ := s₀) x ?_ ?_; unfold x; rotate_left; clear_value x; intro hx) | skip))
    | lift_lets -underBinder
    | with_reducible apply within_ite
    | with_reducible apply within_programUnit
    | with_reducible apply within_State_drainCache
    | with_reducible apply within_programPad
    | with_reducible apply within_programJournal
    | (refine within_of_snd (by assumption) ?_)
    | (refine within_of_fst (by assumption) ?_)
    | (split)

theorem within_State_sendOffset (die : Nat) (level : Nat) (v : Int) {s : State} (hs : Within m s₀ s) (hm : Sub 0x200000000000000000000000000000000000000000000000000000000000000000000000000000000000000000000000000000 m) : Within m s₀ (State.sendOffset s die level v) := by
  unfold State.sendOffset
  repeat' first
    | with_reducible assumption
    | exact Sub.up hm (by decide)
    | exact Sub.bit hm (by decide)
    | (intro x; (first | (refine within_cut (m := m) (s₀ := s₀) x ?_ ?_; unfold x; rotate_left; clear_value x; intro hx) | skip))
    | lift_lets -underBinder
    | with_reducible apply within_ite
    | with_reducible apply within_State_dieOp
    | (refine within_of_snd (by assumption) ?_)
    | (refine within_of_fst (by assumption) ?_)
    | (split)
    | (dsimp -zeta only)

theorem within_State_setOffset (die : Nat) (level : Nat) (bin : Nat) (v : Int) {s : State} (hs : Within m s₀ s) (hm : Sub 0x400200000000000000000000000000000000000000000000000000000000000000000000000000000000000000000000000000000 m) : Within m s₀ (State.setOffset s die level bin v) := by
  unfold State.setOffset
  repeat' first
    | with_reducible assumption
    | exact Sub.up hm (by decide)
    | exact Sub.bit hm (by decide)
    | (intro x; (first | (refine within_cut (m := m) (s₀ := s₀) x ?_ ?_; unfold x; rotate_left; clear_value x; intro hx) | skip))
    | lift_lets -underBinder
    | with_reducible apply within_ite
    | with_reducible apply within_State_modAqf
    | with_reducible apply within_State_sendOffset
    | (refine within_of_snd (by assumption) ?_)
    | (refine within_of_fst (by assumption) ?_)
    | (split)
    | (dsimp -zeta only)

theorem within_State_readWith (l : FlashLoc) (off : Nat → Int) {s : State} (hs : Within m s₀ s) (hm : Sub 0x400200000000000000000000000000000000000000000000000000000000000000000000000000000000000000000000000000000 m) : Within m s₀ (State.readWith s l off) := by
  unfold State.readWith
  repeat' first
    | with_reducible assumption
    | exact Sub.up hm (by decide)
    | exact Sub.bit hm (by decide)
    | (intro x; (first | (refine within_cut (m := m) (s₀ := s₀) x ?_ ?_; unfold x; rotate_left; clear_value x; intro hx) | skip))
    | lift_lets -underBinder
    | with_reducible apply within_ite
    | with_reducible apply within_State_sendOffset
    | with_reducible apply within_State_readPage
    | with_reducible apply within_foldl
    | intro _
    | (refine within_of_snd (by assumption) ?_)
    | (refine within_of_fst (by assumption) ?_)
    | (split)
    | (dsimp -zeta only)

theorem within_State_countCodewords (d : Nat) (bin : Nat) {s : State} (hs : Within m s₀ s) (hm : Sub 0x400000000000000000000000000000000000000000000000000000000000000000000000000000000000000000000000000000000 m) : Within m s₀ (State.countCodewords s d bin) := by
  unfold State.countCodewords
  repeat' first
    | with_reducible assumption
    | exact Sub.up hm (by decide)
    | exact Sub.bit hm (by decide)
    | (intro x; (first | (refine within_cut (m := m) (s₀ := s₀) x ?_ ?_; unfold x; rotate_left; clear_value x; intro hx) | skip))
    | lift_lets -underBinder
    | with_reducible apply within_ite
    | with_reducible apply within_State_modAqf
    | (refine within_of_snd (by assumption) ?_)
    | (refine within_of_fst (by assumption) ?_)
    | (split)
    | (dsimp -zeta only)

theorem within_State_ladderReads (l : FlashLoc) (n : Nat) {s : State} (hs : Within m s₀ s) (hm : Sub 0x400200000000000000000000000000000000000000000000000000000000000000000000000000000000000000000000000000000 m) : Within m s₀ (State.ladderReads s l n) := by
  unfold State.ladderReads
  repeat' first
    | with_reducible assumption
    | exact Sub.up hm (by decide)
    | exact Sub.bit hm (by decide)
    | (intro x; (first | (refine within_cut (m := m) (s₀ := s₀) x ?_ ?_; unfold x; rotate_left; clear_value x; intro hx) | skip))
    | lift_lets -underBinder
    | with_reducible apply within_ite
    | with_reducible apply within_State_readWith
    | with_reducible apply within_foldl
    | intro _
    | (refine within_of_snd (by assumption) ?_)
    | (refine within_of_fst (by assumption) ?_)
    | (split)
    | (dsimp -zeta only)

theorem within_State_softReads (l : FlashLoc) {s : State} (hs : Within m s₀ s) (hm : Sub 0x400200000000000000000000000000000000000000000000000000000000000000000000000000000000000000000000000000000 m) : Within m s₀ (State.softReads s l) := by
  unfold State.softReads
  repeat' first
    | with_reducible assumption
    | exact Sub.up hm (by decide)
    | exact Sub.bit hm (by decide)
    | (intro x; (first | (refine within_cut (m := m) (s₀ := s₀) x ?_ ?_; unfold x; rotate_left; clear_value x; intro hx) | skip))
    | lift_lets -underBinder
    | with_reducible apply within_ite
    | with_reducible apply within_State_readWith
    | (refine within_of_snd (by assumption) ?_)
    | (refine within_of_fst (by assumption) ?_)
    | (split)
    | (dsimp -zeta only)

theorem within_State_restoreOffsets (l : FlashLoc) {s : State} (hs : Within m s₀ s) (hm : Sub 0x200000000000000000000000000000000000000000000000000000000000000000000000000000000000000000000000000000 m) : Within m s₀ (State.restoreOffsets s l) := by
  unfold State.restoreOffsets
  repeat' first
    | with_reducible assumption
    | exact Sub.up hm (by decide)
    | exact Sub.bit hm (by decide)
    | (intro x; (first | (refine within_cut (m := m) (s₀ := s₀) x ?_ ?_; unfold x; rotate_left; clear_value x; intro hx) | skip))
    | lift_lets -underBinder
    | with_reducible apply within_ite
    | with_reducible apply within_State_sendOffset
    | with_reducible apply within_foldl
    | intro _
    | (refine within_of_snd (by assumption) ?_)
    | (refine within_of_fst (by assumption) ?_)
    | (split)
    | (dsimp -zeta only)

theorem within_State_countRead (u : Nat) (l : FlashLoc) (e : ReadEnd) (cause : Nat) {s : State} (hs : Within m s₀ s) (hm : Sub 0x408200000000000000000000000000000000000000000000000000000000000000000000000000000007C00E04200000000000000 m) : Within m s₀ (State.countRead s u l e cause) := by
  unfold State.countRead
  repeat' first
    | with_reducible assumption
    | exact Sub.up hm (by decide)
    | exact Sub.bit hm (by decide)
    | (intro x; (first | (refine within_cut (m := m) (s₀ := s₀) x ?_ ?_; unfold x; rotate_left; clear_value x; intro hx) | skip))
    | lift_lets -underBinder
    | with_reducible apply within_ite
    | with_reducible apply within_State_bumpPair
    | with_reducible apply within_State_countCodewords
    | with_reducible apply within_State_softReads
    | with_reducible apply within_State_bumpi
    | with_reducible apply within_State_setOffset
    | with_reducible apply within_State_loseUnit
    | with_reducible apply within_State_each
    | with_reducible apply within_foldl
    | with_reducible apply within_State_ladderReads
    | with_reducible apply within_State_restoreOffsets
    | with_reducible apply within_State_readOthers
    | intro _
    | (refine within_of_snd (by assumption) ?_)
    | (refine within_of_fst (by assumption) ?_)
    | (split)
    | (dsimp -zeta only)

theorem within_pageReadEffect (u : Nat) (c : PageRead) {s : State} (hs : Within m s₀ s) (hm : Sub 0x408200000000000000000000000000000000000000000000000000000000000000000000000000000007C00E04200000000000000 m) : Within m s₀ (pageReadEffect u c s) := by
  unfold pageReadEffect
  repeat' first
    | with_reducible assumption
    | exact Sub.up hm (by decide)
    | exact Sub.bit hm (by decide)
    | (intro x; (first | (refine within_cut (m := m) (s₀ := s₀) x ?_ ?_; unfold x; rotate_left; clear_value x; intro hx) | skip))
    | lift_lets -underBinder
    | with_reducible apply within_ite
    | with_reducible apply within_foldl
    | with_reducible apply within_State_countRead
    | (refine within_of_snd (by assumption) ?_)
    | (refine within_of_fst (by assumption) ?_)
    | (split)

theorem within_rtLevel (die : Nat) (bin : Nat) (f : FlipCount) {s : State} (hs : Within m s₀ s) (hm : Sub 0x400200000000000000000000000000000000000000000000000000000000000000000000000000000018000000000000000000000 m)  : Within m s₀ (rtLevel die bin f s) := by
  unfold rtLevel
  repeat' first
    | with_reducible assumption
    | exact Sub.up hm (by decide)
    | exact Sub.bit hm (by decide)
    | (intro x; (first | (refine within_cut (m := m) (s₀ := s₀) x ?_ ?_; unfold x; rotate_left; clear_value x; intro hx) | skip))
    | lift_lets -underBinder
    | with_reducible apply within_ite
    | with_reducible apply within_State_bumpi
    | with_reducible apply within_State_setOffset
    | (refine within_of_snd (by assumption) ?_)
    | (refine within_of_fst (by assumption) ?_)
    | (split)

theorem within_State_rtWindow (die : Nat) (bin : Nat) (flips : List FlipCount) {s : State} (hs : Within m s₀ s) (hm : Sub 0x400200000000000000000000000000000000000000000000000000000000000000000000000000000018000000000000000000000 m) : Within m s₀ (State.rtWindow s die bin flips) := by
  unfold State.rtWindow
  repeat' first
    | with_reducible assumption
    | exact Sub.up hm (by decide)
    | exact Sub.bit hm (by decide)
    | (intro x; (first | (refine within_cut (m := m) (s₀ := s₀) x ?_ ?_; unfold x; rotate_left; clear_value x; intro hx) | skip))
    | lift_lets -underBinder
    | with_reducible apply within_ite
    | with_reducible apply within_rtLevel
    | with_reducible apply within_foldl
    | intro _
    | (refine within_of_snd (by assumption) ?_)
    | (refine within_of_fst (by assumption) ?_)
    | (split)
    | (dsimp -zeta only)

theorem within_rtWindowEffect (die : Nat) (bin : Nat) (flips : List FlipCount) {s : State} (hs : Within m s₀ s) (hm : Sub 0x400200000000000000000000000000000000000000000000000000000000000000000000000000000018000000000000000000000 m)  : Within m s₀ (rtWindowEffect die bin flips s) := by
  unfold rtWindowEffect
  repeat' first
    | with_reducible assumption
    | exact Sub.up hm (by decide)
    | exact Sub.bit hm (by decide)
    | (intro x; (first | (refine within_cut (m := m) (s₀ := s₀) x ?_ ?_; unfold x; rotate_left; clear_value x; intro hx) | skip))
    | lift_lets -underBinder
    | with_reducible apply within_ite
    | with_reducible apply within_foldl
    | with_reducible apply within_State_modAqf
    | with_reducible apply within_State_rtWindow
    | (refine within_of_snd (by assumption) ?_)
    | (refine within_of_fst (by assumption) ?_)
    | (split)

theorem within_copyUnit (u : Nat) (src : FlashLoc) (x : UnitCopy) (cause : Nat) (placed : Bool) {s : State} (hs : Within m s₀ s) (hm : Sub 0x608600000000000000000000000000000000000000000000000000000000005000000000000000040087C00E04200008000000000 m) : Within m s₀ (copyUnit u src x cause placed s) := by
  refine within_ite (fun _ => hs) (fun _ => within_ite (fun _ => within_State_pauseDie _ hs (Sub.up hm (by decide))) (fun _ =>
    within_State_withUnit _ _ hs (Sub.up hm (by decide)) (fun t ht => ?_)))
  lift_lets -underBinder
  intro e data t1
  have h1 : Within m s₀ t1 := within_State_countRead _ _ _ _ (within_State_issueRead _ ht (Sub.up hm (by decide))) (Sub.up hm (by decide))
  clear_value e data t1
  split
  · exact h1
  · exact within_State_showMap (within_State_programPage _ _ _ _ (within_State_modAqf _ h1 (Sub.up hm (by decide))) (Sub.up hm (by decide)))
      (Sub.up hm (by decide))

theorem within_foldEffect (u : Nat) (x : UnitCopy) {s : State} (hs : Within m s₀ s) (hm : Sub 0x608600000000000000000000000000000000000000000000000000000000005000000000000000040087C00E04200008000000000 m) : Within m s₀ (foldEffect u x s) := by
  unfold foldEffect
  repeat' first
    | with_reducible assumption
    | exact Sub.up hm (by decide)
    | exact Sub.bit hm (by decide)
    | intro _
    | with_reducible apply within_ite
    | with_reducible apply within_copyUnit
    | (intro x; (first | (refine within_cut (m := m) (s₀ := s₀) x ?_ ?_; unfold x; rotate_left; clear_value x; intro hx) | skip))
    | with_reducible apply within_State_modAqf
    | (refine within_of_snd (by assumption) ?_)
    | (refine within_of_fst (by assumption) ?_)
    | (split)

theorem within_relocateEffect (u : Nat) (x : UnitCopy) {s : State} (hs : Within m s₀ s) (hm : Sub 0x608600000000000000000000000000000000000000000000000000000000005000000000000000040087C00E04200008000000000 m) : Within m s₀ (relocateEffect u x s) := by
  unfold relocateEffect
  repeat' first
    | with_reducible assumption
    | exact Sub.up hm (by decide)
    | exact Sub.bit hm (by decide)
    | intro _
    | with_reducible apply within_ite
    | with_reducible apply within_copyUnit
    | (intro x; (first | (refine within_cut (m := m) (s₀ := s₀) x ?_ ?_; unfold x; rotate_left; clear_value x; intro hx) | skip))
    | (refine within_of_snd (by assumption) ?_)
    | (refine within_of_fst (by assumption) ?_)
    | (split)

theorem within_closeCopyEffect (d : Nat) (b : Nat) {s : State} (hs : Within m s₀ s) (hm : Sub 0x400200000000000000000000000000000000000000000000000000000000000000000000000000000000000604000000000000000 m)  : Within m s₀ (closeCopyEffect d b s) := by
  unfold closeCopyEffect
  repeat' first
    | with_reducible assumption
    | exact Sub.up hm (by decide)
    | exact Sub.bit hm (by decide)
    | (intro x; (first | (refine within_cut (m := m) (s₀ := s₀) x ?_ ?_; unfold x; rotate_left; clear_value x; intro hx) | skip))
    | lift_lets -underBinder
    | with_reducible apply within_ite
    | with_reducible apply within_State_modAqf
    | with_reducible apply within_State_showMap
    | with_reducible apply within_State_closeStripes
    | with_reducible apply within_State_eraseDead
    | with_reducible apply within_foldl
    | with_reducible apply within_State_closeBlock
    | (refine within_of_snd (by assumption) ?_)
    | (refine within_of_fst (by assumption) ?_)
    | (split)

theorem within_checkpointEffect {s : State} (hs : Within m s₀ s) (hm : Sub 0x400200000000000000000000000000000000000000000000000000000000000000000000000000000000000604000000000000000 m)  : Within m s₀ (checkpointEffect s) := by
  unfold checkpointEffect
  repeat' first
    | with_reducible assumption
    | exact Sub.up hm (by decide)
    | exact Sub.bit hm (by decide)
    | (intro x; (first | (refine within_cut (m := m) (s₀ := s₀) x ?_ ?_; unfold x; rotate_left; clear_value x; intro hx) | skip))
    | lift_lets -underBinder
    | with_reducible apply within_ite
    | with_reducible apply within_State_checkpoint
    | with_reducible apply within_State_showMap
    | with_reducible apply within_State_eraseDead
    | (refine within_of_snd (by assumption) ?_)
    | (refine within_of_fst (by assumption) ?_)
    | (split)

theorem within_State_noteFailure (d : Nat) {s : State} (hs : Within m s₀ s) (hm : Sub 0x400000000000000000000000000000000000000000000000000000000000000000000000000000000000000000000000000000000 m) : Within m s₀ (State.noteFailure s d) := by
  unfold State.noteFailure
  repeat' first
    | with_reducible assumption
    | exact Sub.up hm (by decide)
    | exact Sub.bit hm (by decide)
    | (intro x; (first | (refine within_cut (m := m) (s₀ := s₀) x ?_ ?_; unfold x; rotate_left; clear_value x; intro hx) | skip))
    | lift_lets -underBinder
    | with_reducible apply within_ite
    | with_reducible apply within_State_modAqf
    | (refine within_of_snd (by assumption) ?_)
    | (refine within_of_fst (by assumption) ?_)
    | (split)
    | (dsimp -zeta only)

theorem within_dieTimeoutEffect (d : Nat) {s : State} (hs : Within m s₀ s) (hm : Sub 0xC00200000000000000000000000000000000000000000000000000000000000000000000000000000020380002300000000000000 m)  : Within m s₀ (dieTimeoutEffect d s) := by
  unfold dieTimeoutEffect
  repeat' first
    | with_reducible assumption
    | exact Sub.up hm (by decide)
    | exact Sub.bit hm (by decide)
    | (intro x; (first | (refine within_cut (m := m) (s₀ := s₀) x ?_ ?_; unfold x; rotate_left; clear_value x; intro hx) | skip))
    | lift_lets -underBinder
    | with_reducible apply within_ite
    | with_reducible apply within_State_suspendDie
    | with_reducible apply within_State_bumpi
    | with_reducible apply within_State_logFault
    | with_reducible apply within_State_dieOp
    | with_reducible apply within_State_noteFailure
    | (refine within_of_snd (by assumption) ?_)
    | (refine within_of_fst (by assumption) ?_)
    | (split)

theorem within_programFailEffect (d : Nat) (b : Nat) (erase : Bool) {s : State} (hs : Within m s₀ s) (hm : Sub 0xC00000000000000000000000000000000000000000000000000000000000000000000000000000000020384002300000000000000 m)  : Within m s₀ (programFailEffect d b erase s) := by
  unfold programFailEffect
  repeat' first
    | with_reducible assumption
    | exact Sub.up hm (by decide)
    | exact Sub.bit hm (by decide)
    | (split <;> exact Sub.bit hm (by decide))
    | ((with_reducible show Nat.testBit _ _ = true; (try simp +zetaDelta only); repeat' split) <;> exact Sub.bit hm (by decide))
    | (intro x; (first | (refine within_cut (m := m) (s₀ := s₀) x ?_ ?_; unfold x; rotate_left; clear_value x; intro hx) | skip))
    | lift_lets -underBinder
    | with_reducible apply within_ite
    | with_reducible apply within_State_modAqf
    | with_reducible apply within_State_retireDie
    | with_reducible apply within_State_bumpi
    | with_reducible apply within_State_logFault
    | with_reducible apply within_State_noteFailure
    | (refine within_of_snd (by assumption) ?_)
    | (refine within_of_fst (by assumption) ?_)
    | (split)

theorem within_State_bringBack {s : State} (d : Nat) (cmd : Bool) (hs : Within m s₀ s) (hm : Sub 0x400200000000000000000000000000000000000000000000000000000000000000000000000000000000000000000000000000000 m)  : Within m s₀ (State.bringBack s d cmd) := by
  unfold State.bringBack
  repeat' first
    | with_reducible assumption
    | exact Sub.up hm (by decide)
    | exact Sub.bit hm (by decide)
    | (intro x; (first | (refine within_cut (m := m) (s₀ := s₀) x ?_ ?_; unfold x; rotate_left; clear_value x; intro hx) | skip))
    | lift_lets -underBinder
    | with_reducible apply within_State_modAqf
    | with_reducible apply within_ite
    | with_reducible apply within_State_dieOp
    | (refine within_of_snd (by assumption) ?_)
    | (refine within_of_fst (by assumption) ?_)
    | (split)

theorem within_State_dieResult {s : State} (d : Nat) (ok : Bool) (hs : Within m s₀ s) (hm : Sub 0x4000000000000000000 m)  : Within m s₀ (State.dieResult s d ok) := by
  unfold State.dieResult
  repeat' first
    | with_reducible assumption
    | exact Sub.up hm (by decide)
    | exact Sub.bit hm (by decide)
    | intro _
    | with_reducible apply within_State_put
    | with_reducible apply within_State_putb

theorem within_dieCmdEffect (w : Word) {s : State} (hs : Within m s₀ s) (hm : Sub 0x400200000000000000000000000000000000000000000000000000000000000000000000000000000000386002300000000000000 m)  : Within m s₀ (dieCmdEffect w s) := by
  unfold dieCmdEffect
  repeat' first
    | with_reducible assumption
    | exact Sub.up hm (by decide)
    | exact Sub.bit hm (by decide)
    | (intro x; (first | (refine within_cut (m := m) (s₀ := s₀) x ?_ ?_; unfold x; rotate_left; clear_value x; intro hx) | skip))
    | lift_lets -underBinder
    | with_reducible apply within_ite
    | with_reducible apply within_State_bringBack
    | with_reducible apply within_State_dieResult
    | with_reducible apply within_State_suspendDie
    | with_reducible apply within_State_retireDie
    | with_reducible apply within_State_put
    | with_reducible apply within_State_swWrite

/-- The scan of a die changes what its windows change (R182). -/
theorem within_State_scan (d : Nat) (ws : List (Nat × List FlipCount)) {s : State} (hs : Within m s₀ s) (hm : Sub 0x400200000000000000000000000000000000000000000000000000000000000000000000000000000018000000000000000000000 m) : Within m s₀ (State.scan s d ws) := by
  unfold State.scan
  repeat' first
    | with_reducible assumption
    | exact Sub.up hm (by decide)
    | exact Sub.bit hm (by decide)
    | (intro x; (first | (refine within_cut (m := m) (s₀ := s₀) x ?_ ?_; unfold x; rotate_left; clear_value x; intro hx) | skip))
    | lift_lets -underBinder
    | with_reducible apply within_ite
    | with_reducible apply within_State_readPage
    | with_reducible apply within_State_rtWindow
    | with_reducible apply within_State_each
    | with_reducible apply within_foldl
    | intro _
    | (refine within_of_snd (by assumption) ?_)
    | (refine within_of_fst (by assumption) ?_)
    | (split)
    | (dsimp -zeta only)

theorem within_bringDoneEffect (d : Nat) (r : BringBack) {s : State} (hs : Within m s₀ s) (hm : Sub 0x400200000000000000000000000000000000000000000000000000000000000000000000000000000018384002300000000000000 m) : Within m s₀ (bringDoneEffect d r s) := by
  unfold bringDoneEffect
  repeat' first
    | with_reducible assumption
    | exact Sub.up hm (by decide)
    | exact Sub.bit hm (by decide)
    | (intro x; (first | (refine within_cut (m := m) (s₀ := s₀) x ?_ ?_; unfold x; rotate_left; clear_value x; intro hx) | skip))
    | lift_lets -underBinder
    | with_reducible apply within_State_scan
    | with_reducible apply within_ite
    | with_reducible apply within_State_dieResult
    | with_reducible apply within_State_modAqf
    | with_reducible apply within_State_put
    | with_reducible apply within_State_returnDie
    | (refine within_of_snd (by assumption) ?_)
    | (refine within_of_fst (by assumption) ?_)
    | (split)

theorem within_autoBackEffect (d : Nat) {s : State} (hs : Within m s₀ s) (hm : Sub 0x400200000000000000000000000000000000000000000000000000000000000000000000000000000000000000000000000000000 m)  : Within m s₀ (autoBackEffect d s) := by
  unfold autoBackEffect
  repeat' first
    | with_reducible assumption
    | exact Sub.up hm (by decide)
    | exact Sub.bit hm (by decide)
    | (intro x; (first | (refine within_cut (m := m) (s₀ := s₀) x ?_ ?_; unfold x; rotate_left; clear_value x; intro hx) | skip))
    | lift_lets -underBinder
    | with_reducible apply within_ite
    | with_reducible apply within_State_bringBack
    | with_reducible apply within_State_modAqf
    | (refine within_of_snd (by assumption) ?_)
    | (refine within_of_fst (by assumption) ?_)
    | (split)

theorem within_nfcCtrl (c : Nat) (w : Word) {s : State} (hs : Within m s₀ s) (hm : Sub 0x4000000000000000000000000000000000000000000000000000000000000000000000000000000000003C0002300000000000000 m)  : Within m s₀ (nfcCtrl c w s) := by
  unfold nfcCtrl
  repeat' first
    | with_reducible assumption
    | exact Sub.up hm (by decide)
    | exact Sub.bit hm (by decide)
    | (intro x; (first | (refine within_cut (m := m) (s₀ := s₀) x ?_ ?_; unfold x; rotate_left; clear_value x; intro hx) | skip))
    | lift_lets -underBinder
    | with_reducible apply within_ite
    | with_reducible apply within_State_modAqf
    | with_reducible apply within_State_puti
    | with_reducible apply within_State_swWrite
    | with_reducible apply within_foldl
    | with_reducible apply within_State_suspendDie
    | (refine within_of_snd (by assumption) ?_)
    | (refine within_of_fst (by assumption) ?_)
    | (split)

theorem within_State_trained (c : Nat) {s : State} (hs : Within m s₀ s) (hm : Sub 0x200000000000000000000000000000000000000000000000000000000000000000000000000000000080000000000000000000 m) : Within m s₀ (State.trained s c) := by
  unfold State.trained
  repeat' first
    | with_reducible assumption
    | exact Sub.up hm (by decide)
    | exact Sub.bit hm (by decide)
    | (intro x; (first | (refine within_cut (m := m) (s₀ := s₀) x ?_ ?_; unfold x; rotate_left; clear_value x; intro hx) | skip))
    | lift_lets -underBinder
    | with_reducible apply within_ite
    | with_reducible apply within_State_dieOp
    | with_reducible apply within_State_puti
    | with_reducible apply within_foldl
    | intro _
    | (refine within_of_snd (by assumption) ?_)
    | (refine within_of_fst (by assumption) ?_)
    | (split)
    | (dsimp -zeta only)

theorem within_trainingEffect (c : Nat) (ok : Bool) {s : State} (hs : Within m s₀ s) (hm : Sub 0xC00200000000000000000000000000000000000000000000000000000000000000000000000000000000380002300000000000000 m)  : Within m s₀ (trainingEffect c ok s) := by
  unfold trainingEffect
  repeat' first
    | with_reducible assumption
    | exact Sub.up hm (by decide)
    | exact Sub.bit hm (by decide)
    | (intro x; (first | (refine within_cut (m := m) (s₀ := s₀) x ?_ ?_; unfold x; rotate_left; clear_value x; intro hx) | skip))
    | lift_lets -underBinder
    | with_reducible apply within_ite
    | with_reducible apply within_State_modAqf
    | with_reducible apply within_State_logFault
    | with_reducible apply within_foldl
    | with_reducible apply within_State_trained
    | with_reducible apply within_State_suspendDie
    | with_reducible apply within_State_bringBack
    | (refine within_of_snd (by assumption) ?_)
    | (refine within_of_fst (by assumption) ?_)
    | (split)

theorem within_zqEffect (c : Nat) {s : State} (hs : Within m s₀ s) (hm : Sub 0x200000000000000000000000000000000000000000000000000000000000000000000000000000000000000000000000000000 m)  : Within m s₀ (zqEffect c s) := by
  unfold zqEffect
  repeat' first
    | with_reducible assumption
    | exact Sub.up hm (by decide)
    | exact Sub.bit hm (by decide)
    | intro _
    | with_reducible apply within_ite
    | (intro x; (first | (refine within_cut (m := m) (s₀ := s₀) x ?_ ?_; unfold x; rotate_left; clear_value x; intro hx) | skip))
    | with_reducible apply within_State_dieOp
    | with_reducible apply within_foldl
    | (refine within_of_snd (by assumption) ?_)
    | (refine within_of_fst (by assumption) ?_)
    | (split)

theorem within_pwrFailEffect {s : State} (hs : Within m s₀ s) (hm : Sub 0xC00000000000000000000000000000000000000000000000000000000000000000000000000000000000000000100000000000000 m)  : Within m s₀ (pwrFailEffect s) := by
  unfold pwrFailEffect
  repeat' first
    | with_reducible assumption
    | exact Sub.up hm (by decide)
    | exact Sub.bit hm (by decide)
    | (intro x; (first | (refine within_cut (m := m) (s₀ := s₀) x ?_ ?_; unfold x; rotate_left; clear_value x; intro hx) | skip))
    | lift_lets -underBinder
    | with_reducible apply within_ite
    | with_reducible apply within_State_modAqf
    | with_reducible apply within_State_put
    | with_reducible apply within_State_logFault
    | (refine within_of_snd (by assumption) ?_)
    | (refine within_of_fst (by assumption) ?_)
    | (split)

theorem within_State_driveWp (level : Bool) {s : State} (hs : Within m s₀ s) (hm : Sub 0x200000000000000000000000000000000000000000000000000000000000000000000000000000000000000000000000000000 m) : Within m s₀ (State.driveWp s level) := by
  unfold State.driveWp
  repeat' first
    | with_reducible assumption
    | exact Sub.up hm (by decide)
    | exact Sub.bit hm (by decide)
    | (intro x; (first | (refine within_cut (m := m) (s₀ := s₀) x ?_ ?_; unfold x; rotate_left; clear_value x; intro hx) | skip))
    | lift_lets -underBinder
    | with_reducible apply within_ite
    | with_reducible apply within_State_emit
    | (refine within_of_snd (by assumption) ?_)
    | (refine within_of_fst (by assumption) ?_)
    | (split)
    | (dsimp -zeta only)

theorem within_State_writeMarkers  {s : State} (hs : Within m s₀ s) (hm : Sub 0x400200000000000000000000000000000000000000000000000000000000000000000000000000000000000000000000000000000 m) : Within m s₀ (State.writeMarkers s) := by
  unfold State.writeMarkers
  repeat' first
    | with_reducible assumption
    | exact Sub.up hm (by decide)
    | exact Sub.bit hm (by decide)
    | (intro x; (first | (refine within_cut (m := m) (s₀ := s₀) x ?_ ?_; unfold x; rotate_left; clear_value x; intro hx) | skip))
    | lift_lets -underBinder
    | with_reducible apply within_ite
    | with_reducible apply within_State_programCells
    | with_reducible apply within_State_modAqf
    | with_reducible apply within_foldl
    | intro _
    | (refine within_of_snd (by assumption) ?_)
    | (refine within_of_fst (by assumption) ?_)
    | (split)
    | (dsimp -zeta only)

theorem within_State_makeSafe  {s : State} (hs : Within m s₀ s) (hm : Sub 0x401200000000000000000000000000000000000000000000000000000000000000000000000000000000000604300000000000000 m) : Within m s₀ (State.makeSafe s) := by
  unfold State.makeSafe
  repeat' first
    | with_reducible assumption
    | exact Sub.up hm (by decide)
    | exact Sub.bit hm (by decide)
    | (intro x; (first | (refine within_cut (m := m) (s₀ := s₀) x ?_ ?_; unfold x; rotate_left; clear_value x; intro hx) | skip))
    | lift_lets -underBinder
    | with_reducible apply within_ite
    | with_reducible apply within_State_modAqf
    | with_reducible apply within_State_padStripes
    | with_reducible apply within_State_showMap
    | with_reducible apply within_State_put
    | with_reducible apply within_State_ev
    | with_reducible apply within_State_driveWp
    | with_reducible apply within_State_startDrain
    | with_reducible apply within_State_writeMarkers
    | (refine within_of_snd (by assumption) ?_)
    | (refine within_of_fst (by assumption) ?_)
    | (split)
    | (dsimp -zeta only)

theorem within_State_recover  {s : State} (hs : Within m s₀ s) (hm : Sub 0x400A00000000000000000000000000000000000000000000000000000000000000000000000000000000000000300000000000000 m) : Within m s₀ (State.recover s) := by
  unfold State.recover
  repeat' first
    | with_reducible assumption
    | exact Sub.up hm (by decide)
    | exact Sub.bit hm (by decide)
    | (intro x; (first | (refine within_cut (m := m) (s₀ := s₀) x ?_ ?_; unfold x; rotate_left; clear_value x; intro hx) | skip))
    | lift_lets -underBinder
    | with_reducible apply within_ite
    | with_reducible apply within_State_put
    | with_reducible apply within_State_ev
    | with_reducible apply within_State_setTasks
    | with_reducible apply within_State_modAqf
    | with_reducible apply within_State_driveWp
    | (refine within_of_snd (by assumption) ?_)
    | (refine within_of_fst (by assumption) ?_)
    | (split)
    | (dsimp -zeta only)

theorem within_pfSafeEffect (powerRemains : Bool) {s : State} (hs : Within m s₀ s) (hm : Sub 0x401A00000000000000000000000000000000000000000000000000000000000000000000000000000000000604300000000000000 m)  : Within m s₀ (pfSafeEffect powerRemains s) := by
  unfold pfSafeEffect
  repeat' first
    | with_reducible assumption
    | exact Sub.up hm (by decide)
    | exact Sub.bit hm (by decide)
    | (intro x; (first | (refine within_cut (m := m) (s₀ := s₀) x ?_ ?_; unfold x; rotate_left; clear_value x; intro hx) | skip))
    | lift_lets -underBinder
    | with_reducible apply within_ite
    | with_reducible apply within_State_modAqf
    | with_reducible apply within_State_recover
    | with_reducible apply within_State_makeSafe
    | (refine within_of_snd (by assumption) ?_)
    | (refine within_of_fst (by assumption) ?_)
    | (split)

theorem within_State_showFormat {s : State} (hs : Within m s₀ s) (hm : Sub 0x8181900000000000000 m)  : Within m s₀ (State.showFormat s) := by
  unfold State.showFormat
  repeat' first
    | with_reducible assumption
    | exact Sub.up hm (by decide)
    | exact Sub.bit hm (by decide)
    | (intro x; (first | (refine within_cut (m := m) (s₀ := s₀) x ?_ ?_; unfold x; rotate_left; clear_value x; intro hx) | skip))
    | lift_lets -underBinder
    | with_reducible apply within_State_put
    | with_reducible apply within_State_putb
    | with_reducible apply within_State_putPair
    | (refine within_of_snd (by assumption) ?_)
    | (refine within_of_fst (by assumption) ?_)
    | (split)

theorem within_State_logDrain {s : State} (hs : Within m s₀ s) (hm : Sub 0x400000000000000000000000000000000000000000000000000000000000000000000000000000000000000800200000000000000 m)  : Within m s₀ (State.logDrain s) := by
  unfold State.logDrain
  repeat' first
    | with_reducible assumption
    | exact Sub.up hm (by decide)
    | exact Sub.bit hm (by decide)
    | (intro x; (first | (refine within_cut (m := m) (s₀ := s₀) x ?_ ?_; unfold x; rotate_left; clear_value x; intro hx) | skip))
    | lift_lets -underBinder
    | with_reducible apply within_State_modAqf
    | with_reducible apply within_State_logDeferred
    | with_reducible apply within_foldl
    | with_reducible apply within_ite
    | (refine within_of_snd (by assumption) ?_)
    | (refine within_of_fst (by assumption) ?_)
    | (split)

theorem within_State_loadKeys  {s : State} (hs : Within m s₀ s) (hm : Sub 0x400000000000000000000000000000000000000000000000000000000000000000000000000000000000000000000000000000000 m) : Within m s₀ (State.loadKeys s) := by
  unfold State.loadKeys
  repeat' first
    | with_reducible assumption
    | exact Sub.up hm (by decide)
    | exact Sub.bit hm (by decide)
    | (intro x; (first | (refine within_cut (m := m) (s₀ := s₀) x ?_ ?_; unfold x; rotate_left; clear_value x; intro hx) | skip))
    | lift_lets -underBinder
    | with_reducible apply within_ite
    | with_reducible apply within_State_modAqf
    | (refine within_of_snd (by assumption) ?_)
    | (refine within_of_fst (by assumption) ?_)
    | (split)
    | (dsimp -zeta only)

theorem within_State_mountReads  {s : State} (hs : Within m s₀ s) (hm : Sub 0x400200000000000000000000000000000000000000000000000000000000000000000000000000000000000000000000000000000 m) : Within m s₀ (State.mountReads s) := by
  unfold State.mountReads
  repeat' first
    | with_reducible assumption
    | exact Sub.up hm (by decide)
    | exact Sub.bit hm (by decide)
    | (intro x; (first | (refine within_cut (m := m) (s₀ := s₀) x ?_ ?_; unfold x; rotate_left; clear_value x; intro hx) | skip))
    | lift_lets -underBinder
    | with_reducible apply within_ite
    | with_reducible apply within_State_readPage
    | with_reducible apply within_State_dieOp
    | with_reducible apply within_State_each
    | with_reducible apply within_foldl
    | intro _
    | (refine within_of_snd (by assumption) ?_)
    | (refine within_of_fst (by assumption) ?_)
    | (split)
    | (dsimp -zeta only)

theorem within_mountEffect (ms : Nat) {s : State} (hs : Within m s₀ s) (hm : Sub 0x400A00000000000000000000000000000000000000000000000000000000000000000000000000000000099FC7B00000000000000 m)  : Within m s₀ (mountEffect ms s) := by
  unfold mountEffect
  repeat' first
    | with_reducible assumption
    | exact Sub.up hm (by decide)
    | exact Sub.bit hm (by decide)
    | (intro x; (first | (refine within_cut (m := m) (s₀ := s₀) x ?_ ?_; unfold x; rotate_left; clear_value x; intro hx) | skip))
    | lift_lets -underBinder
    | with_reducible apply within_ite
    | with_reducible apply within_State_showFormat
    | with_reducible apply within_State_logDrain
    | with_reducible apply within_State_showDies
    | with_reducible apply within_State_showMap
    | with_reducible apply within_State_lifeEval
    | with_reducible apply within_State_put
    | with_reducible apply within_State_ev
    | with_reducible apply within_State_putb
    | with_reducible apply within_State_modAqf
    | with_reducible apply within_State_loadKeys
    | with_reducible apply within_State_mountReads
    | (refine within_of_snd (by assumption) ?_)
    | (refine within_of_fst (by assumption) ?_)
    | (split)

theorem within_dflAckEffect (w : Word) {s : State} (hs : Within m s₀ s) (hm : Sub 0x400000000000000000000000000000000000000000000000000000000000000000000000000000000000001000000000000000000 m)  : Within m s₀ (dflAckEffect w s) := by
  unfold dflAckEffect
  repeat' first
    | with_reducible assumption
    | exact Sub.up hm (by decide)
    | exact Sub.bit hm (by decide)
    | (intro x; (first | (refine within_cut (m := m) (s₀ := s₀) x ?_ ?_; unfold x; rotate_left; clear_value x; intro hx) | skip))
    | lift_lets -underBinder
    | with_reducible apply within_ite
    | with_reducible apply within_State_modAqf
    | with_reducible apply within_State_put

theorem within_lifeEffect  {s : State} (hs : Within m s₀ s) (hm : Sub 0x400800000000000000000000000000000000000000000000000000000000000000000000000000060000000040300000000000000 m) : Within m s₀ (lifeEffect s) := by
  unfold lifeEffect
  repeat' first
    | with_reducible assumption
    | exact Sub.up hm (by decide)
    | exact Sub.bit hm (by decide)
    | (intro x; (first | (refine within_cut (m := m) (s₀ := s₀) x ?_ ?_; unfold x; rotate_left; clear_value x; intro hx) | skip))
    | lift_lets -underBinder
    | with_reducible apply within_ite
    | with_reducible apply within_State_showTasks
    | with_reducible apply within_State_lifeEval
    | (refine within_of_snd (by assumption) ?_)
    | (refine within_of_fst (by assumption) ?_)
    | (split)
    | (dsimp -zeta only)

theorem within_State_newKeys  {s : State} (hs : Within m s₀ s) (hm : Sub 0xC00400000000000000000000000000000000000000000000000000000000000000000000000000000000000000000000000000000 m) : Within m s₀ (State.newKeys s) := by
  unfold State.newKeys
  exact within_State_loadKeys (within_State_modSvc _ (within_State_fresh 23 (2 ^ 512) hs (Sub.up hm (by decide))) (Sub.up hm (by decide)) rfl) (Sub.up hm (by decide))

theorem within_formatEffect (t : Nat) (r : HostRead) {s : State} (hs : Within m s₀ s) (hm : Sub 0xC00E00000000000000000000000000000000000000000000000000000000000000000000000000003880389F87900000010000000 m) : Within m s₀ (formatEffect t r s) := by
  unfold formatEffect
  repeat' first
    | with_reducible assumption
    | exact Sub.up hm (by decide)
    | exact Sub.bit hm (by decide)
    | (dsimp only; exact Sub.bit hm (by decide))
    | (intro x; (first | (refine within_cut (m := m) (s₀ := s₀) x ?_ ?_; unfold x; rotate_left; clear_value x; intro hx) | skip))
    | lift_lets -underBinder
    | with_reducible apply within_ite
    | with_reducible apply within_State_showFormat
    | with_reducible apply within_State_modAqf
    | with_reducible apply within_State_showDies
    | with_reducible apply within_State_setDie
    | with_reducible apply within_State_showMap
    | with_reducible apply within_State_endTask
    | with_reducible apply within_State_putRecord
    | with_reducible apply within_State_put
    | with_reducible apply within_foldl
    | with_reducible apply within_State_runTask
    | with_reducible apply within_State_onSource
    | with_reducible apply within_State_newKeys
    | with_reducible apply within_State_loadKeys
    | with_reducible apply within_State_eraseCheckpoints
    | (refine within_of_snd (by assumption) ?_)
    | (refine within_of_fst (by assumption) ?_)
    | (split)

theorem within_cryptEraseEffect (t : Nat) {s : State} (hs : Within m s₀ s) (hm : Sub 0xC00E00000000000000000000000000000000000000000000000000000000000000000000000000000000008604000000000000000 m)  : Within m s₀ (cryptEraseEffect t s) := by
  unfold cryptEraseEffect
  repeat' first
    | with_reducible assumption
    | exact Sub.up hm (by decide)
    | exact Sub.bit hm (by decide)
    | (intro x; (first | (refine within_cut (m := m) (s₀ := s₀) x ?_ ?_; unfold x; rotate_left; clear_value x; intro hx) | skip))
    | lift_lets -underBinder
    | with_reducible apply within_State_modAqf
    | with_reducible apply within_State_showMap
    | with_reducible apply within_State_endTask
    | with_reducible apply within_State_put
    | with_reducible apply within_ite
    | with_reducible apply within_State_runTask
    | with_reducible apply within_State_newKeys
    | with_reducible apply within_State_eraseCheckpoints
    | (refine within_of_snd (by assumption) ?_)
    | (refine within_of_fst (by assumption) ?_)
    | (split)

theorem within_logReadEffect (t : Nat) {s : State} (hs : Within m s₀ s) (hm : Sub 0xA00000000000000000000000000000000000000000000000000000000000000000000000000000000000000000000000000000 m)  : Within m s₀ (logReadEffect t s) := by
  unfold logReadEffect
  repeat' first
    | with_reducible assumption
    | exact Sub.up hm (by decide)
    | exact Sub.bit hm (by decide)
    | (intro x; (first | (refine within_cut (m := m) (s₀ := s₀) x ?_ ?_; unfold x; rotate_left; clear_value x; intro hx) | skip))
    | lift_lets -underBinder
    | with_reducible apply within_State_endTask
    | with_reducible apply within_State_deliver
    | with_reducible apply within_ite
    | with_reducible apply within_State_runTask
    | (refine within_of_snd (by assumption) ?_)
    | (refine within_of_fst (by assumption) ?_)
    | (split)

end Sys2Proof.Machine
end

