-- ==== Sys2Proof/Laws/WithinSluice.lean ====
section
/-! SUPPORT. What the operations of Machine/Sluice.lean can change, and that they keep a state sound. -/
namespace Sys2Proof.Machine

variable {m : Nat} {s₀ : State}

theorem within_takeOne (k : Nat) (p : Plan) (img : List Byte) (more : Bool) {s : State} (hs : Within m s₀ s) (hm : Sub 0x18000000000000000000000000000000000000000000000000000000000000000000000000000000000000000000018000000004 m)  : Within m s₀ (takeOne k p img more s) := by
  unfold takeOne
  repeat' first
    | with_reducible assumption
    | exact Sub.up hm (by decide)
    | exact Sub.bit hm (by decide)
    | (unfold pendFld; (try dsimp only); first | exact Sub.bit hm (by decide) | (split <;> exact Sub.bit hm (by decide)))
    | (intro x; (first | (refine within_cut (m := m) (s₀ := s₀) x ?_ ?_; unfold x; rotate_left; clear_value x; intro hx) | skip))
    | lift_lets -underBinder
    | with_reducible apply within_ite
    | with_reducible apply within_State_record
    | with_reducible apply within_State_setSlotState
    | with_reducible apply within_State_put
    | with_reducible apply within_State_ev
    | with_reducible apply within_State_putb
    | with_reducible apply within_State_modSlot
    | (refine within_of_snd (by assumption) ?_)
    | (refine within_of_fst (by assumption) ?_)
    | (split)

theorem within_takeAll {s : State} (h : Within m s₀ s) (l : List (Nat × Plan × List Byte)) (hm : Sub 0x18000000000000000000000000000000000000000000000000000000000000000000000000000000000000000000018000000004 m) :
    Within m s₀ (takeAll l s) := by
  induction l generalizing s with
  | nil => exact h
  | cons e l ih => exact ih (within_takeOne _ _ _ _ h (Sub.up hm (by decide)))

theorem within_takeEffect (k : Nat) {s : State} (h : Within m s₀ s) (hm : Sub 0x121E000000000000000000000000000000000000000000000000000000000000000000000000000000000000000004319008020006 m) : Within m s₀ (takeEffect k s) := by
  unfold takeEffect
  split
  · exact h
  · refine within_ite (fun _ => h) (fun _ => ?_)
    lift_lets -underBinder
    intro l
    exact within_ite (fun _ => within_State_refill (within_takeAll h _ (Sub.up hm (by decide))) (Sub.up hm (by decide)))
      (fun _ => within_State_mirHeld h (Sub.up hm (by decide)))

theorem within_armEffect (t : Nat) (image : HostRead) {s : State} (hs : Within m s₀ s) (hm : Sub 0x121EA00000000000000000000000000000000000000000000000000000000001000000000000000043880000000004399008020006 m) : Within m s₀ (armEffect t image s) := by
  unfold armEffect
  repeat' first
    | with_reducible assumption
    | exact Sub.up hm (by decide)
    | exact Sub.bit hm (by decide)
    | (unfold pendFld; (try dsimp only); first | exact Sub.bit hm (by decide) | (split <;> exact Sub.bit hm (by decide)))
    | (intro x; (first | (refine within_cut (m := m) (s₀ := s₀) x ?_ ?_; unfold x; rotate_left; clear_value x; intro hx) | skip))
    | lift_lets -underBinder
    | with_reducible apply within_ite
    | with_reducible apply within_State_endTask
    | with_reducible apply within_State_unlist
    | with_reducible apply within_State_put
    | with_reducible apply within_State_ev
    | with_reducible apply within_State_modSlot
    | with_reducible apply within_takeEffect
    | with_reducible apply within_State_runTask
    | with_reducible apply within_State_onSource
    | (refine within_of_snd (by assumption) ?_)
    | (refine within_of_fst (by assumption) ?_)
    | (split)

theorem within_fetchIssueEffect {s : State} (hs : Within m s₀ s) (hm : Sub 0x160E600000000000000000000000604000000000000000000000000000000000000000000000000000000000000004319008020000 m)  : Within m s₀ (fetchIssueEffect s) := by
  unfold fetchIssueEffect
  repeat' first
    | with_reducible assumption
    | exact Sub.up hm (by decide)
    | exact Sub.bit hm (by decide)
    | (intro x; (first | (refine within_cut (m := m) (s₀ := s₀) x ?_ ?_; unfold x; rotate_left; clear_value x; intro hx) | skip))
    | lift_lets -underBinder
    | with_reducible apply within_ite
    | with_reducible apply within_State_refill
    | with_reducible apply within_State_trace
    | with_reducible apply within_State_issueReads
    | (refine within_of_snd (by assumption) ?_)
    | (refine within_of_fst (by assumption) ?_)
    | (split)
    | (apply within_mk <;> first | exact Or.inl (by with_reducible rfl) | exact Or.inr (Sub.bit hm (by decide)) | with_reducible rfl | rfl | exact Or.inl rfl | (simp; done) | skip)

theorem within_expandStored (b : List Byte) {s : State} (hs : Within m s₀ s) (hm : Sub 0xE00400000000000000000000000000000000000000000000000 m) : Within m s₀ (expandStored b s).2 := by
  unfold expandStored
  repeat' first
    | with_reducible assumption
    | exact Sub.up hm (by decide)
    | exact Sub.bit hm (by decide)
    | (intro x; (first | (refine within_cut (m := m) (s₀ := s₀) x ?_ ?_; unfold x; rotate_left; clear_value x; intro hx) | skip))
    | lift_lets -underBinder
    | with_reducible apply within_ite
    | with_reducible apply within_State_countPebble
    | (refine within_of_snd (by assumption) ?_)
    | (refine within_of_fst (by assumption) ?_)
    | (dsimp -zeta only)
    | (split)

theorem within_State_modFetch (n : Nat) (f : Fetch → Fetch) {s : State} (hs : Within m s₀ s) (hm : Sub 0x8000000000000000000000000000000000000000000000000000000000000000000000000000000000000000000000000000000 m) : Within m s₀ (State.modFetch s n f) := by
  unfold State.modFetch
  repeat' first
    | with_reducible assumption
    | exact Sub.up hm (by decide)
    | exact Sub.bit hm (by decide)
    | (intro x; (first | (refine within_cut (m := m) (s₀ := s₀) x ?_ ?_; unfold x; rotate_left; clear_value x; intro hx) | skip))
    | lift_lets -underBinder
    | with_reducible apply within_ite
    | (apply within_mk <;> first | exact Or.inl (by with_reducible rfl) | exact Or.inr (Sub.bit hm (by decide)) | with_reducible rfl | rfl | exact Or.inl rfl | (simp; done) | skip)
    | (refine within_of_snd (by assumption) ?_)
    | (refine within_of_fst (by assumption) ?_)
    | (split)
    | (dsimp -zeta only)

theorem within_State_landFetch (n : Nat) (f : Fetch) (it : Item) {s : State} (hs : Within m s₀ s) (hm : Sub 0x1008600000000000000000000000604000000000000000000000000000000000000000000000000000000000000000000000000000 m) : Within m s₀ (State.landFetch s n f it) := by
  unfold State.landFetch
  repeat' first
    | with_reducible assumption
    | exact Sub.up hm (by decide)
    | exact Sub.bit hm (by decide)
    | (intro x; (first | (refine within_cut (m := m) (s₀ := s₀) x ?_ ?_; unfold x; rotate_left; clear_value x; intro hx) | skip))
    | lift_lets -underBinder
    | with_reducible apply within_ite
    | with_reducible apply within_State_modFetch
    | with_reducible apply within_State_trace
    | (refine within_of_snd (by assumption) ?_)
    | (refine within_of_fst (by assumption) ?_)
    | (split)
    | (dsimp -zeta only)

theorem within_State_placeFetch (n : Nat) (f : Fetch) (it : Item) (t : Tensor) {s : State} (hs : Within m s₀ s) (hm : Sub 0x1208600000000000000000000000604000000000000000000000000000000005000000000000000040080000000000008000000000 m) : Within m s₀ (State.placeFetch s n f it t) := by
  unfold State.placeFetch
  repeat' first
    | with_reducible assumption
    | exact Sub.up hm (by decide)
    | exact Sub.bit hm (by decide)
    | (intro x; (first | (refine within_cut (m := m) (s₀ := s₀) x ?_ ?_; unfold x; rotate_left; clear_value x; intro hx) | skip))
    | lift_lets -underBinder
    | with_reducible apply within_ite
    | with_reducible apply within_State_takeBufs
    | with_reducible apply within_showBasin
    | with_reducible apply within_State_landFetch
    | (refine within_of_snd (by assumption) ?_)
    | (refine within_of_fst (by assumption) ?_)
    | (split)
    | (dsimp -zeta only)

theorem within_State_servedFetch (f : Fetch) {s : State} (hs : Within m s₀ s) (hm : Sub 0x400200000000000000000000000000000000000000000000000000000000000000000000000000000000000000000000000000000 m) : Within m s₀ (State.servedFetch s f) := by
  unfold State.servedFetch
  repeat' first
    | with_reducible assumption
    | exact Sub.up hm (by decide)
    | exact Sub.bit hm (by decide)
    | (intro x; (first | (refine within_cut (m := m) (s₀ := s₀) x ?_ ?_; unfold x; rotate_left; clear_value x; intro hx) | skip))
    | lift_lets -underBinder
    | with_reducible apply within_ite
    | with_reducible apply within_State_modAqf
    | with_reducible apply within_State_resumeDies
    | (refine within_of_snd (by assumption) ?_)
    | (refine within_of_fst (by assumption) ?_)
    | (split)
    | (dsimp -zeta only)

theorem within_fetchDoneEffect (n : Nat) {s : State} (hs : Within m s₀ s) (hm : Sub 0x3608600000000000000000000000604000000000000000000000000000200005000000000000000040080000000000008000000000 m) : Within m s₀ (fetchDoneEffect n s) := by
  unfold fetchDoneEffect
  repeat' first
    | with_reducible assumption
    | exact Sub.up hm (by decide)
    | exact Sub.bit hm (by decide)
    | (intro x; (first | (refine within_cut (m := m) (s₀ := s₀) x ?_ ?_; unfold x; rotate_left; clear_value x; intro hx) | skip))
    | lift_lets -underBinder
    | with_reducible apply within_ite
    | with_reducible apply within_State_landFetch
    | with_reducible apply within_State_placeFetch
    | with_reducible apply within_State_servedFetch
    | with_reducible apply within_State_modFetch
    | with_reducible apply within_State_submitJob
    | (refine within_of_snd (by assumption) ?_)
    | (refine within_of_fst (by assumption) ?_)
    | (split)
    | (dsimp -zeta only)

theorem within_State_feedFirst {s : State} (r : Nat) (it : Item) (hs : Within m s₀ s) (hm : Sub 0x4000000000000000000000000000000000000000000000000000000000000000000000000000000000000000000000000000000 m)  : Within m s₀ (State.feedFirst s r it) := by
  unfold State.feedFirst
  repeat' first
    | with_reducible assumption
    | exact Sub.up hm (by decide)
    | exact Sub.bit hm (by decide)
    | (intro x; (first | (refine within_cut (m := m) (s₀ := s₀) x ?_ ?_; unfold x; rotate_left; clear_value x; intro hx) | skip))
    | lift_lets -underBinder
    | with_reducible apply within_ite
    | with_reducible apply within_State_modRill

theorem within_State_popHead {s : State} (r : Nat) (p : Part) (hs : Within m s₀ s) (hm : Sub 0x4000000000000000000000000000000000000000000000000000000000000000000000000000000000000000000000000000000 m)  : Within m s₀ (State.popHead s r p) := by
  unfold State.popHead
  repeat' first
    | with_reducible assumption
    | exact Sub.up hm (by decide)
    | exact Sub.bit hm (by decide)
    | (intro x; (first | (refine within_cut (m := m) (s₀ := s₀) x ?_ ?_; unfold x; rotate_left; clear_value x; intro hx) | skip))
    | lift_lets -underBinder
    | with_reducible apply within_State_modRill

theorem within_releaseEffect (r : Nat) {s : State} (hs : Within m s₀ s) (hm : Sub 0x120E600000000000000000000000604000000000000000000000000000000000000000000000000000000000000004319008020000 m)  : Within m s₀ (releaseEffect r s) := by
  unfold releaseEffect
  repeat' first
    | with_reducible assumption
    | exact Sub.up hm (by decide)
    | exact Sub.bit hm (by decide)
    | (intro x; (first | (refine within_cut (m := m) (s₀ := s₀) x ?_ ?_; unfold x; rotate_left; clear_value x; intro hx) | skip))
    | lift_lets -underBinder
    | with_reducible apply within_ite
    | with_reducible apply within_State_feedFirst
    | with_reducible apply within_State_popHead
    | with_reducible apply within_State_begin
    | with_reducible apply within_State_refill
    | with_reducible apply within_State_trace
    | (refine within_of_snd (by assumption) ?_)
    | (refine within_of_fst (by assumption) ?_)
    | (split)
    | (apply within_mk <;> first | exact Or.inl (by with_reducible rfl) | exact Or.inr (Sub.bit hm (by decide)) | with_reducible rfl | rfl | exact Or.inl rfl | (simp; done) | skip)

theorem within_sluCtrl (w : Word) {s : State} (hs : Within m s₀ s) (hm : Sub 0x4020000000000 m)  : Within m s₀ (sluCtrl w s) := by
  unfold sluCtrl
  repeat' first
    | with_reducible assumption
    | exact Sub.up hm (by decide)
    | exact Sub.bit hm (by decide)
    | (intro x; (first | (refine within_cut (m := m) (s₀ := s₀) x ?_ ?_; unfold x; rotate_left; clear_value x; intro hx) | skip))
    | lift_lets -underBinder
    | with_reducible apply within_ite
    | with_reducible apply within_State_put
    | with_reducible apply within_State_swWrite

theorem within_probeCtrl (w : Word) {s : State} (hs : Within m s₀ s) (hm : Sub 0x8000000000000000000000000000000000000000000000000000000000000000000000000000000000000000008000000000000 m)  : Within m s₀ (probeCtrl w s) := by
  unfold probeCtrl
  repeat' first
    | with_reducible assumption
    | exact Sub.up hm (by decide)
    | exact Sub.bit hm (by decide)
    | (intro x; (first | (refine within_cut (m := m) (s₀ := s₀) x ?_ ?_; unfold x; rotate_left; clear_value x; intro hx) | skip))
    | lift_lets -underBinder
    | with_reducible apply within_ite
    | with_reducible apply within_State_swWrite
    | (apply within_mk <;> first | exact Or.inl (by with_reducible rfl) | exact Or.inr (Sub.bit hm (by decide)) | with_reducible rfl | rfl | exact Or.inl rfl | (simp; done) | skip)

theorem within_probeDoneEffect {s : State} (hs : Within m s₀ s) (hm : Sub 0x80000000000000000000000000000000000000000000000000000000000000000000000000000000000000000C0010000000000 m)  : Within m s₀ (probeDoneEffect s) := by
  unfold probeDoneEffect
  repeat' first
    | with_reducible assumption
    | exact Sub.up hm (by decide)
    | exact Sub.bit hm (by decide)
    | (intro x; (first | (refine within_cut (m := m) (s₀ := s₀) x ?_ ?_; unfold x; rotate_left; clear_value x; intro hx) | skip))
    | lift_lets -underBinder
    | with_reducible apply within_ite
    | with_reducible apply within_State_put
    | with_reducible apply within_State_ev
    | (refine within_of_snd (by assumption) ?_)
    | (refine within_of_fst (by assumption) ?_)
    | (dsimp -zeta only)
    | (split)
    | (apply within_mk <;> first | exact Or.inl (by with_reducible rfl) | exact Or.inr (Sub.bit hm (by decide)) | with_reducible rfl | rfl | exact Or.inl rfl | (simp; done) | skip)

theorem within_catalogueEffect (t : Nat) (r : HostRead) {s : State} (hs : Within m s₀ s) (hm : Sub 0x8A00000000000000000000000000000000000000000000000000000000000000000000000000003880000000000000000000000 m) : Within m s₀ (catalogueEffect t r s) := by
  unfold catalogueEffect
  repeat' first
    | with_reducible assumption
    | exact Sub.up hm (by decide)
    | exact Sub.bit hm (by decide)
    | (intro x; (first | (refine within_cut (m := m) (s₀ := s₀) x ?_ ?_; unfold x; rotate_left; clear_value x; intro hx) | skip))
    | lift_lets -underBinder
    | with_reducible apply within_ite
    | with_reducible apply within_State_endTask
    | with_reducible apply within_State_runTask
    | with_reducible apply within_State_loadEntries
    | with_reducible apply within_State_modTask
    | with_reducible apply within_State_sourceFailed
    | (refine within_of_snd (by assumption) ?_)
    | (refine within_of_fst (by assumption) ?_)
    | (split)

theorem within_injectEffect (t : Nat) (source : HostRead) {s : State} (hs : Within m s₀ s) (hm : Sub 0x218E00000000000000000000000000000000000000000000000000000000005000000000000000043880000000000008000000006 m) : Within m s₀ (injectEffect t source s) := by
  unfold injectEffect
  repeat' first
    | with_reducible assumption
    | exact Sub.up hm (by decide)
    | exact Sub.bit hm (by decide)
    | (intro x; (first | (refine within_cut (m := m) (s₀ := s₀) x ?_ ?_; unfold x; rotate_left; clear_value x; intro hx) | skip))
    | lift_lets -underBinder
    | with_reducible apply within_ite
    | with_reducible apply within_showBasin
    | with_reducible apply within_State_endTask
    | with_reducible apply within_State_mirHeld
    | with_reducible apply within_State_record
    | with_reducible apply within_State_acceptLive
    | with_reducible apply within_State_runTask
    | with_reducible apply within_State_onSource
    | with_reducible apply within_State_takeBufs
    | exact within_takeBufs_some (by assumption) (Sub.up hm (by decide)) (by assumption)
    | (refine within_of_snd (by assumption) ?_)
    | (refine within_of_fst (by assumption) ?_)
    | (dsimp -zeta only)
    | (split)

end Sys2Proof.Machine
end

