-- ==== Sys2Proof/Laws/WithinActivation.lean ====
section
/-! SUPPORT. What the operations of Machine/Activation.lean can change, and that they keep a state sound. -/
namespace Sys2Proof.Machine

variable {m : Nat} {s₀ : State}

theorem within_State_setAct {s : State} (a : ActSt) (hs : Within m s₀ s) (hm : Sub 0x2000000000000000000000000000000000000000000000000000000000000000000000000000000000000000000000000000000 m)  : Within m s₀ (State.setAct s a) := by
  unfold State.setAct
  repeat' first
    | with_reducible assumption
    | exact Sub.up hm (by decide)
    | exact Sub.bit hm (by decide)
    | (intro x; (first | (refine within_cut (m := m) (s₀ := s₀) x ?_ ?_; unfold x; rotate_left; clear_value x; intro hx) | skip))
    | lift_lets -underBinder
    | (apply within_mk <;> first | exact Or.inl (by with_reducible rfl) | exact Or.inr (Sub.bit hm (by decide)) | with_reducible rfl | rfl | exact Or.inl rfl | (simp; done) | skip)

theorem within_State_showArm {s : State} (hs : Within m s₀ s) (hm : Sub 0x8000000 m)  : Within m s₀ (State.showArm s) := by
  unfold State.showArm
  repeat' first
    | with_reducible assumption
    | exact Sub.up hm (by decide)
    | exact Sub.bit hm (by decide)
    | (intro x; (first | (refine within_cut (m := m) (s₀ := s₀) x ?_ ?_; unfold x; rotate_left; clear_value x; intro hx) | skip))
    | lift_lets -underBinder
    | with_reducible apply within_State_put
    | with_reducible apply within_State_putb
    | (refine within_of_snd (by assumption) ?_)
    | (refine within_of_fst (by assumption) ?_)
    | (split)

theorem within_State_disarm {s : State} (hs : Within m s₀ s) (hm : Sub 0x2000000000000000000000000000000000000000000000000000000000000000000000000000000000000000000000008000000 m)  : Within m s₀ (State.disarm s) := by
  unfold State.disarm
  repeat' first
    | with_reducible assumption
    | exact Sub.up hm (by decide)
    | exact Sub.bit hm (by decide)
    | (intro x; (first | (refine within_cut (m := m) (s₀ := s₀) x ?_ ?_; unfold x; rotate_left; clear_value x; intro hx) | skip))
    | lift_lets -underBinder
    | with_reducible apply within_State_setAct
    | with_reducible apply within_State_showArm

theorem within_armWeave {s : State} (hs : Within m s₀ s) (hm : Sub 0x2000000000000000000000000000000000000000000000000000000000000000000000000000000000000000000000008020000 m)  : Within m s₀ (armWeave s) := by
  unfold armWeave
  repeat' first
    | with_reducible assumption
    | exact Sub.up hm (by decide)
    | exact Sub.bit hm (by decide)
    | (intro x; (first | (refine within_cut (m := m) (s₀ := s₀) x ?_ ?_; unfold x; rotate_left; clear_value x; intro hx) | skip))
    | lift_lets -underBinder
    | with_reducible apply within_ite
    | with_reducible apply within_State_setAct
    | with_reducible apply within_State_showArm
    | with_reducible apply within_State_put
    | with_reducible apply within_State_ev

theorem within_actCtrl (w : Word) {s : State} (hs : Within m s₀ s) (hm : Sub 0x2000000000000000000000000000000000000000000000000000000000000000000000000000000000000000000000009020000 m)  : Within m s₀ (actCtrl w s) := by
  unfold actCtrl
  repeat' first
    | with_reducible assumption
    | exact Sub.up hm (by decide)
    | exact Sub.bit hm (by decide)
    | (intro x; (first | (refine within_cut (m := m) (s₀ := s₀) x ?_ ?_; unfold x; rotate_left; clear_value x; intro hx) | skip))
    | lift_lets -underBinder
    | with_reducible apply within_ite
    | with_reducible apply within_State_disarm
    | with_reducible apply within_armWeave
    | with_reducible apply within_State_swWrite
    | (refine within_of_snd (by assumption) ?_)
    | (refine within_of_fst (by assumption) ?_)
    | (split)

theorem within_State_failAct {s : State} (err : Nat) (hs : Within m s₀ s) (hm : Sub 0x2000000000000000000000000000000000000000000000000000000000000000000000000000000000000000000000008020000 m)  : Within m s₀ (State.failAct s err) := by
  unfold State.failAct
  repeat' first
    | with_reducible assumption
    | exact Sub.up hm (by decide)
    | exact Sub.bit hm (by decide)
    | (intro x; (first | (refine within_cut (m := m) (s₀ := s₀) x ?_ ?_; unfold x; rotate_left; clear_value x; intro hx) | skip))
    | lift_lets -underBinder
    | with_reducible apply within_State_setAct
    | with_reducible apply within_State_put
    | with_reducible apply within_State_ev

theorem within_boundaryEffect {s : State} (hs : Within m s₀ s) (hm : Sub 0x2000000000000000000000000000000000000000000000000000000000000000000000000000000000000000000000008020000 m)  : Within m s₀ (boundaryEffect s) := by
  unfold boundaryEffect
  repeat' first
    | with_reducible assumption
    | exact Sub.up hm (by decide)
    | exact Sub.bit hm (by decide)
    | (intro x; (first | (refine within_cut (m := m) (s₀ := s₀) x ?_ ?_; unfold x; rotate_left; clear_value x; intro hx) | skip))
    | lift_lets -underBinder
    | with_reducible apply within_ite
    | with_reducible apply within_State_setAct
    | with_reducible apply within_State_disarm
    | with_reducible apply within_State_failAct
    | with_reducible apply within_State_put
    | (refine within_of_snd (by assumption) ?_)
    | (refine within_of_fst (by assumption) ?_)
    | (split)
    | (apply within_mk <;> first | exact Or.inl (by with_reducible rfl) | exact Or.inr (Sub.bit hm (by decide)) | with_reducible rfl | rfl | exact Or.inl rfl | (simp; done) | skip)

theorem within_drainDoneEffect {s : State} (hs : Within m s₀ s) (hm : Sub 0x2000000000000000000000000000000000000000000000000000000000000000000000000000000000000000000000000000000 m)  : Within m s₀ (drainDoneEffect s) := by
  unfold drainDoneEffect
  repeat' first
    | with_reducible assumption
    | exact Sub.up hm (by decide)
    | exact Sub.bit hm (by decide)
    | (intro x; (first | (refine within_cut (m := m) (s₀ := s₀) x ?_ ?_; unfold x; rotate_left; clear_value x; intro hx) | skip))
    | lift_lets -underBinder
    | with_reducible apply within_ite
    | with_reducible apply within_State_setAct

theorem within_State_assignStage {s : State} (r : Nat) (g : WStage) (hs : Within m s₀ s) (hm : Sub 0x80004000200000000000000000000000000000 m)  : Within m s₀ (State.assignStage s r g) := by
  unfold State.assignStage
  repeat' first
    | with_reducible assumption
    | exact Sub.up hm (by decide)
    | exact Sub.bit hm (by decide)
    | exact engineOf_bit hm (by decide) (s := s) (r := r) (g := g) (by assumption)
    | (intro x; (first | (refine within_cut (m := m) (s₀ := s₀) x ?_ ?_; unfold x; rotate_left; clear_value x; intro hx) | skip))
    | lift_lets -underBinder
    | with_reducible apply within_ite
    | with_reducible apply within_State_puti
    | (refine within_of_snd (by assumption) ?_)
    | (refine within_of_fst (by assumption) ?_)
    | (split)

theorem within_State_idleEngine {s : State} (f : Fld) (i : Nat) (hs : Within m s₀ s) (hb_f : m.testBit f.reg.ctorIdx = true)  : Within m s₀ (State.idleEngine s f i) := by
  unfold State.idleEngine
  repeat' first
    | with_reducible assumption
    | exact Sub.up hm (by decide)
    | exact Sub.bit hm (by decide)
    | intro _
    | with_reducible apply within_ite
    | with_reducible apply within_State_puti

theorem within_State_showSpares {s : State} (hs : Within m s₀ s) (hm : Sub 0x4000000000000000000000000000000000 m)  : Within m s₀ (State.showSpares s) := by
  unfold State.showSpares
  repeat' first
    | with_reducible assumption
    | exact Sub.up hm (by decide)
    | exact Sub.bit hm (by decide)
    | (intro x; (first | (refine within_cut (m := m) (s₀ := s₀) x ?_ ?_; unfold x; rotate_left; clear_value x; intro hx) | skip))
    | lift_lets -underBinder
    | with_reducible apply within_State_puti
    | with_reducible apply within_State_each
    | (refine within_of_snd (by assumption) ?_)
    | (refine within_of_fst (by assumption) ?_)
    | (split)

theorem within_State_showBound {s : State} (hs : Within m s₀ s) (hm : Sub 0x10000000000000000000000000000000000000000000000000000000000000000000000000000 m)  : Within m s₀ (State.showBound s) := by
  unfold State.showBound
  repeat' first
    | with_reducible assumption
    | exact Sub.up hm (by decide)
    | exact Sub.bit hm (by decide)
    | (intro x; (first | (refine within_cut (m := m) (s₀ := s₀) x ?_ ?_; unfold x; rotate_left; clear_value x; intro hx) | skip))
    | lift_lets -underBinder
    | with_reducible apply within_State_put

theorem within_State_bindCores {s : State} (w : Weave) (hs : Within m s₀ s) (hm : Sub 0x800400000000000000000000000010000000000000000000000000000000000000000000000000000000000000000000000000000 m)  : Within m s₀ (State.bindCores s w) := by
  unfold State.bindCores
  repeat' first
    | with_reducible assumption
    | exact Sub.up hm (by decide)
    | exact Sub.bit hm (by decide)
    | (intro x; (first | (refine within_cut (m := m) (s₀ := s₀) x ?_ ?_; unfold x; rotate_left; clear_value x; intro hx) | skip))
    | lift_lets -underBinder
    | with_reducible apply within_State_showBound
    | with_reducible apply within_State_fresh
    | with_reducible apply within_foldl
    | (refine within_of_snd (by assumption) ?_)
    | (refine within_of_fst (by assumption) ?_)
    | (dsimp -zeta only)
    | (split)
    | (apply within_mk <;> first | exact Or.inl (by with_reducible rfl) | exact Or.inr (Sub.bit hm (by decide)) | with_reducible rfl | rfl | exact Or.inl rfl | (simp; done) | skip)

theorem within_State_retireSlot {s : State} (k : Nat) (h : Within m s₀ s) (hm : Sub 0x2000000000000000000000000000000000000000000000000000000000000000000000000000000000000000000006000010000 m) :
    Within m s₀ (s.retireSlot k) := by
  unfold State.retireSlot
  split
  · split
    · split
      · exact h
      · exact within_State_setSlot _ _ h hm
    · exact h
  · exact h

theorem within_State_activateSlot {s : State} (k : Nat) (h : Within m s₀ s) (hm : Sub 0x2000000000000000000000000000000000000000000000000000000000000000000000000000000000000000000006000010000 m) :
    Within m s₀ (s.activateSlot k) := by
  unfold State.activateSlot
  refine within_State_put _ _ (within_State_put _ _ ?_ (Sub.bit hm (by decide))) (Sub.bit hm (by decide))
  split
  · exact within_State_setSlot _ _ h hm
  · exact h

theorem within_State_swapEngines {s : State} (map : Nat) (h : Within m s₀ s) (hm : Sub 0x80004000200000000000000000000FC0000000 m) :
    Within m s₀ (s.swapEngines map) := by
  unfold State.swapEngines
  have h1 := within_State_showAvail (within_State_showSpares (within_State_put CSC_SPARE_ACTIVE.MAP map h (Sub.bit hm (by decide))) (Sub.up hm (by decide))) (Sub.up hm (by decide))
  refine within_State_each (within_State_each (within_State_each h1 _ _ ?_) _ _ ?_) _ _ ?_
  all_goals intro i u hu
  all_goals exact within_State_idleEngine _ _ hu (Sub.bit hm (by decide))

theorem within_State_takeWeave {s : State} (w : Weave) (h : Within m s₀ s) (hm : Sub 0x804400000000000000000000000010000000000000000000000000000000000000080004000200000000000000000000000000000 m) :
    Within m s₀ (s.takeWeave w) := by
  unfold State.takeWeave
  refine within_State_bindCores _ ?_ (Sub.up hm (by decide))
  have h9 : Within m s₀ (w.rills.foldl (fun s r => r.stages.foldl (fun s g => s.assignStage r.rill g) s) s) :=
    within_foldl (fun s r hs => within_foldl (fun s g hs => within_State_assignStage _ _ hs (Sub.up hm (by decide))) hs) h
  refine within_mk h9 rfl (by rw [List.length_map, List.length_zipIdx]) rfl rfl rfl rfl rfl rfl rfl rfl rfl ?_ ?_ ?_ ?_ ?_ ?_ ?_ ?_
    ?_ ?_ ?_ ?_ ?_ ?_ ?_ ?_ ?_ ?_ ?_ ?_ ?_ ?_ ?_ <;>
    first | exact Or.inl (by with_reducible rfl) | exact Or.inr (Sub.bit hm (by decide))

theorem within_State_freshCaches {s : State} (h : Within m s₀ s) (hm : Sub 0x8020000000000000000000000000000000000000000000000000000000000000000000000000000000000000000000000000000000 m) :
    Within m s₀ s.freshCaches := by
  unfold State.freshCaches
  refine within_mk h rfl rfl rfl rfl rfl rfl rfl rfl h.sound.caches.symm rfl rfl ?_ ?_ ?_ ?_ ?_ ?_ ?_ ?_ ?_ ?_ ?_ ?_ ?_ ?_ ?_ ?_
    ?_ ?_ ?_ ?_ ?_ ?_ ?_ <;> first | exact Or.inl (by with_reducible rfl) | exact Or.inr (Sub.bit hm (by decide))

theorem within_State_swap {s : State} (h : Within m s₀ s) (hm : Sub 0x8826400000000000000000000000010000000000000000000000000000000000000080004000200000000000000000006FC0010000 m) :
    Within m s₀ s.swap := by
  unfold State.swap
  have h8 := within_State_freshCaches (within_State_swapEngines s.act.spare (within_State_activateSlot s.act.slot (within_State_retireSlot s.act.slot h (Sub.up hm (by decide))) (Sub.up hm (by decide))) (Sub.up hm (by decide))) (Sub.up hm (by decide))
  dsimp only
  split
  · exact h8
  · exact within_State_takeWeave _ h8 (Sub.up hm (by decide))

theorem within_swapEffect {s : State} (h : Within m s₀ s) (hm : Sub 0x8826400000000000000000000000010000000000000000000000000000000000000080004000200000000000000000006FC0010000 m) : Within m s₀ (swapEffect s) := by
  unfold swapEffect
  apply within_ite <;> intro _
  · exact h
  · exact within_State_setAct _ (within_State_swap h hm) (Sub.up hm (by decide))

theorem within_State_setOwners {s : State} (w : Weave) (hs : Within m s₀ s) (hm : Sub 0x800000000000000000000000000000000000000000000 m)  : Within m s₀ (State.setOwners s w) := by
  unfold State.setOwners
  repeat' first
    | with_reducible assumption
    | exact Sub.up hm (by decide)
    | exact Sub.bit hm (by decide)
    | (intro x; (first | (refine within_cut (m := m) (s₀ := s₀) x ?_ ?_; unfold x; rotate_left; clear_value x; intro hx) | skip))
    | lift_lets -underBinder
    | with_reducible apply within_ite
    | with_reducible apply within_State_puti
    | with_reducible apply within_State_each

theorem within_ownershipEffect {s : State} (hs : Within m s₀ s) (hm : Sub 0x202000000000000000000000000000000000000000000000000000000001800000000000000000000000000000000000000000000 m)  : Within m s₀ (ownershipEffect s) := by
  unfold ownershipEffect
  repeat' first
    | with_reducible assumption
    | exact Sub.up hm (by decide)
    | exact Sub.bit hm (by decide)
    | (intro x; (first | (refine within_cut (m := m) (s₀ := s₀) x ?_ ?_; unfold x; rotate_left; clear_value x; intro hx) | skip))
    | lift_lets -underBinder
    | with_reducible apply within_ite
    | with_reducible apply within_State_setAct
    | with_reducible apply within_State_setOwners
    | with_reducible apply within_judgeWaiting
    | (refine within_of_snd (by assumption) ?_)
    | (refine within_of_fst (by assumption) ?_)
    | (split)

theorem within_State_copyConstants {s : State} (w : Weave) (hs : Within m s₀ s) (hm : Sub 0x10000000000000000000000000000000000000000000000000000000000000000000000000000000000000000000000000000 m)  : Within m s₀ (State.copyConstants s w) := by
  unfold State.copyConstants
  repeat' first
    | with_reducible assumption
    | exact Sub.up hm (by decide)
    | exact Sub.bit hm (by decide)
    | (intro x; (first | (refine within_cut (m := m) (s₀ := s₀) x ?_ ?_; unfold x; rotate_left; clear_value x; intro hx) | skip))
    | lift_lets -underBinder
    | with_reducible apply within_State_wrBytes
    | with_reducible apply within_foldl

theorem within_constantsEffect {s : State} (hs : Within m s₀ s) (hm : Sub 0x2010000000000000000000000000000000000000000000000000000000000000000000000000000000000000000000000000000 m)  : Within m s₀ (constantsEffect s) := by
  unfold constantsEffect
  repeat' first
    | with_reducible assumption
    | exact Sub.up hm (by decide)
    | exact Sub.bit hm (by decide)
    | (intro x; (first | (refine within_cut (m := m) (s₀ := s₀) x ?_ ?_; unfold x; rotate_left; clear_value x; intro hx) | skip))
    | lift_lets -underBinder
    | with_reducible apply within_ite
    | with_reducible apply within_State_setAct
    | with_reducible apply within_State_copyConstants
    | (refine within_of_snd (by assumption) ?_)
    | (refine within_of_fst (by assumption) ?_)
    | (split)

theorem within_State_unpin {s : State} (hs : Within m s₀ s) (hm : Sub 0x204000000000000000000000000000000000000000000000000000000000000000000000000000000000000000000000000000000 m)  : Within m s₀ (State.unpin s) := by
  unfold State.unpin
  repeat' first
    | with_reducible assumption
    | exact Sub.up hm (by decide)
    | exact Sub.bit hm (by decide)
    | (intro x; (first | (refine within_cut (m := m) (s₀ := s₀) x ?_ ?_; unfold x; rotate_left; clear_value x; intro hx) | skip))
    | lift_lets -underBinder
    | with_reducible apply within_State_freeBufs
    | (apply within_mk <;> first | exact Or.inl (by with_reducible rfl) | exact Or.inr (Sub.bit hm (by decide)) | with_reducible rfl | rfl | exact Or.inl rfl | (simp; done) | skip)

theorem within_State_actRelease {s : State} (h : Within m s₀ s) (hm : Sub 0x121E400000000000000000000000000000000000000000000000000000000001000000000000000040080000000004319008020006 m) : Within m s₀ s.actRelease := by
  unfold State.actRelease
  dsimp only
  refine within_State_refill (within_takeAll ?_ _ (Sub.up hm (by decide))) (Sub.up hm (by decide))
  refine within_State_armNextFromLog _ (within_State_setAct _ ?_ (Sub.up hm (by decide))) (Sub.up hm (by decide))
  exact within_State_record _ _ _ _ _ (within_State_mirApply h (Sub.up hm (by decide))) (Sub.up hm (by decide))

theorem within_State_pinRill (r : Nat) (pool : Nat) (chain : Nat) {s : State} (h : Within m s₀ s) (n : Nat) (hm : Sub 0x204400000000000000000000000000000000000000000000000000000000004000000000000000000000000000000000000000000 m) :
    Within m s₀ (s.pinRill r pool chain n).1 := by
  induction n generalizing s with
  | zero => exact h
  | succ n ih =>
    have hb := within_State_takeBufs 0 pool chain h (Sub.up hm (by decide))
    unfold State.pinRill
    split
    · next e => exact ih (within_State_modRill (within_of_fst e hb) _ _ (Sub.bit hm (by decide)))
    · next e => exact within_of_fst e hb

theorem within_State_pinAll {s : State} (h : Within m s₀ s) (l : List WRill) (hm : Sub 0x204400000000000000000000000000000000000000000000000000000000004000000000000000000000000000000000000000000 m) :
    Within m s₀ (s.pinAll l).1 := by
  induction l generalizing s with
  | nil => exact h
  | cons w l ih =>
    unfold State.pinAll
    lift_lets -underBinder
    intro c
    split
    next pool chain _ =>
    have h1 := within_State_pinRill w.rill pool chain h c.outBufs (Sub.up hm (by decide))
    generalize s.pinRill w.rill pool chain c.outBufs = q at h1 ⊢
    obtain ⟨t, ok⟩ := q
    dsimp -zeta only at h1 ⊢
    split
    · exact ih h1
    · exact h1

theorem within_pinningEffect {s : State} (h : Within m s₀ s) (hm : Sub 0x121E400000000000000000000000000000000000000000000000000000000005000000000000000040080000000004319008020006 m) : Within m s₀ (pinningEffect s) := by
  unfold pinningEffect
  apply within_ite <;> intro _
  · exact h
  · apply within_ite <;> intro _
    · exact within_State_mirHeld h (Sub.up hm (by decide))
    · lift_lets -underBinder
      intro t1
      have h1 : Within m s₀ t1 := within_State_unpin h (Sub.up hm (by decide))
      clear_value t1
      intro x t2
      have h2 : Within m s₀ t2 := within_State_setAct _ h1 (Sub.up hm (by decide))
      clear_value t2
      have h3 := within_State_pinAll h2 ((t2.weave?.map (·.rills)).getD []) (Sub.up hm (by decide))
      generalize t2.pinAll ((t2.weave?.map (·.rills)).getD []) = q at h3 ⊢
      obtain ⟨u, ok⟩ := q
      dsimp -zeta only at h3 ⊢
      lift_lets -underBinder
      intro u2
      have h4 : Within m s₀ u2 := within_showBasin _ h3 (Sub.up hm (by decide))
      clear_value u2
      apply within_ite <;> intro _
      · exact within_State_actRelease h4 (Sub.up hm (by decide))
      · exact within_State_failAct _ h4 (Sub.up hm (by decide))

theorem within_spareMapEffect (w : Word) {s : State} (hs : Within m s₀ s) (hm : Sub 0x20020000 m)  : Within m s₀ (spareMapEffect w s) := by
  unfold spareMapEffect
  repeat' first
    | with_reducible assumption
    | exact Sub.up hm (by decide)
    | exact Sub.bit hm (by decide)
    | (dsimp only; exact Sub.bit hm (by decide))
    | (intro x; (first | (refine within_cut (m := m) (s₀ := s₀) x ?_ ?_; unfold x; rotate_left; clear_value x; intro hx) | skip))
    | lift_lets -underBinder
    | with_reducible apply within_ite
    | with_reducible apply within_State_put
    | with_reducible apply within_State_ev
    | with_reducible apply within_State_each

theorem within_signCtrlEffect (rq : Requester) (w : Word) {s : State} (hs : Within m s₀ s) (hm : Sub 0x2000000000000E0000000000000000000000000000000000000000000000000000000000000000000000000000000010000000 m)  : Within m s₀ (signCtrlEffect rq w s) := by
  unfold signCtrlEffect
  repeat' first
    | with_reducible assumption
    | exact Sub.up hm (by decide)
    | exact Sub.bit hm (by decide)
    | (intro x; (first | (refine within_cut (m := m) (s₀ := s₀) x ?_ ?_; unfold x; rotate_left; clear_value x; intro hx) | skip))
    | lift_lets -underBinder
    | with_reducible apply within_ite
    | with_reducible apply within_State_refuseAccess
    | with_reducible apply within_State_put
    | with_reducible apply within_State_swWrite

end Sys2Proof.Machine
end

