-- ==== Sys2Proof/Laws/WithinBarOps.lean ====
section
/-! SUPPORT. What the operations of Machine/BarOps.lean can change, and that they keep a state sound. -/
namespace Sys2Proof.Machine

variable {m : Nat} {s₀ : State}

theorem within_State_wake {s : State} (bit : Nat) (hs : Within m s₀ s) (hm : Sub 0x1000000000000000000000000000000000000000000000000000000000000000000000000000000000000000000000000000000 m)  : Within m s₀ (State.wake s bit) := by
  unfold State.wake
  repeat' first
    | with_reducible assumption
    | exact Sub.up hm (by decide)
    | exact Sub.bit hm (by decide)
    | (intro x; (first | (refine within_cut (m := m) (s₀ := s₀) x ?_ ?_; unfold x; rotate_left; clear_value x; intro hx) | skip))
    | lift_lets -underBinder
    | with_reducible apply within_ite
    | (apply within_mk <;> first | exact Or.inl (by with_reducible rfl) | exact Or.inr (Sub.bit hm (by decide)) | with_reducible rfl | rfl | exact Or.inl rfl | (simp; done) | skip)

theorem within_State_holdAccess {s : State} (rq : Requester) (k : HeldKind) (hs : Within m s₀ s) (hm : Sub 0x1200000000000000000000000000000000000000000000000000000000000000000000000000000000000000000000000000000 m)  : Within m s₀ (State.holdAccess s rq k) := by
  unfold State.holdAccess
  repeat' first
    | with_reducible assumption
    | exact Sub.up hm (by decide)
    | exact Sub.bit hm (by decide)
    | (intro x; (first | (refine within_cut (m := m) (s₀ := s₀) x ?_ ?_; unfold x; rotate_left; clear_value x; intro hx) | skip))
    | lift_lets -underBinder
    | with_reducible apply within_State_wake
    | with_reducible apply within_State_emit
    | (apply within_mk <;> first | exact Or.inl (by with_reducible rfl) | exact Or.inr (Sub.bit hm (by decide)) | with_reducible rfl | rfl | exact Or.inl rfl | (simp; done) | skip)

theorem within_State_viaReg {s : State} (rq : Requester) (r : Reg) (i : Nat) (w : Word) (f : State → State) (hs : Within m s₀ s) (hm : Sub 0x1200000000000000000000000000000000000000000000000000000000000000000000000000000000000000000000000000000 m) (hf : ∀ s, Within m s₀ s → Within m s₀ (f s))  : Within m s₀ (State.viaReg s rq r i w f) := by
  unfold State.viaReg
  repeat' first
    | with_reducible assumption
    | exact Sub.up hm (by decide)
    | exact Sub.bit hm (by decide)
    | intro _
    | with_reducible apply within_ite
    | with_reducible apply within_State_holdAccess
    | with_reducible apply hf

end Sys2Proof.Machine
end

