-- ==== Sys2Proof/Laws/WithinDebug.lean ====
section
/-! SUPPORT. What the operations of Machine/Debug.lean can change, and that they keep a state sound. -/
namespace Sys2Proof.Machine

variable {m : Nat} {s₀ : State}

theorem within_State_freshBytes {s : State} (k : Nat) (n : Nat) (hs : Within m s₀ s) (hm : Sub 0x400000000000000000000000000000000000000000000000000000000000000000000000000000000000000000000000000000 m)  : Within m s₀ (State.freshBytes s k n).2 := by
  unfold State.freshBytes
  repeat' first
    | with_reducible assumption
    | exact Sub.up hm (by decide)
    | exact Sub.bit hm (by decide)
    | (intro x; (first | (refine within_cut (m := m) (s₀ := s₀) x ?_ ?_; unfold x; rotate_left; clear_value x; intro hx) | skip))
    | lift_lets -underBinder
    | (refine within_of_snd (by assumption) ?_)
    | (refine within_of_fst (by assumption) ?_)
    | (dsimp -zeta only)
    | (split)
    | (apply within_mk <;> first | exact Or.inl (by with_reducible rfl) | exact Or.inr (Sub.bit hm (by decide)) | with_reducible rfl | rfl | exact Or.inl rfl | (simp; done) | skip)

theorem within_scanStage (r : Nat) (k : Nat) {s : State} (hs : Within m s₀ s) (hm : Sub 0x400000000000000000000000000000000000000000000000000000000000000000000000000000000000000000000000000000 m)  : Within m s₀ (scanStage r k s).2 := by
  unfold scanStage
  repeat' first
    | with_reducible assumption
    | exact Sub.up hm (by decide)
    | exact Sub.bit hm (by decide)
    | (intro x; (first | (refine within_cut (m := m) (s₀ := s₀) x ?_ ?_; unfold x; rotate_left; clear_value x; intro hx) | skip))
    | lift_lets -underBinder
    | with_reducible apply within_State_freshBytes
    | (refine within_of_snd (by assumption) ?_)
    | (refine within_of_fst (by assumption) ?_)
    | (dsimp -zeta only)
    | (split)

theorem within_scanStages (r n k : Nat) {s : State} (h : Within m s₀ s) (hm : Sub 0x400000000000000000000000000000000000000000000000000000000000000000000000000000000000000000000000000000 m) :
    Within m s₀ (scanStages r n k s).2 := by
  induction n generalizing k s with
  | zero => exact h
  | succ n ih =>
    unfold scanStages
    dsimp -zeta only
    exact ih _ (within_scanStage _ _ h (Sub.up hm (by decide)))

theorem within_scanRill (r : Nat) {s : State} (h : Within m s₀ s) (hm : Sub 0x400000000000000000000000000000000000000000000000000000000000000000000000000000000000000000000000000000 m) : Within m s₀ (scanRill r s).2 := by
  have h1 := within_scanStages r 32 0 h (Sub.up hm (by decide))
  unfold scanRill
  generalize scanStages r 32 0 s = q at h1 ⊢
  obtain ⟨st, s1⟩ := q
  have h2 := within_State_freshBytes 18 (4096 - 64 - 2048) h1 (Sub.up hm (by decide))
  lift_lets -underBinder
  intro x p at6 cyc head
  clear_value head
  dsimp -zeta only
  generalize s1.freshBytes 18 (4096 - 64 - 2048) = q2 at h2 ⊢
  obtain ⟨pad, s2⟩ := q2
  exact h2

theorem within_scanJet (j : Nat) {s : State} (hs : Within m s₀ s) (hm : Sub 0x400000000000000000000000000000000000000000000000000000000000000000000000000000000000000000000000000000 m)  : Within m s₀ (scanJet j s).2 := by
  unfold scanJet
  repeat' first
    | with_reducible assumption
    | exact Sub.up hm (by decide)
    | exact Sub.bit hm (by decide)
    | (intro x; (first | (refine within_cut (m := m) (s₀ := s₀) x ?_ ?_; unfold x; rotate_left; clear_value x; intro hx) | skip))
    | lift_lets -underBinder
    | with_reducible apply within_ite
    | with_reducible apply within_State_freshBytes

theorem within_scanList (g : Nat → State → List Byte × State) (hg : ∀ i s, Within m s₀ s → Within m s₀ (g i s).2)
    (is : List Nat) (l : List Byte × State) (h : Within m s₀ l.2) :
    Within m s₀ (is.foldl (fun l i => (l.1 ++ (g i l.2).1, (g i l.2).2)) l).2 := by
  induction is generalizing l with
  | nil => exact h
  | cons i is ih => exact ih _ (hg i l.2 h)

theorem within_scanSluice {s : State} (hs : Within m s₀ s) (hm : Sub 0x400000000000000000000000000000000000000000000000000000000000000000000000000000000000000000000000000000 m) : Within m s₀ (scanSluice s).2 := by
  have hf := Sub.up (a := 0x400000000000000000000000000000000000000000000000000000000000000000000000000000000000000000000000000000) hm (by decide)
  have h1 := within_scanList (fun r s => ((s.freshBytes 18 52).1 ++ leBytes 4 ((s.freshBytes 18 52).2.aheadCount r)
    ++ leBytes 8 ((s.freshBytes 18 52).2.aheadBytes r), (s.freshBytes 18 52).2))
    (fun _ s hs => within_State_freshBytes 18 52 hs hf) (List.range 16) ([], s) hs
  have h2 := within_scanList (fun k s => (leBytes 1 ((s.freshBytes 18 57).2.slotState k)
    ++ leBytes 6 (((s.freshBytes 18 57).2.slot k).begun.getD 0) ++ (s.freshBytes 18 57).1, (s.freshBytes 18 57).2))
    (fun _ s hs => within_State_freshBytes 18 57 hs hf) (List.range 4) ([], _) h1
  unfold scanSluice
  simp only [List.append_assoc] at h2 ⊢
  exact within_State_freshBytes 18 (65536 - 20 * 64) h2 hf

theorem within_scanWeir {s : State} (hs : Within m s₀ s) (hm : Sub 0xE00000000000000000000000000000000000000000000000000000000000000000000000000000000000000000000000000000 m)  : Within m s₀ (scanWeir s).2 := by
  unfold scanWeir
  repeat' first
    | with_reducible assumption
    | exact Sub.up hm (by decide)
    | exact Sub.bit hm (by decide)
    | (intro x; (first | (refine within_cut (m := m) (s₀ := s₀) x ?_ ?_; unfold x; rotate_left; clear_value x; intro hx) | skip))
    | lift_lets -underBinder
    | with_reducible apply within_State_freshBytes

theorem within_scanFold (g : Nat → State → List Byte × State) (n : Nat) (hg : ∀ i s, Within m s₀ s → Within m s₀ (g i s).2)
    (is : List Nat) (l : List (Nat × Nat × List Byte) × State) (h : Within m s₀ l.2) :
    Within m s₀ (is.foldl (fun l i => (l.1 ++ [(n, i, (g i l.2).1)], (g i l.2).2)) l).2 := by
  induction is generalizing l with
  | nil => exact h
  | cons i is ih => exact ih _ (hg i l.2 h)

theorem within_scanSections (banks : Bool) {s : State} (h : Within m s₀ s) (hm : Sub 0xE00000000000000000000000000000000000000000000000000000000000000000000000000000000000000000000000000000 m) :
    Within m s₀ (scanSections banks s).2 := by
  unfold scanSections
  have h1 := within_scanFold scanRill 1 (fun i s hs => within_scanRill i hs (Sub.up hm (by decide))) (List.range 16) ([], s) h
  have h2 := within_scanFold scanJet 2 (fun i s hs => within_scanJet i hs (Sub.up hm (by decide))) (List.range 68) _ h1
  have h3 := within_scanSluice h2 (Sub.up hm (by decide))
  have h4 := within_scanWeir h3 (Sub.up hm (by decide))
  with_reducible_and_instances exact within_scanFold (fun b s => (s.rdBytes (b * 262144) 262144, s)) 5 (fun _ _ hs => hs) _ (_, _) h4

theorem within_scanImage (seen : Nat) (banks : Bool) {s : State} (hs : Within m s₀ s) (hm : Sub 0xE00000000000000000000000000000000000000000000000000000000000000000000000000000000000000000000000000000 m)  : Within m s₀ (scanImage seen banks s).2 := by
  unfold scanImage
  repeat' first
    | with_reducible assumption
    | exact Sub.up hm (by decide)
    | exact Sub.bit hm (by decide)
    | (intro x; (first | (refine within_cut (m := m) (s₀ := s₀) x ?_ ?_; unfold x; rotate_left; clear_value x; intro hx) | skip))
    | lift_lets -underBinder
    | with_reducible apply within_scanSections

theorem within_State_armStillwater {s : State} (hs : Within m s₀ s) (hm : Sub 0x10000000000000000000000000000000000000000000000000000000000000000000000000 m)  : Within m s₀ (State.armStillwater s) := by
  unfold State.armStillwater
  repeat' first
    | with_reducible assumption
    | exact Sub.up hm (by decide)
    | exact Sub.bit hm (by decide)
    | (intro x; (first | (refine within_cut (m := m) (s₀ := s₀) x ?_ ?_; unfold x; rotate_left; clear_value x; intro hx) | skip))
    | lift_lets -underBinder
    | with_reducible apply within_ite
    | with_reducible apply within_State_put

theorem within_State_resumeStillwater {s : State} (hs : Within m s₀ s) (hm : Sub 0x120E000000000000000000000000004010000000000000000000000000000000000000000000000000000000000004319008020000 m)  : Within m s₀ (State.resumeStillwater s) := by
  unfold State.resumeStillwater
  repeat' first
    | with_reducible assumption
    | exact Sub.up hm (by decide)
    | exact Sub.bit hm (by decide)
    | (intro x; (first | (refine within_cut (m := m) (s₀ := s₀) x ?_ ?_; unfold x; rotate_left; clear_value x; intro hx) | skip))
    | lift_lets -underBinder
    | with_reducible apply within_ite
    | with_reducible apply within_State_put
    | with_reducible apply within_State_ev
    | with_reducible apply within_State_refill

theorem within_stwCtrl (w : Word) {s : State} (hs : Within m s₀ s) (hm : Sub 0x120E6000000000000000000000006060B0000000000000000000000000000000000000000000000000000000000004319008020000 m)  : Within m s₀ (stwCtrl w s) := by
  unfold stwCtrl
  repeat' first
    | with_reducible assumption
    | exact Sub.up hm (by decide)
    | exact Sub.bit hm (by decide)
    | (intro x; (first | (refine within_cut (m := m) (s₀ := s₀) x ?_ ?_; unfold x; rotate_left; clear_value x; intro hx) | skip))
    | lift_lets -underBinder
    | with_reducible apply within_ite
    | with_reducible apply within_State_armStillwater
    | with_reducible apply within_State_resumeStillwater
    | with_reducible apply within_State_swWrite
    | with_reducible apply within_State_startScan
    | with_reducible apply within_State_trigger

theorem within_jtagStwEffect {s : State} (hs : Within m s₀ s) (hm : Sub 0x1000600000000000000000000000606090000000000000000000000000000000000000000000000000000000000000000000000000 m)  : Within m s₀ (jtagStwEffect s) := by
  unfold jtagStwEffect
  repeat' first
    | with_reducible assumption
    | exact Sub.up hm (by decide)
    | exact Sub.bit hm (by decide)
    | intro _
    | with_reducible apply within_ite
    | with_reducible apply within_State_trigger

theorem within_stwAtEffect {s : State} (hs : Within m s₀ s) (hm : Sub 0x1000600000000000000000000000606090000000000000000000000000000000000000000000000000000000000000000000000000 m)  : Within m s₀ (stwAtEffect s) := by
  unfold stwAtEffect
  repeat' first
    | with_reducible assumption
    | exact Sub.up hm (by decide)
    | exact Sub.bit hm (by decide)
    | (intro x; (first | (refine within_cut (m := m) (s₀ := s₀) x ?_ ?_; unfold x; rotate_left; clear_value x; intro hx) | skip))
    | lift_lets -underBinder
    | with_reducible apply within_ite
    | with_reducible apply within_State_trigger

theorem within_scannedEffect {s : State} (hs : Within m s₀ s) (hm : Sub 0x1000E00000000000000000000000004010000000000000000000000000000000000000000000000000000000000000000000000000 m)  : Within m s₀ (scannedEffect s) := by
  unfold scannedEffect
  repeat' first
    | with_reducible assumption
    | exact Sub.up hm (by decide)
    | exact Sub.bit hm (by decide)
    | (intro x; (first | (refine within_cut (m := m) (s₀ := s₀) x ?_ ?_; unfold x; rotate_left; clear_value x; intro hx) | skip))
    | lift_lets -underBinder
    | with_reducible apply within_ite
    | with_reducible apply within_scanImage
    | with_reducible apply within_State_put
    | with_reducible apply within_State_ev
    | with_reducible apply within_State_emit
    | (refine within_of_snd (by assumption) ?_)
    | (refine within_of_fst (by assumption) ?_)
    | (dsimp -zeta only)
    | (split)
    | (apply within_mk <;> first | exact Or.inl (by with_reducible rfl) | exact Or.inr (Sub.bit hm (by decide)) | with_reducible rfl | rfl | exact Or.inl rfl | (simp; done) | skip)

theorem within_snapCtrl (w : Word) {s : State} (hs : Within m s₀ s) (hm : Sub 0x1000000000000000000000000000004000000000000000000000000000000000000000000000000000000000000000000000000000 m)  : Within m s₀ (snapCtrl w s) := by
  unfold snapCtrl
  repeat' first
    | with_reducible assumption
    | exact Sub.up hm (by decide)
    | exact Sub.bit hm (by decide)
    | intro _
    | with_reducible apply within_ite
    | with_reducible apply within_State_ev
    | with_reducible apply within_State_capture

theorem within_traceSyncEffect {s : State} (hs : Within m s₀ s) (hm : Sub 0x1000600000000000000000000000604000000000000000000000000000000000000000000000000000000000000000000000000000 m)  : Within m s₀ (traceSyncEffect s) := by
  unfold traceSyncEffect
  repeat' first
    | with_reducible assumption
    | exact Sub.up hm (by decide)
    | exact Sub.bit hm (by decide)
    | intro _
    | with_reducible apply within_ite
    | with_reducible apply within_State_traceRecord

theorem within_traceCtrl (w : Word) {s : State} (hs : Within m s₀ s) (hm : Sub 0x1000000000000000000000000000300000000000000000000000000000000000000000000000000000000000000000000000000000 m)  : Within m s₀ (traceCtrl w s) := by
  unfold traceCtrl
  repeat' first
    | with_reducible assumption
    | exact Sub.up hm (by decide)
    | exact Sub.bit hm (by decide)
    | (dsimp only; exact Sub.bit hm (by decide))
    | (intro x; (first | (refine within_cut (m := m) (s₀ := s₀) x ?_ ?_; unfold x; rotate_left; clear_value x; intro hx) | skip))
    | lift_lets -underBinder
    | with_reducible apply within_ite
    | with_reducible apply within_State_put
    | with_reducible apply within_State_swWrite
    | (apply within_mk <;> first | exact Or.inl (by with_reducible rfl) | exact Or.inr (Sub.bit hm (by decide)) | with_reducible rfl | rfl | exact Or.inl rfl | (simp; done) | skip)

theorem within_State_startLoop {s : State} (hs : Within m s₀ s) (hm : Sub 0x14004000000000000000001E0000000000000000000000000000000000000000000000000000000000000380002300000000000000 m)  : Within m s₀ (State.startLoop s) := by
  unfold State.startLoop
  repeat' first
    | with_reducible assumption
    | exact Sub.up hm (by decide)
    | exact Sub.bit hm (by decide)
    | (intro x; (first | (refine within_cut (m := m) (s₀ := s₀) x ?_ ?_; unfold x; rotate_left; clear_value x; intro hx) | skip))
    | lift_lets -underBinder
    | with_reducible apply within_ite
    | with_reducible apply within_State_suspendDie
    | with_reducible apply within_State_put
    | with_reducible apply within_State_ev
    | with_reducible apply within_State_putPair
    | with_reducible apply within_State_fresh
    | with_reducible apply within_foldl
    | (refine within_of_snd (by assumption) ?_)
    | (refine within_of_fst (by assumption) ?_)
    | (dsimp -zeta only)
    | (split)
    | (apply within_mk <;> first | exact Or.inl (by with_reducible rfl) | exact Or.inr (Sub.bit hm (by decide)) | with_reducible rfl | rfl | exact Or.inl rfl | (simp; done) | skip)

theorem within_State_endLoop {s : State} (units : Nat) (errors : Nat) (locked : Bool) (columns : List (Nat × Nat)) (hs : Within m s₀ s) (hm : Sub 0x14006000000000000000001E0000000000000000000000000000000000008000000000000000000000000000000000000000000000 m)  : Within m s₀ (State.endLoop s units errors locked columns) := by
  unfold State.endLoop
  repeat' first
    | with_reducible assumption
    | exact Sub.up hm (by decide)
    | exact Sub.bit hm (by decide)
    | (intro x; (first | (refine within_cut (m := m) (s₀ := s₀) x ?_ ?_; unfold x; rotate_left; clear_value x; intro hx) | skip))
    | lift_lets -underBinder
    | with_reducible apply within_ite
    | with_reducible apply within_State_bringBack
    | with_reducible apply within_State_puti
    | with_reducible apply within_State_put
    | with_reducible apply within_State_putb
    | with_reducible apply within_State_bump
    | with_reducible apply within_State_bumpPair
    | with_reducible apply within_State_fresh
    | with_reducible apply within_foldl
    | (refine within_of_snd (by assumption) ?_)
    | (refine within_of_fst (by assumption) ?_)
    | (dsimp -zeta only)
    | (split)
    | (apply within_mk <;> first | exact Or.inl (by with_reducible rfl) | exact Or.inr (Sub.bit hm (by decide)) | with_reducible rfl | rfl | exact Or.inl rfl | (simp; done) | skip)

theorem within_loopCtrl (w : Word) (units : Nat) (errors : Nat) (locked : Bool) (columns : List (Nat × Nat)) {s : State} (hs : Within m s₀ s) (hm : Sub 0x14006000000000000000001F0000000000000000000000000000000000008000000000000000000000000380002300000000000000 m)  : Within m s₀ (loopCtrl w units errors locked columns s) := by
  unfold loopCtrl
  repeat' first
    | with_reducible assumption
    | exact Sub.up hm (by decide)
    | exact Sub.bit hm (by decide)
    | (intro x; (first | (refine within_cut (m := m) (s₀ := s₀) x ?_ ?_; unfold x; rotate_left; clear_value x; intro hx) | skip))
    | lift_lets -underBinder
    | with_reducible apply within_ite
    | with_reducible apply within_State_startLoop
    | with_reducible apply within_State_endLoop
    | with_reducible apply within_State_swWrite

theorem within_loopCtrlOpen (w : Word) {s : State} (hs : Within m s₀ s) (hm : Sub 0x14006000000000000000001F0000000000000000000000000000000000008000000000000000000000000380002300000000000000 m)  : Within m s₀ (loopCtrlOpen w s) := by
  unfold loopCtrlOpen
  repeat' first
    | with_reducible assumption
    | exact Sub.up hm (by decide)
    | exact Sub.bit hm (by decide)
    | (intro x; (first | (refine within_cut (m := m) (s₀ := s₀) x ?_ ?_; unfold x; rotate_left; clear_value x; intro hx) | skip))
    | lift_lets -underBinder
    | with_reducible apply within_loopCtrl
    | with_reducible apply within_State_fresh
    | (refine within_of_snd (by assumption) ?_)
    | (refine within_of_fst (by assumption) ?_)
    | (dsimp -zeta only)
    | (split)
    | (apply within_mk <;> first | exact Or.inl (by with_reducible rfl) | exact Or.inr (Sub.bit hm (by decide)) | with_reducible rfl | rfl | exact Or.inl rfl | (simp; done) | skip)

theorem within_loopEndEffect (units : Nat) (errors : Nat) (locked : Bool) (columns : List (Nat × Nat)) {s : State} (hs : Within m s₀ s) (hm : Sub 0x14006000000000000000001E0000000000000000000000000000000000008000000000000000000000000000000000000000000000 m)  : Within m s₀ (loopEndEffect units errors locked columns s) := by
  unfold loopEndEffect
  repeat' first
    | with_reducible assumption
    | exact Sub.up hm (by decide)
    | exact Sub.bit hm (by decide)
    | intro _
    | with_reducible apply within_ite
    | with_reducible apply within_State_endLoop

theorem within_testModeEffect {s : State} (hs : Within m s₀ s) (hm : Sub 0x8000000000000000000000000000000000000000000000000000000000000000000000000000000000 m)  : Within m s₀ (testModeEffect s) := by
  unfold testModeEffect
  repeat' first
    | with_reducible assumption
    | exact Sub.up hm (by decide)
    | exact Sub.bit hm (by decide)
    | intro _
    | with_reducible apply within_ite
    | with_reducible apply within_State_put

end Sys2Proof.Machine
end

