-- ==== Sys2Proof/Laws/WithinLinkFrames.lean ====
section
/-! SUPPORT. What the operations of Machine/LinkFrames.lean can change, and that they keep a state sound. -/
namespace Sys2Proof.Machine

variable {m : Nat} {s₀ : State}

theorem within_State_sendControl (k : Nat) (name : String) (type : Nat) (payload : List Byte) {s : State} (hs : Within m s₀ s) (hm : Sub 0x200000000000000000000000000000000000000000000000000000000000000000000000000000000000000000000000000000 m) : Within m s₀ (State.sendControl s k name type payload) := by
  unfold State.sendControl
  repeat' first
    | with_reducible assumption
    | exact Sub.up hm (by decide)
    | exact Sub.bit hm (by decide)
    | (intro x; (first | (refine within_cut (m := m) (s₀ := s₀) x ?_ ?_; unfold x; rotate_left; clear_value x; intro hx) | skip))
    | lift_lets -underBinder
    | with_reducible apply within_ite
    | with_reducible apply within_State_emit
    | (refine within_of_snd (by assumption) ?_)
    | (refine within_of_fst (by assumption) ?_)
    | (split)
    | (dsimp -zeta only)

theorem within_State_onFrame (x : RxFrame) (f : Nat → State → State) {s : State} (hs : Within m s₀ s) (hm : Sub 0x4000000000000000000000000000000000000000000000000000000 m) (hf : ∀ x0 x1, Within m s₀ x1 → Within m s₀ (f x0 x1)) : Within m s₀ (State.onFrame s x f) := by
  unfold State.onFrame
  repeat' first
    | with_reducible assumption
    | exact Sub.up hm (by decide)
    | exact Sub.bit hm (by decide)
    | (intro x; (first | (refine within_cut (m := m) (s₀ := s₀) x ?_ ?_; unfold x; rotate_left; clear_value x; intro hx) | skip))
    | lift_lets -underBinder
    | with_reducible apply within_ite
    | with_reducible apply hf
    | with_reducible apply within_State_bumpi
    | (refine within_of_snd (by assumption) ?_)
    | (refine within_of_fst (by assumption) ?_)
    | (split)
    | (dsimp -zeta only)

end Sys2Proof.Machine
end

