-- ==== Sys2Proof/Laws/WithinSundialOps.lean ====
section
/-! SUPPORT. What the operations of Machine/SundialOps.lean can change, and that they keep a state sound. -/
namespace Sys2Proof.Machine

variable {m : Nat} {s₀ : State}

theorem within_State_setFreq {s : State} (f : Int) (hs : Within m s₀ s) (hm : Sub 0x1000000000000000000000000000000000000000000000000000000000000000 m)  : Within m s₀ (State.setFreq s f) := by
  unfold State.setFreq
  repeat' first
    | with_reducible assumption
    | exact Sub.up hm (by decide)
    | exact Sub.bit hm (by decide)
    | intro _
    | with_reducible apply within_State_put

theorem within_State_showTimeLock {s : State} (hs : Within m s₀ s) (hm : Sub 0x180000000000000000000000000000000000000000000000000000000000000000 m)  : Within m s₀ (State.showTimeLock s) := by
  unfold State.showTimeLock
  repeat' first
    | with_reducible assumption
    | exact Sub.up hm (by decide)
    | exact Sub.bit hm (by decide)
    | (intro x; (first | (refine within_cut (m := m) (s₀ := s₀) x ?_ ?_; unfold x; rotate_left; clear_value x; intro hx) | skip))
    | lift_lets -underBinder
    | with_reducible apply within_ite
    | with_reducible apply within_State_puti
    | with_reducible apply within_State_evi
    | with_reducible apply within_State_each

theorem within_State_enterSdl {s : State} (st : Nat) (hs : Within m s₀ s) (hm : Sub 0x80000000000000000000000000000000000000181060000000000000000000000000000000000000000000000000000000000000 m)  : Within m s₀ (State.enterSdl s st) := by
  unfold State.enterSdl
  repeat' first
    | with_reducible assumption
    | exact Sub.up hm (by decide)
    | exact Sub.bit hm (by decide)
    | (intro x; (first | (refine within_cut (m := m) (s₀ := s₀) x ?_ ?_; unfold x; rotate_left; clear_value x; intro hx) | skip))
    | lift_lets -underBinder
    | with_reducible apply within_ite
    | with_reducible apply within_State_put
    | with_reducible apply within_State_ev
    | with_reducible apply within_State_setFreq
    | with_reducible apply within_State_showTimeLock
    | (apply within_mk <;> first | exact Or.inl (by with_reducible rfl) | exact Or.inr (Sub.bit hm (by decide)) | with_reducible rfl | rfl | exact Or.inl rfl | (simp; done) | skip)
    | (refine within_of_snd (by assumption) ?_)
    | (refine within_of_fst (by assumption) ?_)
    | (split)

theorem within_State_stepTime {s : State} (d : Int) (hs : Within m s₀ s) (hm : Sub 0x80000000000000000000000000000000000000000000000000000000000000000000000000000000000000000000000000000000 m)  : Within m s₀ (State.stepTime s d) := by
  unfold State.stepTime
  repeat' first
    | with_reducible assumption
    | exact Sub.up hm (by decide)
    | exact Sub.bit hm (by decide)
    | (intro x; (first | (refine within_cut (m := m) (s₀ := s₀) x ?_ ?_; unfold x; rotate_left; clear_value x; intro hx) | skip))
    | lift_lets -underBinder
    | (apply within_mk <;> first | exact Or.inl (by with_reducible rfl) | exact Or.inr (Sub.bit hm (by decide)) | with_reducible rfl | rfl | exact Or.inl rfl | (simp; done) | skip)

theorem within_State_measured {s : State} (offset : Int) (hs : Within m s₀ s) (hm : Sub 0x80400000000000000000000000000000000000181860000000000000000000000000000000000000000000000000000000000000 m)  : Within m s₀ (State.measured s offset) := by
  unfold State.measured
  repeat' first
    | with_reducible assumption
    | exact Sub.up hm (by decide)
    | exact Sub.bit hm (by decide)
    | (intro x; (first | (refine within_cut (m := m) (s₀ := s₀) x ?_ ?_; unfold x; rotate_left; clear_value x; intro hx) | skip))
    | lift_lets -underBinder
    | with_reducible apply within_ite
    | with_reducible apply within_State_put
    | with_reducible apply within_State_ev
    | with_reducible apply within_State_fresh
    | with_reducible apply within_State_setFreq
    | with_reducible apply within_State_enterSdl
    | with_reducible apply within_State_stepTime
    | (refine within_of_snd (by assumption) ?_)
    | (refine within_of_fst (by assumption) ?_)
    | (dsimp -zeta only)
    | (split)
    | (apply within_mk <;> first | exact Or.inl (by with_reducible rfl) | exact Or.inr (Sub.bit hm (by decide)) | with_reducible rfl | rfl | exact Or.inl rfl | (simp; done) | skip)

theorem within_State_tickTime {s : State} (hs : Within m s₀ s) (hm : Sub 0x80000000000000000000000000000000000000000000000000000000000000000000000000000000000000000000000000000000 m)  : Within m s₀ (State.tickTime s) := by
  unfold State.tickTime
  repeat' first
    | with_reducible assumption
    | exact Sub.up hm (by decide)
    | exact Sub.bit hm (by decide)
    | (intro x; (first | (refine within_cut (m := m) (s₀ := s₀) x ?_ ?_; unfold x; rotate_left; clear_value x; intro hx) | skip))
    | lift_lets -underBinder
    | with_reducible apply within_ite
    | (refine within_of_snd (by assumption) ?_)
    | (refine within_of_fst (by assumption) ?_)
    | (split)
    | (apply within_mk <;> first | exact Or.inl (by with_reducible rfl) | exact Or.inr (Sub.bit hm (by decide)) | with_reducible rfl | rfl | exact Or.inl rfl | (simp; done) | skip)

end Sys2Proof.Machine
end

