-- ==== Sys2Proof/Laws/WithinSundial.lean ====
section
/-! SUPPORT. What the operations of Machine/Sundial.lean can change, and that they keep a state sound. -/
namespace Sys2Proof.Machine

variable {m : Nat} {s₀ : State}

theorem within_State_followRef10  {s : State} (hs : Within m s₀ s) (hm : Sub 0x400000000000000000000000000000000000001000000000000000000000000000000000000000000000000000000000000000 m) : Within m s₀ (State.followRef10 s) := by
  unfold State.followRef10
  repeat' first
    | with_reducible assumption
    | exact Sub.up hm (by decide)
    | exact Sub.bit hm (by decide)
    | (intro x; (first | (refine within_cut (m := m) (s₀ := s₀) x ?_ ?_; unfold x; rotate_left; clear_value x; intro hx) | skip))
    | lift_lets -underBinder
    | with_reducible apply within_ite
    | with_reducible apply within_State_fresh
    | with_reducible apply within_State_setFreq
    | (refine within_of_snd (by assumption) ?_)
    | (refine within_of_fst (by assumption) ?_)
    | (split)
    | (dsimp -zeta only)

theorem within_State_showSource {s : State} (hs : Within m s₀ s) (hm : Sub 0x80000000000000000000000000000000000000181060000000000000000000000000000000000000000000000000000000000000 m)  : Within m s₀ (State.showSource s) := by
  unfold State.showSource
  repeat' first
    | with_reducible assumption
    | exact Sub.up hm (by decide)
    | exact Sub.bit hm (by decide)
    | (intro x; (first | (refine within_cut (m := m) (s₀ := s₀) x ?_ ?_; unfold x; rotate_left; clear_value x; intro hx) | skip))
    | lift_lets -underBinder
    | with_reducible apply within_ite
    | with_reducible apply within_State_put
    | with_reducible apply within_State_ev
    | with_reducible apply within_State_enterSdl

theorem within_State_modSdl {s : State} (f : SundialSt → SundialSt) (hs : Within m s₀ s) (hm : Sub 0x80000000000000000000000000000000000000000000000000000000000000000000000000000000000000000000000000000000 m)  : Within m s₀ (State.modSdl s f) := by
  unfold State.modSdl
  repeat' first
    | with_reducible assumption
    | exact Sub.up hm (by decide)
    | exact Sub.bit hm (by decide)
    | (intro x; (first | (refine within_cut (m := m) (s₀ := s₀) x ?_ ?_; unfold x; rotate_left; clear_value x; intro hx) | skip))
    | lift_lets -underBinder
    | (apply within_mk <;> first | exact Or.inl (by with_reducible rfl) | exact Or.inr (Sub.bit hm (by decide)) | with_reducible rfl | rfl | exact Or.inl rfl | (simp; done) | skip)

theorem within_sourceLostEffect {s : State} (hs : Within m s₀ s) (hm : Sub 0x80000000000000000000000000000000000000181060000000000000000000000000000000000000000000000000000000000000 m)  : Within m s₀ (sourceLostEffect s) := by
  unfold sourceLostEffect
  repeat' first
    | with_reducible assumption
    | exact Sub.up hm (by decide)
    | exact Sub.bit hm (by decide)
    | (intro x; (first | (refine within_cut (m := m) (s₀ := s₀) x ?_ ?_; unfold x; rotate_left; clear_value x; intro hx) | skip))
    | lift_lets -underBinder
    | with_reducible apply within_ite
    | with_reducible apply within_State_showSource
    | with_reducible apply within_State_modSdl
    | with_reducible apply within_State_enterSdl

theorem within_State_setTime {s : State} (hs : Within m s₀ s) (hm : Sub 0x80000000000000000000000000000000000000181060000000000000000000000000000000000000000000000000000000000000 m)  : Within m s₀ (State.setTime s) := by
  unfold State.setTime
  repeat' first
    | with_reducible assumption
    | exact Sub.up hm (by decide)
    | exact Sub.bit hm (by decide)
    | (intro x; (first | (refine within_cut (m := m) (s₀ := s₀) x ?_ ?_; unfold x; rotate_left; clear_value x; intro hx) | skip))
    | lift_lets -underBinder
    | with_reducible apply within_ite
    | with_reducible apply within_State_ev
    | with_reducible apply within_State_modSdl
    | with_reducible apply within_State_enterSdl
    | with_reducible apply within_State_stepTime
    | (refine within_of_snd (by assumption) ?_)
    | (refine within_of_fst (by assumption) ?_)
    | (split)

theorem within_State_judgePins {s : State} (hs : Within m s₀ s) (hm : Sub 0x80000000000000000000000000000000000000000020000000000000000000000000000000000000000000000000000000000000 m)  : Within m s₀ (State.judgePins s) := by
  unfold State.judgePins
  repeat' first
    | with_reducible assumption
    | exact Sub.up hm (by decide)
    | exact Sub.bit hm (by decide)
    | (intro x; (first | (refine within_cut (m := m) (s₀ := s₀) x ?_ ?_; unfold x; rotate_left; clear_value x; intro hx) | skip))
    | lift_lets -underBinder
    | with_reducible apply within_ite
    | with_reducible apply within_State_put
    | with_reducible apply within_State_modSdl

theorem within_sdlCtrl (w : Word) {s : State} (hs : Within m s₀ s) (hm : Sub 0x804000000000000000000000000000000000001810E0000000000000000000000000000000000000000000000000000000000000 m)  : Within m s₀ (sdlCtrl w s) := by
  unfold sdlCtrl
  repeat' first
    | with_reducible assumption
    | exact Sub.up hm (by decide)
    | exact Sub.bit hm (by decide)
    | (intro x; (first | (refine within_cut (m := m) (s₀ := s₀) x ?_ ?_; unfold x; rotate_left; clear_value x; intro hx) | skip))
    | lift_lets -underBinder
    | with_reducible apply within_ite
    | with_reducible apply within_State_swWrite
    | with_reducible apply within_State_showSource
    | with_reducible apply within_State_setTime
    | with_reducible apply within_State_judgePins
    | with_reducible apply within_State_followRef10
    | (refine within_of_snd (by assumption) ?_)
    | (refine within_of_fst (by assumption) ?_)
    | (split)

theorem within_State_nextSeq {s : State} (p : Nat) (hs : Within m s₀ s) (hm : Sub 0x80000000000000000000000000000000000000000000000000000000000000000000000000000000000000000000000000000000 m)  : Within m s₀ (State.nextSeq s p).2 := by
  unfold State.nextSeq
  repeat' first
    | with_reducible assumption
    | exact Sub.up hm (by decide)
    | exact Sub.bit hm (by decide)
    | (intro x; (first | (refine within_cut (m := m) (s₀ := s₀) x ?_ ?_; unfold x; rotate_left; clear_value x; intro hx) | skip))
    | lift_lets -underBinder
    | with_reducible apply within_State_modSdl

theorem within_State_onPtp (x : PtpFrom) (f : Nat → State → State) {s : State} (hs : Within m s₀ s) (hf : ∀ x0 x1, Within m s₀ x1 → Within m s₀ (f x0 x1)) : Within m s₀ (State.onPtp s x f) := by
  unfold State.onPtp
  repeat' first
    | with_reducible assumption
    | (intro x; (first | (refine within_cut (m := m) (s₀ := s₀) x ?_ ?_; unfold x; rotate_left; clear_value x; intro hx) | skip))
    | lift_lets -underBinder
    | with_reducible apply within_ite
    | with_reducible apply hf
    | (refine within_of_snd (by assumption) ?_)
    | (refine within_of_fst (by assumption) ?_)
    | (split)
    | (dsimp -zeta only)

theorem within_State_sendPtp (p : Nat) (name : String) (seq : Nat) (stamps : List Nat) {s : State} (hs : Within m s₀ s) (hm : Sub 0x200000000000000000000000000000000000000000000000000000000000000000000000000000000000000000000000000000 m) : Within m s₀ (State.sendPtp s p name seq stamps) := by
  unfold State.sendPtp
  repeat' first
    | with_reducible assumption
    | exact Sub.up hm (by decide)
    | exact Sub.bit hm (by decide)
    | (intro x; (first | (refine within_cut (m := m) (s₀ := s₀) x ?_ ?_; unfold x; rotate_left; clear_value x; intro hx) | skip))
    | lift_lets -underBinder
    | with_reducible apply within_ite
    | with_reducible apply within_State_emit
    | (refine within_of_snd (by assumption) ?_)
    | (refine within_of_fst (by assumption) ?_)
    | (split)
    | (dsimp -zeta only)

theorem within_announceEffect (p : Nat) (c : PtpClock) {s : State} (hs : Within m s₀ s) (hm : Sub 0x80000000000000000000000000000000000000181060000000000000000000000000000000000000000000000000000000000000 m)  : Within m s₀ (announceEffect p c s) := by
  unfold announceEffect
  repeat' first
    | with_reducible assumption
    | exact Sub.up hm (by decide)
    | exact Sub.bit hm (by decide)
    | (intro x; (first | (refine within_cut (m := m) (s₀ := s₀) x ?_ ?_; unfold x; rotate_left; clear_value x; intro hx) | skip))
    | lift_lets -underBinder
    | with_reducible apply within_ite
    | with_reducible apply within_State_showSource
    | with_reducible apply within_State_modSdl

theorem within_State_ptpOffset {s : State} (p : Nat) (rx : Nat) (origin : Nat) (hs : Within m s₀ s) (hm : Sub 0x80400000000000000000000000000000000000181860000000000000000000000000000000000000000000000000000000000000 m)  : Within m s₀ (State.ptpOffset s p rx origin) := by
  unfold State.ptpOffset
  repeat' first
    | with_reducible assumption
    | exact Sub.up hm (by decide)
    | exact Sub.bit hm (by decide)
    | (intro x; (first | (refine within_cut (m := m) (s₀ := s₀) x ?_ ?_; unfold x; rotate_left; clear_value x; intro hx) | skip))
    | lift_lets -underBinder
    | with_reducible apply within_State_measured

theorem within_State_sendDelayReq {s : State} (p : Nat) (rx : Nat) (origin : Nat) (hs : Within m s₀ s) (hm : Sub 0x80200000000000000000000000000000000000000000000000000000000000000000000000000000000000000000000000000000 m)  : Within m s₀ (State.sendDelayReq s p rx origin) := by
  unfold State.sendDelayReq
  repeat' first
    | with_reducible assumption
    | exact Sub.up hm (by decide)
    | exact Sub.bit hm (by decide)
    | (intro x; (first | (refine within_cut (m := m) (s₀ := s₀) x ?_ ?_; unfold x; rotate_left; clear_value x; intro hx) | skip))
    | lift_lets -underBinder
    | with_reducible apply within_ite
    | with_reducible apply within_State_modSdl
    | with_reducible apply within_State_nextSeq
    | with_reducible apply within_State_sendPtp
    | (refine within_of_snd (by assumption) ?_)
    | (refine within_of_fst (by assumption) ?_)
    | (split)

theorem within_syncEffect (p : Nat) (seq : Nat) (phase : Nat) (origin : Nat) (twoStep : Bool) {s : State} (hs : Within m s₀ s) (hm : Sub 0x80600000000000000000000000000000000000181860000000000000000000000000000000000000000000000000000000000000 m) : Within m s₀ (syncEffect p seq phase origin twoStep s) := by
  unfold syncEffect
  repeat' first
    | with_reducible assumption
    | exact Sub.up hm (by decide)
    | exact Sub.bit hm (by decide)
    | (intro x; (first | (refine within_cut (m := m) (s₀ := s₀) x ?_ ?_; unfold x; rotate_left; clear_value x; intro hx) | skip))
    | lift_lets -underBinder
    | with_reducible apply within_ite
    | with_reducible apply within_State_showSource
    | with_reducible apply within_State_modSdl
    | with_reducible apply within_State_ptpOffset
    | with_reducible apply within_State_sendDelayReq
    | (refine within_of_snd (by assumption) ?_)
    | (refine within_of_fst (by assumption) ?_)
    | (split)

theorem within_followUpEffect (p : Nat) (seq : Nat) (origin : Nat) {s : State} (hs : Within m s₀ s) (hm : Sub 0x80600000000000000000000000000000000000181860000000000000000000000000000000000000000000000000000000000000 m)  : Within m s₀ (followUpEffect p seq origin s) := by
  unfold followUpEffect
  repeat' first
    | with_reducible assumption
    | exact Sub.up hm (by decide)
    | exact Sub.bit hm (by decide)
    | (intro x; (first | (refine within_cut (m := m) (s₀ := s₀) x ?_ ?_; unfold x; rotate_left; clear_value x; intro hx) | skip))
    | lift_lets -underBinder
    | with_reducible apply within_ite
    | with_reducible apply within_State_showSource
    | with_reducible apply within_State_modSdl
    | with_reducible apply within_State_ptpOffset
    | with_reducible apply within_State_sendDelayReq
    | (refine within_of_snd (by assumption) ?_)
    | (refine within_of_fst (by assumption) ?_)
    | (split)

theorem within_delayReqEffect (p : Nat) (seq : Nat) (phase : Nat) {s : State} (hs : Within m s₀ s) (hm : Sub 0x200000000000000000000000000000000000000000000000000000000000000000000000000000000000000000000000000000 m) : Within m s₀ (delayReqEffect p seq phase s) := by
  unfold delayReqEffect
  repeat' first
    | with_reducible assumption
    | exact Sub.up hm (by decide)
    | exact Sub.bit hm (by decide)
    | intro _
    | with_reducible apply within_ite
    | (intro x; (first | (refine within_cut (m := m) (s₀ := s₀) x ?_ ?_; unfold x; rotate_left; clear_value x; intro hx) | skip))
    | with_reducible apply within_State_sendPtp
    | (refine within_of_snd (by assumption) ?_)
    | (refine within_of_fst (by assumption) ?_)
    | (split)

theorem within_delayRespEffect (p : Nat) (seq : Nat) (masterRx : Nat) {s : State} (hs : Within m s₀ s) (hm : Sub 0x80400000000000000000000000000000000000181860000000000000000000000000000000000000000000000000000000000000 m)  : Within m s₀ (delayRespEffect p seq masterRx s) := by
  unfold delayRespEffect
  repeat' first
    | with_reducible assumption
    | exact Sub.up hm (by decide)
    | exact Sub.bit hm (by decide)
    | (intro x; (first | (refine within_cut (m := m) (s₀ := s₀) x ?_ ?_; unfold x; rotate_left; clear_value x; intro hx) | skip))
    | lift_lets -underBinder
    | with_reducible apply within_ite
    | with_reducible apply within_State_showSource
    | with_reducible apply within_State_modSdl
    | with_reducible apply within_State_ptpOffset
    | (refine within_of_snd (by assumption) ?_)
    | (refine within_of_fst (by assumption) ?_)
    | (split)

theorem within_pdelayReqEffect (p : Nat) (seq : Nat) (phase : Nat) {s : State} (hs : Within m s₀ s) (hm : Sub 0x200000000000000000000000000000000000000000000000000000000000000000000000000000000000000000000000000000 m) : Within m s₀ (pdelayReqEffect p seq phase s) := by
  unfold pdelayReqEffect
  repeat' first
    | with_reducible assumption
    | exact Sub.up hm (by decide)
    | exact Sub.bit hm (by decide)
    | intro _
    | with_reducible apply within_ite
    | (intro x; (first | (refine within_cut (m := m) (s₀ := s₀) x ?_ ?_; unfold x; rotate_left; clear_value x; intro hx) | skip))
    | with_reducible apply within_State_sendPtp
    | (refine within_of_snd (by assumption) ?_)
    | (refine within_of_fst (by assumption) ?_)
    | (split)

theorem within_pdelayRespEffect (p : Nat) (seq : Nat) (phase : Nat) (peerRx : Nat) {s : State} (hs : Within m s₀ s) (hm : Sub 0x80000000000000000000000000000000000000000000000000000000000000000000000000000000000000000000000000000000 m) : Within m s₀ (pdelayRespEffect p seq phase peerRx s) := by
  unfold pdelayRespEffect
  repeat' first
    | with_reducible assumption
    | exact Sub.up hm (by decide)
    | exact Sub.bit hm (by decide)
    | (intro x; (first | (refine within_cut (m := m) (s₀ := s₀) x ?_ ?_; unfold x; rotate_left; clear_value x; intro hx) | skip))
    | lift_lets -underBinder
    | with_reducible apply within_ite
    | with_reducible apply within_State_modSdl
    | (refine within_of_snd (by assumption) ?_)
    | (refine within_of_fst (by assumption) ?_)
    | (split)

theorem within_pdelayFollowEffect (p : Nat) (seq : Nat) (peerTx : Nat) {s : State} (hs : Within m s₀ s) (hm : Sub 0x80000000000000000000000000000000000000180000000000000000000000000000000000000000000000000000000000000000 m)  : Within m s₀ (pdelayFollowEffect p seq peerTx s) := by
  unfold pdelayFollowEffect
  repeat' first
    | with_reducible assumption
    | exact Sub.up hm (by decide)
    | exact Sub.bit hm (by decide)
    | (intro x; (first | (refine within_cut (m := m) (s₀ := s₀) x ?_ ?_; unfold x; rotate_left; clear_value x; intro hx) | skip))
    | lift_lets -underBinder
    | with_reducible apply within_ite
    | with_reducible apply within_State_puti
    | with_reducible apply within_State_modSdl
    | with_reducible apply within_State_showTimeLock
    | (refine within_of_snd (by assumption) ?_)
    | (refine within_of_fst (by assumption) ?_)
    | (split)

theorem within_signalingEffect (p : Nat) (log : Int) {s : State} (hs : Within m s₀ s) (hm : Sub 0x80000000000000000000000000000000000000000000000000000000000000000000000000000000000000000000000000000000 m)  : Within m s₀ (signalingEffect p log s) := by
  unfold signalingEffect
  repeat' first
    | with_reducible assumption
    | exact Sub.up hm (by decide)
    | exact Sub.bit hm (by decide)
    | (intro x; (first | (refine within_cut (m := m) (s₀ := s₀) x ?_ ?_; unfold x; rotate_left; clear_value x; intro hx) | skip))
    | lift_lets -underBinder
    | with_reducible apply within_ite
    | with_reducible apply within_State_modSdl

theorem within_syncIntervalEffect (p : Nat) {s : State} (hs : Within m s₀ s) (hm : Sub 0x80200000000000000000000000000000000000000000000000000000000000000000000000000000000000000000000000000000 m)  : Within m s₀ (syncIntervalEffect p s) := by
  unfold syncIntervalEffect
  repeat' first
    | with_reducible assumption
    | exact Sub.up hm (by decide)
    | exact Sub.bit hm (by decide)
    | (intro x; (first | (refine within_cut (m := m) (s₀ := s₀) x ?_ ?_; unfold x; rotate_left; clear_value x; intro hx) | skip))
    | lift_lets -underBinder
    | with_reducible apply within_ite
    | with_reducible apply within_State_modSdl
    | with_reducible apply within_State_nextSeq
    | with_reducible apply within_State_sendPtp
    | (refine within_of_snd (by assumption) ?_)
    | (refine within_of_fst (by assumption) ?_)
    | (split)

theorem within_State_notePartner {s : State} (k : Nat) (hops : Nat) (st : Nat) (hs : Within m s₀ s) (hm : Sub 0x80000000000000000000000000000000000000000000000000000000000000000000000000000000000000000000000000000000 m)  : Within m s₀ (State.notePartner s k hops st) := by
  unfold State.notePartner
  repeat' first
    | with_reducible assumption
    | exact Sub.up hm (by decide)
    | exact Sub.bit hm (by decide)
    | (intro x; (first | (refine within_cut (m := m) (s₀ := s₀) x ?_ ?_; unfold x; rotate_left; clear_value x; intro hx) | skip))
    | lift_lets -underBinder
    | with_reducible apply within_State_modSdl

theorem within_State_sendTime {s : State} (k : Nat) (kind : Nat) (seq : Nat) (t2 : Nat) (hs : Within m s₀ s) (hm : Sub 0x200000000000000000000000000000000000000000000000000000000000000000000000000000000000000000000000000000 m)  : Within m s₀ (State.sendTime s k kind seq t2) := by
  unfold State.sendTime
  repeat' first
    | with_reducible assumption
    | exact Sub.up hm (by decide)
    | exact Sub.bit hm (by decide)
    | (intro x; (first | (refine within_cut (m := m) (s₀ := s₀) x ?_ ?_; unfold x; rotate_left; clear_value x; intro hx) | skip))
    | with_reducible apply within_ite
    | with_reducible apply within_State_sendControl
    | intro _
    | (refine within_of_snd (by assumption) ?_)
    | (refine within_of_fst (by assumption) ?_)
    | (split)

theorem within_timeTickEffect (k : Nat) {s : State} (hs : Within m s₀ s) (hm : Sub 0x80200000000000000000000000000000000000000000000000000000000000000000000000000000000000000000000000000000 m)  : Within m s₀ (timeTickEffect k s) := by
  unfold timeTickEffect
  repeat' first
    | with_reducible assumption
    | exact Sub.up hm (by decide)
    | exact Sub.bit hm (by decide)
    | (intro x; (first | (refine within_cut (m := m) (s₀ := s₀) x ?_ ?_; unfold x; rotate_left; clear_value x; intro hx) | skip))
    | lift_lets -underBinder
    | with_reducible apply within_ite
    | with_reducible apply within_State_modSdl
    | with_reducible apply within_State_nextSeq
    | with_reducible apply within_State_sendTime

theorem within_timeRequestEffect (k : Nat) (seq : Nat) (phase : Nat) (hops : Nat) (st : Nat) {s : State} (hs : Within m s₀ s) (hm : Sub 0x80200000000000000000000000000000000000181060000000000000000000000000000000000000000000000000000000000000 m) : Within m s₀ (timeRequestEffect k seq phase hops st s) := by
  unfold timeRequestEffect
  repeat' first
    | with_reducible assumption
    | exact Sub.up hm (by decide)
    | exact Sub.bit hm (by decide)
    | (intro x; (first | (refine within_cut (m := m) (s₀ := s₀) x ?_ ?_; unfold x; rotate_left; clear_value x; intro hx) | skip))
    | lift_lets -underBinder
    | with_reducible apply within_ite
    | with_reducible apply within_State_showSource
    | with_reducible apply within_State_notePartner
    | with_reducible apply within_State_sendTime
    | (refine within_of_snd (by assumption) ?_)
    | (refine within_of_fst (by assumption) ?_)
    | (split)

theorem within_timeResponseEffect (k : Nat) (seq : Nat) (t2 : Nat) (t3 : Nat) (phase : Nat) (hops : Nat) (st : Nat) {s : State} (hs : Within m s₀ s) (hm : Sub 0x80400000000000000000000000000000000000181860000000000000000000000000000000000000000000000000000000000000 m) : Within m s₀ (timeResponseEffect k seq t2 t3 phase hops st s) := by
  unfold timeResponseEffect
  repeat' first
    | with_reducible assumption
    | exact Sub.up hm (by decide)
    | exact Sub.bit hm (by decide)
    | (intro x; (first | (refine within_cut (m := m) (s₀ := s₀) x ?_ ?_; unfold x; rotate_left; clear_value x; intro hx) | skip))
    | lift_lets -underBinder
    | with_reducible apply within_ite
    | with_reducible apply within_State_showSource
    | with_reducible apply within_State_modSdl
    | with_reducible apply within_State_notePartner
    | with_reducible apply within_State_measured
    | (refine within_of_snd (by assumption) ?_)
    | (refine within_of_fst (by assumption) ?_)
    | (dsimp -zeta only)
    | (split)

theorem within_timeTimeoutEffect (k : Nat) (seq : Nat) {s : State} (hs : Within m s₀ s) (hm : Sub 0x80000000000000000000000000000000000000000000000000000000000000000000000000000000000000000000000000000000 m)  : Within m s₀ (timeTimeoutEffect k seq s) := by
  unfold timeTimeoutEffect
  repeat' first
    | with_reducible assumption
    | exact Sub.up hm (by decide)
    | exact Sub.bit hm (by decide)
    | (intro x; (first | (refine within_cut (m := m) (s₀ := s₀) x ?_ ?_; unfold x; rotate_left; clear_value x; intro hx) | skip))
    | lift_lets -underBinder
    | with_reducible apply within_State_modSdl

theorem within_ppsEdgeEffect (phase : Nat) {s : State} (hs : Within m s₀ s) (hm : Sub 0x80400000000000000000000000000000000000181860000000000000000000000000000000000000000000000000000000000000 m) : Within m s₀ (ppsEdgeEffect phase s) := by
  unfold ppsEdgeEffect
  repeat' first
    | with_reducible assumption
    | exact Sub.up hm (by decide)
    | exact Sub.bit hm (by decide)
    | (intro x; (first | (refine within_cut (m := m) (s₀ := s₀) x ?_ ?_; unfold x; rotate_left; clear_value x; intro hx) | skip))
    | lift_lets -underBinder
    | with_reducible apply within_ite
    | with_reducible apply within_State_put
    | with_reducible apply within_State_showSource
    | with_reducible apply within_State_modSdl
    | with_reducible apply within_State_measured
    | (refine within_of_snd (by assumption) ?_)
    | (refine within_of_fst (by assumption) ?_)
    | (split)

theorem within_refLostEffect {s : State} (hs : Within m s₀ s) (hm : Sub 0x80000000000000000000000000000000000000181060000000000000000000000000000000000000000000000000000000000000 m)  : Within m s₀ (refLostEffect s) := by
  unfold refLostEffect
  repeat' first
    | with_reducible assumption
    | exact Sub.up hm (by decide)
    | exact Sub.bit hm (by decide)
    | intro _
    | with_reducible apply within_ite
    | with_reducible apply within_State_put
    | with_reducible apply within_State_ev
    | with_reducible apply within_State_showSource

theorem within_ref10Effect (present : Bool) {s : State} (hs : Within m s₀ s) (hm : Sub 0x80400000000000000000000000000000000000001060000000000000000000000000000000000000000000000000000000000000 m)  : Within m s₀ (ref10Effect present s) := by
  unfold ref10Effect
  repeat' first
    | with_reducible assumption
    | exact Sub.up hm (by decide)
    | exact Sub.bit hm (by decide)
    | intro _
    | with_reducible apply within_ite
    | with_reducible apply within_State_put
    | with_reducible apply within_State_ev
    | (intro x; (first | (refine within_cut (m := m) (s₀ := s₀) x ?_ ?_; unfold x; rotate_left; clear_value x; intro hx) | skip))
    | with_reducible apply within_State_modSdl
    | with_reducible apply within_State_followRef10
    | (refine within_of_snd (by assumption) ?_)
    | (refine within_of_fst (by assumption) ?_)
    | (split)

theorem within_State_storeEstimate {s : State} (hs : Within m s₀ s) (hm : Sub 0x80000000000000000000000000000000000000000020000000000000000000000000000000000000000000000000000000000000 m)  : Within m s₀ (State.storeEstimate s) := by
  unfold State.storeEstimate
  repeat' first
    | with_reducible assumption
    | exact Sub.up hm (by decide)
    | exact Sub.bit hm (by decide)
    | (intro x; (first | (refine within_cut (m := m) (s₀ := s₀) x ?_ ?_; unfold x; rotate_left; clear_value x; intro hx) | skip))
    | lift_lets -underBinder
    | with_reducible apply within_State_put
    | with_reducible apply within_State_modSdl
    | (refine within_of_snd (by assumption) ?_)
    | (refine within_of_fst (by assumption) ?_)
    | (split)

theorem within_estimateEffect {s : State} (hs : Within m s₀ s) (hm : Sub 0x80000000000000000000000000000000000000000020000000000000000000000000000000000000000000000000000000000000 m)  : Within m s₀ (estimateEffect s) := by
  unfold estimateEffect
  repeat' first
    | with_reducible assumption
    | exact Sub.up hm (by decide)
    | exact Sub.bit hm (by decide)
    | intro _
    | with_reducible apply within_ite
    | with_reducible apply within_State_storeEstimate

end Sys2Proof.Machine
end

