-- ==== Sys2Proof/Laws/WithinInlet.lean ====
section
/-! SUPPORT. What the operations of Machine/Inlet.lean can change, and that they keep a state sound. -/
namespace Sys2Proof.Machine

variable {m : Nat} {s₀ : State}

theorem within_State_modInlet {s : State} (i : Nat) (f : InletSt → InletSt) (hs : Within m s₀ s) (hm : Sub 0x100000000000000000000000000000000000000000000000000000000000000000000000000000000000000000000000000000000 m)  : Within m s₀ (State.modInlet s i f) := by
  unfold State.modInlet
  repeat' first
    | with_reducible assumption
    | exact Sub.up hm (by decide)
    | exact Sub.bit hm (by decide)
    | (intro x; (first | (refine within_cut (m := m) (s₀ := s₀) x ?_ ?_; unfold x; rotate_left; clear_value x; intro hx) | skip))
    | lift_lets -underBinder
    | (apply within_mk <;> first | exact Or.inl (by with_reducible rfl) | exact Or.inr (Sub.bit hm (by decide)) | with_reducible rfl | rfl | exact Or.inl rfl | (simp; done) | skip)

theorem within_State_dropFrame {s : State} (i : Nat) (stream : Nat) (reason : Nat) (hs : Within m s₀ s) (hm : Sub 0x1F900000000000000000000000000000000000000000000000000000000000000000 m)  : Within m s₀ (State.dropFrame s i stream reason) := by
  unfold State.dropFrame
  repeat' first
    | with_reducible assumption
    | exact Sub.up hm (by decide)
    | exact Sub.bit hm (by decide)
    | ((with_reducible show Nat.testBit _ _ = true; (try simp +zetaDelta only); repeat' split) <;> exact Sub.bit hm (by decide))
    | (intro x; (first | (refine within_cut (m := m) (s₀ := s₀) x ?_ ?_; unfold x; rotate_left; clear_value x; intro hx) | skip))
    | lift_lets -underBinder
    | with_reducible apply within_ite
    | with_reducible apply within_State_puti
    | with_reducible apply within_State_evi
    | with_reducible apply within_State_bumpi

theorem within_State_countSizes (i : Nat) (f : LiveFrame) (r : Nat) {s : State} (hs : Within m s₀ s) (hm : Sub 0x1900000000000000000000000000000000000000000000000000000000000000000 m) : Within m s₀ (State.countSizes s i f r) := by
  unfold State.countSizes
  repeat' first
    | with_reducible assumption
    | exact Sub.up hm (by decide)
    | exact Sub.bit hm (by decide)
    | (intro x; (first | (refine within_cut (m := m) (s₀ := s₀) x ?_ ?_; unfold x; rotate_left; clear_value x; intro hx) | skip))
    | lift_lets -underBinder
    | with_reducible apply within_ite
    | with_reducible apply within_State_bumpi
    | with_reducible apply within_State_evi
    | (refine within_of_snd (by assumption) ?_)
    | (refine within_of_fst (by assumption) ?_)
    | (split)
    | (dsimp -zeta only)

theorem within_State_frameRoom (i : Nat) (f : LiveFrame) {s : State} (hs : Within m s₀ s) (hm : Sub 0x200400000000000000000000000000000000000000000000000000000000004000000000000000000000000000000000000000000 m) : Within m s₀ (State.frameRoom s i f).1 := by
  unfold State.frameRoom
  repeat' first
    | with_reducible assumption
    | exact Sub.up hm (by decide)
    | exact Sub.bit hm (by decide)
    | (intro x; (first | (refine within_cut (m := m) (s₀ := s₀) x ?_ ?_; unfold x; rotate_left; clear_value x; intro hx) | skip))
    | lift_lets -underBinder
    | with_reducible apply within_ite
    | with_reducible apply within_State_takeBufs
    | (refine within_of_snd (by assumption) ?_)
    | (refine within_of_fst (by assumption) ?_)
    | (split)
    | (dsimp -zeta only)

theorem within_State_acceptFrame {s : State} (i : Nat) (k : Nat) (f : LiveFrame) (bufs : List Buf) (hs : Within m s₀ s) (hm : Sub 0x18000000000000000000000000000000000000400000000000000000000000000000000000000000000000000000000000000004 m)  : Within m s₀ (State.acceptFrame s i k f bufs) := by
  unfold State.acceptFrame
  repeat' first
    | with_reducible assumption
    | exact Sub.up hm (by decide)
    | exact Sub.bit hm (by decide)
    | (intro x; (first | (refine within_cut (m := m) (s₀ := s₀) x ?_ ?_; unfold x; rotate_left; clear_value x; intro hx) | skip))
    | lift_lets -underBinder
    | with_reducible apply within_State_record
    | with_reducible apply within_State_bumpi
    | with_reducible apply within_State_acceptLive
    | with_reducible apply within_ite
    | (refine within_of_snd (by assumption) ?_)
    | (refine within_of_fst (by assumption) ?_)
    | (split)

theorem within_State_storeFrame (i : Nat) (f : LiveFrame) {s : State} (hs : Within m s₀ s) (hm : Sub 0x218400000000000000000000000000000000000400000000000000000000005000000000000000040080000000000008000000006 m) : Within m s₀ (State.storeFrame s i f).1 := by
  unfold State.storeFrame
  repeat' first
    | with_reducible assumption
    | exact Sub.up hm (by decide)
    | exact Sub.bit hm (by decide)
    | (intro x; (first | (refine within_cut (m := m) (s₀ := s₀) x ?_ ?_; unfold x; rotate_left; clear_value x; intro hx) | skip))
    | lift_lets -underBinder
    | with_reducible apply within_ite
    | with_reducible apply within_State_mirHeld
    | with_reducible apply within_State_frameRoom
    | with_reducible apply within_showBasin
    | with_reducible apply within_State_acceptFrame
    | (refine within_of_snd (by assumption) ?_)
    | (refine within_of_fst (by assumption) ?_)
    | (split)
    | (dsimp -zeta only)

theorem within_State_judgeFrame (i : Nat) (f : LiveFrame) (now : Nat) {s : State} (hs : Within m s₀ s) (hm : Sub 0x1F900000000000000000000000000000000000000000000000000000000000000000 m) : Within m s₀ (State.judgeFrame s i f now).1 := by
  unfold State.judgeFrame
  repeat' first
    | with_reducible assumption
    | exact Sub.up hm (by decide)
    | exact Sub.bit hm (by decide)
    | (intro x; (first | (refine within_cut (m := m) (s₀ := s₀) x ?_ ?_; unfold x; rotate_left; clear_value x; intro hx) | skip))
    | lift_lets -underBinder
    | with_reducible apply within_ite
    | with_reducible apply within_State_dropFrame
    | with_reducible apply within_State_countSizes
    | (refine within_of_snd (by assumption) ?_)
    | (refine within_of_fst (by assumption) ?_)
    | (split)

theorem within_acceptWaiting (i : Nat) {s : State} (hs : Within m s₀ s) (hm : Sub 0x31840000000000000000000000000000000001FD00000000000000000000005000000000000000040080000000000008000000006 m) : Within m s₀ (acceptWaiting i s) := by
  unfold acceptWaiting
  repeat' first
    | with_reducible assumption
    | exact Sub.up hm (by decide)
    | exact Sub.bit hm (by decide)
    | (intro x; (first | (refine within_cut (m := m) (s₀ := s₀) x ?_ ?_; unfold x; rotate_left; clear_value x; intro hx) | skip))
    | lift_lets -underBinder
    | with_reducible apply within_ite
    | with_reducible apply within_State_frameRoom
    | with_reducible apply within_State_judgeFrame
    | with_reducible apply within_State_modInlet
    | with_reducible apply within_State_storeFrame
    | (refine within_of_snd (by assumption) ?_)
    | (refine within_of_fst (by assumption) ?_)
    | (split)
    | (dsimp -zeta only)

theorem within_State_offerFrame (i : Nat) (f : LiveFrame) {s : State} (hs : Within m s₀ s) (hm : Sub 0x31840000000000000000000000000000000001FD00000000000000000000005000000000000000040080000000000008000000006 m) : Within m s₀ (State.offerFrame s i f) := by
  unfold State.offerFrame
  repeat' first
    | with_reducible assumption
    | exact Sub.up hm (by decide)
    | exact Sub.bit hm (by decide)
    | (intro x; (first | (refine within_cut (m := m) (s₀ := s₀) x ?_ ?_; unfold x; rotate_left; clear_value x; intro hx) | skip))
    | lift_lets -underBinder
    | with_reducible apply within_ite
    | with_reducible apply within_acceptWaiting
    | with_reducible apply within_State_judgeFrame
    | with_reducible apply within_State_storeFrame
    | with_reducible apply within_State_modInlet
    | (refine within_of_snd (by assumption) ?_)
    | (refine within_of_fst (by assumption) ?_)
    | (split)
    | (dsimp -zeta only)

theorem within_packetEffect (i : Nat) (p : AvtpPacket) {s : State} (hs : Within m s₀ s) (hm : Sub 0x31840000000000000000000000000000000001FD00000000000000000000005000000000000000040080000000000008000000006 m)  : Within m s₀ (packetEffect i p s) := by
  unfold packetEffect
  repeat' first
    | with_reducible assumption
    | exact Sub.up hm (by decide)
    | exact Sub.bit hm (by decide)
    | (intro x; (first | (refine within_cut (m := m) (s₀ := s₀) x ?_ ?_; unfold x; rotate_left; clear_value x; intro hx) | skip))
    | lift_lets -underBinder
    | with_reducible apply within_ite
    | with_reducible apply within_State_modInlet
    | with_reducible apply within_State_dropFrame
    | with_reducible apply within_State_offerFrame
    | (refine within_of_snd (by assumption) ?_)
    | (refine within_of_fst (by assumption) ?_)
    | (split)

theorem within_frameAcceptEffect (i : Nat) {s : State} (hs : Within m s₀ s) (hm : Sub 0x131840000000000000000000000000000000001FD00000000000000000000005000000000000000040080000000000008000000006 m)  : Within m s₀ (frameAcceptEffect i s) := by
  unfold frameAcceptEffect
  repeat' first
    | with_reducible assumption
    | exact Sub.up hm (by decide)
    | exact Sub.bit hm (by decide)
    | intro _
    | with_reducible apply within_ite
    | with_reducible apply within_acceptWaiting

theorem within_frameStaleEffect (i : Nat) {s : State} (hs : Within m s₀ s) (hm : Sub 0x110000000000000000000000000000000000001F900000000000000000000000000000000000000000000000000000000000000000 m)  : Within m s₀ (frameStaleEffect i s) := by
  unfold frameStaleEffect
  repeat' first
    | with_reducible assumption
    | exact Sub.up hm (by decide)
    | exact Sub.bit hm (by decide)
    | (intro x; (first | (refine within_cut (m := m) (s₀ := s₀) x ?_ ?_; unfold x; rotate_left; clear_value x; intro hx) | skip))
    | lift_lets -underBinder
    | with_reducible apply within_State_modInlet
    | with_reducible apply within_State_dropFrame
    | with_reducible apply within_State_capture
    | with_reducible apply within_ite
    | (refine within_of_snd (by assumption) ?_)
    | (refine within_of_fst (by assumption) ?_)
    | (split)

theorem within_inletUpEffect (i : Nat) {s : State} (hs : Within m s₀ s) (hm : Sub 0x80000000000000000000000000000000000000000000000000000000000000000 m)  : Within m s₀ (inletUpEffect i s) := by
  unfold inletUpEffect
  repeat' first
    | with_reducible assumption
    | exact Sub.up hm (by decide)
    | exact Sub.bit hm (by decide)
    | intro _
    | with_reducible apply within_ite
    | with_reducible apply within_State_puti

theorem within_State_inletDown {s : State} (i : Nat) (hs : Within m s₀ s) (hm : Sub 0x80000000000000000000000000000000000000180000000000000000000000000000000000000000000000000000000000000000 m)  : Within m s₀ (State.inletDown s i) := by
  unfold State.inletDown
  repeat' first
    | with_reducible assumption
    | exact Sub.up hm (by decide)
    | exact Sub.bit hm (by decide)
    | (intro x; (first | (refine within_cut (m := m) (s₀ := s₀) x ?_ ?_; unfold x; rotate_left; clear_value x; intro hx) | skip))
    | lift_lets -underBinder
    | with_reducible apply within_ite
    | with_reducible apply within_State_puti
    | with_reducible apply within_State_evi
    | with_reducible apply within_State_modSdl
    | with_reducible apply within_State_showTimeLock

theorem within_inlCtrlOne (i : Nat) {s : State} (hs : Within m s₀ s) (hm : Sub 0x80000000000000000000000000000000000000180000000000000000000000000000000000000000000000000000000000000000 m)  : Within m s₀ (inlCtrlOne i s) := by
  unfold inlCtrlOne
  repeat' first
    | with_reducible assumption
    | exact Sub.up hm (by decide)
    | exact Sub.bit hm (by decide)
    | intro _
    | with_reducible apply within_ite
    | with_reducible apply within_State_inletDown

end Sys2Proof.Machine
end

