-- ==== Sys2Proof/Laws/WithinLockstep.lean ====
section
/-! SUPPORT. What the operations of Machine/Lockstep.lean can change, and that they keep a state sound. -/
namespace Sys2Proof.Machine

variable {m : Nat} {s₀ : State}

theorem within_lsCompare (mine : Nat × Nat × Nat) (peer : Nat × Nat × Nat) {s : State} (hs : Within m s₀ s) (hm : Sub 0x101060000000000000000000000060609000000000000000000000000000000000000000000000000000000000000000000000607E m)  : Within m s₀ (lsCompare mine peer s) := by
  unfold lsCompare
  repeat' first
    | with_reducible assumption
    | exact Sub.up hm (by decide)
    | exact Sub.bit hm (by decide)
    | (intro x; (first | (refine within_cut (m := m) (s₀ := s₀) x ?_ ?_; unfold x; rotate_left; clear_value x; intro hx) | skip))
    | lift_lets -underBinder
    | with_reducible apply within_ite
    | with_reducible apply within_State_detFault
    | with_reducible apply within_State_ev
    | with_reducible apply within_State_bump
    | with_reducible apply within_State_trigger

theorem within_lsMatch {s : State} (hs : Within m s₀ s) (hm : Sub 0x105060000000000000000000000060609000000000000000000000000000000000000000000000000000000000000000000000607E m)  : Within m s₀ (lsMatch s) := by
  unfold lsMatch
  repeat' first
    | with_reducible assumption
    | exact Sub.up hm (by decide)
    | exact Sub.bit hm (by decide)
    | (intro x; (first | (refine within_cut (m := m) (s₀ := s₀) x ?_ ?_; unfold x; rotate_left; clear_value x; intro hx) | skip))
    | lift_lets -underBinder
    | with_reducible apply within_ite
    | with_reducible apply within_lsCompare
    | with_reducible apply within_foldl
    | (refine within_of_snd (by assumption) ?_)
    | (refine within_of_fst (by assumption) ?_)
    | (split)
    | (apply within_mk <;> first | exact Or.inl (by with_reducible rfl) | exact Or.inr (Sub.bit hm (by decide)) | with_reducible rfl | rfl | exact Or.inl rfl | (simp; done) | skip)

theorem within_State_sendWindow (first : Nat) (digest : Nat) (cycles : Nat) {s : State} (hs : Within m s₀ s) (hm : Sub 0x200000000000000000000000000000000000000000000000000000000000000000000000000000000000000000000000000000 m) : Within m s₀ (State.sendWindow s first digest cycles) := by
  unfold State.sendWindow
  repeat' first
    | with_reducible assumption
    | exact Sub.up hm (by decide)
    | exact Sub.bit hm (by decide)
    | (intro x; (first | (refine within_cut (m := m) (s₀ := s₀) x ?_ ?_; unfold x; rotate_left; clear_value x; intro hx) | skip))
    | lift_lets -underBinder
    | with_reducible apply within_ite
    | with_reducible apply within_State_sendControl
    | (refine within_of_snd (by assumption) ?_)
    | (refine within_of_fst (by assumption) ?_)
    | (split)
    | (dsimp -zeta only)

theorem within_lsWindowEffect {s : State} (hs : Within m s₀ s) (hm : Sub 0x105060000000000000000000000060609000000000000000000000000000000000000000000000000000000000000000000000607E m)  : Within m s₀ (lsWindowEffect s) := by
  unfold lsWindowEffect
  repeat' first
    | with_reducible assumption
    | exact Sub.up hm (by decide)
    | exact Sub.bit hm (by decide)
    | (intro x; (first | (refine within_cut (m := m) (s₀ := s₀) x ?_ ?_; unfold x; rotate_left; clear_value x; intro hx) | skip))
    | lift_lets -underBinder
    | with_reducible apply within_ite
    | with_reducible apply within_lsMatch
    | with_reducible apply within_foldl
    | with_reducible apply within_State_sendWindow
    | (refine within_of_snd (by assumption) ?_)
    | (refine within_of_fst (by assumption) ?_)
    | (split)
    | (apply within_mk <;> first | exact Or.inl (by with_reducible rfl) | exact Or.inr (Sub.bit hm (by decide)) | with_reducible rfl | rfl | exact Or.inl rfl | (simp; done) | skip)

theorem within_lsFrameEffect (dclass : Nat) (windowM1 : Nat) (first : Nat) (digest : Nat) (cycles : Nat) {s : State} (hs : Within m s₀ s) (hm : Sub 0x105060000000000000000000000060609000000000000000000000000000000000000000000000000000000000000000000000607E m)  : Within m s₀ (lsFrameEffect dclass windowM1 first digest cycles s) := by
  unfold lsFrameEffect
  repeat' first
    | with_reducible assumption
    | exact Sub.up hm (by decide)
    | exact Sub.bit hm (by decide)
    | (intro x; (first | (refine within_cut (m := m) (s₀ := s₀) x ?_ ?_; unfold x; rotate_left; clear_value x; intro hx) | skip))
    | lift_lets -underBinder
    | with_reducible apply within_ite
    | with_reducible apply within_lsMatch
    | with_reducible apply within_State_putb
    | (apply within_mk <;> first | exact Or.inl (by with_reducible rfl) | exact Or.inr (Sub.bit hm (by decide)) | with_reducible rfl | rfl | exact Or.inl rfl | (simp; done) | skip)

theorem within_lsLostEffect {s : State} (hs : Within m s₀ s) (hm : Sub 0x105060000000000000000000000060609000000000000000000000000000000000000000000000000000000000000000000000207E m)  : Within m s₀ (lsLostEffect s) := by
  unfold lsLostEffect
  repeat' first
    | with_reducible assumption
    | exact Sub.up hm (by decide)
    | exact Sub.bit hm (by decide)
    | (intro x; (first | (refine within_cut (m := m) (s₀ := s₀) x ?_ ?_; unfold x; rotate_left; clear_value x; intro hx) | skip))
    | lift_lets -underBinder
    | with_reducible apply within_ite
    | with_reducible apply within_State_detFault
    | with_reducible apply within_State_put
    | with_reducible apply within_State_ev
    | with_reducible apply within_State_fresh
    | (refine within_of_snd (by assumption) ?_)
    | (refine within_of_fst (by assumption) ?_)
    | (dsimp -zeta only)
    | (split)
    | (apply within_mk <;> first | exact Or.inl (by with_reducible rfl) | exact Or.inr (Sub.bit hm (by decide)) | with_reducible rfl | rfl | exact Or.inl rfl | (simp; done) | skip)

theorem within_lsCtrl (w : Word) {s : State} (hs : Within m s₀ s) (hm : Sub 0x40000000000000000000000000000000000000000000000000000000000000000000000000000000000000000000000000003000 m)  : Within m s₀ (lsCtrl w s) := by
  unfold lsCtrl
  repeat' first
    | with_reducible assumption
    | exact Sub.up hm (by decide)
    | exact Sub.bit hm (by decide)
    | (intro x; (first | (refine within_cut (m := m) (s₀ := s₀) x ?_ ?_; unfold x; rotate_left; clear_value x; intro hx) | skip))
    | lift_lets -underBinder
    | with_reducible apply within_ite
    | with_reducible apply within_State_put
    | with_reducible apply within_State_swWrite
    | (apply within_mk <;> first | exact Or.inl (by with_reducible rfl) | exact Or.inr (Sub.bit hm (by decide)) | with_reducible rfl | rfl | exact Or.inl rfl | (simp; done) | skip)

end Sys2Proof.Machine
end

