-- ==== Sys2Proof/Laws/WithinParts.lean ====
section
/-! SUPPORT. A list of parts as a set of parts, and what a state within a footprint keeps. -/
namespace Sys2Proof

theorem Machine.Reg.ctorIdx_lt (r : Machine.Reg) : r.ctorIdx < 400 := by cases r <;> decide

theorem Region.bit_inj {p q : Region} (h : p.bit = q.bit) : p = q := by
  cases p with
  | reg r =>
    have := r.ctorIdx_lt
    cases q <;> simp only [Region.bit] at h <;> first | rw [Machine.Reg.ctorIdx_inj h] | omega
  | _ =>
    cases q with
    | reg r =>
      have := r.ctorIdx_lt
      simp only [Region.bit] at h
      omega
    | _ => first | rfl | (simp only [Region.bit] at h; omega)

/-- The set of the parts of a list. -/
def Region.mask : List Region → Nat
  | [] => 0
  | p :: l => (1 <<< p.bit) ||| Region.mask l

theorem Region.testBit_mask {l : List Region} {k : Nat} : (Region.mask l).testBit k = true ↔ ∃ p ∈ l, p.bit = k := by
  induction l with
  | nil => simp [Region.mask]
  | cons p l ih =>
    rw [Region.mask, Nat.testBit_or, Bool.or_eq_true, ih, Nat.one_shiftLeft, Nat.testBit_two_pow]
    simp

theorem Region.testBit_mask_false {l : List Region} {p : Region} (h : p ∉ l) : (Region.mask l).testBit p.bit = false := by
  rw [← Bool.not_eq_true, Region.testBit_mask]
  rintro ⟨q, hq, e⟩
  exact h (Region.bit_inj e ▸ hq)

theorem Region.bit_mask {l : List Region} {p : Region} (h : p ∈ l) : (Region.mask l).testBit p.bit = true :=
  Region.testBit_mask.2 ⟨p, h, rfl⟩

theorem Region.mask_sub {l : List Region} {m : Nat} (h : ∀ p ∈ l, m.testBit p.bit = true) : Machine.Sub (Region.mask l) m := by
  apply Nat.eq_of_testBit_eq
  intro i
  rw [Nat.testBit_and]
  by_cases hi : (Region.mask l).testBit i = true
  · obtain ⟨p, hp, rfl⟩ := Region.testBit_mask.1 hi
    rw [hi, h p hp]; rfl
  · simp [hi]

theorem Region.mask_mono {l l' : List Region} (h : ∀ p ∈ l, p ∈ l') : Machine.Sub (Region.mask l) (Region.mask l') :=
  Region.mask_sub (fun p hp => Region.bit_mask (h p hp))

set_option maxRecDepth 20000 in
theorem Region.mask_all : Machine.Sub 0xFFFFFD00000000000FFFFFFFFFFFFFFFFFFFFFFFFFFFFFFFFFFFFFFFFFFFFFFFFFFFFFFFFFFFFFFFFFFFFFFFFFFFFFFFFFFFFFFFFF (Region.mask (.out :: .host :: allParts)) := by decide

/-- What every footprint begins with. -/
theorem Region.mask_ends {l : List Region} : Machine.Sub (Region.mask [.out, .host]) (Region.mask (.out :: .host :: l)) :=
  Region.mask_mono (by simp)

/-- Outside a footprint within which a state lies, every part is as it was. -/
theorem Machine.Within.outside {l : List Region} {s t : Machine.State} (h : Machine.Within (Region.mask l) s t) {p : Region}
    (hp : p ∉ l) : p.same s t := h.same p (Region.testBit_mask_false hp)

end Sys2Proof
end

