-- ==== Sys2Proof/Laws/WithinPebbleJob.lean ====
section
/-! SUPPORT. What the operations of Machine/PebbleJob.lean can change, and that they keep a state sound. -/
namespace Sys2Proof.Machine

variable {m : Nat} {s₀ : State}

theorem within_pebbleCtrl (w : Word) {s : State} (hs : Within m s₀ s) (hm : Sub 0x2200C00000000000000000000000000000000000000000000000000000E00005000000000000000040080000000000008000000000 m)  : Within m s₀ (pebbleCtrl w s) := by
  unfold pebbleCtrl
  repeat' first
    | with_reducible assumption
    | exact Sub.up hm (by decide)
    | exact Sub.bit hm (by decide)
    | (intro x; (first | (refine within_cut (m := m) (s₀ := s₀) x ?_ ?_; unfold x; rotate_left; clear_value x; intro hx) | skip))
    | lift_lets -underBinder
    | with_reducible apply within_ite
    | with_reducible apply within_State_put
    | with_reducible apply within_State_ev
    | with_reducible apply within_State_swWrite
    | with_reducible apply within_State_modPebble
    | with_reducible apply within_State_submitJob
    | (apply within_mk <;> first | exact Or.inl (by with_reducible rfl) | exact Or.inr (Sub.bit hm (by decide)) | with_reducible rfl | rfl | exact Or.inl rfl | (simp; done) | skip)
    | (refine within_of_snd (by assumption) ?_)
    | (refine within_of_fst (by assumption) ?_)
    | (split)

theorem within_State_showRecord {s : State} (b : List Byte) (hs : Within m s₀ s) (hm : Sub 0x1000000000000000000000000000000000000000000000000000 m)  : Within m s₀ (State.showRecord s b) := by
  unfold State.showRecord
  repeat' first
    | with_reducible assumption
    | exact Sub.up hm (by decide)
    | exact Sub.bit hm (by decide)
    | (intro x; (first | (refine within_cut (m := m) (s₀ := s₀) x ?_ ?_; unfold x; rotate_left; clear_value x; intro hx) | skip))
    | lift_lets -underBinder
    | with_reducible apply within_State_setWord
    | with_reducible apply within_State_each

theorem within_State_endPebble (reason : Nat) (inDone : Nat) (outDone : Nat) {s : State} (hs : Within m s₀ s) (hm : Sub 0x20008000000000000000000000000000000000000000000000000001C0600000000000000000000000000000000000000000000000 m) : Within m s₀ (State.endPebble s reason inDone outDone) := by
  unfold State.endPebble
  repeat' first
    | with_reducible assumption
    | exact Sub.up hm (by decide)
    | exact Sub.bit hm (by decide)
    | (intro x; (first | (refine within_cut (m := m) (s₀ := s₀) x ?_ ?_; unfold x; rotate_left; clear_value x; intro hx) | skip))
    | lift_lets -underBinder
    | with_reducible apply within_ite
    | with_reducible apply within_State_put
    | with_reducible apply within_State_ev
    | with_reducible apply within_State_modPebble
    | (apply within_mk <;> first | exact Or.inl (by with_reducible rfl) | exact Or.inr (Sub.bit hm (by decide)) | with_reducible rfl | rfl | exact Or.inl rfl | (simp; done) | skip)
    | (refine within_of_snd (by assumption) ?_)
    | (refine within_of_fst (by assumption) ?_)
    | (split)

theorem within_State_jobOut (j : PblJob) (out : List Byte) {s : State} (hs : Within m s₀ s) (hm : Sub 0x200200000000000000000000000000000000000000000000000000000000000000000000000000000000000000000000000000000 m) : Within m s₀ (State.jobOut s j out) := by
  unfold State.jobOut
  repeat' first
    | with_reducible assumption
    | exact Sub.up hm (by decide)
    | exact Sub.bit hm (by decide)
    | (intro x; (first | (refine within_cut (m := m) (s₀ := s₀) x ?_ ?_; unfold x; rotate_left; clear_value x; intro hx) | skip))
    | lift_lets -underBinder
    | with_reducible apply within_ite
    | with_reducible apply within_State_emit
    | with_reducible apply within_State_wrRegion
    | (refine within_of_snd (by assumption) ?_)
    | (refine within_of_fst (by assumption) ?_)
    | (split)
    | (dsimp -zeta only)

theorem within_State_hostJobEnd (j : PblJob) (source : Option (List Byte)) (vf : Option Nat) (units : Nat) {s : State} (hs : Within m s₀ s) (hm : Sub 0x2200E00000000000000000000000000000000000000000000000001FC0600000000000000000000000000000000000000000000000 m) : Within m s₀ (State.hostJobEnd s j source vf units) := by
  unfold State.hostJobEnd
  repeat' first
    | with_reducible assumption
    | exact Sub.up hm (by decide)
    | exact Sub.bit hm (by decide)
    | (intro x; (first | (refine within_cut (m := m) (s₀ := s₀) x ?_ ?_; unfold x; rotate_left; clear_value x; intro hx) | skip))
    | lift_lets -underBinder
    | with_reducible apply within_ite
    | with_reducible apply within_State_fresh
    | with_reducible apply within_State_endPebble
    | with_reducible apply within_State_jobOut
    | with_reducible apply within_State_showRecord
    | with_reducible apply within_State_countPebble
    | (refine within_of_snd (by assumption) ?_)
    | (refine within_of_fst (by assumption) ?_)
    | (split)
    | (dsimp -zeta only)

theorem within_State_sluiceJobEnd (id : Nat) (input : List Byte) {s : State} (hs : Within m s₀ s) (hm : Sub 0x8000000000000000000000000000000000000000000000000000E00400000000000000000000000000000000000000000000000 m) : Within m s₀ (State.sluiceJobEnd s id input) := by
  have h := within_expandStored input hs (Sub.up hm (by decide))
  unfold State.sluiceJobEnd
  split
  next e =>
    have hu := within_of_snd e h
    apply within_mk hu <;> first | exact Or.inl (by with_reducible rfl) | exact Or.inr (Sub.bit hm (by decide)) | rfl

theorem within_State_weirJobEnd (id : Nat) (input : List Byte) (vf : Option Nat) {s : State} (hs : Within m s₀ s) (hm : Sub 0x4000000000000000000000000000000000000000000000000000E00400000000000000000000000000000000000000000000000 m) : Within m s₀ (State.weirJobEnd s id input vf) := by
  unfold State.weirJobEnd
  repeat' first
    | with_reducible assumption
    | exact Sub.up hm (by decide)
    | exact Sub.bit hm (by decide)
    | (intro x; (first | (refine within_cut (m := m) (s₀ := s₀) x ?_ ?_; unfold x; rotate_left; clear_value x; intro hx) | skip))
    | lift_lets -underBinder
    | with_reducible apply within_ite
    | with_reducible apply within_State_countPebble
    | (apply within_mk <;> first | exact Or.inl (by with_reducible rfl) | exact Or.inr (Sub.bit hm (by decide)) | with_reducible rfl | rfl | exact Or.inl rfl | (simp; done) | skip)
    | (refine within_of_snd (by assumption) ?_)
    | (refine within_of_fst (by assumption) ?_)
    | (split)
    | (dsimp -zeta only)

theorem within_State_keeperJobEnd (inner : PblInner) (input : List Byte) (vf : Option Nat) {s : State} (hs : Within m s₀ s) (hm : Sub 0x2608400000000000000000000000000000000000000000000000000E00600005000000000000000040080000000000008000000000 m) : Within m s₀ (State.keeperJobEnd s inner input vf) := by
  unfold State.keeperJobEnd
  repeat' first
    | with_reducible assumption
    | exact Sub.up hm (by decide)
    | exact Sub.bit hm (by decide)
    | (intro x; (first | (refine within_cut (m := m) (s₀ := s₀) x ?_ ?_; unfold x; rotate_left; clear_value x; intro hx) | skip))
    | lift_lets -underBinder
    | with_reducible apply within_ite
    | with_reducible apply within_State_countPebble
    | with_reducible apply within_State_cacheContainer
    | with_reducible apply within_State_drainCache
    | with_reducible apply within_State_submitJob
    | (refine within_of_snd (by assumption) ?_)
    | (refine within_of_fst (by assumption) ?_)
    | (split)
    | (dsimp -zeta only)

theorem within_pebbleDoneEffect (lane : Nat) (source : Option (List Byte)) (vf : Option Nat) (units : Nat) {s : State} (hs : Within m s₀ s) (hm : Sub 0x260CE00000000000000000000000000000000000000000000000001FC0600005000000000000000040080000000000008000000000 m)  : Within m s₀ (pebbleDoneEffect lane source vf units s) := by
  unfold pebbleDoneEffect
  repeat' first
    | with_reducible assumption
    | exact Sub.up hm (by decide)
    | exact Sub.bit hm (by decide)
    | (intro x; (first | (refine within_cut (m := m) (s₀ := s₀) x ?_ ?_; unfold x; rotate_left; clear_value x; intro hx) | skip))
    | lift_lets -underBinder
    | with_reducible apply within_ite
    | with_reducible apply within_State_runLanes
    | with_reducible apply within_State_sluiceJobEnd
    | with_reducible apply within_State_weirJobEnd
    | with_reducible apply within_State_keeperJobEnd
    | with_reducible apply within_State_hostJobEnd
    | with_reducible apply within_State_endJob
    | (refine within_of_snd (by assumption) ?_)
    | (refine within_of_fst (by assumption) ?_)
    | (dsimp -zeta only)
    | (split)

end Sys2Proof.Machine
end

