-- ==== Sys2Proof/Laws/WithinKeeperOps.lean ====
section
/-! SUPPORT. What the operations of Machine/KeeperOps.lean can change, and that they keep a state sound. -/
namespace Sys2Proof.Machine

variable {m : Nat} {s₀ : State}

theorem within_State_setRole {s : State} (c : Nat) (role : Nat) (hs : Within m s₀ s) (hm : Sub 0x2200000000000000000000000000000000000000000000000000000000000000000000 m)  : Within m s₀ (State.setRole s c role) := by
  unfold State.setRole
  repeat' first
    | with_reducible assumption
    | exact Sub.up hm (by decide)
    | exact Sub.bit hm (by decide)
    | (dsimp only; exact Sub.bit hm (by decide))
    | (intro x; (first | (refine within_cut (m := m) (s₀ := s₀) x ?_ ?_; unfold x; rotate_left; clear_value x; intro hx) | skip))
    | lift_lets -underBinder
    | with_reducible apply within_State_put

theorem within_State_rerunTasks {s : State} (hs : Within m s₀ s) (hm : Sub 0x800000000000000000000000000000000000000000000000000000000000000000000000000000000000000000000000000000 m)  : Within m s₀ (State.rerunTasks s) := by
  unfold State.rerunTasks
  repeat' first
    | with_reducible assumption
    | exact Sub.up hm (by decide)
    | exact Sub.bit hm (by decide)
    | (intro x; (first | (refine within_cut (m := m) (s₀ := s₀) x ?_ ?_; unfold x; rotate_left; clear_value x; intro hx) | skip))
    | lift_lets -underBinder
    | with_reducible apply within_ite
    | with_reducible apply within_State_setTasks

theorem within_State_keeperGone {s : State} (hs : Within m s₀ s) (hm : Sub 0x8000000000000000000000000000000000000000000000000000000000000000000000000000400C0000000000000000000000 m)  : Within m s₀ (State.keeperGone s) := by
  unfold State.keeperGone
  repeat' first
    | with_reducible assumption
    | exact Sub.up hm (by decide)
    | exact Sub.bit hm (by decide)
    | (intro x; (first | (refine within_cut (m := m) (s₀ := s₀) x ?_ ?_; unfold x; rotate_left; clear_value x; intro hx) | skip))
    | lift_lets -underBinder
    | with_reducible apply within_State_setBusy
    | with_reducible apply within_State_rerunTasks
    | with_reducible apply within_State_put

theorem within_State_runImage {s : State} (k : Nat) (hs : Within m s₀ s) (hm : Sub 0x800000000000000000000000000000000008200000000000000000000000000000000000000000000040000000000000010000000 m)  : Within m s₀ (State.runImage s k) := by
  unfold State.runImage
  repeat' first
    | with_reducible assumption
    | exact Sub.up hm (by decide)
    | exact Sub.bit hm (by decide)
    | (intro x; (first | (refine within_cut (m := m) (s₀ := s₀) x ?_ ?_; unfold x; rotate_left; clear_value x; intro hx) | skip))
    | lift_lets -underBinder
    | with_reducible apply within_ite
    | with_reducible apply within_State_showKeys
    | with_reducible apply within_State_rewriteLedger
    | with_reducible apply within_State_put
    | with_reducible apply within_State_putb
    | (refine within_of_snd (by assumption) ?_)
    | (refine within_of_fst (by assumption) ?_)
    | (split)

theorem within_State_keeperUp {s : State} (hs : Within m s₀ s) (hm : Sub 0x8004000000000000000000000000100000022000000000000000000000000000000000000000000400C0000000000000000000000 m)  : Within m s₀ (State.keeperUp s) := by
  unfold State.keeperUp
  repeat' first
    | with_reducible assumption
    | exact Sub.up hm (by decide)
    | exact Sub.bit hm (by decide)
    | (intro x; (first | (refine within_cut (m := m) (s₀ := s₀) x ?_ ?_; unfold x; rotate_left; clear_value x; intro hx) | skip))
    | lift_lets -underBinder
    | with_reducible apply within_State_bindCores
    | with_reducible apply within_State_setBusy
    | with_reducible apply within_State_setRole
    | with_reducible refine within_State_modSvc _ ?_ (Sub.up hm (by decide)) rfl
    | with_reducible refine within_State_modSvc _ ?_ (Sub.up hm (by decide)) (by simp)
    | with_reducible apply within_State_put
    | with_reducible apply within_State_each
    | (refine within_of_snd (by assumption) ?_)
    | (refine within_of_fst (by assumption) ?_)
    | (split)
    | (apply within_mk <;> first | exact Or.inl (by with_reducible rfl) | exact Or.inr (Sub.bit hm (by decide)) | with_reducible rfl | rfl | exact Or.inl rfl | (simp; done) | skip)

theorem within_State_keeperDown {s : State} (hs : Within m s₀ s) (hm : Sub 0x8008000000000000000000000000100000022000000000000000000000000000000000000000000400C0000000000000000000000 m)  : Within m s₀ (State.keeperDown s) := by
  unfold State.keeperDown
  repeat' first
    | with_reducible assumption
    | exact Sub.up hm (by decide)
    | exact Sub.bit hm (by decide)
    | (intro x; (first | (refine within_cut (m := m) (s₀ := s₀) x ?_ ?_; unfold x; rotate_left; clear_value x; intro hx) | skip))
    | lift_lets -underBinder
    | with_reducible apply within_State_setRole
    | with_reducible apply within_State_keeperGone
    | with_reducible refine within_State_modSvc _ ?_ (Sub.up hm (by decide)) rfl
    | with_reducible refine within_State_modSvc _ ?_ (Sub.up hm (by decide)) (by simp)
    | with_reducible apply within_State_put
    | with_reducible apply within_State_each
    | (apply within_mk <;> first | exact Or.inl (by with_reducible rfl) | exact Or.inr (Sub.bit hm (by decide)) | with_reducible rfl | rfl | exact Or.inl rfl | (simp; done) | skip)

theorem within_State_restartKeeper {s : State} (hs : Within m s₀ s) (hm : Sub 0x8008000000000000000000000000100000026000000000000000000000000000000000000000000400C0000000000000000000000 m)  : Within m s₀ (State.restartKeeper s) := by
  unfold State.restartKeeper
  repeat' first
    | with_reducible assumption
    | exact Sub.up hm (by decide)
    | exact Sub.bit hm (by decide)
    | intro _
    | with_reducible apply within_ite
    | with_reducible apply within_State_keeperDown
    | with_reducible apply within_State_put
    | with_reducible apply within_State_ev
    | with_reducible apply within_State_logFault

theorem within_State_endTrial {s : State} (hs : Within m s₀ s) (hm : Sub 0x80080000000000000000000000001000000A6000000000000000000000000000000000000000000400C0000000000000000000000 m)  : Within m s₀ (State.endTrial s) := by
  unfold State.endTrial
  repeat' first
    | with_reducible assumption
    | exact Sub.up hm (by decide)
    | exact Sub.bit hm (by decide)
    | (unfold fwField; (try dsimp only); first | exact Sub.bit hm (by decide) | (split <;> exact Sub.bit hm (by decide)))
    | (intro x; (first | (refine within_cut (m := m) (s₀ := s₀) x ?_ ?_; unfold x; rotate_left; clear_value x; intro hx) | skip))
    | lift_lets -underBinder
    | with_reducible apply within_ite
    | with_reducible apply within_State_restartKeeper
    | with_reducible apply within_State_put
    | with_reducible apply within_State_ev
    | with_reducible apply within_State_setImage
    | (refine within_of_snd (by assumption) ?_)
    | (refine within_of_fst (by assumption) ?_)
    | (split)

theorem within_State_expireTrial  {s : State} (hs : Within m s₀ s) (hm : Sub 0x80080000000000000000000000001000000A6000000000000000000000000000000000000000000400C0000000000000000000000 m) : Within m s₀ (State.expireTrial s) := by
  unfold State.expireTrial
  repeat' first
    | with_reducible assumption
    | exact Sub.up hm (by decide)
    | exact Sub.bit hm (by decide)
    | (intro x; (first | (refine within_cut (m := m) (s₀ := s₀) x ?_ ?_; unfold x; rotate_left; clear_value x; intro hx) | skip))
    | lift_lets -underBinder
    | with_reducible apply within_ite
    | with_reducible apply within_State_ev
    | with_reducible apply within_State_endTrial
    | (refine within_of_snd (by assumption) ?_)
    | (refine within_of_fst (by assumption) ?_)
    | (split)
    | (dsimp -zeta only)

theorem within_State_giveBanks {s : State} (w : Word) (hs : Within m s₀ s) (hm : Sub 0x200010000000000000000000000000000000000000000000000000000001800000000000000000000000000000000000000000000 m)  : Within m s₀ (State.giveBanks s w) := by
  unfold State.giveBanks
  repeat' first
    | with_reducible assumption
    | exact Sub.up hm (by decide)
    | exact Sub.bit hm (by decide)
    | (intro x; (first | (refine within_cut (m := m) (s₀ := s₀) x ?_ ?_; unfold x; rotate_left; clear_value x; intro hx) | skip))
    | lift_lets -underBinder
    | with_reducible apply within_ite
    | with_reducible apply within_State_each
    | with_reducible apply within_handoverEnd
    | with_reducible apply within_ownerWrite
    | with_reducible apply within_foldl
    | (refine within_of_snd (by assumption) ?_)
    | (refine within_of_fst (by assumption) ?_)
    | (split)

theorem within_State_applyLayout {s : State} (hs : Within m s₀ s) (hm : Sub 0x200010000000000000000000000000000000000000000000000000000001B33000000000000000040080000000000008000000000 m)  : Within m s₀ (State.applyLayout s) := by
  unfold State.applyLayout
  repeat' first
    | with_reducible assumption
    | exact Sub.up hm (by decide)
    | exact Sub.bit hm (by decide)
    | (intro x; (first | (refine within_cut (m := m) (s₀ := s₀) x ?_ ?_; unfold x; rotate_left; clear_value x; intro hx) | skip))
    | lift_lets -underBinder
    | with_reducible apply within_ite
    | with_reducible apply within_poolBanksEffect
    | with_reducible apply within_cpoolEffect
    | with_reducible apply within_minEffect
    | with_reducible apply within_showBasin
    | with_reducible apply within_State_giveBanks
    | with_reducible apply within_State_swWrite
    | with_reducible apply within_foldl

theorem within_State_applyDefaults {s : State} (hs : Within m s₀ s) (hm : Sub 0x811800000000000000000000000000000000000000000000000000000000000000000000 m) :
    Within m s₀ s.applyDefaults := by
  have key : ∀ (l : List (Word × Reg)), (∀ e ∈ l, m.testBit e.2.ctorIdx = true) → ∀ s : State, Within m s₀ s →
      Within m s₀ (l.foldl (fun s e => s.swWrite e.2 0 (e.2.clampWord e.1)) s) := by
    intro l
    induction l with
    | nil => exact fun _ _ h => h
    | cons e l ih =>
      intro hl s h
      exact ih (fun x hx => hl x (List.mem_cons_of_mem _ hx)) _ (within_State_swWrite _ _ _ h (hl e List.mem_cons_self))
  unfold State.applyDefaults
  refine key _ (fun e he => ?_) s hs
  have h := (List.of_mem_zip he).2
  simp only [List.mem_cons, List.not_mem_nil, or_false] at h
  rcases h with h | h | h | h <;> rw [h] <;> exact Sub.bit hm (by decide)

end Sys2Proof.Machine
end

