-- ==== Sys2Proof/Laws/WithinWeirOps.lean ====
section
/-! SUPPORT. What the operations of Machine/WeirOps.lean can change, and that they keep a state sound. -/
namespace Sys2Proof.Machine

variable {m : Nat} {s₀ : State}

theorem within_State_modWeir {s : State} (f : WeirSt → WeirSt) (hs : Within m s₀ s) (hm : Sub 0x20000000000000000000000000000000000000000000000000000000000000000000000000000000000000000000000000000000 m) (hf : (f s.weir).spouts.length = s.weir.spouts.length)  : Within m s₀ (State.modWeir s f) := by
  unfold State.modWeir
  repeat' first
    | with_reducible assumption
    | exact Sub.up hm (by decide)
    | exact Sub.bit hm (by decide)
    | (intro x; (first | (refine within_cut (m := m) (s₀ := s₀) x ?_ ?_; unfold x; rotate_left; clear_value x; intro hx) | skip))
    | lift_lets -underBinder
    | (apply within_mk <;> first | exact Or.inl (by with_reducible rfl) | exact Or.inr (Sub.bit hm (by decide)) | with_reducible rfl | rfl | exact Or.inl rfl | (simp; done) | skip)

theorem within_State_setFlowEntry {s : State} (f : Nat) (b : List Byte) (hs : Within m s₀ s) (hm : Sub 0x20000000000000000000000000000000000000000000000000000000000000000000000000000000000000000000000000000000 m)  : Within m s₀ (State.setFlowEntry s f b) := by
  unfold State.setFlowEntry
  repeat' first
    | with_reducible assumption
    | exact Sub.up hm (by decide)
    | exact Sub.bit hm (by decide)
    | (intro x; (first | (refine within_cut (m := m) (s₀ := s₀) x ?_ ?_; unfold x; rotate_left; clear_value x; intro hx) | skip))
    | lift_lets -underBinder
    | with_reducible refine within_State_modWeir _ ?_ (Sub.up hm (by decide)) rfl
    | with_reducible refine within_State_modWeir _ ?_ (Sub.up hm (by decide)) (by simp)
    | (apply within_mk <;> first | exact Or.inl (by with_reducible rfl) | exact Or.inr (Sub.bit hm (by decide)) | with_reducible rfl | rfl | exact Or.inl rfl | (simp; done) | skip)

theorem within_State_setGroupEntry {s : State} (g : Nat) (b : List Byte) (hs : Within m s₀ s) (hm : Sub 0x20000000000000000000000000000000000000000000000000000000000000000000000000000000000000000000000000000000 m)  : Within m s₀ (State.setGroupEntry s g b) := by
  unfold State.setGroupEntry
  repeat' first
    | with_reducible assumption
    | exact Sub.up hm (by decide)
    | exact Sub.bit hm (by decide)
    | (intro x; (first | (refine within_cut (m := m) (s₀ := s₀) x ?_ ?_; unfold x; rotate_left; clear_value x; intro hx) | skip))
    | lift_lets -underBinder
    | with_reducible refine within_State_modWeir _ ?_ (Sub.up hm (by decide)) rfl
    | with_reducible refine within_State_modWeir _ ?_ (Sub.up hm (by decide)) (by simp)
    | (apply within_mk <;> first | exact Or.inl (by with_reducible rfl) | exact Or.inr (Sub.bit hm (by decide)) | with_reducible rfl | rfl | exact Or.inl rfl | (simp; done) | skip)

theorem within_State_setFlow {s : State} (f : Nat) (x : FlowSt) (hs : Within m s₀ s) (hm : Sub 0x20400000000000000000000000000000000000000000000000000000000000000000000000000000000000000000000000000000 m)  : Within m s₀ (State.setFlow s f x) := by
  unfold State.setFlow
  repeat' first
    | with_reducible assumption
    | exact Sub.up hm (by decide)
    | exact Sub.bit hm (by decide)
    | (intro x; (first | (refine within_cut (m := m) (s₀ := s₀) x ?_ ?_; unfold x; rotate_left; clear_value x; intro hx) | skip))
    | lift_lets -underBinder
    | with_reducible apply within_State_fresh
    | with_reducible refine within_State_modWeir _ ?_ (Sub.up hm (by decide)) rfl
    | with_reducible refine within_State_modWeir _ ?_ (Sub.up hm (by decide)) (by simp)
    | (apply within_mk <;> first | exact Or.inl (by with_reducible rfl) | exact Or.inr (Sub.bit hm (by decide)) | with_reducible rfl | rfl | exact Or.inl rfl | (simp; done) | skip)

theorem within_State_modFlow {s : State} (f : Nat) (g : FlowSt → FlowSt) (hs : Within m s₀ s) (hm : Sub 0x20400000000000000000000000000000000000000000000000000000000000000000000000000000000000000000000000000000 m)  : Within m s₀ (State.modFlow s f g) := by
  unfold State.modFlow
  repeat' first
    | with_reducible assumption
    | exact Sub.up hm (by decide)
    | exact Sub.bit hm (by decide)
    | intro _
    | with_reducible apply within_State_setFlow

theorem within_State_modSpout {s : State} (k : Nat) (f : SpoutSt → SpoutSt) (hs : Within m s₀ s) (hm : Sub 0x20000000000000000000000000000000000000000000000000000000000000000000000000000000000000000000000000000000 m)  : Within m s₀ (State.modSpout s k f) := by
  unfold State.modSpout
  repeat' first
    | with_reducible assumption
    | exact Sub.up hm (by decide)
    | exact Sub.bit hm (by decide)
    | (intro x; (first | (refine within_cut (m := m) (s₀ := s₀) x ?_ ?_; unfold x; rotate_left; clear_value x; intro hx) | skip))
    | lift_lets -underBinder
    | with_reducible refine within_State_modWeir _ ?_ (Sub.up hm (by decide)) rfl
    | with_reducible refine within_State_modWeir _ ?_ (Sub.up hm (by decide)) (by simp)
    | (apply within_mk <;> first | exact Or.inl (by with_reducible rfl) | exact Or.inr (Sub.bit hm (by decide)) | with_reducible rfl | rfl | exact Or.inl rfl | (simp; done) | skip)

theorem within_State_modBatch {s : State} (id : Nat) (f : PoolBatch → PoolBatch) (hs : Within m s₀ s) (hm : Sub 0x20000000000000000000000000000000000000000000000000000000000000000000000000000000000000000000000000000000 m)  : Within m s₀ (State.modBatch s id f) := by
  unfold State.modBatch
  repeat' first
    | with_reducible assumption
    | exact Sub.up hm (by decide)
    | exact Sub.bit hm (by decide)
    | (intro x; (first | (refine within_cut (m := m) (s₀ := s₀) x ?_ ?_; unfold x; rotate_left; clear_value x; intro hx) | skip))
    | lift_lets -underBinder
    | with_reducible apply within_ite
    | with_reducible refine within_State_modWeir _ ?_ (Sub.up hm (by decide)) rfl
    | with_reducible refine within_State_modWeir _ ?_ (Sub.up hm (by decide)) (by simp)
    | (apply within_mk <;> first | exact Or.inl (by with_reducible rfl) | exact Or.inr (Sub.bit hm (by decide)) | with_reducible rfl | rfl | exact Or.inl rfl | (simp; done) | skip)

theorem within_State_showWeir {s : State} (hs : Within m s₀ s) (hm : Sub 0x220010000000000000000000000000000000000000000000000000000 m)  : Within m s₀ (State.showWeir s) := by
  unfold State.showWeir
  repeat' first
    | with_reducible assumption
    | exact Sub.up hm (by decide)
    | exact Sub.bit hm (by decide)
    | (intro x; (first | (refine within_cut (m := m) (s₀ := s₀) x ?_ ?_; unfold x; rotate_left; clear_value x; intro hx) | skip))
    | lift_lets -underBinder
    | with_reducible apply within_ite
    | with_reducible apply within_State_puti
    | with_reducible apply within_State_put
    | with_reducible apply within_State_each

theorem within_State_checkHeld (k : Nat) {s : State} (hs : Within m s₀ s) (hm : Sub 0x30000000000000000000000000000000000000000000000000000 m) : Within m s₀ (State.checkHeld s k) := by
  unfold State.checkHeld
  repeat' first
    | with_reducible assumption
    | exact Sub.up hm (by decide)
    | exact Sub.bit hm (by decide)
    | (intro x; (first | (refine within_cut (m := m) (s₀ := s₀) x ?_ ?_; unfold x; rotate_left; clear_value x; intro hx) | skip))
    | lift_lets -underBinder
    | with_reducible apply within_ite
    | with_reducible apply within_State_puti
    | with_reducible apply within_State_evi
    | (refine within_of_snd (by assumption) ?_)
    | (refine within_of_fst (by assumption) ?_)
    | (split)
    | (dsimp -zeta only)

theorem within_State_writeCr {s : State} (bs : List Byte) (hs : Within m s₀ s) (hm : Sub 0x20A00000000000000000000000000000000000000000080020000000000000000000000000000000000000000000000000000000 m)  : Within m s₀ (State.writeCr s bs) := by
  unfold State.writeCr
  repeat' first
    | with_reducible assumption
    | exact Sub.up hm (by decide)
    | exact Sub.bit hm (by decide)
    | (intro x; (first | (refine within_cut (m := m) (s₀ := s₀) x ?_ ?_; unfold x; rotate_left; clear_value x; intro hx) | skip))
    | lift_lets -underBinder
    | with_reducible apply within_ite
    | with_reducible apply within_State_signal
    | with_reducible apply within_State_put
    | with_reducible apply within_State_putb
    | with_reducible apply within_State_emit
    | with_reducible refine within_State_modWeir _ ?_ (Sub.up hm (by decide)) rfl
    | with_reducible refine within_State_modWeir _ ?_ (Sub.up hm (by decide)) (by simp)
    | (apply within_mk <;> first | exact Or.inl (by with_reducible rfl) | exact Or.inr (Sub.bit hm (by decide)) | with_reducible rfl | rfl | exact Or.inl rfl | (simp; done) | skip)
    | (refine within_of_snd (by assumption) ?_)
    | (refine within_of_fst (by assumption) ?_)
    | (split)

theorem within_State_completionRecord {s : State} (bs : List Byte) (hs : Within m s₀ s) (hm : Sub 0x20A00000000000000000000000000000000000000010080060000000000000000000000000000000000000000000000000000000 m)  : Within m s₀ (State.completionRecord s bs) := by
  unfold State.completionRecord
  repeat' first
    | with_reducible assumption
    | exact Sub.up hm (by decide)
    | exact Sub.bit hm (by decide)
    | (intro x; (first | (refine within_cut (m := m) (s₀ := s₀) x ?_ ?_; unfold x; rotate_left; clear_value x; intro hx) | skip))
    | lift_lets -underBinder
    | with_reducible apply within_ite
    | with_reducible apply within_State_ev
    | with_reducible apply within_State_bump
    | with_reducible refine within_State_modWeir _ ?_ (Sub.up hm (by decide)) rfl
    | with_reducible refine within_State_modWeir _ ?_ (Sub.up hm (by decide)) (by simp)
    | with_reducible apply within_State_writeCr
    | (apply within_mk <;> first | exact Or.inl (by with_reducible rfl) | exact Or.inr (Sub.bit hm (by decide)) | with_reducible rfl | rfl | exact Or.inl rfl | (simp; done) | skip)

theorem within_State_retain {s : State} (flow : Nat) (hs : Within m s₀ s) (hm : Sub 0x20000000000000000000000000000000000000000000000000000000000000000000000000000000000000000000000000000000 m)  : Within m s₀ (State.retain s flow) := by
  unfold State.retain
  repeat' first
    | with_reducible assumption
    | exact Sub.up hm (by decide)
    | exact Sub.bit hm (by decide)
    | (intro x; (first | (refine within_cut (m := m) (s₀ := s₀) x ?_ ?_; unfold x; rotate_left; clear_value x; intro hx) | skip))
    | lift_lets -underBinder
    | with_reducible refine within_State_modWeir _ ?_ (Sub.up hm (by decide)) rfl
    | with_reducible refine within_State_modWeir _ ?_ (Sub.up hm (by decide)) (by simp)
    | (apply within_mk <;> first | exact Or.inl (by with_reducible rfl) | exact Or.inr (Sub.bit hm (by decide)) | with_reducible rfl | rfl | exact Or.inl rfl | (simp; done) | skip)

theorem within_State_settle {s : State} (id : Nat) (hs : Within m s₀ s) (hm : Sub 0x20A00000000000000000000000000000000000000010080060000000000000000000000000000000000000000000000000000000 m)  : Within m s₀ (State.settle s id) := by
  unfold State.settle
  repeat' first
    | with_reducible assumption
    | exact Sub.up hm (by decide)
    | exact Sub.bit hm (by decide)
    | (intro x; (first | (refine within_cut (m := m) (s₀ := s₀) x ?_ ?_; unfold x; rotate_left; clear_value x; intro hx) | skip))
    | lift_lets -underBinder
    | with_reducible apply within_ite
    | with_reducible apply within_State_modBatch
    | with_reducible apply within_State_completionRecord
    | with_reducible apply within_State_retain
    | (refine within_of_snd (by assumption) ?_)
    | (refine within_of_fst (by assumption) ?_)
    | (split)

theorem within_State_mark {s : State} (id : Nat) (flow : Nat) (st : OweState) (spout : Nat) (hs : Within m s₀ s) (hm : Sub 0x20000000000000000000000000000000000000000000000000000000000000000000000000000000000000000000000000000000 m)  : Within m s₀ (State.mark s id flow st spout) := by
  unfold State.mark
  repeat' first
    | with_reducible assumption
    | exact Sub.up hm (by decide)
    | exact Sub.bit hm (by decide)
    | (intro x; (first | (refine within_cut (m := m) (s₀ := s₀) x ?_ ?_; unfold x; rotate_left; clear_value x; intro hx) | skip))
    | lift_lets -underBinder
    | with_reducible apply within_ite
    | with_reducible apply within_State_modBatch

theorem within_State_miss {s : State} (id : Nat) (flow : Nat) (hs : Within m s₀ s) (hm : Sub 0x20000000000000000000000000000000000000000000400040000000000000000000000000000000000000000000000000000000 m)  : Within m s₀ (State.miss s id flow) := by
  unfold State.miss
  repeat' first
    | with_reducible assumption
    | exact Sub.up hm (by decide)
    | exact Sub.bit hm (by decide)
    | (intro x; (first | (refine within_cut (m := m) (s₀ := s₀) x ?_ ?_; unfold x; rotate_left; clear_value x; intro hx) | skip))
    | lift_lets -underBinder
    | with_reducible apply within_ite
    | with_reducible apply within_State_ev
    | with_reducible apply within_State_bump
    | with_reducible apply within_State_mark
    | (refine within_of_snd (by assumption) ?_)
    | (refine within_of_fst (by assumption) ?_)
    | (split)

theorem within_State_offer {s : State} (id : Nat) (flow : Nat) (resent : Bool) (hs : Within m s₀ s) (hm : Sub 0x20400000000000000000000000000000000000000000000000000000000000000000000000000000000000000000000000000000 m)  : Within m s₀ (State.offer s id flow resent) := by
  unfold State.offer
  repeat' first
    | with_reducible assumption
    | exact Sub.up hm (by decide)
    | exact Sub.bit hm (by decide)
    | (intro x; (first | (refine within_cut (m := m) (s₀ := s₀) x ?_ ?_; unfold x; rotate_left; clear_value x; intro hx) | skip))
    | lift_lets -underBinder
    | with_reducible apply within_ite
    | with_reducible apply within_State_modFlow
    | with_reducible apply within_State_modBatch

theorem within_State_setReady {s : State} (g : Nat) (l : List Nat) (hs : Within m s₀ s) (hm : Sub 0x20000000000000000000000000000000000000000000000000000000000000000000000000000000000000000000000000000000 m)  : Within m s₀ (State.setReady s g l) := by
  unfold State.setReady
  repeat' first
    | with_reducible assumption
    | exact Sub.up hm (by decide)
    | exact Sub.bit hm (by decide)
    | (intro x; (first | (refine within_cut (m := m) (s₀ := s₀) x ?_ ?_; unfold x; rotate_left; clear_value x; intro hx) | skip))
    | lift_lets -underBinder
    | with_reducible refine within_State_modWeir _ ?_ (Sub.up hm (by decide)) rfl
    | with_reducible refine within_State_modWeir _ ?_ (Sub.up hm (by decide)) (by simp)
    | (apply within_mk <;> first | exact Or.inl (by with_reducible rfl) | exact Or.inr (Sub.bit hm (by decide)) | with_reducible rfl | rfl | exact Or.inl rfl | (simp; done) | skip)

theorem within_State_offerAll {s : State} (b : PoolBatch) (hs : Within m s₀ s) (hm : Sub 0x20400000000000000000000000000000000000000000000000000000000000000000000000000000000000000000000000000000 m)  : Within m s₀ (State.offerAll s b) := by
  unfold State.offerAll
  repeat' first
    | with_reducible assumption
    | exact Sub.up hm (by decide)
    | exact Sub.bit hm (by decide)
    | (intro x; (first | (refine within_cut (m := m) (s₀ := s₀) x ?_ ?_; unfold x; rotate_left; clear_value x; intro hx) | skip))
    | lift_lets -underBinder
    | with_reducible apply within_State_modBatch
    | with_reducible apply within_State_offer
    | with_reducible apply within_foldl

theorem within_State_offerStrict {s : State} (hs : Within m s₀ s) (hm : Sub 0x20400000000000000000000000000000000000000000000000000000000000000000000000000000000000000000000000000000 m)  : Within m s₀ (State.offerStrict s) := by
  unfold State.offerStrict
  repeat' first
    | with_reducible assumption
    | exact Sub.up hm (by decide)
    | exact Sub.bit hm (by decide)
    | (intro x; (first | (refine within_cut (m := m) (s₀ := s₀) x ?_ ?_; unfold x; rotate_left; clear_value x; intro hx) | skip))
    | lift_lets -underBinder
    | with_reducible apply within_ite
    | with_reducible apply within_State_offerAll
    | with_reducible apply within_foldl

theorem within_State_makeUnreachable {s : State} (f : Nat) (hs : Within m s₀ s) (hm : Sub 0x20400000000000000000000000000000000000000000000000000000000000000000000000000000000000000000000000000000 m)  : Within m s₀ (State.makeUnreachable s f) := by
  unfold State.makeUnreachable
  repeat' first
    | with_reducible assumption
    | exact Sub.up hm (by decide)
    | exact Sub.bit hm (by decide)
    | (intro x; (first | (refine within_cut (m := m) (s₀ := s₀) x ?_ ?_; unfold x; rotate_left; clear_value x; intro hx) | skip))
    | lift_lets -underBinder
    | with_reducible apply within_ite
    | with_reducible refine within_State_modWeir _ ?_ rfl
    | with_reducible refine within_State_modWeir _ ?_ (by simp)
    | with_reducible apply within_State_modFlow
    | with_reducible apply within_State_modBatch
    | with_reducible apply within_foldl
    | (apply within_mk <;> first | exact Or.inl (by with_reducible rfl) | exact Or.inr (Sub.bit hm (by decide)) | with_reducible rfl | rfl | exact Or.inl rfl | (simp; done) | skip)
    | (refine within_of_snd (by assumption) ?_)
    | (refine within_of_fst (by assumption) ?_)
    | (split)

theorem within_State_deliverDone {s : State} (u : SentFrame) (spout : Nat) (hs : Within m s₀ s) (hm : Sub 0x20A00000000000000000000000000000000000000010080060000000000000000000000000000000000000000000000000000000 m)  : Within m s₀ (State.deliverDone s u spout) := by
  unfold State.deliverDone
  repeat' first
    | with_reducible assumption
    | exact Sub.up hm (by decide)
    | exact Sub.bit hm (by decide)
    | (intro x; (first | (refine within_cut (m := m) (s₀ := s₀) x ?_ ?_; unfold x; rotate_left; clear_value x; intro hx) | skip))
    | lift_lets -underBinder
    | with_reducible apply within_ite
    | with_reducible apply within_State_retain
    | with_reducible apply within_State_settle
    | with_reducible apply within_State_mark
    | (refine within_of_snd (by assumption) ?_)
    | (refine within_of_fst (by assumption) ?_)
    | (split)

theorem within_State_frameOut (spout : Nat) (flow : Nat) (b : PoolBatch) (d : Delivery) (seq : Nat) {s : State} (hs : Within m s₀ s) (hm : Sub 0x10400000000000000000000000000000000000000000000000000000000000000000000000000000000000000000000000000004 m) : Within m s₀ (State.frameOut s spout flow b d seq).2 := by
  unfold State.frameOut
  repeat' first
    | with_reducible assumption
    | exact Sub.up hm (by decide)
    | exact Sub.bit hm (by decide)
    | (intro x; (first | (refine within_cut (m := m) (s₀ := s₀) x ?_ ?_; unfold x; rotate_left; clear_value x; intro hx) | skip))
    | lift_lets -underBinder
    | with_reducible apply within_ite
    | with_reducible apply within_State_fresh
    | with_reducible apply within_State_record
    | (refine within_of_snd (by assumption) ?_)
    | (refine within_of_fst (by assumption) ?_)
    | (split)
    | (dsimp -zeta only)

theorem within_State_sendAgain {s : State} (spout : Nat) (l : List SentFrame) (hs : Within m s₀ s) (hm : Sub 0x200000000000000000000000000000000000000000000000400000000000000000000000000000000000000000000000000000 m)  : Within m s₀ (State.sendAgain s spout l) := by
  unfold State.sendAgain
  repeat' first
    | with_reducible assumption
    | exact Sub.up hm (by decide)
    | exact Sub.bit hm (by decide)
    | (intro x; (first | (refine within_cut (m := m) (s₀ := s₀) x ?_ ?_; unfold x; rotate_left; clear_value x; intro hx) | skip))
    | lift_lets -underBinder
    | with_reducible apply within_State_bumpi
    | with_reducible apply within_foldl
    | with_reducible apply within_ite
    | with_reducible apply within_State_emit
    | (refine within_of_snd (by assumption) ?_)
    | (refine within_of_fst (by assumption) ?_)
    | (split)

theorem within_State_flushCr {s : State} (h : Within m s₀ s) (n : Nat) (hm : Sub 0x20A00000000000000000000000000000000000000000080020000000000000000000000000000000000000000000000000000000 m) : Within m s₀ (s.flushCr n) := by
  induction n generalizing s with
  | zero => exact h
  | succ n ih =>
    unfold State.flushCr
    split
    · exact h
    · apply within_ite <;> intro _
      · exact ih (within_State_writeCr _ (within_State_modWeir _ h (Sub.up hm (by decide)) rfl) (Sub.up hm (by decide)))
      · exact h

end Sys2Proof.Machine
end

