-- ==== Sys2Proof/Laws/WithinSpouts.lean ====
section
/-! SUPPORT. What the operations of Machine/Spouts.lean can change, and that they keep a state sound. -/
namespace Sys2Proof.Machine

variable {m : Nat} {s₀ : State}

theorem within_State_deliverAll {s : State} (l : List SentFrame) (spout : Nat) (hs : Within m s₀ s) (hm : Sub 0x20A00000000000000000000000000000000000000010080060000000000000000000000000000000000000000000000000000000 m)  : Within m s₀ (State.deliverAll s l spout) := by
  unfold State.deliverAll
  repeat' first
    | with_reducible assumption
    | exact Sub.up hm (by decide)
    | exact Sub.bit hm (by decide)
    | (intro x; (first | (refine within_cut (m := m) (s₀ := s₀) x ?_ ?_; unfold x; rotate_left; clear_value x; intro hx) | skip))
    | lift_lets -underBinder
    | with_reducible apply within_State_deliverDone
    | with_reducible apply within_foldl

theorem within_roceAckEffect (f : Nat) (psn : Nat) {s : State} (hs : Within m s₀ s) (hm : Sub 0x20E00000000000000000000000000000000000000010080260010000000000000000000000000000000000000000000000000000 m)  : Within m s₀ (roceAckEffect f psn s) := by
  unfold roceAckEffect
  repeat' first
    | with_reducible assumption
    | exact Sub.up hm (by decide)
    | exact Sub.bit hm (by decide)
    | (intro x; (first | (refine within_cut (m := m) (s₀ := s₀) x ?_ ?_; unfold x; rotate_left; clear_value x; intro hx) | skip))
    | lift_lets -underBinder
    | with_reducible apply within_ite
    | with_reducible apply within_State_deliverAll
    | with_reducible apply within_State_setFlow
    | with_reducible apply within_State_showWeir

theorem within_nakSequenceEffect (f : Nat) (psn : Nat) {s : State} (hs : Within m s₀ s) (hm : Sub 0x10600000000000000000000000000000000000000000000000400000000000000000000000000000000000000000000000000004 m)  : Within m s₀ (nakSequenceEffect f psn s) := by
  unfold nakSequenceEffect
  repeat' first
    | with_reducible assumption
    | exact Sub.up hm (by decide)
    | exact Sub.bit hm (by decide)
    | (intro x; (first | (refine within_cut (m := m) (s₀ := s₀) x ?_ ?_; unfold x; rotate_left; clear_value x; intro hx) | skip))
    | lift_lets -underBinder
    | with_reducible apply within_ite
    | with_reducible apply within_State_sendAgain

theorem within_ackTimeoutEffect (f : Nat) {s : State} (hs : Within m s₀ s) (hm : Sub 0x30600000000000000000000000000000000000000000000220410000000000000000000000000000000000000000000000000004 m)  : Within m s₀ (ackTimeoutEffect f s) := by
  unfold ackTimeoutEffect
  repeat' first
    | with_reducible assumption
    | exact Sub.up hm (by decide)
    | exact Sub.bit hm (by decide)
    | (intro x; (first | (refine within_cut (m := m) (s₀ := s₀) x ?_ ?_; unfold x; rotate_left; clear_value x; intro hx) | skip))
    | lift_lets -underBinder
    | with_reducible apply within_ite
    | with_reducible apply within_State_modFlow
    | with_reducible apply within_State_showWeir
    | with_reducible apply within_State_makeUnreachable
    | with_reducible apply within_State_sendAgain

theorem within_rnrNakEffect (f : Nat) {s : State} (hs : Within m s₀ s) (hm : Sub 0x20400000000000000000000000000000000000000000000220010000000000000000000000000000000000000000000000000000 m)  : Within m s₀ (rnrNakEffect f s) := by
  unfold rnrNakEffect
  repeat' first
    | with_reducible assumption
    | exact Sub.up hm (by decide)
    | exact Sub.bit hm (by decide)
    | (intro x; (first | (refine within_cut (m := m) (s₀ := s₀) x ?_ ?_; unfold x; rotate_left; clear_value x; intro hx) | skip))
    | lift_lets -underBinder
    | with_reducible apply within_ite
    | with_reducible apply within_State_modFlow
    | with_reducible apply within_State_showWeir

theorem within_rnrRetryEffect (f : Nat) {s : State} (hs : Within m s₀ s) (hm : Sub 0x30600000000000000000000000000000000000000000000220410000000000000000000000000000000000000000000000000004 m)  : Within m s₀ (rnrRetryEffect f s) := by
  unfold rnrRetryEffect
  repeat' first
    | with_reducible assumption
    | exact Sub.up hm (by decide)
    | exact Sub.bit hm (by decide)
    | (intro x; (first | (refine within_cut (m := m) (s₀ := s₀) x ?_ ?_; unfold x; rotate_left; clear_value x; intro hx) | skip))
    | lift_lets -underBinder
    | with_reducible apply within_ite
    | with_reducible apply within_State_modFlow
    | with_reducible apply within_State_showWeir
    | with_reducible apply within_State_sendAgain

theorem within_remoteErrorEffect (f : Nat) {s : State} (hs : Within m s₀ s) (hm : Sub 0x20400000000000000000000000000000000000000000000220030000000000000000000000000000000000000000000000000000 m)  : Within m s₀ (remoteErrorEffect f s) := by
  unfold remoteErrorEffect
  repeat' first
    | with_reducible assumption
    | exact Sub.up hm (by decide)
    | exact Sub.bit hm (by decide)
    | intro _
    | with_reducible apply within_ite
    | with_reducible apply within_State_evi
    | with_reducible apply within_State_showWeir
    | with_reducible apply within_State_makeUnreachable

theorem within_cnpEffect (f : Nat) {s : State} (hs : Within m s₀ s) (hm : Sub 0x20400000000000000000000000000000000000000000000002000000000000000000000000000000000000000000000000000000 m)  : Within m s₀ (cnpEffect f s) := by
  unfold cnpEffect
  repeat' first
    | with_reducible assumption
    | exact Sub.up hm (by decide)
    | exact Sub.bit hm (by decide)
    | (intro x; (first | (refine within_cut (m := m) (s₀ := s₀) x ?_ ?_; unfold x; rotate_left; clear_value x; intro hx) | skip))
    | lift_lets -underBinder
    | with_reducible apply within_ite
    | with_reducible apply within_State_bumpi
    | with_reducible apply within_State_modFlow

theorem within_cnpHoldEndEffect (f : Nat) {s : State} (hs : Within m s₀ s) (hm : Sub 0x20400000000000000000000000000000000000000000000000000000000000000000000000000000000000000000000000000000 m)  : Within m s₀ (cnpHoldEndEffect f s) := by
  unfold cnpHoldEndEffect
  repeat' first
    | with_reducible assumption
    | exact Sub.up hm (by decide)
    | exact Sub.bit hm (by decide)
    | (intro x; (first | (refine within_cut (m := m) (s₀ := s₀) x ?_ ?_; unfold x; rotate_left; clear_value x; intro hx) | skip))
    | lift_lets -underBinder
    | with_reducible apply within_ite
    | with_reducible apply within_State_modFlow

theorem within_runnelAckEffect (k : Nat) (lseq : Nat) {s : State} (hs : Within m s₀ s) (hm : Sub 0x20A00000000000000000000000000000000000000010080260010000000000000000000000000000000000000000000000000000 m)  : Within m s₀ (runnelAckEffect k lseq s) := by
  unfold runnelAckEffect
  repeat' first
    | with_reducible assumption
    | exact Sub.up hm (by decide)
    | exact Sub.bit hm (by decide)
    | (intro x; (first | (refine within_cut (m := m) (s₀ := s₀) x ?_ ?_; unfold x; rotate_left; clear_value x; intro hx) | skip))
    | lift_lets -underBinder
    | with_reducible apply within_ite
    | with_reducible apply within_State_deliverAll
    | with_reducible apply within_State_modSpout
    | with_reducible apply within_State_showWeir

theorem within_runnelNakEffect (k : Nat) (lseq : Nat) {s : State} (hs : Within m s₀ s) (hm : Sub 0x10600000000000000000000000000000000000000000000000400000000000000000000000000000000000000000000000000004 m)  : Within m s₀ (runnelNakEffect k lseq s) := by
  unfold runnelNakEffect
  repeat' first
    | with_reducible assumption
    | exact Sub.up hm (by decide)
    | exact Sub.bit hm (by decide)
    | (intro x; (first | (refine within_cut (m := m) (s₀ := s₀) x ?_ ?_; unfold x; rotate_left; clear_value x; intro hx) | skip))
    | lift_lets -underBinder
    | with_reducible apply within_ite
    | with_reducible apply within_State_sendAgain

theorem within_retryTimeoutEffect (k : Nat) {s : State} (hs : Within m s₀ s) (hm : Sub 0x10600000000000000000000000000000000000000000000000400000000000000000000000000000000000000000000000000004 m)  : Within m s₀ (retryTimeoutEffect k s) := by
  unfold retryTimeoutEffect
  repeat' first
    | with_reducible assumption
    | exact Sub.up hm (by decide)
    | exact Sub.bit hm (by decide)
    | intro _
    | with_reducible apply within_ite
    | with_reducible apply within_State_sendAgain

theorem within_creditEffect (k : Nat) (ep : Nat) (total : Nat) {s : State} (hs : Within m s₀ s) (hm : Sub 0x20000000000000000000000000000000000000000000000220010000000000000000000000000000000000000000000000000000 m)  : Within m s₀ (creditEffect k ep total s) := by
  unfold creditEffect
  repeat' first
    | with_reducible assumption
    | exact Sub.up hm (by decide)
    | exact Sub.bit hm (by decide)
    | (intro x; (first | (refine within_cut (m := m) (s₀ := s₀) x ?_ ?_; unfold x; rotate_left; clear_value x; intro hx) | skip))
    | lift_lets -underBinder
    | with_reducible apply within_ite
    | with_reducible apply within_State_modSpout
    | with_reducible apply within_State_showWeir

theorem within_controlTickEffect (x : LinkTick) {s : State} (hs : Within m s₀ s) (hm : Sub 0x600000000000000000000000000000000000000000000001800000000000000000000000000000000000000000000000000000 m) : Within m s₀ (controlTickEffect x s) := by
  unfold controlTickEffect
  repeat' first
    | with_reducible assumption
    | exact Sub.up hm (by decide)
    | exact Sub.bit hm (by decide)
    | (intro x; (first | (refine within_cut (m := m) (s₀ := s₀) x ?_ ?_; unfold x; rotate_left; clear_value x; intro hx) | skip))
    | lift_lets -underBinder
    | with_reducible apply within_ite
    | with_reducible apply within_State_fresh
    | with_reducible apply within_State_bumpi
    | with_reducible apply within_State_sendControl
    | (refine within_of_snd (by assumption) ?_)
    | (refine within_of_fst (by assumption) ?_)
    | (split)

theorem within_State_leaveSpout {s : State} (f : Nat) (k : Nat) (hs : Within m s₀ s) (hm : Sub 0x20400000000000000000000000000000000000000000000000000000000000000000000000000000000000000000000000000000 m)  : Within m s₀ (State.leaveSpout s f k) := by
  unfold State.leaveSpout
  repeat' first
    | with_reducible assumption
    | exact Sub.up hm (by decide)
    | exact Sub.bit hm (by decide)
    | (intro x; (first | (refine within_cut (m := m) (s₀ := s₀) x ?_ ?_; unfold x; rotate_left; clear_value x; intro hx) | skip))
    | lift_lets -underBinder
    | with_reducible apply within_ite
    | with_reducible apply within_State_setFlow
    | with_reducible apply within_State_makeUnreachable

theorem within_State_loseLink {s : State} (k : Nat) (hs : Within m s₀ s) (hm : Sub 0x1020600000000000000000000000606090000000000000000220030000000000000000000000000000000000000000000000000000 m)  : Within m s₀ (State.loseLink s k) := by
  unfold State.loseLink
  repeat' first
    | with_reducible assumption
    | exact Sub.up hm (by decide)
    | exact Sub.bit hm (by decide)
    | (intro x; (first | (refine within_cut (m := m) (s₀ := s₀) x ?_ ?_; unfold x; rotate_left; clear_value x; intro hx) | skip))
    | lift_lets -underBinder
    | with_reducible apply within_ite
    | with_reducible apply within_State_checkHeld
    | with_reducible apply within_State_puti
    | with_reducible apply within_State_evi
    | with_reducible apply within_State_each
    | with_reducible apply within_State_leaveSpout
    | with_reducible apply within_State_trigger
    | with_reducible apply within_State_modSpout
    | with_reducible apply within_State_showWeir
    | with_reducible apply within_foldl

theorem within_spoutDownEffect (k : Nat) {s : State} (hs : Within m s₀ s) (hm : Sub 0x1820600000000000000000000000606090000000000000000220030000000000000000000000000000000000000000000000000000 m)  : Within m s₀ (spoutDownEffect k s) := by
  unfold spoutDownEffect
  repeat' first
    | with_reducible assumption
    | exact Sub.up hm (by decide)
    | exact Sub.bit hm (by decide)
    | intro _
    | with_reducible apply within_ite
    | with_reducible apply within_State_logFault
    | with_reducible apply within_State_loseLink

theorem within_State_train {s : State} (k : Nat) (hs : Within m s₀ s) (hm : Sub 0x10000000000000000000000000000000000000000000000000000 m)  : Within m s₀ (State.train s k) := by
  unfold State.train
  repeat' first
    | with_reducible assumption
    | exact Sub.up hm (by decide)
    | exact Sub.bit hm (by decide)
    | intro _
    | with_reducible apply within_State_puti

theorem within_trainingStartEffect (k : Nat) {s : State} (hs : Within m s₀ s) (hm : Sub 0x10000000000000000000000000000000000000000000000000000 m)  : Within m s₀ (trainingStartEffect k s) := by
  unfold trainingStartEffect
  repeat' first
    | with_reducible assumption
    | exact Sub.up hm (by decide)
    | exact Sub.bit hm (by decide)
    | intro _
    | with_reducible apply within_ite
    | with_reducible apply within_State_train

theorem within_spoutUpEffect (k : Nat) {s : State} (hs : Within m s₀ s) (hm : Sub 0x20000000000000000000000000000000000000000000000220030000000000000000000000000000000000000000000000000000 m)  : Within m s₀ (spoutUpEffect k s) := by
  unfold spoutUpEffect
  repeat' first
    | with_reducible assumption
    | exact Sub.up hm (by decide)
    | exact Sub.bit hm (by decide)
    | (intro x; (first | (refine within_cut (m := m) (s₀ := s₀) x ?_ ?_; unfold x; rotate_left; clear_value x; intro hx) | skip))
    | lift_lets -underBinder
    | with_reducible apply within_ite
    | with_reducible apply within_State_checkHeld
    | with_reducible apply within_State_puti
    | with_reducible apply within_State_evi
    | with_reducible apply within_State_modSpout
    | with_reducible apply within_State_showWeir

theorem within_flowRejoinEffect (f : Nat) {s : State} (hs : Within m s₀ s) (hm : Sub 0x20400000000000000000000000000000000000000000000220030000000000000000000000000000000000000000000000000000 m)  : Within m s₀ (flowRejoinEffect f s) := by
  unfold flowRejoinEffect
  repeat' first
    | with_reducible assumption
    | exact Sub.up hm (by decide)
    | exact Sub.bit hm (by decide)
    | (intro x; (first | (refine within_cut (m := m) (s₀ := s₀) x ?_ ?_; unfold x; rotate_left; clear_value x; intro hx) | skip))
    | lift_lets -underBinder
    | with_reducible apply within_ite
    | with_reducible apply within_State_checkHeld
    | with_reducible apply within_State_setFlow
    | with_reducible apply within_State_showWeir

theorem within_State_sptCtrlOne {s : State} (k : Nat) (retrain : Bool) (hs : Within m s₀ s) (hm : Sub 0x1020600000000000000000000000606090000000000000000220030000000000000000000000000000000000000000000000000000 m)  : Within m s₀ (State.sptCtrlOne s k retrain) := by
  unfold State.sptCtrlOne
  repeat' first
    | with_reducible assumption
    | exact Sub.up hm (by decide)
    | exact Sub.bit hm (by decide)
    | intro _
    | with_reducible apply within_ite
    | with_reducible apply within_State_loseLink
    | with_reducible apply within_State_train

theorem within_State_setLanes {s : State} (k : Nat) (lanes : Nat) (hs : Within m s₀ s) (hm : Sub 0x80000000000000000000000000000000000000000000000000010000000000000000000000000000000000000000000000000000 m)  : Within m s₀ (State.setLanes s k lanes) := by
  unfold State.setLanes
  repeat' first
    | with_reducible assumption
    | exact Sub.up hm (by decide)
    | exact Sub.bit hm (by decide)
    | (intro x; (first | (refine within_cut (m := m) (s₀ := s₀) x ?_ ?_; unfold x; rotate_left; clear_value x; intro hx) | skip))
    | lift_lets -underBinder
    | with_reducible apply within_State_puti
    | (apply within_mk <;> first | exact Or.inl (by with_reducible rfl) | exact Or.inr (Sub.bit hm (by decide)) | with_reducible rfl | rfl | exact Or.inl rfl | (simp; done) | skip)

theorem within_State_sendLaneMap {s : State} (k : Nat) (lanes : Nat) (hs : Within m s₀ s) (hm : Sub 0x20200000000000000000000000000000000000000000000000000000000000000000000000000000000000000000000000000000 m)  : Within m s₀ (State.sendLaneMap s k lanes) := by
  unfold State.sendLaneMap
  repeat' first
    | with_reducible assumption
    | exact Sub.up hm (by decide)
    | exact Sub.bit hm (by decide)
    | (intro x; (first | (refine within_cut (m := m) (s₀ := s₀) x ?_ ?_; unfold x; rotate_left; clear_value x; intro hx) | skip))
    | lift_lets -underBinder
    | with_reducible apply within_State_modSpout
    | with_reducible apply within_ite
    | with_reducible apply within_State_sendControl
    | (refine within_of_snd (by assumption) ?_)
    | (refine within_of_fst (by assumption) ?_)
    | (split)

theorem within_State_laneDropped {s : State} (k : Nat) (hs : Within m s₀ s) (hm : Sub 0x810600000000000000000000000000000000000000000000000420000000000000000000000000000000000000000000000000004 m)  : Within m s₀ (State.laneDropped s k) := by
  unfold State.laneDropped
  repeat' first
    | with_reducible assumption
    | exact Sub.up hm (by decide)
    | exact Sub.bit hm (by decide)
    | (intro x; (first | (refine within_cut (m := m) (s₀ := s₀) x ?_ ?_; unfold x; rotate_left; clear_value x; intro hx) | skip))
    | lift_lets -underBinder
    | with_reducible apply within_ite
    | with_reducible apply within_State_evi
    | with_reducible apply within_State_logFault
    | with_reducible apply within_State_sendAgain

theorem within_laneFaultEffect (k : Nat) (lane : Nat) {s : State} (hs : Within m s₀ s) (hm : Sub 0x18B0600000000000000000000000606090000000000000000220430000000000000000000000000000000000000000000000000004 m)  : Within m s₀ (laneFaultEffect k lane s) := by
  unfold laneFaultEffect
  repeat' first
    | with_reducible assumption
    | exact Sub.up hm (by decide)
    | exact Sub.bit hm (by decide)
    | (intro x; (first | (refine within_cut (m := m) (s₀ := s₀) x ?_ ?_; unfold x; rotate_left; clear_value x; intro hx) | skip))
    | lift_lets -underBinder
    | with_reducible apply within_ite
    | with_reducible apply within_spoutDownEffect
    | with_reducible apply within_State_setLanes
    | with_reducible apply within_State_sendLaneMap
    | with_reducible apply within_State_laneDropped

theorem within_laneRetrainedEffect (k : Nat) (lane : Nat) {s : State} (hs : Within m s₀ s) (hm : Sub 0xA0200000000000000000000000000000000000000000000000030000000000000000000000000000000000000000000000000000 m)  : Within m s₀ (laneRetrainedEffect k lane s) := by
  unfold laneRetrainedEffect
  repeat' first
    | with_reducible assumption
    | exact Sub.up hm (by decide)
    | exact Sub.bit hm (by decide)
    | (intro x; (first | (refine within_cut (m := m) (s₀ := s₀) x ?_ ?_; unfold x; rotate_left; clear_value x; intro hx) | skip))
    | lift_lets -underBinder
    | with_reducible apply within_ite
    | with_reducible apply within_State_evi
    | with_reducible apply within_State_setLanes
    | with_reducible apply within_State_sendLaneMap

theorem within_laneMapEffect (k : Nat) (lanes : Nat) (epoch : Nat) {s : State} (hs : Within m s₀ s) (hm : Sub 0x18B0600000000000000000000000606090000000000000000220430000000000000000000000000000000000000000000000000004 m)  : Within m s₀ (laneMapEffect k lanes epoch s) := by
  unfold laneMapEffect
  repeat' first
    | with_reducible assumption
    | exact Sub.up hm (by decide)
    | exact Sub.bit hm (by decide)
    | (intro x; (first | (refine within_cut (m := m) (s₀ := s₀) x ?_ ?_; unfold x; rotate_left; clear_value x; intro hx) | skip))
    | lift_lets -underBinder
    | with_reducible apply within_ite
    | with_reducible apply within_State_evi
    | with_reducible apply within_spoutDownEffect
    | with_reducible apply within_State_setLanes
    | with_reducible apply within_State_laneDropped
    | with_reducible apply within_State_modSpout

theorem within_arpEffect (k : Nat) (address : Nat) {s : State} (hs : Within m s₀ s) (hm : Sub 0x200000000000000000000000000000000000000000000000000000000000000000000000000000000000000000000000000000 m)  : Within m s₀ (arpEffect k address s) := by
  unfold arpEffect
  repeat' first
    | with_reducible assumption
    | exact Sub.up hm (by decide)
    | exact Sub.bit hm (by decide)
    | (intro x; (first | (refine within_cut (m := m) (s₀ := s₀) x ?_ ?_; unfold x; rotate_left; clear_value x; intro hx) | skip))
    | lift_lets -underBinder
    | with_reducible apply within_ite
    | with_reducible apply within_State_emit

end Sys2Proof.Machine
end

