-- ==== Sys2Proof/Laws/WithinTasks.lean ====
section
/-! SUPPORT. What the operations of Machine/Tasks.lean can change, and that they keep a state sound. -/
namespace Sys2Proof.Machine

variable {m : Nat} {s₀ : State}

/-- The registers of the function-level reset domain. -/
theorem Sub.func {a : Nat} (hm : Sub a m) (h : Sub 0xFFFFFFC0000000000000000000000 a) (r : Reg) (hr : r.place.dom.level ≤ 0) : m.testBit r.ctorIdx = true := by
  refine Sub.bit (Sub.up hm h) ?_
  revert hr
  cases r <;> first | exact fun _ => rfl | exact fun h => absurd h (by decide)

/-- The registers of the device reset domain and of the one below it. -/
theorem Sub.device {a : Nat} (hm : Sub a m) (h : Sub 0xFFF001FFFFFFFFFFFFFFFFFFE001FFFFFFFFFFFFFFFFFFFFFFFFFFFFFFFFFFFFFFFFFFFFFFFFFFFFFFFFFFFFF a) (r : Reg) (hr : r.place.dom.level ≤ 1) : m.testBit r.ctorIdx = true := by
  refine Sub.bit (Sub.up hm h) ?_
  revert hr
  cases r <;> first | exact fun _ => rfl | exact fun h => absurd h (by decide)

theorem word_filter {s : State} (hs : Sound s) (d : Dom) (r : Reg) (i : Nat) (hr : ¬ r.place.dom.level ≤ d.level) (hi : i < r.entries) :
    ({ s with regs := s.regs.filter (fun e => decide (d.level < e.1.1.place.dom.level)) } : State).word r i = s.word r i := by
  simp only [State.word, assocRead]
  rw [assocGet_filter]
  intro e he hk
  have h1 := hs.entries e he
  obtain ⟨⟨r', j⟩, v⟩ := e
  obtain ⟨rfl, rfl⟩ := regOrd_inj (Nat.lt_of_lt_of_le hi r.entries_le) (Nat.lt_of_lt_of_le h1 r'.entries_le) hk
  simpa using hr

theorem within_State_resetRegs {s : State} (d : Dom) (h : Within m s₀ s)
    (hd : ∀ r : Reg, r.place.dom.level ≤ d.level → m.testBit r.ctorIdx = true) : Within m s₀ (s.resetRegs d) := by
  refine h.trans ⟨{ h.sound with
    regs := assocWf_filter _ _ h.sound.regs, entries := fun e he => h.sound.entries e (List.mem_filter.1 he).1 }, ?_⟩
  intro p hp
  cases p <;> simp only [Region.same] <;> try rfl
  case memory => exact fun _ => rfl
  case reg r =>
    intro i hi
    refine word_filter h.sound d r i (fun hr => ?_) hi
    simp only [Region.bit, hd r hr] at hp
    cases hp

theorem within_goEffect (q : Nat) (w : Word) {s : State} (hs : Within m s₀ s) (hm : Sub 0x1000000000000000000000000000000000000000000000000000000000000000000000000080280000000000000000000000000 m)  : Within m s₀ (goEffect q w s) := by
  unfold goEffect
  repeat' first
    | with_reducible assumption
    | exact Sub.up hm (by decide)
    | exact Sub.bit hm (by decide)
    | (intro x; (first | (refine within_cut (m := m) (s₀ := s₀) x ?_ ?_; unfold x; rotate_left; clear_value x; intro hx) | skip))
    | lift_lets -underBinder
    | with_reducible apply within_ite
    | with_reducible apply within_State_wake
    | with_reducible apply within_State_puti
    | with_reducible apply within_State_evi
    | with_reducible apply within_State_bump

theorem within_fetchFailed (q : Nat) (reason : Nat) {s : State} (hs : Within m s₀ s) (hm : Sub 0x200000000000000000000000000000000000000000000000000000000000000000000000000203880000000000000000000000 m)  : Within m s₀ (fetchFailed q reason s) := by
  unfold fetchFailed
  repeat' first
    | with_reducible assumption
    | exact Sub.up hm (by decide)
    | exact Sub.bit hm (by decide)
    | (intro x; (first | (refine within_cut (m := m) (s₀ := s₀) x ?_ ?_; unfold x; rotate_left; clear_value x; intro hx) | skip))
    | lift_lets -underBinder
    | with_reducible apply within_State_dmaError
    | with_reducible apply within_State_puti
    | with_reducible apply within_State_evi

theorem within_fetchEffect (entry : Option (List Byte)) (list : List Byte) (reason : Nat) {s : State} (hs : Within m s₀ s) (hm : Sub 0x1000E00000000000000000000000604000000000000000000000000000000000000000000000010263880000000000000000000000 m)  : Within m s₀ (fetchEffect entry list reason s) := by
  unfold fetchEffect
  repeat' first
    | with_reducible assumption
    | exact Sub.up hm (by decide)
    | exact Sub.bit hm (by decide)
    | (intro x; (first | (refine within_cut (m := m) (s₀ := s₀) x ?_ ?_; unfold x; rotate_left; clear_value x; intro hx) | skip))
    | lift_lets -underBinder
    | with_reducible apply within_ite
    | with_reducible apply within_State_showTasks
    | with_reducible apply within_State_puti
    | with_reducible apply within_State_trace
    | with_reducible apply within_fetchFailed
    | with_reducible apply within_State_dmaError
    | (refine within_of_snd (by assumption) ?_)
    | (refine within_of_fst (by assumption) ?_)
    | (split)
    | (apply within_mk <;> first | exact Or.inl (by with_reducible rfl) | exact Or.inr (Sub.bit hm (by decide)) | with_reducible rfl | rfl | exact Or.inl rfl | (simp; done) | skip)

theorem within_resetQueueIfDone (q : Nat) {s : State} (hs : Within m s₀ s) (hm : Sub 0x800000000000000000000000000000000000000000000000000000000000000000000000090200000000000000000000000000 m)  : Within m s₀ (resetQueueIfDone q s) := by
  unfold resetQueueIfDone
  repeat' first
    | with_reducible assumption
    | exact Sub.up hm (by decide)
    | exact Sub.bit hm (by decide)
    | (intro x; (first | (refine within_cut (m := m) (s₀ := s₀) x ?_ ?_; unfold x; rotate_left; clear_value x; intro hx) | skip))
    | lift_lets -underBinder
    | with_reducible apply within_ite
    | with_reducible apply within_State_modQueue
    | with_reducible apply within_State_puti

theorem within_writeCompletion (t : Task) (status : Nat) (result : Nat) {s : State} (hs : Within m s₀ s) (hm : Sub 0xA00000000000000000000000000000000000000000000000000000000000000000000000000200000000000000000000000000 m)  : Within m s₀ (writeCompletion t status result s) := by
  unfold writeCompletion
  repeat' first
    | with_reducible assumption
    | exact Sub.up hm (by decide)
    | exact Sub.bit hm (by decide)
    | (intro x; (first | (refine within_cut (m := m) (s₀ := s₀) x ?_ ?_; unfold x; rotate_left; clear_value x; intro hx) | skip))
    | lift_lets -underBinder
    | with_reducible apply within_ite
    | with_reducible apply within_State_signal
    | with_reducible apply within_State_modQueue
    | with_reducible apply within_State_puti
    | with_reducible apply within_State_emit
    | (refine within_of_snd (by assumption) ?_)
    | (refine within_of_fst (by assumption) ?_)
    | (split)

theorem within_completeEffect (t : Nat) {s : State} (hs : Within m s₀ s) (hm : Sub 0x1000E00000000000000000000000604000000000000000000000000000000000000000000000090260000000000000000000000000 m)  : Within m s₀ (completeEffect t s) := by
  unfold completeEffect
  repeat' first
    | with_reducible assumption
    | exact Sub.up hm (by decide)
    | exact Sub.bit hm (by decide)
    | (intro x; (first | (refine within_cut (m := m) (s₀ := s₀) x ?_ ?_; unfold x; rotate_left; clear_value x; intro hx) | skip))
    | lift_lets -underBinder
    | with_reducible apply within_ite
    | with_reducible apply within_State_setTasks
    | with_reducible apply within_State_showTasks
    | with_reducible apply within_State_trace
    | with_reducible apply within_resetQueueIfDone
    | with_reducible apply within_writeCompletion
    | (refine within_of_snd (by assumption) ?_)
    | (refine within_of_fst (by assumption) ?_)
    | (split)

theorem within_coalesceEffect (q : Nat) {s : State} (hs : Within m s₀ s) (hm : Sub 0xA00000000000000000000000000000000000000000000000000000000000000000000000000000000000000000000000000000 m)  : Within m s₀ (coalesceEffect q s) := by
  unfold coalesceEffect
  repeat' first
    | with_reducible assumption
    | exact Sub.up hm (by decide)
    | exact Sub.bit hm (by decide)
    | (intro x; (first | (refine within_cut (m := m) (s₀ := s₀) x ?_ ?_; unfold x; rotate_left; clear_value x; intro hx) | skip))
    | lift_lets -underBinder
    | with_reducible apply within_ite
    | with_reducible apply within_State_signal
    | with_reducible apply within_State_modQueue

theorem within_stallEffect (posted : Bool) {s : State} (hs : Within m s₀ s) (hm : Sub 0x600800000000000000000000000000000000000000000000000000000000001780000000000000060080000000000008000000000 m)  : Within m s₀ (stallEffect posted s) := by
  unfold stallEffect
  repeat' first
    | with_reducible assumption
    | exact Sub.up hm (by decide)
    | exact Sub.bit hm (by decide)
    | (intro x; (first | (refine within_cut (m := m) (s₀ := s₀) x ?_ ?_; unfold x; rotate_left; clear_value x; intro hx) | skip))
    | lift_lets -underBinder
    | with_reducible apply within_ite
    | with_reducible apply within_State_setTasks
    | with_reducible apply within_State_showTasks
    | with_reducible apply within_State_dropPartial
    | with_reducible apply within_State_ev
    | with_reducible apply within_State_dropLanded
    | with_reducible apply within_foldl
    | with_reducible apply within_State_vocabUndone
    | (refine within_of_snd (by assumption) ?_)
    | (refine within_of_fst (by assumption) ?_)
    | (split)

theorem within_queueCtrl (q : Nat) (w : Word) {s : State} (hs : Within m s₀ s) (hm : Sub 0x800000000000000000000000000000000000000000000000000000000000000000000000090300000000000000000000000000 m)  : Within m s₀ (queueCtrl q w s) := by
  unfold queueCtrl
  repeat' first
    | with_reducible assumption
    | exact Sub.up hm (by decide)
    | exact Sub.bit hm (by decide)
    | (intro x; (first | (refine within_cut (m := m) (s₀ := s₀) x ?_ ?_; unfold x; rotate_left; clear_value x; intro hx) | skip))
    | lift_lets -underBinder
    | with_reducible apply within_ite
    | with_reducible apply within_State_modQueue
    | with_reducible apply within_State_setTasks
    | with_reducible apply within_State_puti
    | with_reducible apply within_State_swWrite
    | with_reducible apply within_resetQueueIfDone
    | (refine within_of_snd (by assumption) ?_)
    | (refine within_of_fst (by assumption) ?_)
    | (split)

theorem within_cqHeadEffect (q : Nat) (w : Word) {s : State} (hs : Within m s₀ s) (hm : Sub 0x8000000000000000000000000000000000000000000000000000000000000000000000000B0200000000000000000000000000 m)  : Within m s₀ (cqHeadEffect q w s) := by
  unfold cqHeadEffect
  repeat' first
    | with_reducible assumption
    | exact Sub.up hm (by decide)
    | exact Sub.bit hm (by decide)
    | (intro x; (first | (refine within_cut (m := m) (s₀ := s₀) x ?_ ?_; unfold x; rotate_left; clear_value x; intro hx) | skip))
    | lift_lets -underBinder
    | with_reducible apply within_ite
    | with_reducible apply within_State_modQueue
    | with_reducible apply within_State_swWrite
    | with_reducible apply within_resetQueueIfDone

theorem within_functionReset {s : State} (hs : Within m s₀ s) (hm : Sub 0x6008000000000000000000000000000000000000000000000000000000000010000000000000FFFFFFC0000000000008000000000 m)  : Within m s₀ (functionReset s) := by
  unfold functionReset
  repeat' first
    | with_reducible assumption
    | exact Sub.up hm (by decide)
    | exact Sub.bit hm (by decide)
    | exact Sub.func hm (by decide) _ (by assumption)
    | exact Sub.device hm (by decide) _ (by assumption)
    | (intro x; (first | (refine within_cut (m := m) (s₀ := s₀) x ?_ ?_; unfold x; rotate_left; clear_value x; intro hx) | skip))
    | lift_lets -underBinder
    | with_reducible apply within_State_showTasks
    | with_reducible apply within_State_dropPartial
    | with_reducible apply within_State_setWord
    | with_reducible apply within_State_put
    | with_reducible apply within_State_resetRegs
    | with_reducible apply within_ite
    | with_reducible apply within_State_dropLanded
    | (apply within_mk <;> first | exact Or.inl (by with_reducible rfl) | exact Or.inr (Sub.bit hm (by decide)) | with_reducible rfl | rfl | exact Or.inl rfl | exact (Sound.queues (Within.sound (by assumption))).symm | exact (Sound.caches (Within.sound (by assumption))).symm | exact (Sound.watch (Within.sound (by assumption))).symm | (simp; done) | skip)
    | (apply within_mk <;> first | exact Or.inl (by with_reducible rfl) | exact Or.inr (Sub.bit hm (by decide)) | with_reducible rfl | rfl | exact Or.inl rfl | (simp; done) | skip)
    | (refine within_of_snd (by assumption) ?_)
    | (refine within_of_fst (by assumption) ?_)
    | (split)

theorem within_State_openIntake {s : State} (hs : Within m s₀ s) (hm : Sub 0x40080000000000000000000000 m)  : Within m s₀ (State.openIntake s) := by
  unfold State.openIntake
  repeat' first
    | with_reducible assumption
    | exact Sub.up hm (by decide)
    | exact Sub.bit hm (by decide)
    | (intro x; (first | (refine within_cut (m := m) (s₀ := s₀) x ?_ ?_; unfold x; rotate_left; clear_value x; intro hx) | skip))
    | lift_lets -underBinder
    | with_reducible apply within_State_setBusy

theorem within_State_linkLost {s : State} (hs : Within m s₀ s) (hm : Sub 0x40000000000000000000000 m)  : Within m s₀ (State.linkLost s) := by
  unfold State.linkLost
  repeat' first
    | with_reducible assumption
    | exact Sub.up hm (by decide)
    | exact Sub.bit hm (by decide)
    | intro _
    | with_reducible apply within_State_put

theorem within_hifCtrl (w : Word) {s : State} (hs : Within m s₀ s) (hm : Sub 0x6008000000000000000000000000000000000000000000000000000000000010000000000000FFFFFFC0000000000008000000000 m)  : Within m s₀ (hifCtrl w s) := by
  unfold hifCtrl
  repeat' first
    | with_reducible assumption
    | exact Sub.up hm (by decide)
    | exact Sub.bit hm (by decide)
    | (intro x; (first | (refine within_cut (m := m) (s₀ := s₀) x ?_ ?_; unfold x; rotate_left; clear_value x; intro hx) | skip))
    | lift_lets -underBinder
    | with_reducible apply within_ite
    | with_reducible apply within_State_setBusy
    | with_reducible apply within_State_put
    | with_reducible apply within_State_swWrite
    | with_reducible apply within_functionReset

theorem within_softDoneEffect {s : State} (hs : Within m s₀ s) (hm : Sub 0x400C0000000000000000000000 m)  : Within m s₀ (softDoneEffect s) := by
  unfold softDoneEffect
  repeat' first
    | with_reducible assumption
    | exact Sub.up hm (by decide)
    | exact Sub.bit hm (by decide)
    | (intro x; (first | (refine within_cut (m := m) (s₀ := s₀) x ?_ ?_; unfold x; rotate_left; clear_value x; intro hx) | skip))
    | lift_lets -underBinder
    | with_reducible apply within_ite
    | with_reducible apply within_State_setBusy
    | with_reducible apply within_State_put
    | with_reducible apply within_State_ev
    | with_reducible apply within_State_openIntake

theorem within_dmaTimeout (q : Nat) (t : Option Nat) (addr : Nat) {s : State} (hs : Within m s₀ s) (hm : Sub 0x4400E00000000000000000000000000000000000000000000000000000000000780000000000000263880000000000000000000000 m)  : Within m s₀ (dmaTimeout q t addr s) := by
  unfold dmaTimeout
  repeat' first
    | with_reducible assumption
    | exact Sub.up hm (by decide)
    | exact Sub.bit hm (by decide)
    | intro _
    | with_reducible apply within_ite
    | with_reducible apply within_State_dmaError
    | with_reducible apply within_State_showTasks
    | with_reducible apply within_State_endTask
    | with_reducible apply within_State_dropPartial
    | with_reducible apply within_fetchFailed
    | (intro x; (first | (refine within_cut (m := m) (s₀ := s₀) x ?_ ?_; unfold x; rotate_left; clear_value x; intro hx) | skip))
    | with_reducible apply within_State_vocabFailed
    | (refine within_of_snd (by assumption) ?_)
    | (refine within_of_fst (by assumption) ?_)
    | (split)

theorem within_nopEffect (t : Nat) {s : State} (hs : Within m s₀ s) (hm : Sub 0x800000000000000000000000000000000000000000000000000000000000000000000000000000000000000000000000000000 m)  : Within m s₀ (nopEffect t s) := by
  unfold nopEffect
  repeat' first
    | with_reducible assumption
    | exact Sub.up hm (by decide)
    | exact Sub.bit hm (by decide)
    | (intro x; (first | (refine within_cut (m := m) (s₀ := s₀) x ?_ ?_; unfold x; rotate_left; clear_value x; intro hx) | skip))
    | lift_lets -underBinder
    | with_reducible apply within_State_endTask
    | with_reducible apply within_State_runTask

theorem within_linkUpEffect (rate : Nat) (width : Nat) (flit : Bool) {s : State} (hs : Within m s₀ s) (hm : Sub 0x40000000000000000000000 m)  : Within m s₀ (linkUpEffect rate width flit s) := by
  unfold linkUpEffect
  repeat' first
    | with_reducible assumption
    | exact Sub.up hm (by decide)
    | exact Sub.bit hm (by decide)
    | (intro x; (first | (refine within_cut (m := m) (s₀ := s₀) x ?_ ?_; unfold x; rotate_left; clear_value x; intro hx) | skip))
    | lift_lets -underBinder
    | with_reducible apply within_ite
    | with_reducible apply within_State_put
    | with_reducible apply within_State_putb

end Sys2Proof.Machine
end

