-- ==== Sys2Proof/Laws/WithinPowerOps.lean ====
section
/-! SUPPORT. What the operations of Machine/PowerOps.lean can change, and that they keep a state sound. -/
namespace Sys2Proof.Machine

variable {m : Nat} {s₀ : State}

theorem within_State_modPower {s : State} (f : PowerSt → PowerSt) (hs : Within m s₀ s) (hm : Sub 0x1000000000000000000000000000000000000000000000000000000000000000000000000000000000000000000000000000000 m)  : Within m s₀ (State.modPower s f) := by
  unfold State.modPower
  repeat' first
    | with_reducible assumption
    | exact Sub.up hm (by decide)
    | exact Sub.bit hm (by decide)
    | (intro x; (first | (refine within_cut (m := m) (s₀ := s₀) x ?_ ?_; unfold x; rotate_left; clear_value x; intro hx) | skip))
    | lift_lets -underBinder
    | (apply within_mk <;> first | exact Or.inl (by with_reducible rfl) | exact Or.inr (Sub.bit hm (by decide)) | with_reducible rfl | rfl | exact Or.inl rfl | (simp; done) | skip)

theorem within_State_setPState {s : State} (n : Nat) (hs : Within m s₀ s) (hm : Sub 0x1000000000000000000000000000000000000000000000000000000000000000000000000000008000000000000000000000000 m)  : Within m s₀ (State.setPState s n) := by
  unfold State.setPState
  repeat' first
    | with_reducible assumption
    | exact Sub.up hm (by decide)
    | exact Sub.bit hm (by decide)
    | (intro x; (first | (refine within_cut (m := m) (s₀ := s₀) x ?_ ?_; unfold x; rotate_left; clear_value x; intro hx) | skip))
    | lift_lets -underBinder
    | with_reducible apply within_State_put
    | with_reducible apply within_State_modPower

theorem within_p1Effect {s : State} (hs : Within m s₀ s) (hm : Sub 0x1000000000000000000000000000000000000000000000000000000000000000000000000000008000000000000000000000000 m)  : Within m s₀ (p1Effect s) := by
  unfold p1Effect
  repeat' first
    | with_reducible assumption
    | exact Sub.up hm (by decide)
    | exact Sub.bit hm (by decide)
    | intro _
    | with_reducible apply within_ite
    | with_reducible apply within_State_setPState
    | (intro x; (first | (refine within_cut (m := m) (s₀ := s₀) x ?_ ?_; unfold x; rotate_left; clear_value x; intro hx) | skip))
    | (refine within_of_snd (by assumption) ?_)
    | (refine within_of_fst (by assumption) ?_)
    | (split)

theorem within_State_gateClusters {s : State} (hs : Within m s₀ s) (hm : Sub 0x4000000000000000000000000000000000000000000000000000000000000000000000000000000000000 m)  : Within m s₀ (State.gateClusters s) := by
  unfold State.gateClusters
  repeat' first
    | with_reducible assumption
    | exact Sub.up hm (by decide)
    | exact Sub.bit hm (by decide)
    | (intro x; (first | (refine within_cut (m := m) (s₀ := s₀) x ?_ ?_; unfold x; rotate_left; clear_value x; intro hx) | skip))
    | lift_lets -underBinder
    | with_reducible apply within_State_setWord
    | with_reducible apply within_State_each

theorem within_p2Effect {s : State} (hs : Within m s₀ s) (hm : Sub 0x1000000000000000004000000000000000000000000000000000000000000000000000000000008000000000000000000000000 m)  : Within m s₀ (p2Effect s) := by
  unfold p2Effect
  repeat' first
    | with_reducible assumption
    | exact Sub.up hm (by decide)
    | exact Sub.bit hm (by decide)
    | intro _
    | with_reducible apply within_ite
    | with_reducible apply within_State_setPState
    | with_reducible apply within_State_gateClusters
    | (intro x; (first | (refine within_cut (m := m) (s₀ := s₀) x ?_ ?_; unfold x; rotate_left; clear_value x; intro hx) | skip))
    | (refine within_of_snd (by assumption) ?_)
    | (refine within_of_fst (by assumption) ?_)
    | (split)

theorem within_State_checkpointAll {s : State} (hs : Within m s₀ s) (hm : Sub 0x400200000000000000000000000000000000000000000000000000000000000000000000000000000000000000000000000000000 m)  : Within m s₀ (State.checkpointAll s) := by
  unfold State.checkpointAll
  repeat' first
    | with_reducible assumption
    | exact Sub.up hm (by decide)
    | exact Sub.bit hm (by decide)
    | (intro x; (first | (refine within_cut (m := m) (s₀ := s₀) x ?_ ?_; unfold x; rotate_left; clear_value x; intro hx) | skip))
    | lift_lets -underBinder
    | with_reducible apply within_ite
    | with_reducible apply within_State_checkpoint
    | with_reducible apply within_State_modAqf
    | with_reducible apply within_State_each
    | with_reducible apply within_foldl
    | with_reducible apply within_State_programCells
    | (apply within_mk <;> first | exact Or.inl (by with_reducible rfl) | exact Or.inr (Sub.bit hm (by decide)) | with_reducible rfl | rfl | exact Or.inl rfl | (simp; done) | skip)
    | (refine within_of_snd (by assumption) ?_)
    | (refine within_of_fst (by assumption) ?_)
    | (split)

theorem within_State_gateAll {s : State} (hs : Within m s₀ s) (hm : Sub 0x9AA1E100000000000000000000006160900022001810600002200300000000000000000000000000400C0000000000000000000000 m)  : Within m s₀ (State.gateAll s) := by
  unfold State.gateAll
  repeat' first
    | with_reducible assumption
    | exact Sub.up hm (by decide)
    | exact Sub.bit hm (by decide)
    | (intro x; (first | (refine within_cut (m := m) (s₀ := s₀) x ?_ ?_; unfold x; rotate_left; clear_value x; intro hx) | skip))
    | lift_lets -underBinder
    | with_reducible apply within_ite
    | with_reducible apply within_State_inletDown
    | with_reducible apply within_State_keeperDown
    | with_reducible apply within_State_loseBanks
    | with_reducible apply within_State_each
    | with_reducible apply within_State_modPower
    | with_reducible apply within_State_loseLink
    | with_reducible apply within_State_enterSdl
    | with_reducible apply within_State_showSource
    | with_reducible apply within_foldl
    | (apply within_mk <;> first | exact Or.inl (by with_reducible rfl) | exact Or.inr (Sub.bit hm (by decide)) | with_reducible rfl | rfl | exact Or.inl rfl | exact (Sound.queues (Within.sound (by assumption))).symm | exact (Sound.caches (Within.sound (by assumption))).symm | exact (Sound.watch (Within.sound (by assumption))).symm | (simp; done) | skip)
    | (apply within_mk <;> first | exact Or.inl (by with_reducible rfl) | exact Or.inr (Sub.bit hm (by decide)) | with_reducible rfl | rfl | exact Or.inl rfl | (simp; done) | skip)
    | (refine within_of_snd (by assumption) ?_)
    | (refine within_of_fst (by assumption) ?_)
    | (split)

theorem within_State_endP3Task {s : State} (hs : Within m s₀ s) (hm : Sub 0x1001E00000000000000000000000604000000000000000000000000000000000000000000000090260000000000000000000000000 m)  : Within m s₀ (State.endP3Task s) := by
  unfold State.endP3Task
  repeat' first
    | with_reducible assumption
    | exact Sub.up hm (by decide)
    | exact Sub.bit hm (by decide)
    | (intro x; (first | (refine within_cut (m := m) (s₀ := s₀) x ?_ ?_; unfold x; rotate_left; clear_value x; intro hx) | skip))
    | lift_lets -underBinder
    | with_reducible apply within_State_endTask
    | with_reducible apply within_State_modPower
    | with_reducible apply within_completeEffect
    | (refine within_of_snd (by assumption) ?_)
    | (refine within_of_fst (by assumption) ?_)
    | (split)

theorem within_p3Effect {s : State} (hs : Within m s₀ s) (hm : Sub 0x9EA1E100000000000000000000006160900022001810600002200300000000000000000000000902680C0000000000000000000000 m)  : Within m s₀ (p3Effect s) := by
  unfold p3Effect
  repeat' first
    | with_reducible assumption
    | exact Sub.up hm (by decide)
    | exact Sub.bit hm (by decide)
    | intro _
    | with_reducible apply within_ite
    | with_reducible apply within_State_setPState
    | with_reducible apply within_State_checkpointAll
    | with_reducible apply within_State_gateAll
    | with_reducible apply within_State_endP3Task
    | with_reducible apply within_State_storeEstimate
    | (intro x; (first | (refine within_cut (m := m) (s₀ := s₀) x ?_ ?_; unfold x; rotate_left; clear_value x; intro hx) | skip))
    | (refine within_of_snd (by assumption) ?_)
    | (refine within_of_fst (by assumption) ?_)
    | (split)

theorem within_powerEffect (t : Nat) {s : State} (hs : Within m s₀ s) (hm : Sub 0x1800000000000000000000000000000000000000000000000000000000000000000000000000000000000000000000000000000 m)  : Within m s₀ (powerEffect t s) := by
  unfold powerEffect
  repeat' first
    | with_reducible assumption
    | exact Sub.up hm (by decide)
    | exact Sub.bit hm (by decide)
    | (intro x; (first | (refine within_cut (m := m) (s₀ := s₀) x ?_ ?_; unfold x; rotate_left; clear_value x; intro hx) | skip))
    | lift_lets -underBinder
    | with_reducible apply within_ite
    | with_reducible apply within_State_wake
    | with_reducible apply within_State_endTask
    | with_reducible apply within_State_runTask
    | with_reducible apply within_State_modPower
    | (refine within_of_snd (by assumption) ?_)
    | (refine within_of_fst (by assumption) ?_)
    | (split)

theorem within_powerTimeoutEffect {s : State} (hs : Within m s₀ s) (hm : Sub 0x1800000000000000000000000000000000000000000000000000000000000000000000000000000000000000000000000000000 m)  : Within m s₀ (powerTimeoutEffect s) := by
  unfold powerTimeoutEffect
  repeat' first
    | with_reducible assumption
    | exact Sub.up hm (by decide)
    | exact Sub.bit hm (by decide)
    | (intro x; (first | (refine within_cut (m := m) (s₀ := s₀) x ?_ ?_; unfold x; rotate_left; clear_value x; intro hx) | skip))
    | lift_lets -underBinder
    | with_reducible apply within_ite
    | with_reducible apply within_State_endTask
    | with_reducible apply within_State_modPower
    | (refine within_of_snd (by assumption) ?_)
    | (refine within_of_fst (by assumption) ?_)
    | (split)

theorem within_d3hotEffect (enter : Bool) {s : State} (hs : Within m s₀ s) (hm : Sub 0x1000000000000000000000000000000000000000000000000000000000000000000000000000000000000000000000000000000 m)  : Within m s₀ (d3hotEffect enter s) := by
  unfold d3hotEffect
  repeat' first
    | with_reducible assumption
    | exact Sub.up hm (by decide)
    | exact Sub.bit hm (by decide)
    | (intro x; (first | (refine within_cut (m := m) (s₀ := s₀) x ?_ ?_; unfold x; rotate_left; clear_value x; intro hx) | skip))
    | lift_lets -underBinder
    | with_reducible apply within_State_modPower

theorem within_i3cWakeEffect {s : State} (hs : Within m s₀ s) (hm : Sub 0x1000000000000000000000000000000000000000000000000000000000000000000000000000000000000000000000000000000 m)  : Within m s₀ (i3cWakeEffect s) := by
  unfold i3cWakeEffect
  repeat' first
    | with_reducible assumption
    | exact Sub.up hm (by decide)
    | exact Sub.bit hm (by decide)
    | intro _
    | with_reducible apply within_ite
    | with_reducible apply within_State_wake

theorem within_wakeTimerEffect {s : State} (hs : Within m s₀ s) (hm : Sub 0x1000000000000000000000000000000000000000000000000000000000000000000000000000000000000000000000000000000 m)  : Within m s₀ (wakeTimerEffect s) := by
  unfold wakeTimerEffect
  repeat' first
    | with_reducible assumption
    | exact Sub.up hm (by decide)
    | exact Sub.bit hm (by decide)
    | intro _
    | with_reducible apply within_ite
    | with_reducible apply within_State_wake

theorem within_signalDetectEffect (k : Nat) {s : State} (hs : Within m s₀ s) (hm : Sub 0x1000000000000000000000000000000000000000000000000000000000000000000000000000000000000000000000000000000 m)  : Within m s₀ (signalDetectEffect k s) := by
  unfold signalDetectEffect
  repeat' first
    | with_reducible assumption
    | exact Sub.up hm (by decide)
    | exact Sub.bit hm (by decide)
    | intro _
    | with_reducible apply within_ite
    | with_reducible apply within_State_wake

theorem within_State_setVolt {s : State} (c : Nat) (mv : Nat) (hs : Within m s₀ s) (hm : Sub 0x4000000000000000000000000000000000000000000000000000000000000000000000000000000000000 m)  : Within m s₀ (State.setVolt s c mv) := by
  unfold State.setVolt
  repeat' first
    | with_reducible assumption
    | exact Sub.up hm (by decide)
    | exact Sub.bit hm (by decide)
    | (unfold voltFld; (try dsimp only); first | exact Sub.bit hm (by decide) | (split <;> exact Sub.bit hm (by decide)))
    | intro _
    | with_reducible apply within_State_puti

theorem within_State_aimOp {s : State} (x : OpStep) (hs : Within m s₀ s) (hm : Sub 0x1000000000000000000000000000000000000000000000000000000000000000000000000000000000000000000000000000000 m)  : Within m s₀ (State.aimOp s x) := by
  unfold State.aimOp
  repeat' first
    | with_reducible assumption
    | exact Sub.up hm (by decide)
    | exact Sub.bit hm (by decide)
    | (intro x; (first | (refine within_cut (m := m) (s₀ := s₀) x ?_ ?_; unfold x; rotate_left; clear_value x; intro hx) | skip))
    | lift_lets -underBinder
    | with_reducible apply within_State_modPower

theorem within_State_adjust {s : State} (c : Nat) (low : Bool) (high : Bool) (hs : Within m s₀ s) (hm : Sub 0x1000000000000000004400000000000000000000000000000000000000000000000000000000000000000000000000000000000 m)  : Within m s₀ (State.adjust s c low high) := by
  unfold State.adjust
  repeat' first
    | with_reducible assumption
    | exact Sub.up hm (by decide)
    | exact Sub.bit hm (by decide)
    | (intro x; (first | (refine within_cut (m := m) (s₀ := s₀) x ?_ ?_; unfold x; rotate_left; clear_value x; intro hx) | skip))
    | lift_lets -underBinder
    | with_reducible apply within_ite
    | with_reducible apply within_State_ev
    | with_reducible apply within_State_modPower
    | with_reducible apply within_State_setVolt
    | with_reducible apply within_State_aimOp

theorem within_voltageEffect (slack : List (Bool × Bool)) {s : State} (hs : Within m s₀ s) (hm : Sub 0x1200000000000000004400000000000000000000000000000000000000000000000000000000000000000000000000000000000 m)  : Within m s₀ (voltageEffect slack s) := by
  unfold voltageEffect
  repeat' first
    | with_reducible assumption
    | exact Sub.up hm (by decide)
    | exact Sub.bit hm (by decide)
    | (intro x; (first | (refine within_cut (m := m) (s₀ := s₀) x ?_ ?_; unfold x; rotate_left; clear_value x; intro hx) | skip))
    | lift_lets -underBinder
    | with_reducible apply within_ite
    | with_reducible apply within_State_emit
    | with_reducible apply within_State_each
    | with_reducible apply within_State_adjust

theorem within_State_powerClusters {s : State} (hs : Within m s₀ s) (hm : Sub 0x600000000000000004000000000000000000000000000000000000000000000000000000000000000000000000000000000000 m)  : Within m s₀ (State.powerClusters s) := by
  unfold State.powerClusters
  repeat' first
    | with_reducible assumption
    | exact Sub.up hm (by decide)
    | exact Sub.bit hm (by decide)
    | (intro x; (first | (refine within_cut (m := m) (s₀ := s₀) x ?_ ?_; unfold x; rotate_left; clear_value x; intro hx) | skip))
    | lift_lets -underBinder
    | with_reducible apply within_State_emit
    | with_reducible apply within_State_fresh
    | with_reducible apply within_State_each
    | with_reducible apply within_State_setVolt

theorem within_vrFaultEffect {s : State} (hs : Within m s₀ s) (hm : Sub 0x1000000000000000000600000000000000000000000000000000000000000000000000000000000000000000000000000000000 m)  : Within m s₀ (vrFaultEffect s) := by
  unfold vrFaultEffect
  repeat' first
    | with_reducible assumption
    | exact Sub.up hm (by decide)
    | exact Sub.bit hm (by decide)
    | intro _
    | with_reducible apply within_ite
    | with_reducible apply within_State_put
    | with_reducible apply within_State_ev
    | with_reducible apply within_State_aimOp

theorem within_frequencyEffect (powerW : Nat) (tj : Int) {s : State} (hs : Within m s₀ s) (hm : Sub 0x1000000000000000002000000000000000000000000000000000000000000000000000000000000000000000000000000000000 m)  : Within m s₀ (frequencyEffect powerW tj s) := by
  unfold frequencyEffect
  repeat' first
    | with_reducible assumption
    | exact Sub.up hm (by decide)
    | exact Sub.bit hm (by decide)
    | (intro x; (first | (refine within_cut (m := m) (s₀ := s₀) x ?_ ?_; unfold x; rotate_left; clear_value x; intro hx) | skip))
    | lift_lets -underBinder
    | with_reducible apply within_ite
    | with_reducible apply within_State_put
    | with_reducible apply within_State_modPower
    | with_reducible apply within_State_aimOp

theorem within_opChangeEffect {s : State} (hs : Within m s₀ s) (hm : Sub 0x1000000000000000000E00000000000000000000000000000000000000000000000000000000000000000000000000000000000 m)  : Within m s₀ (opChangeEffect s) := by
  unfold opChangeEffect
  repeat' first
    | with_reducible assumption
    | exact Sub.up hm (by decide)
    | exact Sub.bit hm (by decide)
    | (intro x; (first | (refine within_cut (m := m) (s₀ := s₀) x ?_ ?_; unfold x; rotate_left; clear_value x; intro hx) | skip))
    | lift_lets -underBinder
    | with_reducible apply within_ite
    | with_reducible apply within_State_put
    | with_reducible apply within_State_ev
    | with_reducible apply within_State_putb
    | with_reducible apply within_State_modPower
    | (refine within_of_snd (by assumption) ?_)
    | (refine within_of_fst (by assumption) ?_)
    | (split)

end Sys2Proof.Machine
end

