-- ==== Sys2Proof/Laws/WithinResets.lean ====
section
/-! SUPPORT. What the operations of Machine/Resets.lean can change, and that they keep a state sound. -/
namespace Sys2Proof.Machine

variable {m : Nat} {s₀ : State}

theorem within_State_requestReset {s : State} (src : ResetSource) (hs : Within m s₀ s) (hm : Sub 0x401000000000000000000000000000000000000000000000000000000000000000000000000000000000000000000000000000000 m)  : Within m s₀ (State.requestReset s src) := by
  unfold State.requestReset
  repeat' first
    | with_reducible assumption
    | exact Sub.up hm (by decide)
    | exact Sub.bit hm (by decide)
    | (intro x; (first | (refine within_cut (m := m) (s₀ := s₀) x ?_ ?_; unfold x; rotate_left; clear_value x; intro hx) | skip))
    | lift_lets -underBinder
    | with_reducible apply within_ite
    | with_reducible apply within_State_modPower
    | with_reducible apply within_State_startDrain

theorem within_State_bootCommitted {s : State} (hs : Within m s₀ s) (hm : Sub 0x800000000000000000000000000000000008000000000000000000000000000000000000000000000000000000000000000000000 m)  : Within m s₀ (State.bootCommitted s) := by
  unfold State.bootCommitted
  repeat' first
    | with_reducible assumption
    | exact Sub.up hm (by decide)
    | exact Sub.bit hm (by decide)
    | (unfold fwField; (try dsimp only); first | exact Sub.bit hm (by decide) | (split <;> exact Sub.bit hm (by decide)))
    | (intro x; (first | (refine within_cut (m := m) (s₀ := s₀) x ?_ ?_; unfold x; rotate_left; clear_value x; intro hx) | skip))
    | lift_lets -underBinder
    | with_reducible apply within_ite
    | with_reducible apply within_State_put
    | with_reducible apply within_State_each
    | with_reducible apply within_State_setImage
    | with_reducible apply within_foldl
    | (refine within_of_snd (by assumption) ?_)
    | (refine within_of_fst (by assumption) ?_)
    | (split)

theorem within_State_senseFuses {s : State} (hs : Within m s₀ s) (hm : Sub 0xA0000000000000000000000000000000000000000000000 m)  : Within m s₀ (State.senseFuses s) := by
  unfold State.senseFuses
  repeat' first
    | with_reducible assumption
    | exact Sub.up hm (by decide)
    | exact Sub.bit hm (by decide)
    | (intro x; (first | (refine within_cut (m := m) (s₀ := s₀) x ?_ ?_; unfold x; rotate_left; clear_value x; intro hx) | skip))
    | lift_lets -underBinder
    | with_reducible apply within_State_setWord
    | with_reducible apply within_State_putb
    | with_reducible apply within_foldl

theorem within_State_deviceRegs {s : State} (hs : Within m s₀ s) (hm : Sub 0x8000000000000000FFF003FFFFFFFFFFFFFFFFFFE001FFFFFFFFFFFFFFFFFFFFFFFFFFFFFFFFFFFFFFFFFFFFFFFFFFFFFFFFFFFFF m)  : Within m s₀ (State.deviceRegs s) := by
  unfold State.deviceRegs
  repeat' first
    | with_reducible assumption
    | exact Sub.up hm (by decide)
    | exact Sub.bit hm (by decide)
    | exact Sub.func hm (by decide) _ (by assumption)
    | exact Sub.device hm (by decide) _ (by assumption)
    | (intro x; (first | (refine within_cut (m := m) (s₀ := s₀) x ?_ ?_; unfold x; rotate_left; clear_value x; intro hx) | skip))
    | lift_lets -underBinder
    | with_reducible apply within_State_setWord
    | with_reducible apply within_State_put
    | with_reducible apply within_State_bootCommitted
    | with_reducible apply within_State_resetRegs
    | with_reducible apply within_ite
    | (refine within_of_snd (by assumption) ?_)
    | (refine within_of_fst (by assumption) ?_)
    | (split)

/-- The state after reset is sound. -/
theorem sound_reset : Sound State.reset :=
  ⟨rfl, (by intro e he; cases he), rfl, rfl, rfl, rfl, rfl, rfl, rfl, rfl, rfl, rfl, rfl, rfl⟩

theorem within_State_devicePlain {s : State} (h : Within m s₀ s) (hm : Sub 0xFFFEDD0000000000000000000000000000000000000000000000000000000000000000000000000000000000000000000000000000 m) : Within m s₀ s.devicePlain := by
  unfold State.devicePlain
  lift_lets -underBinder
  intros
  refine within_State_loseBanks (h.trans ⟨?_, ?_⟩) _ (Sub.bit hm (by decide)) (Sub.bit hm (by decide)) (Sub.bit hm (by decide))
  · exact ⟨h.sound.regs, h.sound.entries, h.sound.mem, rfl, rfl, rfl, rfl, rfl, rfl, rfl, rfl, rfl, h.sound.images, rfl⟩
  · intro p hp
    cases p <;> simp only [Region.same] <;> try rfl
    case reg => exact fun _ _ => rfl
    case memory => exact fun _ => rfl
    all_goals
      exfalso
      simp only [Region.bit] at hp
      rw [Sub.bit hm (by decide)] at hp
      cases hp

theorem within_State_recordReset {s : State} (src : ResetSource) (hs : Within m s₀ s) (hm : Sub 0x80000000000000000000000000000000000000000000000000000000000000000000000000000000000000 m)  : Within m s₀ (State.recordReset s src) := by
  unfold State.recordReset
  repeat' first
    | with_reducible assumption
    | exact Sub.up hm (by decide)
    | exact Sub.bit hm (by decide)
    | (intro x; (first | (refine within_cut (m := m) (s₀ := s₀) x ?_ ?_; unfold x; rotate_left; clear_value x; intro hx) | skip))
    | lift_lets -underBinder
    | with_reducible apply within_State_put
    | with_reducible apply within_State_putb
    | with_reducible apply within_State_bump

theorem within_State_holdStored  {s : State} (hs : Within m s₀ s) (hm : Sub 0x80000000000000000000000000000000000000181060000000000000000000000000000000000000000000000000000000000000 m) : Within m s₀ (State.holdStored s) := by
  unfold State.holdStored
  repeat' first
    | with_reducible assumption
    | exact Sub.up hm (by decide)
    | exact Sub.bit hm (by decide)
    | (intro x; (first | (refine within_cut (m := m) (s₀ := s₀) x ?_ ?_; unfold x; rotate_left; clear_value x; intro hx) | skip))
    | lift_lets -underBinder
    | with_reducible apply within_ite
    | with_reducible apply within_State_enterSdl
    | with_reducible apply within_State_showSource
    | (refine within_of_snd (by assumption) ?_)
    | (refine within_of_fst (by assumption) ?_)
    | (split)
    | (dsimp -zeta only)

theorem within_resetDoneEffect {s : State} (hs : Within m s₀ s) (hm : Sub 0xFFFFFD00000000000FFF843FFFFFFFFFFFFFFFFFFE107FFFFFFFFFFFFFFFFFFFFFFFFFFFFFFFFFFFFFFFFFFFFFFFFFFFFFFFFFFFFF m)  : Within m s₀ (resetDoneEffect s) := by
  unfold resetDoneEffect
  repeat' first
    | with_reducible assumption
    | exact Sub.up hm (by decide)
    | exact Sub.bit hm (by decide)
    | (intro x; (first | (refine within_cut (m := m) (s₀ := s₀) x ?_ ?_; unfold x; rotate_left; clear_value x; intro hx) | skip))
    | lift_lets -underBinder
    | with_reducible apply within_ite
    | with_reducible apply within_State_modPower
    | with_reducible apply within_State_setPState
    | with_reducible apply within_State_powerClusters
    | with_reducible apply within_State_senseFuses
    | with_reducible apply within_State_deviceRegs
    | with_reducible apply within_State_devicePlain
    | with_reducible apply within_State_recordReset
    | with_reducible apply within_State_showTimeLock
    | with_reducible apply within_State_showKeys
    | with_reducible apply within_State_holdStored
    | (refine within_of_snd (by assumption) ?_)
    | (refine within_of_fst (by assumption) ?_)
    | (split)

theorem within_trstEffect {s : State} (hs : Within m s₀ s) (hm : Sub 0x401000000000000000000000000000000000000000000000000000000000000000000000000000000000000000000000000000000 m)  : Within m s₀ (trstEffect s) := by
  unfold trstEffect
  repeat' first
    | with_reducible assumption
    | exact Sub.up hm (by decide)
    | exact Sub.bit hm (by decide)
    | (intro x; (first | (refine within_cut (m := m) (s₀ := s₀) x ?_ ?_; unfold x; rotate_left; clear_value x; intro hx) | skip))
    | lift_lets -underBinder
    | with_reducible apply within_ite
    | with_reducible apply within_State_modPower
    | with_reducible apply within_State_requestReset

theorem within_State_releaseReset {s : State} (hs : Within m s₀ s) (hm : Sub 0x1000000000000000000000000000000000000000000000000000000000000000000000000000000000000000000000000000000 m)  : Within m s₀ (State.releaseReset s) := by
  unfold State.releaseReset
  repeat' first
    | with_reducible assumption
    | exact Sub.up hm (by decide)
    | exact Sub.bit hm (by decide)
    | (intro x; (first | (refine within_cut (m := m) (s₀ := s₀) x ?_ ?_; unfold x; rotate_left; clear_value x; intro hx) | skip))
    | lift_lets -underBinder
    | with_reducible apply within_ite
    | with_reducible apply within_State_modPower

theorem within_trstReleaseEffect {s : State} (hs : Within m s₀ s) (hm : Sub 0x1000000000000000000000000000000000000000000000000000000000000000000000000000000000000000000000000000000 m)  : Within m s₀ (trstReleaseEffect s) := by
  unfold trstReleaseEffect
  repeat' first
    | with_reducible assumption
    | exact Sub.up hm (by decide)
    | exact Sub.bit hm (by decide)
    | (intro x; (first | (refine within_cut (m := m) (s₀ := s₀) x ?_ ?_; unfold x; rotate_left; clear_value x; intro hx) | skip))
    | lift_lets -underBinder
    | with_reducible apply within_State_modPower
    | with_reducible apply within_State_releaseReset

theorem within_rstCtrl (w : Word) {s : State} (hs : Within m s₀ s) (hm : Sub 0x401000000000000000000000000000000000000000000000000000000000000000000000000000000000000000000000000000000 m)  : Within m s₀ (rstCtrl w s) := by
  unfold rstCtrl
  repeat' first
    | with_reducible assumption
    | exact Sub.up hm (by decide)
    | exact Sub.bit hm (by decide)
    | intro _
    | with_reducible apply within_ite
    | with_reducible apply within_State_requestReset

theorem within_thermtripEffect {s : State} (hs : Within m s₀ s) (hm : Sub 0x401200000000000000000400000000000000000000000000000000000000000000000000000000000000000000000000000000000 m)  : Within m s₀ (thermtripEffect s) := by
  unfold thermtripEffect
  repeat' first
    | with_reducible assumption
    | exact Sub.up hm (by decide)
    | exact Sub.bit hm (by decide)
    | (intro x; (first | (refine within_cut (m := m) (s₀ := s₀) x ?_ ?_; unfold x; rotate_left; clear_value x; intro hx) | skip))
    | lift_lets -underBinder
    | with_reducible apply within_ite
    | with_reducible apply within_State_ev
    | with_reducible apply within_State_emit
    | with_reducible apply within_State_modPower
    | with_reducible apply within_State_requestReset

theorem within_thermReleaseEffect {s : State} (hs : Within m s₀ s) (hm : Sub 0x881000000000000000000200000000000000000181060000000000000000000000000000000000000000000000000000000000000 m)  : Within m s₀ (thermReleaseEffect s) := by
  unfold thermReleaseEffect
  repeat' first
    | with_reducible assumption
    | exact Sub.up hm (by decide)
    | exact Sub.bit hm (by decide)
    | (intro x; (first | (refine within_cut (m := m) (s₀ := s₀) x ?_ ?_; unfold x; rotate_left; clear_value x; intro hx) | skip))
    | lift_lets -underBinder
    | with_reducible apply within_ite
    | with_reducible refine within_State_modSvc _ ?_ rfl
    | with_reducible refine within_State_modSvc _ ?_ (by simp)
    | with_reducible apply within_State_put
    | with_reducible apply within_State_modPower
    | with_reducible apply within_State_releaseReset
    | with_reducible refine within_State_modSvc _ ?_ (Sub.up hm (by decide)) rfl
    | with_reducible refine within_State_modSvc _ ?_ (Sub.up hm (by decide)) (by simp)
    | with_reducible apply within_State_holdStored
    | (apply within_mk <;> first | exact Or.inl (by with_reducible rfl) | exact Or.inr (Sub.bit hm (by decide)) | with_reducible rfl | rfl | exact Or.inl rfl | (simp; done) | skip)
    | (refine within_of_snd (by assumption) ?_)
    | (refine within_of_fst (by assumption) ?_)
    | (split)

theorem within_powerOnEffect {s : State} (h : Within m s₀ s) (hm : Sub 0xFFFFFD00000000000FFFFFFFFFFFFFFFFFFFFFFFFFFFFFFFFFFFFFFFFFFFFFFFFFFFFFFFFFFFFFFFFFFFFFFFFFFFFFFFFFFFFFFFFF m) : Within m s₀ (powerOnEffect s) := by
  have hall : ∀ p : Region, p ≠ .pending → m.testBit p.bit = true := fun p hp => by
    cases p
    case reg r => exact Sub.reg hm r
    case pending => exact absurd rfl hp
    all_goals exact Sub.bit hm (by decide)
  have key : ∀ t : State, t.pending = s.pending → Sound t → Within m s₀ t := fun t hq ht =>
    h.trans ⟨ht, fun p hp => by
      by_cases he : p = .pending
      · exact he ▸ hq
      · rw [hall p he] at hp; cases hp⟩
  unfold powerOnEffect
  lift_lets -underBinder
  intros
  refine within_State_loseBanks (within_State_showKeys (within_State_bootCommitted (key _ ?_ ?_) (Sub.up hm (by decide))) (Sub.up hm (by decide))) _
    (Sub.bit hm (by decide)) (Sub.bit hm (by decide)) (Sub.bit hm (by decide))
  · rfl
  · exact ⟨rfl, (by intro e he; cases he), rfl, rfl, rfl, rfl, rfl, rfl, rfl, rfl, rfl, rfl, h.sound.images, rfl⟩

theorem within_powerReleaseEffect {s : State} (hs : Within m s₀ s) (hm : Sub 0x16000000000000000042000000000000000000010200000000000000A0000000000000000000000000000000000000000000000 m)  : Within m s₀ (powerReleaseEffect s) := by
  unfold powerReleaseEffect
  repeat' first
    | with_reducible assumption
    | exact Sub.up hm (by decide)
    | exact Sub.bit hm (by decide)
    | (intro x; (first | (refine within_cut (m := m) (s₀ := s₀) x ?_ ?_; unfold x; rotate_left; clear_value x; intro hx) | skip))
    | lift_lets -underBinder
    | with_reducible apply within_ite
    | with_reducible apply within_State_put
    | with_reducible apply within_State_modPower
    | with_reducible apply within_State_powerClusters
    | with_reducible apply within_State_senseFuses
    | with_reducible apply within_State_setFreq
    | (refine within_of_snd (by assumption) ?_)
    | (refine within_of_fst (by assumption) ?_)
    | (split)

theorem within_flrEffect {s : State} (hs : Within m s₀ s) (hm : Sub 0x6018000000000000000000000000000000000000000000000000000000000010000000000000FFFFFFC0000000000008000000000 m)  : Within m s₀ (flrEffect s) := by
  unfold flrEffect
  repeat' first
    | with_reducible assumption
    | exact Sub.up hm (by decide)
    | exact Sub.bit hm (by decide)
    | intro _
    | with_reducible apply within_ite
    | with_reducible apply within_d3hotEffect
    | with_reducible apply within_functionReset

theorem within_linkDownEffect {s : State} (hs : Within m s₀ s) (hm : Sub 0xE018000000000000000000000000000000000000000000000000000000000010000000000000FFFFFFC0000000000008000000000 m)  : Within m s₀ (linkDownEffect s) := by
  unfold linkDownEffect
  repeat' first
    | with_reducible assumption
    | exact Sub.up hm (by decide)
    | exact Sub.bit hm (by decide)
    | intro _
    | with_reducible apply within_ite
    | with_reducible apply within_State_logFault
    | with_reducible apply within_flrEffect
    | with_reducible apply within_State_linkLost

theorem within_perstEffect (low : Bool) {s : State} (hs : Within m s₀ s) (hm : Sub 0x6018000000000000000000000000000000000000000000000000000000000010000000000000FFFFFFC0000000000008000000000 m)  : Within m s₀ (perstEffect low s) := by
  unfold perstEffect
  repeat' first
    | with_reducible assumption
    | exact Sub.up hm (by decide)
    | exact Sub.bit hm (by decide)
    | (intro x; (first | (refine within_cut (m := m) (s₀ := s₀) x ?_ ?_; unfold x; rotate_left; clear_value x; intro hx) | skip))
    | lift_lets -underBinder
    | with_reducible apply within_ite
    | with_reducible apply within_State_put
    | with_reducible apply within_State_modPower
    | with_reducible apply within_flrEffect
    | with_reducible apply within_State_linkLost

theorem within_functionReadyEffect {s : State} (hs : Within m s₀ s) (hm : Sub 0x400C0000000000000000000000 m)  : Within m s₀ (functionReadyEffect s) := by
  unfold functionReadyEffect
  repeat' first
    | with_reducible assumption
    | exact Sub.up hm (by decide)
    | exact Sub.bit hm (by decide)
    | intro _
    | with_reducible apply within_ite
    | with_reducible apply within_State_put
    | with_reducible apply within_State_openIntake

theorem within_pllLockEffect {s : State} (hs : Within m s₀ s) (hm : Sub 0x200000000000000000000000000000000000000000000000000000000000000000000000000000000000 m)  : Within m s₀ (pllLockEffect s) := by
  unfold pllLockEffect
  repeat' first
    | with_reducible assumption
    | exact Sub.up hm (by decide)
    | exact Sub.bit hm (by decide)
    | intro _
    | with_reducible apply within_ite
    | with_reducible apply within_State_put

theorem within_cisternEffect {s : State} (hs : Within m s₀ s) (hm : Sub 0x1000000000000000000000000000000000000000000000000000000000000000000000000000000000000000000000000000000 m)  : Within m s₀ (cisternEffect s) := by
  unfold cisternEffect
  repeat' first
    | with_reducible assumption
    | exact Sub.up hm (by decide)
    | exact Sub.bit hm (by decide)
    | (intro x; (first | (refine within_cut (m := m) (s₀ := s₀) x ?_ ?_; unfold x; rotate_left; clear_value x; intro hx) | skip))
    | lift_lets -underBinder
    | with_reducible apply within_ite
    | with_reducible apply within_State_modPower

theorem within_State_findDie (e : Nat × DieReport) {s : State} (hs : Within m s₀ s) (hm : Sub 0x400200000000000000000000000000000000000000000000000000000000000000000000000000000000000000000000000000000 m) : Within m s₀ (State.findDie s e) := by
  unfold State.findDie
  repeat' first
    | with_reducible assumption
    | exact Sub.up hm (by decide)
    | exact Sub.bit hm (by decide)
    | (intro x; (first | (refine within_cut (m := m) (s₀ := s₀) x ?_ ?_; unfold x; rotate_left; clear_value x; intro hx) | skip))
    | lift_lets -underBinder
    | with_reducible apply within_ite
    | with_reducible apply within_State_dieOp
    | with_reducible apply within_State_modAqf
    | (refine within_of_snd (by assumption) ?_)
    | (refine within_of_fst (by assumption) ?_)
    | (split)
    | (dsimp -zeta only)

theorem within_State_firstTraining (r : Discovery) (mine : List Nat) (c : Nat) {s : State} (hs : Within m s₀ s) (hm : Sub 0x800200000000000000000000000000000000000000000000000000000000000000000000000000000000080000000000000000000 m) : Within m s₀ (State.firstTraining s r mine c) := by
  unfold State.firstTraining
  repeat' first
    | with_reducible assumption
    | exact Sub.up hm (by decide)
    | exact Sub.bit hm (by decide)
    | (intro x; (first | (refine within_cut (m := m) (s₀ := s₀) x ?_ ?_; unfold x; rotate_left; clear_value x; intro hx) | skip))
    | lift_lets -underBinder
    | with_reducible apply within_ite
    | with_reducible apply within_State_puti
    | with_reducible apply within_State_logFault
    | with_reducible apply within_State_dieOp
    | with_reducible apply within_State_trained
    | with_reducible apply within_foldl
    | intro _
    | (refine within_of_snd (by assumption) ?_)
    | (refine within_of_fst (by assumption) ?_)
    | (split)
    | (dsimp -zeta only)

theorem within_discoveryEffect (r : Discovery) {s : State} (hs : Within m s₀ s) (hm : Sub 0xC01200000000000000000000000000000000000000000000000000000000000000000000000000000000380002300000000000000 m) : Within m s₀ (discoveryEffect r s) := by
  unfold discoveryEffect
  repeat' first
    | with_reducible assumption
    | exact Sub.up hm (by decide)
    | exact Sub.bit hm (by decide)
    | (intro x; (first | (refine within_cut (m := m) (s₀ := s₀) x ?_ ?_; unfold x; rotate_left; clear_value x; intro hx) | skip))
    | lift_lets -underBinder
    | with_reducible apply within_ite
    | with_reducible apply within_State_modAqf
    | with_reducible apply within_State_showDies
    | with_reducible apply within_State_setDie
    | with_reducible apply within_State_put
    | with_reducible apply within_State_each
    | with_reducible apply within_State_modPower
    | with_reducible apply within_foldl
    | with_reducible apply within_State_findDie
    | with_reducible apply within_State_firstTraining
    | with_reducible apply within_State_ev
    | (refine within_of_snd (by assumption) ?_)
    | (refine within_of_fst (by assumption) ?_)
    | (split)

theorem within_firmwareEffect {s : State} (hs : Within m s₀ s) (hm : Sub 0xA0041000000000000000000000001000081BA00000000000000000000001B330000000000000000400C0000000000008010000000 m)  : Within m s₀ (firmwareEffect s) := by
  unfold firmwareEffect
  repeat' first
    | with_reducible assumption
    | exact Sub.up hm (by decide)
    | exact Sub.bit hm (by decide)
    | intro _
    | with_reducible apply within_ite
    | with_reducible apply within_State_runImage
    | with_reducible apply within_State_keeperUp
    | with_reducible apply within_State_applyLayout
    | with_reducible apply within_State_applyDefaults
    | with_reducible apply within_State_openIntake

theorem within_flitEffect {s : State} (hs : Within m s₀ s) (hm : Sub 0x800000000000000000000000000000000000000000000000000000000000000000000000000000000000000000000000000000000 m)  : Within m s₀ (flitEffect s) := by
  unfold flitEffect
  repeat' first
    | with_reducible assumption
    | exact Sub.up hm (by decide)
    | exact Sub.bit hm (by decide)
    | intro _
    | with_reducible apply within_ite
    | with_reducible apply within_State_logFault

end Sys2Proof.Machine
end

