-- ==== Sys2Proof/Laws/WithinService.lean ====
section
/-! SUPPORT. What the operations of Machine/Service.lean can change, and that they keep a state sound. -/
namespace Sys2Proof.Machine

variable {m : Nat} {s₀ : State}

theorem within_State_handleHang (c : Nat) (tick : Nat) {s : State} (hs : Within m s₀ s) (hm : Sub 0x8008000000000000000000000000100000066000000000000000000000000000000000000000000400C0000000000000000000000 m) : Within m s₀ (State.handleHang s c tick) := by
  unfold State.handleHang
  repeat' first
    | with_reducible assumption
    | exact Sub.up hm (by decide)
    | exact Sub.bit hm (by decide)
    | (intro x; (first | (refine within_cut (m := m) (s₀ := s₀) x ?_ ?_; unfold x; rotate_left; clear_value x; intro hx) | skip))
    | lift_lets -underBinder
    | with_reducible apply within_ite
    | with_reducible apply within_State_setRole
    | with_reducible apply within_State_keeperGone
    | with_reducible apply within_State_restartKeeper
    | with_reducible refine within_State_modSvc _ ?_ rfl
    | with_reducible refine within_State_modSvc _ ?_ (by simp)
    | with_reducible apply within_State_ev
    | with_reducible apply within_State_bump
    | with_reducible apply within_State_logFault
    | with_reducible refine within_State_modSvc _ ?_ (Sub.up hm (by decide)) rfl
    | with_reducible refine within_State_modSvc _ ?_ (Sub.up hm (by decide)) (by simp)
    | (apply within_mk <;> first | exact Or.inl (by with_reducible rfl) | exact Or.inr (Sub.bit hm (by decide)) | with_reducible rfl | rfl | exact Or.inl rfl | (simp; done) | skip)
    | (refine within_of_snd (by assumption) ?_)
    | (refine within_of_fst (by assumption) ?_)
    | (split)

theorem within_coreHangEffect (c : Nat) {s : State} (hs : Within m s₀ s) (hm : Sub 0x8008000000000000000000000000100000066000000000000000000000000000000000000000000400C0000000000000000000000 m)  : Within m s₀ (coreHangEffect c s) := by
  unfold coreHangEffect
  repeat' first
    | with_reducible assumption
    | exact Sub.up hm (by decide)
    | exact Sub.bit hm (by decide)
    | (intro x; (first | (refine within_cut (m := m) (s₀ := s₀) x ?_ ?_; unfold x; rotate_left; clear_value x; intro hx) | skip))
    | lift_lets -underBinder
    | with_reducible apply within_ite
    | with_reducible refine within_State_modSvc _ ?_ rfl
    | with_reducible refine within_State_modSvc _ ?_ (by simp)
    | with_reducible apply within_State_handleHang
    | with_reducible refine within_State_modSvc _ ?_ (Sub.up hm (by decide)) rfl
    | with_reducible refine within_State_modSvc _ ?_ (Sub.up hm (by decide)) (by simp)
    | (apply within_mk <;> first | exact Or.inl (by with_reducible rfl) | exact Or.inr (Sub.bit hm (by decide)) | with_reducible rfl | rfl | exact Or.inl rfl | (simp; done) | skip)
    | (refine within_of_snd (by assumption) ?_)
    | (refine within_of_fst (by assumption) ?_)
    | (split)

theorem within_State_moveDuties {s : State} (old : Nat) (new : Nat) (hs : Within m s₀ s) (hm : Sub 0x8000000000000000000000000000100000000000000000000000000000000000000000000000000400C0000000000000000000000 m)  : Within m s₀ (State.moveDuties s old new) := by
  unfold State.moveDuties
  repeat' first
    | with_reducible assumption
    | exact Sub.up hm (by decide)
    | exact Sub.bit hm (by decide)
    | (intro x; (first | (refine within_cut (m := m) (s₀ := s₀) x ?_ ?_; unfold x; rotate_left; clear_value x; intro hx) | skip))
    | lift_lets -underBinder
    | with_reducible apply within_ite
    | with_reducible apply within_State_showBound
    | with_reducible apply within_State_setBusy
    | with_reducible refine within_State_modSvc _ ?_ (Sub.up hm (by decide)) rfl
    | with_reducible refine within_State_modSvc _ ?_ (Sub.up hm (by decide)) (by simp)
    | with_reducible apply within_State_put
    | (apply within_mk <;> first | exact Or.inl (by with_reducible rfl) | exact Or.inr (Sub.bit hm (by decide)) | with_reducible rfl | rfl | exact Or.inl rfl | (simp; done) | skip)

theorem within_takeoverEffect (c : Nat) {s : State} (h : Within m s₀ s) (hm : Sub 0x8008000000000000000000000000100000026000000000000000000000000000000000000000000400C0000000000000000000000 m) :
    Within m s₀ (takeoverEffect c s) := by
  unfold takeoverEffect
  split
  · exact h
  · next role _ =>
    lift_lets -underBinder
    intro pick t
    have ht : Within m s₀ t := within_State_modSvc _ h (Sub.up hm (by decide)) rfl
    clear_value t pick
    split
    · exact within_State_moveDuties _ _ (within_State_setRole _ _ ht (Sub.up hm (by decide))) (Sub.up hm (by decide))
    · apply within_ite <;> intro _
      · exact within_State_restartKeeper h (Sub.up hm (by decide))
      · exact ht

theorem within_coreRestartEffect (c : Nat) {s : State} (hs : Within m s₀ s) (hm : Sub 0x800000000000000000000000000000000002200000000000000000000000000000000000000000000000000000000000000000000 m)  : Within m s₀ (coreRestartEffect c s) := by
  unfold coreRestartEffect
  repeat' first
    | with_reducible assumption
    | exact Sub.up hm (by decide)
    | exact Sub.bit hm (by decide)
    | (intro x; (first | (refine within_cut (m := m) (s₀ := s₀) x ?_ ?_; unfold x; rotate_left; clear_value x; intro hx) | skip))
    | lift_lets -underBinder
    | with_reducible apply within_ite
    | with_reducible apply within_State_setRole
    | with_reducible refine within_State_modSvc _ ?_ (Sub.up hm (by decide)) rfl
    | with_reducible refine within_State_modSvc _ ?_ (Sub.up hm (by decide)) (by simp)
    | (apply within_mk <;> first | exact Or.inl (by with_reducible rfl) | exact Or.inr (Sub.bit hm (by decide)) | with_reducible rfl | rfl | exact Or.inl rfl | (simp; done) | skip)

theorem within_svcCtrl (w : Word) {s : State} (hs : Within m s₀ s) (hm : Sub 0x800800000000000000000000000010000002E000000000000000000000000000000000000000000400C0000000000000000000000 m)  : Within m s₀ (svcCtrl w s) := by
  unfold svcCtrl
  repeat' first
    | with_reducible assumption
    | exact Sub.up hm (by decide)
    | exact Sub.bit hm (by decide)
    | (intro x; (first | (refine within_cut (m := m) (s₀ := s₀) x ?_ ?_; unfold x; rotate_left; clear_value x; intro hx) | skip))
    | lift_lets -underBinder
    | with_reducible apply within_ite
    | with_reducible apply within_State_restartKeeper
    | with_reducible refine within_State_modSvc _ ?_ rfl
    | with_reducible refine within_State_modSvc _ ?_ (by simp)
    | with_reducible apply within_State_swWrite
    | with_reducible refine within_State_modSvc _ ?_ (Sub.up hm (by decide)) rfl
    | with_reducible refine within_State_modSvc _ ?_ (Sub.up hm (by decide)) (by simp)
    | (apply within_mk <;> first | exact Or.inl (by with_reducible rfl) | exact Or.inr (Sub.bit hm (by decide)) | with_reducible rfl | rfl | exact Or.inl rfl | (simp; done) | skip)
    | (refine within_of_snd (by assumption) ?_)
    | (refine within_of_fst (by assumption) ?_)
    | (split)

theorem within_wardenHangEffect {s : State} (hs : Within m s₀ s) (hm : Sub 0x800000000000000000000200000000000000400000000000000000000000000000000000000000000000000000000000000000000 m)  : Within m s₀ (wardenHangEffect s) := by
  unfold wardenHangEffect
  repeat' first
    | with_reducible assumption
    | exact Sub.up hm (by decide)
    | exact Sub.bit hm (by decide)
    | (intro x; (first | (refine within_cut (m := m) (s₀ := s₀) x ?_ ?_; unfold x; rotate_left; clear_value x; intro hx) | skip))
    | lift_lets -underBinder
    | with_reducible apply within_ite
    | with_reducible refine within_State_modSvc _ ?_ (Sub.up hm (by decide)) rfl
    | with_reducible refine within_State_modSvc _ ?_ (Sub.up hm (by decide)) (by simp)
    | with_reducible apply within_State_put
    | with_reducible apply within_State_ev
    | with_reducible apply within_State_logFault
    | (apply within_mk <;> first | exact Or.inl (by with_reducible rfl) | exact Or.inr (Sub.bit hm (by decide)) | with_reducible rfl | rfl | exact Or.inl rfl | (simp; done) | skip)

theorem within_wardenDoneEffect {s : State} (hs : Within m s₀ s) (hm : Sub 0x80080000000000000000020000001000000E6000000000000000000000000000000000000000000400C0000000000000000000000 m)  : Within m s₀ (wardenDoneEffect s) := by
  unfold wardenDoneEffect
  repeat' first
    | with_reducible assumption
    | exact Sub.up hm (by decide)
    | exact Sub.bit hm (by decide)
    | (intro x; (first | (refine within_cut (m := m) (s₀ := s₀) x ?_ ?_; unfold x; rotate_left; clear_value x; intro hx) | skip))
    | lift_lets -underBinder
    | with_reducible apply within_ite
    | with_reducible apply within_State_restartKeeper
    | with_reducible refine within_State_modSvc _ ?_ rfl
    | with_reducible refine within_State_modSvc _ ?_ (by simp)
    | with_reducible apply within_State_put
    | with_reducible apply within_State_handleHang
    | with_reducible apply within_foldl
    | with_reducible refine within_State_modSvc _ ?_ (Sub.up hm (by decide)) rfl
    | with_reducible refine within_State_modSvc _ ?_ (Sub.up hm (by decide)) (by simp)
    | with_reducible apply within_State_expireTrial
    | (apply within_mk <;> first | exact Or.inl (by with_reducible rfl) | exact Or.inr (Sub.bit hm (by decide)) | with_reducible rfl | rfl | exact Or.inl rfl | (simp; done) | skip)
    | (refine within_of_snd (by assumption) ?_)
    | (refine within_of_fst (by assumption) ?_)
    | (split)

theorem within_State_haltCore {s : State} (c : Nat) (hs : Within m s₀ s) (hm : Sub 0x100000000000000000000000000000000000000000000000000400C0000000000000000000000 m)  : Within m s₀ (State.haltCore s c) := by
  unfold State.haltCore
  repeat' first
    | with_reducible assumption
    | exact Sub.up hm (by decide)
    | exact Sub.bit hm (by decide)
    | (intro x; (first | (refine within_cut (m := m) (s₀ := s₀) x ?_ ?_; unfold x; rotate_left; clear_value x; intro hx) | skip))
    | lift_lets -underBinder
    | with_reducible apply within_ite
    | with_reducible apply within_State_setBusy
    | with_reducible apply within_State_put

theorem within_State_resumeCore {s : State} (c : Nat) (hs : Within m s₀ s) (hm : Sub 0x120E0000000000000000000000000100000000000000000000000000000000000000000000000000400C0000000004319008020000 m)  : Within m s₀ (State.resumeCore s c) := by
  unfold State.resumeCore
  repeat' first
    | with_reducible assumption
    | exact Sub.up hm (by decide)
    | exact Sub.bit hm (by decide)
    | (intro x; (first | (refine within_cut (m := m) (s₀ := s₀) x ?_ ?_; unfold x; rotate_left; clear_value x; intro hx) | skip))
    | lift_lets -underBinder
    | with_reducible apply within_ite
    | with_reducible apply within_State_setBusy
    | with_reducible apply within_State_put
    | with_reducible apply within_State_refill

theorem within_brkCtrl (w : Word) {s : State} (hs : Within m s₀ s) (hm : Sub 0x120E00000000000000000000000001C0000000000000000000000000000000000000000000000000400C0000000004319008020000 m)  : Within m s₀ (brkCtrl w s) := by
  unfold brkCtrl
  repeat' first
    | with_reducible assumption
    | exact Sub.up hm (by decide)
    | exact Sub.bit hm (by decide)
    | (intro x; (first | (refine within_cut (m := m) (s₀ := s₀) x ?_ ?_; unfold x; rotate_left; clear_value x; intro hx) | skip))
    | lift_lets -underBinder
    | with_reducible apply within_ite
    | with_reducible apply within_State_ev
    | with_reducible apply within_State_swWrite
    | with_reducible apply within_State_haltCore
    | with_reducible apply within_State_resumeCore

theorem within_breakpointEffect (c : Nat) {s : State} (hs : Within m s₀ s) (hm : Sub 0x100000000000000000000000000000000000000000000000000400C0000000000000000000000 m)  : Within m s₀ (breakpointEffect c s) := by
  unfold breakpointEffect
  repeat' first
    | with_reducible assumption
    | exact Sub.up hm (by decide)
    | exact Sub.bit hm (by decide)
    | intro _
    | with_reducible apply within_ite
    | with_reducible apply within_State_haltCore

theorem within_barrierCtrl (w : Word) {s : State} (hs : Within m s₀ s) (hm : Sub 0x800000000000000000000000000000000400400000000000000000000000000000000000000000000000000000000000000000000 m)  : Within m s₀ (barrierCtrl w s) := by
  unfold barrierCtrl
  repeat' first
    | with_reducible assumption
    | exact Sub.up hm (by decide)
    | exact Sub.bit hm (by decide)
    | (intro x; (first | (refine within_cut (m := m) (s₀ := s₀) x ?_ ?_; unfold x; rotate_left; clear_value x; intro hx) | skip))
    | lift_lets -underBinder
    | with_reducible apply within_ite
    | with_reducible refine within_State_modSvc _ ?_ (Sub.up hm (by decide)) rfl
    | with_reducible refine within_State_modSvc _ ?_ (Sub.up hm (by decide)) (by simp)
    | with_reducible apply within_State_ev
    | with_reducible apply within_State_swWrite
    | (apply within_mk <;> first | exact Or.inl (by with_reducible rfl) | exact Or.inr (Sub.bit hm (by decide)) | with_reducible rfl | rfl | exact Or.inl rfl | (simp; done) | skip)

theorem within_engCmd (w : Word) {s : State} (hs : Within m s₀ s) (hm : Sub 0x800000000000000000000000000000008000000000000000000000000000000000080004000200000000000000000000000000000 m)  : Within m s₀ (engCmd w s) := by
  unfold engCmd
  repeat' first
    | with_reducible assumption
    | exact Sub.up hm (by decide)
    | exact Sub.bit hm (by decide)
    | (intro x; (first | (refine within_cut (m := m) (s₀ := s₀) x ?_ ?_; unfold x; rotate_left; clear_value x; intro hx) | skip))
    | lift_lets -underBinder
    | with_reducible apply within_ite
    | with_reducible refine within_State_modSvc _ ?_ (Sub.up hm (by decide)) rfl
    | with_reducible refine within_State_modSvc _ ?_ (Sub.up hm (by decide)) (by simp)
    | with_reducible apply within_State_put
    | with_reducible apply within_State_swWrite
    | (refine within_of_snd (by assumption) ?_)
    | (refine within_of_fst (by assumption) ?_)
    | (split)
    | (apply within_mk <;> first | exact Or.inl (by with_reducible rfl) | exact Or.inr (Sub.bit hm (by decide)) | with_reducible rfl | rfl | exact Or.inl rfl | (simp; done) | skip)

end Sys2Proof.Machine
end

