-- ==== Sys2Proof/Laws/WithinWeir.lean ====
section
/-! SUPPORT. What the operations of Machine/Weir.lean can change, and that they keep a state sound. -/
namespace Sys2Proof.Machine

variable {m : Nat} {s₀ : State}

theorem within_State_returnBuf {s : State} (r : Nat) (x : ReadyBatch) (hs : Within m s₀ s) (hm : Sub 0x204000000000000000000000000000000000000000000000000000000000001000000000000000040080000000000008000000000 m)  : Within m s₀ (State.returnBuf s r x) := by
  unfold State.returnBuf
  repeat' first
    | with_reducible assumption
    | exact Sub.up hm (by decide)
    | exact Sub.bit hm (by decide)
    | (intro x; (first | (refine within_cut (m := m) (s₀ := s₀) x ?_ ?_; unfold x; rotate_left; clear_value x; intro hx) | skip))
    | lift_lets -underBinder
    | with_reducible apply within_ite
    | with_reducible apply within_showBasin
    | with_reducible apply within_State_freeBufs
    | with_reducible apply within_State_modRill

theorem within_State_evict {s : State} (need room : Nat) (h : Within m s₀ s) (n : Nat) (hm : Sub 0x20A00000000000000000000000000000000000000010480060000000000000000000000000000000000000000000000000000000 m) :
    Within m s₀ (s.evict need room n) := by
  induction n generalizing s with
  | zero => exact h
  | succ n ih =>
    have hw := Sub.up (a := 0x20000000000000000000000000000000000000000000000000000000000000000000000000000000000000000000000000000000) hm (by decide)
    unfold State.evict
    apply within_ite <;> intro _
    · exact h
    · split
      · exact ih (within_State_modWeir _ h hw rfl)
      · split
        · next b _ =>
          have h1 := within_State_modBatch b.id (fun b => { b with pooled := true }) h (Sub.up hm (by decide))
          have h2 : Within m s₀ (b.owedFlows.foldl (fun s f => s.miss b.id f) (s.modBatch b.id (fun b => { b with pooled := true }))) :=
            within_foldl (fun s f hs => within_State_miss _ _ hs (Sub.up hm (by decide))) h1
          exact ih (within_State_modWeir _ (within_State_settle _ (within_State_ev _ h2 (Sub.bit hm (by decide))) (Sub.up hm (by decide)))
            hw rfl)
        · exact h

theorem within_enqueueEffect (r : Nat) {s : State} (hs : Within m s₀ s) (hm : Sub 0x322EE00000000000000000000000000000000000000010480260010000200005000000000000000040080000000004319008020000 m)  : Within m s₀ (enqueueEffect r s) := by
  unfold enqueueEffect
  repeat' first
    | with_reducible assumption
    | exact Sub.up hm (by decide)
    | exact Sub.bit hm (by decide)
    | (intro x; (first | (refine within_cut (m := m) (s₀ := s₀) x ?_ ?_; unfold x; rotate_left; clear_value x; intro hx) | clear_value x | skip))
    | lift_lets -underBinder
    | with_reducible apply within_ite
    | with_reducible apply within_State_ev
    | with_reducible apply within_State_modRill
    | with_reducible apply within_State_refill
    | with_reducible apply within_State_returnBuf
    | with_reducible refine within_State_modWeir _ ?_ rfl
    | with_reducible refine within_State_modWeir _ ?_ (by simp)
    | with_reducible apply within_State_setFlowEntry
    | with_reducible apply within_State_showWeir
    | with_reducible apply within_State_settle
    | with_reducible apply within_State_miss
    | with_reducible apply within_State_offerAll
    | with_reducible apply within_State_offerStrict
    | apply within_State_evict
    | with_reducible apply within_foldl
    | (intro x; (first | (refine within_cut (m := m) (s₀ := s₀) x ?_ ?_; unfold x; rotate_left; clear_value x; intro hx) | skip))
    | with_reducible apply within_State_evict
    | with_reducible apply within_State_submitJob
    | with_reducible refine within_State_modWeir _ ?_ (Sub.up hm (by decide)) rfl
    | with_reducible refine within_State_modWeir _ ?_ (Sub.up hm (by decide)) (by simp)
    | (refine within_of_snd (by assumption) ?_)
    | (refine within_of_fst (by assumption) ?_)
    | (split)
    | (apply within_mk <;> first | exact Or.inl (by with_reducible rfl) | exact Or.inr (Sub.bit hm (by decide)) | with_reducible rfl | rfl | exact Or.inl rfl | (simp; done) | skip)

theorem within_State_sendHead {s : State} (k : Nat) (f : Nat) (start : Nat) (hs : Within m s₀ s) (hm : Sub 0x1030E00000000000000000000000604000000000000000800000300000000000000000000000000000000000000000000000000004 m)  : Within m s₀ (State.sendHead s k f start) := by
  unfold State.sendHead
  repeat' first
    | with_reducible assumption
    | exact Sub.up hm (by decide)
    | exact Sub.bit hm (by decide)
    | (intro x; (first | (refine within_cut (m := m) (s₀ := s₀) x ?_ ?_; unfold x; rotate_left; clear_value x; intro hx) | skip))
    | lift_lets -underBinder
    | with_reducible apply within_ite
    | with_reducible apply within_finish
    | with_reducible apply within_State_bump
    | with_reducible apply within_State_bumpPair
    | with_reducible apply within_State_trace
    | with_reducible apply within_State_setFlow
    | with_reducible apply within_State_modSpout
    | with_reducible apply within_State_frameOut
    | with_reducible apply within_State_modBatch
    | with_reducible apply within_State_emit
    | (refine within_of_snd (by assumption) ?_)
    | (refine within_of_fst (by assumption) ?_)
    | (dsimp -zeta only)
    | (split)

theorem within_frameSlotEffect (k : Nat) {s : State} (hs : Within m s₀ s) (hm : Sub 0x1030E00000000000000000000000604000000000000000800220310000000000000000000000000000000000000000000000000004 m)  : Within m s₀ (frameSlotEffect k s) := by
  unfold frameSlotEffect
  repeat' first
    | with_reducible assumption
    | exact Sub.up hm (by decide)
    | exact Sub.bit hm (by decide)
    | intro _
    | with_reducible apply within_ite
    | with_reducible apply within_State_sendHead
    | with_reducible apply within_State_showWeir
    | (refine within_of_snd (by assumption) ?_)
    | (refine within_of_fst (by assumption) ?_)
    | (split)

theorem within_shaperEffect {s : State} (hs : Within m s₀ s) (hm : Sub 0x20400000000000000000000000000000000000000000000000000000000000000000000000000000000000000000000000000000 m)  : Within m s₀ (shaperEffect s) := by
  unfold shaperEffect
  repeat' first
    | with_reducible assumption
    | exact Sub.up hm (by decide)
    | exact Sub.bit hm (by decide)
    | (intro x; (first | (refine within_cut (m := m) (s₀ := s₀) x ?_ ?_; unfold x; rotate_left; clear_value x; intro hx) | skip))
    | lift_lets -underBinder
    | with_reducible apply within_ite
    | with_reducible apply within_State_modFlow
    | with_reducible apply within_foldl

theorem within_State_takeFlow {s : State} (f : Nat) (new : List Byte) (hs : Within m s₀ s) (hm : Sub 0x20400000000000000000000000000000000000000000000000030000000000000000000000000000000000000000000000000000 m)  : Within m s₀ (State.takeFlow s f new) := by
  unfold State.takeFlow
  repeat' first
    | with_reducible assumption
    | exact Sub.up hm (by decide)
    | exact Sub.bit hm (by decide)
    | (intro x; (first | (refine within_cut (m := m) (s₀ := s₀) x ?_ ?_; unfold x; rotate_left; clear_value x; intro hx) | skip))
    | lift_lets -underBinder
    | with_reducible apply within_ite
    | with_reducible apply within_State_checkHeld
    | with_reducible apply within_State_fresh
    | with_reducible apply within_State_setFlowEntry
    | with_reducible apply within_State_setFlow
    | with_reducible apply within_State_each
    | with_reducible apply within_foldl
    | (refine within_of_snd (by assumption) ?_)
    | (refine within_of_fst (by assumption) ?_)
    | (split)

theorem within_State_writeFlow {s : State} (f : Nat) (new : List Byte) (hs : Within m s₀ s) (hm : Sub 0x20400000000000000000000000000000000000000000000000030000000000000000000000000000000000000000000000000000 m)  : Within m s₀ (State.writeFlow s f new).1 := by
  unfold State.writeFlow
  repeat' first
    | with_reducible assumption
    | exact Sub.up hm (by decide)
    | exact Sub.bit hm (by decide)
    | (intro x; (first | (refine within_cut (m := m) (s₀ := s₀) x ?_ ?_; unfold x; rotate_left; clear_value x; intro hx) | skip))
    | lift_lets -underBinder
    | with_reducible apply within_ite
    | with_reducible apply within_State_takeFlow
    | (refine within_of_snd (by assumption) ?_)
    | (refine within_of_fst (by assumption) ?_)
    | (dsimp -zeta only)
    | (split)

theorem within_State_writeGroup {s : State} (g : Nat) (new : List Byte) (hs : Within m s₀ s) (hm : Sub 0x20400000000000000000000000000000000000000000000000000000000000000000000000000000000000000000000000000000 m)  : Within m s₀ (State.writeGroup s g new).1 := by
  unfold State.writeGroup
  repeat' first
    | with_reducible assumption
    | exact Sub.up hm (by decide)
    | exact Sub.bit hm (by decide)
    | (intro x; (first | (refine within_cut (m := m) (s₀ := s₀) x ?_ ?_; unfold x; rotate_left; clear_value x; intro hx) | skip))
    | lift_lets -underBinder
    | with_reducible apply within_ite
    | with_reducible apply within_State_setGroupEntry
    | with_reducible apply within_State_setReady
    | with_reducible apply within_State_offerStrict
    | (refine within_of_snd (by assumption) ?_)
    | (refine within_of_fst (by assumption) ?_)
    | (dsimp -zeta only)
    | (split)

theorem within_State_setTblData {s : State} (bs : List Byte) (hs : Within m s₀ s) (hm : Sub 0x800000000000000000000000000000000000000000000000000000000 m)  : Within m s₀ (State.setTblData s bs) := by
  unfold State.setTblData
  repeat' first
    | with_reducible assumption
    | exact Sub.up hm (by decide)
    | exact Sub.bit hm (by decide)
    | (intro x; (first | (refine within_cut (m := m) (s₀ := s₀) x ?_ ?_; unfold x; rotate_left; clear_value x; intro hx) | skip))
    | lift_lets -underBinder
    | with_reducible apply within_State_setWord
    | with_reducible apply within_State_each

theorem within_tblCtrl (w : Word) {s : State} (hs : Within m s₀ s) (hm : Sub 0x20400000000000000000000000000000000000000000000E60030000000000000000000000000000000000000000000000000000 m)  : Within m s₀ (tblCtrl w s) := by
  unfold tblCtrl
  repeat' first
    | with_reducible assumption
    | exact Sub.up hm (by decide)
    | exact Sub.bit hm (by decide)
    | (intro x; (first | (refine within_cut (m := m) (s₀ := s₀) x ?_ ?_; unfold x; rotate_left; clear_value x; intro hx) | skip))
    | lift_lets -underBinder
    | with_reducible apply within_ite
    | with_reducible apply within_State_ev
    | with_reducible apply within_State_swWrite
    | with_reducible apply within_State_writeFlow
    | with_reducible apply within_State_writeGroup
    | with_reducible apply within_State_setTblData
    | with_reducible apply within_State_showWeir
    | (refine within_of_snd (by assumption) ?_)
    | (refine within_of_fst (by assumption) ?_)
    | (dsimp -zeta only)
    | (split)

theorem within_stallEffect' (f : Nat) {s : State} (hs : Within m s₀ s) (hm : Sub 0x20E00000000000000000000000000000000000000010080260030000000000000000000000000000000000000000000000000000 m) : Within m s₀ (stallEffect' f s) := by
  unfold stallEffect'
  repeat' first
    | with_reducible assumption
    | exact Sub.up hm (by decide)
    | exact Sub.bit hm (by decide)
    | (intro x; (first | (refine within_cut (m := m) (s₀ := s₀) x ?_ ?_; unfold x; rotate_left; clear_value x; intro hx) | skip))
    | lift_lets -underBinder
    | with_reducible apply within_ite
    | with_reducible apply within_State_sendControl
    | with_reducible apply within_State_evi
    | with_reducible apply within_State_ev
    | with_reducible apply within_State_completionRecord
    | with_reducible apply within_State_makeUnreachable
    | with_reducible apply within_State_showWeir
    | (refine within_of_snd (by assumption) ?_)
    | (refine within_of_fst (by assumption) ?_)
    | (split)
    | (dsimp -zeta only)

theorem within_memberReadyEffect (f : Nat) {s : State} (hs : Within m s₀ s) (hm : Sub 0x20400000000000000000000000000000000000000000000220010000000000000000000000000000000000000000000000000000 m)  : Within m s₀ (memberReadyEffect f s) := by
  unfold memberReadyEffect
  repeat' first
    | with_reducible assumption
    | exact Sub.up hm (by decide)
    | exact Sub.bit hm (by decide)
    | (intro x; (first | (refine within_cut (m := m) (s₀ := s₀) x ?_ ?_; unfold x; rotate_left; clear_value x; intro hx) | skip))
    | lift_lets -underBinder
    | with_reducible apply within_ite
    | with_reducible apply within_State_setFlow
    | with_reducible apply within_State_showWeir
    | with_reducible apply within_State_offer
    | with_reducible apply within_State_setReady
    | with_reducible apply within_State_offerStrict
    | with_reducible apply within_foldl

theorem within_resendCtrl (w : Word) {s : State} (hs : Within m s₀ s) (hm : Sub 0x20400000000000000000000000000000000000000000002260010000000000000000000000000000000000000000000000000000 m)  : Within m s₀ (resendCtrl w s) := by
  unfold resendCtrl
  repeat' first
    | with_reducible assumption
    | exact Sub.up hm (by decide)
    | exact Sub.bit hm (by decide)
    | (intro x; (first | (refine within_cut (m := m) (s₀ := s₀) x ?_ ?_; unfold x; rotate_left; clear_value x; intro hx) | skip))
    | lift_lets -underBinder
    | with_reducible apply within_ite
    | with_reducible apply within_State_ev
    | with_reducible apply within_State_swWrite
    | with_reducible apply within_State_modFlow
    | with_reducible apply within_State_showWeir
    | with_reducible apply within_foldl
    | (refine within_of_snd (by assumption) ?_)
    | (refine within_of_fst (by assumption) ?_)
    | (split)

theorem within_holdExpireEffect (id : Nat) {s : State} (hs : Within m s₀ s) (hm : Sub 0x20E00000000000000000000000000000000000000010480260010000000000000000000000000000000000000000000000000000 m)  : Within m s₀ (holdExpireEffect id s) := by
  unfold holdExpireEffect
  repeat' first
    | with_reducible assumption
    | exact Sub.up hm (by decide)
    | exact Sub.bit hm (by decide)
    | (intro x; (first | (refine within_cut (m := m) (s₀ := s₀) x ?_ ?_; unfold x; rotate_left; clear_value x; intro hx) | skip))
    | lift_lets -underBinder
    | with_reducible apply within_ite
    | with_reducible apply within_State_showWeir
    | with_reducible apply within_State_settle
    | with_reducible apply within_State_miss
    | with_reducible apply within_State_setReady
    | with_reducible apply within_State_offerAll
    | with_reducible apply within_State_offerStrict
    | with_reducible apply within_foldl
    | (refine within_of_snd (by assumption) ?_)
    | (refine within_of_fst (by assumption) ?_)
    | (split)

theorem within_crHeadEffect (w : Word) {s : State} (hs : Within m s₀ s) (hm : Sub 0x20A000000000000000000000000000000000000000000C0020000000000000000000000000000000000000000000000000000000 m)  : Within m s₀ (crHeadEffect w s) := by
  unfold crHeadEffect
  repeat' first
    | with_reducible assumption
    | exact Sub.up hm (by decide)
    | exact Sub.bit hm (by decide)
    | (intro x; (first | (refine within_cut (m := m) (s₀ := s₀) x ?_ ?_; unfold x; rotate_left; clear_value x; intro hx) | clear_value x | skip))
    | lift_lets -underBinder
    | with_reducible apply within_ite
    | with_reducible apply within_State_putb
    | with_reducible apply within_State_swWrite
    | with_reducible refine within_State_modWeir _ ?_ (Sub.up hm (by decide)) rfl
    | with_reducible refine within_State_modWeir _ ?_ (Sub.up hm (by decide)) (by simp)
    | apply within_State_flushCr
    | (apply within_mk <;> first | exact Or.inl (by with_reducible rfl) | exact Or.inr (Sub.bit hm (by decide)) | with_reducible rfl | rfl | exact Or.inl rfl | (simp; done) | skip)

theorem within_weirCtrl (w : Word) {s : State} (hs : Within m s₀ s) (hm : Sub 0x20A000000000000000000000000000000000000000000800A0000000000000000000000000000000000000000000000000000000 m)  : Within m s₀ (weirCtrl w s) := by
  unfold weirCtrl
  repeat' first
    | with_reducible assumption
    | exact Sub.up hm (by decide)
    | exact Sub.bit hm (by decide)
    | (intro x; (first | (refine within_cut (m := m) (s₀ := s₀) x ?_ ?_; unfold x; rotate_left; clear_value x; intro hx) | skip))
    | lift_lets -underBinder
    | with_reducible apply within_ite
    | with_reducible apply within_State_put
    | with_reducible apply within_State_swWrite
    | with_reducible refine within_State_modWeir _ ?_ (Sub.up hm (by decide)) rfl
    | with_reducible refine within_State_modWeir _ ?_ (Sub.up hm (by decide)) (by simp)
    | with_reducible apply within_State_flushCr
    | with_reducible refine within_State_modWeir _ ?_ rfl
    | with_reducible refine within_State_modWeir _ ?_ (by simp)
    | (apply within_mk <;> first | exact Or.inl (by with_reducible rfl) | exact Or.inr (Sub.bit hm (by decide)) | with_reducible rfl | rfl | exact Or.inl rfl | (simp; done) | skip)
    | (refine within_of_snd (by assumption) ?_)
    | (refine within_of_fst (by assumption) ?_)
    | (split)

theorem within_cisternUeEffect (g : CisternRegion) {s : State} (hs : Within m s₀ s) (hm : Sub 0x1824E000000000000000000000006060900E0400000010480260010000000000000000000000000000000000000000000000000000 m)  : Within m s₀ (cisternUeEffect g s) := by
  unfold cisternUeEffect
  repeat' first
    | with_reducible assumption
    | exact Sub.up hm (by decide)
    | exact Sub.bit hm (by decide)
    | (intro x; (first | (refine within_cut (m := m) (s₀ := s₀) x ?_ ?_; unfold x; rotate_left; clear_value x; intro hx) | skip))
    | lift_lets -underBinder
    | with_reducible apply within_State_ev
    | with_reducible apply within_State_logFault
    | with_reducible apply within_State_trigger
    | with_reducible apply within_State_rillFault
    | with_reducible apply within_State_modFlow
    | with_reducible apply within_State_modBatch
    | with_reducible apply within_State_showWeir
    | with_reducible apply within_State_settle
    | with_reducible apply within_State_miss
    | with_reducible apply within_foldl
    | (refine within_of_snd (by assumption) ?_)
    | (refine within_of_fst (by assumption) ?_)
    | (split)

end Sys2Proof.Machine
end

