-- ==== Sys2Proof/Laws/WithinAccess.lean ====
section
/-! SUPPORT. What the operations of Machine/Access.lean can change, and that they keep a state sound. -/
namespace Sys2Proof.Machine

variable {m : Nat} {s₀ : State}

theorem within_State_latchRead {s : State} (rq : Requester) (r : Reg) (k : Nat) (inst : Nat) (hs : Within m s₀ s) (hm : Sub 0x80000000000000000007FC0000000000000000200000000000000000000000000000000000000000000000000000000000000 m)  : Within m s₀ (State.latchRead s rq r k inst) := by
  unfold State.latchRead
  repeat' first
    | with_reducible assumption
    | exact Sub.up hm (by decide)
    | exact Sub.bit hm (by decide)
    | (intro x; (first | (refine within_cut (m := m) (s₀ := s₀) x ?_ ?_; unfold x; rotate_left; clear_value x; intro hx) | skip))
    | lift_lets -underBinder
    | with_reducible apply within_State_setLatch
    | with_reducible apply within_foldl

theorem within_State_writeEntry {s : State} (rq : Requester) (r : Reg) (k inst : Nat) (w : Word) (hs : Within m s₀ s)
    (h1 : m.testBit r.ctorIdx = true) (h2 : Sub 0x100000000000000000000000000000000000000000000000000000000000000000000000000000000000000000000000000000 m) (h3 : ∀ hi c, r.widePair = some (hi, c) → m.testBit hi.ctorIdx = true) :
    Within m s₀ (s.writeEntry rq r k inst w) := by
  unfold State.writeEntry
  lift_lets -underBinder
  intro i
  refine within_ite (fun _ => hs) (fun _ => within_ite (fun _ => within_State_setStaged _ _ _ hs h2) (fun _ => ?_))
  split
  · split
    · exact within_State_setStaged _ _ _ (within_State_setWord (within_State_setWord hs _ _ _ h1) _ _ _ (h3 _ _ ‹_›)) h2
    · exact within_State_setWord hs _ _ _ h1
  · exact within_State_swWrite _ _ _ hs h1

theorem within_mirCtrlOpen (w : Word) {s : State} (hs : Within m s₀ s) (hm : Sub 0x21E400000000000000000000000000000000000000000000000000000000001000000000000000040080000000000018008000007 m)  : Within m s₀ (mirCtrlOpen w s) := by
  unfold mirCtrlOpen
  repeat' first
    | with_reducible assumption
    | exact Sub.up hm (by decide)
    | exact Sub.bit hm (by decide)
    | (intro x; (first | (refine within_cut (m := m) (s₀ := s₀) x ?_ ?_; unfold x; rotate_left; clear_value x; intro hx) | skip))
    | lift_lets -underBinder
    | with_reducible apply within_ite
    | with_reducible apply within_mirCtrlEffect
    | with_reducible apply within_replayStartEffect
    | (apply within_mk <;> first | exact Or.inl (by with_reducible rfl) | exact Or.inr (Sub.bit hm (by decide)) | with_reducible rfl | rfl | exact Or.inl rfl | (simp; done) | skip)
    | (refine within_of_snd (by assumption) ?_)
    | (refine within_of_fst (by assumption) ?_)
    | (split)

theorem within_thresholdEffect (p : Nat) (w : Word) {s : State} (hs : Within m s₀ s) (hm : Sub 0x21000000000000000040080000000000008000000000 m)  : Within m s₀ (thresholdEffect p w s) := by
  unfold thresholdEffect
  repeat' first
    | with_reducible assumption
    | exact Sub.up hm (by decide)
    | exact Sub.bit hm (by decide)
    | intro _
    | with_reducible apply within_showBasin
    | with_reducible apply within_State_swWrite

/-- The messages and the host interface are parts of every mask that an access is shown within. -/
theorem Reg.sub_written {r : Reg} (h : r.isSelect = none) (hm : Sub (Region.mask (.out :: .host :: r.written)) m) :
    Sub (Region.mask (.out :: .host :: .reg r :: .staged :: r.command)) m := by
  refine Sub.up hm (Region.mask_mono ?_)
  intro p hp
  simp only [Reg.written, h]
  simp only [List.mem_cons] at hp
  rcases hp with rfl | rfl | rfl | rfl | hp <;> simp [*]

theorem within_State_regEffect {s : State} (rq : Requester) (r : Reg) (k inst : Nat) (w : Word) (hs : Within m s₀ s)
    (hr : r.isSelect = none) (hw : Sub (Region.mask (.out :: .host :: r.written)) m) : Within m s₀ (s.regEffect rq r k inst w) := by
  have h3 : ∀ hi c, r.widePair = some (hi, c) → m.testBit hi.ctorIdx = true := by
    intro hi c he
    have hp : Region.reg hi ∈ Region.out :: .host :: r.written := by simp [Reg.written, hr, he]
    exact Sub.bit hw (Region.bit_mask hp)
  have hm := Reg.sub_written hr hw
  clear hw
  unfold State.regEffect
  split
  case h_42 =>
    exact within_State_writeEntry _ _ _ _ _ hs (Sub.bit hm (Region.bit_mask (p := .reg r) (by simp)))
      (Sub.up hm (Region.mask_mono (l := [.staged]) (by simp))) h3
  repeat' first
    | with_reducible assumption
    | exact Sub.up hm (by decide)
    | exact Sub.bit hm (by decide)
    | exact Sub.reg hm _
    | intro _
    | with_reducible apply within_State_showSource
    | with_reducible apply within_State_writeEntry
    | with_reducible apply within_mirCtrlOpen
    | with_reducible apply within_thresholdEffect
    | with_reducible apply within_actCtrl
    | with_reducible apply within_spareMapEffect
    | with_reducible apply within_signCtrlEffect
    | with_reducible apply within_dieCmdEffect
    | with_reducible apply within_nfcCtrl
    | with_reducible apply within_dflAckEffect
    | with_reducible apply within_State_showDies
    | with_reducible apply within_ownerWrite
    | with_reducible apply within_poolBanksEffect
    | with_reducible apply within_cpoolEffect
    | with_reducible apply within_minEffect
    | with_reducible apply within_fieldBurnEffect
    | with_reducible apply within_stwCtrl
    | with_reducible apply within_snapCtrl
    | with_reducible apply within_traceCtrl
    | with_reducible apply within_loopCtrlOpen
    | with_reducible apply within_inlCtrlOne
    | with_reducible apply within_loadCtrl
    | with_reducible apply within_lsCtrl
    | with_reducible apply within_State_swWrite
    | with_reducible apply within_pebbleCtrl
    | with_reducible apply within_rstCtrl
    | with_reducible apply within_svcCtrl
    | with_reducible apply within_brkCtrl
    | with_reducible apply within_barrierCtrl
    | with_reducible apply within_engCmd
    | with_reducible apply within_sluCtrl
    | with_reducible apply within_probeCtrl
    | with_reducible apply within_State_sptCtrlOne
    | with_reducible apply within_sdlCtrl
    | with_reducible apply within_goEffect
    | with_reducible apply within_queueCtrl
    | with_reducible apply within_cqHeadEffect
    | with_reducible apply within_hifCtrl
    | with_reducible apply within_tblCtrl
    | with_reducible apply within_resendCtrl
    | with_reducible apply within_crHeadEffect
    | with_reducible apply within_weirCtrl

theorem within_State_writeOne {s : State} (rq : Requester) (r : Reg) (k inst : Nat) (w : Word) (hs : Within m s₀ s)
    (hm : Sub (Region.mask (.out :: .host :: r.written)) m) : Within m s₀ (s.writeOne rq r k inst w) := by
  unfold State.writeOne
  split
  · next b hb => exact within_State_setSel _ _ _ hs (Sub.up hm (Region.mask_mono (l := [.sel]) (by simp [Reg.written, hb])))
  · exact within_ite (fun _ => hs) (fun _ => within_State_regEffect _ _ _ _ _ hs ‹_› hm)

theorem within_resignal (rq : Requester) (r : Reg) (written : List Nat) (w : Word) (before : State) {after : State} (hs : Within m s₀ after) (hm : Sub 0xA00000000000000000000000000000000000000000000000000000000000000000000000000000000000000000000000000000 m)  : Within m s₀ (resignal rq r written w before after) := by
  unfold resignal
  repeat' first
    | with_reducible assumption
    | exact Sub.up hm (by decide)
    | exact Sub.bit hm (by decide)
    | (intro x; (first | (refine within_cut (m := m) (s₀ := s₀) x ?_ ?_; unfold x; rotate_left; clear_value x; intro hx) | skip))
    | lift_lets -underBinder
    | with_reducible apply within_ite
    | with_reducible apply within_State_signal
    | with_reducible apply within_foldl

theorem within_State_writeReg {s : State} (rq : Requester) (r : Reg) (k : Nat) (w : Word) (hs : Within m s₀ s)
    (hm : Sub (Region.mask (.out :: .host :: r.written)) m) : Within m s₀ (s.writeReg rq r k w) := by
  unfold State.writeReg
  exact within_resignal _ _ _ _ _ (within_foldl (fun _ _ h => within_State_writeOne _ _ _ _ _ h hm) hs)
    (Sub.up hm (Region.mask_mono (l := [.out, .host]) (by simp)))

theorem within_State_writeMsix {s : State} (off : Nat) (value : Nat) (hs : Within m s₀ s) (hm : Sub 0xA00000000000000000000000000000000000000000000000000000000000000000000000000000000000000000000000000000 m)  : Within m s₀ (State.writeMsix s off value) := by
  unfold State.writeMsix
  repeat' first
    | with_reducible assumption
    | exact Sub.up hm (by decide)
    | exact Sub.bit hm (by decide)
    | (intro x; (first | (refine within_cut (m := m) (s₀ := s₀) x ?_ ?_; unfold x; rotate_left; clear_value x; intro hx) | skip))
    | lift_lets -underBinder
    | with_reducible apply within_ite
    | with_reducible apply within_State_signal
    | (apply within_mk <;> first | exact Or.inl (by with_reducible rfl) | exact Or.inr (Sub.bit hm (by decide)) | with_reducible rfl | rfl | exact Or.inl rfl | (simp; done) | skip)

theorem within_State_doWrite {s : State} (rq : Requester) (bar off size value : Nat) (hs : Within m s₀ s)
    (hm : Sub (Region.mask (.out :: .host :: writeParts bar off)) m) : Within m s₀ (s.doWrite rq bar off size value) := by
  have hx : Sub 0xA00000000000000000000000000000000000000000000000000000000000000000000000000000000000000000000000000000 m := Sub.up hm (Region.mask_mono (l := [.out, .host]) (by simp))
  unfold State.doWrite
  lift_lets -underBinder
  intro w reason
  refine within_ite (fun _ => ?_) (fun _ => within_ite (fun _ => ?_) (fun _ => ?_))
  · exact within_State_refuseAccess _ _ _ _ _ _ hs (Sub.up hm (Region.mask_mono (l := .out :: violParts) (by
      intro p hp; rcases List.mem_cons.1 hp with rfl | hp <;> simp [writeParts, *])))
  · exact within_ite (fun _ => within_State_writeMsix _ _ (within_State_writeMsix _ _ hs hx) hx) (fun _ => within_State_writeMsix _ _ hs hx)
  · split
    · next r k he =>
      exact within_State_writeReg _ _ _ _ hs (Sub.up hm (Region.mask_mono (by
        intro p hp; simp only [List.mem_cons] at hp; rcases hp with rfl | rfl | hp <;> simp [writeParts, *])))
    · exact hs

theorem within_State_doRead {s : State} (rq : Requester) (bar : Nat) (off : Nat) (size : Nat) (hs : Within m s₀ s) (hm : Sub 0x2800000000000E0000007FC0000000000000000200000000000000000000000000000000000000000000000000000000000000 m)  : Within m s₀ (State.doRead s rq bar off size) := by
  unfold State.doRead
  repeat' first
    | with_reducible assumption
    | exact Sub.up hm (by decide)
    | exact Sub.bit hm (by decide)
    | (intro x; (first | (refine within_cut (m := m) (s₀ := s₀) x ?_ ?_; unfold x; rotate_left; clear_value x; intro hx) | skip))
    | lift_lets -underBinder
    | with_reducible apply within_ite
    | with_reducible apply within_State_latchRead
    | with_reducible apply within_State_refuseAccess
    | with_reducible apply within_State_emit
    | (refine within_of_snd (by assumption) ?_)
    | (refine within_of_fst (by assumption) ?_)
    | (split)

theorem within_State_doBar4 {s : State} (addr : Nat) (len : Nat) (write : Option (List Byte)) (corrected : Option Nat) (uncorr : Bool) (hs : Within m s₀ s) (hm : Sub 0x8002100000000000E000000000000000000000000000000000000000000F000000000000000000000000000000000000000000000 m)  : Within m s₀ (State.doBar4 s addr len write corrected uncorr) := by
  unfold State.doBar4
  repeat' first
    | with_reducible assumption
    | exact Sub.up hm (by decide)
    | exact Sub.bit hm (by decide)
    | (intro x; (first | (refine within_cut (m := m) (s₀ := s₀) x ?_ ?_; unfold x; rotate_left; clear_value x; intro hx) | skip))
    | lift_lets -underBinder
    | with_reducible apply within_ite
    | with_reducible apply within_State_eccCorrected
    | with_reducible apply within_State_eccUncorr
    | with_reducible apply within_State_refuseAccess
    | with_reducible apply within_State_emit
    | with_reducible apply within_State_logFault
    | with_reducible apply within_State_wrBytes
    | (refine within_of_snd (by assumption) ?_)
    | (refine within_of_fst (by assumption) ?_)
    | (split)

theorem within_writeAccess (rq : Requester) (bar off size value : Nat) {s : State} (hs : Within m s₀ s)
    (hm : Sub (Region.mask (.out :: .host :: writeParts bar off)) m) : Within m s₀ (writeAccess rq bar off size value s) := by
  unfold writeAccess
  refine within_ite (fun _ => hs) (fun _ => within_ite (fun _ => ?_) (fun _ => within_State_doWrite _ _ _ _ _ hs hm))
  exact within_State_holdAccess _ _ hs (Sub.up hm (Region.mask_mono (l := [.out, .power]) (by simp [writeParts])))

theorem within_readAccess (rq : Requester) (bar : Nat) (off : Nat) (size : Nat) {s : State} (hs : Within m s₀ s) (hm : Sub 0x12800000000000E0000007FC0000000000000000200000000000000000000000000000000000000000000000000000000000000 m)  : Within m s₀ (readAccess rq bar off size s) := by
  unfold readAccess
  repeat' first
    | with_reducible assumption
    | exact Sub.up hm (by decide)
    | exact Sub.bit hm (by decide)
    | intro _
    | with_reducible apply within_ite
    | with_reducible apply within_State_doRead
    | with_reducible apply within_State_holdAccess

theorem within_windowAccess (addr : Nat) (len : Nat) (write : Option (List Byte)) (corrected : Option Nat) (uncorr : Bool) {s : State} (hs : Within m s₀ s) (hm : Sub 0x8012100000000000E000000000000000000000000000000000000000000F000000000000000000000000000000000000000000000 m)  : Within m s₀ (windowAccess addr len write corrected uncorr s) := by
  unfold windowAccess
  repeat' first
    | with_reducible assumption
    | exact Sub.up hm (by decide)
    | exact Sub.bit hm (by decide)
    | intro _
    | with_reducible apply within_ite
    | with_reducible apply within_State_doBar4
    | with_reducible apply within_State_holdAccess

theorem Reg.written_all (hm : Sub 0xFFFFFD00000000000FFFFFFFFFFFFFFFFFFFFFFFFFFFFFFFFFFFFFFFFFFFFFFFFFFFFFFFFFFFFFFFFFFFFFFFFFFFFFFFFFFFFFFFFF m) (r : Reg) : Sub (Region.mask (.out :: .host :: r.written)) m := by
  have hall : ∀ p : Region, p ≠ .pending → m.testBit p.bit = true := fun p hp => by
    cases p
    case reg r => exact Sub.reg hm r
    case pending => exact absurd rfl hp
    all_goals exact Sub.bit hm (by decide)
  have hc : Region.pending ∉ r.command := by unfold Reg.command; split <;> decide
  refine Region.mask_sub (fun p hp => hall p ?_)
  rintro rfl
  unfold Reg.written at hp
  split at hp
  · simp at hp
  · split at hp <;> simp_all

theorem writeParts_all (hm : Sub 0xFFFFFD00000000000FFFFFFFFFFFFFFFFFFFFFFFFFFFFFFFFFFFFFFFFFFFFFFFFFFFFFFFFFFFFFFFFFFFFFFFFFFFFFFFFFFFFFFFFF m) (bar off : Nat) : Sub (Region.mask (.out :: .host :: writeParts bar off)) m := by
  refine Region.mask_sub (fun p hp => ?_)
  simp only [writeParts, List.mem_cons, List.mem_append] at hp
  rcases hp with rfl | rfl | (rfl | hp) | hp
  · exact Sub.bit hm (by decide)
  · exact Sub.bit hm (by decide)
  · exact Sub.bit hm (by decide)
  · exact Sub.bit (Sub.up hm (by decide : Sub (Region.mask violParts) _)) (Region.bit_mask hp)
  · split at hp
    · exact Sub.bit (Reg.written_all hm _) (Region.bit_mask (List.mem_cons_of_mem _ (List.mem_cons_of_mem _ hp)))
    · cases hp

theorem within_State_serve {s : State} (a : HeldAccess) (hs : Within m s₀ s) (hm : Sub 0xFFFFFD00000000000FFFFFFFFFFFFFFFFFFFFFFFFFFFFFFFFFFFFFFFFFFFFFFFFFFFFFFFFFFFFFFFFFFFFFFFFFFFFFFFFFFFFFFFFF m) : Within m s₀ (s.serve a) := by
  unfold State.serve
  split
  · exact within_State_doWrite _ _ _ _ _ hs (writeParts_all hm _ _)
  · exact within_State_doRead _ _ _ _ hs (Sub.up hm (by decide))
  · exact within_ite (fun _ => within_State_writeOne _ _ _ _ _ hs (Reg.written_all hm _))
      (fun _ => within_State_writeOne _ _ _ _ _ hs (Reg.written_all hm _))
  · exact within_replayStartEffect _ _ hs (Sub.up hm (by decide))
  · exact within_State_doBar4 _ _ _ _ _ hs (Sub.up hm (by decide))

end Sys2Proof.Machine
end

