-- ==== Sys2Proof/Laws/ExecAccess.lean ====
section
/-! SUPPORT. Each command of Machine/Access.lean changes nothing outside its footprint, and keeps a sound state sound. -/
namespace Sys2Proof.Machine

variable {s t : State}

theorem within_exec_registerWrite {a0 a1 a2 a3 a4} (hs : Sound s) (h : exec (.registerWrite a0 a1 a2 a3 a4) s = .next t) :
    Within (Region.mask (footprint (.registerWrite a0 a1 a2 a3 a4))) s t := by
  have h1 : Within (Region.mask (footprint (.registerWrite a0 a1 a2 a3 a4))) s (finish s (writeAccess a0 a1 a2 a3 a4 s)) :=
    within_finish _ (within_writeAccess _ _ _ _ _ (Within.start hs) (Region.mask_mono fun p hp => hp))
      Region.mask_ends
  replace h : execRegisterWrite a0 a1 a2 a3 a4 s = .next t := h
  cases h
  exact h1

theorem within_exec_selectWrite {a0 a1 a2} (hs : Sound s) (h : exec (.selectWrite a0 a1 a2) s = .next t) :
    Within (Region.mask (footprint (.selectWrite a0 a1 a2))) s t := by
  cases h
  have hw : Sub (Region.mask (.out :: .host :: writeParts 0 (selReg a1).place.base)) (Region.mask (.out :: .host :: .power :: .sel :: violParts)) := by
    clear hs; cases a1 <;> decide
  exact within_finish _ (within_writeAccess _ _ _ _ _ (Within.start hs) hw) Region.mask_ends

theorem within_exec_lowWordRead {a0 a1 a2} (hs : Sound s) (h : exec (.lowWordRead a0 a1 a2) s = .next t) :
    Within (Region.mask (footprint (.lowWordRead a0 a1 a2))) s t := by
  have hm : Sub 0x1A800000000000E0000007FC0000000000000000200000000000000000000000000000000000000000000000000000000000000 (Region.mask (footprint (.lowWordRead a0 a1 a2))) := (by decide : Sub _ (Region.mask (.out :: .host :: (violParts ++ [.reg .SDL_TIME, .reg .DBG_W_DIGEST_HI, .reg .DBG_W_MIN, .reg .DBG_W_MAX, .reg .DBG_W_MEAN, .reg .DBG_W_FINITE, .reg .DBG_W_NONFINITE, .reg .DBG_W_STEP_LO, .reg .DBG_W_STEP_HI, .reg .DBG_W_HIST, .latched, .power]))))
  replace hs := Within.start (m := Region.mask (footprint (.lowWordRead a0 a1 a2))) hs
  replace h : execLowWordRead a0 a1 a2 s = .next t := h
  unfold execLowWordRead at h
  repeat' (first | (cases h; done) | split at h)
  all_goals try cases h
  all_goals repeat' first
    | with_reducible assumption
    | exact Sub.up hm (by decide)
    | exact Sub.bit hm (by decide)
    | with_reducible apply within_readAccess
    | with_reducible apply within_finish

theorem within_exec_bar4Access {a0 a1 a2 a3 a4} (hs : Sound s) (h : exec (.bar4Access a0 a1 a2 a3 a4) s = .next t) :
    Within (Region.mask (footprint (.bar4Access a0 a1 a2 a3 a4))) s t := by
  have hm : Sub 0x801A100000000000E000000000000000000000000000000000000000000F000000000000000000000000000000000000000000000 (Region.mask (footprint (.bar4Access a0 a1 a2 a3 a4))) := (by decide : Sub _ (Region.mask (.out :: .host :: (violParts ++ [.reg .RSV_EVENT, .reg .RSV_ECC_CORR, .reg .RSV_ECC_UNCORR, .reg .RSV_ECC_COL, .memory, .power, .svc]))))
  replace hs := Within.start (m := Region.mask (footprint (.bar4Access a0 a1 a2 a3 a4))) hs
  replace h : execBar4Access a0 a1 a2 a3 a4 s = .next t := h
  unfold execBar4Access at h
  repeat' (first | (cases h; done) | split at h)
  all_goals try cases h
  all_goals repeat' first
    | with_reducible assumption
    | exact Sub.up hm (by decide)
    | exact Sub.bit hm (by decide)
    | with_reducible apply within_windowAccess
    | with_reducible apply within_finish

theorem within_exec_registerRead {a0 a1 a2 a3} (hs : Sound s) (h : exec (.registerRead a0 a1 a2 a3) s = .next t) :
    Within (Region.mask (footprint (.registerRead a0 a1 a2 a3))) s t := by
  have hm : Sub 0x1A800000000000E0000007FC0000000000000000200000000000000000000000000000000000000000000000000000000000000 (Region.mask (footprint (.registerRead a0 a1 a2 a3))) := (by decide : Sub _ (Region.mask (.out :: .host :: (violParts ++ [.reg .SDL_TIME, .reg .DBG_W_DIGEST_HI, .reg .DBG_W_MIN, .reg .DBG_W_MAX, .reg .DBG_W_MEAN, .reg .DBG_W_FINITE, .reg .DBG_W_NONFINITE, .reg .DBG_W_STEP_LO, .reg .DBG_W_STEP_HI, .reg .DBG_W_HIST, .latched, .power]))))
  replace hs := Within.start (m := Region.mask (footprint (.registerRead a0 a1 a2 a3))) hs
  replace h : execRegisterRead a0 a1 a2 a3 s = .next t := h
  unfold execRegisterRead at h
  repeat' (first | (cases h; done) | split at h)
  all_goals try cases h
  all_goals repeat' first
    | with_reducible assumption
    | exact Sub.up hm (by decide)
    | exact Sub.bit hm (by decide)
    | with_reducible apply within_readAccess
    | with_reducible apply within_finish

end Sys2Proof.Machine
end

