-- ==== Sys2Proof/Laws/ExecActivation.lean ====
section
/-! SUPPORT. Each command of Machine/Activation.lean changes nothing outside its footprint, and keeps a sound state sound. -/
namespace Sys2Proof.Machine

variable {s t : State}

theorem within_exec_arm {a0} (hs : Sound s) (h : exec (.arm a0) s = .next t) :
    Within (Region.mask (footprint (.arm a0))) s t := by
  have hm : Sub 0x3A00000000000000000000000000000000000000000000000000000000000000000000000000000000000000000000009020000 (Region.mask (footprint (.arm a0))) := (by decide : Sub _ (Region.mask (.out :: .host :: ([.reg .CSC_EVENT, .reg .CSC_ACT_CTRL, .reg .CSC_ACT_STATUS, .power, .cascade]))))
  replace hs := Within.start (m := Region.mask (footprint (.arm a0))) hs
  replace h : execArm a0 s = .next t := h
  unfold execArm at h
  repeat' (first | (cases h; done) | split at h)
  all_goals try cases h
  all_goals repeat' first
    | with_reducible assumption
    | exact Sub.up hm (by decide)
    | exact Sub.bit hm (by decide)
    | with_reducible apply within_actCtrl
    | with_reducible apply within_State_viaReg
    | with_reducible apply within_finish
    | intro _

theorem within_exec_disarm {a0} (hs : Sound s) (h : exec (.disarm a0) s = .next t) :
    Within (Region.mask (footprint (.disarm a0))) s t := by
  have hm : Sub 0x3A00000000000000000000000000000000000000000000000000000000000000000000000000000000000000000000009020000 (Region.mask (footprint (.disarm a0))) := (by decide : Sub _ (Region.mask (.out :: .host :: ([.reg .CSC_EVENT, .reg .CSC_ACT_CTRL, .reg .CSC_ACT_STATUS, .power, .cascade]))))
  replace hs := Within.start (m := Region.mask (footprint (.disarm a0))) hs
  replace h : execDisarm a0 s = .next t := h
  unfold execDisarm at h
  repeat' (first | (cases h; done) | split at h)
  all_goals try cases h
  all_goals repeat' first
    | with_reducible assumption
    | exact Sub.up hm (by decide)
    | exact Sub.bit hm (by decide)
    | with_reducible apply within_actCtrl
    | with_reducible apply within_State_viaReg
    | with_reducible apply within_finish
    | intro _

theorem within_exec_weaveBoundary (hs : Sound s) (h : exec (.weaveBoundary) s = .next t) :
    Within (Region.mask (footprint .weaveBoundary)) s t := by
  have hm : Sub 0x2A00000000000000000000000000000000000000000000000000000000000000000000000000000000000000000000008020000 (Region.mask (footprint (.weaveBoundary))) := (by decide : Sub _ (Region.mask (.out :: .host :: ([.reg .CSC_EVENT, .reg .CSC_ACT_STATUS, .cascade]))))
  replace hs := Within.start (m := Region.mask (footprint (.weaveBoundary))) hs
  replace h : execWeaveBoundary s = .next t := h
  unfold execWeaveBoundary at h
  repeat' (first | (cases h; done) | split at h)
  all_goals try cases h
  all_goals repeat' first
    | with_reducible assumption
    | exact Sub.up hm (by decide)
    | exact Sub.bit hm (by decide)
    | with_reducible apply within_boundaryEffect
    | with_reducible apply within_finish

theorem within_exec_actDrainDone (hs : Sound s) (h : exec (.actDrainDone) s = .next t) :
    Within (Region.mask (footprint .actDrainDone)) s t := by
  have hm : Sub 0x2A00000000000000000000000000000000000000000000000000000000000000000000000000000000000000000000000000000 (Region.mask (footprint (.actDrainDone))) := (by decide : Sub _ (Region.mask (.out :: .host :: ([.cascade]))))
  replace hs := Within.start (m := Region.mask (footprint (.actDrainDone))) hs
  replace h : execActDrainDone s = .next t := h
  unfold execActDrainDone at h
  repeat' (first | (cases h; done) | split at h)
  all_goals try cases h
  all_goals repeat' first
    | with_reducible assumption
    | exact Sub.up hm (by decide)
    | exact Sub.bit hm (by decide)
    | with_reducible apply within_drainDoneEffect
    | with_reducible apply within_finish

theorem within_exec_actSwapDone (hs : Sound s) (h : exec (.actSwapDone) s = .next t) :
    Within (Region.mask (footprint .actSwapDone)) s t := by
  have hm : Sub 0x8826E00000000000000000000000010000000000000000000000000000000000000080004000200000000000000000006FC0010000 (Region.mask (footprint (.actSwapDone))) := (by decide : Sub _ (Region.mask (.out :: .host :: (availParts ++ [.reg .CSC_STATUS, .reg .CSC_SPARE_ACTIVE, .reg .CSC_S0_HASH, .reg .CSC_S1_HASH, .reg .DBG_BRK_STATUS, .free, .cascade, .rills, .weir, .svc, .caches]))))
  replace hs := Within.start (m := Region.mask (footprint (.actSwapDone))) hs
  replace h : execActSwapDone s = .next t := h
  unfold execActSwapDone at h
  repeat' (first | (cases h; done) | split at h)
  all_goals try cases h
  all_goals repeat' first
    | with_reducible assumption
    | exact Sub.up hm (by decide)
    | exact Sub.bit hm (by decide)
    | with_reducible apply within_swapEffect
    | with_reducible apply within_finish

theorem within_exec_actOwnershipDone (hs : Sound s) (h : exec (.actOwnershipDone) s = .next t) :
    Within (Region.mask (footprint .actOwnershipDone)) s t := by
  have hm : Sub 0x202A00000000000000000000000000000000000000000000000000000001800000000000000000000000000000000000000000000 (Region.mask (footprint (.actOwnershipDone))) := (by decide : Sub _ (Region.mask (.out :: .host :: ([.reg .RSV_OWNER, .reg .RSV_EVENT, .cascade, .basin]))))
  replace hs := Within.start (m := Region.mask (footprint (.actOwnershipDone))) hs
  replace h : execActOwnershipDone s = .next t := h
  unfold execActOwnershipDone at h
  repeat' (first | (cases h; done) | split at h)
  all_goals try cases h
  all_goals repeat' first
    | with_reducible assumption
    | exact Sub.up hm (by decide)
    | exact Sub.bit hm (by decide)
    | with_reducible apply within_ownershipEffect
    | with_reducible apply within_finish

theorem within_exec_actConstantsDone (hs : Sound s) (h : exec (.actConstantsDone) s = .next t) :
    Within (Region.mask (footprint .actConstantsDone)) s t := by
  have hm : Sub 0x2A10000000000000000000000000000000000000000000000000000000000000000000000000000000000000000000000000000 (Region.mask (footprint (.actConstantsDone))) := (by decide : Sub _ (Region.mask (.out :: .host :: ([.memory, .cascade]))))
  replace hs := Within.start (m := Region.mask (footprint (.actConstantsDone))) hs
  replace h : execActConstantsDone s = .next t := h
  unfold execActConstantsDone at h
  repeat' (first | (cases h; done) | split at h)
  all_goals try cases h
  all_goals repeat' first
    | with_reducible assumption
    | exact Sub.up hm (by decide)
    | exact Sub.bit hm (by decide)
    | with_reducible apply within_constantsEffect
    | with_reducible apply within_finish

theorem within_exec_actPinningDone (hs : Sound s) (h : exec (.actPinningDone) s = .next t) :
    Within (Region.mask (footprint .actPinningDone)) s t := by
  have hm : Sub 0x121EE00000000000000000000000000000000000000000000000000000000005000000000000000040080000000004319008020006 (Region.mask (footprint (.actPinningDone))) := (by decide : Sub _ (Region.mask (.out :: .host :: (planParts ++ poolParts ++ [.reg .MIR_STATUS, .reg .MIR_FILL, .reg .CSC_EVENT, .reg .CSC_ACT_STATUS, .reg .CSC_ACT_COUNT, .free, .cascade, .mirror] ++ [.reg .BSN_NONE]))))
  replace hs := Within.start (m := Region.mask (footprint (.actPinningDone))) hs
  replace h : execActPinningDone s = .next t := h
  unfold execActPinningDone at h
  repeat' (first | (cases h; done) | split at h)
  all_goals try cases h
  all_goals repeat' first
    | with_reducible assumption
    | exact Sub.up hm (by decide)
    | exact Sub.bit hm (by decide)
    | with_reducible apply within_pinningEffect
    | with_reducible apply within_finish

theorem within_exec_spareMapWrite {a0} (hs : Sound s) (h : exec (.spareMapWrite a0) s = .next t) :
    Within (Region.mask (footprint (.spareMapWrite a0))) s t := by
  have hm : Sub 0x1A00000000000000000000000000000000000000000000000000000000000000000000000000000000000000000000020020000 (Region.mask (footprint (.spareMapWrite a0))) := (by decide : Sub _ (Region.mask (.out :: .host :: ([.reg .CSC_EVENT, .reg .CSC_SPARE_MAP, .power]))))
  replace hs := Within.start (m := Region.mask (footprint (.spareMapWrite a0))) hs
  replace h : execSpareMapWrite a0 s = .next t := h
  unfold execSpareMapWrite at h
  repeat' (first | (cases h; done) | split at h)
  all_goals try cases h
  all_goals repeat' first
    | with_reducible assumption
    | exact Sub.up hm (by decide)
    | exact Sub.bit hm (by decide)
    | with_reducible apply within_spareMapEffect
    | with_reducible apply within_State_viaReg
    | with_reducible apply within_finish
    | intro _

theorem within_exec_signCtrlWrite {a0 a1} (hs : Sound s) (h : exec (.signCtrlWrite a0 a1) s = .next t) :
    Within (Region.mask (footprint (.signCtrlWrite a0 a1))) s t := by
  have hm : Sub 0x1A000000000000E0000000000000000000000000000000000000000000000000000000000000000000000000000000010000000 (Region.mask (footprint (.signCtrlWrite a0 a1))) := (by decide : Sub _ (Region.mask (.out :: .host :: (violParts ++ [.reg .CSC_SIGN_CTRL, .power]))))
  replace hs := Within.start (m := Region.mask (footprint (.signCtrlWrite a0 a1))) hs
  replace h : execSignCtrlWrite a0 a1 s = .next t := h
  unfold execSignCtrlWrite at h
  repeat' (first | (cases h; done) | split at h)
  all_goals try cases h
  all_goals repeat' first
    | with_reducible assumption
    | exact Sub.up hm (by decide)
    | exact Sub.bit hm (by decide)
    | with_reducible apply within_signCtrlEffect
    | with_reducible apply within_State_viaReg
    | with_reducible apply within_finish
    | intro _

end Sys2Proof.Machine
end

