-- ==== Sys2Proof/Laws/ExecAquifer.lean ====
section
/-! SUPPORT. Each command of Machine/Aquifer.lean changes nothing outside its footprint, and keeps a sound state sound. -/
namespace Sys2Proof.Machine

variable {s t : State}

theorem within_exec_nfcRetrain {a0 a1} (hs : Sound s) (h : exec (.nfcRetrain a0 a1) s = .next t) :
    Within (Region.mask (footprint (.nfcRetrain a0 a1))) s t := by
  have hm : Sub 0x401A000000000000000000000000000000000000000000000000000000000000000000000000000000003C0002300000000000000 (Region.mask (footprint (.nfcRetrain a0 a1))) := (by decide : Sub _ (Region.mask (.out :: .host :: (dieParts ++ [.reg .NFC_CTRL, .power] ++ [.reg .AQF_EVENT]))))
  replace hs := Within.start (m := Region.mask (footprint (.nfcRetrain a0 a1))) hs
  replace h : execNfcRetrain a0 a1 s = .next t := h
  unfold execNfcRetrain at h
  repeat' (first | (cases h; done) | split at h)
  all_goals try cases h
  all_goals repeat' first
    | with_reducible assumption
    | exact Sub.up hm (by decide)
    | exact Sub.bit hm (by decide)
    | with_reducible apply within_nfcCtrl
    | with_reducible apply within_State_viaReg
    | with_reducible apply within_finish
    | intro _

theorem within_exec_zqCalibration {a0} (hs : Sound s) (h : exec (.zqCalibration a0) s = .next t) :
    Within (Region.mask (footprint (.zqCalibration a0))) s t := by
  have hm : Sub 0xA00000000000000000000000000000000000000000000000000000000000000000000000000000000000000000000000000000 (Region.mask (footprint (.zqCalibration a0))) := (by decide : Sub _ (Region.mask (.out :: .host :: ([]))))
  replace hs := Within.start (m := Region.mask (footprint (.zqCalibration a0))) hs
  replace h : execZqCalibration a0 s = .next t := h
  unfold execZqCalibration at h
  repeat' (first | (cases h; done) | split at h)
  all_goals try cases h
  all_goals repeat' first
    | with_reducible assumption
    | exact Sub.up hm (by decide)
    | exact Sub.bit hm (by decide)
    | with_reducible apply within_zqEffect
    | with_reducible apply within_finish

theorem within_exec_unitAdmit {a0 a1} (hs : Sound s) (h : exec (.unitAdmit a0 a1) s = .next t) :
    Within (Region.mask (footprint (.unitAdmit a0 a1))) s t := by
  have hm : Sub 0x620E00000000000000000000000000000000000000010080060000000000005000000000000000043880000604000008000000000 (Region.mask (footprint (.unitAdmit a0 a1))) := (by decide : Sub _ (Region.mask (.out :: .host :: (ringParts ++ unitParts ++ [.reg .HIF_EVENT, .reg .HIF_DMA_ERR_ADDR_LO, .reg .HIF_DMA_ERR_ADDR_HI, .reg .HIF_DMA_ERR_INFO] ++ [.reg .SLU_STATUS, .reg .TASK_STATUS, .reg .BSN_EVENT, .basin] ++ [.reg .BSN_NONE, .free]))))
  replace hs := Within.start (m := Region.mask (footprint (.unitAdmit a0 a1))) hs
  replace h : execUnitAdmit a0 a1 s = .next t := h
  unfold execUnitAdmit at h
  repeat' (first | (cases h; done) | split at h)
  all_goals try cases h
  all_goals repeat' first
    | with_reducible assumption
    | exact Sub.up hm (by decide)
    | exact Sub.bit hm (by decide)
    | with_reducible apply within_admitEffect
    | with_reducible apply within_finish

theorem within_exec_unitProgrammed {a0} (hs : Sound s) (h : exec (.unitProgrammed a0) s = .next t) :
    Within (Region.mask (footprint (.unitProgrammed a0))) s t := by
  have hm : Sub 0x428A00000000000000000000000000000000000000010080060000000000000000000000000000000000000604000000000000000 (Region.mask (footprint (.unitProgrammed a0))) := (by decide : Sub _ (Region.mask (.out :: .host :: (ringParts ++ unitParts ++ [.sluice]))))
  replace hs := Within.start (m := Region.mask (footprint (.unitProgrammed a0))) hs
  replace h : execUnitProgrammed a0 s = .next t := h
  unfold execUnitProgrammed at h
  repeat' (first | (cases h; done) | split at h)
  all_goals try cases h
  all_goals repeat' first
    | with_reducible assumption
    | exact Sub.up hm (by decide)
    | exact Sub.bit hm (by decide)
    | with_reducible apply within_programEffect
    | with_reducible apply within_finish

theorem within_exec_pageReadDone {a0 a1} (hs : Sound s) (h : exec (.pageReadDone a0 a1) s = .next t) :
    Within (Region.mask (footprint (.pageReadDone a0 a1))) s t := by
  have hm : Sub 0x408A00000000000000000000000000000000000000000000000000000000000000000000000000000007C00E04200000000000000 (Region.mask (footprint (.pageReadDone a0 a1))) := (by decide : Sub _ (Region.mask (.out :: .host :: (unitParts ++ [.reg .AQF_EVENT, .reg .AQF_DFL_HEAD, .reg .NFC_CORR_LO, .reg .NFC_CORR_HI, .reg .NFC_RETRY, .reg .NFC_SOFT, .reg .NFC_REBUILD] ++ [.sluice]))))
  replace hs := Within.start (m := Region.mask (footprint (.pageReadDone a0 a1))) hs
  replace h : execPageReadDone a0 a1 s = .next t := h
  unfold execPageReadDone at h
  repeat' (first | (cases h; done) | split at h)
  all_goals try cases h
  all_goals repeat' first
    | with_reducible assumption
    | exact Sub.up hm (by decide)
    | exact Sub.bit hm (by decide)
    | with_reducible apply within_pageReadEffect
    | with_reducible apply within_finish

theorem within_exec_rtWindowEnd {a0 a1 a2} (hs : Sound s) (h : exec (.rtWindowEnd a0 a1 a2) s = .next t) :
    Within (Region.mask (footprint (.rtWindowEnd a0 a1 a2))) s t := by
  have hm : Sub 0x400A00000000000000000000000000000000000000000000000000000000000000000000000000000018000000000000000000000 (Region.mask (footprint (.rtWindowEnd a0 a1 a2))) := (by decide : Sub _ (Region.mask (.out :: .host :: ([.reg .NFC_RT_MOVES, .reg .NFC_RT_CLAMP, .aqf]))))
  replace hs := Within.start (m := Region.mask (footprint (.rtWindowEnd a0 a1 a2))) hs
  replace h : execRtWindowEnd a0 a1 a2 s = .next t := h
  unfold execRtWindowEnd at h
  repeat' (first | (cases h; done) | split at h)
  all_goals try cases h
  all_goals repeat' first
    | with_reducible assumption
    | exact Sub.up hm (by decide)
    | exact Sub.bit hm (by decide)
    | with_reducible apply within_rtWindowEffect
    | with_reducible apply within_finish

theorem within_exec_foldUnit {a0 a1} (hs : Sound s) (h : exec (.foldUnit a0 a1) s = .next t) :
    Within (Region.mask (footprint (.foldUnit a0 a1))) s t := by
  have hm : Sub 0x608E00000000000000000000000000000000000000000000000000000000005000000000000000040087C00E04200008000000000 (Region.mask (footprint (.foldUnit a0 a1))) := (by decide : Sub _ (Region.mask (.out :: .host :: (unitParts ++ [.reg .AQF_EVENT, .reg .AQF_DFL_HEAD, .reg .NFC_CORR_LO, .reg .NFC_CORR_HI, .reg .NFC_RETRY, .reg .NFC_SOFT, .reg .NFC_REBUILD] ++ [.reg .SLU_STATUS, .reg .HIF_EVENT, .reg .TASK_STATUS, .reg .BSN_EVENT, .sluice, .basin] ++ [.reg .BSN_NONE, .free]))))
  replace hs := Within.start (m := Region.mask (footprint (.foldUnit a0 a1))) hs
  replace h : execFoldUnit a0 a1 s = .next t := h
  unfold execFoldUnit at h
  repeat' (first | (cases h; done) | split at h)
  all_goals try cases h
  all_goals repeat' first
    | with_reducible assumption
    | exact Sub.up hm (by decide)
    | exact Sub.bit hm (by decide)
    | with_reducible apply within_foldEffect
    | with_reducible apply within_finish

theorem within_exec_relocateUnit {a0 a1} (hs : Sound s) (h : exec (.relocateUnit a0 a1) s = .next t) :
    Within (Region.mask (footprint (.relocateUnit a0 a1))) s t := by
  have hm : Sub 0x608E00000000000000000000000000000000000000000000000000000000005000000000000000040087C00E04200008000000000 (Region.mask (footprint (.relocateUnit a0 a1))) := (by decide : Sub _ (Region.mask (.out :: .host :: (unitParts ++ [.reg .AQF_EVENT, .reg .AQF_DFL_HEAD, .reg .NFC_CORR_LO, .reg .NFC_CORR_HI, .reg .NFC_RETRY, .reg .NFC_SOFT, .reg .NFC_REBUILD] ++ [.reg .SLU_STATUS, .reg .HIF_EVENT, .reg .TASK_STATUS, .reg .BSN_EVENT, .sluice, .basin] ++ [.reg .BSN_NONE, .free]))))
  replace hs := Within.start (m := Region.mask (footprint (.relocateUnit a0 a1))) hs
  replace h : execRelocateUnit a0 a1 s = .next t := h
  unfold execRelocateUnit at h
  repeat' (first | (cases h; done) | split at h)
  all_goals try cases h
  all_goals repeat' first
    | with_reducible assumption
    | exact Sub.up hm (by decide)
    | exact Sub.bit hm (by decide)
    | with_reducible apply within_relocateEffect
    | with_reducible apply within_finish

theorem within_exec_copyBlockClose {a0 a1} (hs : Sound s) (h : exec (.copyBlockClose a0 a1) s = .next t) :
    Within (Region.mask (footprint (.copyBlockClose a0 a1))) s t := by
  have hm : Sub 0x400A00000000000000000000000000000000000000000000000000000000000000000000000000000000000604000000000000000 (Region.mask (footprint (.copyBlockClose a0 a1))) := (by decide : Sub _ (Region.mask (.out :: .host :: (unitParts))))
  replace hs := Within.start (m := Region.mask (footprint (.copyBlockClose a0 a1))) hs
  replace h : execCopyBlockClose a0 a1 s = .next t := h
  unfold execCopyBlockClose at h
  repeat' (first | (cases h; done) | split at h)
  all_goals try cases h
  all_goals repeat' first
    | with_reducible assumption
    | exact Sub.up hm (by decide)
    | exact Sub.bit hm (by decide)
    | with_reducible apply within_closeCopyEffect
    | with_reducible apply within_finish

theorem within_exec_checkpointSegment (hs : Sound s) (h : exec (.checkpointSegment) s = .next t) :
    Within (Region.mask (footprint .checkpointSegment)) s t := by
  have hm : Sub 0x400A00000000000000000000000000000000000000000000000000000000000000000000000000000000000604000000000000000 (Region.mask (footprint (.checkpointSegment))) := (by decide : Sub _ (Region.mask (.out :: .host :: ([.aqf, .reg .AQF_SLC, .reg .AQF_SEQ_LO, .reg .AQF_SEQ_HI]))))
  replace hs := Within.start (m := Region.mask (footprint (.checkpointSegment))) hs
  replace h : execCheckpointSegment s = .next t := h
  unfold execCheckpointSegment at h
  repeat' (first | (cases h; done) | split at h)
  all_goals try cases h
  all_goals repeat' first
    | with_reducible assumption
    | exact Sub.up hm (by decide)
    | exact Sub.bit hm (by decide)
    | with_reducible apply within_checkpointEffect
    | with_reducible apply within_finish

theorem within_exec_pwrFailNFall (hs : Sound s) (h : exec (.pwrFailNFall) s = .next t) :
    Within (Region.mask (footprint .pwrFailNFall)) s t := by
  have hm : Sub 0xC00A00000000000000000000000000000000000000000000000000000000000000000000000000000000000000100000000000000 (Region.mask (footprint (.pwrFailNFall))) := (by decide : Sub _ (Region.mask (.out :: .host :: ([.reg .AQF_STATUS, .aqf, .svc]))))
  replace hs := Within.start (m := Region.mask (footprint (.pwrFailNFall))) hs
  replace h : execPwrFailNFall s = .next t := h
  unfold execPwrFailNFall at h
  repeat' (first | (cases h; done) | split at h)
  all_goals try cases h
  all_goals repeat' first
    | with_reducible assumption
    | exact Sub.up hm (by decide)
    | exact Sub.bit hm (by decide)
    | with_reducible apply within_pwrFailEffect
    | with_reducible apply within_finish

theorem within_exec_pfSafe {a0} (hs : Sound s) (h : exec (.pfSafe a0) s = .next t) :
    Within (Region.mask (footprint (.pfSafe a0))) s t := by
  have hm : Sub 0x401A00000000000000000000000000000000000000000000000000000000000000000000000000000000000604300000000000000 (Region.mask (footprint (.pfSafe a0))) := (by decide : Sub _ (Region.mask (.out :: .host :: ([.reg .AQF_STATUS, .reg .AQF_EVENT, .power, .aqf, .reg .AQF_SLC, .reg .AQF_SEQ_LO, .reg .AQF_SEQ_HI]))))
  replace hs := Within.start (m := Region.mask (footprint (.pfSafe a0))) hs
  replace h : execPfSafe a0 s = .next t := h
  unfold execPfSafe at h
  repeat' (first | (cases h; done) | split at h)
  all_goals try cases h
  all_goals repeat' first
    | with_reducible assumption
    | exact Sub.up hm (by decide)
    | exact Sub.bit hm (by decide)
    | with_reducible apply within_pfSafeEffect
    | with_reducible apply within_finish

theorem within_exec_mountComplete {a0} (hs : Sound s) (h : exec (.mountComplete a0) s = .next t) :
    Within (Region.mask (footprint (.mountComplete a0))) s t := by
  have hm : Sub 0x400A00000000000000000000000000000000000000000000000000000000000000000000000000000000099FC7B00000000000000 (Region.mask (footprint (.mountComplete a0))) := (by decide : Sub _ (Region.mask (.out :: .host :: (unitParts ++ [.reg .AQF_STATUS, .reg .AQF_EVENT, .reg .AQF_CAP_LO, .reg .AQF_CAP_HI, .reg .AQF_WB, .reg .AQF_LIFE, .reg .AQF_RATING, .reg .AQF_SPARE, .reg .AQF_DFL_HEAD, .reg .AQF_DFL_ACK, .reg .AQF_CRYPT, .reg .AQF_MOUNT_MS, .reg .NFC_STATUS]))))
  replace hs := Within.start (m := Region.mask (footprint (.mountComplete a0))) hs
  replace h : execMountComplete a0 s = .next t := h
  unfold execMountComplete at h
  repeat' (first | (cases h; done) | split at h)
  all_goals try cases h
  all_goals repeat' first
    | with_reducible assumption
    | exact Sub.up hm (by decide)
    | exact Sub.bit hm (by decide)
    | with_reducible apply within_mountEffect
    | with_reducible apply within_finish

theorem within_exec_dflAckWrite {a0} (hs : Sound s) (h : exec (.dflAckWrite a0) s = .next t) :
    Within (Region.mask (footprint (.dflAckWrite a0))) s t := by
  have hm : Sub 0x401A00000000000000000000000000000000000000000000000000000000000000000000000000000000001000000000000000000 (Region.mask (footprint (.dflAckWrite a0))) := (by decide : Sub _ (Region.mask (.out :: .host :: ([.reg .AQF_DFL_ACK, .power, .aqf]))))
  replace hs := Within.start (m := Region.mask (footprint (.dflAckWrite a0))) hs
  replace h : execDflAckWrite a0 s = .next t := h
  unfold execDflAckWrite at h
  repeat' (first | (cases h; done) | split at h)
  all_goals try cases h
  all_goals repeat' first
    | with_reducible assumption
    | exact Sub.up hm (by decide)
    | exact Sub.bit hm (by decide)
    | with_reducible apply within_dflAckEffect
    | with_reducible apply within_State_viaReg
    | with_reducible apply within_finish
    | intro _

theorem within_exec_dieTimeout {a0} (hs : Sound s) (h : exec (.dieTimeout a0) s = .next t) :
    Within (Region.mask (footprint (.dieTimeout a0))) s t := by
  have hm : Sub 0xC00A00000000000000000000000000000000000000000000000000000000000000000000000000000020380002300000000000000 (Region.mask (footprint (.dieTimeout a0))) := (by decide : Sub _ (Region.mask (.out :: .host :: (dieParts ++ [.reg .AQF_EVENT, .reg .NFC_FAIL, .svc]))))
  replace hs := Within.start (m := Region.mask (footprint (.dieTimeout a0))) hs
  replace h : execDieTimeout a0 s = .next t := h
  unfold execDieTimeout at h
  repeat' (first | (cases h; done) | split at h)
  all_goals try cases h
  all_goals repeat' first
    | with_reducible assumption
    | exact Sub.up hm (by decide)
    | exact Sub.bit hm (by decide)
    | with_reducible apply within_dieTimeoutEffect
    | with_reducible apply within_finish

theorem within_exec_programFail {a0 a1 a2} (hs : Sound s) (h : exec (.programFail a0 a1 a2) s = .next t) :
    Within (Region.mask (footprint (.programFail a0 a1 a2))) s t := by
  have hm : Sub 0xC00A00000000000000000000000000000000000000000000000000000000000000000000000000000020384002300000000000000 (Region.mask (footprint (.programFail a0 a1 a2))) := (by decide : Sub _ (Region.mask (.out :: .host :: (dieParts ++ [.reg .AQF_EVENT, .reg .NFC_FAIL, .svc] ++ [.reg .AQF_DIE_RESULT]))))
  replace hs := Within.start (m := Region.mask (footprint (.programFail a0 a1 a2))) hs
  replace h : execProgramFail a0 a1 a2 s = .next t := h
  unfold execProgramFail at h
  repeat' (first | (cases h; done) | split at h)
  all_goals try cases h
  all_goals repeat' first
    | with_reducible assumption
    | exact Sub.up hm (by decide)
    | exact Sub.bit hm (by decide)
    | with_reducible apply within_programFailEffect
    | with_reducible apply within_finish

theorem within_exec_dieSuspend {a0} (hs : Sound s) (h : exec (.dieSuspend a0) s = .next t) :
    Within (Region.mask (footprint (.dieSuspend a0))) s t := by
  have hm : Sub 0x401A00000000000000000000000000000000000000000000000000000000000000000000000000000000386002300000000000000 (Region.mask (footprint (.dieSuspend a0))) := (by decide : Sub _ (Region.mask (.out :: .host :: (dieParts ++ [.reg .AQF_EVENT, .reg .AQF_DIE_CMD, .reg .AQF_DIE_RESULT, .power]))))
  replace hs := Within.start (m := Region.mask (footprint (.dieSuspend a0))) hs
  replace h : execDieSuspend a0 s = .next t := h
  unfold execDieSuspend at h
  repeat' (first | (cases h; done) | split at h)
  all_goals try cases h
  all_goals repeat' first
    | with_reducible assumption
    | exact Sub.up hm (by decide)
    | exact Sub.bit hm (by decide)
    | with_reducible apply within_dieCmdEffect
    | with_reducible apply within_State_viaReg
    | with_reducible apply within_finish
    | intro _

theorem within_exec_dieBringBack {a0} (hs : Sound s) (h : exec (.dieBringBack a0) s = .next t) :
    Within (Region.mask (footprint (.dieBringBack a0))) s t := by
  have hm : Sub 0x401A00000000000000000000000000000000000000000000000000000000000000000000000000000000386002300000000000000 (Region.mask (footprint (.dieBringBack a0))) := (by decide : Sub _ (Region.mask (.out :: .host :: (dieParts ++ [.reg .AQF_EVENT, .reg .AQF_DIE_CMD, .reg .AQF_DIE_RESULT, .power]))))
  replace hs := Within.start (m := Region.mask (footprint (.dieBringBack a0))) hs
  replace h : execDieBringBack a0 s = .next t := h
  unfold execDieBringBack at h
  repeat' (first | (cases h; done) | split at h)
  all_goals try cases h
  all_goals repeat' first
    | with_reducible assumption
    | exact Sub.up hm (by decide)
    | exact Sub.bit hm (by decide)
    | with_reducible apply within_dieCmdEffect
    | with_reducible apply within_State_viaReg
    | with_reducible apply within_finish
    | intro _

theorem within_exec_dieRetire {a0} (hs : Sound s) (h : exec (.dieRetire a0) s = .next t) :
    Within (Region.mask (footprint (.dieRetire a0))) s t := by
  have hm : Sub 0x401A00000000000000000000000000000000000000000000000000000000000000000000000000000000386002300000000000000 (Region.mask (footprint (.dieRetire a0))) := (by decide : Sub _ (Region.mask (.out :: .host :: (dieParts ++ [.reg .AQF_EVENT, .reg .AQF_DIE_CMD, .reg .AQF_DIE_RESULT, .power]))))
  replace hs := Within.start (m := Region.mask (footprint (.dieRetire a0))) hs
  replace h : execDieRetire a0 s = .next t := h
  unfold execDieRetire at h
  repeat' (first | (cases h; done) | split at h)
  all_goals try cases h
  all_goals repeat' first
    | with_reducible assumption
    | exact Sub.up hm (by decide)
    | exact Sub.bit hm (by decide)
    | with_reducible apply within_dieCmdEffect
    | with_reducible apply within_State_viaReg
    | with_reducible apply within_finish
    | intro _

theorem within_exec_bringBackDone {a0 a1} (hs : Sound s) (h : exec (.bringBackDone a0 a1) s = .next t) :
    Within (Region.mask (footprint (.bringBackDone a0 a1))) s t := by
  have hm : Sub 0x400A00000000000000000000000000000000000000000000000000000000000000000000000000000018384002300000000000000 (Region.mask (footprint (.bringBackDone a0 a1))) := (by decide : Sub _ (Region.mask (.out :: .host :: (dieParts ++ [.reg .AQF_EVENT, .reg .AQF_DIE_RESULT] ++ [.reg .NFC_RT_MOVES, .reg .NFC_RT_CLAMP]))))
  replace hs := Within.start (m := Region.mask (footprint (.bringBackDone a0 a1))) hs
  replace h : execBringBackDone a0 a1 s = .next t := h
  unfold execBringBackDone at h
  repeat' (first | (cases h; done) | split at h)
  all_goals try cases h
  all_goals repeat' first
    | with_reducible assumption
    | exact Sub.up hm (by decide)
    | exact Sub.bit hm (by decide)
    | with_reducible apply within_bringDoneEffect
    | with_reducible apply within_finish

theorem within_exec_autoBack {a0} (hs : Sound s) (h : exec (.autoBack a0) s = .next t) :
    Within (Region.mask (footprint (.autoBack a0))) s t := by
  have hm : Sub 0x400A00000000000000000000000000000000000000000000000000000000000000000000000000000000000000000000000000000 (Region.mask (footprint (.autoBack a0))) := (by decide : Sub _ (Region.mask (.out :: .host :: ([.aqf]))))
  replace hs := Within.start (m := Region.mask (footprint (.autoBack a0))) hs
  replace h : execAutoBack a0 s = .next t := h
  unfold execAutoBack at h
  repeat' (first | (cases h; done) | split at h)
  all_goals try cases h
  all_goals repeat' first
    | with_reducible assumption
    | exact Sub.up hm (by decide)
    | exact Sub.bit hm (by decide)
    | with_reducible apply within_autoBackEffect
    | with_reducible apply within_finish

theorem within_exec_lifeEval (hs : Sound s) (h : exec (.lifeEval) s = .next t) :
    Within (Region.mask (footprint .lifeEval)) s t := by
  have hm : Sub 0x400A00000000000000000000000000000000000000000000000000000000000000000000000000060000000040300000000000000 (Region.mask (footprint (.lifeEval))) := (by decide : Sub _ (Region.mask (.out :: .host :: ([.reg .AQF_STATUS, .reg .AQF_EVENT, .reg .AQF_LIFE, .aqf, .reg .HIF_LOCKS, .reg .TASK_STATUS]))))
  replace hs := Within.start (m := Region.mask (footprint (.lifeEval))) hs
  replace h : execLifeEval s = .next t := h
  unfold execLifeEval at h
  repeat' (first | (cases h; done) | split at h)
  all_goals try cases h
  all_goals repeat' first
    | with_reducible assumption
    | exact Sub.up hm (by decide)
    | exact Sub.bit hm (by decide)
    | with_reducible apply within_State_lifeEval
    | with_reducible apply within_finish
    | with_reducible apply within_lifeEffect

theorem within_exec_readExtent {a0 a1} (hs : Sound s) (h : exec (.readExtent a0 a1) s = .next t) :
    Within (Region.mask (footprint (.readExtent a0 a1))) s t := by
  have hm : Sub 0x600E00000000000000000000000000000000000000000000000000000000005000000000000000060080000000000008000000000 (Region.mask (footprint (.readExtent a0 a1))) := (by decide : Sub _ (Region.mask (.out :: .host :: ([.reg .SLU_STATUS, .reg .HIF_EVENT, .reg .TASK_STATUS, .reg .BSN_EVENT, .basin, .free, .reg .HIF_LOCKS, .aqf, .reg .BSN_NONE]))))
  replace hs := Within.start (m := Region.mask (footprint (.readExtent a0 a1))) hs
  replace h : execReadExtent a0 a1 s = .next t := h
  unfold execReadExtent at h
  repeat' (first | (cases h; done) | split at h)
  all_goals try cases h
  all_goals repeat' first
    | with_reducible assumption
    | exact Sub.up hm (by decide)
    | exact Sub.bit hm (by decide)
    | with_reducible apply within_readEffect
    | with_reducible apply within_finish
    | with_reducible apply within_State_showTasks

theorem within_exec_writeExtent {a0} (hs : Sound s) (h : exec (.writeExtent a0) s = .next t) :
    Within (Region.mask (footprint (.writeExtent a0))) s t := by
  have hm : Sub 0x400A00000000000000000000000000000000000000000000000000000000000000000000000000000000000000000000000000000 (Region.mask (footprint (.writeExtent a0))) := (by decide : Sub _ (Region.mask (.out :: .host :: ([.aqf]))))
  replace hs := Within.start (m := Region.mask (footprint (.writeExtent a0))) hs
  replace h : execWriteExtent a0 s = .next t := h
  unfold execWriteExtent at h
  repeat' (first | (cases h; done) | split at h)
  all_goals try cases h
  all_goals repeat' first
    | with_reducible assumption
    | exact Sub.up hm (by decide)
    | exact Sub.bit hm (by decide)
    | with_reducible apply within_writeEffect
    | with_reducible apply within_finish

theorem within_exec_deallocate {a0} (hs : Sound s) (h : exec (.deallocate a0) s = .next t) :
    Within (Region.mask (footprint (.deallocate a0))) s t := by
  have hm : Sub 0x400A00000000000000000000000000000000000000000000000000000000000000000000000000000000000604000000000000000 (Region.mask (footprint (.deallocate a0))) := (by decide : Sub _ (Region.mask (.out :: .host :: (unitParts))))
  replace hs := Within.start (m := Region.mask (footprint (.deallocate a0))) hs
  replace h : execDeallocate a0 s = .next t := h
  unfold execDeallocate at h
  repeat' (first | (cases h; done) | split at h)
  all_goals try cases h
  all_goals repeat' first
    | with_reducible assumption
    | exact Sub.up hm (by decide)
    | exact Sub.bit hm (by decide)
    | with_reducible apply within_deallocEffect
    | with_reducible apply within_finish

theorem within_exec_flush {a0} (hs : Sound s) (h : exec (.flush a0) s = .next t) :
    Within (Region.mask (footprint (.flush a0))) s t := by
  have hm : Sub 0xA00000000000000000000000000000000000000000000000000000000000000000000000000000000000000000000000000000 (Region.mask (footprint (.flush a0))) := (by decide : Sub _ (Region.mask (.out :: .host :: ([]))))
  replace hs := Within.start (m := Region.mask (footprint (.flush a0))) hs
  replace h : execFlush a0 s = .next t := h
  unfold execFlush at h
  repeat' (first | (cases h; done) | split at h)
  all_goals try cases h
  all_goals repeat' first
    | with_reducible assumption
    | exact Sub.up hm (by decide)
    | exact Sub.bit hm (by decide)
    | with_reducible apply within_flushEffect
    | with_reducible apply within_finish

theorem within_exec_format {a0 a1} (hs : Sound s) (h : exec (.format a0 a1) s = .next t) :
    Within (Region.mask (footprint (.format a0 a1))) s t := by
  have hm : Sub 0xC00E00000000000000000000000000000000000000000000000000000000000000000000000000003880389F87900008010000000 (Region.mask (footprint (.format a0 a1))) := (by decide : Sub _ (Region.mask (.out :: .host :: (dieParts ++ unitParts ++ [.reg .CSC_SIGN_CTRL, .reg .SLU_STATUS, .reg .AQF_CAP_LO, .reg .AQF_CAP_HI, .reg .AQF_RATING, .reg .AQF_SPARE, .reg .AQF_DFL_HEAD, .reg .AQF_DFL_ACK, .reg .AQF_CRYPT, .svc] ++ [.reg .HIF_EVENT, .reg .HIF_DMA_ERR_ADDR_LO, .reg .HIF_DMA_ERR_ADDR_HI, .reg .HIF_DMA_ERR_INFO, .free]))))
  replace hs := Within.start (m := Region.mask (footprint (.format a0 a1))) hs
  replace h : execFormat a0 a1 s = .next t := h
  unfold execFormat at h
  repeat' (first | (cases h; done) | split at h)
  all_goals try cases h
  all_goals repeat' first
    | with_reducible assumption
    | exact Sub.up hm (by decide)
    | exact Sub.bit hm (by decide)
    | with_reducible apply within_formatEffect
    | with_reducible apply within_finish

theorem within_exec_cryptErase {a0} (hs : Sound s) (h : exec (.cryptErase a0) s = .next t) :
    Within (Region.mask (footprint (.cryptErase a0))) s t := by
  have hm : Sub 0xC00E00000000000000000000000000000000000000000000000000000000000000000000000000000000008604000000000000000 (Region.mask (footprint (.cryptErase a0))) := (by decide : Sub _ (Region.mask (.out :: .host :: (unitParts ++ [.reg .AQF_CRYPT] ++ [.free, .svc]))))
  replace hs := Within.start (m := Region.mask (footprint (.cryptErase a0))) hs
  replace h : execCryptErase a0 s = .next t := h
  unfold execCryptErase at h
  repeat' (first | (cases h; done) | split at h)
  all_goals try cases h
  all_goals repeat' first
    | with_reducible assumption
    | exact Sub.up hm (by decide)
    | exact Sub.bit hm (by decide)
    | with_reducible apply within_cryptEraseEffect
    | with_reducible apply within_finish

theorem within_exec_logRead {a0} (hs : Sound s) (h : exec (.logRead a0) s = .next t) :
    Within (Region.mask (footprint (.logRead a0))) s t := by
  have hm : Sub 0xA00000000000000000000000000000000000000000000000000000000000000000000000000000000000000000000000000000 (Region.mask (footprint (.logRead a0))) := (by decide : Sub _ (Region.mask (.out :: .host :: ([]))))
  replace hs := Within.start (m := Region.mask (footprint (.logRead a0))) hs
  replace h : execLogRead a0 s = .next t := h
  unfold execLogRead at h
  repeat' (first | (cases h; done) | split at h)
  all_goals try cases h
  all_goals repeat' first
    | with_reducible assumption
    | exact Sub.up hm (by decide)
    | exact Sub.bit hm (by decide)
    | with_reducible apply within_logReadEffect
    | with_reducible apply within_finish

theorem within_exec_channelTrainingDone {a0 a1} (hs : Sound s) (h : exec (.channelTrainingDone a0 a1) s = .next t) :
    Within (Region.mask (footprint (.channelTrainingDone a0 a1))) s t := by
  have hm : Sub 0xC00A00000000000000000000000000000000000000000000000000000000000000000000000000000000380002300000000000000 (Region.mask (footprint (.channelTrainingDone a0 a1))) := (by decide : Sub _ (Region.mask (.out :: .host :: (dieParts ++ [.reg .AQF_EVENT, .svc]))))
  replace hs := Within.start (m := Region.mask (footprint (.channelTrainingDone a0 a1))) hs
  replace h : execChannelTrainingDone a0 a1 s = .next t := h
  unfold execChannelTrainingDone at h
  repeat' (first | (cases h; done) | split at h)
  all_goals try cases h
  all_goals repeat' first
    | with_reducible assumption
    | exact Sub.up hm (by decide)
    | exact Sub.bit hm (by decide)
    | with_reducible apply within_trainingEffect
    | with_reducible apply within_finish

end Sys2Proof.Machine
end

