-- ==== Sys2Proof/Laws/ExecBasin.lean ====
section
/-! SUPPORT. Each command of Machine/Basin.lean changes nothing outside its footprint, and keeps a sound state sound. -/
namespace Sys2Proof.Machine

variable {s t : State}

theorem within_exec_handoverGo {a0 a1} (hs : Sound s) (h : exec (.handoverGo a0 a1) s = .next t) :
    Within (Region.mask (footprint (.handoverGo a0 a1))) s t := by
  have hm : Sub 0x201A00000000000000000000000000000000000000000000000000000001800000000000000000000000000000000000000000000 (Region.mask (footprint (.handoverGo a0 a1))) := (by decide : Sub _ (Region.mask (.out :: .host :: ([.reg .RSV_OWNER, .reg .RSV_EVENT, .power, .basin]))))
  replace hs := Within.start (m := Region.mask (footprint (.handoverGo a0 a1))) hs
  replace h : execHandoverGo a0 a1 s = .next t := h
  unfold execHandoverGo at h
  repeat' (first | (cases h; done) | split at h)
  all_goals try cases h
  all_goals repeat' first
    | with_reducible assumption
    | exact Sub.up hm (by decide)
    | exact Sub.bit hm (by decide)
    | with_reducible apply within_State_viaReg
    | with_reducible apply within_ownerWrite
    | with_reducible apply within_finish
    | intro _

theorem within_exec_handoverDone {a0} (hs : Sound s) (h : exec (.handoverDone a0) s = .next t) :
    Within (Region.mask (footprint (.handoverDone a0))) s t := by
  have hm : Sub 0x200A10000000000000000000000000000000000000000000000000000001800000000000000000000000000000000000000000000 (Region.mask (footprint (.handoverDone a0))) := (by decide : Sub _ (Region.mask (.out :: .host :: ([.reg .RSV_OWNER, .reg .RSV_EVENT, .memory, .basin]))))
  replace hs := Within.start (m := Region.mask (footprint (.handoverDone a0))) hs
  replace h : execHandoverDone a0 s = .next t := h
  unfold execHandoverDone at h
  repeat' (first | (cases h; done) | split at h)
  all_goals try cases h
  all_goals repeat' first
    | with_reducible assumption
    | exact Sub.up hm (by decide)
    | exact Sub.bit hm (by decide)
    | with_reducible apply within_handoverEnd
    | with_reducible apply within_finish

theorem within_exec_poolBanksWrite {a0 a1} (hs : Sound s) (h : exec (.poolBanksWrite a0 a1) s = .next t) :
    Within (Region.mask (footprint (.poolBanksWrite a0 a1))) s t := by
  have hm : Sub 0x1A00000000000000000000000000000000000000000000000000000000011000000000000000040080000000000008000000000 (Region.mask (footprint (.poolBanksWrite a0 a1))) := (by decide : Sub _ (Region.mask (.out :: .host :: (poolParts ++ [.reg .BSN_POOL_BANKS, .power]))))
  replace hs := Within.start (m := Region.mask (footprint (.poolBanksWrite a0 a1))) hs
  replace h : execPoolBanksWrite a0 a1 s = .next t := h
  unfold execPoolBanksWrite at h
  repeat' (first | (cases h; done) | split at h)
  all_goals try cases h
  all_goals repeat' first
    | with_reducible assumption
    | exact Sub.up hm (by decide)
    | exact Sub.bit hm (by decide)
    | with_reducible apply within_State_viaReg
    | with_reducible apply within_poolBanksEffect
    | with_reducible apply within_finish
    | intro _

theorem within_exec_cpoolWrite {a0} (hs : Sound s) (h : exec (.cpoolWrite a0) s = .next t) :
    Within (Region.mask (footprint (.cpoolWrite a0))) s t := by
  have hm : Sub 0x1A00000000000000000000000000000000000000000000000000000000003000000000000000040080000000000008000000000 (Region.mask (footprint (.cpoolWrite a0))) := (by decide : Sub _ (Region.mask (.out :: .host :: (poolParts ++ [.reg .BSN_CPOOL, .power]))))
  replace hs := Within.start (m := Region.mask (footprint (.cpoolWrite a0))) hs
  replace h : execCpoolWrite a0 s = .next t := h
  unfold execCpoolWrite at h
  repeat' (first | (cases h; done) | split at h)
  all_goals try cases h
  all_goals repeat' first
    | with_reducible assumption
    | exact Sub.up hm (by decide)
    | exact Sub.bit hm (by decide)
    | with_reducible apply within_State_viaReg
    | with_reducible apply within_cpoolEffect
    | with_reducible apply within_finish
    | intro _

theorem within_exec_minWrite {a0 a1 a2} (hs : Sound s) (h : exec (.minWrite a0 a1 a2) s = .next t) :
    Within (Region.mask (footprint (.minWrite a0 a1 a2))) s t := by
  have hm : Sub 0x1A00000000000000000000000000000000000000000000000000000000201000000000000000040080000000000008000000000 (Region.mask (footprint (.minWrite a0 a1 a2))) := (by decide : Sub _ (Region.mask (.out :: .host :: (poolParts ++ [.reg .BSN_MIN, .power]))))
  replace hs := Within.start (m := Region.mask (footprint (.minWrite a0 a1 a2))) hs
  replace h : execMinWrite a0 a1 a2 s = .next t := h
  unfold execMinWrite at h
  repeat' (first | (cases h; done) | split at h)
  all_goals try cases h
  all_goals repeat' first
    | with_reducible assumption
    | exact Sub.up hm (by decide)
    | exact Sub.bit hm (by decide)
    | with_reducible apply within_State_viaReg
    | with_reducible apply within_minEffect
    | with_reducible apply within_finish
    | intro _

theorem within_exec_bufferRequest {a0} (hs : Sound s) (h : exec (.bufferRequest a0) s = .next t) :
    Within (Region.mask (footprint (.bufferRequest a0))) s t := by
  have hm : Sub 0x2200E0000000000000000000000000000000000000000000000000000020000D000000000000000040080000000000008000000000 (Region.mask (footprint (.bufferRequest a0))) := (by decide : Sub _ (Region.mask (.out :: .host :: (poolParts ++ [.reg .BSN_NONE, .reg .BSN_VIOL_INFO, .free, .basin] ++ [.reg .PBL_STATUS] ++ [.pebble]))))
  replace hs := Within.start (m := Region.mask (footprint (.bufferRequest a0))) hs
  replace h : execBufferRequest a0 s = .next t := h
  unfold execBufferRequest at h
  repeat' (first | (cases h; done) | split at h)
  all_goals try cases h
  all_goals repeat' first
    | with_reducible assumption
    | exact Sub.up hm (by decide)
    | exact Sub.bit hm (by decide)
    | with_reducible apply within_requestEffect
    | with_reducible apply within_finish

theorem within_exec_bufferFree {a0 a1 a2} (hs : Sound s) (h : exec (.bufferFree a0 a1 a2) s = .next t) :
    Within (Region.mask (footprint (.bufferFree a0 a1 a2))) s t := by
  have hm : Sub 0x2200E0000000000000000000000000000000000000000000000000000020000D000000000000000040080000000000008000000000 (Region.mask (footprint (.bufferFree a0 a1 a2))) := (by decide : Sub _ (Region.mask (.out :: .host :: (poolParts ++ [.reg .BSN_VIOL_INFO, .basin] ++ [.reg .PBL_STATUS] ++ [.reg .BSN_NONE, .free, .pebble]))))
  replace hs := Within.start (m := Region.mask (footprint (.bufferFree a0 a1 a2))) hs
  replace h : execBufferFree a0 a1 a2 s = .next t := h
  unfold execBufferFree at h
  repeat' (first | (cases h; done) | split at h)
  all_goals try cases h
  all_goals repeat' first
    | with_reducible assumption
    | exact Sub.up hm (by decide)
    | exact Sub.bit hm (by decide)
    | with_reducible apply within_freeEffect
    | with_reducible apply within_finish

theorem within_exec_fieldBurn {a0} (hs : Sound s) (h : exec (.fieldBurn a0) s = .next t) :
    Within (Region.mask (footprint (.fieldBurn a0))) s t := by
  have hm : Sub 0x1A00000000000000000000000000000000000000000000000000000180000000000000000000000000000000000000000000000 (Region.mask (footprint (.fieldBurn a0))) := (by decide : Sub _ (Region.mask (.out :: .host :: ([.reg .RSV_FIELD_CTRL, .reg .RSV_FIELD_RESULT, .power]))))
  replace hs := Within.start (m := Region.mask (footprint (.fieldBurn a0))) hs
  replace h : execFieldBurn a0 s = .next t := h
  unfold execFieldBurn at h
  repeat' (first | (cases h; done) | split at h)
  all_goals try cases h
  all_goals repeat' first
    | with_reducible assumption
    | exact Sub.up hm (by decide)
    | exact Sub.bit hm (by decide)
    | with_reducible apply within_State_viaReg
    | with_reducible apply within_fieldBurnEffect
    | with_reducible apply within_finish
    | intro _

theorem within_exec_burnDone (hs : Sound s) (h : exec (.burnDone) s = .next t) :
    Within (Region.mask (footprint .burnDone)) s t := by
  have hm : Sub 0x200A00000000000000000000000000000000000000000000000000000180000000000000000000000000000000000000000000000 (Region.mask (footprint (.burnDone))) := (by decide : Sub _ (Region.mask (.out :: .host :: ([.reg .RSV_FIELD_CTRL, .reg .RSV_FIELD_RESULT, .basin]))))
  replace hs := Within.start (m := Region.mask (footprint (.burnDone))) hs
  replace h : execBurnDone s = .next t := h
  unfold execBurnDone at h
  repeat' (first | (cases h; done) | split at h)
  all_goals try cases h
  all_goals repeat' first
    | with_reducible assumption
    | exact Sub.up hm (by decide)
    | exact Sub.bit hm (by decide)
    | with_reducible apply within_burnEnd
    | with_reducible apply within_finish

end Sys2Proof.Machine
end

