-- ==== Sys2Proof/Laws/ExecDebug.lean ====
section
/-! SUPPORT. Each command of Machine/Debug.lean changes nothing outside its footprint, and keeps a sound state sound. -/
namespace Sys2Proof.Machine

variable {s t : State}

theorem within_exec_stillwaterStop {a0} (hs : Sound s) (h : exec (.stillwaterStop a0) s = .next t) :
    Within (Region.mask (footprint (.stillwaterStop a0))) s t := by
  have hm : Sub 0x120FE000000000000000000000006060B0000000000000000000000000000000000000000000000000000000000004319008020000 (Region.mask (footprint (.stillwaterStop a0))) := (by decide : Sub _ (Region.mask (.out :: .host :: (planParts ++ stillParts ++ [.reg .DBG_STW_CTRL, .power]))))
  replace hs := Within.start (m := Region.mask (footprint (.stillwaterStop a0))) hs
  replace h : execStillwaterStop a0 s = .next t := h
  unfold execStillwaterStop at h
  repeat' (first | (cases h; done) | split at h)
  all_goals try cases h
  all_goals repeat' first
    | with_reducible assumption
    | exact Sub.up hm (by decide)
    | exact Sub.bit hm (by decide)
    | with_reducible apply within_State_viaReg
    | with_reducible apply within_stwCtrl
    | with_reducible apply within_finish
    | intro _

theorem within_exec_jtagStillwater (hs : Sound s) (h : exec (.jtagStillwater) s = .next t) :
    Within (Region.mask (footprint .jtagStillwater)) s t := by
  have hm : Sub 0x1000E00000000000000000000000606090000000000000000000000000000000000000000000000000000000000000000000000000 (Region.mask (footprint (.jtagStillwater))) := (by decide : Sub _ (Region.mask (.out :: .host :: (stillParts))))
  replace hs := Within.start (m := Region.mask (footprint (.jtagStillwater))) hs
  replace h : execJtagStillwater s = .next t := h
  unfold execJtagStillwater at h
  repeat' (first | (cases h; done) | split at h)
  all_goals try cases h
  all_goals repeat' first
    | with_reducible assumption
    | exact Sub.up hm (by decide)
    | exact Sub.bit hm (by decide)
    | with_reducible apply within_jtagStwEffect
    | with_reducible apply within_finish

theorem within_exec_stillwaterAt (hs : Sound s) (h : exec (.stillwaterAt) s = .next t) :
    Within (Region.mask (footprint .stillwaterAt)) s t := by
  have hm : Sub 0x1000E00000000000000000000000606090000000000000000000000000000000000000000000000000000000000000000000000000 (Region.mask (footprint (.stillwaterAt))) := (by decide : Sub _ (Region.mask (.out :: .host :: (stillParts))))
  replace hs := Within.start (m := Region.mask (footprint (.stillwaterAt))) hs
  replace h : execStillwaterAt s = .next t := h
  unfold execStillwaterAt at h
  repeat' (first | (cases h; done) | split at h)
  all_goals try cases h
  all_goals repeat' first
    | with_reducible assumption
    | exact Sub.up hm (by decide)
    | exact Sub.bit hm (by decide)
    | with_reducible apply within_stwAtEffect
    | with_reducible apply within_finish

theorem within_exec_stillwaterArm {a0} (hs : Sound s) (h : exec (.stillwaterArm a0) s = .next t) :
    Within (Region.mask (footprint (.stillwaterArm a0))) s t := by
  have hm : Sub 0x120FE000000000000000000000006060B0000000000000000000000000000000000000000000000000000000000004319008020000 (Region.mask (footprint (.stillwaterArm a0))) := (by decide : Sub _ (Region.mask (.out :: .host :: (planParts ++ stillParts ++ [.reg .DBG_STW_CTRL, .power]))))
  replace hs := Within.start (m := Region.mask (footprint (.stillwaterArm a0))) hs
  replace h : execStillwaterArm a0 s = .next t := h
  unfold execStillwaterArm at h
  repeat' (first | (cases h; done) | split at h)
  all_goals try cases h
  all_goals repeat' first
    | with_reducible assumption
    | exact Sub.up hm (by decide)
    | exact Sub.bit hm (by decide)
    | with_reducible apply within_State_viaReg
    | with_reducible apply within_stwCtrl
    | with_reducible apply within_finish
    | intro _

theorem within_exec_stillwaterScan {a0} (hs : Sound s) (h : exec (.stillwaterScan a0) s = .next t) :
    Within (Region.mask (footprint (.stillwaterScan a0))) s t := by
  have hm : Sub 0x120FE000000000000000000000006060B0000000000000000000000000000000000000000000000000000000000004319008020000 (Region.mask (footprint (.stillwaterScan a0))) := (by decide : Sub _ (Region.mask (.out :: .host :: (planParts ++ stillParts ++ [.reg .DBG_STW_CTRL, .power]))))
  replace hs := Within.start (m := Region.mask (footprint (.stillwaterScan a0))) hs
  replace h : execStillwaterScan a0 s = .next t := h
  unfold execStillwaterScan at h
  repeat' (first | (cases h; done) | split at h)
  all_goals try cases h
  all_goals repeat' first
    | with_reducible assumption
    | exact Sub.up hm (by decide)
    | exact Sub.bit hm (by decide)
    | with_reducible apply within_State_viaReg
    | with_reducible apply within_stwCtrl
    | with_reducible apply within_finish
    | intro _

theorem within_exec_scanned (hs : Sound s) (h : exec (.scanned) s = .next t) :
    Within (Region.mask (footprint .scanned)) s t := by
  have hm : Sub 0x1000E00000000000000000000000004010000000000000000000000000000000000000000000000000000000000000000000000000 (Region.mask (footprint (.scanned))) := (by decide : Sub _ (Region.mask (.out :: .host :: ([.reg .DBG_STW_STATUS, .reg .DBG_EVENT, .free, .dbg]))))
  replace hs := Within.start (m := Region.mask (footprint (.scanned))) hs
  replace h : execScanned s = .next t := h
  unfold execScanned at h
  repeat' (first | (cases h; done) | split at h)
  all_goals try cases h
  all_goals repeat' first
    | with_reducible assumption
    | exact Sub.up hm (by decide)
    | exact Sub.bit hm (by decide)
    | with_reducible apply within_scannedEffect
    | with_reducible apply within_finish

theorem within_exec_resume {a0} (hs : Sound s) (h : exec (.resume a0) s = .next t) :
    Within (Region.mask (footprint (.resume a0))) s t := by
  have hm : Sub 0x120FE000000000000000000000006060B0000000000000000000000000000000000000000000000000000000000004319008020000 (Region.mask (footprint (.resume a0))) := (by decide : Sub _ (Region.mask (.out :: .host :: (planParts ++ stillParts ++ [.reg .DBG_STW_CTRL, .power]))))
  replace hs := Within.start (m := Region.mask (footprint (.resume a0))) hs
  replace h : execResume a0 s = .next t := h
  unfold execResume at h
  repeat' (first | (cases h; done) | split at h)
  all_goals try cases h
  all_goals repeat' first
    | with_reducible assumption
    | exact Sub.up hm (by decide)
    | exact Sub.bit hm (by decide)
    | with_reducible apply within_State_viaReg
    | with_reducible apply within_stwCtrl
    | with_reducible apply within_finish
    | intro _

theorem within_exec_snapshot {a0} (hs : Sound s) (h : exec (.snapshot a0) s = .next t) :
    Within (Region.mask (footprint (.snapshot a0))) s t := by
  have hm : Sub 0x1001A00000000000000000000000024000000000000000000000000000000000000000000000000000000000000000000000000000 (Region.mask (footprint (.snapshot a0))) := (by decide : Sub _ (Region.mask (.out :: .host :: ([.reg .DBG_EVENT, .reg .DBG_SNAP, .power, .dbg]))))
  replace hs := Within.start (m := Region.mask (footprint (.snapshot a0))) hs
  replace h : execSnapshot a0 s = .next t := h
  unfold execSnapshot at h
  repeat' (first | (cases h; done) | split at h)
  all_goals try cases h
  all_goals repeat' first
    | with_reducible assumption
    | exact Sub.up hm (by decide)
    | exact Sub.bit hm (by decide)
    | with_reducible apply within_State_viaReg
    | with_reducible apply within_snapCtrl
    | with_reducible apply within_finish
    | intro _

theorem within_exec_traceSync (hs : Sound s) (h : exec (.traceSync) s = .next t) :
    Within (Region.mask (footprint .traceSync)) s t := by
  have hm : Sub 0x1000E00000000000000000000000604000000000000000000000000000000000000000000000000000000000000000000000000000 (Region.mask (footprint (.traceSync))) := (by decide : Sub _ (Region.mask (.out :: .host :: (traceParts))))
  replace hs := Within.start (m := Region.mask (footprint (.traceSync))) hs
  replace h : execTraceSync s = .next t := h
  unfold execTraceSync at h
  repeat' (first | (cases h; done) | split at h)
  all_goals try cases h
  all_goals repeat' first
    | with_reducible assumption
    | exact Sub.up hm (by decide)
    | exact Sub.bit hm (by decide)
    | with_reducible apply within_traceSyncEffect
    | with_reducible apply within_finish

theorem within_exec_loopStart {a0} (hs : Sound s) (h : exec (.loopStart a0) s = .next t) :
    Within (Region.mask (footprint (.loopStart a0))) s t := by
  have hm : Sub 0x1401E000000000000000001F0000000000000000000000000000000000008000000000000000000000000380002300000000000000 (Region.mask (footprint (.loopStart a0))) := (by decide : Sub _ (Region.mask (.out :: .host :: (loopParts ++ dieParts ++ [.reg .AQF_EVENT, .reg .TST_LOOP_CTRL, .free, .power]))))
  replace hs := Within.start (m := Region.mask (footprint (.loopStart a0))) hs
  replace h : execLoopStart a0 s = .next t := h
  unfold execLoopStart at h
  repeat' (first | (cases h; done) | split at h)
  all_goals try cases h
  all_goals repeat' first
    | with_reducible assumption
    | exact Sub.up hm (by decide)
    | exact Sub.bit hm (by decide)
    | with_reducible apply within_State_viaReg
    | with_reducible apply within_loopCtrlOpen
    | with_reducible apply within_finish
    | intro _

theorem within_exec_loopStop {a0 a1 a2 a3 a4} (hs : Sound s) (h : exec (.loopStop a0 a1 a2 a3 a4) s = .next t) :
    Within (Region.mask (footprint (.loopStop a0 a1 a2 a3 a4))) s t := by
  have hm : Sub 0x1401E000000000000000001F0000000000000000000000000000000000008000000000000000000000000380002300000000000000 (Region.mask (footprint (.loopStop a0 a1 a2 a3 a4))) := (by decide : Sub _ (Region.mask (.out :: .host :: (loopParts ++ dieParts ++ [.reg .AQF_EVENT, .reg .TST_LOOP_CTRL, .free, .power]))))
  replace hs := Within.start (m := Region.mask (footprint (.loopStop a0 a1 a2 a3 a4))) hs
  replace h : execLoopStop a0 a1 a2 a3 a4 s = .next t := h
  unfold execLoopStop at h
  repeat' (first | (cases h; done) | split at h)
  all_goals try cases h
  all_goals repeat' first
    | with_reducible assumption
    | exact Sub.up hm (by decide)
    | exact Sub.bit hm (by decide)
    | with_reducible apply within_State_viaReg
    | with_reducible apply within_loopCtrl
    | with_reducible apply within_finish
    | intro _

theorem within_exec_loopEnd {a0 a1 a2 a3} (hs : Sound s) (h : exec (.loopEnd a0 a1 a2 a3) s = .next t) :
    Within (Region.mask (footprint (.loopEnd a0 a1 a2 a3))) s t := by
  have hm : Sub 0x1400E000000000000000001E0000000000000000000000000000000000008000000000000000000000000000000000000000000000 (Region.mask (footprint (.loopEnd a0 a1 a2 a3))) := (by decide : Sub _ (Region.mask (.out :: .host :: (loopParts ++ [.free]))))
  replace hs := Within.start (m := Region.mask (footprint (.loopEnd a0 a1 a2 a3))) hs
  replace h : execLoopEnd a0 a1 a2 a3 s = .next t := h
  unfold execLoopEnd at h
  repeat' (first | (cases h; done) | split at h)
  all_goals try cases h
  all_goals repeat' first
    | with_reducible assumption
    | exact Sub.up hm (by decide)
    | exact Sub.bit hm (by decide)
    | with_reducible apply within_loopEndEffect
    | with_reducible apply within_finish

theorem within_exec_testModeEnter (hs : Sound s) (h : exec (.testModeEnter) s = .next t) :
    Within (Region.mask (footprint .testModeEnter)) s t := by
  have hm : Sub 0xA00000000000000000008000000000000000000000000000000000000000000000000000000000000000000000000000000000 (Region.mask (footprint (.testModeEnter))) := (by decide : Sub _ (Region.mask (.out :: .host :: ([.reg .TST_MODE]))))
  replace hs := Within.start (m := Region.mask (footprint (.testModeEnter))) hs
  replace h : execTestModeEnter s = .next t := h
  unfold execTestModeEnter at h
  repeat' (first | (cases h; done) | split at h)
  all_goals try cases h
  all_goals repeat' first
    | with_reducible assumption
    | exact Sub.up hm (by decide)
    | exact Sub.bit hm (by decide)
    | with_reducible apply within_testModeEffect
    | with_reducible apply within_finish

end Sys2Proof.Machine
end

