-- ==== Sys2Proof/Laws/ExecFaults.lean ====
section
/-! SUPPORT. Each command of Machine/Faults.lean changes nothing outside its footprint, and keeps a sound state sound. -/
namespace Sys2Proof.Machine

variable {s t : State}

theorem within_exec_startTick (hs : Sound s) (h : exec (.startTick) s = .next t) :
    Within (Region.mask (footprint .startTick)) s t := by
  have hm : Sub 0x1001A00000000000000000200000000000000000000000000000000000000000000000000000000000000000000000000000000000 (Region.mask (footprint (.startTick))) := (by decide : Sub _ (Region.mask (.out :: .host :: ([.reg .PWR_STATUS, .power, .dbg]))))
  replace hs := Within.start (m := Region.mask (footprint (.startTick))) hs
  replace h : execStartTick s = .next t := h
  unfold execStartTick at h
  repeat' (first | (cases h; done) | split at h)
  all_goals try cases h
  all_goals repeat' first
    | with_reducible assumption
    | exact Sub.up hm (by decide)
    | exact Sub.bit hm (by decide)
    | with_reducible apply within_startTickEffect
    | with_reducible apply within_finish

theorem within_exec_markerPhaseEnd {a0} (hs : Sound s) (h : exec (.markerPhaseEnd a0) s = .next t) :
    Within (Region.mask (footprint (.markerPhaseEnd a0))) s t := by
  have hm : Sub 0x121FE0000000000000000060000060609000000000000000000000000000000000000000000000000000000000000431900802007E (Region.mask (footprint (.markerPhaseEnd a0))) := (by decide : Sub _ (Region.mask (.out :: .host :: (divergeParts ++ planParts ++ [.reg .PWR_STATUS, .reg .PWR_EVENT, .power, .mirror]))))
  replace hs := Within.start (m := Region.mask (footprint (.markerPhaseEnd a0))) hs
  replace h : execMarkerPhaseEnd a0 s = .next t := h
  unfold execMarkerPhaseEnd at h
  repeat' (first | (cases h; done) | split at h)
  all_goals try cases h
  all_goals repeat' first
    | with_reducible assumption
    | exact Sub.up hm (by decide)
    | exact Sub.bit hm (by decide)
    | with_reducible apply within_markerEndEffect
    | with_reducible apply within_finish

theorem within_exec_tagMismatch {a0 a1} (hs : Sound s) (h : exec (.tagMismatch a0 a1) s = .next t) :
    Within (Region.mask (footprint (.tagMismatch a0 a1))) s t := by
  have hm : Sub 0x1814E000000000000000000000006060900E040000000000000000000000000000000000000000000000000000000000000000007E (Region.mask (footprint (.tagMismatch a0 a1))) := (by decide : Sub _ (Region.mask (.out :: .host :: (divergeParts ++ rillFaultParts ++ [.mirror]))))
  replace hs := Within.start (m := Region.mask (footprint (.tagMismatch a0 a1))) hs
  replace h : execTagMismatch a0 a1 s = .next t := h
  unfold execTagMismatch at h
  repeat' (first | (cases h; done) | split at h)
  all_goals try cases h
  all_goals repeat' first
    | with_reducible assumption
    | exact Sub.up hm (by decide)
    | exact Sub.bit hm (by decide)
    | with_reducible apply within_tagMismatchEffect
    | with_reducible apply within_finish

theorem within_exec_bankViolation {a0 a1 a2 a3} (hs : Sound s) (h : exec (.bankViolation a0 a1 a2 a3) s = .next t) :
    Within (Region.mask (footprint (.bankViolation a0 a1 a2 a3))) s t := by
  have hm : Sub 0x1804E000000000000000000000006060900E0400000000000000000000040000000000000000000000000000000000000000000000 (Region.mask (footprint (.bankViolation a0 a1 a2 a3))) := (by decide : Sub _ (Region.mask (.out :: .host :: (rillFaultParts ++ [.reg .RSV_VIOL]))))
  replace hs := Within.start (m := Region.mask (footprint (.bankViolation a0 a1 a2 a3))) hs
  replace h : execBankViolation a0 a1 a2 a3 s = .next t := h
  unfold execBankViolation at h
  repeat' (first | (cases h; done) | split at h)
  all_goals try cases h
  all_goals repeat' first
    | with_reducible assumption
    | exact Sub.up hm (by decide)
    | exact Sub.bit hm (by decide)
    | with_reducible apply within_bankViolationEffect
    | with_reducible apply within_finish

theorem within_exec_jetDetection {a0 a1 a2 a3} (hs : Sound s) (h : exec (.jetDetection a0 a1 a2 a3) s = .next t) :
    Within (Region.mask (footprint (.jetDetection a0 a1 a2 a3))) s t := by
  have hm : Sub 0x1804E000000000000000000000006060900E040000000000000000000000000000008078C000200000000000000000000F80000000 (Region.mask (footprint (.jetDetection a0 a1 a2 a3))) := (by decide : Sub _ (Region.mask (.out :: .host :: (rillFaultParts ++ availParts ++ [.reg .JET_EVENT, .reg .JET_DETECTS, .reg .JET_FAULT_INFO, .reg .JET_FAULT_STEP_LO, .reg .JET_FAULT_STEP_HI]))))
  replace hs := Within.start (m := Region.mask (footprint (.jetDetection a0 a1 a2 a3))) hs
  replace h : execJetDetection a0 a1 a2 a3 s = .next t := h
  unfold execJetDetection at h
  repeat' (first | (cases h; done) | split at h)
  all_goals try cases h
  all_goals repeat' first
    | with_reducible assumption
    | exact Sub.up hm (by decide)
    | exact Sub.bit hm (by decide)
    | with_reducible apply within_jetDetectionEffect
    | with_reducible apply within_finish

theorem within_exec_engineFault {a0} (hs : Sound s) (h : exec (.engineFault a0) s = .next t) :
    Within (Region.mask (footprint (.engineFault a0))) s t := by
  have hm : Sub 0x1804E000000000000000000000006060900E0400000000000000000000000000000000000000600000000000000000000000000000 (Region.mask (footprint (.engineFault a0))) := (by decide : Sub _ (Region.mask (.out :: .host :: (rillFaultParts ++ [.reg .DEC_STATUS, .reg .DEC_EVENT]))))
  replace hs := Within.start (m := Region.mask (footprint (.engineFault a0))) hs
  replace h : execEngineFault a0 s = .next t := h
  unfold execEngineFault at h
  repeat' (first | (cases h; done) | split at h)
  all_goals try cases h
  all_goals repeat' first
    | with_reducible assumption
    | exact Sub.up hm (by decide)
    | exact Sub.bit hm (by decide)
    | with_reducible apply within_engineFaultEffect
    | with_reducible apply within_finish

theorem within_exec_reedFault {a0} (hs : Sound s) (h : exec (.reedFault a0) s = .next t) :
    Within (Region.mask (footprint (.reedFault a0))) s t := by
  have hm : Sub 0x1804E000000000000000000000006060900E0400000000000000000000000000000180000000000000000000000000000000000000 (Region.mask (footprint (.reedFault a0))) := (by decide : Sub _ (Region.mask (.out :: .host :: (rillFaultParts ++ [.reg .REED_STATUS, .reg .REED_EVENT]))))
  replace hs := Within.start (m := Region.mask (footprint (.reedFault a0))) hs
  replace h : execReedFault a0 s = .next t := h
  unfold execReedFault at h
  repeat' (first | (cases h; done) | split at h)
  all_goals try cases h
  all_goals repeat' first
    | with_reducible assumption
    | exact Sub.up hm (by decide)
    | exact Sub.bit hm (by decide)
    | with_reducible apply within_reedFaultEffect
    | with_reducible apply within_finish

theorem within_exec_reservoirUncorr {a0 a1} (hs : Sound s) (h : exec (.reservoirUncorr a0 a1) s = .next t) :
    Within (Region.mask (footprint (.reservoirUncorr a0 a1))) s t := by
  have hm : Sub 0x1A04E000000000000000000000006060900E040000000000000000000000F001000000000000000060080000000000008000000000 (Region.mask (footprint (.reservoirUncorr a0 a1))) := (by decide : Sub _ (Region.mask (.out :: .host :: (rillFaultParts ++ taskParts ++ [.reg .RSV_EVENT, .reg .RSV_ECC_UNCORR] ++ [.reg .SLU_STATUS, .reg .HIF_EVENT, .reg .BSN_EVENT, .reg .RSV_ECC_CORR, .reg .RSV_ECC_COL, .basin]))))
  replace hs := Within.start (m := Region.mask (footprint (.reservoirUncorr a0 a1))) hs
  replace h : execReservoirUncorr a0 a1 s = .next t := h
  unfold execReservoirUncorr at h
  repeat' (first | (cases h; done) | split at h)
  all_goals try cases h
  all_goals repeat' first
    | with_reducible assumption
    | exact Sub.up hm (by decide)
    | exact Sub.bit hm (by decide)
    | with_reducible apply within_reservoirUncorrEffect
    | with_reducible apply within_finish

theorem within_exec_rillStop {a0} (hs : Sound s) (h : exec (.rillStop a0) s = .next t) :
    Within (Region.mask (footprint (.rillStop a0))) s t := by
  have hm : Sub 0x120EA00000000000000000000000000000100400000000000000000000000001000080004000200040080000000004319008020000 (Region.mask (footprint (.rillStop a0))) := (by decide : Sub _ (Region.mask (.out :: .host :: (planParts ++ poolParts ++ engineParts ++ [.reg .SVC_EVENT, .reg .SVC_REBUILDS]))))
  replace hs := Within.start (m := Region.mask (footprint (.rillStop a0))) hs
  replace h : execRillStop a0 s = .next t := h
  unfold execRillStop at h
  repeat' (first | (cases h; done) | split at h)
  all_goals try cases h
  all_goals repeat' first
    | with_reducible assumption
    | exact Sub.up hm (by decide)
    | exact Sub.bit hm (by decide)
    | with_reducible apply within_rillStopEffect
    | with_reducible apply within_finish

theorem within_exec_engineSelfTestDone {a0 a1} (hs : Sound s) (h : exec (.engineSelfTestDone a0 a1) s = .next t) :
    Within (Region.mask (footprint (.engineSelfTestDone a0 a1))) s t := by
  have hm : Sub 0x1A0EE000000000000000000000006060981E0400000000000000000000000000000080004000200000000000000004319F88020000 (Region.mask (footprint (.engineSelfTestDone a0 a1))) := (by decide : Sub _ (Region.mask (.out :: .host :: (planParts ++ availParts ++ [.reg .SVC_EVENT, .reg .SVC_REBUILDS, .reg .SVC_ENG_CMD, .svc] ++ [.reg .SVC_RILL_FAULT, .reg .SVC_RILL_STEP_LO, .reg .SVC_RILL_STEP_HI, .reg .DBG_STW_STATUS, .reg .DBG_STW_SEEN, .reg .DBG_STW_LEN, .reg .DBG_EVENT, .reg .DBG_TRACE_PTR, .reg .DBG_TRACE_LOST, .free]))))
  replace hs := Within.start (m := Region.mask (footprint (.engineSelfTestDone a0 a1))) hs
  replace h : execEngineSelfTestDone a0 a1 s = .next t := h
  unfold execEngineSelfTestDone at h
  repeat' (first | (cases h; done) | split at h)
  all_goals try cases h
  all_goals repeat' first
    | with_reducible assumption
    | exact Sub.up hm (by decide)
    | exact Sub.bit hm (by decide)
    | with_reducible apply within_selfTestEffect
    | with_reducible apply within_finish

theorem within_exec_realignDone {a0 a1} (hs : Sound s) (h : exec (.realignDone a0 a1) s = .next t) :
    Within (Region.mask (footprint (.realignDone a0 a1))) s t := by
  have hm : Sub 0x121EE0000000000000000000000060609010000000000000000000000000000000000000000000000000000000000431900802007E (Region.mask (footprint (.realignDone a0 a1))) := (by decide : Sub _ (Region.mask (.out :: .host :: (divergeParts ++ planParts ++ [.reg .SVC_REBUILDS, .mirror]))))
  replace hs := Within.start (m := Region.mask (footprint (.realignDone a0 a1))) hs
  replace h : execRealignDone a0 a1 s = .next t := h
  unfold execRealignDone at h
  repeat' (first | (cases h; done) | split at h)
  all_goals try cases h
  all_goals repeat' first
    | with_reducible assumption
    | exact Sub.up hm (by decide)
    | exact Sub.bit hm (by decide)
    | with_reducible apply within_realignEffect
    | with_reducible apply within_finish

end Sys2Proof.Machine
end

