-- ==== Sys2Proof/Laws/WithinFirmware.lean ====
section
/-! SUPPORT. What the operations of Machine/Firmware.lean can change, and that they keep a state sound. -/
namespace Sys2Proof.Machine

variable {m : Nat} {s₀ : State}

theorem within_downloadEffect (t : Nat) (chunk : HostRead) {s : State} (hs : Within m s₀ s) (hm : Sub 0x800A00000000000000000000000000000008000000000000000000000000000000000000000000003880000000000000000000000 m) : Within m s₀ (downloadEffect t chunk s) := by
  unfold downloadEffect
  repeat' first
    | with_reducible assumption
    | exact Sub.up hm (by decide)
    | exact Sub.bit hm (by decide)
    | (unfold fwField; (try dsimp only); first | exact Sub.bit hm (by decide) | (split <;> exact Sub.bit hm (by decide)))
    | (intro x; (first | (refine within_cut (m := m) (s₀ := s₀) x ?_ ?_; unfold x; rotate_left; clear_value x; intro hx) | skip))
    | lift_lets -underBinder
    | with_reducible apply within_ite
    | with_reducible apply within_State_endTask
    | with_reducible apply within_State_runTask
    | with_reducible refine within_State_modSvc _ ?_ rfl
    | with_reducible refine within_State_modSvc _ ?_ (by simp)
    | with_reducible apply within_State_onSource
    | with_reducible refine within_State_modSvc _ ?_ (Sub.up hm (by decide)) rfl
    | with_reducible refine within_State_modSvc _ ?_ (Sub.up hm (by decide)) (by simp)
    | with_reducible apply within_State_setImage
    | (apply within_mk <;> first | exact Or.inl (by with_reducible rfl) | exact Or.inr (Sub.bit hm (by decide)) | with_reducible rfl | rfl | exact Or.inl rfl | (simp; done) | skip)
    | (refine within_of_snd (by assumption) ?_)
    | (refine within_of_fst (by assumption) ?_)
    | (split)

theorem within_activateEffect (t : Nat) {s : State} (hs : Within m s₀ s) (hm : Sub 0x800800000000000000000000000000000008000000000000000000000000000000000000000000040080000000000000000000000 m)  : Within m s₀ (activateEffect t s) := by
  unfold activateEffect
  repeat' first
    | with_reducible assumption
    | exact Sub.up hm (by decide)
    | exact Sub.bit hm (by decide)
    | (unfold fwField; (try dsimp only); first | exact Sub.bit hm (by decide) | (split <;> exact Sub.bit hm (by decide)))
    | (intro x; (first | (refine within_cut (m := m) (s₀ := s₀) x ?_ ?_; unfold x; rotate_left; clear_value x; intro hx) | skip))
    | lift_lets -underBinder
    | with_reducible apply within_ite
    | with_reducible apply within_State_setBusy
    | with_reducible apply within_State_endTask
    | with_reducible apply within_State_runTask
    | with_reducible refine within_State_modSvc _ ?_ rfl
    | with_reducible refine within_State_modSvc _ ?_ (by simp)
    | with_reducible apply within_State_put
    | with_reducible apply within_State_setImage
    | with_reducible refine within_State_modSvc _ ?_ (Sub.up hm (by decide)) rfl
    | with_reducible refine within_State_modSvc _ ?_ (Sub.up hm (by decide)) (by simp)
    | (apply within_mk <;> first | exact Or.inl (by with_reducible rfl) | exact Or.inr (Sub.bit hm (by decide)) | with_reducible rfl | rfl | exact Or.inl rfl | (simp; done) | skip)
    | (refine within_of_snd (by assumption) ?_)
    | (refine within_of_fst (by assumption) ?_)
    | (split)

theorem within_drainExpiredEffect {s : State} (hs : Within m s₀ s) (hm : Sub 0x800000000000000000000000000000000000000000000000000000000000780000000000000060080000000000000000000000 m)  : Within m s₀ (drainExpiredEffect s) := by
  unfold drainExpiredEffect
  repeat' first
    | with_reducible assumption
    | exact Sub.up hm (by decide)
    | exact Sub.bit hm (by decide)
    | (intro x; (first | (refine within_cut (m := m) (s₀ := s₀) x ?_ ?_; unfold x; rotate_left; clear_value x; intro hx) | skip))
    | lift_lets -underBinder
    | with_reducible apply within_ite
    | with_reducible apply within_State_setTasks
    | with_reducible apply within_State_showTasks
    | with_reducible apply within_State_ev
    | with_reducible apply within_foldl
    | with_reducible apply within_State_vocabUndone
    | (refine within_of_snd (by assumption) ?_)
    | (refine within_of_fst (by assumption) ?_)
    | (split)
    | (apply within_mk <;> first | exact Or.inl (by with_reducible rfl) | exact Or.inr (Sub.bit hm (by decide)) | with_reducible rfl | rfl | exact Or.inl rfl | (simp; done) | skip)

theorem within_intakeEffect {s : State} (hs : Within m s₀ s) (hm : Sub 0x801C0000000000000000000000001000000A2000000000000000000000000000000000000000000400C0000000000000010000000 m)  : Within m s₀ (intakeEffect s) := by
  unfold intakeEffect
  repeat' first
    | with_reducible assumption
    | exact Sub.up hm (by decide)
    | exact Sub.bit hm (by decide)
    | (intro x; (first | (refine within_cut (m := m) (s₀ := s₀) x ?_ ?_; unfold x; rotate_left; clear_value x; intro hx) | skip))
    | lift_lets -underBinder
    | with_reducible apply within_ite
    | with_reducible apply within_State_setBusy
    | with_reducible apply within_State_endTask
    | with_reducible apply within_State_runImage
    | with_reducible apply within_State_keeperUp
    | with_reducible apply within_State_keeperDown
    | with_reducible refine within_State_modSvc _ ?_ (Sub.up hm (by decide)) rfl
    | with_reducible refine within_State_modSvc _ ?_ (Sub.up hm (by decide)) (by simp)
    | with_reducible apply within_State_put
    | (refine within_of_snd (by assumption) ?_)
    | (refine within_of_fst (by assumption) ?_)
    | (split)
    | (apply within_mk <;> first | exact Or.inl (by with_reducible rfl) | exact Or.inr (Sub.bit hm (by decide)) | with_reducible rfl | rfl | exact Or.inl rfl | (simp; done) | skip)

theorem within_commitEffect (t : Nat) {s : State} (hs : Within m s₀ s) (hm : Sub 0x800800000000000000000000000000000008600000000000000000000000000000000000000000000000000000000000010000000 m)  : Within m s₀ (commitEffect t s) := by
  unfold commitEffect
  repeat' first
    | with_reducible assumption
    | exact Sub.up hm (by decide)
    | exact Sub.bit hm (by decide)
    | (unfold fwField; (try dsimp only); first | exact Sub.bit hm (by decide) | (split <;> exact Sub.bit hm (by decide)))
    | (intro x; (first | (refine within_cut (m := m) (s₀ := s₀) x ?_ ?_; unfold x; rotate_left; clear_value x; intro hx) | skip))
    | lift_lets -underBinder
    | with_reducible apply within_ite
    | with_reducible apply within_State_endTask
    | with_reducible apply within_State_runTask
    | with_reducible apply within_State_rewriteLedger
    | with_reducible apply within_State_put
    | with_reducible apply within_State_ev
    | with_reducible apply within_State_setImage
    | (refine within_of_snd (by assumption) ?_)
    | (refine within_of_fst (by assumption) ?_)
    | (split)

theorem within_revertEffect (t : Nat) {s : State} (hs : Within m s₀ s) (hm : Sub 0x80080000000000000000000000001000000A6000000000000000000000000000000000000000000400C0000000000000000000000 m)  : Within m s₀ (revertEffect t s) := by
  unfold revertEffect
  repeat' first
    | with_reducible assumption
    | exact Sub.up hm (by decide)
    | exact Sub.bit hm (by decide)
    | (intro x; (first | (refine within_cut (m := m) (s₀ := s₀) x ?_ ?_; unfold x; rotate_left; clear_value x; intro hx) | skip))
    | lift_lets -underBinder
    | with_reducible apply within_ite
    | with_reducible apply within_State_endTask
    | with_reducible apply within_State_runTask
    | with_reducible apply within_State_endTrial
    | (refine within_of_snd (by assumption) ?_)
    | (refine within_of_fst (by assumption) ?_)
    | (split)

theorem within_trialExpireEffect {s : State} (hs : Within m s₀ s) (hm : Sub 0x80080000000000000000000000001000000A6000000000000000000000000000000000000000000400C0000000000000000000000 m)  : Within m s₀ (trialExpireEffect s) := by
  unfold trialExpireEffect
  repeat' first
    | with_reducible assumption
    | exact Sub.up hm (by decide)
    | exact Sub.bit hm (by decide)
    | intro _
    | with_reducible apply within_ite
    | (intro x; (first | (refine within_cut (m := m) (s₀ := s₀) x ?_ ?_; unfold x; rotate_left; clear_value x; intro hx) | skip))
    | with_reducible refine within_State_modSvc _ ?_ (Sub.up hm (by decide)) rfl
    | with_reducible refine within_State_modSvc _ ?_ (Sub.up hm (by decide)) (by simp)
    | with_reducible apply within_State_expireTrial
    | (refine within_of_snd (by assumption) ?_)
    | (refine within_of_fst (by assumption) ?_)
    | (split)

theorem within_ledgerWriteEffect (t : Nat) (data : HostRead) {s : State} (hs : Within m s₀ s) (hm : Sub 0x800A00000000000000000000000000000000000000000000000000000000000000000000000000003880000000000000010000000 m) : Within m s₀ (ledgerWriteEffect t data s) := by
  unfold ledgerWriteEffect
  repeat' first
    | with_reducible assumption
    | exact Sub.up hm (by decide)
    | exact Sub.bit hm (by decide)
    | (intro x; (first | (refine within_cut (m := m) (s₀ := s₀) x ?_ ?_; unfold x; rotate_left; clear_value x; intro hx) | skip))
    | lift_lets -underBinder
    | with_reducible apply within_ite
    | with_reducible apply within_State_endTask
    | with_reducible apply within_State_runTask
    | with_reducible apply within_State_putRecord
    | with_reducible apply within_State_onSource
    | (refine within_of_snd (by assumption) ?_)
    | (refine within_of_fst (by assumption) ?_)
    | (split)

theorem within_ledgerReadEffect (t : Nat) {s : State} (hs : Within m s₀ s) (hm : Sub 0xA00000000000000000000000000000000000000000000000000000000000000000000000000000000000000000000000000000 m)  : Within m s₀ (ledgerReadEffect t s) := by
  unfold ledgerReadEffect
  repeat' first
    | with_reducible assumption
    | exact Sub.up hm (by decide)
    | exact Sub.bit hm (by decide)
    | (intro x; (first | (refine within_cut (m := m) (s₀ := s₀) x ?_ ?_; unfold x; rotate_left; clear_value x; intro hx) | skip))
    | lift_lets -underBinder
    | with_reducible apply within_ite
    | with_reducible apply within_State_endTask
    | with_reducible apply within_State_runTask
    | with_reducible apply within_State_deliver
    | (refine within_of_snd (by assumption) ?_)
    | (refine within_of_fst (by assumption) ?_)
    | (split)

theorem within_State_telemetryPage {s : State} (page : Nat) (count : Nat) (hs : Within m s₀ s) (hm : Sub 0x1000400000000000000000000000000000000000000000000000000000000000000000000000000000000000000000000000000000 m)  : Within m s₀ (State.telemetryPage s page count).2 := by
  unfold State.telemetryPage
  repeat' first
    | with_reducible assumption
    | exact Sub.up hm (by decide)
    | exact Sub.bit hm (by decide)
    | (intro x; (first | (refine within_cut (m := m) (s₀ := s₀) x ?_ ?_; unfold x; rotate_left; clear_value x; intro hx) | skip))
    | lift_lets -underBinder
    | with_reducible apply within_ite
    | with_reducible apply within_State_fresh
    | with_reducible apply within_State_capture
    | (refine within_of_snd (by assumption) ?_)
    | (refine within_of_fst (by assumption) ?_)
    | (dsimp -zeta only)
    | (split)

theorem within_telemetryEffect (t : Nat) {s : State} (hs : Within m s₀ s) (hm : Sub 0x1000E00000000000000000000000000000000000000000000000000000000000000000000000000000000000000000000000000000 m)  : Within m s₀ (telemetryEffect t s) := by
  unfold telemetryEffect
  repeat' first
    | with_reducible assumption
    | exact Sub.up hm (by decide)
    | exact Sub.bit hm (by decide)
    | (intro x; (first | (refine within_cut (m := m) (s₀ := s₀) x ?_ ?_; unfold x; rotate_left; clear_value x; intro hx) | skip))
    | lift_lets -underBinder
    | with_reducible apply within_State_telemetryPage
    | with_reducible apply within_State_endTask
    | with_reducible apply within_State_runTask
    | with_reducible apply within_State_deliver

theorem within_unlockEffect (t : Nat) (message : HostRead) {s : State} (hs : Within m s₀ s) (hm : Sub 0x800E00000000000000000000000000000000200000000000000000000000000000000000000000003880000000000000000000000 m) : Within m s₀ (unlockEffect t message s) := by
  unfold unlockEffect
  repeat' first
    | with_reducible assumption
    | exact Sub.up hm (by decide)
    | exact Sub.bit hm (by decide)
    | (intro x; (first | (refine within_cut (m := m) (s₀ := s₀) x ?_ ?_; unfold x; rotate_left; clear_value x; intro hx) | skip))
    | lift_lets -underBinder
    | with_reducible apply within_ite
    | with_reducible apply within_State_endTask
    | with_reducible apply within_State_runTask
    | with_reducible apply within_State_deliver
    | with_reducible refine within_State_modSvc _ ?_ (Sub.up hm (by decide)) rfl
    | with_reducible refine within_State_modSvc _ ?_ (Sub.up hm (by decide)) (by simp)
    | with_reducible apply within_State_put
    | with_reducible apply within_State_fresh
    | with_reducible apply within_State_onSource
    | (refine within_of_snd (by assumption) ?_)
    | (refine within_of_fst (by assumption) ?_)
    | (dsimp -zeta only)
    | (split)
    | (apply within_mk <;> first | exact Or.inl (by with_reducible rfl) | exact Or.inr (Sub.bit hm (by decide)) | with_reducible rfl | rfl | exact Or.inl rfl | (simp; done) | skip)

end Sys2Proof.Machine
end

