-- ==== Sys2Proof/Laws/ExecFirmware.lean ====
section
/-! SUPPORT. Each command of Machine/Firmware.lean changes nothing outside its footprint, and keeps a sound state sound. -/
namespace Sys2Proof.Machine

variable {s t : State}

theorem within_exec_fwDownload {a0 a1} (hs : Sound s) (h : exec (.fwDownload a0 a1) s = .next t) :
    Within (Region.mask (footprint (.fwDownload a0 a1))) s t := by
  have hm : Sub 0x800A00000000000000000000000000000008000000000000000000000000000000000000000000063880000000000000000000000 (Region.mask (footprint (.fwDownload a0 a1))) := (by decide : Sub _ (Region.mask (.out :: .host :: (dmaParts ++ [.reg .SVC_FW_STATUS, .svc]))))
  replace hs := Within.start (m := Region.mask (footprint (.fwDownload a0 a1))) hs
  replace h : execFwDownload a0 a1 s = .next t := h
  unfold execFwDownload at h
  repeat' (first | (cases h; done) | split at h)
  all_goals try cases h
  all_goals repeat' first
    | with_reducible assumption
    | exact Sub.up hm (by decide)
    | exact Sub.bit hm (by decide)
    | with_reducible apply within_downloadEffect
    | with_reducible apply within_finish
    | with_reducible apply within_State_showTasks

theorem within_exec_fwActivate {a0} (hs : Sound s) (h : exec (.fwActivate a0) s = .next t) :
    Within (Region.mask (footprint (.fwActivate a0))) s t := by
  have hm : Sub 0x800A00000000000000000000000000000008000000000000000000000000000000000000000000060080000000000000000000000 (Region.mask (footprint (.fwActivate a0))) := (by decide : Sub _ (Region.mask (.out :: .host :: (taskParts ++ [.reg .HIF_EVENT, .reg .SVC_FW_STATUS, .svc]))))
  replace hs := Within.start (m := Region.mask (footprint (.fwActivate a0))) hs
  replace h : execFwActivate a0 s = .next t := h
  unfold execFwActivate at h
  repeat' (first | (cases h; done) | split at h)
  all_goals try cases h
  all_goals repeat' first
    | with_reducible assumption
    | exact Sub.up hm (by decide)
    | exact Sub.bit hm (by decide)
    | with_reducible apply within_activateEffect
    | with_reducible apply within_finish
    | with_reducible apply within_State_showTasks

theorem within_exec_fwCommit {a0} (hs : Sound s) (h : exec (.fwCommit a0) s = .next t) :
    Within (Region.mask (footprint (.fwCommit a0))) s t := by
  have hm : Sub 0x800A00000000000000000000000000000008600000000000000000000000000000000000000000060000000000000000010000000 (Region.mask (footprint (.fwCommit a0))) := (by decide : Sub _ (Region.mask (.out :: .host :: (taskParts ++ [.reg .CSC_SIGN_CTRL, .reg .SVC_STATUS, .reg .SVC_EVENT, .reg .SVC_FW_STATUS, .svc]))))
  replace hs := Within.start (m := Region.mask (footprint (.fwCommit a0))) hs
  replace h : execFwCommit a0 s = .next t := h
  unfold execFwCommit at h
  repeat' (first | (cases h; done) | split at h)
  all_goals try cases h
  all_goals repeat' first
    | with_reducible assumption
    | exact Sub.up hm (by decide)
    | exact Sub.bit hm (by decide)
    | with_reducible apply within_commitEffect
    | with_reducible apply within_finish
    | with_reducible apply within_State_showTasks

theorem within_exec_fwRevert {a0} (hs : Sound s) (h : exec (.fwRevert a0) s = .next t) :
    Within (Region.mask (footprint (.fwRevert a0))) s t := by
  have hm : Sub 0x800A0000000000000000000000001000000A6000000000000000000000000000000000000000000600C0000000000000000000000 (Region.mask (footprint (.fwRevert a0))) := (by decide : Sub _ (Region.mask (.out :: .host :: (coreParts ++ [.reg .HIF_LOCKS, .reg .SVC_EVENT, .reg .SVC_FW_STATUS]))))
  replace hs := Within.start (m := Region.mask (footprint (.fwRevert a0))) hs
  replace h : execFwRevert a0 s = .next t := h
  unfold execFwRevert at h
  repeat' (first | (cases h; done) | split at h)
  all_goals try cases h
  all_goals repeat' first
    | with_reducible assumption
    | exact Sub.up hm (by decide)
    | exact Sub.bit hm (by decide)
    | with_reducible apply within_revertEffect
    | with_reducible apply within_finish
    | with_reducible apply within_State_showTasks

theorem within_exec_ledgerWrite {a0 a1} (hs : Sound s) (h : exec (.ledgerWrite a0 a1) s = .next t) :
    Within (Region.mask (footprint (.ledgerWrite a0 a1))) s t := by
  have hm : Sub 0x800A00000000000000000000000000000000000000000000000000000000000000000000000000063880000000000000010000000 (Region.mask (footprint (.ledgerWrite a0 a1))) := (by decide : Sub _ (Region.mask (.out :: .host :: (dmaParts ++ [.reg .CSC_SIGN_CTRL, .svc]))))
  replace hs := Within.start (m := Region.mask (footprint (.ledgerWrite a0 a1))) hs
  replace h : execLedgerWrite a0 a1 s = .next t := h
  unfold execLedgerWrite at h
  repeat' (first | (cases h; done) | split at h)
  all_goals try cases h
  all_goals repeat' first
    | with_reducible assumption
    | exact Sub.up hm (by decide)
    | exact Sub.bit hm (by decide)
    | with_reducible apply within_ledgerWriteEffect
    | with_reducible apply within_finish
    | with_reducible apply within_State_showTasks

theorem within_exec_ledgerRead {a0} (hs : Sound s) (h : exec (.ledgerRead a0) s = .next t) :
    Within (Region.mask (footprint (.ledgerRead a0))) s t := by
  have hm : Sub 0xA00000000000000000000000000000000000000000000000000000000000000000000000000060000000000000000000000000 (Region.mask (footprint (.ledgerRead a0))) := (by decide : Sub _ (Region.mask (.out :: .host :: (taskParts))))
  replace hs := Within.start (m := Region.mask (footprint (.ledgerRead a0))) hs
  replace h : execLedgerRead a0 s = .next t := h
  unfold execLedgerRead at h
  repeat' (first | (cases h; done) | split at h)
  all_goals try cases h
  all_goals repeat' first
    | with_reducible assumption
    | exact Sub.up hm (by decide)
    | exact Sub.bit hm (by decide)
    | with_reducible apply within_ledgerReadEffect
    | with_reducible apply within_finish
    | with_reducible apply within_State_showTasks

theorem within_exec_telemetry {a0} (hs : Sound s) (h : exec (.telemetry a0) s = .next t) :
    Within (Region.mask (footprint (.telemetry a0))) s t := by
  have hm : Sub 0x1000E00000000000000000000000000000000000000000000000000000000000000000000000000060000000000000000000000000 (Region.mask (footprint (.telemetry a0))) := (by decide : Sub _ (Region.mask (.out :: .host :: (taskParts ++ [.free, .dbg]))))
  replace hs := Within.start (m := Region.mask (footprint (.telemetry a0))) hs
  replace h : execTelemetry a0 s = .next t := h
  unfold execTelemetry at h
  repeat' (first | (cases h; done) | split at h)
  all_goals try cases h
  all_goals repeat' first
    | with_reducible assumption
    | exact Sub.up hm (by decide)
    | exact Sub.bit hm (by decide)
    | with_reducible apply within_telemetryEffect
    | with_reducible apply within_finish
    | with_reducible apply within_State_showTasks

theorem within_exec_debugUnlock {a0 a1} (hs : Sound s) (h : exec (.debugUnlock a0 a1) s = .next t) :
    Within (Region.mask (footprint (.debugUnlock a0 a1))) s t := by
  have hm : Sub 0x800E00000000000000000000000000000000200000000000000000000000000000000000000000063880000000000000000000000 (Region.mask (footprint (.debugUnlock a0 a1))) := (by decide : Sub _ (Region.mask (.out :: .host :: (dmaParts ++ [.reg .SVC_STATUS, .free, .svc]))))
  replace hs := Within.start (m := Region.mask (footprint (.debugUnlock a0 a1))) hs
  replace h : execDebugUnlock a0 a1 s = .next t := h
  unfold execDebugUnlock at h
  repeat' (first | (cases h; done) | split at h)
  all_goals try cases h
  all_goals repeat' first
    | with_reducible assumption
    | exact Sub.up hm (by decide)
    | exact Sub.bit hm (by decide)
    | with_reducible apply within_unlockEffect
    | with_reducible apply within_finish
    | with_reducible apply within_State_showTasks

theorem within_exec_drainExpired (hs : Sound s) (h : exec (.drainExpired) s = .next t) :
    Within (Region.mask (footprint .drainExpired)) s t := by
  have hm : Sub 0x4000E00000000000000000000000000000000000000000000000000000000000780000000000000060080000000000000000000000 (Region.mask (footprint (.drainExpired))) := (by decide : Sub _ (Region.mask (.out :: .host :: (taskParts ++ [.reg .HIF_EVENT] ++ [.reg .REED_VOCAB_STATE, .reg .REED_VOCAB_ERR, .reg .REED_VOCAB_TAG_LO, .reg .REED_VOCAB_TAG_HI, .free, .vocabs]))))
  replace hs := Within.start (m := Region.mask (footprint (.drainExpired))) hs
  replace h : execDrainExpired s = .next t := h
  unfold execDrainExpired at h
  repeat' (first | (cases h; done) | split at h)
  all_goals try cases h
  all_goals repeat' first
    | with_reducible assumption
    | exact Sub.up hm (by decide)
    | exact Sub.bit hm (by decide)
    | with_reducible apply within_drainExpiredEffect
    | with_reducible apply within_finish

theorem within_exec_keeperIntakeOpen (hs : Sound s) (h : exec (.keeperIntakeOpen) s = .next t) :
    Within (Region.mask (footprint .keeperIntakeOpen)) s t := by
  have hm : Sub 0x801E0000000000000000000000001000000A2000000000000000000000000000000000000000000600C0000000000000010000000 (Region.mask (footprint (.keeperIntakeOpen))) := (by decide : Sub _ (Region.mask (.out :: .host :: (coreParts ++ [.reg .CSC_SIGN_CTRL, .reg .HIF_LOCKS, .reg .SVC_FW_STATUS, .free, .power]))))
  replace hs := Within.start (m := Region.mask (footprint (.keeperIntakeOpen))) hs
  replace h : execKeeperIntakeOpen s = .next t := h
  unfold execKeeperIntakeOpen at h
  repeat' (first | (cases h; done) | split at h)
  all_goals try cases h
  all_goals repeat' first
    | with_reducible assumption
    | exact Sub.up hm (by decide)
    | exact Sub.bit hm (by decide)
    | with_reducible apply within_intakeEffect
    | with_reducible apply within_finish
    | with_reducible apply within_State_showTasks

theorem within_exec_trialExpire (hs : Sound s) (h : exec (.trialExpire) s = .next t) :
    Within (Region.mask (footprint .trialExpire)) s t := by
  have hm : Sub 0x800A0000000000000000000000001000000A6000000000000000000000000000000000000000000400C0000000000000000000000 (Region.mask (footprint (.trialExpire))) := (by decide : Sub _ (Region.mask (.out :: .host :: (coreParts ++ [.reg .SVC_EVENT, .reg .SVC_FW_STATUS]))))
  replace hs := Within.start (m := Region.mask (footprint (.trialExpire))) hs
  replace h : execTrialExpire s = .next t := h
  unfold execTrialExpire at h
  repeat' (first | (cases h; done) | split at h)
  all_goals try cases h
  all_goals repeat' first
    | with_reducible assumption
    | exact Sub.up hm (by decide)
    | exact Sub.bit hm (by decide)
    | with_reducible apply within_trialExpireEffect
    | with_reducible apply within_finish

end Sys2Proof.Machine
end

