-- ==== Sys2Proof/Laws/ExecInlet.lean ====
section
/-! SUPPORT. Each command of Machine/Inlet.lean changes nothing outside its footprint, and keeps a sound state sound. -/
namespace Sys2Proof.Machine

variable {s t : State}

theorem within_exec_avtpPacket {a0 a1} (hs : Sound s) (h : exec (.avtpPacket a0 a1) s = .next t) :
    Within (Region.mask (footprint (.avtpPacket a0 a1))) s t := by
  have hm : Sub 0x318E0000000000000000000000000000000001FD00000000000000000000005000000000000000040080000000000308000000006 (Region.mask (footprint (.avtpPacket a0 a1))) := (by decide : Sub _ (Region.mask (.out :: .host :: (inletParts ++ poolParts ++ [.reg .MIR_STATUS, .reg .MIR_FILL, .reg .SLU_STEP_LO, .reg .SLU_STEP_HI, .reg .INL_ACCEPTED, .free, .sluice, .mirror, .basin] ++ [.reg .BSN_NONE]))))
  replace hs := Within.start (m := Region.mask (footprint (.avtpPacket a0 a1))) hs
  replace h : execAvtpPacket a0 a1 s = .next t := h
  unfold execAvtpPacket at h
  repeat' (first | (cases h; done) | split at h)
  all_goals try cases h
  all_goals repeat' first
    | with_reducible assumption
    | exact Sub.up hm (by decide)
    | exact Sub.bit hm (by decide)
    | with_reducible apply within_finish
    | with_reducible apply within_packetEffect

theorem within_exec_frameAccept {a0} (hs : Sound s) (h : exec (.frameAccept a0) s = .next t) :
    Within (Region.mask (footprint (.frameAccept a0))) s t := by
  have hm : Sub 0x1318E0000000000000000000000000000000001FD00000000000000000000005000000000000000040080000000000008000000006 (Region.mask (footprint (.frameAccept a0))) := (by decide : Sub _ (Region.mask (.out :: .host :: (inletParts ++ poolParts ++ [.reg .MIR_FILL, .reg .INL_ACCEPTED, .free, .sluice, .mirror, .basin, .dbg] ++ [.reg .MIR_STATUS, .reg .BSN_NONE]))))
  replace hs := Within.start (m := Region.mask (footprint (.frameAccept a0))) hs
  replace h : execFrameAccept a0 s = .next t := h
  unfold execFrameAccept at h
  repeat' (first | (cases h; done) | split at h)
  all_goals try cases h
  all_goals repeat' first
    | with_reducible assumption
    | exact Sub.up hm (by decide)
    | exact Sub.bit hm (by decide)
    | with_reducible apply within_finish
    | with_reducible apply within_frameAcceptEffect

theorem within_exec_frameStale {a0} (hs : Sound s) (h : exec (.frameStale a0) s = .next t) :
    Within (Region.mask (footprint (.frameStale a0))) s t := by
  have hm : Sub 0x1100A0000000000000000000000000000000001F900000000000000000000000000000000000000000000000000000000000000000 (Region.mask (footprint (.frameStale a0))) := (by decide : Sub _ (Region.mask (.out :: .host :: (inletParts ++ [.dbg]))))
  replace hs := Within.start (m := Region.mask (footprint (.frameStale a0))) hs
  replace h : execFrameStale a0 s = .next t := h
  unfold execFrameStale at h
  repeat' (first | (cases h; done) | split at h)
  all_goals try cases h
  all_goals repeat' first
    | with_reducible assumption
    | exact Sub.up hm (by decide)
    | exact Sub.bit hm (by decide)
    | with_reducible apply within_finish
    | with_reducible apply within_frameStaleEffect

theorem within_exec_inletLinkUp {a0} (hs : Sound s) (h : exec (.inletLinkUp a0) s = .next t) :
    Within (Region.mask (footprint (.inletLinkUp a0))) s t := by
  have hm : Sub 0xA00000000000000000000000000000000000080000000000000000000000000000000000000000000000000000000000000000 (Region.mask (footprint (.inletLinkUp a0))) := (by decide : Sub _ (Region.mask (.out :: .host :: ([.reg .INL_STATUS]))))
  replace hs := Within.start (m := Region.mask (footprint (.inletLinkUp a0))) hs
  replace h : execInletLinkUp a0 s = .next t := h
  unfold execInletLinkUp at h
  repeat' (first | (cases h; done) | split at h)
  all_goals try cases h
  all_goals repeat' first
    | with_reducible assumption
    | exact Sub.up hm (by decide)
    | exact Sub.bit hm (by decide)
    | with_reducible apply within_finish
    | with_reducible apply within_inletUpEffect

theorem within_exec_inletLinkDown {a0} (hs : Sound s) (h : exec (.inletLinkDown a0) s = .next t) :
    Within (Region.mask (footprint (.inletLinkDown a0))) s t := by
  have hm : Sub 0x80A00000000000000000000000000000000000180000000000000000000000000000000000000000000000000000000000000000 (Region.mask (footprint (.inletLinkDown a0))) := (by decide : Sub _ (Region.mask (.out :: .host :: ([.reg .INL_STATUS, .reg .INL_EVENT, .sundial]))))
  replace hs := Within.start (m := Region.mask (footprint (.inletLinkDown a0))) hs
  replace h : execInletLinkDown a0 s = .next t := h
  unfold execInletLinkDown at h
  repeat' (first | (cases h; done) | split at h)
  all_goals try cases h
  all_goals repeat' first
    | with_reducible assumption
    | exact Sub.up hm (by decide)
    | exact Sub.bit hm (by decide)
    | with_reducible apply within_finish
    | with_reducible apply within_State_inletDown

end Sys2Proof.Machine
end

