-- ==== Sys2Proof/Laws/ExecLoader.lean ====
section
/-! SUPPORT. Each command of Machine/Loader.lean changes nothing outside its footprint, and keeps a sound state sound. -/
namespace Sys2Proof.Machine

variable {s t : State}

theorem within_exec_loadStart {a0} (hs : Sound s) (h : exec (.loadStart a0) s = .next t) :
    Within (Region.mask (footprint (.loadStart a0))) s t := by
  have hm : Sub 0x3A00000000000000000000000000000000000000000000000000000000000000000000000000000000000000000006000C70000 (Region.mask (footprint (.loadStart a0))) := (by decide : Sub _ (Region.mask (.out :: .host :: (loadParts ++ [.reg .CSC_LOAD_CTRL, .power]))))
  replace hs := Within.start (m := Region.mask (footprint (.loadStart a0))) hs
  replace h : execLoadStart a0 s = .next t := h
  unfold execLoadStart at h
  repeat' (first | (cases h; done) | split at h)
  all_goals try cases h
  all_goals repeat' first
    | with_reducible assumption
    | exact Sub.up hm (by decide)
    | exact Sub.bit hm (by decide)
    | with_reducible apply within_State_viaReg
    | with_reducible apply within_finish
    | with_reducible apply within_loadCtrl
    | intro _

theorem within_exec_loadAbort (hs : Sound s) (h : exec (.loadAbort) s = .next t) :
    Within (Region.mask (footprint .loadAbort)) s t := by
  have hm : Sub 0x3A00000000000000000000000000000000000000000000000000000000000000000000000000000000000000000006000C70000 (Region.mask (footprint (.loadAbort))) := (by decide : Sub _ (Region.mask (.out :: .host :: (loadParts ++ [.reg .CSC_LOAD_CTRL, .power]))))
  replace hs := Within.start (m := Region.mask (footprint (.loadAbort))) hs
  replace h : execLoadAbort s = .next t := h
  unfold execLoadAbort at h
  repeat' (first | (cases h; done) | split at h)
  all_goals try cases h
  all_goals repeat' first
    | with_reducible assumption
    | exact Sub.up hm (by decide)
    | exact Sub.bit hm (by decide)
    | with_reducible apply within_State_viaReg
    | with_reducible apply within_finish
    | with_reducible apply within_loadCtrl
    | intro _

theorem within_exec_loadTransferDone {a0} (hs : Sound s) (h : exec (.loadTransferDone a0) s = .next t) :
    Within (Region.mask (footprint (.loadTransferDone a0))) s t := by
  have hm : Sub 0x2A00000000000000000000000000000000000000000000000000000000000000000000000000000000000000000006000C30000 (Region.mask (footprint (.loadTransferDone a0))) := (by decide : Sub _ (Region.mask (.out :: .host :: (loadParts))))
  replace hs := Within.start (m := Region.mask (footprint (.loadTransferDone a0))) hs
  replace h : execLoadTransferDone a0 s = .next t := h
  unfold execLoadTransferDone at h
  repeat' (first | (cases h; done) | split at h)
  all_goals try cases h
  all_goals repeat' first
    | with_reducible assumption
    | exact Sub.up hm (by decide)
    | exact Sub.bit hm (by decide)
    | with_reducible apply within_finish
    | with_reducible apply within_transferEffect

theorem within_exec_loadStructureDone (hs : Sound s) (h : exec (.loadStructureDone) s = .next t) :
    Within (Region.mask (footprint .loadStructureDone)) s t := by
  have hm : Sub 0x2A00000000000000000000000000000000000000000000000000000000000000000000000000000000000000000006000C30000 (Region.mask (footprint (.loadStructureDone))) := (by decide : Sub _ (Region.mask (.out :: .host :: (loadParts))))
  replace hs := Within.start (m := Region.mask (footprint (.loadStructureDone))) hs
  replace h : execLoadStructureDone s = .next t := h
  unfold execLoadStructureDone at h
  repeat' (first | (cases h; done) | split at h)
  all_goals try cases h
  all_goals repeat' first
    | with_reducible assumption
    | exact Sub.up hm (by decide)
    | exact Sub.bit hm (by decide)
    | with_reducible apply within_finish
    | with_reducible apply within_structureEffect

theorem within_exec_loadSignatureDone (hs : Sound s) (h : exec (.loadSignatureDone) s = .next t) :
    Within (Region.mask (footprint .loadSignatureDone)) s t := by
  have hm : Sub 0x2A00000000000000000000000000000000000000000000000000000000000000000000000000000000000000000006000C30000 (Region.mask (footprint (.loadSignatureDone))) := (by decide : Sub _ (Region.mask (.out :: .host :: (loadParts))))
  replace hs := Within.start (m := Region.mask (footprint (.loadSignatureDone))) hs
  replace h : execLoadSignatureDone s = .next t := h
  unfold execLoadSignatureDone at h
  repeat' (first | (cases h; done) | split at h)
  all_goals try cases h
  all_goals repeat' first
    | with_reducible assumption
    | exact Sub.up hm (by decide)
    | exact Sub.bit hm (by decide)
    | with_reducible apply within_finish
    | with_reducible apply within_signatureEffect

theorem within_exec_loadStagingDone (hs : Sound s) (h : exec (.loadStagingDone) s = .next t) :
    Within (Region.mask (footprint .loadStagingDone)) s t := by
  have hm : Sub 0x2A00000000000000000000000000000000000000000000000000000000000000000000000000000000000000000006000C30000 (Region.mask (footprint (.loadStagingDone))) := (by decide : Sub _ (Region.mask (.out :: .host :: (loadParts))))
  replace hs := Within.start (m := Region.mask (footprint (.loadStagingDone))) hs
  replace h : execLoadStagingDone s = .next t := h
  unfold execLoadStagingDone at h
  repeat' (first | (cases h; done) | split at h)
  all_goals try cases h
  all_goals repeat' first
    | with_reducible assumption
    | exact Sub.up hm (by decide)
    | exact Sub.bit hm (by decide)
    | with_reducible apply within_finish
    | with_reducible apply within_stagingEffect

end Sys2Proof.Machine
end

