-- ==== Sys2Proof/Laws/ExecLockstep.lean ====
section
/-! SUPPORT. Each command of Machine/Lockstep.lean changes nothing outside its footprint, and keeps a sound state sound. -/
namespace Sys2Proof.Machine

variable {s t : State}

theorem within_exec_lockstepWindow (hs : Sound s) (h : exec (.lockstepWindow) s = .next t) :
    Within (Region.mask (footprint .lockstepWindow)) s t := by
  have hm : Sub 0x1050E0000000000000000000000060609000000000000000000000000000000000000000000000000000000000000000000000607E (Region.mask (footprint (.lockstepWindow))) := (by decide : Sub _ (Region.mask (.out :: .host :: (divergeParts ++ [.reg .MIR_LS_STATUS, .reg .MIR_LS_WINDOWS, .mirror, .lock]))))
  replace hs := Within.start (m := Region.mask (footprint (.lockstepWindow))) hs
  replace h : execLockstepWindow s = .next t := h
  unfold execLockstepWindow at h
  repeat' (first | (cases h; done) | split at h)
  all_goals try cases h
  all_goals repeat' first
    | with_reducible assumption
    | exact Sub.up hm (by decide)
    | exact Sub.bit hm (by decide)
    | with_reducible apply within_finish
    | with_reducible apply within_lsWindowEffect

theorem within_exec_lockstepFrame {a0 a1 a2 a3 a4} (hs : Sound s) (h : exec (.lockstepFrame a0 a1 a2 a3 a4) s = .next t) :
    Within (Region.mask (footprint (.lockstepFrame a0 a1 a2 a3 a4))) s t := by
  have hm : Sub 0x1050E0000000000000000000000060609000000000000000000000000000000000000000000000000000000000000000000000607E (Region.mask (footprint (.lockstepFrame a0 a1 a2 a3 a4))) := (by decide : Sub _ (Region.mask (.out :: .host :: (divergeParts ++ [.reg .MIR_LS_STATUS, .reg .MIR_LS_WINDOWS, .mirror, .lock]))))
  replace hs := Within.start (m := Region.mask (footprint (.lockstepFrame a0 a1 a2 a3 a4))) hs
  replace h : execLockstepFrame a0 a1 a2 a3 a4 s = .next t := h
  unfold execLockstepFrame at h
  repeat' (first | (cases h; done) | split at h)
  all_goals try cases h
  all_goals repeat' first
    | with_reducible assumption
    | exact Sub.up hm (by decide)
    | exact Sub.bit hm (by decide)
    | with_reducible apply within_finish
    | with_reducible apply within_lsFrameEffect

theorem within_exec_lockstepLost (hs : Sound s) (h : exec (.lockstepLost) s = .next t) :
    Within (Region.mask (footprint .lockstepLost)) s t := by
  have hm : Sub 0x1050E0000000000000000000000060609000000000000000000000000000000000000000000000000000000000000000000000207E (Region.mask (footprint (.lockstepLost))) := (by decide : Sub _ (Region.mask (.out :: .host :: (divergeParts ++ [.reg .MIR_LS_STATUS, .mirror, .lock]))))
  replace hs := Within.start (m := Region.mask (footprint (.lockstepLost))) hs
  replace h : execLockstepLost s = .next t := h
  unfold execLockstepLost at h
  repeat' (first | (cases h; done) | split at h)
  all_goals try cases h
  all_goals repeat' first
    | with_reducible assumption
    | exact Sub.up hm (by decide)
    | exact Sub.bit hm (by decide)
    | with_reducible apply within_finish
    | with_reducible apply within_lsLostEffect

end Sys2Proof.Machine
end

