-- ==== Sys2Proof/Laws/ExecMirror.lean ====
section
/-! SUPPORT. Each command of Machine/Mirror.lean changes nothing outside its footprint, and keeps a sound state sound. -/
namespace Sys2Proof.Machine

variable {s t : State}

theorem within_exec_mirrorDrain {a0} (hs : Sound s) (h : exec (.mirrorDrain a0) s = .next t) :
    Within (Region.mask (footprint (.mirrorDrain a0))) s t := by
  have hm : Sub 0x410A00000000000000000000000000000000000000000000000000000000000000000000000000000000000000000000000000004 (Region.mask (footprint (.mirrorDrain a0))) := (by decide : Sub _ (Region.mask (.out :: .host :: ([.reg .MIR_FILL, .mirror, .aqf]))))
  replace hs := Within.start (m := Region.mask (footprint (.mirrorDrain a0))) hs
  replace h : execMirrorDrain a0 s = .next t := h
  unfold execMirrorDrain at h
  repeat' (first | (cases h; done) | split at h)
  all_goals try cases h
  all_goals repeat' first
    | with_reducible assumption
    | exact Sub.up hm (by decide)
    | exact Sub.bit hm (by decide)
    | with_reducible apply within_finish
    | with_reducible apply within_drainEffect

theorem within_exec_mirCtrlWrite {a0} (hs : Sound s) (h : exec (.mirCtrlWrite a0) s = .next t) :
    Within (Region.mask (footprint (.mirCtrlWrite a0))) s t := by
  have hm : Sub 0x21DE00000000000000000000000000000000000000000000000000000000001000000000000000040080000000000018000000007 (Region.mask (footprint (.mirCtrlWrite a0))) := (by decide : Sub _ (Region.mask (.out :: .host :: (poolParts ++ [.reg .MIR_CTRL, .reg .MIR_STATUS, .reg .MIR_FILL, .reg .SLU_EVENT, .free, .power, .rills, .sluice, .mirror, .basin]))))
  replace hs := Within.start (m := Region.mask (footprint (.mirCtrlWrite a0))) hs
  replace h : execMirCtrlWrite a0 s = .next t := h
  unfold execMirCtrlWrite at h
  repeat' (first | (cases h; done) | split at h)
  all_goals try cases h
  all_goals repeat' first
    | with_reducible assumption
    | exact Sub.up hm (by decide)
    | exact Sub.bit hm (by decide)
    | with_reducible apply within_State_viaReg
    | with_reducible apply within_finish
    | with_reducible apply within_mirCtrlEffect
    | intro _

theorem within_exec_mirrorModeChange (hs : Sound s) (h : exec (.mirrorModeChange) s = .next t) :
    Within (Region.mask (footprint .mirrorModeChange)) s t := by
  have hm : Sub 0x21CE00000000000000000000000000000000000000000000000000000000001000000000000000040080000000000018000000006 (Region.mask (footprint (.mirrorModeChange))) := (by decide : Sub _ (Region.mask (.out :: .host :: (poolParts ++ [.reg .MIR_STATUS, .reg .MIR_FILL, .reg .SLU_EVENT, .free, .rills, .sluice, .mirror, .basin]))))
  replace hs := Within.start (m := Region.mask (footprint (.mirrorModeChange))) hs
  replace h : execMirrorModeChange s = .next t := h
  unfold execMirrorModeChange at h
  repeat' (first | (cases h; done) | split at h)
  all_goals try cases h
  all_goals repeat' first
    | with_reducible assumption
    | exact Sub.up hm (by decide)
    | exact Sub.bit hm (by decide)
    | with_reducible apply within_finish
    | with_reducible apply within_modeChangeEffect

theorem within_exec_replayStart {a0 a1} (hs : Sound s) (h : exec (.replayStart a0 a1) s = .next t) :
    Within (Region.mask (footprint (.replayStart a0 a1))) s t := by
  have hm : Sub 0x21FE00000000000000000000000000000000000000000000000000000000001000000000000000040080000000000018008000007 (Region.mask (footprint (.replayStart a0 a1))) := (by decide : Sub _ (Region.mask (.out :: .host :: (poolParts ++ [.reg .MIR_CTRL, .reg .MIR_STATUS, .reg .MIR_FILL, .reg .CSC_ACT_STATUS, .reg .SLU_EVENT, .free, .power, .cascade, .rills, .sluice, .mirror, .basin]))))
  replace hs := Within.start (m := Region.mask (footprint (.replayStart a0 a1))) hs
  replace h : execReplayStart a0 a1 s = .next t := h
  unfold execReplayStart at h
  repeat' (first | (cases h; done) | split at h)
  all_goals try cases h
  all_goals repeat' first
    | with_reducible assumption
    | exact Sub.up hm (by decide)
    | exact Sub.bit hm (by decide)
    | with_reducible apply within_State_holdAccess
    | with_reducible apply within_finish
    | with_reducible apply within_replayStartEffect

end Sys2Proof.Machine
end

