-- ==== Sys2Proof/Laws/ExecPebbleJob.lean ====
section
/-! SUPPORT. Each command of Machine/PebbleJob.lean changes nothing outside its footprint, and keeps a sound state sound. -/
namespace Sys2Proof.Machine

variable {s t : State}

theorem within_exec_pebbleGo {a0} (hs : Sound s) (h : exec (.pebbleGo a0) s = .next t) :
    Within (Region.mask (footprint (.pebbleGo a0))) s t := by
  have hm : Sub 0x2201E00000000000000000000000000000000000000000000000000000E00005000000000000000040080000000000008000000000 (Region.mask (footprint (.pebbleGo a0))) := (by decide : Sub _ (Region.mask (.out :: .host :: (jobParts ++ [.reg .PBL_JOB_CTRL, .power] ++ [.reg .SLU_STATUS, .reg .HIF_EVENT, .reg .TASK_STATUS, .reg .BSN_EVENT, .reg .BSN_NONE, .free, .basin]))))
  replace hs := Within.start (m := Region.mask (footprint (.pebbleGo a0))) hs
  replace h : execPebbleGo a0 s = .next t := h
  unfold execPebbleGo at h
  repeat' (first | (cases h; done) | split at h)
  all_goals try cases h
  all_goals repeat' first
    | with_reducible assumption
    | exact Sub.up hm (by decide)
    | exact Sub.bit hm (by decide)
    | with_reducible apply within_State_viaReg
    | with_reducible apply within_finish
    | with_reducible apply within_pebbleCtrl
    | intro _

theorem within_exec_pebbleAbort {a0} (hs : Sound s) (h : exec (.pebbleAbort a0) s = .next t) :
    Within (Region.mask (footprint (.pebbleAbort a0))) s t := by
  have hm : Sub 0x2201E00000000000000000000000000000000000000000000000000000E00005000000000000000040080000000000008000000000 (Region.mask (footprint (.pebbleAbort a0))) := (by decide : Sub _ (Region.mask (.out :: .host :: (jobParts ++ [.reg .PBL_JOB_CTRL, .power] ++ [.reg .SLU_STATUS, .reg .HIF_EVENT, .reg .TASK_STATUS, .reg .BSN_EVENT, .reg .BSN_NONE, .free, .basin]))))
  replace hs := Within.start (m := Region.mask (footprint (.pebbleAbort a0))) hs
  replace h : execPebbleAbort a0 s = .next t := h
  unfold execPebbleAbort at h
  repeat' (first | (cases h; done) | split at h)
  all_goals try cases h
  all_goals repeat' first
    | with_reducible assumption
    | exact Sub.up hm (by decide)
    | exact Sub.bit hm (by decide)
    | with_reducible apply within_State_viaReg
    | with_reducible apply within_finish
    | with_reducible apply within_pebbleCtrl
    | intro _

theorem within_exec_pebbleJobDone {a0 a1 a2 a3} (hs : Sound s) (h : exec (.pebbleJobDone a0 a1 a2 a3) s = .next t) :
    Within (Region.mask (footprint (.pebbleJobDone a0 a1 a2 a3))) s t := by
  have hm : Sub 0x260CE00000000000000000000000000000000000000000000000001FC0600005000000000000000040080000000000008000000000 (Region.mask (footprint (.pebbleJobDone a0 a1 a2 a3))) := (by decide : Sub _ (Region.mask (.out :: .host :: (jobParts ++ [.reg .PBL_JOB_RESULT, .reg .PBL_IN_DONE, .reg .PBL_OUT_DONE, .reg .PBL_BLOCKS, .reg .PBL_LOSS, .reg .PBL_FAILS, .reg .PBL_STATE, .free] ++ [.basin] ++ [.reg .SLU_STATUS, .reg .HIF_EVENT, .reg .TASK_STATUS, .reg .BSN_EVENT, .rills, .sluice, .aqf] ++ [.reg .BSN_NONE]))))
  replace hs := Within.start (m := Region.mask (footprint (.pebbleJobDone a0 a1 a2 a3))) hs
  replace h : execPebbleJobDone a0 a1 a2 a3 s = .next t := h
  unfold execPebbleJobDone at h
  repeat' (first | (cases h; done) | split at h)
  all_goals try cases h
  all_goals repeat' first
    | with_reducible assumption
    | exact Sub.up hm (by decide)
    | exact Sub.bit hm (by decide)
    | with_reducible apply within_finish
    | with_reducible apply within_pebbleDoneEffect

end Sys2Proof.Machine
end

