-- ==== Sys2Proof/Laws/ExecPowerOps.lean ====
section
/-! SUPPORT. Each command of Machine/PowerOps.lean changes nothing outside its footprint, and keeps a sound state sound. -/
namespace Sys2Proof.Machine

variable {s t : State}

theorem within_exec_power {a0} (hs : Sound s) (h : exec (.power a0) s = .next t) :
    Within (Region.mask (footprint (.power a0))) s t := by
  have hm : Sub 0x1A00000000000000000000000000000000000000000000000000000000000000000000000000060000000000000000000000000 (Region.mask (footprint (.power a0))) := (by decide : Sub _ (Region.mask (.out :: .host :: (taskParts ++ [.power]))))
  replace hs := Within.start (m := Region.mask (footprint (.power a0))) hs
  replace h : execPower a0 s = .next t := h
  unfold execPower at h
  repeat' (first | (cases h; done) | split at h)
  all_goals try cases h
  all_goals repeat' first
    | with_reducible assumption
    | exact Sub.up hm (by decide)
    | exact Sub.bit hm (by decide)
    | with_reducible apply within_finish
    | with_reducible apply within_State_showTasks
    | with_reducible apply within_powerEffect

theorem within_exec_p1Entry (hs : Sound s) (h : exec (.p1Entry) s = .next t) :
    Within (Region.mask (footprint .p1Entry)) s t := by
  have hm : Sub 0x1A00000000000000000000000000000000000000000000000000000000000000000000000000008000000000000000000000000 (Region.mask (footprint (.p1Entry))) := (by decide : Sub _ (Region.mask (.out :: .host :: ([.reg .HIF_PWR_STATUS, .power]))))
  replace hs := Within.start (m := Region.mask (footprint (.p1Entry))) hs
  replace h : execP1Entry s = .next t := h
  unfold execP1Entry at h
  repeat' (first | (cases h; done) | split at h)
  all_goals try cases h
  all_goals repeat' first
    | with_reducible assumption
    | exact Sub.up hm (by decide)
    | exact Sub.bit hm (by decide)
    | with_reducible apply within_finish
    | with_reducible apply within_p1Effect

theorem within_exec_p2Entry (hs : Sound s) (h : exec (.p2Entry) s = .next t) :
    Within (Region.mask (footprint .p2Entry)) s t := by
  have hm : Sub 0x1A00000000000000004000000000000000000000000000000000000000000000000000000000008000000000000000000000000 (Region.mask (footprint (.p2Entry))) := (by decide : Sub _ (Region.mask (.out :: .host :: ([.reg .HIF_PWR_STATUS, .reg .PWR_VOLT, .power]))))
  replace hs := Within.start (m := Region.mask (footprint (.p2Entry))) hs
  replace h : execP2Entry s = .next t := h
  unfold execP2Entry at h
  repeat' (first | (cases h; done) | split at h)
  all_goals try cases h
  all_goals repeat' first
    | with_reducible assumption
    | exact Sub.up hm (by decide)
    | exact Sub.bit hm (by decide)
    | with_reducible apply within_finish
    | with_reducible apply within_p2Effect

theorem within_exec_p3Entry (hs : Sound s) (h : exec (.p3Entry) s = .next t) :
    Within (Region.mask (footprint .p3Entry)) s t := by
  have hm : Sub 0x9EA1E100000000000000000000006160900022001810600002200300000000000000000000000902680C0000000000000000000000 (Region.mask (footprint (.p3Entry))) := (by decide : Sub _ (Region.mask (.out :: .host :: (stillParts ++ coreParts ++ clockParts ++ weirParts ++ queueParts ++ [.reg .HIF_PWR_STATUS, .reg .HIF_LOCKS, .reg .SPT_EVENT, .memory, .power, .basin, .aqf, .caches]))))
  replace hs := Within.start (m := Region.mask (footprint (.p3Entry))) hs
  replace h : execP3Entry s = .next t := h
  unfold execP3Entry at h
  repeat' (first | (cases h; done) | split at h)
  all_goals try cases h
  all_goals repeat' first
    | with_reducible assumption
    | exact Sub.up hm (by decide)
    | exact Sub.bit hm (by decide)
    | with_reducible apply within_finish
    | with_reducible apply within_p3Effect

theorem within_exec_powerTaskTimeout (hs : Sound s) (h : exec (.powerTaskTimeout) s = .next t) :
    Within (Region.mask (footprint .powerTaskTimeout)) s t := by
  have hm : Sub 0x1A00000000000000000000000000000000000000000000000000000000000000000000000000060000000000000000000000000 (Region.mask (footprint (.powerTaskTimeout))) := (by decide : Sub _ (Region.mask (.out :: .host :: (taskParts ++ [.power]))))
  replace hs := Within.start (m := Region.mask (footprint (.powerTaskTimeout))) hs
  replace h : execPowerTaskTimeout s = .next t := h
  unfold execPowerTaskTimeout at h
  repeat' (first | (cases h; done) | split at h)
  all_goals try cases h
  all_goals repeat' first
    | with_reducible assumption
    | exact Sub.up hm (by decide)
    | exact Sub.bit hm (by decide)
    | with_reducible apply within_finish
    | with_reducible apply within_State_showTasks
    | with_reducible apply within_powerTimeoutEffect

theorem within_exec_voltageAdjust {a0} (hs : Sound s) (h : exec (.voltageAdjust a0) s = .next t) :
    Within (Region.mask (footprint (.voltageAdjust a0))) s t := by
  have hm : Sub 0x1A00000000000000004400000000000000000000000000000000000000000000000000000000000000000000000000000000000 (Region.mask (footprint (.voltageAdjust a0))) := (by decide : Sub _ (Region.mask (.out :: .host :: ([.reg .PWR_EVENT, .reg .PWR_VOLT, .power]))))
  replace hs := Within.start (m := Region.mask (footprint (.voltageAdjust a0))) hs
  replace h : execVoltageAdjust a0 s = .next t := h
  unfold execVoltageAdjust at h
  repeat' (first | (cases h; done) | split at h)
  all_goals try cases h
  all_goals repeat' first
    | with_reducible assumption
    | exact Sub.up hm (by decide)
    | exact Sub.bit hm (by decide)
    | with_reducible apply within_finish
    | with_reducible apply within_voltageEffect

theorem within_exec_vrFault (hs : Sound s) (h : exec (.vrFault) s = .next t) :
    Within (Region.mask (footprint .vrFault)) s t := by
  have hm : Sub 0x1A00000000000000000600000000000000000000000000000000000000000000000000000000000000000000000000000000000 (Region.mask (footprint (.vrFault))) := (by decide : Sub _ (Region.mask (.out :: .host :: ([.reg .PWR_STATUS, .reg .PWR_EVENT, .power]))))
  replace hs := Within.start (m := Region.mask (footprint (.vrFault))) hs
  replace h : execVrFault s = .next t := h
  unfold execVrFault at h
  repeat' (first | (cases h; done) | split at h)
  all_goals try cases h
  all_goals repeat' first
    | with_reducible assumption
    | exact Sub.up hm (by decide)
    | exact Sub.bit hm (by decide)
    | with_reducible apply within_finish
    | with_reducible apply within_vrFaultEffect

theorem within_exec_frequencyDecision {a0 a1} (hs : Sound s) (h : exec (.frequencyDecision a0 a1) s = .next t) :
    Within (Region.mask (footprint (.frequencyDecision a0 a1))) s t := by
  have hm : Sub 0x1A00000000000000002000000000000000000000000000000000000000000000000000000000000000000000000000000000000 (Region.mask (footprint (.frequencyDecision a0 a1))) := (by decide : Sub _ (Region.mask (.out :: .host :: ([.reg .PWR_MEAS, .power]))))
  replace hs := Within.start (m := Region.mask (footprint (.frequencyDecision a0 a1))) hs
  replace h : execFrequencyDecision a0 a1 s = .next t := h
  unfold execFrequencyDecision at h
  repeat' (first | (cases h; done) | split at h)
  all_goals try cases h
  all_goals repeat' first
    | with_reducible assumption
    | exact Sub.up hm (by decide)
    | exact Sub.bit hm (by decide)
    | with_reducible apply within_finish
    | with_reducible apply within_frequencyEffect

theorem within_exec_opChange (hs : Sound s) (h : exec (.opChange) s = .next t) :
    Within (Region.mask (footprint .opChange)) s t := by
  have hm : Sub 0x1A00000000000000000E00000000000000000000000000000000000000000000000000000000000000000000000000000000000 (Region.mask (footprint (.opChange))) := (by decide : Sub _ (Region.mask (.out :: .host :: ([.reg .PWR_STATUS, .reg .PWR_EVENT, .reg .PWR_OP, .power]))))
  replace hs := Within.start (m := Region.mask (footprint (.opChange))) hs
  replace h : execOpChange s = .next t := h
  unfold execOpChange at h
  repeat' (first | (cases h; done) | split at h)
  all_goals try cases h
  all_goals repeat' first
    | with_reducible assumption
    | exact Sub.up hm (by decide)
    | exact Sub.bit hm (by decide)
    | with_reducible apply within_finish
    | with_reducible apply within_opChangeEffect

theorem within_exec_i3cWake (hs : Sound s) (h : exec (.i3cWake) s = .next t) :
    Within (Region.mask (footprint .i3cWake)) s t := by
  have hm : Sub 0x1A00000000000000000000000000000000000000000000000000000000000000000000000000000000000000000000000000000 (Region.mask (footprint (.i3cWake))) := (by decide : Sub _ (Region.mask (.out :: .host :: ([.power]))))
  replace hs := Within.start (m := Region.mask (footprint (.i3cWake))) hs
  replace h : execI3cWake s = .next t := h
  unfold execI3cWake at h
  repeat' (first | (cases h; done) | split at h)
  all_goals try cases h
  all_goals repeat' first
    | with_reducible assumption
    | exact Sub.up hm (by decide)
    | exact Sub.bit hm (by decide)
    | with_reducible apply within_finish
    | with_reducible apply within_i3cWakeEffect

theorem within_exec_wakeTimer (hs : Sound s) (h : exec (.wakeTimer) s = .next t) :
    Within (Region.mask (footprint .wakeTimer)) s t := by
  have hm : Sub 0x1A00000000000000000000000000000000000000000000000000000000000000000000000000000000000000000000000000000 (Region.mask (footprint (.wakeTimer))) := (by decide : Sub _ (Region.mask (.out :: .host :: ([.power]))))
  replace hs := Within.start (m := Region.mask (footprint (.wakeTimer))) hs
  replace h : execWakeTimer s = .next t := h
  unfold execWakeTimer at h
  repeat' (first | (cases h; done) | split at h)
  all_goals try cases h
  all_goals repeat' first
    | with_reducible assumption
    | exact Sub.up hm (by decide)
    | exact Sub.bit hm (by decide)
    | with_reducible apply within_finish
    | with_reducible apply within_wakeTimerEffect

theorem within_exec_spoutSignalDetect {a0} (hs : Sound s) (h : exec (.spoutSignalDetect a0) s = .next t) :
    Within (Region.mask (footprint (.spoutSignalDetect a0))) s t := by
  have hm : Sub 0x1A00000000000000000000000000000000000000000000000000000000000000000000000000000000000000000000000000000 (Region.mask (footprint (.spoutSignalDetect a0))) := (by decide : Sub _ (Region.mask (.out :: .host :: ([.power]))))
  replace hs := Within.start (m := Region.mask (footprint (.spoutSignalDetect a0))) hs
  replace h : execSpoutSignalDetect a0 s = .next t := h
  unfold execSpoutSignalDetect at h
  repeat' (first | (cases h; done) | split at h)
  all_goals try cases h
  all_goals repeat' first
    | with_reducible assumption
    | exact Sub.up hm (by decide)
    | exact Sub.bit hm (by decide)
    | with_reducible apply within_finish
    | with_reducible apply within_signalDetectEffect

theorem within_exec_d3hotTransition {a0} (hs : Sound s) (h : exec (.d3hotTransition a0) s = .next t) :
    Within (Region.mask (footprint (.d3hotTransition a0))) s t := by
  have hm : Sub 0x1A00000000000000000000000000000000000000000000000000000000000000000000000000000000000000000000000000000 (Region.mask (footprint (.d3hotTransition a0))) := (by decide : Sub _ (Region.mask (.out :: .host :: ([.power]))))
  replace hs := Within.start (m := Region.mask (footprint (.d3hotTransition a0))) hs
  replace h : execD3hotTransition a0 s = .next t := h
  unfold execD3hotTransition at h
  repeat' (first | (cases h; done) | split at h)
  all_goals try cases h
  all_goals repeat' first
    | with_reducible assumption
    | exact Sub.up hm (by decide)
    | exact Sub.bit hm (by decide)
    | with_reducible apply within_finish
    | with_reducible apply within_d3hotEffect

end Sys2Proof.Machine
end

