-- ==== Sys2Proof/Laws/ExecResets.lean ====
section
/-! SUPPORT. Each command of Machine/Resets.lean changes nothing outside its footprint, and keeps a sound state sound. -/
namespace Sys2Proof.Machine

variable {s t : State}

theorem within_exec_functionLevelReset (hs : Sound s) (h : exec (.functionLevelReset) s = .next t) :
    Within (Region.mask (footprint .functionLevelReset)) s t := by
  have hm : Sub 0x601A000000000000000000000000000000000000000000000000000000000010000000000000FFFFFFC0000000000008000000000 (Region.mask (footprint (.functionLevelReset))) := (by decide : Sub _ (Region.mask (.out :: .host :: (functionParts ++ poolParts ++ [.power, .basin, .aqf]))))
  replace hs := Within.start (m := Region.mask (footprint (.functionLevelReset))) hs
  replace h : execFunctionLevelReset s = .next t := h
  unfold execFunctionLevelReset at h
  repeat' (first | (cases h; done) | split at h)
  all_goals try cases h
  all_goals repeat' first
    | with_reducible assumption
    | exact Sub.up hm (by decide)
    | exact Sub.bit hm (by decide)
    | with_reducible apply within_finish
    | with_reducible apply within_flrEffect

theorem within_exec_linkDown (hs : Sound s) (h : exec (.linkDown) s = .next t) :
    Within (Region.mask (footprint .linkDown)) s t := by
  have hm : Sub 0xE01A000000000000000000000000000000000000000000000000000000000010000000000000FFFFFFC0000000000008000000000 (Region.mask (footprint (.linkDown))) := (by decide : Sub _ (Region.mask (.out :: .host :: (functionParts ++ poolParts ++ [.power, .basin, .aqf, .svc]))))
  replace hs := Within.start (m := Region.mask (footprint (.linkDown))) hs
  replace h : execLinkDown s = .next t := h
  unfold execLinkDown at h
  repeat' (first | (cases h; done) | split at h)
  all_goals try cases h
  all_goals repeat' first
    | with_reducible assumption
    | exact Sub.up hm (by decide)
    | exact Sub.bit hm (by decide)
    | with_reducible apply within_finish
    | with_reducible apply within_linkDownEffect

theorem within_exec_thermtrip (hs : Sound s) (h : exec (.thermtrip) s = .next t) :
    Within (Region.mask (footprint .thermtrip)) s t := by
  have hm : Sub 0x401A00000000000000000400000000000000000000000000000000000000000000000000000000000000000000000000000000000 (Region.mask (footprint (.thermtrip))) := (by decide : Sub _ (Region.mask (.out :: .host :: ([.reg .PWR_EVENT, .power, .aqf]))))
  replace hs := Within.start (m := Region.mask (footprint (.thermtrip))) hs
  replace h : execThermtrip s = .next t := h
  unfold execThermtrip at h
  repeat' (first | (cases h; done) | split at h)
  all_goals try cases h
  all_goals repeat' first
    | with_reducible assumption
    | exact Sub.up hm (by decide)
    | exact Sub.bit hm (by decide)
    | with_reducible apply within_finish
    | with_reducible apply within_thermtripEffect

theorem within_exec_thermtripRelease (hs : Sound s) (h : exec (.thermtripRelease) s = .next t) :
    Within (Region.mask (footprint .thermtripRelease)) s t := by
  have hm : Sub 0x881A00000000000000000200000000000000000181060000000000000000000000000000000000000000000000000000000000000 (Region.mask (footprint (.thermtripRelease))) := (by decide : Sub _ (Region.mask (.out :: .host :: ([.reg .PWR_STATUS, .power, .svc, .reg .SDL_STATUS, .reg .SDL_EVENT, .reg .SDL_FREQ, .reg .INL_STATUS, .reg .INL_EVENT, .sundial]))))
  replace hs := Within.start (m := Region.mask (footprint (.thermtripRelease))) hs
  replace h : execThermtripRelease s = .next t := h
  unfold execThermtripRelease at h
  repeat' (first | (cases h; done) | split at h)
  all_goals try cases h
  all_goals repeat' first
    | with_reducible assumption
    | exact Sub.up hm (by decide)
    | exact Sub.bit hm (by decide)
    | with_reducible apply within_finish
    | with_reducible apply within_thermReleaseEffect

theorem within_exec_trstBoardN (hs : Sound s) (h : exec (.trstBoardN) s = .next t) :
    Within (Region.mask (footprint .trstBoardN)) s t := by
  have hm : Sub 0x401A00000000000000000000000000000000000000000000000000000000000000000000000000000000000000000000000000000 (Region.mask (footprint (.trstBoardN))) := (by decide : Sub _ (Region.mask (.out :: .host :: ([.power, .aqf]))))
  replace hs := Within.start (m := Region.mask (footprint (.trstBoardN))) hs
  replace h : execTrstBoardN s = .next t := h
  unfold execTrstBoardN at h
  repeat' (first | (cases h; done) | split at h)
  all_goals try cases h
  all_goals repeat' first
    | with_reducible assumption
    | exact Sub.up hm (by decide)
    | exact Sub.bit hm (by decide)
    | with_reducible apply within_finish
    | with_reducible apply within_trstEffect

theorem within_exec_deviceResetRequest {a0} (hs : Sound s) (h : exec (.deviceResetRequest a0) s = .next t) :
    Within (Region.mask (footprint (.deviceResetRequest a0))) s t := by
  have hm : Sub 0x401A00000000000000040000000000000000000000000000000000000000000000000000000000000000000000000000000000000 (Region.mask (footprint (.deviceResetRequest a0))) := (by decide : Sub _ (Region.mask (.out :: .host :: ([.reg .PWR_RST_CTRL, .power, .aqf]))))
  replace hs := Within.start (m := Region.mask (footprint (.deviceResetRequest a0))) hs
  replace h : execDeviceResetRequest a0 s = .next t := h
  unfold execDeviceResetRequest at h
  repeat' (first | (cases h; done) | split at h)
  all_goals try cases h
  all_goals repeat' first
    | with_reducible assumption
    | exact Sub.up hm (by decide)
    | exact Sub.bit hm (by decide)
    | with_reducible apply within_State_viaReg
    | with_reducible apply within_finish
    | with_reducible apply within_rstCtrl
    | intro _

theorem within_exec_deviceResetDrainDone (hs : Sound s) (h : exec (.deviceResetDrainDone) s = .next t) :
    Within (Region.mask (footprint .deviceResetDrainDone)) s t := by
  have hm : Sub 0xFFFFFD00000000000FFF843FFFFFFFFFFFFFFFFFFE107FFFFFFFFFFFFFFFFFFFFFFFFFFFFFFFFFFFFFFFFFFFFFFFFFFFFFFFFFFFFF (Region.mask (footprint (.deviceResetDrainDone))) := by
    set_option maxRecDepth 20000 in
    decide
  replace hs := Within.start (m := Region.mask (footprint (.deviceResetDrainDone))) hs
  replace h : execDeviceResetDrainDone s = .next t := h
  unfold execDeviceResetDrainDone at h
  repeat' (first | (cases h; done) | split at h)
  all_goals try cases h
  all_goals repeat' first
    | with_reducible assumption
    | exact Sub.up hm (by decide)
    | exact Sub.bit hm (by decide)
    | with_reducible apply within_finish
    | with_reducible apply within_resetDoneEffect

theorem within_exec_powerOnReset (hs : Sound s) (h : exec (.powerOnReset) s = .next t) :
    Within (Region.mask (footprint .powerOnReset)) s t := by
  have hm : Sub 0xFFFFFD00000000000FFFFFFFFFFFFFFFFFFFFFFFFFFFFFFFFFFFFFFFFFFFFFFFFFFFFFFFFFFFFFFFFFFFFFFFFFFFFFFFFFFFFFFFFF (Region.mask (footprint (.powerOnReset))) := by
    set_option maxRecDepth 20000 in
    decide
  replace hs := Within.start (m := Region.mask (footprint (.powerOnReset))) hs
  replace h : execPowerOnReset s = .next t := h
  unfold execPowerOnReset at h
  repeat' (first | (cases h; done) | split at h)
  all_goals try cases h
  all_goals repeat' first
    | with_reducible assumption
    | exact Sub.up hm (by decide)
    | exact Sub.bit hm (by decide)
    | with_reducible apply within_finish
    | with_reducible apply within_powerOnEffect

theorem within_exec_referenceLoss (hs : Sound s) (h : exec (.referenceLoss) s = .next t) :
    Within (Region.mask (footprint .referenceLoss)) s t := by
  have hm : Sub 0xFFFFFD00000000000FFFFFFFFFFFFFFFFFFFFFFFFFFFFFFFFFFFFFFFFFFFFFFFFFFFFFFFFFFFFFFFFFFFFFFFFFFFFFFFFFFFFFFFFF (Region.mask (footprint (.referenceLoss))) := by
    set_option maxRecDepth 20000 in
    decide
  replace hs := Within.start (m := Region.mask (footprint (.referenceLoss))) hs
  replace h : execReferenceLoss s = .next t := h
  unfold execReferenceLoss at h
  repeat' (first | (cases h; done) | split at h)
  all_goals try cases h
  all_goals repeat' first
    | with_reducible assumption
    | exact Sub.up hm (by decide)
    | exact Sub.bit hm (by decide)
    | with_reducible apply within_finish
    | with_reducible apply within_powerOnEffect

theorem within_exec_powerOnResetRelease (hs : Sound s) (h : exec (.powerOnResetRelease) s = .next t) :
    Within (Region.mask (footprint .powerOnResetRelease)) s t := by
  have hm : Sub 0x1E000000000000000042000000000000000000010200000000000000A0000000000000000000000000000000000000000000000 (Region.mask (footprint (.powerOnResetRelease))) := (by decide : Sub _ (Region.mask (.out :: .host :: ([.reg .RSV_SPARE_COL, .reg .RSV_FIELD_CTRL, .reg .SDL_STATUS, .reg .SDL_FREQ, .reg .PWR_STATUS, .reg .PWR_VOLT, .free, .power]))))
  replace hs := Within.start (m := Region.mask (footprint (.powerOnResetRelease))) hs
  replace h : execPowerOnResetRelease s = .next t := h
  unfold execPowerOnResetRelease at h
  repeat' (first | (cases h; done) | split at h)
  all_goals try cases h
  all_goals repeat' first
    | with_reducible assumption
    | exact Sub.up hm (by decide)
    | exact Sub.bit hm (by decide)
    | with_reducible apply within_finish
    | with_reducible apply within_powerReleaseEffect

theorem within_exec_perstN {a0} (hs : Sound s) (h : exec (.perstN a0) s = .next t) :
    Within (Region.mask (footprint (.perstN a0))) s t := by
  have hm : Sub 0x601A000000000000000000000000000000000000000000000000000000000010000000000000FFFFFFC0000000000008000000000 (Region.mask (footprint (.perstN a0))) := (by decide : Sub _ (Region.mask (.out :: .host :: (functionParts ++ poolParts ++ [.power, .basin, .aqf]))))
  replace hs := Within.start (m := Region.mask (footprint (.perstN a0))) hs
  replace h : execPerstN a0 s = .next t := h
  unfold execPerstN at h
  repeat' (first | (cases h; done) | split at h)
  all_goals try cases h
  all_goals repeat' first
    | with_reducible assumption
    | exact Sub.up hm (by decide)
    | exact Sub.bit hm (by decide)
    | with_reducible apply within_finish
    | with_reducible apply within_perstEffect

theorem within_exec_pllLock (hs : Sound s) (h : exec (.pllLock) s = .next t) :
    Within (Region.mask (footprint .pllLock)) s t := by
  have hm : Sub 0xA00000000000000000200000000000000000000000000000000000000000000000000000000000000000000000000000000000 (Region.mask (footprint (.pllLock))) := (by decide : Sub _ (Region.mask (.out :: .host :: ([.reg .PWR_STATUS]))))
  replace hs := Within.start (m := Region.mask (footprint (.pllLock))) hs
  replace h : execPllLock s = .next t := h
  unfold execPllLock at h
  repeat' (first | (cases h; done) | split at h)
  all_goals try cases h
  all_goals repeat' first
    | with_reducible assumption
    | exact Sub.up hm (by decide)
    | exact Sub.bit hm (by decide)
    | with_reducible apply within_finish
    | with_reducible apply within_pllLockEffect

theorem within_exec_cisternInitDone (hs : Sound s) (h : exec (.cisternInitDone) s = .next t) :
    Within (Region.mask (footprint .cisternInitDone)) s t := by
  have hm : Sub 0x1A00000000000000000000000000000000000000000000000000000000000000000000000000000000000000000000000000000 (Region.mask (footprint (.cisternInitDone))) := (by decide : Sub _ (Region.mask (.out :: .host :: ([.power]))))
  replace hs := Within.start (m := Region.mask (footprint (.cisternInitDone))) hs
  replace h : execCisternInitDone s = .next t := h
  unfold execCisternInitDone at h
  repeat' (first | (cases h; done) | split at h)
  all_goals try cases h
  all_goals repeat' first
    | with_reducible assumption
    | exact Sub.up hm (by decide)
    | exact Sub.bit hm (by decide)
    | with_reducible apply within_finish
    | with_reducible apply within_cisternEffect

theorem within_exec_onfiDiscoveryDone {a0} (hs : Sound s) (h : exec (.onfiDiscoveryDone a0) s = .next t) :
    Within (Region.mask (footprint (.onfiDiscoveryDone a0))) s t := by
  have hm : Sub 0xC01A00000000000000000000000000000000000000000000000000000000000000000000000000000000380002300000000000000 (Region.mask (footprint (.onfiDiscoveryDone a0))) := (by decide : Sub _ (Region.mask (.out :: .host :: (dieParts ++ [.power] ++ [.reg .AQF_EVENT, .svc]))))
  replace hs := Within.start (m := Region.mask (footprint (.onfiDiscoveryDone a0))) hs
  replace h : execOnfiDiscoveryDone a0 s = .next t := h
  unfold execOnfiDiscoveryDone at h
  repeat' (first | (cases h; done) | split at h)
  all_goals try cases h
  all_goals repeat' first
    | with_reducible assumption
    | exact Sub.up hm (by decide)
    | exact Sub.bit hm (by decide)
    | with_reducible apply within_finish
    | with_reducible apply within_discoveryEffect

theorem within_exec_functionReady (hs : Sound s) (h : exec (.functionReady) s = .next t) :
    Within (Region.mask (footprint .functionReady)) s t := by
  have hm : Sub 0xA000000000000000000000000000000000000000000000000000000000000000000000000000400C0000000000000000000000 (Region.mask (footprint (.functionReady))) := (by decide : Sub _ (Region.mask (.out :: .host :: ([.reg .HIF_STATUS, .reg .HIF_EVENT, .reg .TASK_STATUS]))))
  replace hs := Within.start (m := Region.mask (footprint (.functionReady))) hs
  replace h : execFunctionReady s = .next t := h
  unfold execFunctionReady at h
  repeat' (first | (cases h; done) | split at h)
  all_goals try cases h
  all_goals repeat' first
    | with_reducible assumption
    | exact Sub.up hm (by decide)
    | exact Sub.bit hm (by decide)
    | with_reducible apply within_finish
    | with_reducible apply within_functionReadyEffect

theorem within_exec_firmwareVerified (hs : Sound s) (h : exec (.firmwareVerified) s = .next t) :
    Within (Region.mask (footprint .firmwareVerified)) s t := by
  have hm : Sub 0xA00E1000000000000000000000001000081BA00000000000000000000001B330000000000000000400C0000000000008010000000 (Region.mask (footprint (.firmwareVerified))) := (by decide : Sub _ (Region.mask (.out :: .host :: (coreParts ++ poolParts ++ [.reg .CSC_SIGN_CTRL, .reg .BSN_CPOOL, .reg .BSN_POOL_BANKS, .reg .BSN_POOL_THR, .reg .BSN_CLIENT_CFG, .reg .BSN_MIN, .reg .RSV_OWNER, .reg .SVC_CTRL, .reg .SVC_WDT, .reg .SVC_FW_STATUS, .reg .SVC_TRIAL, .reg .SVC_SUSPECT_CFG, .free] ++ [.reg .RSV_EVENT, .memory, .basin]))))
  replace hs := Within.start (m := Region.mask (footprint (.firmwareVerified))) hs
  replace h : execFirmwareVerified s = .next t := h
  unfold execFirmwareVerified at h
  repeat' (first | (cases h; done) | split at h)
  all_goals try cases h
  all_goals repeat' first
    | with_reducible assumption
    | exact Sub.up hm (by decide)
    | exact Sub.bit hm (by decide)
    | with_reducible apply within_finish
    | with_reducible apply within_firmwareEffect

theorem within_exec_bridgeFlitError (hs : Sound s) (h : exec (.bridgeFlitError) s = .next t) :
    Within (Region.mask (footprint .bridgeFlitError)) s t := by
  have hm : Sub 0x800A00000000000000000000000000000000000000000000000000000000000000000000000000000000000000000000000000000 (Region.mask (footprint (.bridgeFlitError))) := (by decide : Sub _ (Region.mask (.out :: .host :: ([.svc]))))
  replace hs := Within.start (m := Region.mask (footprint (.bridgeFlitError))) hs
  replace h : execBridgeFlitError s = .next t := h
  unfold execBridgeFlitError at h
  repeat' (first | (cases h; done) | split at h)
  all_goals try cases h
  all_goals repeat' first
    | with_reducible assumption
    | exact Sub.up hm (by decide)
    | exact Sub.bit hm (by decide)
    | with_reducible apply within_finish
    | with_reducible apply within_flitEffect

theorem within_exec_trstBoardNRelease (hs : Sound s) (h : exec (.trstBoardNRelease) s = .next t) :
    Within (Region.mask (footprint .trstBoardNRelease)) s t := by
  have hm : Sub 0x1A00000000000000000000000000000000000000000000000000000000000000000000000000000000000000000000000000000 (Region.mask (footprint (.trstBoardNRelease))) := (by decide : Sub _ (Region.mask (.out :: .host :: ([.power]))))
  replace hs := Within.start (m := Region.mask (footprint (.trstBoardNRelease))) hs
  replace h : execTrstBoardNRelease s = .next t := h
  unfold execTrstBoardNRelease at h
  repeat' (first | (cases h; done) | split at h)
  all_goals try cases h
  all_goals repeat' first
    | with_reducible assumption
    | exact Sub.up hm (by decide)
    | exact Sub.bit hm (by decide)
    | with_reducible apply within_finish
    | with_reducible apply within_trstReleaseEffect

end Sys2Proof.Machine
end

