-- ==== Sys2Proof/Laws/WithinBatchOps.lean ====
section
/-! SUPPORT. What the operations of Machine/BatchOps.lean can change, and that they keep a state sound. -/
namespace Sys2Proof.Machine

variable {m : Nat} {s₀ : State}

theorem within_State_rejectAt (r : Nat) (q : PackPos) {s : State} (hs : Within m s₀ s) (hm : Sub 0x4000000000000000000000000000000000000000000000000000000000000000000000000000000000000000001000000000000 m) : Within m s₀ (State.rejectAt s r q) := by
  unfold State.rejectAt
  repeat' first
    | with_reducible assumption
    | exact Sub.up hm (by decide)
    | exact Sub.bit hm (by decide)
    | (intro x; (first | (refine within_cut (m := m) (s₀ := s₀) x ?_ ?_; unfold x; rotate_left; clear_value x; intro hx) | skip))
    | lift_lets -underBinder
    | with_reducible apply within_ite
    | with_reducible apply within_State_modRill
    | with_reducible apply within_State_bump
    | (refine within_of_snd (by assumption) ?_)
    | (refine within_of_fst (by assumption) ?_)
    | (split)
    | (dsimp -zeta only)

theorem within_State_endRound {s : State} (r : Nat) (hs : Within m s₀ s) (hm : Sub 0x4000000000000000000000000000000000000000000000000000000000000000000000000000000000000000002010000000000 m)  : Within m s₀ (State.endRound s r) := by
  unfold State.endRound
  repeat' first
    | with_reducible assumption
    | exact Sub.up hm (by decide)
    | exact Sub.bit hm (by decide)
    | (intro x; (first | (refine within_cut (m := m) (s₀ := s₀) x ?_ ?_; unfold x; rotate_left; clear_value x; intro hx) | skip))
    | lift_lets -underBinder
    | with_reducible apply within_ite
    | with_reducible apply within_State_ev
    | with_reducible apply within_State_bump
    | with_reducible apply within_State_setRill
    | (refine within_of_snd (by assumption) ?_)
    | (refine within_of_fst (by assumption) ?_)
    | (split)

theorem within_State_compareBatch {s : State} (r : Nat) (p : Part) (b : Batch) (cycles : Nat) (hs : Within m s₀ s) (hm : Sub 0x121C60000000000000000000000060609000000000000000000000000000000100000000000000004008000000000001800000007E m)  : Within m s₀ (State.compareBatch s r p b cycles) := by
  unfold State.compareBatch
  repeat' first
    | with_reducible assumption
    | exact Sub.up hm (by decide)
    | exact Sub.bit hm (by decide)
    | (intro x; (first | (refine within_cut (m := m) (s₀ := s₀) x ?_ ?_; unfold x; rotate_left; clear_value x; intro hx) | skip))
    | lift_lets -underBinder
    | with_reducible apply within_ite
    | with_reducible apply within_State_detFault
    | with_reducible apply within_State_endReplay
    | (refine within_of_snd (by assumption) ?_)
    | (refine within_of_fst (by assumption) ?_)
    | (split)
    | (apply within_mk <;> first | exact Or.inl (by with_reducible rfl) | exact Or.inr (Sub.bit hm (by decide)) | with_reducible rfl | rfl | exact Or.inl rfl | (simp; done) | skip)

theorem within_State_latchWatch {s : State} (k : Nat) (step : Nat) (w : WatchSt) (hs : Within m s₀ s) (hm : Sub 0x1000600000000000000000007FE0606090000000000000000000000000000000000000000000000000000000000000000000000000 m)  : Within m s₀ (State.latchWatch s k step w) := by
  unfold State.latchWatch
  repeat' first
    | with_reducible assumption
    | exact Sub.up hm (by decide)
    | exact Sub.bit hm (by decide)
    | (intro x; (first | (refine within_cut (m := m) (s₀ := s₀) x ?_ ?_; unfold x; rotate_left; clear_value x; intro hx) | skip))
    | lift_lets -underBinder
    | with_reducible apply within_ite
    | with_reducible apply within_State_puti
    | with_reducible apply within_State_put
    | with_reducible apply within_State_putPair
    | with_reducible apply within_State_each
    | with_reducible apply within_State_trigger

theorem within_State_latchWatches {s : State} (r : Nat) (step : Nat) (hs : Within m s₀ s) (hm : Sub 0x1000600000000000000000007FE0606090000000000000000000000000000000000000000000000000000000000000000000000000 m)  : Within m s₀ (State.latchWatches s r step) := by
  unfold State.latchWatches
  repeat' first
    | with_reducible assumption
    | exact Sub.up hm (by decide)
    | exact Sub.bit hm (by decide)
    | (intro x; (first | (refine within_cut (m := m) (s₀ := s₀) x ?_ ?_; unfold x; rotate_left; clear_value x; intro hx) | skip))
    | lift_lets -underBinder
    | with_reducible apply within_State_latchWatch
    | with_reducible apply within_foldl

theorem within_State_tapWatch {s : State} (r : Nat) (stage : Nat) (t : Tensor) (hs : Within m s₀ s) (hm : Sub 0x1000000000000000000000000000000000000000000000000000000000000000000000000000000000000000000000000000000000 m)  : Within m s₀ (State.tapWatch s r stage t) := by
  unfold State.tapWatch
  repeat' first
    | with_reducible assumption
    | exact Sub.up hm (by decide)
    | exact Sub.bit hm (by decide)
    | (intro x; (first | (refine within_cut (m := m) (s₀ := s₀) x ?_ ?_; unfold x; rotate_left; clear_value x; intro hx) | skip))
    | lift_lets -underBinder
    | with_reducible apply within_ite
    | (apply within_mk <;> first | exact Or.inl (by with_reducible rfl) | exact Or.inr (Sub.bit hm (by decide)) | with_reducible rfl | rfl | exact Or.inl rfl | exact (Sound.queues (Within.sound (by assumption))).symm | exact (Sound.caches (Within.sound (by assumption))).symm | exact (Sound.watch (Within.sound (by assumption))).symm | (simp; done) | skip)

theorem within_State_handOver {s : State} (r : Nat) (p : Part) (b : Batch) (cycles : Nat) (hs : Within m s₀ s) (hm : Sub 0x125E600000000000000000007FE0606090000000000000000000000000000001000000001FC000004008000000000431900802007E m)  : Within m s₀ (State.handOver s r p b cycles) := by
  unfold State.handOver
  repeat' first
    | with_reducible assumption
    | exact Sub.up hm (by decide)
    | exact Sub.bit hm (by decide)
    | (intro x; (first | (refine within_cut (m := m) (s₀ := s₀) x ?_ ?_; unfold x; rotate_left; clear_value x; intro hx) | skip))
    | lift_lets -underBinder
    | with_reducible apply within_ite
    | with_reducible apply within_State_freeBufs
    | with_reducible apply within_State_compareBatch
    | with_reducible apply within_State_latchWatches
    | with_reducible apply within_State_record
    | with_reducible apply within_State_checkReplay
    | with_reducible apply within_State_putPair
    | with_reducible apply within_State_bumpi
    | with_reducible apply within_State_setRill
    | with_reducible apply within_State_modSlot
    | with_reducible apply within_State_refill
    | with_reducible apply within_State_trace
    | with_reducible apply within_foldl
    | (apply within_mk <;> first | exact Or.inl (by with_reducible rfl) | exact Or.inr (Sub.bit hm (by decide)) | with_reducible rfl | rfl | exact Or.inl rfl | (simp; done) | skip)
    | (refine within_of_snd (by assumption) ?_)
    | (refine within_of_fst (by assumption) ?_)
    | (split)

end Sys2Proof.Machine
end

