-- ==== Sys2Proof/Laws/WithinStageOps.lean ====
section
/-! SUPPORT. What the operations of Machine/StageOps.lean can change, and that they keep a state sound. -/
namespace Sys2Proof.Machine

variable {m : Nat} {s₀ : State}

theorem within_State_countDec {s : State} (inst : Nat) (it : Item) (reason : Nat) (cycles : Nat) (own : Bool) (budget : Bool) (hs : Within m s₀ s) (hm : Sub 0x3FC00000000000000000000000000000 m)  : Within m s₀ (State.countDec s inst it reason cycles own budget) := by
  unfold State.countDec
  repeat' first
    | with_reducible assumption
    | exact Sub.up hm (by decide)
    | exact Sub.bit hm (by decide)
    | (intro x; (first | (refine within_cut (m := m) (s₀ := s₀) x ?_ ?_; unfold x; rotate_left; clear_value x; intro hx) | skip))
    | lift_lets -underBinder
    | with_reducible apply within_ite
    | with_reducible apply within_State_puti
    | with_reducible apply within_State_evi
    | with_reducible apply within_State_putPair
    | with_reducible apply within_State_bumpi
    | with_reducible apply within_State_bumpPair

theorem within_workDecoder (r : Nat) (g : WStage) (it : Item) {s : State} (hs : Within m s₀ s) (hm : Sub 0x3FC00000000000000000000000000000 m) : Within m s₀ (workDecoder r g it s).2 := by
  unfold workDecoder
  repeat' first
    | with_reducible assumption
    | exact Sub.up hm (by decide)
    | exact Sub.bit hm (by decide)
    | (intro x; (first | (refine within_cut (m := m) (s₀ := s₀) x ?_ ?_; unfold x; rotate_left; clear_value x; intro hx) | skip))
    | lift_lets -underBinder
    | with_reducible apply within_ite
    | with_reducible apply within_State_countDec
    | (refine within_of_snd (by assumption) ?_)
    | (refine within_of_fst (by assumption) ?_)
    | (dsimp -zeta only)
    | (split)

theorem within_State_noteSaturation (jet : Nat) (sat : Bool) {s : State} (hs : Within m s₀ s) (hm : Sub 0x800000000000000000000000000000000000000000000000000000000000000000000000000000000000000000000000000000000 m) : Within m s₀ (State.noteSaturation s jet sat) := by
  unfold State.noteSaturation
  repeat' first
    | with_reducible assumption
    | exact Sub.up hm (by decide)
    | exact Sub.bit hm (by decide)
    | (intro x; (first | (refine within_cut (m := m) (s₀ := s₀) x ?_ ?_; unfold x; rotate_left; clear_value x; intro hx) | skip))
    | lift_lets -underBinder
    | with_reducible apply within_ite
    | (apply within_mk <;> first | exact Or.inl (by with_reducible rfl) | exact Or.inr (Sub.bit hm (by decide)) | with_reducible rfl | rfl | exact Or.inl rfl | (simp; done) | skip)
    | (refine within_of_snd (by assumption) ?_)
    | (refine within_of_fst (by assumption) ?_)
    | (split)
    | (dsimp -zeta only)

theorem within_workJet (r : Nat) (g : WStage) (it : Item) {s : State} (hs : Within m s₀ s) (hm : Sub 0x80000000000000000000000000000000000000000000000000000000000000000003F868000000000000000000000000000000000 m)  : Within m s₀ (workJet r g it s).2 := by
  unfold workJet
  repeat' first
    | with_reducible assumption
    | exact Sub.up hm (by decide)
    | exact Sub.bit hm (by decide)
    | (intro x; (first | (refine within_cut (m := m) (s₀ := s₀) x ?_ ?_; unfold x; rotate_left; clear_value x; intro hx) | skip))
    | lift_lets -underBinder
    | with_reducible apply within_ite
    | with_reducible apply within_State_puti
    | with_reducible apply within_State_evi
    | with_reducible apply within_State_bumpi
    | with_reducible apply within_State_bumpPair
    | with_reducible apply within_State_noteSaturation
    | (refine within_of_snd (by assumption) ?_)
    | (refine within_of_fst (by assumption) ?_)
    | (dsimp -zeta only)
    | (split)

theorem within_workReed (g : WStage) (it : Item) (stall : Nat) {s : State} (hs : Within m s₀ s) (hm : Sub 0x8000000000000000000000000000000000000000000000000000000000000000071F00000000000000000000000000000000000000 m)  : Within m s₀ (workReed g it stall s).2 := by
  unfold workReed
  repeat' first
    | with_reducible assumption
    | exact Sub.up hm (by decide)
    | exact Sub.bit hm (by decide)
    | (dsimp only; exact Sub.bit hm (by decide))
    | (intro x; (first | (refine within_cut (m := m) (s₀ := s₀) x ?_ ?_; unfold x; rotate_left; clear_value x; intro hx) | skip))
    | lift_lets -underBinder
    | with_reducible apply within_ite
    | with_reducible apply within_State_puti
    | with_reducible apply within_State_evi
    | with_reducible apply within_State_bumpi
    | with_reducible apply within_State_bumpPair
    | (refine within_of_snd (by assumption) ?_)
    | (refine within_of_fst (by assumption) ?_)
    | (dsimp -zeta only)
    | (split)
    | (apply within_mk <;> first | exact Or.inl (by with_reducible rfl) | exact Or.inr (Sub.bit hm (by decide)) | with_reducible rfl | rfl | exact Or.inl rfl | (simp; done) | skip)

theorem within_workPacker (r : Nat) (g : WStage) (it : Item) {s : State} (hs : Within m s₀ s) (hm : Sub 0x3FC00000000000000000000000000000 m)  : Within m s₀ (workPacker r g it s).2 := by
  unfold workPacker
  repeat' first
    | with_reducible assumption
    | exact Sub.up hm (by decide)
    | exact Sub.bit hm (by decide)
    | (intro x; (first | (refine within_cut (m := m) (s₀ := s₀) x ?_ ?_; unfold x; rotate_left; clear_value x; intro hx) | skip))
    | lift_lets -underBinder
    | with_reducible apply within_ite
    | with_reducible apply within_State_countDec
    | (refine within_of_snd (by assumption) ?_)
    | (refine within_of_fst (by assumption) ?_)
    | (dsimp -zeta only)
    | (split)

theorem within_State_work (r : Nat) (g : WStage) (it : Item) (spent : Nat) (stall : Nat) {s : State} (hs : Within m s₀ s) (hm : Sub 0x8800400000000000000000000000000000000000000000000000000000000000071F3F86803FC00000000000000000000000000000 m) : Within m s₀ (State.work s r g it spent stall).2 := by
  unfold State.work
  repeat' first
    | with_reducible assumption
    | exact Sub.up hm (by decide)
    | exact Sub.bit hm (by decide)
    | (intro x; (first | (refine within_cut (m := m) (s₀ := s₀) x ?_ ?_; unfold x; rotate_left; clear_value x; intro hx) | skip))
    | lift_lets -underBinder
    | with_reducible apply within_workDecoder
    | with_reducible apply within_workJet
    | with_reducible apply within_workReed
    | with_reducible apply within_workPacker
    | with_reducible apply within_ite
    | (refine within_of_snd (by assumption) ?_)
    | (refine within_of_fst (by assumption) ?_)
    | (dsimp -zeta only)
    | (split)

end Sys2Proof.Machine
end

