-- ==== Sys2Proof/Laws/WithinSequencer.lean ====
section
/-! SUPPORT. What the operations of Machine/Sequencer.lean can change, and that they keep a state sound. -/
namespace Sys2Proof.Machine

variable {m : Nat} {s₀ : State}

theorem within_State_onOp {s : State} (r : Nat) (op : Nat) (f : SchedEntry → State) (hs : Within m s₀ s) (hf : ∀ e, Within m s₀ (f e))  : Within m s₀ (State.onOp s r op f) := by
  unfold State.onOp
  repeat' first
    | with_reducible assumption
    | exact Sub.up hm (by decide)
    | exact Sub.bit hm (by decide)
    | intro _
    | with_reducible apply within_ite
    | with_reducible apply hf
    | (refine within_of_snd (by assumption) ?_)
    | (refine within_of_fst (by assumption) ?_)
    | (split)

theorem within_State_passEntry {s : State} (r : Nat) (cycle : Nat) (hs : Within m s₀ s) (hm : Sub 0x4000000000000000000000000000000000000000000000000000000000000000000000000000000000000000000000000000000 m)  : Within m s₀ (State.passEntry s r cycle) := by
  unfold State.passEntry
  repeat' first
    | with_reducible assumption
    | exact Sub.up hm (by decide)
    | exact Sub.bit hm (by decide)
    | (intro x; (first | (refine within_cut (m := m) (s₀ := s₀) x ?_ ?_; unfold x; rotate_left; clear_value x; intro hx) | skip))
    | lift_lets -underBinder
    | with_reducible apply within_State_modRill

theorem within_State_modStage {s : State} (r : Nat) (k : Nat) (f : StageSt → StageSt) (hs : Within m s₀ s) (hm : Sub 0x4000000000000000000000000000000000000000000000000000000000000000000000000000000000000000000000000000000 m)  : Within m s₀ (State.modStage s r k f) := by
  unfold State.modStage
  repeat' first
    | with_reducible assumption
    | exact Sub.up hm (by decide)
    | exact Sub.bit hm (by decide)
    | (intro x; (first | (refine within_cut (m := m) (s₀ := s₀) x ?_ ?_; unfold x; rotate_left; clear_value x; intro hx) | skip))
    | lift_lets -underBinder
    | with_reducible apply within_ite
    | with_reducible apply within_State_modRill

theorem within_delayEffect (r : Nat) {s : State} (hs : Within m s₀ s) (hm : Sub 0x4000000000000000000000000000000000000000000000000000000000000000000000000000000000000000000000000000000 m)  : Within m s₀ (delayEffect r s) := by
  unfold delayEffect
  repeat' first
    | with_reducible assumption
    | exact Sub.up hm (by decide)
    | exact Sub.bit hm (by decide)
    | (intro x; (first | (refine within_cut (m := m) (s₀ := s₀) x ?_ ?_; unfold x; rotate_left; clear_value x; intro hx) | skip))
    | lift_lets -underBinder
    | with_reducible apply within_State_onOp
    | with_reducible apply within_State_passEntry

theorem within_beginStage (r : Nat) (fixed : Bool) (e : SchedEntry) {s : State} (hs : Within m s₀ s) (hm : Sub 0x24000000000000000000000000000000000000000000000000000000000000000000000000000000000000000000000000000000 m)  : Within m s₀ (beginStage r fixed e s) := by
  unfold beginStage
  repeat' first
    | with_reducible assumption
    | exact Sub.up hm (by decide)
    | exact Sub.bit hm (by decide)
    | (intro x; (first | (refine within_cut (m := m) (s₀ := s₀) x ?_ ?_; unfold x; rotate_left; clear_value x; intro hx) | skip))
    | lift_lets -underBinder
    | with_reducible apply within_ite
    | with_reducible apply within_State_modRill
    | with_reducible apply within_State_passEntry
    | with_reducible apply within_State_modStage
    | with_reducible apply within_State_mark
    | (refine within_of_snd (by assumption) ?_)
    | (refine within_of_fst (by assumption) ?_)
    | (split)

theorem within_startEffect (r : Nat) {s : State} (hs : Within m s₀ s) (hm : Sub 0x24000000000000000000000000000000000000000000000000000000000000000000000000000000000000000000000000000000 m)  : Within m s₀ (startEffect r s) := by
  unfold startEffect
  repeat' first
    | with_reducible assumption
    | exact Sub.up hm (by decide)
    | exact Sub.bit hm (by decide)
    | (intro x; (first | (refine within_cut (m := m) (s₀ := s₀) x ?_ ?_; unfold x; rotate_left; clear_value x; intro hx) | skip))
    | lift_lets -underBinder
    | with_reducible apply within_State_onOp
    | with_reducible apply within_beginStage

theorem within_runFixedEffect (r : Nat) {s : State} (hs : Within m s₀ s) (hm : Sub 0x24000000000000000000000000000000000000000000000000000000000000000000000000000000000000000000000000000000 m)  : Within m s₀ (runFixedEffect r s) := by
  unfold runFixedEffect
  repeat' first
    | with_reducible assumption
    | exact Sub.up hm (by decide)
    | exact Sub.bit hm (by decide)
    | (intro x; (first | (refine within_cut (m := m) (s₀ := s₀) x ?_ ?_; unfold x; rotate_left; clear_value x; intro hx) | skip))
    | lift_lets -underBinder
    | with_reducible apply within_State_onOp
    | with_reducible apply within_beginStage

theorem within_waitEffect (r : Nat) {s : State} (hs : Within m s₀ s) (hm : Sub 0x4000000000000000000000000000000000000000000000000000000000000000000000000000000000000000000000000000000 m)  : Within m s₀ (waitEffect r s) := by
  unfold waitEffect
  repeat' first
    | with_reducible assumption
    | exact Sub.up hm (by decide)
    | exact Sub.bit hm (by decide)
    | (intro x; (first | (refine within_cut (m := m) (s₀ := s₀) x ?_ ?_; unfold x; rotate_left; clear_value x; intro hx) | skip))
    | lift_lets -underBinder
    | with_reducible apply within_ite
    | with_reducible apply within_State_onOp
    | with_reducible apply within_State_passEntry
    | (refine within_of_snd (by assumption) ?_)
    | (refine within_of_fst (by assumption) ?_)
    | (split)

theorem within_bindEffect (r : Nat) {s : State} (hs : Within m s₀ s) (hm : Sub 0x4000000000000000000000000000000000000000000000000000000000000000000000000000000000000000000000000000000 m)  : Within m s₀ (bindEffect r s) := by
  unfold bindEffect
  repeat' first
    | with_reducible assumption
    | exact Sub.up hm (by decide)
    | exact Sub.bit hm (by decide)
    | (intro x; (first | (refine within_cut (m := m) (s₀ := s₀) x ?_ ?_; unfold x; rotate_left; clear_value x; intro hx) | skip))
    | lift_lets -underBinder
    | with_reducible apply within_State_modRill
    | with_reducible apply within_State_onOp
    | with_reducible apply within_State_passEntry

theorem within_loopEffect (r : Nat) {s : State} (hs : Within m s₀ s) (hm : Sub 0x4000000000000000000000000000000000000000000000000000000000000000000000000000000000000000003010000000000 m)  : Within m s₀ (loopEffect r s) := by
  unfold loopEffect
  repeat' first
    | with_reducible assumption
    | exact Sub.up hm (by decide)
    | exact Sub.bit hm (by decide)
    | (intro x; (first | (refine within_cut (m := m) (s₀ := s₀) x ?_ ?_; unfold x; rotate_left; clear_value x; intro hx) | skip))
    | lift_lets -underBinder
    | with_reducible apply within_ite
    | with_reducible apply within_State_endRound
    | with_reducible apply within_State_setRill
    | with_reducible apply within_State_modRill
    | with_reducible apply within_State_onOp
    | with_reducible apply within_State_passEntry

theorem within_batchEndEffect (r : Nat) {s : State} (hs : Within m s₀ s) (hm : Sub 0x125E600000000000000000007FE0606090000000000000000000000000000001000000001FC000004008000000000631900802007E m)  : Within m s₀ (batchEndEffect r s) := by
  unfold batchEndEffect
  repeat' first
    | with_reducible assumption
    | exact Sub.up hm (by decide)
    | exact Sub.bit hm (by decide)
    | (intro x; (first | (refine within_cut (m := m) (s₀ := s₀) x ?_ ?_; unfold x; rotate_left; clear_value x; intro hx) | skip))
    | lift_lets -underBinder
    | with_reducible apply within_ite
    | with_reducible apply within_State_endRound
    | with_reducible apply within_State_handOver
    | with_reducible apply within_State_mirHeld
    | with_reducible apply within_State_setRill
    | with_reducible apply within_State_modRill
    | with_reducible apply within_State_onOp
    | (refine within_of_snd (by assumption) ?_)
    | (refine within_of_fst (by assumption) ?_)
    | (dsimp -zeta only)
    | (split)

theorem within_State_readOut {s : State} (l : List Buf) (hs : Within m s₀ s) (hm : Sub 0x200000000000000000000000000000000000000000000000000000000000001000000000000000040080000000000008000000000 m)  : Within m s₀ (State.readOut s l) := by
  unfold State.readOut
  repeat' first
    | with_reducible assumption
    | exact Sub.up hm (by decide)
    | exact Sub.bit hm (by decide)
    | (intro x; (first | (refine within_cut (m := m) (s₀ := s₀) x ?_ ?_; unfold x; rotate_left; clear_value x; intro hx) | skip))
    | lift_lets -underBinder
    | with_reducible apply within_ite
    | with_reducible apply within_showBasin
    | (apply within_mk <;> first | exact Or.inl (by with_reducible rfl) | exact Or.inr (Sub.bit hm (by decide)) | with_reducible rfl | rfl | exact Or.inl rfl | (simp; done) | skip)

theorem within_stageDoneEffect (r : Nat) (k : Nat) (spent : Nat) {s : State} (hs : Within m s₀ s) (hm : Sub 0x9A24400000000000000000000000000000000400000000000000000000000001071F3F86803FC00040080000000001008000000000 m) : Within m s₀ (stageDoneEffect r k spent s) := by
  unfold stageDoneEffect
  repeat' first
    | with_reducible assumption
    | exact Sub.up hm (by decide)
    | exact Sub.bit hm (by decide)
    | (intro x; (first | (refine within_cut (m := m) (s₀ := s₀) x ?_ ?_; unfold x; rotate_left; clear_value x; intro hx) | skip))
    | lift_lets -underBinder
    | with_reducible apply within_ite
    | with_reducible apply within_State_tapWatch
    | with_reducible apply within_State_ev
    | with_reducible apply within_State_modRill
    | with_reducible apply within_State_modStage
    | with_reducible apply within_State_readOut
    | with_reducible apply within_State_work
    | with_reducible apply within_State_mark
    | with_reducible apply within_State_rejectAt
    | (refine within_of_snd (by assumption) ?_)
    | (refine within_of_fst (by assumption) ?_)
    | (dsimp -zeta only)
    | (split)

end Sys2Proof.Machine
end

