-- ==== Sys2Proof/Laws/ExecSequencer.lean ====
section
/-! SUPPORT. Each command of Machine/Sequencer.lean changes nothing outside its footprint, and keeps a sound state sound. -/
namespace Sys2Proof.Machine

variable {s t : State}

theorem within_exec_delay {a0} (hs : Sound s) (h : exec (.delay a0) s = .next t) :
    Within (Region.mask (footprint (.delay a0))) s t := by
  have hm : Sub 0x4A00000000000000000000000000000000000000000000000000000000000000000000000000000000000000000000000000000 (Region.mask (footprint (.delay a0))) := (by decide : Sub _ (Region.mask (.out :: .host :: ([.rills]))))
  replace hs := Within.start (m := Region.mask (footprint (.delay a0))) hs
  replace h : execDelay a0 s = .next t := h
  unfold execDelay at h
  repeat' (first | (cases h; done) | split at h)
  all_goals try cases h
  all_goals repeat' first
    | with_reducible assumption
    | exact Sub.up hm (by decide)
    | exact Sub.bit hm (by decide)
    | with_reducible apply within_finish
    | with_reducible apply within_delayEffect

theorem within_exec_start {a0} (hs : Sound s) (h : exec (.start a0) s = .next t) :
    Within (Region.mask (footprint (.start a0))) s t := by
  have hm : Sub 0x24A00000000000000000000000000000000000000000000000000000000000000000000000000000000000000000000000000000 (Region.mask (footprint (.start a0))) := (by decide : Sub _ (Region.mask (.out :: .host :: ([.rills, .weir]))))
  replace hs := Within.start (m := Region.mask (footprint (.start a0))) hs
  replace h : execStart a0 s = .next t := h
  unfold execStart at h
  repeat' (first | (cases h; done) | split at h)
  all_goals try cases h
  all_goals repeat' first
    | with_reducible assumption
    | exact Sub.up hm (by decide)
    | exact Sub.bit hm (by decide)
    | with_reducible apply within_finish
    | with_reducible apply within_startEffect

theorem within_exec_runFixed {a0} (hs : Sound s) (h : exec (.runFixed a0) s = .next t) :
    Within (Region.mask (footprint (.runFixed a0))) s t := by
  have hm : Sub 0x24A00000000000000000000000000000000000000000000000000000000000000000000000000000000000000000000000000000 (Region.mask (footprint (.runFixed a0))) := (by decide : Sub _ (Region.mask (.out :: .host :: ([.rills, .weir]))))
  replace hs := Within.start (m := Region.mask (footprint (.runFixed a0))) hs
  replace h : execRunFixed a0 s = .next t := h
  unfold execRunFixed at h
  repeat' (first | (cases h; done) | split at h)
  all_goals try cases h
  all_goals repeat' first
    | with_reducible assumption
    | exact Sub.up hm (by decide)
    | exact Sub.bit hm (by decide)
    | with_reducible apply within_finish
    | with_reducible apply within_runFixedEffect

theorem within_exec_wait {a0} (hs : Sound s) (h : exec (.wait a0) s = .next t) :
    Within (Region.mask (footprint (.wait a0))) s t := by
  have hm : Sub 0x4A00000000000000000000000000000000000000000000000000000000000000000000000000000000000000000000000000000 (Region.mask (footprint (.wait a0))) := (by decide : Sub _ (Region.mask (.out :: .host :: ([.rills]))))
  replace hs := Within.start (m := Region.mask (footprint (.wait a0))) hs
  replace h : execWait a0 s = .next t := h
  unfold execWait at h
  repeat' (first | (cases h; done) | split at h)
  all_goals try cases h
  all_goals repeat' first
    | with_reducible assumption
    | exact Sub.up hm (by decide)
    | exact Sub.bit hm (by decide)
    | with_reducible apply within_finish
    | with_reducible apply within_waitEffect

theorem within_exec_bind {a0} (hs : Sound s) (h : exec (.bind a0) s = .next t) :
    Within (Region.mask (footprint (.bind a0))) s t := by
  have hm : Sub 0x4A00000000000000000000000000000000000000000000000000000000000000000000000000000000000000000000000000000 (Region.mask (footprint (.bind a0))) := (by decide : Sub _ (Region.mask (.out :: .host :: ([.rills]))))
  replace hs := Within.start (m := Region.mask (footprint (.bind a0))) hs
  replace h : execBind a0 s = .next t := h
  unfold execBind at h
  repeat' (first | (cases h; done) | split at h)
  all_goals try cases h
  all_goals repeat' first
    | with_reducible assumption
    | exact Sub.up hm (by decide)
    | exact Sub.bit hm (by decide)
    | with_reducible apply within_finish
    | with_reducible apply within_bindEffect

theorem within_exec_loop {a0} (hs : Sound s) (h : exec (.loop a0) s = .next t) :
    Within (Region.mask (footprint (.loop a0))) s t := by
  have hm : Sub 0x4A00000000000000000000000000000000000000000000000000000000000000000000000000000000000000003010000000000 (Region.mask (footprint (.loop a0))) := (by decide : Sub _ (Region.mask (.out :: .host :: ([.reg .SLU_EVENT, .reg .SLU_BF_DRAWS, .reg .SLU_FILLED, .rills]))))
  replace hs := Within.start (m := Region.mask (footprint (.loop a0))) hs
  replace h : execLoop a0 s = .next t := h
  unfold execLoop at h
  repeat' (first | (cases h; done) | split at h)
  all_goals try cases h
  all_goals repeat' first
    | with_reducible assumption
    | exact Sub.up hm (by decide)
    | exact Sub.bit hm (by decide)
    | with_reducible apply within_finish
    | with_reducible apply within_loopEffect

theorem within_exec_batchEnd {a0} (hs : Sound s) (h : exec (.batchEnd a0) s = .next t) :
    Within (Region.mask (footprint (.batchEnd a0))) s t := by
  have hm : Sub 0x125EE00000000000000000007FE0606090000000000000000000000000000001000000001FC000004008000000000731900802007E (Region.mask (footprint (.batchEnd a0))) := (by decide : Sub _ (Region.mask (.out :: .host :: (divergeParts ++ planParts ++ poolParts ++ [.reg .SLU_BF_DRAWS, .reg .SLU_FILLED, .reg .DEC_PK_BATCHES, .reg .DEC_PK_FILLED, .reg .DEC_PK_OVERFLOW, .reg .DEC_PK_DIGEST_LO, .reg .DEC_PK_DIGEST_HI, .reg .DEC_PK_STEP_LO, .reg .DEC_PK_STEP_HI, .reg .DBG_W_DIGEST_LO, .reg .DBG_W_DIGEST_HI, .reg .DBG_W_MIN, .reg .DBG_W_MAX, .reg .DBG_W_MEAN, .reg .DBG_W_FINITE, .reg .DBG_W_NONFINITE, .reg .DBG_W_STEP_LO, .reg .DBG_W_STEP_HI, .reg .DBG_W_HIST, .mirror, .lock]))))
  replace hs := Within.start (m := Region.mask (footprint (.batchEnd a0))) hs
  replace h : execBatchEnd a0 s = .next t := h
  unfold execBatchEnd at h
  repeat' (first | (cases h; done) | split at h)
  all_goals try cases h
  all_goals repeat' first
    | with_reducible assumption
    | exact Sub.up hm (by decide)
    | exact Sub.bit hm (by decide)
    | with_reducible apply within_finish
    | with_reducible apply within_batchEndEffect

theorem within_exec_stageDone {a0 a1 a2 a3} (hs : Sound s) (h : exec (.stageDone a0 a1 a2 a3) s = .next t) :
    Within (Region.mask (footprint (.stageDone a0 a1 a2 a3))) s t := by
  have hm : Sub 0x9A24E00000000000000000000000000000000400000000000000000000000001071F3F86803FC00040080000000001008000000000 (Region.mask (footprint (.stageDone a0 a1 a2 a3))) := (by decide : Sub _ (Region.mask (.out :: .host :: (poolParts ++ [.reg .DEC_EVENT, .reg .DEC_SAMPLES, .reg .DEC_REJECTS, .reg .DEC_LAST_REJECT, .reg .DEC_LAST_G_LO, .reg .DEC_LAST_G_HI, .reg .DEC_CYCLES_LO, .reg .DEC_CYCLES_HI, .reg .JET_EVENT, .reg .JET_SAMPLES, .reg .JET_REJECTS, .reg .JET_MACS_LO, .reg .JET_MACS_HI, .reg .JET_CYCLES_LO, .reg .JET_CYCLES_HI, .reg .JET_SIEVE_KEEP, .reg .JET_SIEVE_DROP, .reg .JET_LAST_SCORE, .reg .REED_EVENT, .reg .REED_SAMPLES, .reg .REED_REJECTS, .reg .REED_TOKENS_LO, .reg .REED_TOKENS_HI, .reg .REED_ESCAPES, .reg .REED_STOPS, .reg .REED_LAST_REJECT, .reg .SVC_EVENT, .free, .rills, .weir, .basin, .dbg] ++ [.svc] ++ [.reg .SLU_BF_DRAWS] ++ [.caches]))))
  replace hs := Within.start (m := Region.mask (footprint (.stageDone a0 a1 a2 a3))) hs
  replace h : execStageDone a0 a1 a2 a3 s = .next t := h
  unfold execStageDone at h
  repeat' (first | (cases h; done) | split at h)
  all_goals try cases h
  all_goals repeat' first
    | with_reducible assumption
    | exact Sub.up hm (by decide)
    | exact Sub.bit hm (by decide)
    | with_reducible apply within_finish
    | with_reducible apply within_stageDoneEffect

end Sys2Proof.Machine
end

