-- ==== Sys2Proof/Laws/ExecService.lean ====
section
/-! SUPPORT. Each command of Machine/Service.lean changes nothing outside its footprint, and keeps a sound state sound. -/
namespace Sys2Proof.Machine

variable {s t : State}

theorem within_exec_coreHang {a0} (hs : Sound s) (h : exec (.coreHang a0) s = .next t) :
    Within (Region.mask (footprint (.coreHang a0))) s t := by
  have hm : Sub 0x800A000000000000000000000000100000066000000000000000000000000000000000000000000600C0000000000000000000000 (Region.mask (footprint (.coreHang a0))) := (by decide : Sub _ (Region.mask (.out :: .host :: (coreParts ++ [.reg .HIF_LOCKS, .reg .SVC_EVENT, .reg .SVC_HANGS]))))
  replace hs := Within.start (m := Region.mask (footprint (.coreHang a0))) hs
  replace h : execCoreHang a0 s = .next t := h
  unfold execCoreHang at h
  repeat' (first | (cases h; done) | split at h)
  all_goals try cases h
  all_goals repeat' first
    | with_reducible assumption
    | exact Sub.up hm (by decide)
    | exact Sub.bit hm (by decide)
    | with_reducible apply within_finish
    | with_reducible apply within_State_showTasks
    | with_reducible apply within_coreHangEffect

theorem within_exec_coreTakeover {a0} (hs : Sound s) (h : exec (.coreTakeover a0) s = .next t) :
    Within (Region.mask (footprint (.coreTakeover a0))) s t := by
  have hm : Sub 0x800A000000000000000000000000100000026000000000000000000000000000000000000000000400C0000000000000000000000 (Region.mask (footprint (.coreTakeover a0))) := (by decide : Sub _ (Region.mask (.out :: .host :: (coreParts ++ [.reg .SVC_EVENT]))))
  replace hs := Within.start (m := Region.mask (footprint (.coreTakeover a0))) hs
  replace h : execCoreTakeover a0 s = .next t := h
  unfold execCoreTakeover at h
  repeat' (first | (cases h; done) | split at h)
  all_goals try cases h
  all_goals repeat' first
    | with_reducible assumption
    | exact Sub.up hm (by decide)
    | exact Sub.bit hm (by decide)
    | with_reducible apply within_finish
    | with_reducible apply within_takeoverEffect

theorem within_exec_coreRestartDone {a0} (hs : Sound s) (h : exec (.coreRestartDone a0) s = .next t) :
    Within (Region.mask (footprint (.coreRestartDone a0))) s t := by
  have hm : Sub 0x800A00000000000000000000000000000002200000000000000000000000000000000000000000000000000000000000000000000 (Region.mask (footprint (.coreRestartDone a0))) := (by decide : Sub _ (Region.mask (.out :: .host :: ([.reg .SVC_STATUS, .reg .SVC_CORE, .svc]))))
  replace hs := Within.start (m := Region.mask (footprint (.coreRestartDone a0))) hs
  replace h : execCoreRestartDone a0 s = .next t := h
  unfold execCoreRestartDone at h
  repeat' (first | (cases h; done) | split at h)
  all_goals try cases h
  all_goals repeat' first
    | with_reducible assumption
    | exact Sub.up hm (by decide)
    | exact Sub.bit hm (by decide)
    | with_reducible apply within_finish
    | with_reducible apply within_coreRestartEffect

theorem within_exec_keeperRestart {a0} (hs : Sound s) (h : exec (.keeperRestart a0) s = .next t) :
    Within (Region.mask (footprint (.keeperRestart a0))) s t := by
  have hm : Sub 0x801A00000000000000000000000010000002E000000000000000000000000000000000000000000400C0000000000000000000000 (Region.mask (footprint (.keeperRestart a0))) := (by decide : Sub _ (Region.mask (.out :: .host :: (coreParts ++ [.reg .SVC_EVENT, .reg .SVC_CTRL, .power]))))
  replace hs := Within.start (m := Region.mask (footprint (.keeperRestart a0))) hs
  replace h : execKeeperRestart a0 s = .next t := h
  unfold execKeeperRestart at h
  repeat' (first | (cases h; done) | split at h)
  all_goals try cases h
  all_goals repeat' first
    | with_reducible assumption
    | exact Sub.up hm (by decide)
    | exact Sub.bit hm (by decide)
    | with_reducible apply within_State_viaReg
    | with_reducible apply within_finish
    | with_reducible apply within_svcCtrl
    | intro _

theorem within_exec_wardenHang (hs : Sound s) (h : exec (.wardenHang) s = .next t) :
    Within (Region.mask (footprint .wardenHang)) s t := by
  have hm : Sub 0x800A00000000000000000200000000000000400000000000000000000000000000000000000000000000000000000000000000000 (Region.mask (footprint (.wardenHang))) := (by decide : Sub _ (Region.mask (.out :: .host :: ([.reg .SVC_EVENT, .reg .PWR_STATUS, .svc]))))
  replace hs := Within.start (m := Region.mask (footprint (.wardenHang))) hs
  replace h : execWardenHang s = .next t := h
  unfold execWardenHang at h
  repeat' (first | (cases h; done) | split at h)
  all_goals try cases h
  all_goals repeat' first
    | with_reducible assumption
    | exact Sub.up hm (by decide)
    | exact Sub.bit hm (by decide)
    | with_reducible apply within_finish
    | with_reducible apply within_wardenHangEffect

theorem within_exec_wardenRestartDone (hs : Sound s) (h : exec (.wardenRestartDone) s = .next t) :
    Within (Region.mask (footprint .wardenRestartDone)) s t := by
  have hm : Sub 0x800A0000000000000000020000001000000E6000000000000000000000000000000000000000000400C0000000000000000000000 (Region.mask (footprint (.wardenRestartDone))) := (by decide : Sub _ (Region.mask (.out :: .host :: (coreParts ++ [.reg .SVC_EVENT, .reg .SVC_HANGS, .reg .PWR_STATUS] ++ [.reg .SVC_FW_STATUS]))))
  replace hs := Within.start (m := Region.mask (footprint (.wardenRestartDone))) hs
  replace h : execWardenRestartDone s = .next t := h
  unfold execWardenRestartDone at h
  repeat' (first | (cases h; done) | split at h)
  all_goals try cases h
  all_goals repeat' first
    | with_reducible assumption
    | exact Sub.up hm (by decide)
    | exact Sub.bit hm (by decide)
    | with_reducible apply within_finish
    | with_reducible apply within_wardenDoneEffect

theorem within_exec_barrierReport {a0} (hs : Sound s) (h : exec (.barrierReport a0) s = .next t) :
    Within (Region.mask (footprint (.barrierReport a0))) s t := by
  have hm : Sub 0x801A00000000000000000000000000000400400000000000000000000000000000000000000000000000000000000000000000000 (Region.mask (footprint (.barrierReport a0))) := (by decide : Sub _ (Region.mask (.out :: .host :: ([.reg .SVC_EVENT, .reg .SVC_BARRIER_HI, .power, .svc]))))
  replace hs := Within.start (m := Region.mask (footprint (.barrierReport a0))) hs
  replace h : execBarrierReport a0 s = .next t := h
  unfold execBarrierReport at h
  repeat' (first | (cases h; done) | split at h)
  all_goals try cases h
  all_goals repeat' first
    | with_reducible assumption
    | exact Sub.up hm (by decide)
    | exact Sub.bit hm (by decide)
    | with_reducible apply within_State_viaReg
    | with_reducible apply within_finish
    | with_reducible apply within_barrierCtrl
    | intro _

theorem within_exec_engineSelfTest {a0} (hs : Sound s) (h : exec (.engineSelfTest a0) s = .next t) :
    Within (Region.mask (footprint (.engineSelfTest a0))) s t := by
  have hm : Sub 0x801A00000000000000000000000000008000000000000000000000000000000000080004000200000000000000000000000000000 (Region.mask (footprint (.engineSelfTest a0))) := (by decide : Sub _ (Region.mask (.out :: .host :: (engineParts ++ [.reg .SVC_ENG_CMD, .power, .svc]))))
  replace hs := Within.start (m := Region.mask (footprint (.engineSelfTest a0))) hs
  replace h : execEngineSelfTest a0 s = .next t := h
  unfold execEngineSelfTest at h
  repeat' (first | (cases h; done) | split at h)
  all_goals try cases h
  all_goals repeat' first
    | with_reducible assumption
    | exact Sub.up hm (by decide)
    | exact Sub.bit hm (by decide)
    | with_reducible apply within_State_viaReg
    | with_reducible apply within_finish
    | with_reducible apply within_engCmd
    | intro _

theorem within_exec_coreHalt {a0} (hs : Sound s) (h : exec (.coreHalt a0) s = .next t) :
    Within (Region.mask (footprint (.coreHalt a0))) s t := by
  have hm : Sub 0x120FA0000000000000000000000001C0000000000000000000000000000000000000000000000000400C0000000004319008020000 (Region.mask (footprint (.coreHalt a0))) := (by decide : Sub _ (Region.mask (.out :: .host :: (planParts ++ [.reg .HIF_STATUS, .reg .HIF_EVENT, .reg .TASK_STATUS, .reg .DBG_EVENT, .reg .DBG_BRK_CTRL, .reg .DBG_BRK_STATUS, .power]))))
  replace hs := Within.start (m := Region.mask (footprint (.coreHalt a0))) hs
  replace h : execCoreHalt a0 s = .next t := h
  unfold execCoreHalt at h
  repeat' (first | (cases h; done) | split at h)
  all_goals try cases h
  all_goals repeat' first
    | with_reducible assumption
    | exact Sub.up hm (by decide)
    | exact Sub.bit hm (by decide)
    | with_reducible apply within_State_viaReg
    | with_reducible apply within_finish
    | with_reducible apply within_brkCtrl
    | intro _

theorem within_exec_coreResume {a0} (hs : Sound s) (h : exec (.coreResume a0) s = .next t) :
    Within (Region.mask (footprint (.coreResume a0))) s t := by
  have hm : Sub 0x120FA0000000000000000000000001C0000000000000000000000000000000000000000000000000400C0000000004319008020000 (Region.mask (footprint (.coreResume a0))) := (by decide : Sub _ (Region.mask (.out :: .host :: (planParts ++ [.reg .HIF_STATUS, .reg .HIF_EVENT, .reg .TASK_STATUS, .reg .DBG_EVENT, .reg .DBG_BRK_CTRL, .reg .DBG_BRK_STATUS, .power]))))
  replace hs := Within.start (m := Region.mask (footprint (.coreResume a0))) hs
  replace h : execCoreResume a0 s = .next t := h
  unfold execCoreResume at h
  repeat' (first | (cases h; done) | split at h)
  all_goals try cases h
  all_goals repeat' first
    | with_reducible assumption
    | exact Sub.up hm (by decide)
    | exact Sub.bit hm (by decide)
    | with_reducible apply within_State_viaReg
    | with_reducible apply within_finish
    | with_reducible apply within_brkCtrl
    | intro _

theorem within_exec_breakpointHit {a0} (hs : Sound s) (h : exec (.breakpointHit a0) s = .next t) :
    Within (Region.mask (footprint (.breakpointHit a0))) s t := by
  have hm : Sub 0xA000000000000000000000000100000000000000000000000000000000000000000000000000400C0000000000000000000000 (Region.mask (footprint (.breakpointHit a0))) := (by decide : Sub _ (Region.mask (.out :: .host :: ([.reg .HIF_STATUS, .reg .HIF_EVENT, .reg .TASK_STATUS, .reg .DBG_BRK_STATUS]))))
  replace hs := Within.start (m := Region.mask (footprint (.breakpointHit a0))) hs
  replace h : execBreakpointHit a0 s = .next t := h
  unfold execBreakpointHit at h
  repeat' (first | (cases h; done) | split at h)
  all_goals try cases h
  all_goals repeat' first
    | with_reducible assumption
    | exact Sub.up hm (by decide)
    | exact Sub.bit hm (by decide)
    | with_reducible apply within_finish
    | with_reducible apply within_breakpointEffect

end Sys2Proof.Machine
end

