-- ==== Sys2Proof/Laws/ExecSluice.lean ====
section
/-! SUPPORT. Each command of Machine/Sluice.lean changes nothing outside its footprint, and keeps a sound state sound. -/
namespace Sys2Proof.Machine

variable {s t : State}

theorem within_exec_sampleRelease {a0} (hs : Sound s) (h : exec (.sampleRelease a0) s = .next t) :
    Within (Region.mask (footprint (.sampleRelease a0))) s t := by
  have hm : Sub 0x120EE00000000000000000000000604000000000000000000000000000000000000000000000000000000000000004319008020000 (Region.mask (footprint (.sampleRelease a0))) := (by decide : Sub _ (Region.mask (.out :: .host :: (planParts ++ traceParts))))
  replace hs := Within.start (m := Region.mask (footprint (.sampleRelease a0))) hs
  replace h : execSampleRelease a0 s = .next t := h
  unfold execSampleRelease at h
  repeat' (first | (cases h; done) | split at h)
  all_goals try cases h
  all_goals repeat' first
    | with_reducible assumption
    | exact Sub.up hm (by decide)
    | exact Sub.bit hm (by decide)
    | with_reducible apply within_finish
    | with_reducible apply within_releaseEffect

theorem within_exec_planArm {a0 a1} (hs : Sound s) (h : exec (.planArm a0 a1) s = .next t) :
    Within (Region.mask (footprint (.planArm a0 a1))) s t := by
  have hm : Sub 0x121EA00000000000000000000000000000000000000000000000000000000001000000000000000043880000000004399008020006 (Region.mask (footprint (.planArm a0 a1))) := (by decide : Sub _ (Region.mask (.out :: .host :: (planParts ++ poolParts ++ [.reg .MIR_STATUS, .reg .MIR_FILL, .reg .SLU_ARM_ERR, .mirror] ++ [.reg .CSC_EVENT, .reg .CSC_ACT_STATUS, .reg .CSC_ACT_COUNT, .reg .HIF_DMA_ERR_ADDR_LO, .reg .HIF_DMA_ERR_ADDR_HI, .reg .HIF_DMA_ERR_INFO, .cascade]))))
  replace hs := Within.start (m := Region.mask (footprint (.planArm a0 a1))) hs
  replace h : execPlanArm a0 a1 s = .next t := h
  unfold execPlanArm at h
  repeat' (first | (cases h; done) | split at h)
  all_goals try cases h
  all_goals repeat' first
    | with_reducible assumption
    | exact Sub.up hm (by decide)
    | exact Sub.bit hm (by decide)
    | with_reducible apply within_finish
    | with_reducible apply within_armEffect

theorem within_exec_planTakeEffect {a0} (hs : Sound s) (h : exec (.planTakeEffect a0) s = .next t) :
    Within (Region.mask (footprint (.planTakeEffect a0))) s t := by
  have hm : Sub 0x121EA00000000000000000000000000000000000000000000000000000000000000000000000000000000000000004319008020006 (Region.mask (footprint (.planTakeEffect a0))) := (by decide : Sub _ (Region.mask (.out :: .host :: (planParts ++ [.reg .MIR_STATUS, .reg .MIR_FILL, .mirror]))))
  replace hs := Within.start (m := Region.mask (footprint (.planTakeEffect a0))) hs
  replace h : execPlanTakeEffect a0 s = .next t := h
  unfold execPlanTakeEffect at h
  repeat' (first | (cases h; done) | split at h)
  all_goals try cases h
  all_goals repeat' first
    | with_reducible assumption
    | exact Sub.up hm (by decide)
    | exact Sub.bit hm (by decide)
    | with_reducible apply within_finish
    | with_reducible apply within_takeEffect

theorem within_exec_fetchIssue (hs : Sound s) (h : exec (.fetchIssue) s = .next t) :
    Within (Region.mask (footprint .fetchIssue)) s t := by
  have hm : Sub 0x160EE00000000000000000000000604000000000000000000000000000000000000000000000000000000000000004319008020000 (Region.mask (footprint (.fetchIssue))) := (by decide : Sub _ (Region.mask (.out :: .host :: (planParts ++ traceParts ++ [.aqf]))))
  replace hs := Within.start (m := Region.mask (footprint (.fetchIssue))) hs
  replace h : execFetchIssue s = .next t := h
  unfold execFetchIssue at h
  repeat' (first | (cases h; done) | split at h)
  all_goals try cases h
  all_goals repeat' first
    | with_reducible assumption
    | exact Sub.up hm (by decide)
    | exact Sub.bit hm (by decide)
    | with_reducible apply within_finish
    | with_reducible apply within_fetchIssueEffect

theorem within_exec_sampleFetchDone {a0} (hs : Sound s) (h : exec (.sampleFetchDone a0) s = .next t) :
    Within (Region.mask (footprint (.sampleFetchDone a0))) s t := by
  have hm : Sub 0x3608E00000000000000000000000604000000000000000000000000E00600005000000000000000040080000000000008000000000 (Region.mask (footprint (.sampleFetchDone a0))) := (by decide : Sub _ (Region.mask (.out :: .host :: (traceParts ++ poolParts ++ [.reg .PBL_EVENT, .reg .PBL_BLOCKS, .reg .PBL_LOSS, .reg .PBL_FAILS, .sluice, .basin] ++ [.reg .BSN_NONE, .reg .PBL_STATUS, .aqf, .pebble]))))
  replace hs := Within.start (m := Region.mask (footprint (.sampleFetchDone a0))) hs
  replace h : execSampleFetchDone a0 s = .next t := h
  unfold execSampleFetchDone at h
  repeat' (first | (cases h; done) | split at h)
  all_goals try cases h
  all_goals repeat' first
    | with_reducible assumption
    | exact Sub.up hm (by decide)
    | exact Sub.bit hm (by decide)
    | with_reducible apply within_finish
    | with_reducible apply within_fetchDoneEffect

theorem within_exec_sluPause {a0} (hs : Sound s) (h : exec (.sluPause a0) s = .next t) :
    Within (Region.mask (footprint (.sluPause a0))) s t := by
  have hm : Sub 0x1A00000000000000000000000000000000000000000000000000000000000000000000000000000000000000004020000000000 (Region.mask (footprint (.sluPause a0))) := (by decide : Sub _ (Region.mask (.out :: .host :: ([.reg .SLU_CTRL, .reg .SLU_WALK_MAX, .power]))))
  replace hs := Within.start (m := Region.mask (footprint (.sluPause a0))) hs
  replace h : execSluPause a0 s = .next t := h
  unfold execSluPause at h
  repeat' (first | (cases h; done) | split at h)
  all_goals try cases h
  all_goals repeat' first
    | with_reducible assumption
    | exact Sub.up hm (by decide)
    | exact Sub.bit hm (by decide)
    | with_reducible apply within_State_viaReg
    | with_reducible apply within_finish
    | with_reducible apply within_sluCtrl
    | intro _

theorem within_exec_walkClr (hs : Sound s) (h : exec (.walkClr) s = .next t) :
    Within (Region.mask (footprint .walkClr)) s t := by
  have hm : Sub 0x1A00000000000000000000000000000000000000000000000000000000000000000000000000000000000000004020000000000 (Region.mask (footprint (.walkClr))) := (by decide : Sub _ (Region.mask (.out :: .host :: ([.reg .SLU_CTRL, .reg .SLU_WALK_MAX, .power]))))
  replace hs := Within.start (m := Region.mask (footprint (.walkClr))) hs
  replace h : execWalkClr s = .next t := h
  unfold execWalkClr at h
  repeat' (first | (cases h; done) | split at h)
  all_goals try cases h
  all_goals repeat' first
    | with_reducible assumption
    | exact Sub.up hm (by decide)
    | exact Sub.bit hm (by decide)
    | with_reducible apply within_State_viaReg
    | with_reducible apply within_finish
    | with_reducible apply within_sluCtrl
    | intro _

theorem within_exec_probeStart {a0} (hs : Sound s) (h : exec (.probeStart a0) s = .next t) :
    Within (Region.mask (footprint (.probeStart a0))) s t := by
  have hm : Sub 0x9A00000000000000000000000000000000000000000000000000000000000000000000000000000000000000008000000000000 (Region.mask (footprint (.probeStart a0))) := (by decide : Sub _ (Region.mask (.out :: .host :: ([.reg .SLU_PROBE_CTRL, .power, .sluice]))))
  replace hs := Within.start (m := Region.mask (footprint (.probeStart a0))) hs
  replace h : execProbeStart a0 s = .next t := h
  unfold execProbeStart at h
  repeat' (first | (cases h; done) | split at h)
  all_goals try cases h
  all_goals repeat' first
    | with_reducible assumption
    | exact Sub.up hm (by decide)
    | exact Sub.bit hm (by decide)
    | with_reducible apply within_State_viaReg
    | with_reducible apply within_finish
    | with_reducible apply within_probeCtrl
    | intro _

theorem within_exec_probeDone (hs : Sound s) (h : exec (.probeDone) s = .next t) :
    Within (Region.mask (footprint .probeDone)) s t := by
  have hm : Sub 0x8A000000000000000000000000000000000000000000000000000000000000000000000000000000000000000C0010000000000 (Region.mask (footprint (.probeDone))) := (by decide : Sub _ (Region.mask (.out :: .host :: ([.reg .SLU_EVENT, .reg .SLU_PROBE_OUT_LO, .reg .SLU_PROBE_OUT_HI, .sluice]))))
  replace hs := Within.start (m := Region.mask (footprint (.probeDone))) hs
  replace h : execProbeDone s = .next t := h
  unfold execProbeDone at h
  repeat' (first | (cases h; done) | split at h)
  all_goals try cases h
  all_goals repeat' first
    | with_reducible assumption
    | exact Sub.up hm (by decide)
    | exact Sub.bit hm (by decide)
    | with_reducible apply within_finish
    | with_reducible apply within_probeDoneEffect

theorem within_exec_inject {a0 a1} (hs : Sound s) (h : exec (.inject a0 a1) s = .next t) :
    Within (Region.mask (footprint (.inject a0 a1))) s t := by
  have hm : Sub 0x218E00000000000000000000000000000000000000000000000000000000005000000000000000043880000000000008000000006 (Region.mask (footprint (.inject a0 a1))) := (by decide : Sub _ (Region.mask (.out :: .host :: (poolParts ++ [.reg .MIR_STATUS, .reg .MIR_FILL, .free, .sluice, .mirror, .basin] ++ [.reg .HIF_DMA_ERR_ADDR_LO, .reg .HIF_DMA_ERR_ADDR_HI, .reg .HIF_DMA_ERR_INFO] ++ [.reg .BSN_NONE]))))
  replace hs := Within.start (m := Region.mask (footprint (.inject a0 a1))) hs
  replace h : execInject a0 a1 s = .next t := h
  unfold execInject at h
  repeat' (first | (cases h; done) | split at h)
  all_goals try cases h
  all_goals repeat' first
    | with_reducible assumption
    | exact Sub.up hm (by decide)
    | exact Sub.bit hm (by decide)
    | with_reducible apply within_finish
    | with_reducible apply within_injectEffect

theorem within_exec_catalogueLoad {a0 a1} (hs : Sound s) (h : exec (.catalogueLoad a0 a1) s = .next t) :
    Within (Region.mask (footprint (.catalogueLoad a0 a1))) s t := by
  have hm : Sub 0x8A00000000000000000000000000000000000000000000000000000000000000000000000000003880000000000000000000000 (Region.mask (footprint (.catalogueLoad a0 a1))) := (by decide : Sub _ (Region.mask (.out :: .host :: ([.sluice, .reg .HIF_EVENT, .reg .HIF_DMA_ERR_ADDR_LO, .reg .HIF_DMA_ERR_ADDR_HI, .reg .HIF_DMA_ERR_INFO]))))
  replace hs := Within.start (m := Region.mask (footprint (.catalogueLoad a0 a1))) hs
  replace h : execCatalogueLoad a0 a1 s = .next t := h
  unfold execCatalogueLoad at h
  repeat' (first | (cases h; done) | split at h)
  all_goals try cases h
  all_goals repeat' first
    | with_reducible assumption
    | exact Sub.up hm (by decide)
    | exact Sub.bit hm (by decide)
    | with_reducible apply within_finish
    | with_reducible apply within_catalogueEffect

end Sys2Proof.Machine
end

