-- ==== Sys2Proof/Laws/ExecSpouts.lean ====
section
/-! SUPPORT. Each command of Machine/Spouts.lean changes nothing outside its footprint, and keeps a sound state sound. -/
namespace Sys2Proof.Machine

variable {s t : State}

theorem within_exec_roceAck {a0 a1} (hs : Sound s) (h : exec (.roceAck a0 a1) s = .next t) :
    Within (Region.mask (footprint (.roceAck a0 a1))) s t := by
  have hm : Sub 0x20E00000000000000000000000000000000000000010080260010000000000000000000000000000000000000000000000000000 (Region.mask (footprint (.roceAck a0 a1))) := (by decide : Sub _ (Region.mask (.out :: .host :: (weirParts ++ ringParts))))
  replace hs := Within.start (m := Region.mask (footprint (.roceAck a0 a1))) hs
  replace h : execRoceAck a0 a1 s = .next t := h
  unfold execRoceAck at h
  repeat' (first | (cases h; done) | split at h)
  all_goals try cases h
  all_goals repeat' first
    | with_reducible assumption
    | exact Sub.up hm (by decide)
    | exact Sub.bit hm (by decide)
    | with_reducible apply within_finish
    | with_reducible apply within_roceAckEffect

theorem within_exec_nakSequence {a0 a1} (hs : Sound s) (h : exec (.nakSequence a0 a1) s = .next t) :
    Within (Region.mask (footprint (.nakSequence a0 a1))) s t := by
  have hm : Sub 0x10E00000000000000000000000000000000000000000000000400000000000000000000000000000000000000000000000000004 (Region.mask (footprint (.nakSequence a0 a1))) := (by decide : Sub _ (Region.mask (.out :: .host :: ([.reg .MIR_FILL, .reg .SPT_RETRY, .free, .mirror]))))
  replace hs := Within.start (m := Region.mask (footprint (.nakSequence a0 a1))) hs
  replace h : execNakSequence a0 a1 s = .next t := h
  unfold execNakSequence at h
  repeat' (first | (cases h; done) | split at h)
  all_goals try cases h
  all_goals repeat' first
    | with_reducible assumption
    | exact Sub.up hm (by decide)
    | exact Sub.bit hm (by decide)
    | with_reducible apply within_finish
    | with_reducible apply within_nakSequenceEffect

theorem within_exec_ackTimeout {a0} (hs : Sound s) (h : exec (.ackTimeout a0) s = .next t) :
    Within (Region.mask (footprint (.ackTimeout a0))) s t := by
  have hm : Sub 0x30E00000000000000000000000000000000000000000000220410000000000000000000000000000000000000000000000000004 (Region.mask (footprint (.ackTimeout a0))) := (by decide : Sub _ (Region.mask (.out :: .host :: (weirParts ++ [.reg .MIR_FILL, .reg .SPT_RETRY, .mirror]))))
  replace hs := Within.start (m := Region.mask (footprint (.ackTimeout a0))) hs
  replace h : execAckTimeout a0 s = .next t := h
  unfold execAckTimeout at h
  repeat' (first | (cases h; done) | split at h)
  all_goals try cases h
  all_goals repeat' first
    | with_reducible assumption
    | exact Sub.up hm (by decide)
    | exact Sub.bit hm (by decide)
    | with_reducible apply within_finish
    | with_reducible apply within_ackTimeoutEffect

theorem within_exec_rnrNak {a0} (hs : Sound s) (h : exec (.rnrNak a0) s = .next t) :
    Within (Region.mask (footprint (.rnrNak a0))) s t := by
  have hm : Sub 0x20E00000000000000000000000000000000000000000000220010000000000000000000000000000000000000000000000000000 (Region.mask (footprint (.rnrNak a0))) := (by decide : Sub _ (Region.mask (.out :: .host :: (weirParts))))
  replace hs := Within.start (m := Region.mask (footprint (.rnrNak a0))) hs
  replace h : execRnrNak a0 s = .next t := h
  unfold execRnrNak at h
  repeat' (first | (cases h; done) | split at h)
  all_goals try cases h
  all_goals repeat' first
    | with_reducible assumption
    | exact Sub.up hm (by decide)
    | exact Sub.bit hm (by decide)
    | with_reducible apply within_finish
    | with_reducible apply within_rnrNakEffect

theorem within_exec_nakRemoteError {a0} (hs : Sound s) (h : exec (.nakRemoteError a0) s = .next t) :
    Within (Region.mask (footprint (.nakRemoteError a0))) s t := by
  have hm : Sub 0x20E00000000000000000000000000000000000000000000220030000000000000000000000000000000000000000000000000000 (Region.mask (footprint (.nakRemoteError a0))) := (by decide : Sub _ (Region.mask (.out :: .host :: (weirParts ++ [.reg .SPT_EVENT]))))
  replace hs := Within.start (m := Region.mask (footprint (.nakRemoteError a0))) hs
  replace h : execNakRemoteError a0 s = .next t := h
  unfold execNakRemoteError at h
  repeat' (first | (cases h; done) | split at h)
  all_goals try cases h
  all_goals repeat' first
    | with_reducible assumption
    | exact Sub.up hm (by decide)
    | exact Sub.bit hm (by decide)
    | with_reducible apply within_finish
    | with_reducible apply within_remoteErrorEffect

theorem within_exec_cnp {a0} (hs : Sound s) (h : exec (.cnp a0) s = .next t) :
    Within (Region.mask (footprint (.cnp a0))) s t := by
  have hm : Sub 0x20E00000000000000000000000000000000000000000000002000000000000000000000000000000000000000000000000000000 (Region.mask (footprint (.cnp a0))) := (by decide : Sub _ (Region.mask (.out :: .host :: ([.reg .SPT_CNP, .free, .weir]))))
  replace hs := Within.start (m := Region.mask (footprint (.cnp a0))) hs
  replace h : execCnp a0 s = .next t := h
  unfold execCnp at h
  repeat' (first | (cases h; done) | split at h)
  all_goals try cases h
  all_goals repeat' first
    | with_reducible assumption
    | exact Sub.up hm (by decide)
    | exact Sub.bit hm (by decide)
    | with_reducible apply within_finish
    | with_reducible apply within_cnpEffect

theorem within_exec_cnpHoldEnd {a0} (hs : Sound s) (h : exec (.cnpHoldEnd a0) s = .next t) :
    Within (Region.mask (footprint (.cnpHoldEnd a0))) s t := by
  have hm : Sub 0x20E00000000000000000000000000000000000000000000000000000000000000000000000000000000000000000000000000000 (Region.mask (footprint (.cnpHoldEnd a0))) := (by decide : Sub _ (Region.mask (.out :: .host :: ([.free, .weir]))))
  replace hs := Within.start (m := Region.mask (footprint (.cnpHoldEnd a0))) hs
  replace h : execCnpHoldEnd a0 s = .next t := h
  unfold execCnpHoldEnd at h
  repeat' (first | (cases h; done) | split at h)
  all_goals try cases h
  all_goals repeat' first
    | with_reducible assumption
    | exact Sub.up hm (by decide)
    | exact Sub.bit hm (by decide)
    | with_reducible apply within_finish
    | with_reducible apply within_cnpHoldEndEffect

theorem within_exec_runnelAck {a0 a1} (hs : Sound s) (h : exec (.runnelAck a0 a1) s = .next t) :
    Within (Region.mask (footprint (.runnelAck a0 a1))) s t := by
  have hm : Sub 0x20A00000000000000000000000000000000000000010080264010000000000000000000000000000000000000000000000000000 (Region.mask (footprint (.runnelAck a0 a1))) := (by decide : Sub _ (Region.mask (.out :: .host :: (ringParts ++ [.reg .SPT_STATUS, .reg .WEIR_POOL_USED] ++ [.reg .SPT_DISCARD]))))
  replace hs := Within.start (m := Region.mask (footprint (.runnelAck a0 a1))) hs
  replace h : execRunnelAck a0 a1 s = .next t := h
  unfold execRunnelAck at h
  repeat' (first | (cases h; done) | split at h)
  all_goals try cases h
  all_goals repeat' first
    | with_reducible assumption
    | exact Sub.up hm (by decide)
    | exact Sub.bit hm (by decide)
    | with_reducible apply within_finish
    | with_reducible apply within_runnelAckEffect
    | with_reducible apply within_State_onFrame
    | intro _

theorem within_exec_runnelNak {a0 a1} (hs : Sound s) (h : exec (.runnelNak a0 a1) s = .next t) :
    Within (Region.mask (footprint (.runnelNak a0 a1))) s t := by
  have hm : Sub 0x10E00000000000000000000000000000000000000000000004400000000000000000000000000000000000000000000000000004 (Region.mask (footprint (.runnelNak a0 a1))) := (by decide : Sub _ (Region.mask (.out :: .host :: ([.reg .MIR_FILL, .reg .SPT_RETRY, .free, .mirror, .reg .SPT_DISCARD]))))
  replace hs := Within.start (m := Region.mask (footprint (.runnelNak a0 a1))) hs
  replace h : execRunnelNak a0 a1 s = .next t := h
  unfold execRunnelNak at h
  repeat' (first | (cases h; done) | split at h)
  all_goals try cases h
  all_goals repeat' first
    | with_reducible assumption
    | exact Sub.up hm (by decide)
    | exact Sub.bit hm (by decide)
    | with_reducible apply within_finish
    | with_reducible apply within_runnelNakEffect
    | with_reducible apply within_State_onFrame
    | intro _

theorem within_exec_credit {a0 a1 a2} (hs : Sound s) (h : exec (.credit a0 a1 a2) s = .next t) :
    Within (Region.mask (footprint (.credit a0 a1 a2))) s t := by
  have hm : Sub 0x20A00000000000000000000000000000000000000000000224010000000000000000000000000000000000000000000000000000 (Region.mask (footprint (.credit a0 a1 a2))) := (by decide : Sub _ (Region.mask (.out :: .host :: ([.reg .SPT_STATUS, .reg .WEIR_STATUS, .reg .WEIR_POOL_USED, .weir, .reg .SPT_DISCARD]))))
  replace hs := Within.start (m := Region.mask (footprint (.credit a0 a1 a2))) hs
  replace h : execCredit a0 a1 a2 s = .next t := h
  unfold execCredit at h
  repeat' (first | (cases h; done) | split at h)
  all_goals try cases h
  all_goals repeat' first
    | with_reducible assumption
    | exact Sub.up hm (by decide)
    | exact Sub.bit hm (by decide)
    | with_reducible apply within_finish
    | with_reducible apply within_creditEffect
    | with_reducible apply within_State_onFrame
    | intro _

theorem within_exec_laneMap {a0 a1 a2} (hs : Sound s) (h : exec (.laneMap a0 a1 a2) s = .next t) :
    Within (Region.mask (footprint (.laneMap a0 a1 a2))) s t := by
  have hm : Sub 0x18B0E00000000000000000000000606090000000000000000224430000000000000000000000000000000000000000000000000004 (Region.mask (footprint (.laneMap a0 a1 a2))) := (by decide : Sub _ (Region.mask (.out :: .host :: (stillParts ++ weirParts ++ [.reg .MIR_FILL, .reg .SPT_EVENT, .reg .SPT_RETRY, .mirror, .sundial, .svc] ++ [.reg .SPT_DISCARD]))))
  replace hs := Within.start (m := Region.mask (footprint (.laneMap a0 a1 a2))) hs
  replace h : execLaneMap a0 a1 a2 s = .next t := h
  unfold execLaneMap at h
  repeat' (first | (cases h; done) | split at h)
  all_goals try cases h
  all_goals repeat' first
    | with_reducible assumption
    | exact Sub.up hm (by decide)
    | exact Sub.bit hm (by decide)
    | with_reducible apply within_finish
    | with_reducible apply within_laneMapEffect
    | with_reducible apply within_State_onFrame
    | intro _

theorem within_exec_retryTimeout {a0} (hs : Sound s) (h : exec (.retryTimeout a0) s = .next t) :
    Within (Region.mask (footprint (.retryTimeout a0))) s t := by
  have hm : Sub 0x10E00000000000000000000000000000000000000000000000400000000000000000000000000000000000000000000000000004 (Region.mask (footprint (.retryTimeout a0))) := (by decide : Sub _ (Region.mask (.out :: .host :: ([.reg .MIR_FILL, .reg .SPT_RETRY, .free, .mirror]))))
  replace hs := Within.start (m := Region.mask (footprint (.retryTimeout a0))) hs
  replace h : execRetryTimeout a0 s = .next t := h
  unfold execRetryTimeout at h
  repeat' (first | (cases h; done) | split at h)
  all_goals try cases h
  all_goals repeat' first
    | with_reducible assumption
    | exact Sub.up hm (by decide)
    | exact Sub.bit hm (by decide)
    | with_reducible apply within_finish
    | with_reducible apply within_retryTimeoutEffect

theorem within_exec_controlFrameTick {a0} (hs : Sound s) (h : exec (.controlFrameTick a0) s = .next t) :
    Within (Region.mask (footprint (.controlFrameTick a0))) s t := by
  have hm : Sub 0xE00000000000000000000000000000000000000000000001800000000000000000000000000000000000000000000000000000 (Region.mask (footprint (.controlFrameTick a0))) := (by decide : Sub _ (Region.mask (.out :: .host :: ([.free, .reg .SPT_FEC_CORR, .reg .SPT_FEC_UNCORR]))))
  replace hs := Within.start (m := Region.mask (footprint (.controlFrameTick a0))) hs
  replace h : execControlFrameTick a0 s = .next t := h
  unfold execControlFrameTick at h
  repeat' (first | (cases h; done) | split at h)
  all_goals try cases h
  all_goals repeat' first
    | with_reducible assumption
    | exact Sub.up hm (by decide)
    | exact Sub.bit hm (by decide)
    | with_reducible apply within_finish
    | with_reducible apply within_controlTickEffect

theorem within_exec_laneFault {a0 a1} (hs : Sound s) (h : exec (.laneFault a0 a1) s = .next t) :
    Within (Region.mask (footprint (.laneFault a0 a1))) s t := by
  have hm : Sub 0x18B0E00000000000000000000000606090000000000000000220430000000000000000000000000000000000000000000000000004 (Region.mask (footprint (.laneFault a0 a1))) := (by decide : Sub _ (Region.mask (.out :: .host :: (stillParts ++ weirParts ++ [.reg .MIR_FILL, .reg .SPT_EVENT, .reg .SPT_RETRY, .mirror, .sundial, .svc]))))
  replace hs := Within.start (m := Region.mask (footprint (.laneFault a0 a1))) hs
  replace h : execLaneFault a0 a1 s = .next t := h
  unfold execLaneFault at h
  repeat' (first | (cases h; done) | split at h)
  all_goals try cases h
  all_goals repeat' first
    | with_reducible assumption
    | exact Sub.up hm (by decide)
    | exact Sub.bit hm (by decide)
    | with_reducible apply within_finish
    | with_reducible apply within_laneFaultEffect

theorem within_exec_laneRetrained {a0 a1} (hs : Sound s) (h : exec (.laneRetrained a0 a1) s = .next t) :
    Within (Region.mask (footprint (.laneRetrained a0 a1))) s t := by
  have hm : Sub 0xA0A00000000000000000000000000000000000000000000000030000000000000000000000000000000000000000000000000000 (Region.mask (footprint (.laneRetrained a0 a1))) := (by decide : Sub _ (Region.mask (.out :: .host :: ([.reg .SPT_STATUS, .reg .SPT_EVENT, .weir, .sundial]))))
  replace hs := Within.start (m := Region.mask (footprint (.laneRetrained a0 a1))) hs
  replace h : execLaneRetrained a0 a1 s = .next t := h
  unfold execLaneRetrained at h
  repeat' (first | (cases h; done) | split at h)
  all_goals try cases h
  all_goals repeat' first
    | with_reducible assumption
    | exact Sub.up hm (by decide)
    | exact Sub.bit hm (by decide)
    | with_reducible apply within_finish
    | with_reducible apply within_laneRetrainedEffect

theorem within_exec_spoutDown {a0} (hs : Sound s) (h : exec (.spoutDown a0) s = .next t) :
    Within (Region.mask (footprint (.spoutDown a0))) s t := by
  have hm : Sub 0x1820E00000000000000000000000606090000000000000000220030000000000000000000000000000000000000000000000000000 (Region.mask (footprint (.spoutDown a0))) := (by decide : Sub _ (Region.mask (.out :: .host :: (stillParts ++ weirParts ++ [.reg .SPT_EVENT, .svc]))))
  replace hs := Within.start (m := Region.mask (footprint (.spoutDown a0))) hs
  replace h : execSpoutDown a0 s = .next t := h
  unfold execSpoutDown at h
  repeat' (first | (cases h; done) | split at h)
  all_goals try cases h
  all_goals repeat' first
    | with_reducible assumption
    | exact Sub.up hm (by decide)
    | exact Sub.bit hm (by decide)
    | with_reducible apply within_finish
    | with_reducible apply within_spoutDownEffect

theorem within_exec_spoutUp {a0} (hs : Sound s) (h : exec (.spoutUp a0) s = .next t) :
    Within (Region.mask (footprint (.spoutUp a0))) s t := by
  have hm : Sub 0x20A00000000000000000000000000000000000000000000220030000000000000000000000000000000000000000000000000000 (Region.mask (footprint (.spoutUp a0))) := (by decide : Sub _ (Region.mask (.out :: .host :: ([.reg .SPT_STATUS, .reg .SPT_EVENT, .reg .WEIR_STATUS, .reg .WEIR_POOL_USED, .weir]))))
  replace hs := Within.start (m := Region.mask (footprint (.spoutUp a0))) hs
  replace h : execSpoutUp a0 s = .next t := h
  unfold execSpoutUp at h
  repeat' (first | (cases h; done) | split at h)
  all_goals try cases h
  all_goals repeat' first
    | with_reducible assumption
    | exact Sub.up hm (by decide)
    | exact Sub.bit hm (by decide)
    | with_reducible apply within_finish
    | with_reducible apply within_spoutUpEffect

theorem within_exec_flowRejoin {a0} (hs : Sound s) (h : exec (.flowRejoin a0) s = .next t) :
    Within (Region.mask (footprint (.flowRejoin a0))) s t := by
  have hm : Sub 0x20E00000000000000000000000000000000000000000000220030000000000000000000000000000000000000000000000000000 (Region.mask (footprint (.flowRejoin a0))) := (by decide : Sub _ (Region.mask (.out :: .host :: (weirParts ++ [.reg .SPT_EVENT]))))
  replace hs := Within.start (m := Region.mask (footprint (.flowRejoin a0))) hs
  replace h : execFlowRejoin a0 s = .next t := h
  unfold execFlowRejoin at h
  repeat' (first | (cases h; done) | split at h)
  all_goals try cases h
  all_goals repeat' first
    | with_reducible assumption
    | exact Sub.up hm (by decide)
    | exact Sub.bit hm (by decide)
    | with_reducible apply within_finish
    | with_reducible apply within_flowRejoinEffect

theorem within_exec_spoutRetrain {a0 a1} (hs : Sound s) (h : exec (.spoutRetrain a0 a1) s = .next t) :
    Within (Region.mask (footprint (.spoutRetrain a0 a1))) s t := by
  have hm : Sub 0x1021E00000000000000000000000606090000000000000000220038000000000000000000000000000000000000000000000000000 (Region.mask (footprint (.spoutRetrain a0 a1))) := (by decide : Sub _ (Region.mask (.out :: .host :: (stillParts ++ weirParts ++ [.reg .SPT_CTRL, .reg .SPT_EVENT, .power]))))
  replace hs := Within.start (m := Region.mask (footprint (.spoutRetrain a0 a1))) hs
  replace h : execSpoutRetrain a0 a1 s = .next t := h
  unfold execSpoutRetrain at h
  repeat' (first | (cases h; done) | split at h)
  all_goals try cases h
  all_goals repeat' first
    | with_reducible assumption
    | exact Sub.up hm (by decide)
    | exact Sub.bit hm (by decide)
    | with_reducible apply within_State_viaReg
    | with_reducible apply within_finish
    | with_reducible apply within_State_swWrite
    | with_reducible apply within_State_sptCtrlOne
    | intro _

theorem within_exec_arpRequest {a0 a1} (hs : Sound s) (h : exec (.arpRequest a0 a1) s = .next t) :
    Within (Region.mask (footprint (.arpRequest a0 a1))) s t := by
  have hm : Sub 0xA00000000000000000000000000000000000000000000000000000000000000000000000000000000000000000000000000000 (Region.mask (footprint (.arpRequest a0 a1))) := (by decide : Sub _ (Region.mask (.out :: .host :: ([]))))
  replace hs := Within.start (m := Region.mask (footprint (.arpRequest a0 a1))) hs
  replace h : execArpRequest a0 a1 s = .next t := h
  unfold execArpRequest at h
  repeat' (first | (cases h; done) | split at h)
  all_goals try cases h
  all_goals repeat' first
    | with_reducible assumption
    | exact Sub.up hm (by decide)
    | exact Sub.bit hm (by decide)
    | with_reducible apply within_finish
    | with_reducible apply within_arpEffect

theorem within_exec_spoutTrainingStart {a0} (hs : Sound s) (h : exec (.spoutTrainingStart a0) s = .next t) :
    Within (Region.mask (footprint (.spoutTrainingStart a0))) s t := by
  have hm : Sub 0xA00000000000000000000000000000000000000000000000010000000000000000000000000000000000000000000000000000 (Region.mask (footprint (.spoutTrainingStart a0))) := (by decide : Sub _ (Region.mask (.out :: .host :: ([.reg .SPT_STATUS]))))
  replace hs := Within.start (m := Region.mask (footprint (.spoutTrainingStart a0))) hs
  replace h : execSpoutTrainingStart a0 s = .next t := h
  unfold execSpoutTrainingStart at h
  repeat' (first | (cases h; done) | split at h)
  all_goals try cases h
  all_goals repeat' first
    | with_reducible assumption
    | exact Sub.up hm (by decide)
    | exact Sub.bit hm (by decide)
    | with_reducible apply within_finish
    | with_reducible apply within_trainingStartEffect

theorem within_exec_rnrRetry {a0} (hs : Sound s) (h : exec (.rnrRetry a0) s = .next t) :
    Within (Region.mask (footprint (.rnrRetry a0))) s t := by
  have hm : Sub 0x30E00000000000000000000000000000000000000000000220410000000000000000000000000000000000000000000000000004 (Region.mask (footprint (.rnrRetry a0))) := (by decide : Sub _ (Region.mask (.out :: .host :: (weirParts ++ [.reg .MIR_FILL, .reg .SPT_RETRY, .mirror]))))
  replace hs := Within.start (m := Region.mask (footprint (.rnrRetry a0))) hs
  replace h : execRnrRetry a0 s = .next t := h
  unfold execRnrRetry at h
  repeat' (first | (cases h; done) | split at h)
  all_goals try cases h
  all_goals repeat' first
    | with_reducible assumption
    | exact Sub.up hm (by decide)
    | exact Sub.bit hm (by decide)
    | with_reducible apply within_finish
    | with_reducible apply within_rnrRetryEffect

end Sys2Proof.Machine
end

