-- ==== Sys2Proof/Laws/ExecSundial.lean ====
section
/-! SUPPORT. Each command of Machine/Sundial.lean changes nothing outside its footprint, and keeps a sound state sound. -/
namespace Sys2Proof.Machine

variable {s t : State}

theorem within_exec_ptpAnnounce {a0 a1} (hs : Sound s) (h : exec (.ptpAnnounce a0 a1) s = .next t) :
    Within (Region.mask (footprint (.ptpAnnounce a0 a1))) s t := by
  have hm : Sub 0x80A00000000000000000000000000000000000181060000000000000000000000000000000000000000000000000000000000000 (Region.mask (footprint (.ptpAnnounce a0 a1))) := (by decide : Sub _ (Region.mask (.out :: .host :: (clockParts))))
  replace hs := Within.start (m := Region.mask (footprint (.ptpAnnounce a0 a1))) hs
  replace h : execPtpAnnounce a0 a1 s = .next t := h
  unfold execPtpAnnounce at h
  repeat' (first | (cases h; done) | split at h)
  all_goals try cases h
  all_goals repeat' first
    | with_reducible assumption
    | exact Sub.up hm (by decide)
    | exact Sub.bit hm (by decide)
    | with_reducible apply within_finish
    | with_reducible apply within_announceEffect
    | with_reducible apply within_State_onPtp
    | intro _

theorem within_exec_ptpSync {a0 a1 a2 a3 a4} (hs : Sound s) (h : exec (.ptpSync a0 a1 a2 a3 a4) s = .next t) :
    Within (Region.mask (footprint (.ptpSync a0 a1 a2 a3 a4))) s t := by
  have hm : Sub 0x80E00000000000000000000000000000000000181860000000000000000000000000000000000000000000000000000000000000 (Region.mask (footprint (.ptpSync a0 a1 a2 a3 a4))) := (by decide : Sub _ (Region.mask (.out :: .host :: (clockParts ++ [.reg .SDL_OFFSET, .free]))))
  replace hs := Within.start (m := Region.mask (footprint (.ptpSync a0 a1 a2 a3 a4))) hs
  replace h : execPtpSync a0 a1 a2 a3 a4 s = .next t := h
  unfold execPtpSync at h
  repeat' (first | (cases h; done) | split at h)
  all_goals try cases h
  all_goals repeat' first
    | with_reducible assumption
    | exact Sub.up hm (by decide)
    | exact Sub.bit hm (by decide)
    | with_reducible apply within_finish
    | with_reducible apply within_syncEffect
    | with_reducible apply within_State_onPtp
    | intro _

theorem within_exec_ptpFollowUp {a0 a1 a2} (hs : Sound s) (h : exec (.ptpFollowUp a0 a1 a2) s = .next t) :
    Within (Region.mask (footprint (.ptpFollowUp a0 a1 a2))) s t := by
  have hm : Sub 0x80E00000000000000000000000000000000000181860000000000000000000000000000000000000000000000000000000000000 (Region.mask (footprint (.ptpFollowUp a0 a1 a2))) := (by decide : Sub _ (Region.mask (.out :: .host :: (clockParts ++ [.reg .SDL_OFFSET, .free]))))
  replace hs := Within.start (m := Region.mask (footprint (.ptpFollowUp a0 a1 a2))) hs
  replace h : execPtpFollowUp a0 a1 a2 s = .next t := h
  unfold execPtpFollowUp at h
  repeat' (first | (cases h; done) | split at h)
  all_goals try cases h
  all_goals repeat' first
    | with_reducible assumption
    | exact Sub.up hm (by decide)
    | exact Sub.bit hm (by decide)
    | with_reducible apply within_finish
    | with_reducible apply within_followUpEffect
    | with_reducible apply within_State_onPtp
    | intro _

theorem within_exec_ptpDelayReq {a0 a1 a2} (hs : Sound s) (h : exec (.ptpDelayReq a0 a1 a2) s = .next t) :
    Within (Region.mask (footprint (.ptpDelayReq a0 a1 a2))) s t := by
  have hm : Sub 0xA00000000000000000000000000000000000000000000000000000000000000000000000000000000000000000000000000000 (Region.mask (footprint (.ptpDelayReq a0 a1 a2))) := (by decide : Sub _ (Region.mask (.out :: .host :: ([]))))
  replace hs := Within.start (m := Region.mask (footprint (.ptpDelayReq a0 a1 a2))) hs
  replace h : execPtpDelayReq a0 a1 a2 s = .next t := h
  unfold execPtpDelayReq at h
  repeat' (first | (cases h; done) | split at h)
  all_goals try cases h
  all_goals repeat' first
    | with_reducible assumption
    | exact Sub.up hm (by decide)
    | exact Sub.bit hm (by decide)
    | with_reducible apply within_finish
    | with_reducible apply within_delayReqEffect
    | with_reducible apply within_State_onPtp
    | intro _

theorem within_exec_ptpDelayResp {a0 a1 a2} (hs : Sound s) (h : exec (.ptpDelayResp a0 a1 a2) s = .next t) :
    Within (Region.mask (footprint (.ptpDelayResp a0 a1 a2))) s t := by
  have hm : Sub 0x80E00000000000000000000000000000000000181860000000000000000000000000000000000000000000000000000000000000 (Region.mask (footprint (.ptpDelayResp a0 a1 a2))) := (by decide : Sub _ (Region.mask (.out :: .host :: (clockParts ++ [.reg .SDL_OFFSET, .free]))))
  replace hs := Within.start (m := Region.mask (footprint (.ptpDelayResp a0 a1 a2))) hs
  replace h : execPtpDelayResp a0 a1 a2 s = .next t := h
  unfold execPtpDelayResp at h
  repeat' (first | (cases h; done) | split at h)
  all_goals try cases h
  all_goals repeat' first
    | with_reducible assumption
    | exact Sub.up hm (by decide)
    | exact Sub.bit hm (by decide)
    | with_reducible apply within_finish
    | with_reducible apply within_delayRespEffect
    | with_reducible apply within_State_onPtp
    | intro _

theorem within_exec_ptpPdelayReq {a0 a1 a2} (hs : Sound s) (h : exec (.ptpPdelayReq a0 a1 a2) s = .next t) :
    Within (Region.mask (footprint (.ptpPdelayReq a0 a1 a2))) s t := by
  have hm : Sub 0xA00000000000000000000000000000000000000000000000000000000000000000000000000000000000000000000000000000 (Region.mask (footprint (.ptpPdelayReq a0 a1 a2))) := (by decide : Sub _ (Region.mask (.out :: .host :: ([]))))
  replace hs := Within.start (m := Region.mask (footprint (.ptpPdelayReq a0 a1 a2))) hs
  replace h : execPtpPdelayReq a0 a1 a2 s = .next t := h
  unfold execPtpPdelayReq at h
  repeat' (first | (cases h; done) | split at h)
  all_goals try cases h
  all_goals repeat' first
    | with_reducible assumption
    | exact Sub.up hm (by decide)
    | exact Sub.bit hm (by decide)
    | with_reducible apply within_finish
    | with_reducible apply within_pdelayReqEffect
    | with_reducible apply within_State_onPtp
    | intro _

theorem within_exec_ptpPdelayResp {a0 a1 a2 a3} (hs : Sound s) (h : exec (.ptpPdelayResp a0 a1 a2 a3) s = .next t) :
    Within (Region.mask (footprint (.ptpPdelayResp a0 a1 a2 a3))) s t := by
  have hm : Sub 0x80A00000000000000000000000000000000000000000000000000000000000000000000000000000000000000000000000000000 (Region.mask (footprint (.ptpPdelayResp a0 a1 a2 a3))) := (by decide : Sub _ (Region.mask (.out :: .host :: ([.sundial]))))
  replace hs := Within.start (m := Region.mask (footprint (.ptpPdelayResp a0 a1 a2 a3))) hs
  replace h : execPtpPdelayResp a0 a1 a2 a3 s = .next t := h
  unfold execPtpPdelayResp at h
  repeat' (first | (cases h; done) | split at h)
  all_goals try cases h
  all_goals repeat' first
    | with_reducible assumption
    | exact Sub.up hm (by decide)
    | exact Sub.bit hm (by decide)
    | with_reducible apply within_finish
    | with_reducible apply within_pdelayRespEffect
    | with_reducible apply within_State_onPtp
    | intro _

theorem within_exec_ptpPdelayRespFollowUp {a0 a1 a2} (hs : Sound s) (h : exec (.ptpPdelayRespFollowUp a0 a1 a2) s = .next t) :
    Within (Region.mask (footprint (.ptpPdelayRespFollowUp a0 a1 a2))) s t := by
  have hm : Sub 0x80A00000000000000000000000000000000000180000000000000000000000000000000000000000000000000000000000000000 (Region.mask (footprint (.ptpPdelayRespFollowUp a0 a1 a2))) := (by decide : Sub _ (Region.mask (.out :: .host :: ([.reg .INL_STATUS, .reg .INL_EVENT, .sundial]))))
  replace hs := Within.start (m := Region.mask (footprint (.ptpPdelayRespFollowUp a0 a1 a2))) hs
  replace h : execPtpPdelayRespFollowUp a0 a1 a2 s = .next t := h
  unfold execPtpPdelayRespFollowUp at h
  repeat' (first | (cases h; done) | split at h)
  all_goals try cases h
  all_goals repeat' first
    | with_reducible assumption
    | exact Sub.up hm (by decide)
    | exact Sub.bit hm (by decide)
    | with_reducible apply within_finish
    | with_reducible apply within_pdelayFollowEffect
    | with_reducible apply within_State_onPtp
    | intro _

theorem within_exec_ptpSignaling {a0 a1} (hs : Sound s) (h : exec (.ptpSignaling a0 a1) s = .next t) :
    Within (Region.mask (footprint (.ptpSignaling a0 a1))) s t := by
  have hm : Sub 0x80A00000000000000000000000000000000000000000000000000000000000000000000000000000000000000000000000000000 (Region.mask (footprint (.ptpSignaling a0 a1))) := (by decide : Sub _ (Region.mask (.out :: .host :: ([.sundial]))))
  replace hs := Within.start (m := Region.mask (footprint (.ptpSignaling a0 a1))) hs
  replace h : execPtpSignaling a0 a1 s = .next t := h
  unfold execPtpSignaling at h
  repeat' (first | (cases h; done) | split at h)
  all_goals try cases h
  all_goals repeat' first
    | with_reducible assumption
    | exact Sub.up hm (by decide)
    | exact Sub.bit hm (by decide)
    | with_reducible apply within_finish
    | with_reducible apply within_signalingEffect
    | with_reducible apply within_State_onPtp
    | intro _

theorem within_exec_ptpManagement {a0} (hs : Sound s) (h : exec (.ptpManagement a0) s = .next t) :
    Within (Region.mask (footprint (.ptpManagement a0))) s t := by
  have hm : Sub 0xA00000000000000000000000000000000000000000000000000000000000000000000000000000000000000000000000000000 (Region.mask (footprint (.ptpManagement a0))) := (by decide : Sub _ (Region.mask (.out :: .host :: ([]))))
  replace hs := Within.start (m := Region.mask (footprint (.ptpManagement a0))) hs
  replace h : execPtpManagement a0 s = .next t := h
  unfold execPtpManagement at h
  repeat' (first | (cases h; done) | split at h)
  all_goals try cases h
  all_goals repeat' first
    | with_reducible assumption
    | exact Sub.up hm (by decide)
    | exact Sub.bit hm (by decide)
    | with_reducible apply within_finish

theorem within_exec_ptpSyncInterval {a0} (hs : Sound s) (h : exec (.ptpSyncInterval a0) s = .next t) :
    Within (Region.mask (footprint (.ptpSyncInterval a0))) s t := by
  have hm : Sub 0x80A00000000000000000000000000000000000000000000000000000000000000000000000000000000000000000000000000000 (Region.mask (footprint (.ptpSyncInterval a0))) := (by decide : Sub _ (Region.mask (.out :: .host :: ([.sundial]))))
  replace hs := Within.start (m := Region.mask (footprint (.ptpSyncInterval a0))) hs
  replace h : execPtpSyncInterval a0 s = .next t := h
  unfold execPtpSyncInterval at h
  repeat' (first | (cases h; done) | split at h)
  all_goals try cases h
  all_goals repeat' first
    | with_reducible assumption
    | exact Sub.up hm (by decide)
    | exact Sub.bit hm (by decide)
    | with_reducible apply within_finish
    | with_reducible apply within_syncIntervalEffect

theorem within_exec_timeRequestTick {a0} (hs : Sound s) (h : exec (.timeRequestTick a0) s = .next t) :
    Within (Region.mask (footprint (.timeRequestTick a0))) s t := by
  have hm : Sub 0x80A00000000000000000000000000000000000000000000000000000000000000000000000000000000000000000000000000000 (Region.mask (footprint (.timeRequestTick a0))) := (by decide : Sub _ (Region.mask (.out :: .host :: ([.sundial]))))
  replace hs := Within.start (m := Region.mask (footprint (.timeRequestTick a0))) hs
  replace h : execTimeRequestTick a0 s = .next t := h
  unfold execTimeRequestTick at h
  repeat' (first | (cases h; done) | split at h)
  all_goals try cases h
  all_goals repeat' first
    | with_reducible assumption
    | exact Sub.up hm (by decide)
    | exact Sub.bit hm (by decide)
    | with_reducible apply within_finish
    | with_reducible apply within_timeTickEffect

theorem within_exec_timeRequest {a0 a1 a2 a3 a4} (hs : Sound s) (h : exec (.timeRequest a0 a1 a2 a3 a4) s = .next t) :
    Within (Region.mask (footprint (.timeRequest a0 a1 a2 a3 a4))) s t := by
  have hm : Sub 0x80A00000000000000000000000000000000000181060000004000000000000000000000000000000000000000000000000000000 (Region.mask (footprint (.timeRequest a0 a1 a2 a3 a4))) := (by decide : Sub _ (Region.mask (.out :: .host :: (clockParts ++ [.reg .SPT_DISCARD]))))
  replace hs := Within.start (m := Region.mask (footprint (.timeRequest a0 a1 a2 a3 a4))) hs
  replace h : execTimeRequest a0 a1 a2 a3 a4 s = .next t := h
  unfold execTimeRequest at h
  repeat' (first | (cases h; done) | split at h)
  all_goals try cases h
  all_goals repeat' first
    | with_reducible assumption
    | exact Sub.up hm (by decide)
    | exact Sub.bit hm (by decide)
    | with_reducible apply within_finish
    | with_reducible apply within_timeRequestEffect
    | with_reducible apply within_State_onFrame
    | intro _

theorem within_exec_timeResponse {a0 a1 a2 a3 a4 a5 a6} (hs : Sound s) (h : exec (.timeResponse a0 a1 a2 a3 a4 a5 a6) s = .next t) :
    Within (Region.mask (footprint (.timeResponse a0 a1 a2 a3 a4 a5 a6))) s t := by
  have hm : Sub 0x80E00000000000000000000000000000000000181860000004000000000000000000000000000000000000000000000000000000 (Region.mask (footprint (.timeResponse a0 a1 a2 a3 a4 a5 a6))) := (by decide : Sub _ (Region.mask (.out :: .host :: (clockParts ++ [.reg .SDL_OFFSET, .free] ++ [.reg .SPT_DISCARD]))))
  replace hs := Within.start (m := Region.mask (footprint (.timeResponse a0 a1 a2 a3 a4 a5 a6))) hs
  replace h : execTimeResponse a0 a1 a2 a3 a4 a5 a6 s = .next t := h
  unfold execTimeResponse at h
  repeat' (first | (cases h; done) | split at h)
  all_goals try cases h
  all_goals repeat' first
    | with_reducible assumption
    | exact Sub.up hm (by decide)
    | exact Sub.bit hm (by decide)
    | with_reducible apply within_finish
    | with_reducible apply within_timeResponseEffect
    | with_reducible apply within_State_onFrame
    | intro _

theorem within_exec_timeResponseTimeout {a0 a1} (hs : Sound s) (h : exec (.timeResponseTimeout a0 a1) s = .next t) :
    Within (Region.mask (footprint (.timeResponseTimeout a0 a1))) s t := by
  have hm : Sub 0x80A00000000000000000000000000000000000000000000000000000000000000000000000000000000000000000000000000000 (Region.mask (footprint (.timeResponseTimeout a0 a1))) := (by decide : Sub _ (Region.mask (.out :: .host :: ([.sundial]))))
  replace hs := Within.start (m := Region.mask (footprint (.timeResponseTimeout a0 a1))) hs
  replace h : execTimeResponseTimeout a0 a1 s = .next t := h
  unfold execTimeResponseTimeout at h
  repeat' (first | (cases h; done) | split at h)
  all_goals try cases h
  all_goals repeat' first
    | with_reducible assumption
    | exact Sub.up hm (by decide)
    | exact Sub.bit hm (by decide)
    | with_reducible apply within_finish
    | with_reducible apply within_timeTimeoutEffect

theorem within_exec_sourceLost (hs : Sound s) (h : exec (.sourceLost) s = .next t) :
    Within (Region.mask (footprint .sourceLost)) s t := by
  have hm : Sub 0x80A00000000000000000000000000000000000181060000000000000000000000000000000000000000000000000000000000000 (Region.mask (footprint (.sourceLost))) := (by decide : Sub _ (Region.mask (.out :: .host :: (clockParts))))
  replace hs := Within.start (m := Region.mask (footprint (.sourceLost))) hs
  replace h : execSourceLost s = .next t := h
  unfold execSourceLost at h
  repeat' (first | (cases h; done) | split at h)
  all_goals try cases h
  all_goals repeat' first
    | with_reducible assumption
    | exact Sub.up hm (by decide)
    | exact Sub.bit hm (by decide)
    | with_reducible apply within_finish
    | with_reducible apply within_sourceLostEffect

theorem within_exec_sundialSet {a0} (hs : Sound s) (h : exec (.sundialSet a0) s = .next t) :
    Within (Region.mask (footprint (.sundialSet a0))) s t := by
  have hm : Sub 0x81E000000000000000000000000000000000001810E0000000000000000000000000000000000000000000000000000000000000 (Region.mask (footprint (.sundialSet a0))) := (by decide : Sub _ (Region.mask (.out :: .host :: (clockParts ++ [.reg .SDL_CTRL, .power] ++ [.free]))))
  replace hs := Within.start (m := Region.mask (footprint (.sundialSet a0))) hs
  replace h : execSundialSet a0 s = .next t := h
  unfold execSundialSet at h
  repeat' (first | (cases h; done) | split at h)
  all_goals try cases h
  all_goals repeat' first
    | with_reducible assumption
    | exact Sub.up hm (by decide)
    | exact Sub.bit hm (by decide)
    | with_reducible apply within_State_viaReg
    | with_reducible apply within_finish
    | with_reducible apply within_sdlCtrl
    | intro _

theorem within_exec_ppsInEdge {a0} (hs : Sound s) (h : exec (.ppsInEdge a0) s = .next t) :
    Within (Region.mask (footprint (.ppsInEdge a0))) s t := by
  have hm : Sub 0x80E00000000000000000000000000000000000181860000000000000000000000000000000000000000000000000000000000000 (Region.mask (footprint (.ppsInEdge a0))) := (by decide : Sub _ (Region.mask (.out :: .host :: (clockParts ++ [.reg .SDL_OFFSET, .free]))))
  replace hs := Within.start (m := Region.mask (footprint (.ppsInEdge a0))) hs
  replace h : execPpsInEdge a0 s = .next t := h
  unfold execPpsInEdge at h
  repeat' (first | (cases h; done) | split at h)
  all_goals try cases h
  all_goals repeat' first
    | with_reducible assumption
    | exact Sub.up hm (by decide)
    | exact Sub.bit hm (by decide)
    | with_reducible apply within_finish
    | with_reducible apply within_ppsEdgeEffect

theorem within_exec_refLost (hs : Sound s) (h : exec (.refLost) s = .next t) :
    Within (Region.mask (footprint .refLost)) s t := by
  have hm : Sub 0x80A00000000000000000000000000000000000181060000000000000000000000000000000000000000000000000000000000000 (Region.mask (footprint (.refLost))) := (by decide : Sub _ (Region.mask (.out :: .host :: (clockParts))))
  replace hs := Within.start (m := Region.mask (footprint (.refLost))) hs
  replace h : execRefLost s = .next t := h
  unfold execRefLost at h
  repeat' (first | (cases h; done) | split at h)
  all_goals try cases h
  all_goals repeat' first
    | with_reducible assumption
    | exact Sub.up hm (by decide)
    | exact Sub.bit hm (by decide)
    | with_reducible apply within_finish
    | with_reducible apply within_refLostEffect

theorem within_exec_estimateWrite (hs : Sound s) (h : exec (.estimateWrite) s = .next t) :
    Within (Region.mask (footprint .estimateWrite)) s t := by
  have hm : Sub 0x80A00000000000000000000000000000000000000020000000000000000000000000000000000000000000000000000000000000 (Region.mask (footprint (.estimateWrite))) := (by decide : Sub _ (Region.mask (.out :: .host :: ([.reg .SDL_STATUS, .sundial]))))
  replace hs := Within.start (m := Region.mask (footprint (.estimateWrite))) hs
  replace h : execEstimateWrite s = .next t := h
  unfold execEstimateWrite at h
  repeat' (first | (cases h; done) | split at h)
  all_goals try cases h
  all_goals repeat' first
    | with_reducible assumption
    | exact Sub.up hm (by decide)
    | exact Sub.bit hm (by decide)
    | with_reducible apply within_finish
    | with_reducible apply within_estimateEffect

theorem within_exec_ref10InPresent (hs : Sound s) (h : exec (.ref10InPresent) s = .next t) :
    Within (Region.mask (footprint .ref10InPresent)) s t := by
  have hm : Sub 0x80E00000000000000000000000000000000000001060000000000000000000000000000000000000000000000000000000000000 (Region.mask (footprint (.ref10InPresent))) := (by decide : Sub _ (Region.mask (.out :: .host :: ([.reg .SDL_STATUS, .reg .SDL_EVENT, .reg .SDL_FREQ, .free, .sundial]))))
  replace hs := Within.start (m := Region.mask (footprint (.ref10InPresent))) hs
  replace h : execRef10InPresent s = .next t := h
  unfold execRef10InPresent at h
  repeat' (first | (cases h; done) | split at h)
  all_goals try cases h
  all_goals repeat' first
    | with_reducible assumption
    | exact Sub.up hm (by decide)
    | exact Sub.bit hm (by decide)
    | with_reducible apply within_finish
    | with_reducible apply within_ref10Effect

theorem within_exec_ref10InLost (hs : Sound s) (h : exec (.ref10InLost) s = .next t) :
    Within (Region.mask (footprint .ref10InLost)) s t := by
  have hm : Sub 0x80E00000000000000000000000000000000000001060000000000000000000000000000000000000000000000000000000000000 (Region.mask (footprint (.ref10InLost))) := (by decide : Sub _ (Region.mask (.out :: .host :: ([.reg .SDL_STATUS, .reg .SDL_EVENT, .reg .SDL_FREQ, .free, .sundial]))))
  replace hs := Within.start (m := Region.mask (footprint (.ref10InLost))) hs
  replace h : execRef10InLost s = .next t := h
  unfold execRef10InLost at h
  repeat' (first | (cases h; done) | split at h)
  all_goals try cases h
  all_goals repeat' first
    | with_reducible assumption
    | exact Sub.up hm (by decide)
    | exact Sub.bit hm (by decide)
    | with_reducible apply within_finish
    | with_reducible apply within_ref10Effect

end Sys2Proof.Machine
end

