-- ==== Sys2Proof/Laws/ExecTasks.lean ====
section
/-! SUPPORT. Each command of Machine/Tasks.lean changes nothing outside its footprint, and keeps a sound state sound. -/
namespace Sys2Proof.Machine

variable {s t : State}

theorem within_exec_taskGo {a0 a1} (hs : Sound s) (h : exec (.taskGo a0 a1) s = .next t) :
    Within (Region.mask (footprint (.taskGo a0 a1))) s t := by
  have hm : Sub 0x1A00000000000000000000000000000000000000000000000000000000000000000000000088280000000000000000000000000 (Region.mask (footprint (.taskGo a0 a1))) := (by decide : Sub _ (Region.mask (.out :: .host :: ([.reg .TASK_REFUSED, .reg .TASK_Q_STATUS, .reg .TASK_GO, .reg .TASK_SQ_TAIL, .power]))))
  replace hs := Within.start (m := Region.mask (footprint (.taskGo a0 a1))) hs
  replace h : execTaskGo a0 a1 s = .next t := h
  unfold execTaskGo at h
  repeat' (first | (cases h; done) | split at h)
  all_goals try cases h
  all_goals repeat' first
    | with_reducible assumption
    | exact Sub.up hm (by decide)
    | exact Sub.bit hm (by decide)
    | with_reducible apply within_State_viaReg
    | with_reducible apply within_finish
    | with_reducible apply within_goEffect
    | intro _

theorem within_exec_taskFetch {a0 a1 a2} (hs : Sound s) (h : exec (.taskFetch a0 a1 a2) s = .next t) :
    Within (Region.mask (footprint (.taskFetch a0 a1 a2))) s t := by
  have hm : Sub 0x1000E00000000000000000000000604000000000000000000000000000000000000000000000010263880000000000000000000000 (Region.mask (footprint (.taskFetch a0 a1 a2))) := (by decide : Sub _ (Region.mask (.out :: .host :: (dmaParts ++ traceParts ++ [.reg .TASK_Q_STATUS, .reg .TASK_SQ_HEAD]))))
  replace hs := Within.start (m := Region.mask (footprint (.taskFetch a0 a1 a2))) hs
  replace h : execTaskFetch a0 a1 a2 s = .next t := h
  unfold execTaskFetch at h
  repeat' (first | (cases h; done) | split at h)
  all_goals try cases h
  all_goals repeat' first
    | with_reducible assumption
    | exact Sub.up hm (by decide)
    | exact Sub.bit hm (by decide)
    | with_reducible apply within_finish
    | with_reducible apply within_fetchEffect

theorem within_exec_nop {a0} (hs : Sound s) (h : exec (.nop a0) s = .next t) :
    Within (Region.mask (footprint (.nop a0))) s t := by
  have hm : Sub 0xA00000000000000000000000000000000000000000000000000000000000000000000000000000000000000000000000000000 (Region.mask (footprint (.nop a0))) := (by decide : Sub _ (Region.mask (.out :: .host :: ([]))))
  replace hs := Within.start (m := Region.mask (footprint (.nop a0))) hs
  replace h : execNop a0 s = .next t := h
  unfold execNop at h
  repeat' (first | (cases h; done) | split at h)
  all_goals try cases h
  all_goals repeat' first
    | with_reducible assumption
    | exact Sub.up hm (by decide)
    | exact Sub.bit hm (by decide)
    | with_reducible apply within_finish
    | with_reducible apply within_nopEffect

theorem within_exec_taskComplete {a0} (hs : Sound s) (h : exec (.taskComplete a0) s = .next t) :
    Within (Region.mask (footprint (.taskComplete a0))) s t := by
  have hm : Sub 0x1000E00000000000000000000000604000000000000000000000000000000000000000000000090260000000000000000000000000 (Region.mask (footprint (.taskComplete a0))) := (by decide : Sub _ (Region.mask (.out :: .host :: (traceParts ++ queueParts ++ taskParts))))
  replace hs := Within.start (m := Region.mask (footprint (.taskComplete a0))) hs
  replace h : execTaskComplete a0 s = .next t := h
  unfold execTaskComplete at h
  repeat' (first | (cases h; done) | split at h)
  all_goals try cases h
  all_goals repeat' first
    | with_reducible assumption
    | exact Sub.up hm (by decide)
    | exact Sub.bit hm (by decide)
    | with_reducible apply within_finish
    | with_reducible apply within_completeEffect

theorem within_exec_cqCoalesceTimer {a0} (hs : Sound s) (h : exec (.cqCoalesceTimer a0) s = .next t) :
    Within (Region.mask (footprint (.cqCoalesceTimer a0))) s t := by
  have hm : Sub 0xA00000000000000000000000000000000000000000000000000000000000000000000000000000000000000000000000000000 (Region.mask (footprint (.cqCoalesceTimer a0))) := (by decide : Sub _ (Region.mask (.out :: .host :: ([]))))
  replace hs := Within.start (m := Region.mask (footprint (.cqCoalesceTimer a0))) hs
  replace h : execCqCoalesceTimer a0 s = .next t := h
  unfold execCqCoalesceTimer at h
  repeat' (first | (cases h; done) | split at h)
  all_goals try cases h
  all_goals repeat' first
    | with_reducible assumption
    | exact Sub.up hm (by decide)
    | exact Sub.bit hm (by decide)
    | with_reducible apply within_finish
    | with_reducible apply within_coalesceEffect

theorem within_exec_hostStall {a0} (hs : Sound s) (h : exec (.hostStall a0) s = .next t) :
    Within (Region.mask (footprint (.hostStall a0))) s t := by
  have hm : Sub 0x4600E00000000000000000000000000000000000000000000000000000000001780000000000000060080000000000008000000000 (Region.mask (footprint (.hostStall a0))) := (by decide : Sub _ (Region.mask (.out :: .host :: (taskParts ++ [.reg .HIF_EVENT, .aqf] ++ [.reg .SLU_STATUS, .reg .REED_VOCAB_STATE, .reg .REED_VOCAB_ERR, .reg .REED_VOCAB_TAG_LO, .reg .REED_VOCAB_TAG_HI, .reg .BSN_EVENT, .free, .basin, .vocabs]))))
  replace hs := Within.start (m := Region.mask (footprint (.hostStall a0))) hs
  replace h : execHostStall a0 s = .next t := h
  unfold execHostStall at h
  repeat' (first | (cases h; done) | split at h)
  all_goals try cases h
  all_goals repeat' first
    | with_reducible assumption
    | exact Sub.up hm (by decide)
    | exact Sub.bit hm (by decide)
    | with_reducible apply within_finish
    | with_reducible apply within_stallEffect

theorem within_exec_queueEnable {a0 a1} (hs : Sound s) (h : exec (.queueEnable a0 a1) s = .next t) :
    Within (Region.mask (footprint (.queueEnable a0 a1))) s t := by
  have hm : Sub 0x1A00000000000000000000000000000000000000000000000000000000000000000000000090300000000000000000000000000 (Region.mask (footprint (.queueEnable a0 a1))) := (by decide : Sub _ (Region.mask (.out :: .host :: (queueParts ++ [.reg .TASK_Q_CTRL, .power]))))
  replace hs := Within.start (m := Region.mask (footprint (.queueEnable a0 a1))) hs
  replace h : execQueueEnable a0 a1 s = .next t := h
  unfold execQueueEnable at h
  repeat' (first | (cases h; done) | split at h)
  all_goals try cases h
  all_goals repeat' first
    | with_reducible assumption
    | exact Sub.up hm (by decide)
    | exact Sub.bit hm (by decide)
    | with_reducible apply within_State_viaReg
    | with_reducible apply within_finish
    | with_reducible apply within_queueCtrl
    | intro _

theorem within_exec_qreset {a0 a1} (hs : Sound s) (h : exec (.qreset a0 a1) s = .next t) :
    Within (Region.mask (footprint (.qreset a0 a1))) s t := by
  have hm : Sub 0x1A00000000000000000000000000000000000000000000000000000000000000000000000090300000000000000000000000000 (Region.mask (footprint (.qreset a0 a1))) := (by decide : Sub _ (Region.mask (.out :: .host :: (queueParts ++ [.reg .TASK_Q_CTRL, .power]))))
  replace hs := Within.start (m := Region.mask (footprint (.qreset a0 a1))) hs
  replace h : execQreset a0 a1 s = .next t := h
  unfold execQreset at h
  repeat' (first | (cases h; done) | split at h)
  all_goals try cases h
  all_goals repeat' first
    | with_reducible assumption
    | exact Sub.up hm (by decide)
    | exact Sub.bit hm (by decide)
    | with_reducible apply within_State_viaReg
    | with_reducible apply within_finish
    | with_reducible apply within_queueCtrl
    | intro _

theorem within_exec_cqHeadWrite {a0 a1} (hs : Sound s) (h : exec (.cqHeadWrite a0 a1) s = .next t) :
    Within (Region.mask (footprint (.cqHeadWrite a0 a1))) s t := by
  have hm : Sub 0x1A000000000000000000000000000000000000000000000000000000000000000000000000B0200000000000000000000000000 (Region.mask (footprint (.cqHeadWrite a0 a1))) := (by decide : Sub _ (Region.mask (.out :: .host :: (queueParts ++ [.reg .TASK_CQ_HEAD, .power]))))
  replace hs := Within.start (m := Region.mask (footprint (.cqHeadWrite a0 a1))) hs
  replace h : execCqHeadWrite a0 a1 s = .next t := h
  unfold execCqHeadWrite at h
  repeat' (first | (cases h; done) | split at h)
  all_goals try cases h
  all_goals repeat' first
    | with_reducible assumption
    | exact Sub.up hm (by decide)
    | exact Sub.bit hm (by decide)
    | with_reducible apply within_State_viaReg
    | with_reducible apply within_finish
    | with_reducible apply within_cqHeadEffect
    | intro _

theorem within_exec_linkRecovery (hs : Sound s) (h : exec (.linkRecovery) s = .next t) :
    Within (Region.mask (footprint .linkRecovery)) s t := by
  have hm : Sub 0x800A00000000000000000000000000000000000000000000000000000000000000000000000000000080000000000000000000000 (Region.mask (footprint (.linkRecovery))) := (by decide : Sub _ (Region.mask (.out :: .host :: ([.reg .HIF_EVENT, .svc]))))
  replace hs := Within.start (m := Region.mask (footprint (.linkRecovery))) hs
  replace h : execLinkRecovery s = .next t := h
  unfold execLinkRecovery at h
  repeat' (first | (cases h; done) | split at h)
  all_goals try cases h
  all_goals repeat' first
    | with_reducible assumption
    | exact Sub.up hm (by decide)
    | exact Sub.bit hm (by decide)
    | with_reducible apply within_finish
    | with_reducible apply within_State_ev
    | with_reducible apply within_State_logFault

theorem within_exec_softReset {a0} (hs : Sound s) (h : exec (.softReset a0) s = .next t) :
    Within (Region.mask (footprint (.softReset a0))) s t := by
  have hm : Sub 0x601A000000000000000000000000000000000000000000000000000000000010000000000000FFFFFFC0000000000008000000000 (Region.mask (footprint (.softReset a0))) := (by decide : Sub _ (Region.mask (.out :: .host :: (functionParts ++ poolParts ++ [.power, .basin, .aqf]))))
  replace hs := Within.start (m := Region.mask (footprint (.softReset a0))) hs
  replace h : execSoftReset a0 s = .next t := h
  unfold execSoftReset at h
  repeat' (first | (cases h; done) | split at h)
  all_goals try cases h
  all_goals repeat' first
    | with_reducible assumption
    | exact Sub.up hm (by decide)
    | exact Sub.bit hm (by decide)
    | with_reducible apply within_State_viaReg
    | with_reducible apply within_finish
    | with_reducible apply within_hifCtrl
    | intro _

theorem within_exec_softDone (hs : Sound s) (h : exec (.softDone) s = .next t) :
    Within (Region.mask (footprint .softDone)) s t := by
  have hm : Sub 0xA000000000000000000000000000000000000000000000000000000000000000000000000000400C0000000000000000000000 (Region.mask (footprint (.softDone))) := (by decide : Sub _ (Region.mask (.out :: .host :: ([.reg .HIF_STATUS, .reg .HIF_EVENT, .reg .TASK_STATUS]))))
  replace hs := Within.start (m := Region.mask (footprint (.softDone))) hs
  replace h : execSoftDone s = .next t := h
  unfold execSoftDone at h
  repeat' (first | (cases h; done) | split at h)
  all_goals try cases h
  all_goals repeat' first
    | with_reducible assumption
    | exact Sub.up hm (by decide)
    | exact Sub.bit hm (by decide)
    | with_reducible apply within_finish
    | with_reducible apply within_softDoneEffect

theorem within_exec_dmaReadTimeout {a0 a1 a2} (hs : Sound s) (h : exec (.dmaReadTimeout a0 a1 a2) s = .next t) :
    Within (Region.mask (footprint (.dmaReadTimeout a0 a1 a2))) s t := by
  have hm : Sub 0x4400E00000000000000000000000000000000000000000000000000000000000780000000000000263880000000000000000000000 (Region.mask (footprint (.dmaReadTimeout a0 a1 a2))) := (by decide : Sub _ (Region.mask (.out :: .host :: (dmaParts ++ [.reg .TASK_Q_STATUS, .aqf] ++ [.reg .REED_VOCAB_STATE, .reg .REED_VOCAB_ERR, .reg .REED_VOCAB_TAG_LO, .reg .REED_VOCAB_TAG_HI, .free, .vocabs]))))
  replace hs := Within.start (m := Region.mask (footprint (.dmaReadTimeout a0 a1 a2))) hs
  replace h : execDmaReadTimeout a0 a1 a2 s = .next t := h
  unfold execDmaReadTimeout at h
  repeat' (first | (cases h; done) | split at h)
  all_goals try cases h
  all_goals repeat' first
    | with_reducible assumption
    | exact Sub.up hm (by decide)
    | exact Sub.bit hm (by decide)
    | with_reducible apply within_finish
    | with_reducible apply within_dmaTimeout

theorem within_exec_pcieLinkUp {a0 a1 a2} (hs : Sound s) (h : exec (.pcieLinkUp a0 a1 a2) s = .next t) :
    Within (Region.mask (footprint (.pcieLinkUp a0 a1 a2))) s t := by
  have hm : Sub 0xA00000000000000000000000000000000000000000000000000000000000000000000000000000040000000000000000000000 (Region.mask (footprint (.pcieLinkUp a0 a1 a2))) := (by decide : Sub _ (Region.mask (.out :: .host :: ([.reg .HIF_STATUS]))))
  replace hs := Within.start (m := Region.mask (footprint (.pcieLinkUp a0 a1 a2))) hs
  replace h : execPcieLinkUp a0 a1 a2 s = .next t := h
  unfold execPcieLinkUp at h
  repeat' (first | (cases h; done) | split at h)
  all_goals try cases h
  all_goals repeat' first
    | with_reducible assumption
    | exact Sub.up hm (by decide)
    | exact Sub.bit hm (by decide)
    | with_reducible apply within_finish
    | with_reducible apply within_linkUpEffect

end Sys2Proof.Machine
end

