-- ==== Sys2Proof/Laws/WithinVocab.lean ====
section
/-! SUPPORT. What the operations of Machine/Vocab.lean can change, and that they keep a state sound. -/
namespace Sys2Proof.Machine

variable {m : Nat} {s₀ : State}

theorem within_State_vocabTake (x : Task) (r : HostRead) {s : State} (hs : Within m s₀ s) (hm : Sub 0x4000E00000000000000000000000000000000000000000000000000000000000780000000000000003880000000000000000000000 m) : Within m s₀ (State.vocabTake s x r) := by
  unfold State.vocabTake
  repeat' first
    | with_reducible assumption
    | exact Sub.up hm (by decide)
    | exact Sub.bit hm (by decide)
    | (intro x; (first | (refine within_cut (m := m) (s₀ := s₀) x ?_ ?_; unfold x; rotate_left; clear_value x; intro hx) | skip))
    | lift_lets -underBinder
    | with_reducible apply within_ite
    | with_reducible apply within_State_setVocab
    | with_reducible apply within_State_showVocab
    | with_reducible apply within_State_vocabFailed
    | with_reducible apply within_State_onSource
    | with_reducible apply within_State_endTask
    | (refine within_of_snd (by assumption) ?_)
    | (refine within_of_fst (by assumption) ?_)
    | (split)
    | (dsimp -zeta only)

theorem within_vocabLoadEffect (t : Nat) (image : HostRead) {s : State} (hs : Within m s₀ s) (hm : Sub 0x4000E00000000000000000000000000000000000000000000000000000000000780000000000000003880000000000000000000000 m) : Within m s₀ (vocabLoadEffect t image s) := by
  unfold vocabLoadEffect
  repeat' first
    | with_reducible assumption
    | exact Sub.up hm (by decide)
    | exact Sub.bit hm (by decide)
    | (intro x; (first | (refine within_cut (m := m) (s₀ := s₀) x ?_ ?_; unfold x; rotate_left; clear_value x; intro hx) | skip))
    | lift_lets -underBinder
    | with_reducible apply within_ite
    | with_reducible apply within_State_endTask
    | with_reducible apply within_State_runTask
    | with_reducible apply within_State_puti
    | with_reducible apply within_State_vocabTake
    | with_reducible apply within_State_modTask
    | (refine within_of_snd (by assumption) ?_)
    | (refine within_of_fst (by assumption) ?_)
    | (split)

theorem within_cacheFillEffect (lane : Nat) (line : Nat) (stall : Nat) (parity : Bool) {s : State} (hs : Within m s₀ s) (hm : Sub 0x800400000000000000000000000000000000000000000000000000000000000000E100000000000000000000000000000000000000 m)  : Within m s₀ (cacheFillEffect lane line stall parity s) := by
  unfold cacheFillEffect
  repeat' first
    | with_reducible assumption
    | exact Sub.up hm (by decide)
    | exact Sub.bit hm (by decide)
    | (intro x; (first | (refine within_cut (m := m) (s₀ := s₀) x ?_ ?_; unfold x; rotate_left; clear_value x; intro hx) | skip))
    | lift_lets -underBinder
    | with_reducible apply within_ite
    | with_reducible apply within_State_evi
    | with_reducible apply within_State_bumpi
    | with_reducible apply within_State_bumpPair
    | with_reducible apply within_State_modStage
    | (refine within_of_snd (by assumption) ?_)
    | (refine within_of_fst (by assumption) ?_)
    | (split)
    | (apply within_mk <;> first | exact Or.inl (by with_reducible rfl) | exact Or.inr (Sub.bit hm (by decide)) | with_reducible rfl | rfl | exact Or.inl rfl | (simp; done) | skip)

end Sys2Proof.Machine
end

