-- ==== Sys2Proof/Laws/ExecVocab.lean ====
section
/-! SUPPORT. Each command of Machine/Vocab.lean changes nothing outside its footprint, and keeps a sound state sound. -/
namespace Sys2Proof.Machine

variable {s t : State}

theorem within_exec_vocabLoad {a0 a1} (hs : Sound s) (h : exec (.vocabLoad a0 a1) s = .next t) :
    Within (Region.mask (footprint (.vocabLoad a0 a1))) s t := by
  have hm : Sub 0x4000E00000000000000000000000000000000000000000000000000000000000780000000000000063880000000000000000000000 (Region.mask (footprint (.vocabLoad a0 a1))) := (by decide : Sub _ (Region.mask (.out :: .host :: (dmaParts ++ [.reg .REED_VOCAB_STATE, .reg .REED_VOCAB_ERR, .reg .REED_VOCAB_TAG_LO, .reg .REED_VOCAB_TAG_HI, .free, .vocabs]))))
  replace hs := Within.start (m := Region.mask (footprint (.vocabLoad a0 a1))) hs
  replace h : execVocabLoad a0 a1 s = .next t := h
  unfold execVocabLoad at h
  repeat' (first | (cases h; done) | split at h)
  all_goals try cases h
  all_goals repeat' first
    | with_reducible assumption
    | exact Sub.up hm (by decide)
    | exact Sub.bit hm (by decide)
    | with_reducible apply within_finish
    | with_reducible apply within_State_showTasks
    | with_reducible apply within_vocabLoadEffect

theorem within_exec_cacheLineFill {a0 a1 a2 a3} (hs : Sound s) (h : exec (.cacheLineFill a0 a1 a2 a3) s = .next t) :
    Within (Region.mask (footprint (.cacheLineFill a0 a1 a2 a3))) s t := by
  have hm : Sub 0x8004E0000000000000000000000000000000000000000000000000000000000000E100000000000000000000000000000000000000 (Region.mask (footprint (.cacheLineFill a0 a1 a2 a3))) := (by decide : Sub _ (Region.mask (.out :: .host :: ([.reg .REED_EVENT, .reg .REED_MISSES, .reg .REED_STALL_LO, .reg .REED_STALL_HI, .rills, .caches, .free]))))
  replace hs := Within.start (m := Region.mask (footprint (.cacheLineFill a0 a1 a2 a3))) hs
  replace h : execCacheLineFill a0 a1 a2 a3 s = .next t := h
  unfold execCacheLineFill at h
  repeat' (first | (cases h; done) | split at h)
  all_goals try cases h
  all_goals repeat' first
    | with_reducible assumption
    | exact Sub.up hm (by decide)
    | exact Sub.bit hm (by decide)
    | with_reducible apply within_finish
    | with_reducible apply within_cacheFillEffect

end Sys2Proof.Machine
end

