-- ==== Sys2Proof/Laws/WithinWake.lean ====
section
/-! SUPPORT. What the operations of Machine/Wake.lean can change, and that they keep a state sound. -/
namespace Sys2Proof.Machine

variable {m : Nat} {s₀ : State}

theorem within_State_dueStart {s : State} (hs : Within m s₀ s) (hm : Sub 0x1600000000000000004200000000000000000000000000000000000000000000000000000000000000000000000000000000000 m)  : Within m s₀ (State.dueStart s) := by
  unfold State.dueStart
  repeat' first
    | with_reducible assumption
    | exact Sub.up hm (by decide)
    | exact Sub.bit hm (by decide)
    | (intro x; (first | (refine within_cut (m := m) (s₀ := s₀) x ?_ ?_; unfold x; rotate_left; clear_value x; intro hx) | skip))
    | lift_lets -underBinder
    | with_reducible apply within_State_put
    | with_reducible apply within_State_modPower
    | with_reducible apply within_State_powerClusters

theorem within_State_restoreWeave {s : State} (hs : Within m s₀ s) (hm : Sub 0x10000000000000000000000000000000000000000000000000000000800000000000000000000000000000000000000000000 m)  : Within m s₀ (State.restoreWeave s) := by
  unfold State.restoreWeave
  repeat' first
    | with_reducible assumption
    | exact Sub.up hm (by decide)
    | exact Sub.bit hm (by decide)
    | intro _
    | with_reducible apply within_State_setOwners
    | with_reducible apply within_State_copyConstants
    | (refine within_of_snd (by assumption) ?_)
    | (refine within_of_fst (by assumption) ?_)
    | (split)

theorem within_State_serveHeld {s : State} (hs : Within m s₀ s) (hm : Sub 0xFFFFFD00000000000FFFFFFFFFFFFFFFFFFFFFFFFFFFFFFFFFFFFFFFFFFFFFFFFFFFFFFFFFFFFFFFFFFFFFFFFFFFFFFFFFFFFFFFFF m)  : Within m s₀ (State.serveHeld s) := by
  unfold State.serveHeld
  repeat' first
    | with_reducible assumption
    | exact Sub.up hm (by decide)
    | exact Sub.bit hm (by decide)
    | exact Sub.reg hm _
    | (intro x; (first | (refine within_cut (m := m) (s₀ := s₀) x ?_ ?_; unfold x; rotate_left; clear_value x; intro hx) | skip))
    | lift_lets -underBinder
    | with_reducible apply within_State_serve
    | with_reducible apply within_State_modPower
    | with_reducible apply within_foldl

theorem within_exitEffect (us : Nat) {s : State} (hs : Within m s₀ s) (hm : Sub 0xFFFFFD00000000000FFFFFFFFFFFFFFFFFFFFFFFFFFFFFFFFFFFFFFFFFFFFFFFFFFFFFFFFFFFFFFFFFFFFFFFFFFFFFFFFFFFFFFFFF m)  : Within m s₀ (exitEffect us s) := by
  unfold exitEffect
  repeat' first
    | with_reducible assumption
    | exact Sub.up hm (by decide)
    | exact Sub.bit hm (by decide)
    | exact Sub.reg hm _
    | (intro x; (first | (refine within_cut (m := m) (s₀ := s₀) x ?_ ?_; unfold x; rotate_left; clear_value x; intro hx) | skip))
    | lift_lets -underBinder
    | with_reducible apply within_ite
    | with_reducible apply within_State_setWord
    | with_reducible apply within_State_put
    | with_reducible apply within_State_ev
    | with_reducible apply within_State_modPower
    | with_reducible apply within_State_setPState
    | with_reducible apply within_State_refill
    | with_reducible apply within_State_dueStart
    | with_reducible apply within_State_restoreWeave
    | with_reducible apply within_State_serveHeld
    | (refine within_of_snd (by assumption) ?_)
    | (refine within_of_fst (by assumption) ?_)
    | (split)

theorem within_State_tickDeficits {s : State} (hs : Within m s₀ s) (hm : Sub 0x300000000000000000000000000000000000000000000000C00000000000 m)  : Within m s₀ (State.tickDeficits s) := by
  unfold State.tickDeficits
  repeat' first
    | with_reducible assumption
    | exact Sub.up hm (by decide)
    | exact Sub.bit hm (by decide)
    | (intro x; (first | (refine within_cut (m := m) (s₀ := s₀) x ?_ ?_; unfold x; rotate_left; clear_value x; intro hx) | skip))
    | lift_lets -underBinder
    | with_reducible apply within_ite
    | with_reducible apply within_State_bumpPair

theorem within_State_drivePin (name : String) (old : Option Bool) (new : Option Bool) {s : State} (hs : Within m s₀ s) (hm : Sub 0x200000000000000000000000000000000000000000000000000000000000000000000000000000000000000000000000000000 m) : Within m s₀ (State.drivePin s name old new) := by
  unfold State.drivePin
  repeat' first
    | with_reducible assumption
    | exact Sub.up hm (by decide)
    | exact Sub.bit hm (by decide)
    | (intro x; (first | (refine within_cut (m := m) (s₀ := s₀) x ?_ ?_; unfold x; rotate_left; clear_value x; intro hx) | skip))
    | lift_lets -underBinder
    | with_reducible apply within_ite
    | with_reducible apply within_State_emit
    | (refine within_of_snd (by assumption) ?_)
    | (refine within_of_fst (by assumption) ?_)
    | (split)
    | (dsimp -zeta only)

theorem within_State_pinEdges {s : State} (t0 : Nat) (t1 : Nat) (hs : Within m s₀ s) (hm : Sub 0x80200000000000000000000000000000000000000000000000000000000000000000000000000000000000000000000000000000 m)  : Within m s₀ (State.pinEdges s t0 t1) := by
  unfold State.pinEdges
  repeat' first
    | with_reducible assumption
    | exact Sub.up hm (by decide)
    | exact Sub.bit hm (by decide)
    | (intro x; (first | (refine within_cut (m := m) (s₀ := s₀) x ?_ ?_; unfold x; rotate_left; clear_value x; intro hx) | skip))
    | lift_lets -underBinder
    | with_reducible apply within_ite
    | with_reducible apply within_State_drivePin
    | (refine within_of_snd (by assumption) ?_)
    | (refine within_of_fst (by assumption) ?_)
    | (split)
    | (apply within_mk <;> first | exact Or.inl (by with_reducible rfl) | exact Or.inr (Sub.bit hm (by decide)) | with_reducible rfl | rfl | exact Or.inl rfl | (simp; done) | skip)

theorem within_State_tickClock {s : State} (hs : Within m s₀ s) (hm : Sub 0x81200000000000000000000000000000000000000000300000000000000000000000000000000000000000000000C00000000000 m)  : Within m s₀ (State.tickClock s) := by
  unfold State.tickClock
  repeat' first
    | with_reducible assumption
    | exact Sub.up hm (by decide)
    | exact Sub.bit hm (by decide)
    | (intro x; (first | (refine within_cut (m := m) (s₀ := s₀) x ?_ ?_; unfold x; rotate_left; clear_value x; intro hx) | skip))
    | lift_lets -underBinder
    | with_reducible apply within_ite
    | with_reducible apply within_State_modPower
    | with_reducible apply within_State_tickTime
    | with_reducible apply within_State_tickDeficits
    | with_reducible apply within_State_pinEdges

end Sys2Proof.Machine
end

