-- ==== Sys2Proof/Laws/ExecWake.lean ====
section
/-! SUPPORT. Each command of Machine/Wake.lean changes nothing outside its footprint, and keeps a sound state sound. -/
namespace Sys2Proof.Machine

variable {s t : State}

theorem within_exec_pExit {a0} (hs : Sound s) (h : exec (.pExit a0) s = .next t) :
    Within (Region.mask (footprint (.pExit a0))) s t := by
  have hm : Sub 0xFFFFFD00000000000FFFFFFFFFFFFFFFFFFFFFFFFFFFFFFFFFFFFFFFFFFFFFFFFFFFFFFFFFFFFFFFFFFFFFFFFFFFFFFFFFFFFFFFFF (Region.mask (footprint (.pExit a0))) := by
    unfold footprint; exact Region.mask_all
  replace hs := Within.start (m := Region.mask (footprint (.pExit a0))) hs
  replace h : execPExit a0 s = .next t := h
  unfold execPExit at h
  repeat' (first | (cases h; done) | split at h)
  all_goals try cases h
  all_goals repeat' first
    | with_reducible assumption
    | exact Sub.up hm (by decide)
    | exact Sub.bit hm (by decide)
    | with_reducible apply within_finish
    | with_reducible apply within_exitEffect

end Sys2Proof.Machine
end

