-- ==== Sys2Proof/Laws/ExecWeir.lean ====
section
/-! SUPPORT. Each command of Machine/Weir.lean changes nothing outside its footprint, and keeps a sound state sound. -/
namespace Sys2Proof.Machine

variable {s t : State}

theorem within_exec_cisternUe {a0} (hs : Sound s) (h : exec (.cisternUe a0) s = .next t) :
    Within (Region.mask (footprint (.cisternUe a0))) s t := by
  have hm : Sub 0x1824E000000000000000000000006060900E0400000010480260010000000000000000000000000000000000000000000000000000 (Region.mask (footprint (.cisternUe a0))) := (by decide : Sub _ (Region.mask (.out :: .host :: (rillFaultParts ++ weirParts ++ ringParts ++ [.reg .WEIR_MISSED]))))
  replace hs := Within.start (m := Region.mask (footprint (.cisternUe a0))) hs
  replace h : execCisternUe a0 s = .next t := h
  unfold execCisternUe at h
  repeat' (first | (cases h; done) | split at h)
  all_goals try cases h
  all_goals repeat' first
    | with_reducible assumption
    | exact Sub.up hm (by decide)
    | exact Sub.bit hm (by decide)
    | with_reducible apply within_finish
    | with_reducible apply within_cisternUeEffect

theorem within_exec_batchEnqueue {a0} (hs : Sound s) (h : exec (.batchEnqueue a0) s = .next t) :
    Within (Region.mask (footprint (.batchEnqueue a0))) s t := by
  have hm : Sub 0x362EE00000000000000000000000000000000000000010480260010200200005000000000000000040080000000004319008020000 (Region.mask (footprint (.batchEnqueue a0))) := (by decide : Sub _ (Region.mask (.out :: .host :: (planParts ++ weirParts ++ ringParts ++ poolParts ++ [.reg .PBL_BLOCKS, .reg .WEIR_MISSED, .aqf] ++ [.reg .PBL_STATUS, .pebble] ++ [.reg .BSN_NONE]))))
  replace hs := Within.start (m := Region.mask (footprint (.batchEnqueue a0))) hs
  replace h : execBatchEnqueue a0 s = .next t := h
  unfold execBatchEnqueue at h
  repeat' (first | (cases h; done) | split at h)
  all_goals try cases h
  all_goals repeat' first
    | with_reducible assumption
    | exact Sub.up hm (by decide)
    | exact Sub.bit hm (by decide)
    | with_reducible apply within_finish
    | with_reducible apply within_enqueueEffect

theorem within_exec_frameSlot {a0} (hs : Sound s) (h : exec (.frameSlot a0) s = .next t) :
    Within (Region.mask (footprint (.frameSlot a0))) s t := by
  have hm : Sub 0x1030E00000000000000000000000604000000000000000800220310000000000000000000000000000000000000000000000000004 (Region.mask (footprint (.frameSlot a0))) := (by decide : Sub _ (Region.mask (.out :: .host :: (traceParts ++ weirParts ++ [.reg .MIR_FILL, .reg .SPT_TX_FRAMES_LO, .reg .SPT_TX_FRAMES_HI, .reg .WEIR_RESENT, .mirror]))))
  replace hs := Within.start (m := Region.mask (footprint (.frameSlot a0))) hs
  replace h : execFrameSlot a0 s = .next t := h
  unfold execFrameSlot at h
  repeat' (first | (cases h; done) | split at h)
  all_goals try cases h
  all_goals repeat' first
    | with_reducible assumption
    | exact Sub.up hm (by decide)
    | exact Sub.bit hm (by decide)
    | with_reducible apply within_finish
    | with_reducible apply within_frameSlotEffect

theorem within_exec_shaperRefill (hs : Sound s) (h : exec (.shaperRefill) s = .next t) :
    Within (Region.mask (footprint .shaperRefill)) s t := by
  have hm : Sub 0x20E00000000000000000000000000000000000000000000000000000000000000000000000000000000000000000000000000000 (Region.mask (footprint (.shaperRefill))) := (by decide : Sub _ (Region.mask (.out :: .host :: ([.free, .weir]))))
  replace hs := Within.start (m := Region.mask (footprint (.shaperRefill))) hs
  replace h : execShaperRefill s = .next t := h
  unfold execShaperRefill at h
  repeat' (first | (cases h; done) | split at h)
  all_goals try cases h
  all_goals repeat' first
    | with_reducible assumption
    | exact Sub.up hm (by decide)
    | exact Sub.bit hm (by decide)
    | with_reducible apply within_finish
    | with_reducible apply within_shaperEffect

theorem within_exec_tableRead {a0} (hs : Sound s) (h : exec (.tableRead a0) s = .next t) :
    Within (Region.mask (footprint (.tableRead a0))) s t := by
  have hm : Sub 0x21E00000000000000000000000000000000000000000000E60030000000000000000000000000000000000000000000000000000 (Region.mask (footprint (.tableRead a0))) := (by decide : Sub _ (Region.mask (.out :: .host :: (weirParts ++ [.reg .WEIR_EVENT, .reg .WEIR_TBL_CTRL, .reg .WEIR_TBL_DATA, .power] ++ [.reg .SPT_EVENT]))))
  replace hs := Within.start (m := Region.mask (footprint (.tableRead a0))) hs
  replace h : execTableRead a0 s = .next t := h
  unfold execTableRead at h
  repeat' (first | (cases h; done) | split at h)
  all_goals try cases h
  all_goals repeat' first
    | with_reducible assumption
    | exact Sub.up hm (by decide)
    | exact Sub.bit hm (by decide)
    | with_reducible apply within_State_viaReg
    | with_reducible apply within_finish
    | with_reducible apply within_tblCtrl
    | intro _

theorem within_exec_tableWrite {a0} (hs : Sound s) (h : exec (.tableWrite a0) s = .next t) :
    Within (Region.mask (footprint (.tableWrite a0))) s t := by
  have hm : Sub 0x21E00000000000000000000000000000000000000000000E60030000000000000000000000000000000000000000000000000000 (Region.mask (footprint (.tableWrite a0))) := (by decide : Sub _ (Region.mask (.out :: .host :: (weirParts ++ [.reg .WEIR_EVENT, .reg .WEIR_TBL_CTRL, .reg .WEIR_TBL_DATA, .power] ++ [.reg .SPT_EVENT]))))
  replace hs := Within.start (m := Region.mask (footprint (.tableWrite a0))) hs
  replace h : execTableWrite a0 s = .next t := h
  unfold execTableWrite at h
  repeat' (first | (cases h; done) | split at h)
  all_goals try cases h
  all_goals repeat' first
    | with_reducible assumption
    | exact Sub.up hm (by decide)
    | exact Sub.bit hm (by decide)
    | with_reducible apply within_State_viaReg
    | with_reducible apply within_finish
    | with_reducible apply within_tblCtrl
    | intro _

theorem within_exec_stallLimit {a0} (hs : Sound s) (h : exec (.stallLimit a0) s = .next t) :
    Within (Region.mask (footprint (.stallLimit a0))) s t := by
  have hm : Sub 0x20E00000000000000000000000000000000000000010080260030000000000000000000000000000000000000000000000000000 (Region.mask (footprint (.stallLimit a0))) := (by decide : Sub _ (Region.mask (.out :: .host :: (weirParts ++ ringParts ++ [.reg .SPT_EVENT]))))
  replace hs := Within.start (m := Region.mask (footprint (.stallLimit a0))) hs
  replace h : execStallLimit a0 s = .next t := h
  unfold execStallLimit at h
  repeat' (first | (cases h; done) | split at h)
  all_goals try cases h
  all_goals repeat' first
    | with_reducible assumption
    | exact Sub.up hm (by decide)
    | exact Sub.bit hm (by decide)
    | with_reducible apply within_finish
    | with_reducible apply within_stallEffect'

theorem within_exec_memberReady {a0} (hs : Sound s) (h : exec (.memberReady a0) s = .next t) :
    Within (Region.mask (footprint (.memberReady a0))) s t := by
  have hm : Sub 0x20E00000000000000000000000000000000000000000000220010000000000000000000000000000000000000000000000000000 (Region.mask (footprint (.memberReady a0))) := (by decide : Sub _ (Region.mask (.out :: .host :: (weirParts))))
  replace hs := Within.start (m := Region.mask (footprint (.memberReady a0))) hs
  replace h : execMemberReady a0 s = .next t := h
  unfold execMemberReady at h
  repeat' (first | (cases h; done) | split at h)
  all_goals try cases h
  all_goals repeat' first
    | with_reducible assumption
    | exact Sub.up hm (by decide)
    | exact Sub.bit hm (by decide)
    | with_reducible apply within_finish
    | with_reducible apply within_memberReadyEffect

theorem within_exec_resend {a0} (hs : Sound s) (h : exec (.resend a0) s = .next t) :
    Within (Region.mask (footprint (.resend a0))) s t := by
  have hm : Sub 0x21E00000000000000000000000000000000000000000002260010000000000000000000000000000000000000000000000000000 (Region.mask (footprint (.resend a0))) := (by decide : Sub _ (Region.mask (.out :: .host :: (weirParts ++ [.reg .WEIR_EVENT, .reg .WEIR_RESEND, .power]))))
  replace hs := Within.start (m := Region.mask (footprint (.resend a0))) hs
  replace h : execResend a0 s = .next t := h
  unfold execResend at h
  repeat' (first | (cases h; done) | split at h)
  all_goals try cases h
  all_goals repeat' first
    | with_reducible assumption
    | exact Sub.up hm (by decide)
    | exact Sub.bit hm (by decide)
    | with_reducible apply within_State_viaReg
    | with_reducible apply within_finish
    | with_reducible apply within_resendCtrl
    | intro _

theorem within_exec_replayHoldExpire {a0} (hs : Sound s) (h : exec (.replayHoldExpire a0) s = .next t) :
    Within (Region.mask (footprint (.replayHoldExpire a0))) s t := by
  have hm : Sub 0x20E00000000000000000000000000000000000000010480260010000000000000000000000000000000000000000000000000000 (Region.mask (footprint (.replayHoldExpire a0))) := (by decide : Sub _ (Region.mask (.out :: .host :: (weirParts ++ ringParts ++ [.reg .WEIR_MISSED]))))
  replace hs := Within.start (m := Region.mask (footprint (.replayHoldExpire a0))) hs
  replace h : execReplayHoldExpire a0 s = .next t := h
  unfold execReplayHoldExpire at h
  repeat' (first | (cases h; done) | split at h)
  all_goals try cases h
  all_goals repeat' first
    | with_reducible assumption
    | exact Sub.up hm (by decide)
    | exact Sub.bit hm (by decide)
    | with_reducible apply within_finish
    | with_reducible apply within_holdExpireEffect

theorem within_exec_crHeadWrite {a0} (hs : Sound s) (h : exec (.crHeadWrite a0) s = .next t) :
    Within (Region.mask (footprint (.crHeadWrite a0))) s t := by
  have hm : Sub 0x21A000000000000000000000000000000000000000000C0020000000000000000000000000000000000000000000000000000000 (Region.mask (footprint (.crHeadWrite a0))) := (by decide : Sub _ (Region.mask (.out :: .host :: ([.reg .WEIR_STATUS, .reg .WEIR_CR_HEAD, .reg .WEIR_CR_TAIL, .power, .weir]))))
  replace hs := Within.start (m := Region.mask (footprint (.crHeadWrite a0))) hs
  replace h : execCrHeadWrite a0 s = .next t := h
  unfold execCrHeadWrite at h
  repeat' (first | (cases h; done) | split at h)
  all_goals try cases h
  all_goals repeat' first
    | with_reducible assumption
    | exact Sub.up hm (by decide)
    | exact Sub.bit hm (by decide)
    | with_reducible apply within_State_viaReg
    | with_reducible apply within_finish
    | with_reducible apply within_crHeadEffect
    | intro _

end Sys2Proof.Machine
end

