-- ==== Sys2Proof/Laws/Frames.lean ====
section
/-! SUPPORT. What the shared operations keep: the components and the registers that each leaves as they were. -/
namespace Sys2Proof.Machine
variable (s : State)

set_option linter.unusedSimpArgs false

theorem State.logFault_mod (row cause inst step : Nat) : ∃ l, s.logFault row cause inst step = s.modSvc (fun v => { v with log := l }) := ⟨_, rfl⟩
theorem State.word_emit (o : Out) (r : Reg) (i : Nat) : (s.emit o).word r i = s.word r i := (rfl)
theorem State.word_dbg (d : DebugSt) (r : Reg) (i : Nat) : State.word { s with dbg := d } r i = s.word r i := (rfl)
@[simp] theorem State.traceRecord_pending (event unit arg0 arg1 arg2 : Nat) : (s.traceRecord event unit arg0 arg1 arg2).pending = s.pending := by unfold State.traceRecord; dsimp only; repeat' split <;> simp
@[simp] theorem State.traceRecord_sel (event unit arg0 arg1 arg2 : Nat) : (s.traceRecord event unit arg0 arg1 arg2).sel = s.sel := by unfold State.traceRecord; dsimp only; repeat' split <;> simp
@[simp] theorem State.traceRecord_latched (event unit arg0 arg1 arg2 : Nat) : (s.traceRecord event unit arg0 arg1 arg2).latched = s.latched := by unfold State.traceRecord; dsimp only; repeat' split <;> simp
@[simp] theorem State.traceRecord_staged (event unit arg0 arg1 arg2 : Nat) : (s.traceRecord event unit arg0 arg1 arg2).staged = s.staged := by unfold State.traceRecord; dsimp only; repeat' split <;> simp
@[simp] theorem State.traceRecord_host (event unit arg0 arg1 arg2 : Nat) : (s.traceRecord event unit arg0 arg1 arg2).host = s.host := by unfold State.traceRecord; dsimp only; repeat' split <;> simp
@[simp] theorem State.traceRecord_power (event unit arg0 arg1 arg2 : Nat) : (s.traceRecord event unit arg0 arg1 arg2).power = s.power := by unfold State.traceRecord; dsimp only; repeat' split <;> simp
@[simp] theorem State.traceRecord_reservoir (event unit arg0 arg1 arg2 : Nat) : (s.traceRecord event unit arg0 arg1 arg2).reservoir = s.reservoir := by unfold State.traceRecord; dsimp only; repeat' split <;> simp
@[simp] theorem State.traceRecord_cascade (event unit arg0 arg1 arg2 : Nat) : (s.traceRecord event unit arg0 arg1 arg2).cascade = s.cascade := by unfold State.traceRecord; dsimp only; repeat' split <;> simp
@[simp] theorem State.traceRecord_rills (event unit arg0 arg1 arg2 : Nat) : (s.traceRecord event unit arg0 arg1 arg2).rills = s.rills := by unfold State.traceRecord; dsimp only; repeat' split <;> simp
@[simp] theorem State.traceRecord_sluice (event unit arg0 arg1 arg2 : Nat) : (s.traceRecord event unit arg0 arg1 arg2).sluice = s.sluice := by unfold State.traceRecord; dsimp only; repeat' split <;> simp
@[simp] theorem State.traceRecord_mirror (event unit arg0 arg1 arg2 : Nat) : (s.traceRecord event unit arg0 arg1 arg2).mirror = s.mirror := by unfold State.traceRecord; dsimp only; repeat' split <;> simp
@[simp] theorem State.traceRecord_weir (event unit arg0 arg1 arg2 : Nat) : (s.traceRecord event unit arg0 arg1 arg2).weir = s.weir := by unfold State.traceRecord; dsimp only; repeat' split <;> simp
@[simp] theorem State.traceRecord_lock (event unit arg0 arg1 arg2 : Nat) : (s.traceRecord event unit arg0 arg1 arg2).lock = s.lock := by unfold State.traceRecord; dsimp only; repeat' split <;> simp
@[simp] theorem State.traceRecord_sundial (event unit arg0 arg1 arg2 : Nat) : (s.traceRecord event unit arg0 arg1 arg2).sundial = s.sundial := by unfold State.traceRecord; dsimp only; repeat' split <;> simp
@[simp] theorem State.traceRecord_inlets (event unit arg0 arg1 arg2 : Nat) : (s.traceRecord event unit arg0 arg1 arg2).inlets = s.inlets := by unfold State.traceRecord; dsimp only; repeat' split <;> simp
@[simp] theorem State.traceRecord_basin (event unit arg0 arg1 arg2 : Nat) : (s.traceRecord event unit arg0 arg1 arg2).basin = s.basin := by unfold State.traceRecord; dsimp only; repeat' split <;> simp
@[simp] theorem State.traceRecord_aqf (event unit arg0 arg1 arg2 : Nat) : (s.traceRecord event unit arg0 arg1 arg2).aqf = s.aqf := by unfold State.traceRecord; dsimp only; repeat' split <;> simp
@[simp] theorem State.traceRecord_svc (event unit arg0 arg1 arg2 : Nat) : (s.traceRecord event unit arg0 arg1 arg2).svc = s.svc := by unfold State.traceRecord; dsimp only; repeat' split <;> simp
@[simp] theorem State.traceRecord_pebble (event unit arg0 arg1 arg2 : Nat) : (s.traceRecord event unit arg0 arg1 arg2).pebble = s.pebble := by unfold State.traceRecord; dsimp only; repeat' split <;> simp
@[simp] theorem State.traceRecord_vocabs (event unit arg0 arg1 arg2 : Nat) : (s.traceRecord event unit arg0 arg1 arg2).vocabs = s.vocabs := by unfold State.traceRecord; dsimp only; repeat' split <;> simp
@[simp] theorem State.traceRecord_caches (event unit arg0 arg1 arg2 : Nat) : (s.traceRecord event unit arg0 arg1 arg2).caches = s.caches := by unfold State.traceRecord; dsimp only; repeat' split <;> simp
@[simp] theorem State.traceRecord_rdByte (event unit arg0 arg1 arg2 : Nat) (a : Nat) : (s.traceRecord event unit arg0 arg1 arg2).rdByte a = s.rdByte a := by simp only [State.rdByte, State.traceRecord_basin, State.traceRecord_reservoir]
theorem State.traceRecord_word (event unit arg0 arg1 arg2 : Nat) (r : Reg) (i : Nat) (h : r ≠ .DBG_TRACE_LOST ∧ r ≠ .DBG_EVENT ∧ r ≠ .DBG_TRACE_PTR) (hj : i < 131072) : (s.traceRecord event unit arg0 arg1 arg2).word r i = s.word r i := by
  unfold State.traceRecord; dsimp only; repeat' split <;> first | rfl | simp only [State.put, State.ev, State.putb, State.puti, State.bump, State.bumpi, State.putPair, State.word_emit, State.word_dbg, State.fresh_word, DBG_TRACE_LOST.COUNT, DBG_EVENT.TRACE_OVF, State.word_setWord_of_reg _ _ r _ _ _ (h.1) hj, State.word_setWord_of_reg _ _ r _ _ _ (h.2.1) hj, State.word_setWord_of_reg _ _ r _ _ _ (h.2.2) hj]
theorem State.traceRecord_geti (event unit arg0 arg1 arg2 : Nat) (g : Fld) (i : Nat) (h : g.reg ≠ .DBG_TRACE_LOST ∧ g.reg ≠ .DBG_EVENT ∧ g.reg ≠ .DBG_TRACE_PTR) (hj : i < 131072) : (s.traceRecord event unit arg0 arg1 arg2).geti g i = s.geti g i :=
  congrArg g.get (State.traceRecord_word s _ _ _ _ _ _ _ h hj)
@[simp] theorem State.trace_pending (event unit arg0 arg1 arg2 : Nat) : (s.trace event unit arg0 arg1 arg2).pending = s.pending := by unfold State.trace; split <;> simp
@[simp] theorem State.trace_sel (event unit arg0 arg1 arg2 : Nat) : (s.trace event unit arg0 arg1 arg2).sel = s.sel := by unfold State.trace; split <;> simp
@[simp] theorem State.trace_latched (event unit arg0 arg1 arg2 : Nat) : (s.trace event unit arg0 arg1 arg2).latched = s.latched := by unfold State.trace; split <;> simp
@[simp] theorem State.trace_staged (event unit arg0 arg1 arg2 : Nat) : (s.trace event unit arg0 arg1 arg2).staged = s.staged := by unfold State.trace; split <;> simp
@[simp] theorem State.trace_host (event unit arg0 arg1 arg2 : Nat) : (s.trace event unit arg0 arg1 arg2).host = s.host := by unfold State.trace; split <;> simp
@[simp] theorem State.trace_power (event unit arg0 arg1 arg2 : Nat) : (s.trace event unit arg0 arg1 arg2).power = s.power := by unfold State.trace; split <;> simp
@[simp] theorem State.trace_reservoir (event unit arg0 arg1 arg2 : Nat) : (s.trace event unit arg0 arg1 arg2).reservoir = s.reservoir := by unfold State.trace; split <;> simp
@[simp] theorem State.trace_cascade (event unit arg0 arg1 arg2 : Nat) : (s.trace event unit arg0 arg1 arg2).cascade = s.cascade := by unfold State.trace; split <;> simp
@[simp] theorem State.trace_rills (event unit arg0 arg1 arg2 : Nat) : (s.trace event unit arg0 arg1 arg2).rills = s.rills := by unfold State.trace; split <;> simp
@[simp] theorem State.trace_sluice (event unit arg0 arg1 arg2 : Nat) : (s.trace event unit arg0 arg1 arg2).sluice = s.sluice := by unfold State.trace; split <;> simp
@[simp] theorem State.trace_mirror (event unit arg0 arg1 arg2 : Nat) : (s.trace event unit arg0 arg1 arg2).mirror = s.mirror := by unfold State.trace; split <;> simp
@[simp] theorem State.trace_weir (event unit arg0 arg1 arg2 : Nat) : (s.trace event unit arg0 arg1 arg2).weir = s.weir := by unfold State.trace; split <;> simp
@[simp] theorem State.trace_lock (event unit arg0 arg1 arg2 : Nat) : (s.trace event unit arg0 arg1 arg2).lock = s.lock := by unfold State.trace; split <;> simp
@[simp] theorem State.trace_sundial (event unit arg0 arg1 arg2 : Nat) : (s.trace event unit arg0 arg1 arg2).sundial = s.sundial := by unfold State.trace; split <;> simp
@[simp] theorem State.trace_inlets (event unit arg0 arg1 arg2 : Nat) : (s.trace event unit arg0 arg1 arg2).inlets = s.inlets := by unfold State.trace; split <;> simp
@[simp] theorem State.trace_basin (event unit arg0 arg1 arg2 : Nat) : (s.trace event unit arg0 arg1 arg2).basin = s.basin := by unfold State.trace; split <;> simp
@[simp] theorem State.trace_aqf (event unit arg0 arg1 arg2 : Nat) : (s.trace event unit arg0 arg1 arg2).aqf = s.aqf := by unfold State.trace; split <;> simp
@[simp] theorem State.trace_svc (event unit arg0 arg1 arg2 : Nat) : (s.trace event unit arg0 arg1 arg2).svc = s.svc := by unfold State.trace; split <;> simp
@[simp] theorem State.trace_pebble (event unit arg0 arg1 arg2 : Nat) : (s.trace event unit arg0 arg1 arg2).pebble = s.pebble := by unfold State.trace; split <;> simp
@[simp] theorem State.trace_vocabs (event unit arg0 arg1 arg2 : Nat) : (s.trace event unit arg0 arg1 arg2).vocabs = s.vocabs := by unfold State.trace; split <;> simp
@[simp] theorem State.trace_caches (event unit arg0 arg1 arg2 : Nat) : (s.trace event unit arg0 arg1 arg2).caches = s.caches := by unfold State.trace; split <;> simp
@[simp] theorem State.trace_rdByte (event unit arg0 arg1 arg2 : Nat) (a : Nat) : (s.trace event unit arg0 arg1 arg2).rdByte a = s.rdByte a := by simp only [State.rdByte, State.trace_basin, State.trace_reservoir]
theorem State.trace_word (event unit arg0 arg1 arg2 : Nat) (r : Reg) (i : Nat) (h : r ≠ .DBG_TRACE_LOST ∧ r ≠ .DBG_EVENT ∧ r ≠ .DBG_TRACE_PTR) (hj : i < 131072) : (s.trace event unit arg0 arg1 arg2).word r i = s.word r i := by
  unfold State.trace; split <;> first | rfl | first | rfl | exact State.traceRecord_word _ _ _ _ _ _ _ _ h hj
theorem State.trace_geti (event unit arg0 arg1 arg2 : Nat) (g : Fld) (i : Nat) (h : g.reg ≠ .DBG_TRACE_LOST ∧ g.reg ≠ .DBG_EVENT ∧ g.reg ≠ .DBG_TRACE_PTR) (hj : i < 131072) : (s.trace event unit arg0 arg1 arg2).geti g i = s.geti g i :=
  congrArg g.get (State.trace_word s _ _ _ _ _ _ _ h hj)
@[simp] theorem State.logFault_pending (row cause inst step : Nat) : (s.logFault row cause inst step).pending = s.pending := by obtain ⟨l, e⟩ := State.logFault_mod s row cause inst step; rw [e]; rfl
@[simp] theorem State.logFault_regs (row cause inst step : Nat) : (s.logFault row cause inst step).regs = s.regs := by obtain ⟨l, e⟩ := State.logFault_mod s row cause inst step; rw [e]; rfl
@[simp] theorem State.logFault_sel (row cause inst step : Nat) : (s.logFault row cause inst step).sel = s.sel := by obtain ⟨l, e⟩ := State.logFault_mod s row cause inst step; rw [e]; rfl
@[simp] theorem State.logFault_latched (row cause inst step : Nat) : (s.logFault row cause inst step).latched = s.latched := by obtain ⟨l, e⟩ := State.logFault_mod s row cause inst step; rw [e]; rfl
@[simp] theorem State.logFault_staged (row cause inst step : Nat) : (s.logFault row cause inst step).staged = s.staged := by obtain ⟨l, e⟩ := State.logFault_mod s row cause inst step; rw [e]; rfl
@[simp] theorem State.logFault_out (row cause inst step : Nat) : (s.logFault row cause inst step).out = s.out := by obtain ⟨l, e⟩ := State.logFault_mod s row cause inst step; rw [e]; rfl
@[simp] theorem State.logFault_free (row cause inst step : Nat) : (s.logFault row cause inst step).free = s.free := by obtain ⟨l, e⟩ := State.logFault_mod s row cause inst step; rw [e]; rfl
@[simp] theorem State.logFault_host (row cause inst step : Nat) : (s.logFault row cause inst step).host = s.host := by obtain ⟨l, e⟩ := State.logFault_mod s row cause inst step; rw [e]; rfl
@[simp] theorem State.logFault_power (row cause inst step : Nat) : (s.logFault row cause inst step).power = s.power := by obtain ⟨l, e⟩ := State.logFault_mod s row cause inst step; rw [e]; rfl
@[simp] theorem State.logFault_reservoir (row cause inst step : Nat) : (s.logFault row cause inst step).reservoir = s.reservoir := by obtain ⟨l, e⟩ := State.logFault_mod s row cause inst step; rw [e]; rfl
@[simp] theorem State.logFault_cascade (row cause inst step : Nat) : (s.logFault row cause inst step).cascade = s.cascade := by obtain ⟨l, e⟩ := State.logFault_mod s row cause inst step; rw [e]; rfl
@[simp] theorem State.logFault_rills (row cause inst step : Nat) : (s.logFault row cause inst step).rills = s.rills := by obtain ⟨l, e⟩ := State.logFault_mod s row cause inst step; rw [e]; rfl
@[simp] theorem State.logFault_sluice (row cause inst step : Nat) : (s.logFault row cause inst step).sluice = s.sluice := by obtain ⟨l, e⟩ := State.logFault_mod s row cause inst step; rw [e]; rfl
@[simp] theorem State.logFault_mirror (row cause inst step : Nat) : (s.logFault row cause inst step).mirror = s.mirror := by obtain ⟨l, e⟩ := State.logFault_mod s row cause inst step; rw [e]; rfl
@[simp] theorem State.logFault_weir (row cause inst step : Nat) : (s.logFault row cause inst step).weir = s.weir := by obtain ⟨l, e⟩ := State.logFault_mod s row cause inst step; rw [e]; rfl
@[simp] theorem State.logFault_lock (row cause inst step : Nat) : (s.logFault row cause inst step).lock = s.lock := by obtain ⟨l, e⟩ := State.logFault_mod s row cause inst step; rw [e]; rfl
@[simp] theorem State.logFault_sundial (row cause inst step : Nat) : (s.logFault row cause inst step).sundial = s.sundial := by obtain ⟨l, e⟩ := State.logFault_mod s row cause inst step; rw [e]; rfl
@[simp] theorem State.logFault_inlets (row cause inst step : Nat) : (s.logFault row cause inst step).inlets = s.inlets := by obtain ⟨l, e⟩ := State.logFault_mod s row cause inst step; rw [e]; rfl
@[simp] theorem State.logFault_basin (row cause inst step : Nat) : (s.logFault row cause inst step).basin = s.basin := by obtain ⟨l, e⟩ := State.logFault_mod s row cause inst step; rw [e]; rfl
@[simp] theorem State.logFault_aqf (row cause inst step : Nat) : (s.logFault row cause inst step).aqf = s.aqf := by obtain ⟨l, e⟩ := State.logFault_mod s row cause inst step; rw [e]; rfl
@[simp] theorem State.logFault_dbg (row cause inst step : Nat) : (s.logFault row cause inst step).dbg = s.dbg := by obtain ⟨l, e⟩ := State.logFault_mod s row cause inst step; rw [e]; rfl
@[simp] theorem State.logFault_pebble (row cause inst step : Nat) : (s.logFault row cause inst step).pebble = s.pebble := by obtain ⟨l, e⟩ := State.logFault_mod s row cause inst step; rw [e]; rfl
@[simp] theorem State.logFault_vocabs (row cause inst step : Nat) : (s.logFault row cause inst step).vocabs = s.vocabs := by obtain ⟨l, e⟩ := State.logFault_mod s row cause inst step; rw [e]; rfl
@[simp] theorem State.logFault_caches (row cause inst step : Nat) : (s.logFault row cause inst step).caches = s.caches := by obtain ⟨l, e⟩ := State.logFault_mod s row cause inst step; rw [e]; rfl
@[simp] theorem State.logFault_rdByte (row cause inst step : Nat) (a : Nat) : (s.logFault row cause inst step).rdByte a = s.rdByte a := by simp only [State.rdByte, State.logFault_basin, State.logFault_reservoir]
@[simp] theorem State.logFault_word (row cause inst step : Nat) (r : Reg) (i : Nat) : (s.logFault row cause inst step).word r i = s.word r i := by obtain ⟨l, e⟩ := State.logFault_mod s row cause inst step; rw [e]; rfl
@[simp] theorem State.logFault_geti (row cause inst step : Nat) (f : Fld) (i : Nat) : (s.logFault row cause inst step).geti f i = s.geti f i := by obtain ⟨l, e⟩ := State.logFault_mod s row cause inst step; rw [e]; rfl
@[simp] theorem State.showTasks_pending  : (s.showTasks).pending = s.pending := by simp only [State.showTasks] <;> simp
@[simp] theorem State.showTasks_sel  : (s.showTasks).sel = s.sel := by simp only [State.showTasks] <;> simp
@[simp] theorem State.showTasks_latched  : (s.showTasks).latched = s.latched := by simp only [State.showTasks] <;> simp
@[simp] theorem State.showTasks_staged  : (s.showTasks).staged = s.staged := by simp only [State.showTasks] <;> simp
@[simp] theorem State.showTasks_out  : (s.showTasks).out = s.out := by simp only [State.showTasks] <;> simp
@[simp] theorem State.showTasks_free  : (s.showTasks).free = s.free := by simp only [State.showTasks] <;> simp
@[simp] theorem State.showTasks_host  : (s.showTasks).host = s.host := by simp only [State.showTasks] <;> simp
@[simp] theorem State.showTasks_power  : (s.showTasks).power = s.power := by simp only [State.showTasks] <;> simp
@[simp] theorem State.showTasks_reservoir  : (s.showTasks).reservoir = s.reservoir := by simp only [State.showTasks] <;> simp
@[simp] theorem State.showTasks_cascade  : (s.showTasks).cascade = s.cascade := by simp only [State.showTasks] <;> simp
@[simp] theorem State.showTasks_rills  : (s.showTasks).rills = s.rills := by simp only [State.showTasks] <;> simp
@[simp] theorem State.showTasks_sluice  : (s.showTasks).sluice = s.sluice := by simp only [State.showTasks] <;> simp
@[simp] theorem State.showTasks_mirror  : (s.showTasks).mirror = s.mirror := by simp only [State.showTasks] <;> simp
@[simp] theorem State.showTasks_weir  : (s.showTasks).weir = s.weir := by simp only [State.showTasks] <;> simp
@[simp] theorem State.showTasks_lock  : (s.showTasks).lock = s.lock := by simp only [State.showTasks] <;> simp
@[simp] theorem State.showTasks_sundial  : (s.showTasks).sundial = s.sundial := by simp only [State.showTasks] <;> simp
@[simp] theorem State.showTasks_inlets  : (s.showTasks).inlets = s.inlets := by simp only [State.showTasks] <;> simp
@[simp] theorem State.showTasks_basin  : (s.showTasks).basin = s.basin := by simp only [State.showTasks] <;> simp
@[simp] theorem State.showTasks_aqf  : (s.showTasks).aqf = s.aqf := by simp only [State.showTasks] <;> simp
@[simp] theorem State.showTasks_svc  : (s.showTasks).svc = s.svc := by simp only [State.showTasks] <;> simp
@[simp] theorem State.showTasks_dbg  : (s.showTasks).dbg = s.dbg := by simp only [State.showTasks] <;> simp
@[simp] theorem State.showTasks_pebble  : (s.showTasks).pebble = s.pebble := by simp only [State.showTasks] <;> simp
@[simp] theorem State.showTasks_vocabs  : (s.showTasks).vocabs = s.vocabs := by simp only [State.showTasks] <;> simp
@[simp] theorem State.showTasks_caches  : (s.showTasks).caches = s.caches := by simp only [State.showTasks] <;> simp
@[simp] theorem State.showTasks_rdByte  (a : Nat) : (s.showTasks).rdByte a = s.rdByte a := by simp only [State.rdByte, State.showTasks_basin, State.showTasks_reservoir]
theorem State.showTasks_word  (r : Reg) (i : Nat) (h : r ≠ .TASK_STATUS ∧ r ≠ .HIF_LOCKS) (hj : i < 131072) : (s.showTasks).word r i = s.word r i := by
  simp only [State.showTasks] <;> first | rfl | simp only [State.put, State.ev, State.putb, State.puti, State.bump, State.bumpi, State.putPair, State.word_emit, State.word_dbg, State.fresh_word, TASK_STATUS.INFLIGHT, HIF_LOCKS.USED, HIF_LOCKS.HIGH, State.word_setWord_of_reg _ _ r _ _ _ (h.1) hj, State.word_setWord_of_reg _ _ r _ _ _ (h.2) hj]
theorem State.showTasks_geti  (g : Fld) (i : Nat) (h : g.reg ≠ .TASK_STATUS ∧ g.reg ≠ .HIF_LOCKS) (hj : i < 131072) : (s.showTasks).geti g i = s.geti g i :=
  congrArg g.get (State.showTasks_word s _ _ h hj)
/-- A read's report changes the outputs alone. -/
theorem State.reportRead_eq (reason : Nat) : ∃ l, s.reportRead reason = { s with out := l } := by
  unfold State.reportRead
  repeat' split
  all_goals exact ⟨_, rfl⟩
theorem State.word_out (o : List Out) (r : Reg) (i : Nat) : State.word { s with out := o } r i = s.word r i := (rfl)
@[simp] theorem State.dmaError_pending (addr q tag reason : Nat) : (s.dmaError addr q tag reason).pending = s.pending := by obtain ⟨l, h⟩ := s.reportRead_eq reason; unfold State.dmaError; rw [h]; dsimp only; split <;> simp
@[simp] theorem State.dmaError_sel (addr q tag reason : Nat) : (s.dmaError addr q tag reason).sel = s.sel := by obtain ⟨l, h⟩ := s.reportRead_eq reason; unfold State.dmaError; rw [h]; dsimp only; split <;> simp
@[simp] theorem State.dmaError_latched (addr q tag reason : Nat) : (s.dmaError addr q tag reason).latched = s.latched := by obtain ⟨l, h⟩ := s.reportRead_eq reason; unfold State.dmaError; rw [h]; dsimp only; split <;> simp
@[simp] theorem State.dmaError_staged (addr q tag reason : Nat) : (s.dmaError addr q tag reason).staged = s.staged := by obtain ⟨l, h⟩ := s.reportRead_eq reason; unfold State.dmaError; rw [h]; dsimp only; split <;> simp
@[simp] theorem State.dmaError_free (addr q tag reason : Nat) : (s.dmaError addr q tag reason).free = s.free := by obtain ⟨l, h⟩ := s.reportRead_eq reason; unfold State.dmaError; rw [h]; dsimp only; split <;> simp
@[simp] theorem State.dmaError_host (addr q tag reason : Nat) : (s.dmaError addr q tag reason).host = s.host := by obtain ⟨l, h⟩ := s.reportRead_eq reason; unfold State.dmaError; rw [h]; dsimp only; split <;> simp
@[simp] theorem State.dmaError_power (addr q tag reason : Nat) : (s.dmaError addr q tag reason).power = s.power := by obtain ⟨l, h⟩ := s.reportRead_eq reason; unfold State.dmaError; rw [h]; dsimp only; split <;> simp
@[simp] theorem State.dmaError_reservoir (addr q tag reason : Nat) : (s.dmaError addr q tag reason).reservoir = s.reservoir := by obtain ⟨l, h⟩ := s.reportRead_eq reason; unfold State.dmaError; rw [h]; dsimp only; split <;> simp
@[simp] theorem State.dmaError_cascade (addr q tag reason : Nat) : (s.dmaError addr q tag reason).cascade = s.cascade := by obtain ⟨l, h⟩ := s.reportRead_eq reason; unfold State.dmaError; rw [h]; dsimp only; split <;> simp
@[simp] theorem State.dmaError_rills (addr q tag reason : Nat) : (s.dmaError addr q tag reason).rills = s.rills := by obtain ⟨l, h⟩ := s.reportRead_eq reason; unfold State.dmaError; rw [h]; dsimp only; split <;> simp
@[simp] theorem State.dmaError_sluice (addr q tag reason : Nat) : (s.dmaError addr q tag reason).sluice = s.sluice := by obtain ⟨l, h⟩ := s.reportRead_eq reason; unfold State.dmaError; rw [h]; dsimp only; split <;> simp
@[simp] theorem State.dmaError_mirror (addr q tag reason : Nat) : (s.dmaError addr q tag reason).mirror = s.mirror := by obtain ⟨l, h⟩ := s.reportRead_eq reason; unfold State.dmaError; rw [h]; dsimp only; split <;> simp
@[simp] theorem State.dmaError_weir (addr q tag reason : Nat) : (s.dmaError addr q tag reason).weir = s.weir := by obtain ⟨l, h⟩ := s.reportRead_eq reason; unfold State.dmaError; rw [h]; dsimp only; split <;> simp
@[simp] theorem State.dmaError_lock (addr q tag reason : Nat) : (s.dmaError addr q tag reason).lock = s.lock := by obtain ⟨l, h⟩ := s.reportRead_eq reason; unfold State.dmaError; rw [h]; dsimp only; split <;> simp
@[simp] theorem State.dmaError_sundial (addr q tag reason : Nat) : (s.dmaError addr q tag reason).sundial = s.sundial := by obtain ⟨l, h⟩ := s.reportRead_eq reason; unfold State.dmaError; rw [h]; dsimp only; split <;> simp
@[simp] theorem State.dmaError_inlets (addr q tag reason : Nat) : (s.dmaError addr q tag reason).inlets = s.inlets := by obtain ⟨l, h⟩ := s.reportRead_eq reason; unfold State.dmaError; rw [h]; dsimp only; split <;> simp
@[simp] theorem State.dmaError_basin (addr q tag reason : Nat) : (s.dmaError addr q tag reason).basin = s.basin := by obtain ⟨l, h⟩ := s.reportRead_eq reason; unfold State.dmaError; rw [h]; dsimp only; split <;> simp
@[simp] theorem State.dmaError_aqf (addr q tag reason : Nat) : (s.dmaError addr q tag reason).aqf = s.aqf := by obtain ⟨l, h⟩ := s.reportRead_eq reason; unfold State.dmaError; rw [h]; dsimp only; split <;> simp
@[simp] theorem State.dmaError_svc (addr q tag reason : Nat) : (s.dmaError addr q tag reason).svc = s.svc := by obtain ⟨l, h⟩ := s.reportRead_eq reason; unfold State.dmaError; rw [h]; dsimp only; split <;> simp
@[simp] theorem State.dmaError_dbg (addr q tag reason : Nat) : (s.dmaError addr q tag reason).dbg = s.dbg := by obtain ⟨l, h⟩ := s.reportRead_eq reason; unfold State.dmaError; rw [h]; dsimp only; split <;> simp
@[simp] theorem State.dmaError_pebble (addr q tag reason : Nat) : (s.dmaError addr q tag reason).pebble = s.pebble := by obtain ⟨l, h⟩ := s.reportRead_eq reason; unfold State.dmaError; rw [h]; dsimp only; split <;> simp
@[simp] theorem State.dmaError_vocabs (addr q tag reason : Nat) : (s.dmaError addr q tag reason).vocabs = s.vocabs := by obtain ⟨l, h⟩ := s.reportRead_eq reason; unfold State.dmaError; rw [h]; dsimp only; split <;> simp
@[simp] theorem State.dmaError_caches (addr q tag reason : Nat) : (s.dmaError addr q tag reason).caches = s.caches := by obtain ⟨l, h⟩ := s.reportRead_eq reason; unfold State.dmaError; rw [h]; dsimp only; split <;> simp
@[simp] theorem State.dmaError_rdByte (addr q tag reason : Nat) (a : Nat) : (s.dmaError addr q tag reason).rdByte a = s.rdByte a := by simp only [State.rdByte, State.dmaError_basin, State.dmaError_reservoir]
theorem State.dmaError_word (addr q tag reason : Nat) (r : Reg) (i : Nat) (h : r ≠ .HIF_DMA_ERR_ADDR_LO ∧ r ≠ .HIF_DMA_ERR_ADDR_HI ∧ r ≠ .HIF_DMA_ERR_INFO ∧ r ≠ .HIF_EVENT) (hj : i < 131072) : (s.dmaError addr q tag reason).word r i = s.word r i := by
  obtain ⟨l, e⟩ := s.reportRead_eq reason
  unfold State.dmaError; rw [e]; dsimp only; split <;> first | rfl | simp only [State.word_out, State.put, State.ev, State.putb, State.puti, State.bump, State.bumpi, State.putPair, State.word_emit, State.word_dbg, State.fresh_word, HIF_DMA_ERR_INFO.TAG, HIF_DMA_ERR_INFO.QUEUE, HIF_DMA_ERR_INFO.REASON, HIF_EVENT.DMA_ERR, State.word_setWord_of_reg _ _ r _ _ _ (h.1) hj, State.word_setWord_of_reg _ _ r _ _ _ (h.2.1) hj, State.word_setWord_of_reg _ _ r _ _ _ (h.2.2.1) hj, State.word_setWord_of_reg _ _ r _ _ _ (h.2.2.2) hj]
theorem State.dmaError_geti (addr q tag reason : Nat) (g : Fld) (i : Nat) (h : g.reg ≠ .HIF_DMA_ERR_ADDR_LO ∧ g.reg ≠ .HIF_DMA_ERR_ADDR_HI ∧ g.reg ≠ .HIF_DMA_ERR_INFO ∧ g.reg ≠ .HIF_EVENT) (hj : i < 131072) : (s.dmaError addr q tag reason).geti g i = s.geti g i :=
  congrArg g.get (State.dmaError_word s _ _ _ _ _ _ h hj)
@[simp] theorem State.setBusy_pending (f : Fld) (b : Bool) : (s.setBusy f b).pending = s.pending := by unfold State.setBusy; dsimp only; split <;> simp
@[simp] theorem State.setBusy_sel (f : Fld) (b : Bool) : (s.setBusy f b).sel = s.sel := by unfold State.setBusy; dsimp only; split <;> simp
@[simp] theorem State.setBusy_latched (f : Fld) (b : Bool) : (s.setBusy f b).latched = s.latched := by unfold State.setBusy; dsimp only; split <;> simp
@[simp] theorem State.setBusy_staged (f : Fld) (b : Bool) : (s.setBusy f b).staged = s.staged := by unfold State.setBusy; dsimp only; split <;> simp
@[simp] theorem State.setBusy_out (f : Fld) (b : Bool) : (s.setBusy f b).out = s.out := by unfold State.setBusy; dsimp only; split <;> simp
@[simp] theorem State.setBusy_free (f : Fld) (b : Bool) : (s.setBusy f b).free = s.free := by unfold State.setBusy; dsimp only; split <;> simp
@[simp] theorem State.setBusy_host (f : Fld) (b : Bool) : (s.setBusy f b).host = s.host := by unfold State.setBusy; dsimp only; split <;> simp
@[simp] theorem State.setBusy_power (f : Fld) (b : Bool) : (s.setBusy f b).power = s.power := by unfold State.setBusy; dsimp only; split <;> simp
@[simp] theorem State.setBusy_reservoir (f : Fld) (b : Bool) : (s.setBusy f b).reservoir = s.reservoir := by unfold State.setBusy; dsimp only; split <;> simp
@[simp] theorem State.setBusy_cascade (f : Fld) (b : Bool) : (s.setBusy f b).cascade = s.cascade := by unfold State.setBusy; dsimp only; split <;> simp
@[simp] theorem State.setBusy_rills (f : Fld) (b : Bool) : (s.setBusy f b).rills = s.rills := by unfold State.setBusy; dsimp only; split <;> simp
@[simp] theorem State.setBusy_sluice (f : Fld) (b : Bool) : (s.setBusy f b).sluice = s.sluice := by unfold State.setBusy; dsimp only; split <;> simp
@[simp] theorem State.setBusy_mirror (f : Fld) (b : Bool) : (s.setBusy f b).mirror = s.mirror := by unfold State.setBusy; dsimp only; split <;> simp
@[simp] theorem State.setBusy_weir (f : Fld) (b : Bool) : (s.setBusy f b).weir = s.weir := by unfold State.setBusy; dsimp only; split <;> simp
@[simp] theorem State.setBusy_lock (f : Fld) (b : Bool) : (s.setBusy f b).lock = s.lock := by unfold State.setBusy; dsimp only; split <;> simp
@[simp] theorem State.setBusy_sundial (f : Fld) (b : Bool) : (s.setBusy f b).sundial = s.sundial := by unfold State.setBusy; dsimp only; split <;> simp
@[simp] theorem State.setBusy_inlets (f : Fld) (b : Bool) : (s.setBusy f b).inlets = s.inlets := by unfold State.setBusy; dsimp only; split <;> simp
@[simp] theorem State.setBusy_basin (f : Fld) (b : Bool) : (s.setBusy f b).basin = s.basin := by unfold State.setBusy; dsimp only; split <;> simp
@[simp] theorem State.setBusy_aqf (f : Fld) (b : Bool) : (s.setBusy f b).aqf = s.aqf := by unfold State.setBusy; dsimp only; split <;> simp
@[simp] theorem State.setBusy_svc (f : Fld) (b : Bool) : (s.setBusy f b).svc = s.svc := by unfold State.setBusy; dsimp only; split <;> simp
@[simp] theorem State.setBusy_dbg (f : Fld) (b : Bool) : (s.setBusy f b).dbg = s.dbg := by unfold State.setBusy; dsimp only; split <;> simp
@[simp] theorem State.setBusy_pebble (f : Fld) (b : Bool) : (s.setBusy f b).pebble = s.pebble := by unfold State.setBusy; dsimp only; split <;> simp
@[simp] theorem State.setBusy_vocabs (f : Fld) (b : Bool) : (s.setBusy f b).vocabs = s.vocabs := by unfold State.setBusy; dsimp only; split <;> simp
@[simp] theorem State.setBusy_caches (f : Fld) (b : Bool) : (s.setBusy f b).caches = s.caches := by unfold State.setBusy; dsimp only; split <;> simp
@[simp] theorem State.setBusy_rdByte (f : Fld) (b : Bool) (a : Nat) : (s.setBusy f b).rdByte a = s.rdByte a := by simp only [State.rdByte, State.setBusy_basin, State.setBusy_reservoir]
theorem State.setBusy_word (f : Fld) (b : Bool) (r : Reg) (i : Nat) (h : r ≠ f.reg ∧ r ≠ .TASK_STATUS ∧ r ≠ .HIF_EVENT) (hj : i < 131072) : (s.setBusy f b).word r i = s.word r i := by
  unfold State.setBusy; dsimp only; split <;> first | rfl | simp only [State.put, State.ev, State.putb, State.puti, State.bump, State.bumpi, State.putPair, State.word_emit, State.word_dbg, State.fresh_word, TASK_STATUS.BUSY, HIF_EVENT.BUSY_CLEAR, State.word_setWord_of_reg _ _ r _ _ _ (h.1) hj, State.word_setWord_of_reg _ _ r _ _ _ (h.2.1) hj, State.word_setWord_of_reg _ _ r _ _ _ (h.2.2) hj]
theorem State.setBusy_geti (f : Fld) (b : Bool) (g : Fld) (i : Nat) (h : g.reg ≠ f.reg ∧ g.reg ≠ .TASK_STATUS ∧ g.reg ≠ .HIF_EVENT) (hj : i < 131072) : (s.setBusy f b).geti g i = s.geti g i :=
  congrArg g.get (State.setBusy_word s _ _ _ _ h hj)
@[simp] theorem State.dropPartial_pending  : (s.dropPartial).pending = s.pending := (rfl)
@[simp] theorem State.dropPartial_regs  : (s.dropPartial).regs = s.regs := (rfl)
@[simp] theorem State.dropPartial_sel  : (s.dropPartial).sel = s.sel := (rfl)
@[simp] theorem State.dropPartial_latched  : (s.dropPartial).latched = s.latched := (rfl)
@[simp] theorem State.dropPartial_staged  : (s.dropPartial).staged = s.staged := (rfl)
@[simp] theorem State.dropPartial_out  : (s.dropPartial).out = s.out := (rfl)
@[simp] theorem State.dropPartial_free  : (s.dropPartial).free = s.free := (rfl)
@[simp] theorem State.dropPartial_host  : (s.dropPartial).host = s.host := (rfl)
@[simp] theorem State.dropPartial_power  : (s.dropPartial).power = s.power := (rfl)
@[simp] theorem State.dropPartial_reservoir  : (s.dropPartial).reservoir = s.reservoir := (rfl)
@[simp] theorem State.dropPartial_cascade  : (s.dropPartial).cascade = s.cascade := (rfl)
@[simp] theorem State.dropPartial_rills  : (s.dropPartial).rills = s.rills := (rfl)
@[simp] theorem State.dropPartial_sluice  : (s.dropPartial).sluice = s.sluice := (rfl)
@[simp] theorem State.dropPartial_mirror  : (s.dropPartial).mirror = s.mirror := (rfl)
@[simp] theorem State.dropPartial_weir  : (s.dropPartial).weir = s.weir := (rfl)
@[simp] theorem State.dropPartial_lock  : (s.dropPartial).lock = s.lock := (rfl)
@[simp] theorem State.dropPartial_sundial  : (s.dropPartial).sundial = s.sundial := (rfl)
@[simp] theorem State.dropPartial_inlets  : (s.dropPartial).inlets = s.inlets := (rfl)
@[simp] theorem State.dropPartial_basin  : (s.dropPartial).basin = s.basin := (rfl)
@[simp] theorem State.dropPartial_svc  : (s.dropPartial).svc = s.svc := (rfl)
@[simp] theorem State.dropPartial_dbg  : (s.dropPartial).dbg = s.dbg := (rfl)
@[simp] theorem State.dropPartial_pebble  : (s.dropPartial).pebble = s.pebble := (rfl)
@[simp] theorem State.dropPartial_vocabs  : (s.dropPartial).vocabs = s.vocabs := (rfl)
@[simp] theorem State.dropPartial_caches  : (s.dropPartial).caches = s.caches := (rfl)
@[simp] theorem State.dropPartial_rdByte  (a : Nat) : (s.dropPartial).rdByte a = s.rdByte a := by simp only [State.rdByte, State.dropPartial_basin, State.dropPartial_reservoir]
@[simp] theorem State.dropPartial_word  (r : Reg) (i : Nat) : (s.dropPartial).word r i = s.word r i := (rfl)
@[simp] theorem State.dropPartial_geti  (f : Fld) (i : Nat) : (s.dropPartial).geti f i = s.geti f i := (rfl)
@[simp] theorem State.endTask_pending (k status result : Nat) : (s.endTask k status result).pending = s.pending := (rfl)
@[simp] theorem State.endTask_regs (k status result : Nat) : (s.endTask k status result).regs = s.regs := (rfl)
@[simp] theorem State.endTask_sel (k status result : Nat) : (s.endTask k status result).sel = s.sel := (rfl)
@[simp] theorem State.endTask_latched (k status result : Nat) : (s.endTask k status result).latched = s.latched := (rfl)
@[simp] theorem State.endTask_staged (k status result : Nat) : (s.endTask k status result).staged = s.staged := (rfl)
@[simp] theorem State.endTask_out (k status result : Nat) : (s.endTask k status result).out = s.out := (rfl)
@[simp] theorem State.endTask_free (k status result : Nat) : (s.endTask k status result).free = s.free := (rfl)
@[simp] theorem State.endTask_power (k status result : Nat) : (s.endTask k status result).power = s.power := (rfl)
@[simp] theorem State.endTask_reservoir (k status result : Nat) : (s.endTask k status result).reservoir = s.reservoir := (rfl)
@[simp] theorem State.endTask_cascade (k status result : Nat) : (s.endTask k status result).cascade = s.cascade := (rfl)
@[simp] theorem State.endTask_rills (k status result : Nat) : (s.endTask k status result).rills = s.rills := (rfl)
@[simp] theorem State.endTask_sluice (k status result : Nat) : (s.endTask k status result).sluice = s.sluice := (rfl)
@[simp] theorem State.endTask_mirror (k status result : Nat) : (s.endTask k status result).mirror = s.mirror := (rfl)
@[simp] theorem State.endTask_weir (k status result : Nat) : (s.endTask k status result).weir = s.weir := (rfl)
@[simp] theorem State.endTask_lock (k status result : Nat) : (s.endTask k status result).lock = s.lock := (rfl)
@[simp] theorem State.endTask_sundial (k status result : Nat) : (s.endTask k status result).sundial = s.sundial := (rfl)
@[simp] theorem State.endTask_inlets (k status result : Nat) : (s.endTask k status result).inlets = s.inlets := (rfl)
@[simp] theorem State.endTask_basin (k status result : Nat) : (s.endTask k status result).basin = s.basin := (rfl)
@[simp] theorem State.endTask_aqf (k status result : Nat) : (s.endTask k status result).aqf = s.aqf := (rfl)
@[simp] theorem State.endTask_svc (k status result : Nat) : (s.endTask k status result).svc = s.svc := (rfl)
@[simp] theorem State.endTask_dbg (k status result : Nat) : (s.endTask k status result).dbg = s.dbg := (rfl)
@[simp] theorem State.endTask_pebble (k status result : Nat) : (s.endTask k status result).pebble = s.pebble := (rfl)
@[simp] theorem State.endTask_vocabs (k status result : Nat) : (s.endTask k status result).vocabs = s.vocabs := (rfl)
@[simp] theorem State.endTask_caches (k status result : Nat) : (s.endTask k status result).caches = s.caches := (rfl)
@[simp] theorem State.endTask_rdByte (k status result : Nat) (a : Nat) : (s.endTask k status result).rdByte a = s.rdByte a := by simp only [State.rdByte, State.endTask_basin, State.endTask_reservoir]
@[simp] theorem State.endTask_word (k status result : Nat) (r : Reg) (i : Nat) : (s.endTask k status result).word r i = s.word r i := (rfl)
@[simp] theorem State.endTask_geti (k status result : Nat) (f : Fld) (i : Nat) : (s.endTask k status result).geti f i = s.geti f i := (rfl)
@[simp] theorem State.wake_pending (b : Nat) : (s.wake b).pending = s.pending := by unfold State.wake; split <;> simp
@[simp] theorem State.wake_regs (b : Nat) : (s.wake b).regs = s.regs := by unfold State.wake; split <;> simp
@[simp] theorem State.wake_sel (b : Nat) : (s.wake b).sel = s.sel := by unfold State.wake; split <;> simp
@[simp] theorem State.wake_latched (b : Nat) : (s.wake b).latched = s.latched := by unfold State.wake; split <;> simp
@[simp] theorem State.wake_staged (b : Nat) : (s.wake b).staged = s.staged := by unfold State.wake; split <;> simp
@[simp] theorem State.wake_out (b : Nat) : (s.wake b).out = s.out := by unfold State.wake; split <;> simp
@[simp] theorem State.wake_free (b : Nat) : (s.wake b).free = s.free := by unfold State.wake; split <;> simp
@[simp] theorem State.wake_host (b : Nat) : (s.wake b).host = s.host := by unfold State.wake; split <;> simp
@[simp] theorem State.wake_reservoir (b : Nat) : (s.wake b).reservoir = s.reservoir := by unfold State.wake; split <;> simp
@[simp] theorem State.wake_cascade (b : Nat) : (s.wake b).cascade = s.cascade := by unfold State.wake; split <;> simp
@[simp] theorem State.wake_rills (b : Nat) : (s.wake b).rills = s.rills := by unfold State.wake; split <;> simp
@[simp] theorem State.wake_sluice (b : Nat) : (s.wake b).sluice = s.sluice := by unfold State.wake; split <;> simp
@[simp] theorem State.wake_mirror (b : Nat) : (s.wake b).mirror = s.mirror := by unfold State.wake; split <;> simp
@[simp] theorem State.wake_weir (b : Nat) : (s.wake b).weir = s.weir := by unfold State.wake; split <;> simp
@[simp] theorem State.wake_lock (b : Nat) : (s.wake b).lock = s.lock := by unfold State.wake; split <;> simp
@[simp] theorem State.wake_sundial (b : Nat) : (s.wake b).sundial = s.sundial := by unfold State.wake; split <;> simp
@[simp] theorem State.wake_inlets (b : Nat) : (s.wake b).inlets = s.inlets := by unfold State.wake; split <;> simp
@[simp] theorem State.wake_basin (b : Nat) : (s.wake b).basin = s.basin := by unfold State.wake; split <;> simp
@[simp] theorem State.wake_aqf (b : Nat) : (s.wake b).aqf = s.aqf := by unfold State.wake; split <;> simp
@[simp] theorem State.wake_svc (b : Nat) : (s.wake b).svc = s.svc := by unfold State.wake; split <;> simp
@[simp] theorem State.wake_dbg (b : Nat) : (s.wake b).dbg = s.dbg := by unfold State.wake; split <;> simp
@[simp] theorem State.wake_pebble (b : Nat) : (s.wake b).pebble = s.pebble := by unfold State.wake; split <;> simp
@[simp] theorem State.wake_vocabs (b : Nat) : (s.wake b).vocabs = s.vocabs := by unfold State.wake; split <;> simp
@[simp] theorem State.wake_caches (b : Nat) : (s.wake b).caches = s.caches := by unfold State.wake; split <;> simp
@[simp] theorem State.wake_rdByte (b : Nat) (a : Nat) : (s.wake b).rdByte a = s.rdByte a := by simp only [State.rdByte, State.wake_basin, State.wake_reservoir]
@[simp] theorem State.wake_word (b : Nat) (r : Reg) (i : Nat) : (s.wake b).word r i = s.word r i := by unfold State.wake; split <;> rfl
@[simp] theorem State.wake_geti (b : Nat) (f : Fld) (i : Nat) : (s.wake b).geti f i = s.geti f i := by unfold State.wake; split <;> rfl
@[simp] theorem State.signal_pending (v : Nat) : (s.signal v).pending = s.pending := by unfold State.signal; split <;> simp
@[simp] theorem State.signal_regs (v : Nat) : (s.signal v).regs = s.regs := by unfold State.signal; split <;> simp
@[simp] theorem State.signal_sel (v : Nat) : (s.signal v).sel = s.sel := by unfold State.signal; split <;> simp
@[simp] theorem State.signal_latched (v : Nat) : (s.signal v).latched = s.latched := by unfold State.signal; split <;> simp
@[simp] theorem State.signal_staged (v : Nat) : (s.signal v).staged = s.staged := by unfold State.signal; split <;> simp
@[simp] theorem State.signal_free (v : Nat) : (s.signal v).free = s.free := by unfold State.signal; split <;> simp
@[simp] theorem State.signal_power (v : Nat) : (s.signal v).power = s.power := by unfold State.signal; split <;> simp
@[simp] theorem State.signal_reservoir (v : Nat) : (s.signal v).reservoir = s.reservoir := by unfold State.signal; split <;> simp
@[simp] theorem State.signal_cascade (v : Nat) : (s.signal v).cascade = s.cascade := by unfold State.signal; split <;> simp
@[simp] theorem State.signal_rills (v : Nat) : (s.signal v).rills = s.rills := by unfold State.signal; split <;> simp
@[simp] theorem State.signal_sluice (v : Nat) : (s.signal v).sluice = s.sluice := by unfold State.signal; split <;> simp
@[simp] theorem State.signal_mirror (v : Nat) : (s.signal v).mirror = s.mirror := by unfold State.signal; split <;> simp
@[simp] theorem State.signal_weir (v : Nat) : (s.signal v).weir = s.weir := by unfold State.signal; split <;> simp
@[simp] theorem State.signal_lock (v : Nat) : (s.signal v).lock = s.lock := by unfold State.signal; split <;> simp
@[simp] theorem State.signal_sundial (v : Nat) : (s.signal v).sundial = s.sundial := by unfold State.signal; split <;> simp
@[simp] theorem State.signal_inlets (v : Nat) : (s.signal v).inlets = s.inlets := by unfold State.signal; split <;> simp
@[simp] theorem State.signal_basin (v : Nat) : (s.signal v).basin = s.basin := by unfold State.signal; split <;> simp
@[simp] theorem State.signal_aqf (v : Nat) : (s.signal v).aqf = s.aqf := by unfold State.signal; split <;> simp
@[simp] theorem State.signal_svc (v : Nat) : (s.signal v).svc = s.svc := by unfold State.signal; split <;> simp
@[simp] theorem State.signal_dbg (v : Nat) : (s.signal v).dbg = s.dbg := by unfold State.signal; split <;> simp
@[simp] theorem State.signal_pebble (v : Nat) : (s.signal v).pebble = s.pebble := by unfold State.signal; split <;> simp
@[simp] theorem State.signal_vocabs (v : Nat) : (s.signal v).vocabs = s.vocabs := by unfold State.signal; split <;> simp
@[simp] theorem State.signal_caches (v : Nat) : (s.signal v).caches = s.caches := by unfold State.signal; split <;> simp
@[simp] theorem State.signal_rdByte (v : Nat) (a : Nat) : (s.signal v).rdByte a = s.rdByte a := by simp only [State.rdByte, State.signal_basin, State.signal_reservoir]
@[simp] theorem State.signal_word (v : Nat) (r : Reg) (i : Nat) : (s.signal v).word r i = s.word r i := by unfold State.signal; split <;> rfl
@[simp] theorem State.signal_geti (v : Nat) (f : Fld) (i : Nat) : (s.signal v).geti f i = s.geti f i := by unfold State.signal; split <;> rfl

end Sys2Proof.Machine
end

