-- ==== Sys2Proof/Laws/ResetRegs.lean ====
section
/-! SUPPORT. What a reset of a domain makes of each register, and what a function-level reset leaves. -/
namespace Sys2Proof.Machine

/-- A key that no entry of the store has is not found. -/
theorem assocGet_none {κ α : Type} {ord : κ → Nat} {k : κ} : ∀ {l : List (κ × α)}, (∀ e ∈ l, ord k ≠ ord e.1) → assocGet ord k l = none
  | [], _ => rfl
  | (k', v) :: l, h => by
    simp only [assocGet, if_neg (h (k', v) List.mem_cons_self)]
    exact assocGet_none (fun e he => h e (List.mem_cons_of_mem _ he))

/-- A reset of a domain takes its registers to their reset values and leaves every other register (R461). -/
theorem State.word_resetRegs {s : State} (hS : Sound s) (d : Dom) {r : Reg} {i : Nat} (hi : i < r.entries) :
    (s.resetRegs d).word r i = if d.level < r.place.dom.level then s.word r i else regDflt (r, i) := by
  have hlt : i < 131072 := Nat.lt_of_lt_of_le hi r.entries_le
  have key : ∀ e ∈ s.regs, regOrd (r, i) = regOrd e.1 → e.1.1 = r := by
    intro e he h
    exact (regOrd_inj hlt (Nat.lt_of_lt_of_le (hS.entries e he) e.1.1.entries_le) (show regOrd (r, i) = regOrd (e.1.1, e.1.2) from h)).1.symm
  unfold State.resetRegs State.word assocRead
  split
  · next h =>
    congr 1
    refine assocGet_filter regOrd (fun e he ho => ?_)
    simpa [key e he ho] using h
  · next h =>
    rw [assocGet_none]
    · rfl
    · intro e he ho
      obtain ⟨h1, h2⟩ := List.mem_filter.1 he
      exact h (by simpa [key e h1 ho] using h2)

end Sys2Proof.Machine
end

