-- ==== Sys2Proof/WellFormed.lean ====
section
/-! DEFINITION. Which commands name what the Ilugoef has: the numbers of instances lie in their ranges (R2, R12, R142, R147, R193,
R302, R342, R403, R468), and accesses have a length and a value that fits it. -/
namespace Sys2Proof

def isRill (n : Nat) : Bool := decide (n < 16)
def isStage (n : Nat) : Bool := decide (n < 32)
def isBank (n : Nat) : Bool := decide (n < 1024)
def isChannel (n : Nat) : Bool := decide (n < 32)
def isDie (n : Nat) : Bool := decide (n < 1024)
def isBlock (n : Nat) : Bool := decide (n < 8192)
def isQueue (n : Nat) : Bool := decide (n < 8)
def isSpout (n : Nat) : Bool := decide (n < 24)
def isInlet (n : Nat) : Bool := decide (n < 2)
def isCore (n : Nat) : Bool := decide (n < 16)
def isFlow (n : Nat) : Bool := decide (n < 256)
def isSlot (n : Nat) : Bool := decide (n < 4)
def isPool (n : Nat) : Bool := decide (n < 8)
def isClient (n : Nat) : Bool := decide (n < 10)
def isJet (n : Nat) : Bool := decide (n < 68)
def isDec (n : Nat) : Bool := decide (n < 76)
def isLane (n : Nat) : Bool := decide (n < 16)
def isPebbleLane (n : Nat) : Bool := decide (n < 8)
def isAgeBin (n : Nat) : Bool := decide (n < 4)
def isPort (n : Nat) : Bool := decide (n < 26)
def isEndpoint (n : Nat) : Bool := decide (n < 65536)
def isCrossing (n : Nat) : Bool := decide (n < 256)
def isPsn (n : Nat) : Bool := decide (n < 2 ^ 24)
def isBar (n : Nat) : Bool := n == 0 || n == 2
/-- The length of an access in bytes (R472). -/
def isAccess (n : Nat) : Bool := decide (1 ≤ n) && decide (n ≤ 4096)

/-- A flash location names an array die, a block and a page (R147). -/
def FlashLoc.wf (l : FlashLoc) : Bool := isDie l.die && isBlock l.block && decide (l.page < 2048)

def PageWrite.wf : PageWrite → Bool
  | .unit l => l.wf
  | .pad l => l.wf
  | .journal l => l.wf

def UnitCopy.wf (x : UnitCopy) : Bool := x.loc.wf

/-- A failed access gives one of the four reasons of HIF_DMA_ERR_INFO (R219). -/
def HostRead.wf (r : HostRead) : Bool := r.fail.all (fun n => decide (1 ≤ n) && decide (n ≤ 4))

/-- Windows name their age bins (R182). -/
def BringBack.wf (b : BringBack) : Bool := b.windows.all (fun w => isAgeBin w.1)

/-- What discovery finds lies in the array (R142). -/
def Discovery.wf (r : Discovery) : Bool := r.dies.all (fun d => isDie d.1) && r.untrained.all isChannel

def BankReader.wf : BankReader → Bool
  | .stage r k => isRill r && isStage k
  | .task _ => true
  | .client c => isClient c
  | .corrected column => decide (column < 576)

def BankEngine.wf : BankEngine → Bool
  | .rill n => isRill n
  | .spout n => isSpout n
  | .sluice => true
  | .weir => true
  | .keeper => true
  | .client c => isClient c

def CisternRegion.wf : CisternRegion → Bool
  | .buffer r k => isRill r && isStage k
  | .pool _ => true
  | .catalogue => true
  | .map => true
  | .other => true

/-- A received Runnel frame arrives on a Spout (R352). -/
def RxFrame.wf (x : RxFrame) : Bool := isSpout x.spout
def LinkTick.wf (x : LinkTick) : Bool := isSpout x.spout

/-- A PTP message arrives on a port, with a domainNumber of 8 bits (R383). -/
def PtpFrom.wf (x : PtpFrom) : Bool := isPort x.port && decide (x.domain < 256)

/-- The fields of a packet hold what their widths allow (R388, R389). -/
def AvtpPacket.wf (p : AvtpPacket) : Bool :=
  decide (p.version < 8) && decide (p.streamId < 2 ^ 64) && decide (p.subtype < 256) && decide (p.seqNum < 256) && decide (p.timestamp < 2 ^ 32)
  && p.mjpeg.all (fun h => decide (h.type < 256) && decide (h.q < 256) && decide (h.restart < 65536))

/-- Whether a command is well-formed. -/
def Instr.wf : Instr → Bool
  | .registerWrite _ bar off size value => isBar bar && isAccess size && decide (value < 2 ^ (8 * size)) && decide (off < 2 ^ 26)
  | .selectWrite _ _ value => decide (value < 2 ^ 32)
  | .lowWordRead _ bar off => isBar bar && decide (off < 2 ^ 26)
  | .bar4Access addr len write corrected _ => isAccess len && decide (addr + len ≤ 2 ^ 28) && write.all (fun bs => bs.length == len) && corrected.all (fun c => decide (c < 576))
  | .sampleRelease rill => isRill rill
  | .delay rill => isRill rill
  | .start rill => isRill rill
  | .runFixed rill => isRill rill
  | .wait rill => isRill rill
  | .bind rill => isRill rill
  | .loop rill => isRill rill
  | .batchEnd rill => isRill rill
  | .stageDone rill stage _ _ => isRill rill && isStage stage
  | .startTick => true
  | .markerPhaseEnd _ => true
  | .tagMismatch rill crossing => isRill rill && isCrossing crossing
  | .mirrorDrain _ => true
  | .mirCtrlWrite _ => true
  | .mirrorModeChange => true
  | .replayStart _ _ => true
  | .lockstepWindow => true
  | .lockstepFrame _ _ _ _ _ => true
  | .lockstepLost => true
  | .loadStart _ => true
  | .loadAbort => true
  | .loadTransferDone _ => true
  | .loadStructureDone => true
  | .loadSignatureDone => true
  | .loadStagingDone => true
  | .arm _ => true
  | .disarm _ => true
  | .weaveBoundary => true
  | .actDrainDone => true
  | .actSwapDone => true
  | .actOwnershipDone => true
  | .actConstantsDone => true
  | .actPinningDone => true
  | .spareMapWrite _ => true
  | .signCtrlWrite _ _ => true
  | .bankViolation engine stage bank word => engine.wf && isStage stage && isBank bank && decide (word < 4096)
  | .jetDetection jet unit _ _ => isJet jet && (unit == 1 || unit == 2)
  | .engineFault inst => isDec inst
  | .reedFault lane => isLane lane
  | .reservoirUncorr bank reader => isBank bank && reader.wf
  | .cisternUe region => region.wf
  | .rillStop rill => isRill rill
  | .engineSelfTestDone rill _ => rill.all isRill
  | .realignDone rill _ => isRill rill
  | .planArm _ r => r.wf
  | .planTakeEffect slot => isSlot slot
  | .fetchIssue => true
  | .sampleFetchDone _ => true
  | .sluPause _ => true
  | .walkClr => true
  | .probeStart _ => true
  | .probeDone => true
  | .nfcRetrain channel _ => isChannel channel
  | .zqCalibration channel => isChannel channel
  | .unitAdmit _ r => r.wf
  | .unitProgrammed page => page.wf
  | .pageReadDone _ _ => true
  | .rtWindowEnd die ageBin _ => isDie die && isAgeBin ageBin
  | .foldUnit _ copy => copy.wf
  | .relocateUnit _ copy => copy.wf
  | .copyBlockClose die block => isDie die && isBlock block
  | .checkpointSegment => true
  | .pwrFailNFall => true
  | .pfSafe _ => true
  | .mountComplete _ => true
  | .dflAckWrite _ => true
  | .dieTimeout die => isDie die
  | .programFail die block _ => isDie die && isBlock block
  | .dieSuspend _ => true
  | .dieBringBack _ => true
  | .dieRetire _ => true
  | .bringBackDone die found => isDie die && found.wf
  | .autoBack die => isDie die
  | .lifeEval => true
  | .taskGo q _ => isQueue q
  | .taskFetch _ _ _ => true
  | .nop _ => true
  | .readExtent _ _ => true
  | .writeExtent _ => true
  | .deallocate _ => true
  | .flush _ => true
  | .inject _ r => r.wf
  | .format _ r => r.wf
  | .cryptErase _ => true
  | .logRead _ => true
  | .catalogueLoad _ r => r.wf
  | .vocabLoad _ r => r.wf
  | .fwDownload _ r => r.wf
  | .fwActivate _ => true
  | .fwCommit _ => true
  | .fwRevert _ => true
  | .ledgerWrite _ r => r.wf
  | .ledgerRead _ => true
  | .power _ => true
  | .telemetry _ => true
  | .debugUnlock _ r => r.wf
  | .taskComplete _ => true
  | .cqCoalesceTimer q => isQueue q
  | .hostStall _ => true
  | .queueEnable q _ => isQueue q
  | .qreset q _ => isQueue q
  | .cqHeadWrite q _ => isQueue q
  | .functionLevelReset => true
  | .linkDown => true
  | .linkRecovery => true
  | .softReset _ => true
  | .softDone => true
  | .drainExpired => true
  | .p1Entry => true
  | .p2Entry => true
  | .p3Entry => true
  | .powerTaskTimeout => true
  | .handoverGo bank _ => isBank bank
  | .handoverDone bank => isBank bank
  | .poolBanksWrite pool _ => isPool pool
  | .cpoolWrite _ => true
  | .minWrite client pool _ => isClient client && isPool pool
  | .bufferRequest requests => requests.all (fun r => isClient r.1)
  | .bufferFree client _ _ => isClient client
  | .fieldBurn _ => true
  | .burnDone => true
  | .cacheLineFill lane _ _ _ => isLane lane
  | .pebbleGo _ => true
  | .pebbleAbort _ => true
  | .pebbleJobDone lane _ _ _ => isPebbleLane lane
  | .batchEnqueue rill => isRill rill
  | .frameSlot spout => isSpout spout
  | .shaperRefill => true
  | .tableRead _ => true
  | .tableWrite _ => true
  | .roceAck flow psn => isFlow flow && isPsn psn
  | .nakSequence flow psn => isFlow flow && isPsn psn
  | .ackTimeout flow => isFlow flow
  | .rnrNak flow => isFlow flow
  | .nakRemoteError flow => isFlow flow
  | .cnp flow => isFlow flow
  | .cnpHoldEnd flow => isFlow flow
  | .runnelAck spout lseq => spout.wf && decide (lseq < 2 ^ 32)
  | .runnelNak spout lseq => spout.wf && decide (lseq < 2 ^ 32)
  | .credit spout endpoint _ => spout.wf && isEndpoint endpoint
  | .laneMap spout lanes epoch => spout.wf && decide (lanes < 16) && decide (epoch < 256)
  | .retryTimeout spout => isSpout spout
  | .controlFrameTick spout => spout.wf
  | .laneFault spout lane => isSpout spout && decide (lane < 4)
  | .laneRetrained spout lane => isSpout spout && decide (lane < 4)
  | .spoutDown spout => isSpout spout
  | .spoutUp spout => isSpout spout
  | .flowRejoin flow => isFlow flow
  | .spoutRetrain spout _ => isSpout spout
  | .stallLimit flow => isFlow flow
  | .memberReady flow => isFlow flow
  | .resend _ => true
  | .replayHoldExpire _ => true
  | .crHeadWrite _ => true
  | .arpRequest spout _ => isSpout spout
  | .ptpAnnounce port _ => port.wf
  | .ptpSync port _ _ _ _ => port.wf
  | .ptpFollowUp port _ _ => port.wf
  | .ptpDelayReq port _ _ => port.wf
  | .ptpDelayResp port _ _ => port.wf
  | .ptpPdelayReq port _ _ => port.wf
  | .ptpPdelayResp port _ _ _ => port.wf
  | .ptpPdelayRespFollowUp port _ _ => port.wf
  | .ptpSignaling port _ => port.wf
  | .ptpManagement port => port.wf
  | .ptpSyncInterval port => isPort port
  | .timeRequestTick spout => isSpout spout
  | .timeRequest spout _ _ hops state => spout.wf && decide (hops < 16) && decide (state < 4)
  | .timeResponse spout _ _ _ _ hops state => spout.wf && decide (hops < 16) && decide (state < 4)
  | .timeResponseTimeout spout _ => isSpout spout
  | .sourceLost => true
  | .sundialSet _ => true
  | .ppsInEdge _ => true
  | .refLost => true
  | .estimateWrite => true
  | .avtpPacket inlet p => isInlet inlet && p.wf
  | .frameAccept inlet => isInlet inlet
  | .coreHang core => isCore core
  | .coreTakeover core => isCore core
  | .coreRestartDone core => isCore core
  | .keeperRestart _ => true
  | .keeperIntakeOpen => true
  | .wardenHang => true
  | .wardenRestartDone => true
  | .trialExpire => true
  | .barrierReport _ => true
  | .engineSelfTest _ => true
  | .stillwaterStop _ => true
  | .jtagStillwater => true
  | .stillwaterAt => true
  | .stillwaterArm _ => true
  | .stillwaterScan _ => true
  | .scanned => true
  | .resume _ => true
  | .coreHalt _ => true
  | .coreResume _ => true
  | .breakpointHit core => isCore core
  | .snapshot _ => true
  | .traceSync => true
  | .loopStart _ => true
  | .loopStop _ _ _ _ _ => true
  | .loopEnd _ _ _ _ => true
  | .testModeEnter => true
  | .voltageAdjust slack => slack.length == 8
  | .vrFault => true
  | .frequencyDecision _ _ => true
  | .opChange => true
  | .thermtrip => true
  | .thermtripRelease => true
  | .i3cWake => true
  | .wakeTimer => true
  | .spoutSignalDetect spout => isSpout spout
  | .pExit _ => true
  | .trstBoardN => true
  | .deviceResetRequest _ => true
  | .deviceResetDrainDone => true
  | .powerOnReset => true
  | .referenceLoss => true
  | .powerOnResetRelease => true
  | .perstN _ => true
  | .pllLock => true
  | .cisternInitDone => true
  | .onfiDiscoveryDone found => found.wf
  | .functionReady => true
  | .firmwareVerified => true
  | .spoutTrainingStart spout => isSpout spout
  | .bridgeFlitError => true
  | .dmaReadTimeout queue _ _ => isQueue queue
  | .rnrRetry flow => isFlow flow
  | .frameStale inlet => isInlet inlet
  | .ref10InPresent => true
  | .ref10InLost => true
  | .inletLinkUp inlet => isInlet inlet
  | .inletLinkDown inlet => isInlet inlet
  | .pcieLinkUp rate width _ => decide (1 ≤ rate) && decide (rate ≤ 6) && (width == 1 || width == 2 || width == 4 || width == 8 || width == 16)
  | .trstBoardNRelease => true
  | .channelTrainingDone channel _ => isChannel channel
  | .registerRead _ bar off size => isBar bar && isAccess size && decide (off < 2 ^ 26)
  | .d3hotTransition _ => true

end Sys2Proof
end

