-- ==== Sys2Proof/Tests/Slice0.lean ====
section
/-! SUPPORT. The model's own tests: terms that the well-formedness check refuses, and states that meet the premises of the
statements together. -/
namespace Sys2Proof.Tests
open Sys2Proof.Machine

/-! ### Terms that the check refuses, one or more for each kind of bound -/

theorem test_wf_access : (Instr.registerWrite .host 1 0 4 0).wf = false ∧ (Instr.registerWrite .host 0 0 0 0).wf = false ∧
    (Instr.registerWrite .host 0 0 1 256).wf = false ∧ (Instr.registerWrite .host 0 (2 ^ 26) 4 0).wf = false ∧
    (Instr.selectWrite .host .nfc (2 ^ 32)).wf = false ∧ (Instr.lowWordRead .host 4 0).wf = false ∧
    (Instr.registerRead .host 0 0 4097).wf = false ∧ (Instr.registerWrite .host 0 0 4 1).wf = true := by decide

theorem test_wf_window : (Instr.bar4Access 0 0 none none false).wf = false ∧ (Instr.bar4Access (2 ^ 28) 1 none none false).wf = false ∧
    (Instr.bar4Access 0 2 (some [0#8]) none false).wf = false ∧ (Instr.bar4Access 0 1 none (some 576) false).wf = false ∧
    (Instr.bar4Access 0 1 (some [0#8]) none false).wf = true := by decide

theorem test_wf_cascade : (Instr.sampleRelease 16).wf = false ∧ (Instr.stageDone 0 32 0 0).wf = false ∧ (Instr.tagMismatch 0 256).wf = false ∧
    (Instr.bankViolation .sluice 0 1024 0).wf = false ∧ (Instr.bankViolation (.rill 16) 0 0 0).wf = false ∧
    (Instr.bankViolation (.spout 24) 0 0 0).wf = false ∧ (Instr.bankViolation (.client 10) 0 0 0).wf = false ∧
    (Instr.bankViolation .sluice 0 0 4096).wf = false ∧ (Instr.jetDetection 68 1 0 0).wf = false ∧ (Instr.jetDetection 0 3 0 0).wf = false ∧
    (Instr.engineFault 76).wf = false ∧ (Instr.reedFault 16).wf = false ∧ (Instr.planTakeEffect 4).wf = false ∧
    (Instr.reservoirUncorr 0 (.stage 16 0)).wf = false ∧ (Instr.reservoirUncorr 0 (.client 10)).wf = false ∧
    (Instr.reservoirUncorr 0 (.corrected 576)).wf = false ∧ (Instr.cisternUe (.buffer 0 32)).wf = false ∧
    (Instr.engineSelfTestDone (some 16) true).wf = false ∧ (Instr.realignDone 15 []).wf = true := by decide

theorem test_wf_flash : (Instr.nfcRetrain 32 0#32).wf = false ∧ (Instr.unitProgrammed (.unit ⟨1024, 0, 0, false⟩)).wf = false ∧
    (Instr.unitProgrammed (.pad ⟨0, 8192, 0, false⟩)).wf = false ∧ (Instr.unitProgrammed (.journal ⟨0, 0, 2048, true⟩)).wf = false ∧
    (Instr.rtWindowEnd 0 4 []).wf = false ∧ (Instr.dieTimeout 1024).wf = false ∧ (Instr.programFail 0 8192 false).wf = false ∧
    (Instr.unitAdmit 0 ⟨[], some 5⟩).wf = false ∧ (Instr.onfiDiscoveryDone ⟨[], [32]⟩).wf = false ∧ (Instr.unitAdmit 0 ⟨[], some 4⟩).wf = true := by
  decide

theorem test_wf_host_and_links : (Instr.taskGo 8 0#32).wf = false ∧ (Instr.handoverGo 1024 0#32).wf = false ∧ (Instr.poolBanksWrite 8 0#32).wf = false ∧
    (Instr.minWrite 10 0 0#32).wf = false ∧ (Instr.bufferRequest [(10, 0)]).wf = false ∧ (Instr.cacheLineFill 16 0 0 false).wf = false ∧
    (Instr.pebbleJobDone 8 none none 0).wf = false ∧ (Instr.frameSlot 24).wf = false ∧ (Instr.roceAck 256 0).wf = false ∧ (Instr.roceAck 0 (2 ^ 24)).wf = false ∧
    (Instr.runnelAck ⟨0, true⟩ (2 ^ 32)).wf = false ∧ (Instr.credit ⟨0, true⟩ 65536 0).wf = false ∧ (Instr.laneMap ⟨0, true⟩ 16 0).wf = false ∧
    (Instr.laneMap ⟨0, true⟩ 0 256).wf = false ∧ (Instr.runnelNak ⟨24, false⟩ 0).wf = false ∧ (Instr.controlFrameTick ⟨24, 0, 0⟩).wf = false ∧
    (Instr.laneFault 0 4).wf = false ∧ (Instr.ptpManagement ⟨26, 0, .ieee8023⟩).wf = false ∧ (Instr.ptpManagement ⟨0, 256, .udpIpv4⟩).wf = false ∧
    (Instr.timeRequest ⟨0, true⟩ 0 0 16 0).wf = false ∧ (Instr.timeRequest ⟨0, true⟩ 0 0 0 4).wf = false ∧
    (Instr.frameAccept 2).wf = false ∧ (Instr.coreHang 16).wf = false ∧ (Instr.voltageAdjust []).wf = false ∧
    (Instr.pcieLinkUp 0 1 true).wf = false ∧ (Instr.pcieLinkUp 7 1 true).wf = false ∧ (Instr.pcieLinkUp 6 3 true).wf = false ∧
    (Instr.pcieLinkUp 6 16 true).wf = true := by decide

/-! ### States that meet premises -/

/-- The block with the power-on reset released. -/
def awake : State := State.reset.modPower (fun p => { p with porHeld := false })

/-- A task of an opcode that runs. -/
def task (opcode count : Nat) : Task where
  id := 1
  queue := 0
  opcode := opcode
  flags := 0
  tag := 7
  count := count
  target := 0
  addr := 4096
  sglCount := 0
  operands := []
  sg := []
  sqHead := 0
  locked := false
  started := true
  progress := 0
  landed := []
  short := false
  done := none
  silent := false
  prior := none

/-- The block with a task that runs, Keeper and the warden there, and an array that can be read and written. -/
def busy (opcode count : Nat) : State :=
  (({ awake with host := { awake.host with tasks := [task opcode count], nextId := 2 } } : State).put HIF_STATUS.KEEPER_UP 1).put AQF_STATUS.READY 1

/-- A part of one sample that a Rill holds. -/
def part : Part where
  slot := 0
  step := 5
  slice := 0
  dev := 0
  live := false
  epoch := 0
  firstPos := 0
  sliceSize := 1
  reserve := 0
  samples := [(0, 9)]
  round := 0
  todo := [(0, 9)]
  next := []
  final := false
  plan := planOf []

/-- A weave of one Rill with one decoder stage, whose schedule is an operation of stage 0. -/
def weave (op : Nat) : Weave where
  rillMask := 1
  constBytes := 0
  weaveId := 0
  hash := []
  signed := false
  keySlot := 0
  rills := [⟨0, [⟨0, 1, 0xFF, 0, 0, []⟩], [⟨op, 0, 0, 0, 0, 9⟩]⟩]
  owners := []
  consts := []

/-- A sample with its release tag's offset and index. -/
def item : Item where
  tag := ⟨0, 5, 0, 0, 0, 9, 0, 0, 0, 0⟩
  reason := 0
  content := bytesTensor []
  inLen := 0
  oriented := false
  codedW := 0
  codedH := 0
  desc := []
  pixel := none
  bufs := []
  relCycle := 3

/-- The block with the weave in use and Rill 0 at a part, its schedule at an operation, its stage with samples and perhaps at work. -/
def rolling (op : Nat) (input : List Item) (run : Option StageRun) : State :=
  let s : State := { awake.put PWR_STATUS.CASCADE_UP 1 with
    cascade := { awake.cascade with slots := [⟨.active, some (weave op), false⟩, ⟨.empty, none, false⟩] } }
  (s.put (slotFld 0) 1).modRill 0 (fun x => { x with part := some part, stages := [⟨0, input, run, 2⟩] })

/-- The block asleep. -/
def asleep (n : Nat) : State := awake.modPower (fun p => { p with state := n })

/-- The block with queue 0 running. -/
def queued : State :=
  (((awake.puti TASK_Q_CTRL.EN 0 1).puti TASK_Q_STATUS.RUNNING 0 1).puti TASK_SQ_TAIL.TAIL 0 1).put TASK_STATUS.BUSY 0

/-! ### Witnesses: a state and operands that meet the premises of the statements together -/

/-- Awake, the block is sound: what every statement about a next state asks for. -/
theorem witness_sound : Sound awake :=
  ⟨by decide, by decide, by decide, by decide, by decide, by decide, by decide, by decide, by decide, by decide, by decide, by decide,
    by decide, by decide⟩

theorem witness_sound_busy : Sound (busy 2 4) :=
  ⟨by decide, by decide, by decide, by decide, by decide, by decide, by decide, by decide, by decide, by decide, by decide, by decide,
    by decide, by decide⟩

theorem witness_weir : WeirSound awake :=
  ⟨by decide, by decide, by decide, by decide, by decide, by decide, by decide⟩

/-- Registers of three domains take a write at once. -/
theorem witness_served : Served awake .TASK_GO ∧ Served awake .MIR_CTRL ∧ Served awake .PWR_RST_CTRL ∧ Served awake .CSC_LOAD_CTRL := by decide

/-- A host access reaches the registers. -/
theorem witness_taken : Taken awake .host 0 0 ∧ Taken awake .keeper 0 0 := by decide

/-- An access of a size the registers do not have is judged, and an aligned one of four bytes is not (R471). -/
theorem witness_judge : awake.judge .host 0 0 4 none = 0 ∧ awake.judge .host 0 0 3 none ≠ 0 ∧ awake.judge .host 0 2 4 none ≠ 0 := by decide

/-- Tasks that run, of the opcodes the statements name. -/
theorem witness_ready : Ready (busy 1 4) 1 1 (task 1 4) ∧ Ready (busy 2 4) 1 2 (task 2 4) ∧ Ready (busy 3 4) 1 3 (task 3 4) ∧
    Ready (busy 4 0) 1 4 (task 4 0) := by
  refine ⟨?_, ?_, ?_, ?_⟩ <;> exact ⟨by decide, by decide, by decide⟩

/-- Writes of reserved values that reach their registers. -/
theorem witness_reserved : Served awake .MIR_CTRL ∧ Served awake .SDL_CTRL ∧ 2 ≤ MIR_CTRL.MODE.get 0xFFFFFFFF#32 ∧
    SDL_CTRL.ROLE.get 0xFFFFFFFF#32 = 3 := by decide

/-- A write that goes to one instance of a register without commands, and one that goes to all under INST 0xFFFF. -/
theorem witness_plain_write :
    awake.judge .host 0 (Reg.place .SVC_SUSPECT_CFG).base 4 (some 1#32) = 0 ∧ msixAt 0 (Reg.place .SVC_SUSPECT_CFG).base = false ∧
    regAt 0 (Reg.place .SVC_SUSPECT_CFG).base = some (.SVC_SUSPECT_CFG, 0) ∧ (awake.targets .host .SVC_SUSPECT_CFG).Nodup := by decide

theorem witness_wide_pair :
    awake.judge .host 0 (Reg.place .SLU_DEFICIT_LO).base 4 none = 0 ∧ regAt 0 (Reg.place .SLU_DEFICIT_LO).base = some (.SLU_DEFICIT_LO, 0) ∧
    Reg.widePair .SLU_DEFICIT_LO = some (.SLU_DEFICIT_HI, true) ∧ hasEntry .SLU_DEFICIT_HI 0 ((awake.targets .host .SLU_DEFICIT_LO).headD 0) = true := by
  decide

theorem witness_select : Taken awake .host 0 (Reg.place (selReg .nfc)).base ∧ 31 % 65536 < selCount .nfc := by decide

/-- A bank that the host window owns, and one that it does not. -/
theorem witness_window : (awake.puti RSV_OWNER.CLASS 7 clsHost).windowOk (7 * 262144) 16 = true ∧ awake.windowOk (7 * 262144) 16 = false := by decide

theorem witness_sleep : (asleep 1).canAccess .host 0 (Reg.place .CSC_LOAD_CTRL).base = true ∧ (asleep 1).power.state ≠ 0 ∧
    servedAt 0 (Reg.place .CSC_LOAD_CTRL).base = false := by decide

/-- A queue that takes a tail, one whose fetch comes next, and a task that has ended in its turn. -/
theorem witness_queue : Served queued .TASK_GO ∧ queued.ison TASK_STATUS.BUSY = false ∧ queued.draining = false ∧
    queued.isoni TASK_Q_STATUS.RUNNING 0 = true ∧ TASK_GO.TAIL.get 1#32 < queued.sqSize 0 := by decide

theorem witness_fetch : queued.fetchQueue = some 0 := by decide

theorem witness_stall : task 0x29 4 ∈ (busy 0x29 4).host.tasks ∧ (task 0x29 4).done = none ∧ (task 0x29 4).started = true ∧
    (task 0x29 4).writesHost = true := by decide

/-- P0, P1 and P2 with nothing to do and a timer that leads deeper; a block that wakes. -/
theorem witness_power : awake.maySleep = true ∧ awake.quiet = true ∧ (asleep 1).maySleep = true ∧ (asleep 1).quiet = true ∧
    (asleep 2).maySleep = true ∧ (asleep 2).quiet = true ∧ ((awake.put HIF_PWR_CTRL.IDLE1_US 5).put HIF_PWR_CTRL.MAX 3).timerTo 3 = true := by
  decide

/-- The operations of a schedule with what each needs. -/
theorem witness_delay : (rolling 0 [] none).entry? 0 = some ⟨0, 0, 0, 0, 0, 9⟩ := by decide
theorem witness_start : (rolling 1 [item] none).entry? 0 = some ⟨1, 0, 0, 0, 0, 9⟩ ∧
    (rolling 1 [item] none).stageSt? 0 0 = some ⟨0, [item], none, 2⟩ ∧ (rolling 1 [item] none).wstage? 0 0 = some ⟨0, 1, 0xFF, 0, 0, []⟩ ∧
    (rolling 1 [item] none).mirror.replay = none := by decide
theorem witness_loop : (rolling 5 [] none).entry? 0 = some ⟨5, 0, 0, 0, 0, 9⟩ ∧ (rolling 5 [] none).roundLeft 0 = true := by decide
theorem witness_batch_end : (rolling 6 [] none).entry? 0 = some ⟨6, 0, 0, 0, 0, 9⟩ ∧ ((rolling 6 [] none).rill 0).running = false := by decide

/-- A stage at work whose end may come. -/
theorem witness_stage_done :
    let s := rolling 3 [] (some ⟨item, 4, none, 0⟩)
    s.stageSt? 0 0 = some ⟨0, [], some ⟨item, 4, none, 0⟩, 2⟩ ∧ s.still = false ∧ (s.rill 0).holding = false ∧ (s.rill 0).mode = .running ∧
      s.keeperReady 0 ⟨0, 1, 0xFF, 0, 0, []⟩ = true := by decide

/-- A sample that may be released: its catalogue entry names no data, so that it is void. -/
theorem witness_release :
    let s := rolling 1 [] none
    (s.rill 0).part = some part ∧ part.todo = [(0, 9)] ∧ part.untouched = true ∧ s.mayBegin 0 part = true ∧ s.ison SLU_CTRL.PAUSE = false ∧
      s.draining = false ∧ (s.catEntry part.plan 9).fetchable = false := by decide

/-- A record of the ring that goes to host memory. -/
theorem witness_drain :
    let m : MirrorSt := { awake.mirror with ring := [⟨true, 4096, 8192, List.replicate 32 0#8, 0⟩] }
    m.held = [] ∧ m.fill ≤ ringBytes := by decide

/-- A load that begins, one refused, and one in each phase. -/
theorem witness_load : awake.cascade.loader.slot < 2 ∧ Served awake .CSC_LOAD_CTRL ∧ awake.cascade.loader.phase = .idle ∧ awake.activating = false ∧
    awake.armedSlot ≠ some awake.inactiveSlot := by decide

/-- An arm that passes its checks, and one that does not. -/
theorem witness_arm : (rolling 1 [] none).armRefusal 0 9 = 0 ∧ awake.armRefusal 0 9 ≠ 0 ∧ awake.boundaryBegun = false := by decide

theorem witness_boundary :
    let s : State := { awake with cascade := { awake.cascade with act := { awake.cascade.act with armed := some (0, 0) } } }
    s.boundaryReached 0 = true ∧ s.cascade.act.phase = .idle ∧ s.ison TST_MODE.EN = false := by decide

/-- A bank whose handover begins, a request that a pool can grant, and a burn that is refused. -/
theorem witness_basin : awake.beforeOwnership = false ∧ Served awake .RSV_OWNER ∧ awake.halted = false ∧ awake.basin.asks = [] ∧
    awake.ison RSV_FIELD_CTRL.BUSY = false := by decide

/-- The start, the marker phase, a fault on a running Rill, and an access that is not allowed. -/
theorem witness_start_tick : ((awake.put PWR_STATUS.PLL_LOCK 1).modPower (fun p => { p with cistern := true })).startReady = true ∧
    awake.power.startPhase = .reset ∧ (awake.rill 0).mode = .running ∧ (awake.rill 0).faults = [] := by decide

/-- Dies on a channel that trains: the words of the flash statements. -/
theorem witness_channel : Served awake .NFC_CTRL ∧ awake.aqf.training = [] ∧ 3 ∈ channelDies 0 ∧ dieChannel 3 = 0 ∧ dieChannel 32 = 1 := by decide

/-- Keeper up and the array ready: what background work needs. -/
theorem witness_background : (busy 2 4).background = true ∧ awake.background = false := by decide

/-- An Inlet's link, a Spout's link, and a flow that is linked. -/
theorem witness_links : (awake.puti INL_CTRL.EN 0 1).geti INL_CTRL.EN 0 = 1 ∧ awake.awake = true ∧ (awake.puti SPT_STATUS.STATE 3 3).linked 3 = true ∧
    awake.linked 3 = false ∧ awake.spoutOf 0 < 24 := by decide

/-- A Sundial that can be set, and Stillwater armed. -/
theorem witness_sundial : Served awake .SDL_CTRL ∧ SDL_CTRL.ROLE.get 0#32 ≠ 3 ∧ Served awake .DBG_STW_CTRL ∧ DBG_STW_CTRL.SCAN.get 1#32 = 0 := by decide

/-- Ports on which PTP and Runnel time run, a port that serves, and an exchange that waits for its end. -/
theorem witness_ptp :
    let s := ((awake.puti SPT_STATUS.STATE 3 3).puti SPT_STATUS.MODE_ACTIVE 3 1).puti SDL_PORT.ROLE 3 1
    let e := ((awake.puti SPT_STATUS.STATE 3 3).puti SPT_STATUS.MODE_ACTIVE 3 0).puti SDL_PORT.ROLE 3 1
    s.timePort 3 = true ∧ s.ptpPort 3 = false ∧ e.timePort 3 = false ∧ e.ptpPort 3 = true ∧ e.hears ⟨3, 0, .ieee8023⟩ = true ∧
      e.hears ⟨3, 1, .ieee8023⟩ = false := by decide

/-- A small array: dies 0 and 32 ONLINE, with a format, and a unit in staging. -/
def flashy : State :=
  let g : DieGeometry := ⟨16384, 2048, 4, 4, 16, 8⟩
  let f : FormatSt := { slcPct := 25, opPct := 7, crypt := false, slcDiv := 10, dieBudget := 4, spareBlks := 2, profile := zeros 256, units := 64 }
  ((((busy 2 4).modAqf (fun a => { a with
    geometry := some g, format := some f, ids := [(5, ⟨[1#8], g, []⟩)]
    staging := [⟨some 1, 3, zeros 16, true, none, 0, none, [], false⟩] })).setDie 0 dieOnline).setDie 32 dieOnline)

/-- A unit that can be programmed. -/
theorem witness_program :
    flashy.canProgram .openHost false ⟨32, 0, 0, true⟩ = true ∧ decide (flashy.get AQF_SLC.FILL < 100) = true ∧ flashy.inHorizon = true ∧
    flashy.suspendedFor 32 false = false ∧ flashy.servesProgram 32 = true ∧ flashy.ison AQF_STATUS.PF_SAFE = false := by decide

/-- The array with one unit on an SLC page of die 32, a copy block on die 64 that is full, and die 5 away. -/
def mapped : State :=
  let m : PageMeta := ⟨3, false, false, false, false, 1, 1, 1, 0⟩
  (((flashy.modAqf (fun a => { a with
    staging := [], seq := 1, map := [(3, .mapped ⟨32, 0, 0, true⟩)], bringing := [(5, true)]
    blocks := [(blockKey 32 0, { BlockSt.fresh with state := .openHost, slc := true, used := 1 }),
      (blockKey 64 1, { BlockSt.fresh with state := .openCopy, used := 15 })]
    flash := [(pageKey 32 0 0, .unit m (zeros 16) none)] })).setDie 5 dieSuspended).setDie 64 dieOnline).puti BSN_POOL_BANKS.COUNT 3 1

/-- Reads of a page: by the hard decode, by a ladder that is not there, by the soft decode, and lost. -/
theorem witness_read :
    let l : FlashLoc := ⟨32, 0, 0, true⟩
    mapped.aqf.entry 3 = .mapped l ∧ mapped.readEnd l ⟨some 2, [], none, []⟩ = .hard 2 ∧ mapped.readEnd l ⟨none, [], some 5, []⟩ = .soft 5 ∧
    mapped.readEnd l ⟨none, [], none, []⟩ = .lost 32 := by decide

/-- A unit that may be folded, one that may be relocated, and a copy block that can close. -/
theorem witness_copy :
    mapped.background = true ∧ mapped.canProgram .openCopy false ⟨64, 2, 0, false⟩ = true ∧ mapped.suspendedFor 64 false = false ∧
    (mapped.takeBuf aquiferClient unitPool 7).2.isSome = true ∧
    (mapped.aqf.block 64 1).state = .openCopy ∧ mapped.aqf.pagesIn false ≤ (mapped.aqf.block 64 1).used + 1 ∧ mapped.dieState 64 = dieOnline := by decide

/-- A die that is brought back, and one whose answer is another's. -/
theorem witness_bring_back :
    mapped.aqf.bringing.find? (fun b => b.1 == 5) = some (5, true) ∧ mapped.dieState 5 = dieSuspended ∧
    mapped.sameDie 5 ⟨[1#8], ⟨16384, 2048, 4, 4, 16, 8⟩, []⟩ = true ∧ mapped.sameDie 5 ⟨[2#8], ⟨16384, 2048, 4, 4, 16, 8⟩, []⟩ = false ∧
    (List.range 4).all (fun bin => mapped.scanOver 5 bin []) = true := by decide

/-- The array under a power loss that can be made safe, one that mounts, and one that does neither. -/
theorem witness_array :
    (awake.put AQF_STATUS.PF 1).aqf.allDrained = true ∧ (awake.put AQF_STATUS.PF 1).ison AQF_STATUS.PF_SAFE = false ∧
    (awake.put AQF_STATUS.MOUNTING 1).ison AQF_STATUS.MOUNTING = true ∧ awake.aqf.drainLost = [] ∧ Served awake .AQF_DFL_ACK := by decide

/-- A die command of each kind, and a die that is brought back. -/
theorem witness_dies :
    let s := awake.setDie 5 dieSuspended
    Served s .AQF_DIE_CMD ∧ s.dieState 5 = dieSuspended ∧ s.ison AQF_DIE_RESULT.BUSY = false ∧ s.dieState 6 ≠ dieOnline ∧
      (awake.setDie 5 dieOnline).dieState 5 = dieOnline := by decide

/-- A trial that runs, and one whose time has passed. -/
theorem witness_trial :
    let s := (awake.put SVC_STATUS.TRIAL 1).modSvc (fun v => { v with trialEnd := 5 })
    s.trialRuns = true ∧ (s.modPower (fun p => { p with uptime := 5 })).trialRuns = false := by decide

set_option maxRecDepth 100000 in
/-- A ledger copy with one record, read back; one byte changed, and no copy (R415). -/
theorem test_ledger_reads_back :
    let l : LedgerSt := ⟨1, 7, [(0x30, [1#8, 2#8, 3#8])]⟩
    readLedger (ledgerImage l) = some l ∧ readLedger ((ledgerImage l).set 72 9#8) = none ∧ readLedger [] = none := by decide +kernel

/-- SHA-384 of "abc" (FIPS 180-4's example). -/
theorem test_sha384_abc : (sha384 [0x61#8, 0x62#8, 0x63#8]).take 4 = [0xcb#8, 0x00#8, 0x75#8, 0x3f#8] := by decide +kernel

/-- A core that works and hangs, a warden that is there, and barriers that rise. -/
theorem witness_keeper :
    (awake.put SVC_CORE.ROLES 16).coreRole 2 = 1 ∧ (awake.put SVC_CORE.ROLES 16).isHalted 2 = false ∧ awake.svc.wardenDown = false ∧
    Served awake .SVC_BARRIER_HI ∧ awake.svc.lastReport = none := by decide

/-- Two DATA cores whose watchdogs expired in one cycle, and the standby core that each takes: the lower-numbered core the lower (R405). -/
theorem witness_takeover :
    let s := (awake.put SVC_CORE.ROLES 0xF0000000).modSvc (fun v => { v with takeovers := [(3, 1, 9), (2, 1, 9)] })
    s.coresOf 3 = [14, 15] ∧ (s.coresOf 3)[waitingBelow s.svc.takeovers 2 9]? = some 14 ∧
    (s.coresOf 3)[waitingBelow s.svc.takeovers 3 9]? = some 15 := by decide

/-- A device reset that may begin, one whose drain is done, and one that holds. -/
theorem witness_reset :
    awake.draining = false ∧ awake.power.resetDeferred = false ∧ awake.ison AQF_STATUS.PF = false ∧ awake.aqf.allDrained = true ∧
    State.reset.power.porHeld = true ∧ ((awake.put PWR_STATUS.PLL_LOCK 1).ison PWR_STATUS.PLL_LOCK = true) := by decide

/-- A Mirror setting whose records have room, and nothing that releases. -/
theorem witness_mirror : awake.mirTakes 0 = true ∧ awake.releasing = false ∧ (rolling 1 [] none).releasing = true ∧
    (awake.put MIR_LS_CTRL.EN 1).ison MIR_LS_CTRL.EN = true ∧ awake.lock.stopped = false := by decide

/-- A job under way, and a vocabulary slot that no weave names. -/
theorem witness_job : awake.pebble.host = none ∧ Served awake .PBL_JOB_CTRL ∧ awake.vocabNamed 0 = false ∧ awake.ison CSC_STATUS.LOADER_BUSY = false := by
  decide

/-- A table entry that may be written, and a Weir that is not frozen. -/
theorem witness_weir_table : Served awake .WEIR_TBL_CTRL ∧ feValid (awake.flowEntry 4) = false ∧ awake.weir.groups = [] ∧ awake.frozen = false ∧
    awake.weir.crWait = [] := by decide

/-- A link that a frame arrives on, and one that it does not (R352, R353). -/
theorem test_bad_frame_counted :
    let s := (awake.puti SPT_STATUS.STATE 3 3).puti SPT_STATUS.MODE_ACTIVE 3 1
    (s.onFrame ⟨3, false⟩ (fun _ s => s)).geti SPT_DISCARD.COUNT 3 = 1 ∧ (s.onFrame ⟨4, false⟩ (fun _ s => s)).geti SPT_DISCARD.COUNT 4 = 0 := by decide

/-- An Inlet whose link is up. -/
theorem witness_inlet : (awake.puti INL_STATUS.LINK_UP 0 1).geti INL_STATUS.LINK_UP 0 = 1 ∧ (awake.inlet 0).waiting = [] := by decide

/-- A loop-back that may run. -/
theorem witness_loop_back : Served awake .TST_LOOP_CTRL ∧ awake.dbg.loop = none ∧ awake.mayLoop 15 0 0 = false := by decide

/-- Published check values: Adler-32 (of "a"), CRC-32 and xxHash of short texts. -/
theorem test_checksums : adler32 [0x61#8] = 0x00620062 ∧ crc32 [0x61#8] = 0xE8B7BE43 ∧ xx32.hash [] = 0x02CC5D05 ∧
    xx64.hash [] = 0xEF46DB3751D8E999 := by decide +kernel

/-- Streams of the one byte "a" (R220), with a byte after the end, cut short, and with a wrong check (R504). -/
theorem test_inflate :
    inflate 7 9 [0x4b#8, 0x04#8, 0x00#8] = ⟨[0x61#8], 3, none⟩ ∧
    (inflate 7 9 [0x4b#8, 0x04#8, 0x00#8, 0x30#8]).stop = some .badSyntax ∧ (inflate 7 9 [0x4b#8, 0x04#8]).stop = some .truncated ∧
    (inflate 7 0 [0x4b#8, 0x04#8, 0x00#8]).stop = some .limit ∧
    inflate 8 9 [0x78#8, 0x9c#8, 0x4b#8, 0x04#8, 0x00#8, 0x00#8, 0x62#8, 0x00#8, 0x62#8] = ⟨[0x61#8], 9, none⟩ ∧
    (inflate 8 9 [0x78#8, 0x9c#8, 0x4b#8, 0x04#8, 0x00#8, 0x00#8, 0x62#8, 0x00#8, 0x63#8]).stop = some .checksum := by decide +kernel

theorem test_gunzip :
    inflate 9 9 [0x1f#8, 0x8b#8, 0x08#8, 0x00#8, 0x00#8, 0x00#8, 0x00#8, 0x00#8, 0x00#8, 0xff#8, 0x4b#8, 0x04#8, 0x00#8, 0x43#8, 0xbe#8, 0xb7#8, 0xe8#8, 0x01#8, 0x00#8, 0x00#8, 0x00#8] =
      ⟨[0x61#8], 21, none⟩ := by decide +kernel

/-- The base point of P-384 lies on the curve, and the zero signature is none. -/
theorem test_p384 : onCurve p384Base = true ∧ ecdsaOk [] [] (List.replicate 96 0#8) = false := by decide +kernel

/-! ### The rows of the table have no word -/

theorem test_no_word : decodeTableWord 32 0 = none ∧ awake.withFetchWord 32 0 = awake := by decide

end Sys2Proof.Tests
end

section
/-! SUPPORT. The access codes of every bit of a register word (R12), and the counters (R13). -/
namespace Sys2Proof.Machine

theorem Reg.layout_field {r : Reg} {f : FieldSpec} (hf : f ∈ r.layout) : f.lo ≤ f.hi ∧ f.hi < 32 := by
  have h := r.layout_ok
  simp only [layoutOk, Bool.and_eq_true, List.all_eq_true, decide_eq_true_eq] at h
  exact h.1 f hf

theorem Reg.layout_pairwise (r : Reg) : r.layout.Pairwise (fun f g => f.hi < g.lo ∨ g.hi < f.lo) := by
  have h := r.layout_ok
  simp only [layoutOk, Bool.and_eq_true, decide_eq_true_eq] at h
  exact h.2

theorem FieldSpec.covers_iff {f : FieldSpec} {k : Nat} : f.covers k = true ↔ f.lo ≤ k ∧ k ≤ f.hi := by
  simp [FieldSpec.covers]

section Codes
variable {r : Reg} {f : FieldSpec} {k : Nat} (hf : f ∈ r.layout) (hk : k < 32) (hc : f.covers k = true)
include hf hk hc

/-- The mask of an access code holds a bit where the field that covers it has the code. -/
theorem Reg.accMask_covered (a : Acc) : (r.accMask a).getLsbD k = decide (f.acc = a) := by
  rw [Reg.accMask, accMask_fold a k hk _ _ (fun g hg => (layout_field hg).1), covers_unique r.layout_pairwise hf hc (fun g => decide (g.acc = a))]
  simp

/-- Two fields that cover one bit have one access code. -/
theorem Reg.acc_of_covers {g : FieldSpec} (hg : g ∈ r.layout) (hgc : g.covers k = true) : g.acc = f.acc := by
  have h := accMask_covered hf hk hc g.acc
  rw [accMask_covered hg hk hgc] at h
  exact (by simpa using h : f.acc = g.acc).symm

end Codes

/-- The mask of an access code holds no reserved bit. -/
theorem Reg.accMask_reserved {r : Reg} {k : Nat} (hk : k < 32) (hn : ∀ f ∈ r.layout, f.covers k = false) (a : Acc) :
    (r.accMask a).getLsbD k = false := by
  rw [Reg.accMask, accMask_fold a k hk _ _ (fun g hg => (layout_field hg).1), List.any_eq_false.2 (fun g hg => by simp [hn g hg])]
  simp

/-- What the codes other than RWO make of a written word: the first three steps of `Reg.swWrite`. -/
def Reg.maskWrite (r : Reg) (old w : Word) : Word :=
  (blend (r.accMask .rw ||| r.accMask .cnt) old w &&& ~~~ (r.accMask .w1c &&& w)) ||| (r.accMask .w1s &&& w)

theorem Reg.maskWrite_bit (r : Reg) (old w : Word) {k : Nat} (hk : k < 32) : (r.maskWrite old w).getLsbD k =
    ((old.getLsbD k && !((r.accMask .rw).getLsbD k || (r.accMask .cnt).getLsbD k)
        || w.getLsbD k && ((r.accMask .rw).getLsbD k || (r.accMask .cnt).getLsbD k))
      && !((r.accMask .w1c).getLsbD k && w.getLsbD k)
      || (r.accMask .w1s).getLsbD k && w.getLsbD k) := by
  simp only [maskWrite, blend, BitVec.getLsbD_or, BitVec.getLsbD_and, BitVec.getLsbD_not, hk, decide_true, Bool.true_and]

/-- A bit that no RWO field covers is written by the masks alone. -/
theorem Reg.swWrite_bit_masks {r : Reg} (old w : Word) {k : Nat} (hk : k < 32) (h : ∀ g ∈ r.layout, g.covers k = true → g.acc ≠ .rwo) :
    (r.swWrite old w).getLsbD k = (r.maskWrite old w).getLsbD k :=
  rwo_fold_other old w k hk r.layout _ (fun _ => layout_field) h

/-- A bit of an RWO field is written while the field holds its reset value. -/
theorem Reg.swWrite_bit_rwo {r : Reg} {f : FieldSpec} (hf : f ∈ r.layout) (old w : Word) {k : Nat} (hk : k < 32) (hc : f.covers k = true)
    (ha : f.acc = .rwo) :
    (r.swWrite old w).getLsbD k = if (⟨r, f.hi, f.lo⟩ : Fld).get old = f.reset then w.getLsbD k else old.getLsbD k := by
  have hmask : (r.maskWrite old w).getLsbD k = old.getLsbD k := by
    simp [maskWrite_bit r old w hk, accMask_covered hf hk hc, ha, -BitVec.getLsbD_eq_getElem]
  rw [← hmask]
  exact rwo_fold_bit old w k hk f hc ha r.layout _ hf (fun _ => layout_field) r.layout_pairwise

/-- A W1C bit is cleared, and a W1S bit set, where 1 is written. -/
theorem Reg.swWrite_bit_ones {r : Reg} {f : FieldSpec} (hf : f ∈ r.layout) (old w : Word) {k : Nat} (hk : k < 32) (hc : f.covers k = true)
    (ha : f.acc = .w1c ∨ f.acc = .w1s) :
    (r.swWrite old w).getLsbD k = if f.acc = .w1c then old.getLsbD k && !w.getLsbD k else old.getLsbD k || w.getLsbD k := by
  rw [swWrite_bit_masks old w hk (fun g hg hgc => by rw [acc_of_covers hf hk hc hg hgc]; rcases ha with ha | ha <;> simp [ha])]
  rcases ha with ha | ha <;> simp [maskWrite_bit r old w hk, accMask_covered hf hk hc, ha, -BitVec.getLsbD_eq_getElem]

/-- A reserved bit keeps what it holds. -/
theorem Reg.swWrite_bit_reserved {r : Reg} (old w : Word) {k : Nat} (hk : k < 32) (hn : ∀ f ∈ r.layout, f.covers k = false) :
    (r.swWrite old w).getLsbD k = old.getLsbD k := by
  rw [swWrite_bit_masks old w hk (fun g hg hgc => by simp [hn g hg] at hgc)]
  simp [maskWrite_bit r old w hk, accMask_reserved hk hn, -BitVec.getLsbD_eq_getElem]

end Sys2Proof.Machine

namespace Sys2Proof
open Machine

/-- Settles O12: bit by bit, by the code of the field that covers the bit. -/
theorem writtenBitsFollowTheAccessCodes : Obligations.WrittenBitsFollowTheAccessCodes := by
  intro r old w k hk
  refine ⟨fun f hf h1 h2 => ?_, fun hn => ?_⟩
  · have hc : f.covers k = true := FieldSpec.covers_iff.2 ⟨h1, h2⟩
    cases ha : f.acc with
    | rw | cnt | ro | sc | wo => rw [Reg.swWrite_bit hf old w hk h1 h2 (by simp [ha])]; simp [ha]
    | w1c | w1s => rw [Reg.swWrite_bit_ones hf old w hk hc (by simp [ha])]; simp [ha]
    | rwo => exact Reg.swWrite_bit_rwo hf old w hk hc ha
  · exact Reg.swWrite_bit_reserved old w hk (fun f hf => Bool.eq_false_iff.2 (fun hc => hn f hf (FieldSpec.covers_iff.1 hc)))

/-- Settles O13: the sum or all ones fits the field, so the field reads it back. -/
theorem counterFieldsSaturate : Obligations.CounterFieldsSaturate :=
  fun s f i n hi _ hb => s.geti_bumpi f i n hi hb

end Sys2Proof
end

section
/-! SUPPORT. Accesses that reach their register at once: the reply to a read, and the words that it latches (R14, R471, R476). -/
namespace Sys2Proof.Machine

section Served
variable {s : State} {rq : Requester} {bar off : Nat} {r : Reg} {k : Nat}

/-- An access that reaches the registers at once names no block that sleeps (R217). -/
theorem not_asleep_of_taken (h : Taken s rq bar off) : ¬ (s.power.state ≠ 0 ∧ servedAt bar off = false) := by
  rintro ⟨hpower, hserved⟩
  rcases h.2 with h0 | h1
  · exact hpower h0
  · simp [h1] at hserved

theorem writeAccess_taken (size value : Nat) (h : Taken s rq bar off) : writeAccess rq bar off size value s = s.doWrite rq bar off size value := by
  rw [writeAccess, if_neg (by simp [h.1]), if_neg (not_asleep_of_taken h)]

theorem readAccess_taken (size : Nat) (h : Taken s rq bar off) : readAccess rq bar off size s = s.doRead rq bar off size := by
  rw [readAccess, if_neg (by simp [h.1]), if_neg (not_asleep_of_taken h)]

/-- A write that violates nothing is one of its register. -/
theorem State.doWrite_reg {size value : Nat} (hj : s.judge rq bar off size (some (BitVec.ofNat 32 value)) = 0) (hm : msixAt bar off = false)
    (hr : regAt bar off = some (r, k)) : s.doWrite rq bar off size value = s.writeReg rq r k (BitVec.ofNat 32 value) := by
  simp [State.doWrite, hj, hm, hr]

/-- A read that violates nothing latches and replies. -/
theorem State.doRead_reg {size : Nat} (hj : s.judge rq bar off size none = 0) (hm : msixAt bar off = false)
    (hr : regAt bar off = some (r, k)) : s.doRead rq bar off size =
      (s.latchRead rq r k ((s.targets rq r).headD 0)).emit (.reply rq (leBytes 4 (s.readEntry rq r k ((s.targets rq r).headD 0)).toNat)) := by
  simp [State.doRead, hj, hm, hr]

end Served

/-- A read changes the latches alone. -/
theorem State.latchRead_eq (s : State) (rq : Requester) (r : Reg) (k inst : Nat) :
    s.latchRead rq r k inst = { s with latched := (s.latchRead rq r k inst).latched } := by
  unfold State.latchRead
  generalize latchedBy (r, entryOf r k inst) = l
  induction l generalizing s with
  | nil => rfl
  | cons e l ih => rw [List.foldl_cons, ih]; rfl

@[simp] theorem State.latchRead_word (s : State) (rq : Requester) (r : Reg) (k inst : Nat) (q : Reg) (j : Nat) :
    (s.latchRead rq r k inst).word q j = s.word q j := by rw [State.latchRead_eq]; rfl
@[simp] theorem State.latchRead_rdByte (s : State) (rq : Requester) (r : Reg) (k inst a : Nat) :
    (s.latchRead rq r k inst).rdByte a = s.rdByte a := by rw [State.latchRead_eq]; rfl
@[simp] theorem State.latchRead_sel (s : State) (rq : Requester) (r : Reg) (k inst : Nat) : (s.latchRead rq r k inst).sel = s.sel := by
  rw [State.latchRead_eq]
@[simp] theorem State.latchRead_out (s : State) (rq : Requester) (r : Reg) (k inst : Nat) : (s.latchRead rq r k inst).out = s.out := by
  rw [State.latchRead_eq]

/-- The reply to a read that violates nothing stands behind what had left the block, and before the vectors. -/
theorem State.doRead_out {s : State} {rq : Requester} {bar off size : Nat} {r : Reg} {k : Nat} (hj : s.judge rq bar off size none = 0)
    (hm : msixAt bar off = false) (hr : regAt bar off = some (r, k)) (b : State) : ∃ l, (finish b (s.doRead rq bar off size)).out =
      s.out ++ .reply rq (leBytes 4 (s.readEntry rq r k ((s.targets rq r).headD 0)).toNat) :: l := by
  obtain ⟨l, hl⟩ := finish_out b (s.doRead rq bar off size)
  exact ⟨l, by rw [hl, State.doRead_reg hj hm hr]; simp⟩

/-! ### Pairs whose low word is read first (R14, R476) -/

section Pairs
variable {lo hi : Reg} {c : Bool} (h : lo.widePair = some (hi, c))
include h

/-- The two words of a pair are numbered alike. -/
theorem entryOf_widePair (k inst : Nat) : entryOf lo k inst = entryOf hi k inst := by
  unfold Reg.widePair at h
  split at h <;> cases h <;> rfl

theorem isSelect_widePair : hi.isSelect = none := by
  unfold Reg.widePair at h
  split at h <;> cases h <;> rfl

/-- A read of a low word latches its high word and nothing else. -/
theorem latchedBy_widePair (i : Nat) : latchedBy (lo, i) = [(hi, i)] := by
  unfold Reg.widePair at h
  split at h <;> cases h <;> rfl

end Pairs

theorem State.latchOf_setLatch_same (s : State) (rq : Requester) (k : RegKey) (w : Word) : (s.setLatch rq k w).latchOf rq k = some w := by
  rw [State.latchOf, State.setLatch_latched, assocRead_put_same]

/-- A latched word answers a read of its entry. -/
theorem State.readEntry_latched {s : State} {rq : Requester} {r : Reg} {k inst : Nat} {w : Word} (he : hasEntry r k inst = true)
    (hs : r.isSelect = none) (hl : latches (r, entryOf r k inst) = true) (hw : s.latchOf rq (r, entryOf r k inst) = some w) :
    s.readEntry rq r k inst = w := by
  simp [State.readEntry, he, hs, hl, hw]

theorem State.latchRead_widePair {lo hi : Reg} {c : Bool} (h : lo.widePair = some (hi, c)) (s : State) (rq : Requester) (k inst : Nat) :
    s.latchRead rq lo k inst = s.setLatch rq (hi, entryOf hi k inst) (s.live hi (entryOf hi k inst)) := by
  rw [State.latchRead, latchedBy_widePair h, entryOf_widePair h]; rfl

end Sys2Proof.Machine

namespace Sys2Proof
open Machine

/-- Settles O15: the read latches and replies, and a latch is no part of what the statement keeps. -/
theorem registerReadRepliesWithTheWord : Obligations.RegisterReadRepliesWithTheWord := by
  intro rq bar off s r k htaken hjudge hmsix hreg
  refine ⟨_, rfl, ?_⟩
  rw [readAccess_taken 4 htaken]
  refine ⟨State.doRead_out hjudge hmsix hreg s, ?_⟩
  rw [State.doRead_reg hjudge hmsix hreg]
  exact ⟨by simp, by simp, by simp⟩

/-- Settles O14: the low word's read latches the high word alone, and a latch answers whatever the registers hold. -/
theorem lowWordReadLatchesTheHighWord : Obligations.LowWordReadLatchesTheHighWord := by
  intro rq bar off s lo hi c k htaken hjudge hmsix hreg hpair inst hlatches hentry _
  refine ⟨_, rfl, ?_⟩
  rw [readAccess_taken 4 htaken]
  refine ⟨State.doRead_out hjudge hmsix hreg s, fun u hu => ?_⟩
  refine State.readEntry_latched hentry (isSelect_widePair hpair) hlatches ?_
  rw [finish_latched, State.doRead_reg hjudge hmsix hreg, State.emit_latched, State.latchRead_widePair hpair] at hu
  rw [State.latchOf, hu]
  exact State.latchOf_setLatch_same s rq _ _

end Sys2Proof
end

section
/-! SUPPORT. Writes of registers without a command, at all the entries that a requester's selection names (R12, R475). -/
namespace Sys2Proof.Machine

/-! ### Signals -/

theorem signals_word (s : State) (l : List Nat) (r : Reg) (i : Nat) : (l.foldl State.signal s).word r i = s.word r i := by
  rw [signals_eq]; rfl
theorem signals_rdByte (s : State) (l : List Nat) (a : Nat) : (l.foldl State.signal s).rdByte a = s.rdByte a := by
  rw [signals_eq]; rfl

section Resignal
variable (rq : Requester) (q : Reg) (written : List Nat) (w : Word) (b s : State)

/-- The signals that follow a write are signals, or none. -/
theorem resignal_signals : ∃ l : List Nat, resignal rq q written w b s = l.foldl State.signal s := by
  unfold resignal
  dsimp only
  split
  · exact ⟨_, rfl⟩
  · exact ⟨[], rfl⟩

@[simp] theorem resignal_word (r : Reg) (i : Nat) : (resignal rq q written w b s).word r i = s.word r i := by
  obtain ⟨l, h⟩ := resignal_signals rq q written w b s
  rw [h, signals_word]
@[simp] theorem resignal_rdByte (a : Nat) : (resignal rq q written w b s).rdByte a = s.rdByte a := by
  obtain ⟨l, h⟩ := resignal_signals rq q written w b s
  rw [h, signals_rdByte]

end Resignal

/-! ### A write of a register without a command -/

/-- Every register whose write has an effect of its own lists what that effect can change. -/
theorem State.regEffect_of_command_nil {r : Reg} (h : r.command = []) (s : State) (rq : Requester) (k inst : Nat) (w : Word) :
    s.regEffect rq r k inst w = s.writeEntry rq r k inst (r.clampWord w) := by
  unfold State.regEffect
  split
  case h_42 => rfl
  all_goals cases h

/-- An entry of a register without a command takes a software write, unless it does not exist or ignores writes for now. -/
theorem State.writeOne_plain {r : Reg} (h : r.Plain) (s : State) (rq : Requester) (k inst : Nat) (w : Word) :
    s.writeOne rq r k inst w = if hasEntry r k inst = true ∧ s.writeLocked r (entryOf r k inst) = false
      then s.swWrite r (entryOf r k inst) (r.clampWord w) else s := by
  obtain ⟨hsel, hcmd, hstage, hpair⟩ := h
  rw [State.writeOne, hsel]
  dsimp only
  by_cases hw : hasEntry r k inst = true ∧ s.writeLocked r (entryOf r k inst) = false
  · rw [if_pos hw, if_neg (by simp [hw.1, hw.2]), State.regEffect_of_command_nil hcmd, State.writeEntry, if_neg (by simp [hw.1, hw.2]),
      if_neg (by simp [hstage])]
    split
    · next hi he => exact absurd he (hpair hi)
    · rfl
  · have hkeep : (!hasEntry r k inst || s.writeLocked r (entryOf r k inst)) = true := by
      cases he : hasEntry r k inst with
      | false => rfl
      | true =>
        cases hl : s.writeLocked r (entryOf r k inst) with
        | false => exact absurd ⟨he, hl⟩ hw
        | true => rfl
    rw [if_neg hw, if_pos hkeep]

/-- Whether a register ignores writes is no matter of its own words. -/
theorem State.writeLocked_swWrite (s : State) (r : Reg) (i j : Nat) (w : Word) (hj : j < 131072) :
    (s.swWrite r i w).writeLocked r j = s.writeLocked r j := by
  unfold State.writeLocked
  split
  case h_10 => rfl
  all_goals
    simp only [State.isoni_def, State.ison_def]
    rw [State.geti_swWrite_other _ _ _ _ _ _ (.inl (by decide)) (by omega)]

/-- The instances that one access reaches have entries of their own. -/
theorem entryOf_inj {s : State} {rq : Requester} {r : Reg} {k a b : Nat} (ha : a ∈ s.targets rq r) (hb : b ∈ s.targets rq r)
    (h : entryOf r k a = entryOf r k b) : a = b := by
  unfold entryOf at h
  split at h
  · omega
  · next hp =>
    rw [State.targets, if_neg hp, List.mem_singleton] at ha hb
    rw [ha, hb]

section Plain
variable {r : Reg} (h : r.Plain) (s : State) (rq : Requester) (k : Nat) (w : Word)
include h

theorem State.writeOne_word_other (inst : Nat) {r' : Reg} {i : Nat} (hi : i < 131072) (hne : r' ≠ r ∨ i ≠ entryOf r k inst) :
    (s.writeOne rq r k inst w).word r' i = s.word r' i := by
  rw [State.writeOne_plain h]
  split
  · exact State.word_swWrite_other _ _ _ _ _ _ hne hi
  · rfl

/-- The entry itself holds the old word with the written one folded in by the access codes. -/
theorem State.writeOne_word_same {inst : Nat} (hlt : entryOf r k inst < r.entries) :
    (s.writeOne rq r k inst w).word r (entryOf r k inst) =
      if hasEntry r k inst = true ∧ s.writeLocked r (entryOf r k inst) = false
      then r.swWrite (s.word r (entryOf r k inst)) (r.clampWord w) else s.word r (entryOf r k inst) := by
  rw [State.writeOne_plain h]
  split
  · exact State.word_swWrite _ _ _ _ hlt
  · rfl

theorem State.writeOne_locked (inst : Nat) {i : Nat} (hi : i < 131072) :
    (s.writeOne rq r k inst w).writeLocked r i = s.writeLocked r i := by
  rw [State.writeOne_plain h]
  split
  · exact State.writeLocked_swWrite _ _ _ _ _ hi
  · rfl

theorem State.writeOne_rdByte (inst a : Nat) : (s.writeOne rq r k inst w).rdByte a = s.rdByte a := by
  rw [State.writeOne_plain h]
  split
  · rw [State.swWrite, State.setWord_eq]; rfl
  · rfl

/-- Writes of several instances leave every entry that is none of theirs. -/
theorem State.writeAll_word_other {r' : Reg} {i : Nat} (hi : i < 131072) : ∀ (l : List Nat) (s : State),
    (r' ≠ r ∨ ∀ inst ∈ l, i ≠ entryOf r k inst) → (l.foldl (fun s inst => s.writeOne rq r k inst w) s).word r' i = s.word r' i
  | [], _, _ => rfl
  | inst :: l, s, hne => by
    rw [List.foldl_cons, State.writeAll_word_other hi l _ (hne.imp id (fun hl j hj => hl j (List.mem_cons_of_mem _ hj))),
      State.writeOne_word_other h s rq k w inst hi (hne.imp id (fun hl => hl inst List.mem_cons_self))]

theorem State.writeAll_rdByte (a : Nat) : ∀ (l : List Nat) (s : State),
    (l.foldl (fun s inst => s.writeOne rq r k inst w) s).rdByte a = s.rdByte a
  | [], _ => rfl
  | inst :: l, s => by rw [List.foldl_cons, State.writeAll_rdByte a l, State.writeOne_rdByte h]

/-- Of writes of several instances with entries of their own, each finds its entry as it was before them all. -/
theorem State.writeAll_word_same : ∀ (l : List Nat) (s : State), (l.map (entryOf r k)).Nodup → (∀ inst ∈ l, entryOf r k inst < r.entries) →
    ∀ inst ∈ l, (l.foldl (fun s inst => s.writeOne rq r k inst w) s).word r (entryOf r k inst) =
      (s.writeOne rq r k inst w).word r (entryOf r k inst)
  | [], _, _, _, _, hmem => by cases hmem
  | x :: l, s, hnd, hlt, inst, hmem => by
    rw [List.map_cons, List.nodup_cons] at hnd
    obtain ⟨hx, hnd⟩ := hnd
    have hbound : entryOf r k inst < 131072 := Nat.lt_of_lt_of_le (hlt inst hmem) r.entries_le
    rw [List.foldl_cons]
    rcases List.mem_cons.1 hmem with rfl | hmem
    · refine State.writeAll_word_other h rq k w hbound l _ (.inr (fun j hj he => hx ?_))
      exact he ▸ List.mem_map_of_mem hj
    · have hne : entryOf r k inst ≠ entryOf r k x := fun he => hx (he ▸ List.mem_map_of_mem hmem)
      have hle : entryOf r k inst < r.entries := hlt inst (List.mem_cons_of_mem _ hmem)
      rw [State.writeAll_word_same l _ hnd (fun j hj => hlt j (List.mem_cons_of_mem _ hj)) inst hmem,
        State.writeOne_word_same h _ rq k w hle, State.writeOne_word_same h s rq k w hle,
        State.writeOne_locked h s rq k w x hbound, State.writeOne_word_other h s rq k w x hbound (.inr hne)]

end Plain

end Sys2Proof.Machine

namespace Sys2Proof
open Machine

/-- Settles O11: the selected instances have entries of their own, so each write finds its entry as it was before the access. -/
theorem plainWriteReachesSelectedInstances : Obligations.PlainWriteReachesSelectedInstances := by
  intro rq bar off value s r k htaken hjudge hmsix hreg hplain hnodup hlt
  refine ⟨_, rfl, ?_⟩
  rw [writeAccess_taken 4 value htaken, State.doWrite_reg hjudge hmsix hreg]
  refine ⟨fun inst hinst => ?_, fun r' i hi hne => ?_, fun a => ?_⟩
  · have hmap : ((s.targets rq r).map (entryOf r k)).Nodup :=
      List.pairwise_map.2 (hnodup.imp_of_mem (fun ha hb hne he => hne (entryOf_inj ha hb he)))
    rw [finish_word, State.writeReg, resignal_word, State.writeAll_word_same hplain rq k _ _ s hmap hlt inst hinst]
    exact State.writeOne_word_same hplain s rq k _ (hlt inst hinst)
  · rw [finish_word, State.writeReg, resignal_word]
    exact State.writeAll_word_other hplain rq k _ (Nat.lt_of_lt_of_le hi r'.entries_le) _ s hne
  · rw [finish_rdByte, State.writeReg, resignal_rdByte]
    exact State.writeAll_rdByte hplain rq k _ a _ s

end Sys2Proof
end

section
/-! SUPPORT. Writes of MIR_CTRL and SDL_CTRL: what their effects leave of the written word (R68, R396). -/
namespace Sys2Proof.Machine

/-- Every register outside a list reads in the second state as in the first. No soundness is asked: a write of a register changes no other,
whatever the store holds. -/
def SameBeside (l : List Reg) (s t : State) : Prop := ∀ r, r ∉ l → ∀ j, j < 131072 → t.word r j = s.word r j

namespace SameBeside
variable {l : List Reg} {s₀ s t : State}

theorem refl (l : List Reg) (s : State) : SameBeside l s s := fun _ _ _ _ => rfl

theorem get (h : SameBeside l s t) (f : Fld) (hf : f.reg ∉ l) : t.get f = s.get f := by
  rw [State.get_def, State.get_def, State.geti, State.geti, h f.reg hf 0 (by decide)]

/-- A change beside the register file. -/
theorem of_regs (h : SameBeside l s₀ s) (e : t.regs = s.regs) : SameBeside l s₀ t := fun r hr j hj => by
  rw [← h r hr j hj, State.word, State.word, e]

theorem puti (h : SameBeside l s₀ s) (f : Fld) (i v : Nat) (hf : f.reg ∈ l := by decide) : SameBeside l s₀ (s.puti f i v) := fun r hr j hj => by
  rw [← h r hr j hj]
  exact s.word_puti_other f i j v r (.inl (fun e => hr (e ▸ hf))) hj

theorem put (h : SameBeside l s₀ s) (f : Fld) (v : Nat) (hf : f.reg ∈ l := by decide) : SameBeside l s₀ (s.put f v) := h.puti f 0 v hf
theorem ev (h : SameBeside l s₀ s) (f : Fld) (hf : f.reg ∈ l := by decide) : SameBeside l s₀ (s.ev f) := h.puti f 0 1 hf
theorem evi (h : SameBeside l s₀ s) (f : Fld) (i : Nat) (hf : f.reg ∈ l := by decide) : SameBeside l s₀ (s.evi f i) := h.puti f i 1 hf
theorem putb (h : SameBeside l s₀ s) (f : Fld) (b : Bool) (hf : f.reg ∈ l := by decide) : SameBeside l s₀ (s.putb f b) := h.puti f 0 _ hf

theorem ite {c : Prop} [Decidable c] (h1 : SameBeside l s₀ s) (h2 : SameBeside l s₀ t) : SameBeside l s₀ (if c then s else t) := by
  split
  · exact h1
  · exact h2

theorem each (h : SameBeside l s₀ s) {f : Nat → State → State} (hf : ∀ i s, SameBeside l s₀ s → SameBeside l s₀ (f i s)) (n : Nat) :
    SameBeside l s₀ (s.each n f) := by
  unfold State.each
  generalize List.range n = is
  induction is generalizing s with
  | nil => exact h
  | cons i is ih => exact ih (hf i s h)

end SameBeside

/-! ### The Sundial's registers (R377 to R386) -/

/-- The registers in which the Sundial shows its source and its state. -/
def clockRegs : List Reg := [.SDL_STATUS, .SDL_EVENT, .SDL_FREQ, .INL_STATUS, .INL_EVENT]

section Clock
variable {s₀ s : State} (h : SameBeside clockRegs s₀ s)
include h

theorem SameBeside.showTimeLock : SameBeside clockRegs s₀ s.showTimeLock :=
  h.each (fun i _ h => .ite ((h.puti _ i _).evi _ i) (h.puti _ i _)) 2

theorem SameBeside.enterSdl (st : Nat) : SameBeside clockRegs s₀ (s.enterSdl st) := by
  unfold State.enterSdl
  extract_lets was s1 s2 s3 d s4
  have h1 : SameBeside clockRegs s₀ s1 := h.put SDL_STATUS.STATE st
  have h2 : SameBeside clockRegs s₀ s2 := .ite (h1.ev SDL_EVENT.LOCK) (.ite (h1.ev SDL_EVENT.HOLDOVER) h1)
  have h3 : SameBeside clockRegs s₀ s3 := .ite (h2.put SDL_FREQ.FREQ _) h2
  exact .ite h (.showTimeLock (h3.of_regs rfl))

theorem SameBeside.showSource : SameBeside clockRegs s₀ s.showSource := by
  have h1 := ((h.put SDL_STATUS.SOURCE_KIND s.source.1).put SDL_STATUS.SOURCE_PORT s.source.2).ev SDL_EVENT.SOURCE_CHANGE
  have h2 := h1.enterSdl
  exact .put (.ite h (.ite (h2 1) (.ite (h2 3) (.ite (h2 _) h1)))) SDL_STATUS.HOPS _

theorem SameBeside.judgePins : SameBeside clockRegs s₀ s.judgePins := by
  unfold State.judgePins
  extract_lets s1
  have h1 : SameBeside clockRegs s₀ s1 := .ite h (.of_regs (h.put SDL_STATUS.PPS_PRESENT 0) rfl)
  exact .ite h1 (h1.put SDL_STATUS.REF10_PRESENT 0)

theorem SameBeside.setTime : SameBeside clockRegs s₀ s.setTime := by
  unfold State.setTime
  dsimp only
  have h1 : ∀ d f, SameBeside clockRegs s₀ ((s.stepTime d).modSdl f) := fun _ _ => h.of_regs rfl
  exact .ite (.ite (.of_regs ((h1 _ _).enterSdl 2) rfl) (h1 _ _)) (h.ev _)

theorem SameBeside.followRef10 : SameBeside clockRegs s₀ s.followRef10 :=
  .ite (.put (s := (s.fresh 0 (2 * freqLimit.toNat + 1)).2) (h.of_regs rfl) SDL_FREQ.FREQ _) h

end Clock

/-- A write of SDL_CTRL changes its own word by the access codes, and then what the Sundial shows. -/
theorem sdlCtrl_sameBeside (w : Word) (s : State) : SameBeside clockRegs (s.swWrite .SDL_CTRL 0 w) (sdlCtrl w s) := by
  have h := (SameBeside.refl clockRegs (s.swWrite .SDL_CTRL 0 w)).judgePins.showSource
  exact (SameBeside.showSource (.ite h.setTime h)).followRef10

/-! ### The Mirror's registers (R54 to R68, R502, R503) -/

/-- The registers in which a setting of the Mirror and the start of a replay show, MIR_CTRL apart. -/
def mirrorRegs : List Reg :=
  [.MIR_STATUS, .MIR_FILL, .SLU_STATUS, .SLU_EVENT, .CSC_ACT_STATUS, .BSN_EVENT, .TASK_STATUS, .HIF_EVENT]

theorem slotFld_mem (k : Nat) : (slotFld k).reg ∈ mirrorRegs := by simp [slotFld, mirrorRegs]
theorem pendFld_mem (k : Nat) : (pendFld k).reg ∈ mirrorRegs := by simp [pendFld, mirrorRegs]

section Mirror
variable {s₀ s : State} (h : SameBeside mirrorRegs s₀ s)
include h

theorem SameBeside.setBusy (f : Fld) (b : Bool) (hf : f.reg ∈ mirrorRegs) : SameBeside mirrorRegs s₀ (s.setBusy f b) := fun r hr j hj => by
  rw [← h r hr j hj]
  exact s.setBusy_word f b r j ⟨fun e => hr (e ▸ hf), fun e => hr (e ▸ by decide), fun e => hr (e ▸ by decide)⟩ hj

theorem SameBeside.showBasin (b : State) : SameBeside mirrorRegs s₀ (showBasin b s) :=
  .setBusy (((h.put BSN_EVENT.WARN _).putb SLU_STATUS.THROTTLED _).putb SLU_STATUS.HEAD_ONLY _) _ _ (by decide)

theorem SameBeside.unlist (k step : Nat) : SameBeside mirrorRegs s₀ (s.unlist k step) := by
  unfold State.unlist
  extract_lets mine bufs d s1 s2
  have h2 : SameBeside mirrorRegs s₀ s2 := h.of_regs rfl
  exact SameBeside.showBasin (h2.of_regs (t := s2.freeBufs 3 bufs) rfl) s2

theorem SameBeside.endReplay : SameBeside mirrorRegs s₀ s.endReplay := by
  unfold State.endReplay
  extract_lets m s1
  have h1 : SameBeside mirrorRegs s₀ s1 := .put (h.of_regs rfl) MIR_STATUS.REPLAYING 0
  refine h1.each (fun k s h => ?_) 4
  have h2 := SameBeside.put (s := s.modSlot k (fun x => { x with pending := none })) (h.of_regs rfl) (pendFld k) 0 (pendFld_mem k)
  exact .ite (((h2.unlist k 0).put (slotFld k) 3 (slotFld_mem k)).ev SLU_EVENT.PLAN_END) h2

theorem SameBeside.checkReplay : SameBeside mirrorRegs s₀ s.checkReplay := by
  unfold State.checkReplay
  split
  · refine .ite (.ev h.endReplay _ ?_) h
    split <;> decide
  · exact h

theorem SameBeside.record (type rill flags step : Nat) (body : List Byte) : SameBeside mirrorRegs s₀ (s.record type rill flags step body) :=
  .ite (.put (.of_regs h rfl) MIR_FILL.FILL_MIB _) h

theorem SameBeside.beginSegment : SameBeside mirrorRegs s₀ s.beginSegment :=
  .record (s := { (s.fresh 1 (2 ^ 48)).2 with mirror := { (s.fresh 1 (2 ^ 48)).2.mirror with seq := 0 } }) (h.of_regs rfl) _ _ _ _ _

theorem SameBeside.mirApply : SameBeside mirrorRegs s₀ s.mirApply := by
  unfold State.mirApply
  extract_lets old new was now moved s1 s2 m3 s3 s4 d m4
  have h1 : SameBeside mirrorRegs s₀ s1 := .ite h.endReplay h
  have h2 : SameBeside mirrorRegs s₀ s2 := .ite (.put (h1.of_regs rfl) MIR_FILL.FILL_MIB _) h1
  have h4 : SameBeside mirrorRegs s₀ s4 := .putb (h2.of_regs rfl) MIR_STATUS.RECORDING now
  exact .ite h (.ite (h.ev MIR_STATUS.LOG_FULL) (.ite (.beginSegment (h4.of_regs rfl)) (.ite h4.beginSegment h4)))

theorem SameBeside.armByHash (step : Nat) (x : List Byte) : SameBeside mirrorRegs s₀ (s.armByHash step x) :=
  .put (.put (h.of_regs rfl) CSC_ACT_STATUS.ARMED 1) CSC_ACT_STATUS.ARMED_SLOT _

theorem SameBeside.armNextFromLog (step : Nat) : SameBeside mirrorRegs s₀ (s.armNextFromLog step) := by
  unfold State.armNextFromLog
  split
  · split
    · exact h.armByHash _ _
    · exact h
  · exact h

theorem SameBeside.armFromLog (p : Replay) : SameBeside mirrorRegs s₀ (s.armFromLog p) := by
  unfold State.armFromLog
  exact h.each (fun k s h => SameBeside.putb (s := s.modSlot k _) (h.of_regs rfl) (pendFld k) _ (pendFld_mem k)) 4

theorem SameBeside.beginReplay (log : List (List Byte)) (mismatch : Bool) : SameBeside mirrorRegs s₀ (s.beginReplay log mismatch) := by
  unfold State.beginReplay
  extract_lets last standing p m s1 s2 s3 s4
  have h3 : SameBeside mirrorRegs s₀ s3 := .armFromLog (.put (h.of_regs rfl) MIR_STATUS.REPLAYING 1) p
  refine .checkReplay ?_
  unfold s4
  split
  · exact h3.armByHash _ _
  · exact h3.armNextFromLog _

end Mirror

/-- A write of MIR_CTRL changes its own word by the access codes, and then what the Mirror shows. -/
theorem mirCtrlEffect_sameBeside (w : Word) (s : State) : SameBeside mirrorRegs (s.swWrite .MIR_CTRL 0 w) (mirCtrlEffect w s) :=
  .ite (.refl _ _) (SameBeside.refl _ _).mirApply

theorem replayStartEffect_sameBeside (w : Word) (log : List Byte) (s : State) :
    SameBeside mirrorRegs (s.swWrite .MIR_CTRL 0 w) (replayStartEffect w log s) :=
  have h := mirCtrlEffect_sameBeside w s
  .ite (.ite (h.beginReplay _ _) (h.ev MIR_STATUS.DCLASS_MISMATCH)) h

/-- A field that software writes reads what was written, whatever a command changes beside its register. -/
theorem SameBeside.get_swWrite {l : List Reg} {s t : State} {f : Fld} {w : Word} (h : SameBeside l (s.swWrite f.reg 0 w) t)
    (hl : f.reg ∉ l) (hw : f.writable f.reg = true) (b : State) : (finish b t).get f = f.get w := by
  rw [finish_get, h.get f hl]
  exact s.geti_swWrite_rw f f.reg 0 w rfl hw f.reg.entries_pos

end Sys2Proof.Machine

namespace Sys2Proof
open Machine

theorem exec_replayStart_served {s : State} (w : Word) (log : List Byte) (h : Served s .MIR_CTRL) :
    exec (.replayStart w log) s = .next (finish s (replayStartEffect w log s)) := by
  show execReplayStart w log s = _
  rw [execReplayStart, if_neg (by simp [h.1]), if_neg (by simp [h.2])]

/-- Settles O8: no effect that follows the write of a control register writes it again. -/
theorem reservedValuesAreStored : Obligations.ReservedValuesAreStored := by
  intro s w
  refine ⟨fun hs => ⟨_, rfl, ?_⟩, fun hs => ⟨_, rfl, ?_⟩, fun log hs => ⟨_, exec_replayStart_served w log hs, ?_⟩⟩
  · rw [State.viaReg_served hs]
    exact (mirCtrlEffect_sameBeside w s).get_swWrite (f := MIR_CTRL.MODE) (by decide) (by decide) s
  · rw [State.viaReg_served hs, ← Fld.get_set_beside SDL_CTRL.SET SDL_CTRL.ROLE w 1 (by decide)]
    exact (sdlCtrl_sameBeside _ s).get_swWrite (f := SDL_CTRL.ROLE) (by decide) (by decide) s
  · exact (replayStartEffect_sameBeside w log s).get_swWrite (f := MIR_CTRL.MODE) (by decide) (by decide) s

end Sys2Proof
end
